-- ==== Sys2Proof/Word.lean ====
section
/-! DEFINITION. The word types of the block and its sparse tables: a table lists, in rising key order, the
keys whose value differs from one default, so that equal tables are equal data. Chapters 00 and 19. -/

namespace Sys2Proof

/-- One byte of a memory or of a message. -/
abbrev Byte := BitVec 8

/-- A string of bytes, lowest address first. -/
abbrev Bytes := List (BitVec 8)

/-- A register of BAR0 (chapter 19: registers are 32 bits wide). -/
abbrev Word := BitVec 32

/-- A sparse table from unit numbers (or addresses) to values. -/
abbrev Tab (α : Type) := List (Nat × α)

end Sys2Proof
end

