-- ==== Sys2Proof/Forms.lean ====
section
/-! DEFINITION. The operand types of the commands. -/

namespace Sys2Proof

/-- The masters of R532: 0 the host, 1 to 16 the supervisor of cluster k - 1, 17 to 20 a Millwright core, 21 the
security processor. -/
abbrev Master := Fin 22

/-- A flit's header and payload (R372, R373, R375): the destination router, the packet it belongs to, its number among the packet's flits
and their count less 1, the flits of the response that a read request asks for (0: none), and up to 256 bytes. -/
structure FlitIn where
  dst     : Fin 16
  pkt     : Nat := 0
  num     : Fin 16 := 0
  more    : Fin 16 := 0
  resp    : Fin 17 := 0
  payload : List (BitVec 8) := []
  deriving DecidableEq, Repr

/-- A core of the die: a cluster and a core of it (physical numbers). -/
structure CoreId where
  cluster : Fin 16
  core    : Fin 32
  deriving DecidableEq, Repr

/-- One engine of one core. -/
structure EngineId where
  cluster : Fin 16
  core    : Fin 32
  engine  : Fin 32
  deriving DecidableEq, Repr

/-- Where a task runs: a core, or a unit of a cluster (0 Millstone, 1 Quern, 2 Sorrel, 3 Sage, 4 gather coalescer). -/
inductive Seat where
  | core (c : CoreId)
  | unit (k : Fin 16) (u : Fin 5)
  deriving DecidableEq, Repr

/-- The fields of a stream-program word below its opcode (R154). -/
structure Fields where
  ty  : Fin 256
  vd  : Fin 32
  va  : Fin 32
  vb  : Fin 32
  vc  : Fin 32
  mask : Fin 8
  mz  : Bool
  rnd : Fin 8
  sat : Bool
  sub : Fin 16
  imm : Fin 65536
  deriving DecidableEq, Repr

/-- The two byte spaces that an address operand may name: the bus (host and peer memory) and HBM device addresses. -/
inductive Space where
  | bus
  | hbm
  deriving DecidableEq, Repr

/-- What the bus agents did before a step, and which reads or writes of the step fail: stores of other agents made
visible (address and bytes, oldest first) and failing ranges (base and length). `flips` are HBM words, by word number, in
which bits have turned over since: one bit, or (true) more than the ECC corrects. -/
structure BusEnv where
  stores : List (Nat × Bytes)
  bad    : List (Nat × Nat)
  flips  : List (Nat × Bool)
  deriving DecidableEq, Repr

/-- The configuration present (R30, R533): units in service. -/
structure Present where
  /-- Bit 32k + n: core n of cluster k is in service. -/
  cores    : Nat := 0
  /-- Bit k: the domain of cluster k is on and the cluster is in service. -/
  clusters : Nat := 0
  /-- Bit p: pseudo-channel p (R365) is in service. -/
  pchans   : Nat := 0
  /-- Bit i: intake lane i is in service. -/
  lanes    : Nat := 0
  /-- Bit l: PCIe lane l is in service. -/
  pcie     : Nat := 0
  /-- Bit 8p + l: lane l of Rolog pair port p is in service. -/
  rolog    : Nat := 0
  deriving DecidableEq, Repr

/-- The rows that a unit task covers on its cluster: the batch row slot (or table row) of its first row, how many batch
rows, and how many layer rows each batch row has. -/
structure Rows where
  first : Nat
  count : Nat
  per   : Nat
  deriving DecidableEq, Repr

/-- An upset of a Sage entry before a step (R242): bank and address; the bits of the match row that have turned over (KEY from bit 0, PRIO
from bit 512, VALID at bit 520); the parity bits that have; and 64-bit words of the stored copy, each with one more bit turned over. -/
structure SageUpset where
  bank : Nat
  addr : Nat
  row : Nat
  parity : Nat
  words : List Nat
  deriving DecidableEq, Repr

/-- What a lane's decoder takes from one field of a row, before the checks of R271 to R273: a null, the element's bits, an
exact integer (integer text, an unscaled decimal), a time with its unit (0 s, 1 ms, 2 us, 3 ns), bytes, list elements. -/
inductive RawCell where
  | null
  | bits (v : Nat)
  | int (v : Int)
  | time (v : Int) (unit : Fin 4)
  | bytes (v : Bytes)
  | elems (v : List Nat)
  deriving DecidableEq, Repr

/-- Where a lane writes the columns of a batch's rows: a cluster (logical), the row slots it holds, and by table column a COL word
of R331, or 0 for a column that is not written there. -/
structure Dest where
  cluster : Fin 16
  first   : Nat
  count   : Nat
  cols    : List Nat
  deriving DecidableEq, Repr

/-- What a lane decodes for: a batch of a stream; the rows of an attached table (a landing or other table stage); a window of a WINDOWED
stream (R280, R281), by the FROM_BATCH of the epoch mark that it is counted from and its number since then. -/
inductive Into where
  | batch (b : Nat)
  | table (t : Fin 4096)
  | window (mark k : Nat)
  deriving DecidableEq, Repr

/-- What a lane's work on a unit of input concerns: the rows whose bytes it holds (row slots of a batch, or row numbers), where the columns of a
batch's rows go, and whether only the unit's header is read (R270, R272). -/
structure UnitRows where
  rows   : List Nat
  dests  : List Dest := []
  header : Bool := false
  deriving DecidableEq, Repr

/-- The rows of a task, and how many of them each core's partial result takes (log entry 91). -/
structure SplitRows where
  rows  : Rows
  parts : List Nat
  deriving DecidableEq, Repr

/-- A size that a header declares (R271). -/
inductive Declared where
  | pageComp (n : Nat)
  | pageUncomp (n : Nat)
  | zstd (window dictId : Nat)
  | dict (n : Nat)
  | value (n : Nat)
  | list (n : Nat)
  | record (n : Nat)
  | image (w h : Nat)
  deriving DecidableEq, Repr

/-- A unit's header: the sizes that it declares, and the byte range of the unit's body (R270, R271). -/
structure UnitHeader where
  sizes : List Declared
  off  : Nat := 0
  len  : Nat := 0
  deriving DecidableEq, Repr

/-- What a lane decodes in one go: a page or buffer with the sizes that its headers declare and the fields of its rows (row slots of a batch,
or row numbers of a table); a page that breaks its format, by the first five causes of R272, with the rows that this voids; CSV text
that starts at the record of source row `first`; rows of a blocked source; rows of a window that the lane has decoded (R281). -/
inductive PageIn where
  | page (sizes : List Declared) (rows : List (Nat × List RawCell))
  | broken (cause : Fin 5) (rows : List Nat)
  | csv (first : Nat) (text : Bytes)
  | blocked (rows : List Nat)
  | kept (rows : List Nat)
  deriving DecidableEq, Repr

/-- A TOKENISE declaration (R288): the stream and the column of its source that it works on, and the rule's fields by their codes; `str` tells a
STRING column from a BINARY one. -/
structure TokDecl where
  stream : Nat
  col  : Nat
  dict : Nat
  unit : Nat
  pre  : Nat
  bos  : Option Nat
  eos  : Option Nat
  maxTokens : Nat
  trunc : Nat
  form : Nat
  padId : Nat
  str  : Bool
  deriving DecidableEq, Repr

/-- An IMAGE_PREP declaration (R297): the stream and the column of its source that it works on, the columns of per-row MESH and LENS lists, the
rule's fields by their codes, FP32 values as their bits. -/
structure PrepDecl where
  stream : Nat
  col    : Nat
  meshCol : Option Nat
  lensCol : Option Nat
  outW   : Nat
  outH   : Nat
  gx     : Nat
  gy     : Nat
  mesh   : Option (List Nat)
  lens   : Option (List Nat)
  filter : Nat
  sup    : Nat
  border : Nat
  colour : Nat
  mean   : List Nat
  std    : List Nat
  pad    : List Nat
  outTy  : Nat
  layout : Nat
  rnd    : Nat
  deriving DecidableEq, Repr

/-- A normalisation that a program word computes (R206, R207): kind; NAN_MODE; the FILL constant's bits in the word's type; CLIP01 of
MINMAX or SIGNED of LOG1P; its constant parameters as binary64 codes, which are mu and sigma, lo and hi, or the knots; the table stage whose
FIT gives them instead, with the number of knots (R208). -/
inductive NormKind where
  | zscore | minmax | log1p | clip | quantile
  deriving DecidableEq, Repr
structure Norm where
  kind    : NormKind
  nanMode : Fin 3
  fill    : Nat
  flag    : Bool
  params  : List Nat
  fit     : Option (Nat × Nat)
  deriving DecidableEq, Repr

/-- What a range-bucketing PARTITION declares (R182, R183): NULL_MODE, NULL_BUCKET, NAN_MODE NULL, and, in place of its own list, a constant list
of boundaries or the stage whose sketch gives them, with the number of buckets. -/
structure Bucketing where
  nullMode   : Fin 3
  nullBucket : Nat
  nanNull    : Bool
  consts     : List Nat := []
  fit        : Option (Nat × Nat)
  deriving DecidableEq, Repr

/-- What a graph declares of its operators beside their parameter words (log entry 95): normalisations by program and body word; row masks
(R169), a COL word by template; range bucketings by template; the RANK_SKETCH templates that work by the FIT rules (R208); the
graph phase of a template (R53). -/
structure OpDecls where
  norms   : List (Nat × Nat × Norm) := []
  masks   : List (Nat × Nat) := []
  buckets : List (Nat × Bucketing) := []
  fits    : List Nat := []
  phases  : List (Nat × Nat) := []
  deriving DecidableEq, Repr

/-- What LOAD_GRAPH brings of the declarations of a graph's images (R297) and operators. -/
structure GraphDecls where
  preps : List PrepDecl := []
  ops   : OpDecls := {}
  deriving DecidableEq, Repr

/-- A value of a batch: its row slot and its column. -/
structure ValueAt where
  slot : Nat
  col  : Nat
  deriving DecidableEq, Repr

/-- A budgeted sample (R275): the value that Chervil tokenises by a declaration, or the JPEG value that is decoded. -/
inductive Sample where
  | text (d : TokDecl) (v : Bytes)
  | image (v : Bytes)
  deriving DecidableEq, Repr

/-- Parquet's physical types (R267). -/
inductive PqPhys where
  | boolean | int32 | int64 | int96 | float | double | byteArray
  | fixed (n : Nat)
  deriving DecidableEq, Repr

/-- Parquet's logical annotations (R267); units of a time: 0 s, 1 ms, 2 us, 3 ns. -/
inductive PqLog where
  | none | date | float16 | string | other
  | int (bits : Nat) (signed : Bool)
  | decimal (precision scale : Nat)
  | timestamp (unit : Fin 4) (utc : Bool)
  deriving DecidableEq, Repr

/-- Arrow IPC's types (R267). -/
inductive ArTy where
  | bool | utf8 | binary | other
  | int (bits : Nat) (signed : Bool)
  | floating (bits : Nat)
  | decimal128 (precision scale : Nat)
  | date (day : Bool)
  | timestamp (unit : Fin 4)
  deriving DecidableEq, Repr

/-- The type of a column or LIST element of a file. -/
inductive SrcTy where
  | pq (p : PqPhys) (l : PqLog)
  | ar (t : ArTy)
  deriving DecidableEq, Repr

/-- The codecs and the Parquet encodings that R267 names, and all others. -/
inductive Codec where
  | uncompressed | snappy | lz4Raw | zstd | gzip | other
  deriving DecidableEq, Repr
inductive PqEnc where
  | plain | rle | plainDictionary | rleDictionary | deltaBinaryPacked | other
  deriving DecidableEq, Repr

/-- A column as a Parquet or Arrow footer declares it: its type; whether rows may be null; for a LIST, whether its elements may be; any
other nesting; codec, encodings, and whether Arrow encodes it by a dictionary (R267). -/
structure SrcCol where
  ty      : SrcTy
  optional : Bool
  list    : Option Bool
  nested  : Bool
  codec   : Codec
  encs    : List PqEnc
  dict    : Bool
  deriving DecidableEq, Repr

/-- What an ATTACH_TABLE takes from a table of FORMAT 0, 1 or 2 (R265, R266): whether the Parquet or Arrow footer parses, whether
Arrow's MetadataVersion is V5 and its offsets are multiples of 8; row groups or record batches, the rows of the largest, all rows;
the columns of the footer, or for CSV the declared schema (type, NULLABLE, scale); for CSV what each Zstandard extent decompresses to
(none where it is no sequence of frames), and the graph's header row and delimiter. -/
structure FileIn where
  parses  : Bool
  v5      : Bool
  aligned : Bool
  groups  : Nat
  group   : Nat
  rows    : Nat
  src     : List SrcCol
  schema  : List (Nat × Bool × Nat)
  texts   : List (Option Bytes)
  header  : Bool
  delim   : Byte
  deriving DecidableEq, Repr

end Sys2Proof
end

