-- ==== Sys2Proof/Syntax.lean ====
section
/-! DEFINITION. The commands of the block: one constructor per row of the opcode table, with the operands the
command carries. Each docstring names the row's rule. -/

namespace Sys2Proof

/-- The commands of the block. -/
inductive Instr where
  /-- REGISTER_WRITE (R9). -/
  | registerWrite (m : Master) (off : Nat) (data : Nat) (len : Nat)
  /-- RC_READ (R9). -/
  | rcRead (off : Nat) (len : Nat) (inc : Nat)
  /-- LO_READ_CAPTURE (R7). -/
  | loReadCapture (off : Nat)
  /-- COMMIT_WRITE (R10). -/
  | commitWrite (m : Master) (off : Nat) (data : Nat)
  /-- PENDING_COPY_ADOPT (R13). -/
  | pendingCopyAdopt (chan : Bool) (n : Fin 64)
  /-- NET_SHARE_APPLY (R378). -/
  | netShareApply (k : Fin 16)
  /-- BEAT_IN_FRAME (R34). -/
  | beatInFrame (bits : Nat) (t : Nat)
  /-- BEAT_PAGE_POLL (R36). -/
  | beatPagePoll (t : Nat)
  /-- BEAT_PAGE_READ_COMPLETE (R546). -/
  | beatPageReadComplete (line : Option Bytes) (issued : Nat) (t : Nat)
  /-- BEAT_PHASE_END_HOLD (R45). -/
  | beatPhaseEndHold (t : Nat)
  /-- BEAT_HOLD_TIMEOUT_LOST (R45). -/
  | beatHoldTimeoutLost (t : Nat)
  /-- REBASE (R40). -/
  | rebase (m : Master)
  /-- BEAT_SRC_SELECT (R39). -/
  | beatSrcSelect (src : Fin 4)
  /-- DISPATCHER_TICK (R47). -/
  | dispatcherTick (t : Nat)
  /-- STRM_ARM (R359). -/
  | strmArm (st : Fin 64) (m : Master)
  /-- GLB_ATTACH_GO (R61). -/
  | glbAttachGo (m : Master)
  /-- ATTACH_AGREEMENT_COMPLETE (R535). -/
  | attachAgreementComplete (t : Nat)
  /-- DOORBELL_POLL (R66). -/
  | doorbellPoll (g : Fin 8) (t : Nat)
  /-- DOORBELL_READ_COMPLETE (R67). -/
  | doorbellReadComplete (g : Fin 8) (line : Option Bytes) (t : Nat)
  /-- SUBMISSION_ENTRY_ARRIVE (R84). -/
  | submissionEntryArrive (q : Fin 64) (e : BusEnv) (t : Nat)
  /-- ACCEPTANCE_RECORD_COMPLETE (R540). -/
  | acceptanceRecordComplete (seq : Nat) (ok : Bool) (t : Nat)
  /-- JOURNAL_WRITE_RETRY (R540). -/
  | journalWriteRetry (t : Nat)
  /-- ATTACH_TABLE (R541). -/
  | attachTable (seq : Nat) (e : BusEnv) (x : FileIn)
  /-- DETACH_TABLE (R73). -/
  | detachTable (seq : Nat)
  /-- LOAD_GRAPH (R58). -/
  | loadGraph (seq : Nat) (e : BusEnv) (verified : Bool) (sage : List (Nat × Nat × Nat × Nat)) (toks : List TokDecl) (decls : GraphDecls)
  /-- UNLOAD_GRAPH (R59). -/
  | unloadGraph (seq : Nat)
  /-- OPEN_STREAM (R71). -/
  | openStream (seq : Nat) (e : BusEnv) (src : Nat)
  /-- CLOSE_STREAM (R76). -/
  | closeStream (seq : Nat)
  /-- SET_EPOCH (R282). -/
  | setEpoch (seq : Nat)
  /-- RUN (R74). -/
  | run (seq : Nat)
  /-- CANCEL (R94). -/
  | cancel (seq : Nat)
  /-- FENCE (R97). -/
  | fence (seq : Nat)
  /-- QUERY (R77). -/
  | query (seq : Nat) (e : BusEnv)
  /-- WARM_RESTART (R543). -/
  | warmRestart (seq t : Nat)
  /-- COMMAND_COMPLETE (R85). -/
  | commandComplete (seq : Nat) (t : Nat)
  /-- COMPLETION_ENTRY_WRITE (R68). -/
  | completionEntryWrite (q : Fin 64) (t : Nat)
  /-- MODERATION_TIMER_EXPIRE (R98). -/
  | moderationTimerExpire (q : Fin 64) (t : Nat)
  /-- JOURNAL_GO (R89). -/
  | journalGo (m : Master) (t : Nat)
  /-- JOURNAL_WALK_COMPLETE (R86). -/
  | journalWalkComplete (e : BusEnv) (t : Nat)
  /-- JOURNAL_CONTROL_LINE_TIMER (R86). -/
  | journalControlLineTimer (t : Nat)
  /-- QP_ENABLE (R79). -/
  | qpEnable (q : Fin 64) (m : Master)
  /-- QP_DISABLE (R93). -/
  | qpDisable (q : Fin 64) (m : Master)
  /-- BATCH_RECORD_WRITE (R357). -/
  | batchRecordWrite (st : Fin 64) (t : Nat)
  /-- NOP (R157). -/
  | nop (e : EngineId) (f : Fields)
  /-- LOOP (R154). -/
  | loop (e : EngineId) (f : Fields)
  /-- LEND (R154). -/
  | lend (e : EngineId) (f : Fields)
  /-- LD (R153). -/
  | ld (e : EngineId) (f : Fields)
  /-- ST (R153). -/
  | st (e : EngineId) (f : Fields)
  /-- LDV (R137). -/
  | ldv (e : EngineId) (f : Fields)
  /-- STV (R137). -/
  | stv (e : EngineId) (f : Fields)
  /-- ADD (R157). -/
  | add (e : EngineId) (f : Fields)
  /-- SUB (R157). -/
  | sub (e : EngineId) (f : Fields)
  /-- MUL (R148). -/
  | mul (e : EngineId) (f : Fields)
  /-- MULH (R145). -/
  | mulh (e : EngineId) (f : Fields)
  /-- FMA (R143). -/
  | fma (e : EngineId) (f : Fields)
  /-- DIV (R146). -/
  | div (e : EngineId) (f : Fields)
  /-- DIVF (R146). -/
  | divf (e : EngineId) (f : Fields)
  /-- REM (R146). -/
  | rem (e : EngineId) (f : Fields)
  /-- MODF (R146). -/
  | modf (e : EngineId) (f : Fields)
  /-- MIN (R143). -/
  | min (e : EngineId) (f : Fields)
  /-- MAX (R143). -/
  | max (e : EngineId) (f : Fields)
  /-- ABS (R157). -/
  | abs (e : EngineId) (f : Fields)
  /-- NEG (R157). -/
  | neg (e : EngineId) (f : Fields)
  /-- CLAMP (R143). -/
  | clamp (e : EngineId) (f : Fields)
  /-- SQRT (R157). -/
  | sqrt (e : EngineId) (f : Fields)
  /-- MOV (R157). -/
  | mov (e : EngineId) (f : Fields)
  /-- MOVI (R157). -/
  | movi (e : EngineId) (f : Fields)
  /-- EXP (R144). -/
  | exp (e : EngineId) (f : Fields)
  /-- LOG (R144). -/
  | log (e : EngineId) (f : Fields)
  /-- LOG1P (R144). -/
  | log1p (e : EngineId) (f : Fields)
  /-- TANH (R144). -/
  | tanh (e : EngineId) (f : Fields)
  /-- SIGM (R144). -/
  | sigm (e : EngineId) (f : Fields)
  /-- ERF (R144). -/
  | erf (e : EngineId) (f : Fields)
  /-- RSQRT (R144). -/
  | rsqrt (e : EngineId) (f : Fields)
  /-- RCP (R144). -/
  | rcp (e : EngineId) (f : Fields)
  /-- CMP (R157). -/
  | cmp (e : EngineId) (f : Fields)
  /-- CLASS (R157). -/
  | classF (e : EngineId) (f : Fields)
  /-- SEL (R157). -/
  | sel (e : EngineId) (f : Fields)
  /-- ISVAL (R157). -/
  | isval (e : EngineId) (f : Fields)
  /-- COAL (R157). -/
  | coal (e : EngineId) (f : Fields)
  /-- KOP (R157). -/
  | kop (e : EngineId) (f : Fields)
  /-- SETV (R157). -/
  | setv (e : EngineId) (f : Fields)
  /-- VMRK (R157). -/
  | vmrk (e : EngineId) (f : Fields)
  /-- KFIRST (R157). -/
  | kfirst (e : EngineId) (f : Fields)
  /-- AND (R147). -/
  | and (e : EngineId) (f : Fields)
  /-- OR (R147). -/
  | or (e : EngineId) (f : Fields)
  /-- XOR (R147). -/
  | xor (e : EngineId) (f : Fields)
  /-- ANDN (R147). -/
  | andn (e : EngineId) (f : Fields)
  /-- NOT (R147). -/
  | not (e : EngineId) (f : Fields)
  /-- SHL (R147). -/
  | shl (e : EngineId) (f : Fields)
  /-- SHR (R147). -/
  | shr (e : EngineId) (f : Fields)
  /-- SAR (R147). -/
  | sar (e : EngineId) (f : Fields)
  /-- ROTL (R147). -/
  | rotl (e : EngineId) (f : Fields)
  /-- POPC (R157). -/
  | popc (e : EngineId) (f : Fields)
  /-- CLZ (R147). -/
  | clz (e : EngineId) (f : Fields)
  /-- CTZ (R147). -/
  | ctz (e : EngineId) (f : Fields)
  /-- CVT (R149). -/
  | cvt (e : EngineId) (f : Fields)
  /-- QMX (R150). -/
  | qmx (e : EngineId) (f : Fields)
  /-- DQMX (R150). -/
  | dqmx (e : EngineId) (f : Fields)
  /-- FOLD (R118). -/
  | fold (e : EngineId) (f : Fields)
  /-- BFIND (R157). -/
  | bfind (e : EngineId) (f : Fields)
  /-- BDIFF (R157). -/
  | bdiff (e : EngineId) (f : Fields)
  /-- UTF8V (R157). -/
  | utf8v (e : EngineId) (f : Fields)
  /-- BLOWR (R157). -/
  | blowr (e : EngineId) (f : Fields)
  /-- BCLS (R157). -/
  | bcls (e : EngineId) (f : Fields)
  /-- XSR (R157). -/
  | xsr (e : EngineId) (f : Fields)
  /-- CRC (R157). -/
  | crc (e : EngineId) (f : Fields)
  /-- XXR (R157). -/
  | xxr (e : EngineId) (f : Fields)
  /-- SIPR (R157). -/
  | sipr (e : EngineId) (f : Fields)
  /-- RSUM (R158). -/
  | rsum (e : EngineId) (f : Fields)
  /-- RSUMW (R158). -/
  | rsumw (e : EngineId) (f : Fields)
  /-- RMIN (R158). -/
  | rmin (e : EngineId) (f : Fields)
  /-- RMAX (R158). -/
  | rmax (e : EngineId) (f : Fields)
  /-- RCNT (R158). -/
  | rcnt (e : EngineId) (f : Fields)
  /-- RAND (R158). -/
  | rand (e : EngineId) (f : Fields)
  /-- ROR (R158). -/
  | ror (e : EngineId) (f : Fields)
  /-- PERM (R157). -/
  | perm (e : EngineId) (f : Fields)
  /-- CPRS (R157). -/
  | cprs (e : EngineId) (f : Fields)
  /-- ALGN (R157). -/
  | algn (e : EngineId) (f : Fields)
  /-- PARTITION (R179). -/
  | partition (k : Fin 16) (slot : Fin 4096) (rs : Rows)
  /-- HASH_BUCKET (R180). -/
  | hashBucket (k : Fin 16) (slot : Fin 4096) (rs : Rows)
  /-- JOIN_BUILD (R188). -/
  | joinBuild (k : Fin 16) (slot : Fin 4096) (e : BusEnv)
  /-- JOIN_PROBE (R184). -/
  | joinProbe (k : Fin 16) (slot : Fin 4096) (rs : Rows)
  /-- ASOF_INDEX (R195). -/
  | asofIndex (k : Fin 16) (slot : Fin 4096) (e : BusEnv)
  /-- ASOF_PROBE (R191). -/
  | asofProbe (k : Fin 16) (slot : Fin 4096) (rs : Rows)
  /-- WINDOW_INDEX (R201). -/
  | windowIndex (k : Fin 16) (slot : Fin 4096) (e : BusEnv)
  /-- WINDOW_PROBE (R197). -/
  | windowProbe (k : Fin 16) (slot : Fin 4096) (rs : Rows)
  /-- GROUP_BY (R202). -/
  | groupBy (k : Fin 16) (slot : Fin 4096) (rs : SplitRows)
  /-- RANK_SKETCH (R209). -/
  | rankSketch (k : Fin 16) (slot : Fin 4096) (rs : Rows) (parts : List Nat)
  /-- APPROX_DISTINCT (R211). -/
  | approxDistinct (k : Fin 16) (slot : Fin 4096) (rs : Rows)
  /-- FEATURE_CROSS (R212). -/
  | featureCross (k : Fin 16) (slot : Fin 4096) (rs : Rows)
  /-- COMPACT (R228). -/
  | compact (k : Fin 16) (slot : Fin 4096) (rs : Rows)
  /-- TOPK (R233). -/
  | topk (k : Fin 16) (slot : Fin 4096) (rs : Rows) (parts : List Nat) (e : BusEnv)
  /-- LOOKUP (R247). -/
  | lookup (k : Fin 16) (slot : Fin 4096) (rs : Rows) (ups : List SageUpset)
  /-- SCAN (R259). -/
  | scan (k : Fin 16) (slot : Fin 4096) (rs : Rows)
  /-- SAGE_BUILD (R252). -/
  | sageBuild (k : Fin 16) (slot : Fin 4096) (e : BusEnv)
  /-- GATHER (R219). -/
  | gather (k : Fin 16) (slot : Fin 4096) (rs : Rows) (e : BusEnv)
  /-- SCATTER (R223). -/
  | scatter (k : Fin 16) (slot : Fin 4096) (rs : Rows) (e : BusEnv)
  /-- SCATTER_ADD (R224). -/
  | scatterAdd (k : Fin 16) (slot : Fin 4096) (rs : Rows) (e : BusEnv)
  /-- GEMM (R311). -/
  | gemm (k : Fin 16) (slot : Fin 4096) (rs : Rows)
  /-- EMBED_BAG (R314). -/
  | embedBag (k : Fin 16) (slot : Fin 4096) (rs : Rows) (e : BusEnv)
  /-- INTERACT (R317). -/
  | interact (k : Fin 16) (slot : Fin 4096) (rs : Rows)
  /-- ATTN_SCORE (R318). -/
  | attnScore (k : Fin 16) (slot : Fin 4096) (rs : Rows)
  /-- ATTN_VALUE (R313). -/
  | attnValue (k : Fin 16) (slot : Fin 4096) (rs : Rows)
  /-- SAGE_ENTRY_WRITE_APPLY (R253). -/
  | sageEntryWriteApply (k : Fin 16)
  /-- SAGE_BANK_RECONFIG_APPLY (R255). -/
  | sageBankReconfigApply (k : Fin 16) (b : Fin 8)
  /-- SAGE_ENTRY_RELOAD_COMPLETE (R251). -/
  | sageEntryReloadComplete (k : Fin 16) (b : Fin 8)
  /-- SAGE_MATCH_ROW_SCRUB (R250). -/
  | sageMatchRowScrub (k : Fin 16) (b : Fin 8) (ups : List SageUpset)
  /-- INTAKE_BATCH_BEGIN (R545). -/
  | intakeBatchBegin (lane : Fin 8) (n : Fin 64) (b nImage nText : Nat)
  /-- INTAKE_FETCH_COMPLETE (R272). -/
  | intakeFetchComplete (lane : Fin 8) (n : Fin 64) (into : Into) (off len : Nat) (u : UnitRows) (e : BusEnv)
  /-- INTAKE_HEADER_CHECK (R271). -/
  | intakeHeaderCheck (lane : Fin 8) (n : Fin 64) (into : Into) (h : UnitHeader) (u : UnitRows)
  /-- INTAKE_PAGE_DECODE (R272). -/
  | intakePageDecode (lane : Fin 8) (n : Fin 64) (into : Into) (ds : List Dest) (pg : PageIn) (e : BusEnv)
  /-- TOKENISE (R287). -/
  | tokenise (lane : Fin 8) (n : Fin 64) (b : Nat) (p : ValueAt) (d : TokDecl) (v : Option Bytes) (dst : Dest)
  /-- JPEG_DECODE (R293). -/
  | jpegDecode (lane : Fin 8) (n : Fin 64) (b : Nat) (p : ValueAt) (v : Bytes)
  /-- SAMPLE_ABANDON (R277). -/
  | sampleAbandon (lane : Fin 8) (n : Fin 64) (b : Nat) (p : ValueAt) (x : Sample)
  /-- LOVAGE_IMAGE (R305). -/
  | lovageImage (lane : Fin 8) (n : Fin 64) (b slot : Nat) (d : PrepDecl) (present : Bool) (mesh lens : Option (List Nat)) (dst : Dest)
  /-- SHUFFLE_SLOTS_COMPUTED (R284). -/
  | shuffleSlotsComputed (lane : Fin 8) (n : Fin 64) (b : Nat)
  /-- BATCH_INSTANTIATE (R335). -/
  | batchInstantiate (k : Fin 16)
  /-- TASK_READY (R340). -/
  | taskReady (k : Fin 16)
  /-- TASK_PLACE (R343). -/
  | taskPlace (k : Fin 16)
  /-- HOPPER_FILL_COMPLETE (R345). -/
  | hopperFillComplete (c : CoreId) (h : Fin 2)
  /-- TASK_START (R328). -/
  | taskStart (seat : Seat)
  /-- TASK_COMPLETE (R341). -/
  | taskComplete (k : Fin 16) (slot : Fin 4096)
  /-- FLAG_PULSE (R339). -/
  | flagPulse (mask : Fin 65536) (st : Fin 64) (batch : Nat) (flag : Fin 1024)
  /-- WEIR_ARRIVAL (R352). -/
  | weirArrival (w : Fin 64) (k : Fin 16) (gen : Nat)
  /-- SEGMENT_HANDOFF (R355). -/
  | segmentHandoff (k : Fin 16) (slot : Fin 4096)
  /-- SEGMENT_RELEASE (R356). -/
  | segmentRelease (f : Fin 1024) (e : BusEnv) (vote : Option (Fin 3))
  /-- CH_ARM (R389). -/
  | chArm (c : Fin 64) (m : Master)
  /-- CH_REPOKE (R387). -/
  | chRepoke (c : Fin 64) (m : Master)
  /-- CH_ABORT (R401). -/
  | chAbort (c : Fin 64) (m : Master)
  /-- CH_RESUME (R400). -/
  | chResume (c : Fin 64) (m : Master)
  /-- CH_RESUME_SKIP (R400). -/
  | chResumeSkip (c : Fin 64) (m : Master)
  /-- DESCRIPTOR_FETCH_COMPLETE (R385). -/
  | descriptorFetchComplete (c : Fin 64) (e : BusEnv)
  /-- LINK_REREAD_COMPLETE (R386). -/
  | linkRereadComplete (c : Fin 64) (e : BusEnv)
  /-- DMA_COPY (R384). -/
  | dmaCopy (c : Fin 64)
  /-- DMA_FILL (R382). -/
  | dmaFill (c : Fin 64)
  /-- DMA_CRC (R394). -/
  | dmaCrc (c : Fin 64)
  /-- DMA_TRIGGER_FIRE (R390). -/
  | dmaTriggerFire (c : Fin 64) (t : Nat)
  /-- BURST_ISSUE (R392). -/
  | burstIssue (e : BusEnv)
  /-- BURST_RETRY (R399). -/
  | burstRetry (c : Fin 64) (e : BusEnv) (t : Nat)
  /-- COMPLETION_READ_RETURN (R395). -/
  | completionReadReturn (c : Fin 64) (ok : Bool) (t : Nat)
  /-- DESCRIPTOR_COMPLETE (R397). -/
  | descriptorComplete (c : Fin 64) (e : BusEnv) (t : Nat)
  /-- HBM_PATROL_SCRUB (R369). -/
  | hbmPatrolScrub (c : Fin 8) (e : BusEnv)
  /-- NETEN_FLIT_RECEIVE (R379). -/
  | netenFlitReceive (k : Fin 16) (port : Fin 5) (cls : Fin 3) (tq : Fin 8) (f : FlitIn) (crcOk : Bool) (cyc : Nat)
  /-- BAR2_READ (R427). -/
  | bar2Read (off len : Nat) (e : BusEnv)
  /-- BAR2_WRITE (R371). -/
  | bar2Write (off : Nat) (data : Bytes)
  /-- DOMAIN_POWER_DOWN (R514). -/
  | domainPowerDown (d : Fin 64) (force : Bool) (m : Master) (t : Nat)
  /-- DOMAIN_POWER_UP (R517). -/
  | domainPowerUp (d : Fin 64) (m : Master) (t : Nat)
  /-- DOMAIN_POWER_UP_COMPLETE (R517). -/
  | domainPowerUpComplete (bad : List (Nat × Nat)) (t : Nat)
  /-- DOMAIN_DRAIN_COMPLETE (R402). -/
  | domainDrainComplete (t : Nat)
  /-- DOMAIN_FORCE_TIMEOUT (R403). -/
  | domainForceTimeout (t : Nat)
  /-- EVENT_POST (R406). -/
  | eventPost (src : Fin 4096) (vote : Option (Fin 3))
  /-- EVENT_CLAIM (R411). -/
  | eventClaim (t : Fin 20) (vote : Option (Fin 3))
  /-- HANDLER_ENTRY (R413). -/
  | handlerEntry (t : Fin 20)
  /-- EVC_TGT_COMPLETE (R414). -/
  | evcTgtComplete (t : Fin 20) (m : Master) (src : Fin 4096)
  /-- EXIT_END (R415). -/
  | exitEnd (t : Fin 20)
  /-- EVC_TGT_FLUSH (R420). -/
  | evcTgtFlush (t : Fin 20) (m : Master)
  /-- EVC_SW_POST (R405). -/
  | evcSwPost (p : Fin 256)
  /-- HOST_PEND_ACK (R423). -/
  | hostPendAck (src : Fin 4096)
  /-- THRESHOLD_WRITE (R417). -/
  | thresholdWrite (t : Fin 20) (v : Fin 64)
  /-- PERST_ASSERT (R431). -/
  | perstAssert (t : Nat)
  /-- PERST_DEASSERT (R429). -/
  | perstDeassert (t : Nat)
  /-- PCIE_LINK_TRAINED (R432). -/
  | pcieLinkTrained (rate : Fin 7) (width : Fin 17)
  /-- PCIE_LINK_DOWN (R428). -/
  | pcieLinkDown (t : Nat)
  /-- FLR (R89). -/
  | flr (t : Nat)
  /-- DSTATE_CHANGE (R428). -/
  | dstateChange (d0 : Bool) (t : Nat)
  /-- D3COLD_ENTRY (R428). -/
  | d3coldEntry (t : Nat)
  /-- PCIE_COMPLETION_TIMEOUT (R425). -/
  | pcieCompletionTimeout
  /-- CHAIN_BEAT_TOKEN (R437). -/
  | chainBeatToken (tok : Bytes) (t : Nat)
  /-- CHAIN_ENUM_TOKEN (R438). -/
  | chainEnumToken (tok : Bytes)
  /-- CHAIN_MGMT_TOKEN (R440). -/
  | chainMgmtToken (tok : Bytes)
  /-- CHAIN_UNKNOWN_TOKEN (R436). -/
  | chainUnknownToken (tok : Bytes)
  /-- SPLICE_WINDOW_END (R441). -/
  | spliceWindowEnd (t : Nat)
  /-- CHAIN_SPLICE (R441). -/
  | chainSplice (t : Nat)
  /-- CHAIN_BEAT_ABSENT (R441). -/
  | chainBeatAbsent (t : Nat)
  /-- PAIR_HELLO (R448). -/
  | pairHello (msg : Bytes) (t : Nat)
  /-- PAIR_HEARTBEAT (R449). -/
  | pairHeartbeat (msg : Bytes) (t : Nat)
  /-- PAIR_ACCEPT (R451). -/
  | pairAccept (msg : Bytes) (t : Nat)
  /-- PAIR_ANNOUNCE (R452). -/
  | pairAnnounce (msg : Bytes) (t : Nat)
  /-- PAIR_DONE (R454). -/
  | pairDone (msg : Bytes) (t : Nat)
  /-- PAIR_BEAT (R453). -/
  | pairBeat (msg : Bytes) (t : Nat)
  /-- PAIR_FENCE (R457). -/
  | pairFence (msg : Bytes) (t : Nat)
  /-- PAIR_SYNC_DATA (R462). -/
  | pairSyncData (msg : Bytes) (t : Nat)
  /-- PAIR_SYNC_READY (R463). -/
  | pairSyncReady (msg : Bytes) (t : Nat)
  /-- PAIR_SYNC_JOIN (R463). -/
  | pairSyncJoin (msg : Bytes) (t : Nat)
  /-- HEARTBEAT_TIMER (R446). -/
  | heartbeatTimer (t : Nat)
  /-- PEER_LOSS_TIMEOUT (R446). -/
  | peerLossTimeout (t : Nat)
  /-- PAIR_PORT_STATE_CHANGE (R445). -/
  | pairPortStateChange (p : Fin 2) (lanes : Fin 3) (latency : Nat)
  /-- LEASE_CYCLE (R455). -/
  | leaseCycle (e : BusEnv) (t : Nat)
  /-- LEASE_CYCLE_COMPLETE (R455). -/
  | leaseCycleComplete (ok : Bool) (t : Nat)
  /-- LEASE_BOUND_EXPIRE (R456). -/
  | leaseBoundExpire (t : Nat)
  /-- SUSPECT_LEASE_READ (R457). -/
  | suspectLeaseRead (e : BusEnv) (t : Nat)
  /-- LEASE_CLAIM_REREAD (R457). -/
  | leaseClaimReread (e : BusEnv) (t : Nat)
  /-- HANDOVER (R456). -/
  | handover (m : Master)
  /-- LEAVE (R464). -/
  | leave (m : Master)
  /-- DETECTED_ERROR (R467). -/
  | detectedError (kind : Fin 21) (index : Nat) (cause : Fin 9) (detail : Nat) (t : Nat)
  /-- SELF_TEST_COMPLETE (R468). -/
  | selfTestComplete (pass spare : Bool) (testUs t : Nat)
  /-- RECOVERY_RESUME (R477). -/
  | recoveryResume (t : Nat)
  /-- ERR_INJECT (R489). -/
  | errInject (m : Master) (kind : Fin 32) (index : Fin 65536) (t : Nat)
  /-- ERR_MAPOUT_CLEAR (R481). -/
  | errMapoutClear (m : Master)
  /-- BOOT_STAGE_COMPLETE (R496). -/
  | bootStageComplete (good : List (Nat × Nat)) (intact : Bool) (found : Present) (t : Nat)
  /-- GET_MEASUREMENTS (R499). -/
  | getMeasurements (x : Fin 256) (sig : Bytes)
  /-- DEBUG_CHALLENGE (R505). -/
  | debugChallenge (level : Fin 3)
  /-- DEBUG_UNLOCK (R506). -/
  | debugUnlock (nonce : Nat) (slot : Fin 2) (ownerSig rootSig : Bool)
  /-- OWNER_RECORD (R501). -/
  | ownerRecord (slot : Fin 2) (keys : Bytes) (signer : Option (Fin 2)) (rootSig : Bool)
  /-- POLICY_RECORD (R502). -/
  | policyRecord (required enc : Bool) (signer : Fin 2) (sig : Bool)
  /-- REVOCATION_RECORD (R492). -/
  | revocationRecord (ml : Bool) (slot : Fin 4) (sig : Bool)
  /-- REPROVISION_RECORD (R495). -/
  | reprovisionRecord (sig : Bool)
  /-- IDE_KEY_PROGRAM (R507). -/
  | ideKeyProgram (secured : Bool)
  /-- POWER_INPUT_START (R510). -/
  | powerInputStart (low t : Nat)
  /-- INPUT_VOLTAGE_FAULT (R510). -/
  | inputVoltageFault (mv held t : Nat)
  /-- INPUT_VOLTAGE_WARN (R510). -/
  | inputVoltageWarn (mv : Nat)
  /-- POWER_SAMPLE (R518). -/
  | powerSample (mv mw : Nat) (die hbm : Fin 256) (proj : Bool) (t : Nat)
  /-- CLOCK_STEP (R518). -/
  | clockStep (t : Nat)
  /-- THERMAL_STOP (R519). -/
  | thermalStop (cls : Fin 3) (temp t : Nat)
  /-- PWR_CAP_WRITE (R521). -/
  | pwrCapWrite (w : Fin 1024) (t : Nat)
  /-- MCTP_SET_EID (R522). -/
  | mctpSetEid (eid : Fin 256)
  /-- PLDM_SENSOR_REFRESH (R523). -/
  | pldmSensorRefresh (vals : List (Fin 87 × Nat))
  /-- SET_EVENT_RECEIVER (R523). -/
  | setEventReceiver (eid : Fin 256)
  /-- VENDOR_RECORD_READ (R523). -/
  | vendorRecordRead (num : Nat)
  /-- MGI_NEGOTIATE (R536). -/
  | mgiNegotiate (range : Fin 4294967296)
  /-- REQUEST_UPDATE (R524). -/
  | requestUpdate
  /-- VERIFY_COMPLETE (R524). -/
  | verifyComplete (ty : Fin 5) (sigs : Bool)
  /-- ACTIVATE_FIRMWARE (R524). -/
  | activateFirmware
  /-- TRIAL_COMMIT (R525). -/
  | trialCommit (t : Nat)
  /-- SOFT_RESET (R537). -/
  | softReset (m : Master) (key : Fin 65536) (t : Nat)
  /-- COLD_RESET (R537). -/
  | coldReset (m : Master) (key : Fin 65536) (t : Nat)
  /-- JOURNAL_UPDATE_COMPLETE (R540). -/
  | journalUpdateComplete (seq : Option Nat) (ok : Bool) (t : Nat)
  /-- BURST_RESPONSE (R399). -/
  | burstResponse (c : Fin 64) (fail : Option (Fin 7)) (t : Nat)
  /-- UNMAPPED_BAR0_READ (R427). -/
  | unmappedBar0Read (off : Nat) (len : Nat)
  /-- RAILS_IN_TOLERANCE (R512). -/
  | railsInTolerance (t : Nat)
  /-- COMPONENT_DATA_WRITE (R524). -/
  | componentDataWrite (ty : Fin 5) (off : Nat) (data : Bytes)
  deriving DecidableEq, Repr

end Sys2Proof
end

