-- ==== Sys2Proof/Decode.lean ====
section
/-! DEFINITION. The command that a word spells by the table's bits: none, since no row of the opcode table gives bits. Beside it
the decoder and the encoder of a stream program's body words (R154, R157), which LOAD_GRAPH reads. -/

namespace Sys2Proof

/-- The command that a word of the table's bits spells: none, since no row of the table has bits. -/
def decodeTableWord (_nbits _w : Nat) : Option Instr := none

/-- `n` bits of a number from bit `lo` on. -/
def cutBits (w lo n : Nat) : Nat := w / 2 ^ lo % 2 ^ n

/-- The fields of a body word (R154). -/
def decodeFields (w : Nat) : Fields :=
  { ty := Fin.ofNat 256 (cutBits w 8 8), vd := Fin.ofNat 32 (cutBits w 16 5), va := Fin.ofNat 32 (cutBits w 21 5)
    vb := Fin.ofNat 32 (cutBits w 26 5), vc := Fin.ofNat 32 (cutBits w 31 5), mask := Fin.ofNat 8 (cutBits w 36 3), mz := cutBits w 39 1 == 1
    rnd := Fin.ofNat 8 (cutBits w 40 3), sat := cutBits w 43 1 == 1, sub := Fin.ofNat 16 (cutBits w 44 4), imm := Fin.ofNat 65536 (cutBits w 48 16) }

/-- The body word of an opcode and its fields (R154). -/
def encodeFields (op : Nat) (f : Fields) : Nat :=
  op + f.ty.val * 2 ^ 8 + f.vd.val * 2 ^ 16 + f.va.val * 2 ^ 21 + f.vb.val * 2 ^ 26 + f.vc.val * 2 ^ 31 + f.mask.val * 2 ^ 36 +
    (if f.mz then 2 ^ 39 else 0) + f.rnd.val * 2 ^ 40 + (if f.sat then 2 ^ 43 else 0) + f.sub.val * 2 ^ 44 + f.imm.val * 2 ^ 48

/-- The word command of an opcode (R157). -/
def wordOf (op : Nat) (e : EngineId) (f : Fields) : Option Instr :=
  match op with
  | 0x00 => some (.nop e f)
  | 0x01 => some (.loop e f)
  | 0x02 => some (.lend e f)
  | 0x10 => some (.ld e f)
  | 0x11 => some (.st e f)
  | 0x12 => some (.ldv e f)
  | 0x13 => some (.stv e f)
  | 0x20 => some (.add e f)
  | 0x21 => some (.sub e f)
  | 0x22 => some (.mul e f)
  | 0x23 => some (.mulh e f)
  | 0x24 => some (.fma e f)
  | 0x25 => some (.div e f)
  | 0x26 => some (.divf e f)
  | 0x27 => some (.rem e f)
  | 0x28 => some (.modf e f)
  | 0x29 => some (.min e f)
  | 0x2A => some (.max e f)
  | 0x2B => some (.abs e f)
  | 0x2C => some (.neg e f)
  | 0x2D => some (.clamp e f)
  | 0x2E => some (.sqrt e f)
  | 0x2F => some (.mov e f)
  | 0x30 => some (.movi e f)
  | 0x38 => some (.exp e f)
  | 0x39 => some (.log e f)
  | 0x3A => some (.log1p e f)
  | 0x3B => some (.tanh e f)
  | 0x3C => some (.sigm e f)
  | 0x3D => some (.erf e f)
  | 0x3E => some (.rsqrt e f)
  | 0x3F => some (.rcp e f)
  | 0x40 => some (.cmp e f)
  | 0x41 => some (.classF e f)
  | 0x42 => some (.sel e f)
  | 0x43 => some (.isval e f)
  | 0x44 => some (.coal e f)
  | 0x45 => some (.kop e f)
  | 0x46 => some (.setv e f)
  | 0x47 => some (.vmrk e f)
  | 0x48 => some (.kfirst e f)
  | 0x50 => some (.and e f)
  | 0x51 => some (.or e f)
  | 0x52 => some (.xor e f)
  | 0x53 => some (.andn e f)
  | 0x54 => some (.not e f)
  | 0x55 => some (.shl e f)
  | 0x56 => some (.shr e f)
  | 0x57 => some (.sar e f)
  | 0x58 => some (.rotl e f)
  | 0x59 => some (.popc e f)
  | 0x5A => some (.clz e f)
  | 0x5B => some (.ctz e f)
  | 0x60 => some (.cvt e f)
  | 0x61 => some (.qmx e f)
  | 0x62 => some (.dqmx e f)
  | 0x63 => some (.fold e f)
  | 0x70 => some (.bfind e f)
  | 0x71 => some (.bdiff e f)
  | 0x72 => some (.utf8v e f)
  | 0x73 => some (.blowr e f)
  | 0x74 => some (.bcls e f)
  | 0x80 => some (.xsr e f)
  | 0x81 => some (.crc e f)
  | 0x82 => some (.xxr e f)
  | 0x83 => some (.sipr e f)
  | 0x90 => some (.rsum e f)
  | 0x91 => some (.rsumw e f)
  | 0x92 => some (.rmin e f)
  | 0x93 => some (.rmax e f)
  | 0x94 => some (.rcnt e f)
  | 0x95 => some (.rand e f)
  | 0x96 => some (.ror e f)
  | 0xA0 => some (.perm e f)
  | 0xA1 => some (.cprs e f)
  | 0xA2 => some (.algn e f)
  | _ => none

/-- The word command that a body word spells on an engine. -/
def decodeStreamWord (e : EngineId) (w : Nat) : Option Instr := wordOf (cutBits w 0 8) e (decodeFields w)

/-- The opcode and the fields of a word command (R157); none for a command that is no stream-program word. -/
def wordParts : Instr → Option (Nat × EngineId × Fields)
  | .nop e f => some (0x00, e, f)
  | .loop e f => some (0x01, e, f)
  | .lend e f => some (0x02, e, f)
  | .ld e f => some (0x10, e, f)
  | .st e f => some (0x11, e, f)
  | .ldv e f => some (0x12, e, f)
  | .stv e f => some (0x13, e, f)
  | .add e f => some (0x20, e, f)
  | .sub e f => some (0x21, e, f)
  | .mul e f => some (0x22, e, f)
  | .mulh e f => some (0x23, e, f)
  | .fma e f => some (0x24, e, f)
  | .div e f => some (0x25, e, f)
  | .divf e f => some (0x26, e, f)
  | .rem e f => some (0x27, e, f)
  | .modf e f => some (0x28, e, f)
  | .min e f => some (0x29, e, f)
  | .max e f => some (0x2A, e, f)
  | .abs e f => some (0x2B, e, f)
  | .neg e f => some (0x2C, e, f)
  | .clamp e f => some (0x2D, e, f)
  | .sqrt e f => some (0x2E, e, f)
  | .mov e f => some (0x2F, e, f)
  | .movi e f => some (0x30, e, f)
  | .exp e f => some (0x38, e, f)
  | .log e f => some (0x39, e, f)
  | .log1p e f => some (0x3A, e, f)
  | .tanh e f => some (0x3B, e, f)
  | .sigm e f => some (0x3C, e, f)
  | .erf e f => some (0x3D, e, f)
  | .rsqrt e f => some (0x3E, e, f)
  | .rcp e f => some (0x3F, e, f)
  | .cmp e f => some (0x40, e, f)
  | .classF e f => some (0x41, e, f)
  | .sel e f => some (0x42, e, f)
  | .isval e f => some (0x43, e, f)
  | .coal e f => some (0x44, e, f)
  | .kop e f => some (0x45, e, f)
  | .setv e f => some (0x46, e, f)
  | .vmrk e f => some (0x47, e, f)
  | .kfirst e f => some (0x48, e, f)
  | .and e f => some (0x50, e, f)
  | .or e f => some (0x51, e, f)
  | .xor e f => some (0x52, e, f)
  | .andn e f => some (0x53, e, f)
  | .not e f => some (0x54, e, f)
  | .shl e f => some (0x55, e, f)
  | .shr e f => some (0x56, e, f)
  | .sar e f => some (0x57, e, f)
  | .rotl e f => some (0x58, e, f)
  | .popc e f => some (0x59, e, f)
  | .clz e f => some (0x5A, e, f)
  | .ctz e f => some (0x5B, e, f)
  | .cvt e f => some (0x60, e, f)
  | .qmx e f => some (0x61, e, f)
  | .dqmx e f => some (0x62, e, f)
  | .fold e f => some (0x63, e, f)
  | .bfind e f => some (0x70, e, f)
  | .bdiff e f => some (0x71, e, f)
  | .utf8v e f => some (0x72, e, f)
  | .blowr e f => some (0x73, e, f)
  | .bcls e f => some (0x74, e, f)
  | .xsr e f => some (0x80, e, f)
  | .crc e f => some (0x81, e, f)
  | .xxr e f => some (0x82, e, f)
  | .sipr e f => some (0x83, e, f)
  | .rsum e f => some (0x90, e, f)
  | .rsumw e f => some (0x91, e, f)
  | .rmin e f => some (0x92, e, f)
  | .rmax e f => some (0x93, e, f)
  | .rcnt e f => some (0x94, e, f)
  | .rand e f => some (0x95, e, f)
  | .ror e f => some (0x96, e, f)
  | .perm e f => some (0xA0, e, f)
  | .cprs e f => some (0xA1, e, f)
  | .algn e f => some (0xA2, e, f)
  | _ => none

/-- The body word of a word command. -/
def encodeStreamWord (c : Instr) : Option Nat := (wordParts c).map fun p => encodeFields p.1 p.2.2

end Sys2Proof
end

