-- ==== Sys2Proof/Config.lean ====
section
/-! DEFINITION. What the spec leaves open: free values. Each is a constant with no body, applied to operands or to
the counter State.free, so that nothing can evaluate it. The assumption log names each. -/

namespace Sys2Proof.Config

/-- A free choice the spec leaves to the device, drawn with the state's counter (log entries 20 to 24). -/
opaque draw : Nat → Nat

/-- A free byte, drawn with the state's counter: contents that the spec calls undefined (R403; log entry 21). -/
opaque freeByte : Nat → Nat → BitVec 8

/-- The code that an approximating word answers, by word code, type code and operand bits; taken only where it lies
within the bound of R144 (log entry 22). -/
opaque approx : Nat → Nat → Nat → Nat

/-- The result of an arithmetic case for which the spec states none, by a case number and the operands
(log entry 23). -/
opaque unstated : Nat → Nat → Nat → Nat

/-- How many tasks a cluster unit's queue holds beyond one, by unit: the spec gives that queue no depth (log entry 25). -/
opaque unitDepth : Nat → Nat

/-- Receive space, in flits, of the units at a router for the responses they ask for: the spec gives no figure (log entry 111). -/
opaque receiveSpace : Nat → Nat

/-- The SHA-384 hash that mask ROM holds in a root key slot, by algorithm (0 Ed25519, 1 ML-DSA-65) and slot (log
entry 26). -/
opaque rootHash : Nat → Nat → List (BitVec 8)

/-- The SHA-384 digest of the mask ROM (R499; log entry 26). -/
opaque romDigest : List (BitVec 8)

/-- MODULE_ID, which follows from the module's PUF (R498; log entry 26). -/
opaque moduleId : Nat

end Sys2Proof.Config
end

