-- ==== Sys2Proof/Machine/StateCore.lean ====
section
/-! DEFINITION. State shared by all units: what the block sends, the event controller (chapter 14), the error
log and recovery (chapter 16). Default field values are the reset values. -/

namespace Sys2Proof.Machine

/-- A writable 64-bit register pair: the held _LO half and the value in force (R6, R8). -/
structure Pair where
  lo  : Word := 0
  val : BitVec 64 := 0
  deriving DecidableEq, Repr

/-- What the block sends to the outside, newest first in the state's list. -/
inductive Out where
  /-- An MSI-X message on a vector (R99, R422). -/
  | msix (vector : Nat)
  /-- A PME message (R100). -/
  | pme
  /-- A memory read issued on the bus: address and length. -/
  | busRead (addr len : Nat)
  /-- A memory write issued on the bus: address and bytes. -/
  | busWrite (addr : Nat) (data : Bytes)
  /-- A frame on BEAT_OUT: start instant in ns, its bits (bit 0 first) and how many of them are sent (R35). -/
  | beatOut (start bits n : Nat)
  /-- A token on CHAIN_OUT, as its 32 bytes (R435). -/
  | chain (token : Bytes)
  /-- A message on the pair link, sent on every port that is up, as its bytes (R445). -/
  | pair (msg : Bytes)
  /-- A Function Readiness Status message (R429). -/
  | frs
  /-- A message over MCTP, to the management controller or the SPDM requester. -/
  | mctp (payload : Bytes)
  /-- A PCIe error report through AER (R427, R425). -/
  | aer (code : Nat)
  /-- A completion with Unsupported Request of a read at a BAR offset (R427). -/
  | unsupported (offset : Nat)
  /-- Read data returned to a bus master. -/
  | data (bytes : Bytes)
  /-- Read data returned marked poisoned (R366). -/
  | poisoned (bytes : Bytes)
  deriving DecidableEq, Repr

/-- The states of an event source (R406), coded 0 to 3 in EVC_SRC_STATUS.STATE. -/
inductive SrcState where
  | idle
  | pending
  | claimed
  | hostWait
  deriving DecidableEq, Repr

/-- One event source: EVC_SRC_CFG, EVC_SRC_STATUS and EVC_SRC_LOST (chapter 14). -/
structure EvSrc where
  prio     : Nat := 0
  target   : Nat := 0
  hostEn   : Bool := false
  vector   : Nat := 0
  mask     : Bool := false
  state    : SrcState := .idle
  hostPend : Bool := false
  lost     : Bool := false
  lostCount : Nat := 0
  deriving DecidableEq, Repr

/-- One entry of a target's priority stack (R411). -/
structure StackEntry where
  source  : Nat
  prio    : Nat
  started : Bool
  deriving DecidableEq, Repr

/-- Whether a target is in an entry window or in an exit (R413, R415). -/
inductive TgtPhase where
  | running
  | entry
  | exiting
  deriving DecidableEq, Repr

/-- One interrupt target: its stack (top first) and its registers (chapter 14). -/
structure EvTgt where
  threshold : Nat := 0
  stack     : List StackEntry := []
  phase     : TgtPhase := .running
  frozen    : Bool := false
  faultNamed : Nat := 0
  faultTop  : Nat := 0
  full      : Nat := 0
  claims    : Nat := 0
  stackSel  : Nat := 0
  deriving DecidableEq, Repr

/-- The event controller (chapter 14). -/
structure Evc where
  src     : Tab EvSrc := []
  tgt     : Tab EvTgt := []
  voteFix : Nat := 0
  posts   : Nat := 0
  /-- Vectors of the held event messages, oldest first (R422). -/
  held    : List Nat := []
  /-- Copies in service: bit i clear once copy i has been removed (R472). -/
  duplex  : Bool := false
  deriving DecidableEq, Repr

/-- An error record (R487). -/
structure ErrRec where
  num        : Nat
  position   : Nat
  kind       : Nat
  cause      : Nat
  index      : Nat
  outcome    : Nat
  transients : Nat
  source     : Nat
  detail     : Nat
  testUs     : Nat
  pauseUs    : Nat
  rerun      : Nat
  uptime     : Nat
  streams    : Nat
  deriving DecidableEq, Repr

/-- One recovery in progress or waiting (R477, R479). -/
structure Recovery where
  num      : Nat
  kind     : Nat
  index    : Nat
  start    : Nat
  injected : Bool
  /-- The self-test has ended and the decision is taken. -/
  decided  : Bool
  /-- Instant of the detection. -/
  seen     : Nat := 0
  deriving DecidableEq, Repr

/-- The error block of chapter 16 and the records in flash. -/
structure Err where
  /-- 0 SERVICE, 1 RECOVERING, 2 FAILED. -/
  state      : Nat := 0
  reboot     : Bool := false
  double     : Bool := false
  duplexTrc  : Bool := false
  grade      : Nat := 7
  lastNum    : Nat := 0
  /-- Newest first, at most 256 (R488). -/
  log        : List ErrRec := []
  logSel     : Nat := 0
  transients : Nat := 0
  lasting    : Nat := 0
  rerun      : Nat := 0
  maxPause   : Nat := 0
  logLost    : Nat := 0
  injKind    : Nat := 0
  injIndex   : Nat := 0
  /-- Records in flash, newest first, at most 1,024 (R488). -/
  flash      : List ErrRec := []
  /-- Transients of a unit: kind, index and the uptime of its detection in ns (R468). -/
  history    : List (Nat × Nat × Nat) := []
  /-- The recovery in progress, first, and those that wait for it (R479). -/
  recovering : List Recovery := []
  /-- Fenced units: kind and index (R467). -/
  fenced     : List (Nat × Nat) := []
  /-- The repair map cached in flash: units that the last cold boot found good (R480). -/
  cached     : Present := {}
  /-- Removal records, kept across cold boots (R481). -/
  removed    : List (Nat × Nat) := []
  /-- Copies of kinds 14 and 15 out of service now: the others run as a compared duplex (R472). -/
  out        : List (Nat × Nat) := []
  deriving DecidableEq, Repr

end Sys2Proof.Machine
end

