-- ==== Sys2Proof/Machine/StateHost.lean ====
section
/-! DEFINITION. State of the host side: the beat and its registers (chapter 02), the queue pairs, doorbell groups,
commands, journal, attached tables (chapter 03) and the global registers (chapter 19). -/

namespace Sys2Proof.Machine

/-- Lock states of the phase loop, coded 0 to 5 (chapter 02). -/
inductive Lock where
  | unlocked
  | acquiring
  | locked
  | hold
  | lost
  | mismatch
  deriving DecidableEq, Repr

/-- The beat sources, coded 0 to 2 in RLG_BEAT_CFG.SRC. -/
inductive BeatSrc where
  | beatIn
  | chain
  | page
  deriving DecidableEq, Repr

/-- The last beat of a source judged against its own previous beat (R38): number and instant. -/
structure SrcBeat where
  num : Nat
  at_ : Nat
  deriving DecidableEq, Repr

/-- The beat block: phase loop, sources, page poller and RLG_BEAT registers (chapter 02). Instants are in ns. -/
structure Beat where
  /-- RLG_BEAT_CFG.SRC: 0 BEAT_IN, 1 chain, 2 page, 3 automatic. -/
  srcCfg     : Nat := 3
  outEn      : Bool := false
  holdBeats  : Nat := 4
  lock       : Lock := .unlocked
  /-- The state that MISMATCH was entered from (R37). -/
  mmFrom     : Lock := .unlocked
  active     : Option BeatSrc := none
  srcHold    : Bool := false
  breach     : Bool := false
  /-- Last accepted beat number; none after REBASE and after reset (R37, R40). -/
  lastNum    : Option Nat := none
  /-- Beat number of the current position, and its phase where the position does not advance. -/
  posBeat    : Nat := 0
  posPhase   : Nat := 0
  /-- Instant of the last accepted edge. -/
  edge       : Option Nat := none
  /-- The previous interval that may match in acquisition. -/
  prevIval   : Option Nat := none
  /-- The period estimate in ns, exact. -/
  pest       : Rat := 0
  periodMin  : Nat := 0xFFFFFFFFFFFFFFFF
  glitch     : Nat := 0
  reject     : Nat := 0
  breaches   : Nat := 0
  /-- Consecutive number rejections (R37). -/
  numRejects : Nat := 0
  lastIn     : Option SrcBeat := none
  lastChain  : Option SrcBeat := none
  lastPage   : Option SrcBeat := none
  /-- Host beat page: address pair, whether _HI has been written, last verified number, failed reads in a row. -/
  page       : Pair := {}
  pageSet    : Bool := false
  pageLast   : Option Nat := none
  pageFails  : Nat := 0
  pageNext   : Nat := 0
  /-- Issue instants of the reads of the page that are outstanding, oldest first. -/
  pageReads  : List Nat := []
  deriving DecidableEq, Repr

/-- An entry or record waiting for, or written to, a completion ring (chapter 03). -/
structure CEntry where
  cmdId   : Nat
  result  : Nat
  /-- The submission head after its command; none: the head when the entry is written. -/
  sqHead  : Option Nat
  status  : Nat
  orig    : Nat
  kind    : Nat
  stream  : Nat
  flags   : Nat
  noIrq   : Bool
  /-- The journal record whose update must complete first (R85). -/
  gate    : Option Nat
  /-- The pair message that must be acknowledged first: its SEQ, or 0 (R452). -/
  ann     : Nat
  /-- A batch record: the batch's due position, by which ST_LATE is judged when it is written (R48). -/
  due     : Option Nat
  /-- Number of the announcement, or 0. -/
  annNum  : Nat
  /-- An entry that a takeover writes again: its announced slot and phase (R458, R459). -/
  slot    : Option (Nat × Bool) := none
  deriving DecidableEq, Repr

/-- One id of a duplicate window, with the original's status and result once it has completed (R91, R92). -/
structure WindowId where
  id      : Nat
  outcome : Option (Nat × Nat)
  deriving DecidableEq, Repr

/-- One queue pair (chapter 03). -/
structure Qp where
  enable   : Bool := false
  sqLog2   : Nat := 4
  cqLog2   : Nat := 4
  noticeEn : Bool := false
  sqBase   : Pair := {}
  cqBase   : Pair := {}
  vector   : Nat := 0
  modTime  : Nat := 0
  modCount : Nat := 1
  err      : Bool := false
  errStatus : Nat := 0
  irqHeld  : Bool := false
  sqHead   : Nat := 0
  sqTail   : Nat := 0
  cqHead   : Nat := 0
  /-- The doorbell fields as last read (R66, R67). -/
  dbTail   : Nat := 0
  dbHead   : Nat := 0
  cqTail   : Nat := 0
  phase    : Bool := true
  dupCount : Nat := 0
  /-- Newest first, at most 65,536 (R91). -/
  window   : List WindowId := []
  /-- Duplicates held until their original completes: id, SQ_HEAD, NO_IRQ (R92). -/
  heldDups : List (Nat × Nat × Bool) := []
  /-- Signalling entries written since the last message, and the expiry of the moderation timer (R98). -/
  unsig    : Nat := 0
  timer    : Option Nat := none
  /-- Entries waiting for a slot, oldest first (R68). -/
  queue    : List CEntry := []
  deriving DecidableEq, Repr

/-- One doorbell group (R65, R66). -/
structure DbGroup where
  addr     : Pair := {}
  interval : Nat := 250
  nextPoll : Nat := 0
  busy     : Bool := false
  deriving DecidableEq, Repr

/-- A journal write or read under way (R540). -/
inductive JKind where
  | accept (seq : Nat)
  | update (seq final : Nat)
  | control
  | walk
  deriving DecidableEq, Repr

/-- A journal access: what it is, the bus address it goes to, the wait of its last failure in us (0: none yet), and the instant its wait
ends while it waits to be issued again. -/
structure JAccess where
  kind   : JKind
  addr   : Nat
  waitUs : Nat
  until_ : Option Nat
  /-- SEQ of the pair message that must be acknowledged first, or 0 (R452). -/
  ann    : Nat := 0
  deriving DecidableEq, Repr

/-- The journal and its registers (chapter 03). -/
structure Journal where
  base      : Pair := {}
  sizeLog2  : Nat := 10
  scan      : Bool := false
  /-- Adopted by GO: base address and SIZE_LOG2. -/
  actBase   : Nat := 0
  actLog2   : Nat := 10
  ready     : Bool := false
  walking   : Bool := false
  scanInvalid : Bool := false
  tail      : Nat := 1
  retire    : Nat := 1
  abandoned : Nat := 0
  /-- Retirements since the control line was last written, and when it was last written (R86). -/
  sinceCtl  : Nat := 0
  ctlAt     : Nat := 0
  /-- Sequence numbers at or above the retire point whose record is COMPLETED. -/
  completed : List Nat := []
  /-- Accesses under way, oldest first. -/
  accesses  : List JAccess := []
  /-- Abandoned commands to report when their queue pair is enabled: queue and id (R89). -/
  owed      : List (Nat × Nat) := []
  deriving DecidableEq, Repr

/-- A submission entry (chapter 03). -/
structure SubEntry where
  id     : Nat
  opcode : Nat
  flags  : Nat
  stream : Nat
  rsvd   : Nat
  addr0  : Nat
  len0   : Nat
  params : List Nat
  deriving DecidableEq, Repr

/-- How far a command has come. -/
inductive CmdPhase where
  /-- Its acceptance record is issued and not yet complete. -/
  | accepting
  /-- Accepted and not begun. -/
  | accepted
  /-- Begun and not completed. -/
  | executing
  /-- Its status and result are decided; it has not completed yet. -/
  | finished (status result : Nat)
  deriving DecidableEq, Repr

/-- A command outstanding on a queue pair (R540). -/
structure Cmd where
  qp     : Nat
  seq    : Nat
  entry  : SubEntry
  sqHead : Nat
  pos    : Nat
  phase  : CmdPhase
  /-- RUN: batches released under it so far. CANCEL: items discarded. -/
  count  : Nat
  /-- CANCEL: the sequence number of the command it waits for. -/
  target : Option Nat
  /-- SEQ of its ACCEPT on the pair link, or 0 (R451). -/
  accSeq : Nat
  deriving DecidableEq, Repr

/-- One extent of an attached table. -/
structure Extent where
  addr  : Nat
  len   : Nat
  space : Space
  deriving DecidableEq, Repr

/-- The global registers of chapter 19 that other units do not hold. -/
structure Glb where
  ready      : Bool := false
  fwVersion  : Nat := 0
  resetCause : Nat := 0
  warmCount  : Nat := 0
  reject     : Nat := 0
  rejOffset  : Nat := 0
  rejMaster  : Nat := 0
  padOverlap : Nat := 0
  hqfOffer   : Nat := 0
  qxgOffer   : Nat := 0
  attachBusy : Bool := false
  /-- Offers in force at the last accepted GO (R535). -/
  goHqf      : Nat := 0
  goQxg      : Nat := 0
  done       : Bool := false
  status     : Nat := 0
  hqfAgreed  : Nat := 0
  qxgAgreed  : Nat := 0
  mgiAgreed  : Nat := 0
  deriving DecidableEq, Repr

end Sys2Proof.Machine
end

