-- ==== Sys2Proof/Machine/StateDma.lean ====
section
/-! DEFINITION. State of the DMA engine and its channels, the Neten routers and the HBM controllers (chapter 13). -/

namespace Sys2Proof.Machine

/-- A DMA descriptor's fields (R382). -/
structure Desc where
  addr  : Nat
  link  : Nat
  op    : Nat
  flags : Nat
  spaces : Nat
  crc   : Nat
  len   : Nat
  src   : Nat
  dst   : Nat
  expect : Nat
  at_   : Nat
  cmp   : Nat
  pulse : Nat
  deriving DecidableEq, Repr

/-- One burst issued: offset in its transfer, length, data once read, and whether that data was poisoned. -/
structure Burst where
  off  : Nat
  len  : Nat
  data : Bytes
  poisoned : Bool
  /-- Its bus read has failed (R399, cause 1). -/
  bad  : Bool
  /-- Failed attempts so far, and the instant its wait ends while it waits (R399). -/
  tries : Nat
  until_ : Option Nat
  /-- The traffic queue of its packets (R380, R381). -/
  tq : Nat
  deriving DecidableEq, Repr

/-- The states of a channel, coded 0 to 5 in CH_STATUS.STATE. -/
inductive ChState where
  | idle
  | fetch
  | run
  | waitTrig
  | parked
  | halted
  deriving DecidableEq, Repr

/-- The descriptor being run: how far it is issued, what is outstanding, and how it stands. -/
structure Job where
  desc    : Desc
  /-- Its trigger has fired. -/
  fired   : Bool
  /-- Under TRIG 2, the position it waits for, once fixed (R390). -/
  trigPos : Option Nat
  /-- Checked and past its trigger: bursts may issue. -/
  started : Bool
  /-- Bytes of the transfer issued so far. -/
  issued  : Nat
  /-- Bursts issued and not returned, oldest first. -/
  flight  : List Burst
  /-- The running CRC register. -/
  crcReg  : Nat
  edges   : Bool
  retries : Nat
  /-- Status once it ends in an error or is cancelled; none while it runs. -/
  failed  : Option Nat
  /-- The completion read of R395 has returned; its failed attempts, and the instant its wait ends. -/
  cplDone : Bool
  cplTries : Nat
  cplUntil : Nat
  /-- Failed attempts of the record's write; 8 once it is given up (R549; log entry 100). -/
  recTries : Nat
  /-- Its writes of host or peer memory, in order: they are made again before its completion read is (R549). -/
  wrote : List (Nat × Bytes)
  deriving DecidableEq, Repr

/-- The fields of CH_CFG. -/
structure ChCfg where
  burst  : Nat := 3
  edge   : Bool := false
  retry  : Nat := 3
  haltCrc : Bool := false
  space  : Nat := 0
  batch  : Nat := 3
  deriving DecidableEq, Repr

/-- One DMA channel (chapter 13). -/
structure Chan where
  state    : ChState := .idle
  head     : Pair := {}
  armed    : Option Nat := none
  armOverrun : Bool := false
  armOverruns : Nat := 0
  lastStatus : Nat := 0
  stCfg    : ChCfg := {}
  cfg      : ChCfg := {}
  pending  : Option ChCfg := none
  prio     : Nat := 0
  weight   : Nat := 1
  /-- Bursts left in the present turn (R392). -/
  turn     : Nat := 0
  trigSrc  : Nat := 0
  trigCount : Nat := 0
  trigLost : Nat := 0
  cur      : Nat := 0
  tail     : Nat := 0
  errInfo  : Nat := 0
  errAddr  : Nat := 0
  retries  : Nat := 0
  crcFail  : Nat := 0
  edgeBursts : Nat := 0
  bytes    : Nat := 0
  descs    : Nat := 0
  /-- Address of the fetch or LINK reread under way. -/
  fetching : Option Nat := none
  rereading : Bool := false
  repoke   : Bool := false
  /-- Descriptors fetched and not yet run, oldest first. -/
  fetched  : List Desc := []
  job      : Option Job := none
  /-- Running CRC value that a CONT descriptor continues (R394). -/
  crcKept  : Nat := 0
  /-- Descriptors whose writes to the bus no completion read has covered yet, and their bytes (R396). -/
  owedDescs : Nat := 0
  owedBytes : Nat := 0
  /-- The last bus address that those descriptors wrote (R395). -/
  owedAt   : Nat := 0
  aborting : Bool := false
  deriving DecidableEq, Repr

/-- A flit in a router: the output port it leaves by, its traffic queue and class, its destination, its packet with the flit's number in it
and the number of the last one, and its payload (R373). -/
structure Flit where
  out     : Nat
  tq      : Nat
  cls     : Nat
  dst     : Nat
  pkt     : Nat
  num     : Nat
  last    : Nat
  payload : Bytes
  deriving DecidableEq, Repr

/-- One Neten router: NET_ registers and what its links carry (chapter 13). -/
structure Router where
  linkUp  : Nat := 0
  qosErr  : Bool := false
  stShares : List Nat := [2, 4, 4, 8, 8, 16, 8, 2]
  shares  : List Nat := [2, 4, 4, 8, 8, 16, 8, 2]
  pending : Option (List Nat) := none
  retry   : Nat := 0
  stall   : Nat := 0
  flits   : Nat := 0
  /-- Replays in a row of the flit at an input port (R379). -/
  replays : Tab Nat := []
  /-- Flits held, by input port and class (key 3 * port + class), oldest first (R374). -/
  held    : Tab (List Flit) := []
  /-- Link buffers by output port: flits sent and not yet received, oldest first (R379). -/
  link    : Tab (List Flit) := []
  /-- At the local port: payload of packets that arrive, by packet number, and the packets taken by the units here (class, TQ, payload), newest
  first; flits of responses that the units have space reserved for (R373, R375). -/
  rx      : Tab Bytes := []
  packets : List (Nat × Nat × Bytes) := []
  reserved : Nat := 0
  /-- Credits used at the next router, by output port and class. -/
  used    : Tab Nat := []
  /-- Credits returned last, by output port and class: the fabric cycle and how many (R24). -/
  back    : Tab (Nat × Nat) := []
  /-- Cycle and TQ of the flits sent by each output port in the last 64 cycles, newest first (R376). -/
  sent    : Tab (List (Nat × Nat)) := []
  deriving DecidableEq, Repr

/-- One HBM controller: HBM_ registers and marked words (chapter 13). -/
structure HbmCtl where
  trained   : Bool := false
  scrubbing : Bool := false
  corr      : Nat := 0
  uncorr    : Nat := 0
  errAddr   : Nat := 0
  period    : Nat := 24
  passes    : Nat := 0
  rdBytes   : Nat := 0
  wrBytes   : Nat := 0
  deriving DecidableEq, Repr

/-- What the ECC bits of an HBM word say (R366): one bit in error, or more. -/
inductive EccMark where
  | good
  | single
  | poisoned
  deriving DecidableEq, Repr

/-- The memory side of the die. -/
structure Mem where
  chans   : Tab Chan := []
  /-- The latest fabric cycle. -/
  netCyc  : Nat := 0
  /-- The channel whose turn it was last, per priority (R392). -/
  lastCh  : Tab Nat := []
  routers : Tab Router := []
  hbmc    : Tab HbmCtl := []
  /-- HBM contents by device address, and words with ECC errors by word number. -/
  hbm     : Tab Byte := []
  ecc     : Tab EccMark := []
  /-- Host and peer memory by bus address, as far as the block has seen it. -/
  bus     : Tab Byte := []
  deriving DecidableEq, Repr

end Sys2Proof.Machine
end

