-- ==== Sys2Proof/Machine/StateLink.lean ====
section
/-! DEFINITION. State of the links and of management: PCIe function, Rolog chain, pair link and lease (chapter
15), security processor (chapter 17), power and management (chapter 18). -/

namespace Sys2Proof.Machine

/-- The device states of the function (R428). -/
inductive DState where
  | d0
  | d3hot
  | d3cold
  deriving DecidableEq, Repr

/-- The PCIe function and the PCI_ registers. -/
structure Pci where
  rate     : Nat := 0
  width    : Nat := 0
  linkUp   : Bool := false
  dstate   : DState := .d0
  lanes    : Nat := 0xFFFF
  unmapped : Nat := 0
  retrains : Nat := 0
  cplTimeouts : Nat := 0
  /-- PERST# as driven by the slot: true while asserted. -/
  perst    : Bool := true
  pmeEn    : Bool := false
  pmeStatus : Bool := false
  /-- A PME message has been sent in this stay outside D0 (R100). -/
  pmeSent  : Bool := false
  /-- BAR2 size as a power of two exponent (R426). -/
  bar2Log2 : Nat := 28
  /-- MSI-X table: masked vectors, where an unlisted one is masked, and pending bits (R102, R422); addresses and data of its entries (R426). -/
  msixMask : Tab Bool := []
  msixPend : Tab Bool := []
  msixAddr : Tab Nat := []
  msixData : Tab Nat := []
  /-- MSI-X Enable and Function Mask of configuration space. -/
  msixEn   : Bool := false
  msixHold : Bool := false
  /-- Enable Relaxed Ordering; codes of the payload and read request sizes; completion timeout range and its disable bit (R425). -/
  relaxed  : Bool := true
  payload  : Nat := 0
  readReq  : Nat := 2
  cplRange : Nat := 0
  cplOff   : Bool := false
  /-- An FRS message has been sent: configuration requests are answered normally (R429). -/
  frs      : Bool := false
  deriving DecidableEq, Repr

/-- The Rolog chain port and its registers. -/
structure Chain where
  en       : Bool := true
  master   : Bool := false
  skew     : Nat := 0
  inserted : Bool := false
  ring     : Bool := false
  position : Nat := 0
  ringSize : Nat := 0
  conflict : Bool := false
  over_    : Bool := false
  /-- No BEAT token is accepted until an ENUM gives a position (R438). -/
  noPos    : Bool := false
  crcErr   : Nat := 0
  mgmtDrop : Nat := 0
  splices  : Nat := 0
  tokens   : Nat := 0
  /-- Start of the splice window that is open, by the end of the last BEAT token (R441). -/
  window   : Option Nat := none
  lastBeat : Nat := 0
  /-- A window has begun and the ENUM that ends it has not passed; the MGMT tokens that wait for it, oldest first (R440). -/
  enumDue  : Bool := false
  mgmtHeld : List Bytes := []
  /-- MGMT payloads delivered to this module, newest first (R440). -/
  inbox    : List Bytes := []
  deriving DecidableEq, Repr

/-- The states of the pair (R443), coded 0 to 7. -/
inductive PairState where
  | off
  | down
  | syncing
  | paired
  | solo
  | detached
  | suspect
  | fenced
  deriving DecidableEq, Repr

/-- An announced entry (ANNOUNCE of R447). -/
structure Announce where
  ann    : Nat
  queue  : Nat
  phase  : Nat
  slot   : Nat
  jState : Nat
  jFinal : Nat
  seq    : Nat
  entry  : Bytes
  flows  : List (Nat × Nat)
  deriving DecidableEq, Repr

/-- An acceptance mirrored to the secondary (ACCEPT of R447). -/
structure Mirrored where
  seq    : Nat
  queue  : Nat
  sqHead : Nat
  entry  : Bytes
  deriving DecidableEq, Repr

/-- The pair link, the lease and their registers. -/
structure Pair2 where
  role     : Nat := 0
  roleNow  : Nat := 0
  state    : PairState := .off
  portsUp  : Nat := 0
  /-- Lanes trained per port: 0, 4 or 8. -/
  lanes0   : Nat := 0
  lanes1   : Nat := 0
  verErr   : Bool := false
  cfgErr   : Bool := false
  roleErr  : Bool := false
  offer    : Nat := 0x01010100
  agreed   : Nat := 0
  lease    : Pair := {}
  peerId   : Nat := 0
  retries  : Nat := 0
  takeovers : Nat := 0
  msgs     : Nat := 0
  helloSeen : Bool := false
  /-- Sequence numbers: last sent, last taken in order, last acknowledged by the peer. -/
  txSeq    : Nat := 0
  rxSeq    : Nat := 0
  txAck    : Nat := 0
  /-- Messages sent and not acknowledged, oldest first: SEQ, type, payload. -/
  unacked  : List (Nat × Nat × Bytes) := []
  lastRx   : Nat := 0
  lastTx   : Nat := 0
  /-- One-way link latency measured at port training, in ns (R453). -/
  latency  : Nat := 0
  annNum   : Nat := 0
  /-- Secondary: announcements not covered by DONE, oldest first. -/
  undone   : List Announce := []
  mirrored : List Mirrored := []
  /-- Secondary: output segments kept until DONE: stream, batch, address space, address and bytes (R454). -/
  kept     : List (Nat × Nat × Space × Nat × Bytes) := []
  /-- Join batches by stream (R463). -/
  joins    : Tab Nat := []
  syncImage : Bytes := []
  /-- The last SYNC_DATA has come; SYNC_READY (as primary: SYNC_JOIN) has been sent. -/
  syncEnd  : Bool := false
  readySent : Bool := false
  /-- Secondary: SYNC_JOIN has come. -/
  joinSeen : Bool := false
  /-- Primary: SEQ of SYNC_JOIN (R447), the next journal number as SYNCING began, and whether the journal records are still to be sent, which
  waits for D0 (R102, R462). -/
  joinSeq  : Nat := 0
  syncFrom : Nat := 0
  syncOwed : Bool := false
  /-- Secondary: by stream, how many batch records the primary has written as far as it has said (R463). -/
  written  : Tab Nat := []
  /-- HANDOVER has been written; the writes already issued complete first (R456). -/
  handing  : Bool := false
  /-- Entries announced before this module produced them (queue, CMD_ID, KIND, RESULT), and batch records done before it
  finished them (stream, batch). -/
  early    : List (Nat × Nat × Nat × Nat) := []
  doneEarly : List (Nat × Nat) := []
  /-- Primary: a lease cycle must complete before any other write, after an interval outside D0 (R455). -/
  needCycle : Bool := false
  /-- Lease: COUNT last written or read, the module read, when the last cycle completed, a cycle under way. -/
  leaseCount : Nat := 0
  leaseAt  : Nat := 0
  cycling  : Bool := false
  /-- When the next lease cycle, or in SUSPECT the next read, is due. -/
  leaseNext : Nat := 0
  /-- SUSPECT: the first stale read (instant, COUNT, MODULE_ID), the claim instant. -/
  staleAt  : Option (Nat × Nat × Nat) := none
  claimAt  : Option Nat := none
  deriving DecidableEq, Repr

/-- The security processor: the SEC_ registers, the replay-protected region, debug and identity (chapter 17). -/
structure Sec where
  bootSlot : Nat := 0
  debug    : Nat := 0
  graphPolicy : Bool := false
  /-- HBM_ENC in force since the last cold boot, and the policy for the next one (R502, R508). -/
  hbmEnc   : Bool := false
  hbmEncPolicy : Bool := false
  ide      : Bool := false
  tamper   : Bool := false
  svn      : Tab Nat := []
  sigFail  : Nat := 0
  revokedEd : Nat := 0
  revokedMl : Nat := 0
  deviceId : Nat := 0
  /-- Owner slots: the two key hashes, 96 bytes, or empty (R501). -/
  owner0   : Bytes := []
  owner1   : Bytes := []
  ownerEpoch : Nat := 0
  claimed  : Bool := false
  fullPending : Bool := false
  debugNonce : Nat := 0
  /-- The latest challenge: level requested (R505). -/
  challenge : Option Nat := none
  /-- Measurements of the running images by IMG_TYPE: digest, VERSION and SVN (R499). -/
  images   : List (Nat × Bytes × Nat × Nat) := []
  /-- The HBM key's generation: a cold boot draws a new one (R508). -/
  hbmKey   : Nat := 0
  deriving DecidableEq, Repr

/-- Power controller: PWR_ registers, demands, samples and domains (chapter 18). -/
structure Pwr where
  running  : Bool := false
  /-- Every module rail is in tolerance: PWR_GOOD is high. -/
  good     : Bool := false
  /-- The power-up sequence has begun (R512). -/
  starting : Bool := false
  /-- Stopped by R519 until the input has been absent for a second. -/
  latched  : Bool := false
  vinWarn  : Bool := false
  thermSeen : Bool := false
  belowFloor : Bool := false
  result   : Nat := 0
  cap      : Nat := 720
  capAt    : Nat := 0
  /-- Steps below 2.4 GHz of the two demands and of the clock in force. -/
  capStep  : Nat := 0
  thermStep : Nat := 0
  step     : Nat := 0
  /-- A decided step that has not taken effect: the new step. -/
  decided  : Option Nat := none
  stepAt   : Nat := 0
  steps    : Nat := 0
  mv10     : Nat := 0
  watts    : Nat := 0
  tempDie  : Nat := 0
  tempHbm  : Nat := 0
  gating   : Bool := false
  /-- A stretch above the cap has lasted 9 ms and the power has not yet fallen to the cap (R520). -/
  holding  : Bool := false
  /-- Samples of the last 10 ms: instant and input power in mW, newest first. -/
  samples  : List (Nat × Nat) := []
  /-- When input power rose above the cap, when the 10 ms average fell 20 W below it, when all sensors fell below
  90 degrees. -/
  aboveAt  : Option Nat := none
  belowAt  : Option Nat := none
  coolAt   : Option Nat := none
  /-- PWR_DOMAIN_CTL as written. -/
  ctlDomain : Nat := 0
  ctlOff   : Bool := false
  ctlForce : Bool := false
  /-- Domains that are off, bit d. -/
  off      : Nat := 0
  /-- The request in progress: domain, OFF, FORCE, acceptance instant. -/
  request  : Option (Nat × Bool × Bool × Nat) := none
  deriving DecidableEq, Repr

/-- Management: MGT_ registers, PLDM and the firmware slots (chapter 18). -/
structure Mgt where
  stage    : Nat := 0
  /-- Out of reset, and boot is not complete. -/
  booting  : Bool := false
  /-- The boot under way, or the next one, is a cold boot (R513). -/
  cold     : Bool := true
  /-- Firmware slot of this boot. -/
  active   : Nat := 0
  trial    : Bool := false
  updating : Bool := false
  eid      : Nat := 0
  /-- Instant of the last cold boot, for MGT_UPTIME. -/
  bootAt   : Nat := 0
  /-- Numeric sensors by id (R523). -/
  sensors  : Tab Nat := []
  receiver : Option Nat := none
  /-- The MGI agreement has been made in this boot (R536). -/
  mgiDone  : Bool := false
  /-- Firmware slots: contents by (slot, IMG_TYPE) as key 8 * slot + type, committed slot, trial slot and its boots. -/
  images   : Tab Bytes := []
  committed : Nat := 0
  trialSlot : Option Nat := none
  trialBoots : Nat := 0
  verified : List Nat := []
  /-- The last reading that led to a thermal stop: sensor class and temperature (R519). -/
  thermal  : Option (Nat × Nat) := none
  /-- Instant at which the trial boot completed stage 3. -/
  stage3At : Option Nat := none
  deriving DecidableEq, Repr

end Sys2Proof.Machine
end

