-- ==== Sys2Proof/Machine/StateUnit.lean ====
section
/-! DEFINITION. State of the units beside the cores: Quern (chapter 06), the gather coalescer and Sorrel (chapter 07),
Sage (chapter 08), the intake lanes with Chervil, the JPEG decoder and Lovage (chapters 09, 10), Millstone (chapter 11);
attached tables (chapters 03, 04, 09) and what table stages have built (chapter 06). -/

namespace Sys2Proof.Machine

/-- One element of a column: its validity bit, its bits for a fixed-width or MX type, its bytes for STRING and BINARY,
its elements for LIST; the scale byte of its block for an MX type; whether its end offsets give it more than R112 allows. -/
structure Cell where
  valid : Bool := false
  bits  : Nat := 0
  bytes : Bytes := []
  elems : List Nat := []
  scale : Nat := 127
  long  : Bool := false
  deriving DecidableEq, Repr

/-- A column reference (COL of R331). -/
structure ColW where
  slot     : Nat
  ty       : Nat
  nullable : Bool
  last     : Bool
  desc     : Bool
  tbl      : Bool
  param    : Nat
  off      : Nat
  deriving DecidableEq, Repr

/-- How the rows of a batch lie in a slot column: as cells, in ROWS form at a pitch, or as `n` elements a row that hold `fill` in a void row
(R114). -/
inductive ColForm where
  | cells
  | rows (pitch size : Nat)
  | elems (n fill : Nat)
  deriving DecidableEq, Repr

/-- A slot column that rows of a batch have been written to: physical cluster, first row slot, rows. -/
structure ColAt where
  k     : Nat
  first : Nat
  count : Nat
  col   : ColW
  form  : ColForm := .cells
  deriving DecidableEq, Repr

/-- What was written to bytes of a slot: elements that are valid or not (R544), or padding elements (R132, R290, R301). -/
structure Mark where
  at_   : Nat
  len   : Nat
  valid : Bool
  pad   : Bool
  deriving DecidableEq, Repr

/-- A column of a table: type, NULLABLE, scale or LIST element type, and for blocked tables the offsets of R126. -/
structure TCol where
  ty       : Nat
  nullable : Bool
  param    : Nat
  off      : Nat := 0
  idx      : Nat := 0
  len      : Nat := 0
  deriving DecidableEq, Repr

/-- An attached table. -/
structure Table where
  format  : Nat := 3
  extents : List Extent := []
  rows    : Nat := 0
  cols    : List TCol := []
  /-- The submission entry that attached it (R462). -/
  entry   : Option SubEntry := none
  /-- Format 2: byte offset of every 8,192nd record (R266), header row and delimiter of the graph's declaration. -/
  offsets : List Nat := []
  header  : Bool := false
  delim   : Nat := 0x2C
  /-- Sizes that OPEN_STREAM compares with the limit set (R271). -/
  footer  : Nat := 0
  group   : Nat := 0
  deriving DecidableEq, Repr

/-- A row of a join build or of an index: source row, hash, key cells, payload cells, time. -/
structure BuildRow where
  row     : Nat
  hash    : Nat
  key     : List Cell
  payload : List Cell
  time    : Int
  deriving DecidableEq, Repr

/-- What one task of an operator brings to a result that all tasks of its template share (R202 to R205, R209, R211): placement entry,
cluster and task slot, its row slots, the rows that each core's partial takes, and its rows that are not void: number, key, values. -/
structure InPart where
  place : Nat
  k     : Nat
  slot  : Nat
  first : Nat
  count : Nat
  parts : List Nat := []
  rows  : List (Nat × List Cell × List Cell) := []
  /-- 64 KiB blocks that it has spilled and whose group-by has not ended (R204). -/
  spill : Nat := 0
  deriving DecidableEq, Repr

/-- A rank sketch: items by level, and the parity of each level (R209). -/
structure Sketch where
  k : Nat
  levels : List (List Nat)
  parity : List Nat
  deriving DecidableEq, Repr

/-- One row of a LOOKUP: its cells, whether the row becomes void, whether a search was issued for it. -/
structure LookRow where
  cells : List Cell
  void_ : Bool := false
  sent  : Bool := false
  deriving DecidableEq, Repr

/-- How far a LOOKUP has come: the rows it has done, the searches it has issued for them, and whether the next row's search has been issued and
waits for an entry to be loaded again (R251). -/
structure LookProg where
  rows   : List LookRow := []
  issued : Nat := 0
  waits  : Bool := false
  deriving DecidableEq, Repr

/-- The output rows of one task of a table stage, each with its void reason, and the input row that they start from (R185). -/
structure OutPart where
  place : Nat
  first : Nat
  rows  : List (List Cell × Nat)
  deriving DecidableEq, Repr

/-- FIT parameters of a column (R208), as binary64. -/
structure Fit where
  mu    : Nat
  sigma : Nat
  lo    : Nat
  hi    : Nat
  deriving DecidableEq, Repr

/-- What a completed table stage has built, by template: build rows or a derived table's shape. -/
structure Built where
  rows  : List BuildRow := []
  /-- Rows and columns of a derived table in its HBM area, and the void reasons of its rows. -/
  count : Nat := 0
  cols  : List TCol := []
  voids : Tab Nat := []
  /-- What its tasks have brought and put out so far. -/
  ins   : List InPart := []
  outs  : List OutPart := []
  /-- A scatter stage at work: by destination row the input position applied last, plus 1 (R223). -/
  scat  : Option (Tab Nat) := none
  /-- Clusters on which a build uses HBM spill space, bit k (R190). -/
  spilled : Nat := 0
  /-- FIT parameters of a sketch's column, and the sketch with its COL word (R183, R208). -/
  fit    : Option Fit := none
  sketch : Option (Nat × Sketch) := none
  deriving DecidableEq, Repr

/-- Quern's registers (QRN_). BUSY is read from the unit's queue. -/
structure Quern where
  limitHit    : Bool := false
  nullKeys    : Nat := 0
  buildDup    : Nat := 0
  voidSkipped : Nat := 0
  spillBlocks : Nat := 0
  asofNomatch : Nat := 0
  asofTies    : Nat := 0
  rangeErr    : Nat := 0
  nanInputs   : Nat := 0
  limitKey    : Nat := 0
  chunks      : Nat := 0
  deriving DecidableEq, Repr

/-- Sorrel's registers (SRL_). A merge lies inside one step, so MERGING reads 0 between steps. -/
structure Sorrel where
  nanSeen     : Nat := 0
  dupMerged   : Nat := 0
  dupMismatch : Nat := 0
  tieAtK      : Nat := 0
  short       : Nat := 0
  selections  : Nat := 0
  deriving DecidableEq, Repr

/-- The gather coalescer's registers (GTH_). -/
structure Gth where
  oor         : Nat := 0
  nullIndex   : Nat := 0
  dropped     : Nat := 0
  windowSplit : Nat := 0
  rowsRead    : Nat := 0
  coalesced   : Nat := 0
  deriving DecidableEq, Repr

/-- Millstone's registers (MLS_). -/
structure Mls where
  arith       : Nat := 0
  flagEn      : Nat := 0
  bagDropped  : Nat := 0
  bagMismatch : Nat := 0
  emptyBag    : Nat := 0
  emptyAttn   : Nat := 0
  macs        : Nat := 0
  busyCycles  : Nat := 0
  layer       : Nat := 0
  kernel      : Nat := 0
  deriving DecidableEq, Repr

/-- The fields of an EXACT entry (R242). -/
structure SageRow where
  valid  : Bool := false
  prio   : Nat := 0
  result : Nat := 0
  key    : Nat := 0
  deriving DecidableEq, Repr

/-- A match row with its parity bits, its stored copy with its ECC words, and the source it reloads from (R242, R251). -/
structure SageEntry where
  row     : SageRow := {}
  /-- One parity bit for each 16 bits of KEY, and one for PRIO and VALID at bit 32. -/
  parity  : Nat := 0
  stored  : SageRow := {}
  /-- Words of 64 bits of the stored copy that have errors (KEY from word 0, RESULT 8, PRIO and VALID 9): 1 one bit, 2 more. -/
  ecc     : Tab Nat := []
  source  : Option SageRow := none
  deriving DecidableEq, Repr

/-- One Sage bank: mode (0 OFF, 1 EXACT, 2 AUTOMATON) and width code in force, staged and pending configuration,
entries, mask slots, class table, automaton states (256 bits each). -/
structure SageBank where
  mode    : Nat := 0
  width   : Nat := 0
  stCfg   : Nat := 0
  /-- Pending configuration: commit number and value. -/
  pending : Option (Nat × Nat) := none
  entries : Tab SageEntry := []
  masks   : Tab Nat := []
  classes : Tab Nat := []
  states  : Tab Nat := []
  /-- An entry whose reload a search waits for, and whether it is loaded again (R251). -/
  reload  : Option (Nat × Bool) := none
  deriving DecidableEq, Repr

/-- The staged entry write group (R253): TARGET, CTL, KEY0 to KEY15, RES. -/
structure SageWr where
  target : Nat := 0
  ctl    : Nat := 0
  key    : Tab Nat := []
  resLo  : Nat := 0
  res    : Nat := 0
  deriving DecidableEq, Repr

/-- A cluster's Sage: banks, write group, its pending copy with the commit number, and registers (SAGE_). -/
structure Sage where
  banks   : Tab SageBank := []
  wr      : SageWr := {}
  pending : Option (Nat × SageWr) := none
  commits : Nat := 0
  wrErr   : Bool := false
  modeErr : Bool := false
  falseHit : Nat := 0
  eccCorr : Nat := 0
  eccUncorr : Nat := 0
  scrubFix : Nat := 0
  nullKeys : Nat := 0
  keyLong : Nat := 0
  bankOff : Nat := 0
  rptOverflow : Nat := 0
  wrReject : Nat := 0
  multi   : Nat := 0
  searches : Nat := 0
  deriving DecidableEq, Repr

/-- The units of one cluster. -/
structure Units where
  quern  : Quern := {}
  sorrel : Sorrel := {}
  gth    : Gth := {}
  mls    : Mls := {}
  sage   : Sage := {}
  deriving DecidableEq, Repr

/-- A lane's account of one budgeted class in the batch it works on (R276): samples in all, finished, cycles charged, and slot and column
of the last one taken (R275). -/
structure Budget where
  total : Nat := 0
  done  : Nat := 0
  used  : Nat := 0
  last  : Option (Nat × Nat) := none
  deriving DecidableEq, Repr

/-- A decoded image that waits for Lovage: its slot and column, the declarations that have still to work on it (by their number among the
stream's), size, and its Y or RGB pixels, row by row. -/
structure Img where
  slot : Nat
  col  : Nat
  left : List Nat
  w    : Nat
  h    : Nat
  gray : Bool
  staged : Bool
  pix  : Bytes
  deriving DecidableEq, Repr

/-- A row as a lane has decoded it: a void reason, or its cells; and its UTF-8 repairs. -/
structure Kept where
  reason : Nat := 0
  cells  : List Cell := []
  fixed  : Nat := 0
  deriving DecidableEq, Repr

/-- A window of a WINDOWED stream in a lane's buffers: the mark and the number that name it, and its decoded rows by source row (R281). -/
structure WinBuf where
  stream : Nat
  mark   : Nat
  k      : Nat
  rows   : Tab Kept := []
  deriving DecidableEq, Repr

/-- One intake lane: INT_, CHV_, JPG_ and LOV_ registers, the batch in work and the slots of it not yet decoded, and the
batches whose slots its shuffle generator has computed. -/
structure Lane where
  voidCorrupt : Nat := 0
  voidLimit   : Nat := 0
  voidBudget  : Nat := 0
  voidSource  : Nat := 0
  utf8Fixed   : Nat := 0
  patience    : Nat := 0
  shufStall   : Nat := 0
  lastReason  : Nat := 0
  lastStream  : Nat := 0
  lastRow     : Nat := 0
  bytesIn     : Nat := 0
  bytesOut    : Nat := 0
  samples     : Nat := 0
  shufSteps   : Nat := 0
  truncated   : Nat := 0
  fallback    : Nat := 0
  tokens      : Nat := 0
  dict        : Nat := 0
  unsupported : Nat := 0
  jpgCorrupt  : Nat := 0
  lastError   : Nat := 0
  pixels      : Nat := 0
  badGeom     : Nat := 0
  border      : Nat := 0
  staged      : Nat := 0
  lovSamples  : Nat := 0
  /-- Stream and batch in work. -/
  cur         : Option (Nat × Nat) := none
  todo        : List Nat := []
  /-- Row slot at which the batch's last fetch began (R545). -/
  fetchSlot   : Nat := 0
  /-- The values of the batch's budgeted and per-row columns, by row slot (R275, R287, R297). -/
  raw         : Tab (List Cell) := []
  /-- Outputs written: row slot, whether of an image, and the declaration's number among the stream's. -/
  made        : List (Nat × Bool × Nat) := []
  image       : Budget := {}
  text        : Budget := {}
  /-- Decoded images that wait for Lovage, oldest first (R305). -/
  images      : List Img := []
  /-- Slots of the batch that a sample has made void, with its class (1 IMAGE, 2 TEXT): their other values of the class are no samples (R275,
  R278). -/
  late        : List (Nat × Nat) := []
  /-- Units whose header declared too much, by stream, target and byte range of the body, which is not read (R270). -/
  refused     : List (Nat × Into × Nat × Nat) := []
  /-- Units whose header declared nothing past its limits, likewise: their bodies may be read (R270). -/
  passed      : List (Nat × Into × Nat × Nat) := []
  /-- Windows decoded for the batch in work and ahead of it (R281). -/
  windows     : List WinBuf := []
  /-- Stream and batch whose slots are computed. -/
  shuffled    : List (Nat × Nat) := []
  /-- Stream and batch of the stalls counted in INT_SHUF_STALL (R284). -/
  stalls      : List (Nat × Nat) := []
  deriving DecidableEq, Repr

end Sys2Proof.Machine
end

