-- ==== Sys2Proof/Machine/StateWork.lean ====
section
/-! DEFINITION. State of the work: the loaded graph and its streams (chapters 02, 03, 12), task records, frames,
Hoppers and dispatchers, cores and engines (chapters 05, 12), flows and Weir instances (chapter 12). -/

namespace Sys2Proof.Machine

/-- One section of a QXG image: type, INDEX and contents (chapter 02). -/
structure Section where
  ty    : Nat
  index : Nat
  data  : Bytes
  deriving DecidableEq, Repr

/-- The loaded graph: header fields, sections in table order, the selected variant (R55, R58). -/
structure Graph where
  id        : Nat
  major     : Nat
  minor     : Nat
  minPeriod : Nat
  minClock  : Nat
  streams   : Nat
  phases    : Nat
  sections  : List Section
  /-- The image as loaded, and the entry that loaded it (R462). -/
  image     : Bytes
  entry     : SubEntry
  variant   : Nat
  /-- Digest of the image, as measurement (R500). -/
  digest    : Bytes
  /-- Graph phase in place, and the Weir instance whose close a swap waits for (R53). -/
  phase     : Nat
  swapDue   : Option Nat
  /-- A removal has left the variant unsatisfied; the switch happens at the next beat boundary (R56). -/
  switchDue : Bool
  /-- A phase swap or a variant switch that waits until the running layer tasks have ended (R320). -/
  swapWait  : Bool := false
  switchWait : Bool := false
  /-- Where its variants place the Sage images: variant, image, logical cluster, bank (R252). -/
  sage      : List (Nat × Nat × Nat × Nat) := []
  /-- A program fault has happened: no further batch of its streams begins (R160). -/
  faulted   : Bool := false
  /-- What it declares of its operators beside their parameter words (R169, R182, R206 to R208). -/
  decls     : OpDecls := {}
  /-- Its TOKENISE and IMAGE_PREP declarations (R288, R297). -/
  toks      : List TokDecl := []
  preps     : List PrepDecl := []
  deriving DecidableEq, Repr

/-- A batch of a stream that has been instantiated and whose record has not been written. -/
structure Batch where
  num      : Nat
  start    : Nat
  due      : Nat
  /-- Clusters that have instantiated it, bit k. -/
  insts    : Nat
  begun    : Bool
  /-- Intake lanes (physical, bit i) that have begun it, and that have finished it. -/
  intake   : Nat
  intakeDone : Nat
  breach   : Bool
  busError : Bool
  domainOff : Bool
  /-- Void reason by row slot (R114, R117). -/
  voids    : Tab Nat
  /-- Segments released so far, over all flows, and whether the writes of the last are complete. -/
  released : Nat
  /-- Its record has been queued and not yet written. -/
  recorded : Bool
  /-- Slot columns that hold rows of it (R114). -/
  cols     : List ColAt := []
  /-- What was written to bytes of the cluster stores for it, by cluster (R132, R544), and, at hand-off, by byte of the output slot. -/
  marks    : List (Nat × Mark) := []
  valid    : List Mark := []
  /-- What tasks have brought to results that they share, by template (R205). -/
  shares   : List (Nat × InPart) := []
  /-- Scatter operators at work, by template: by destination row the input position applied last, plus 1 (R223). -/
  scat     : List (Nat × Tab Nat) := []
  deriving DecidableEq, Repr

/-- The life of a stream (R77). -/
inductive StreamPhase where
  | closed
  /-- OPEN_STREAM is executing its table stages. -/
  | opening
  | open_
  | closing
  deriving DecidableEq, Repr

/-- A RUN outstanding on a stream: its sequence number, the first batch after its range, batches released, and the batches beyond the range
that had begun when it was cut (R94). -/
structure RunRef where
  seq   : Nat
  last  : Nat
  count : Nat
  cancelled : Bool
  own   : List Nat := []
  deriving DecidableEq, Repr

/-- What the lanes have decoded of an attached table of FORMAT 0 to 2 for a stream: rows, and void reasons (R281). -/
structure Dec where
  cells : Tab (List Cell) := []
  voids : Tab Nat := []
  deriving DecidableEq, Repr

/-- One stream: its state, descriptor and registers (chapters 02, 03, 12). -/
structure Stream where
  phase    : StreamPhase := .closed
  /-- Adopted descriptors (ORIGIN, FROM_BATCH), newest first (R358). -/
  anchors  : List (Nat × Nat) := []
  stOrigin : Pair := {}
  stFrom   : Pair := {}
  armed    : Option (Nat × Nat) := none
  /-- Its STREAM_END instances have closed (R354). -/
  ended    : Bool := false
  armOverrun : Bool := false
  armOverruns : Nat := 0
  seed     : Nat := 0
  /-- Epoch marks (FROM_BATCH, EPOCH) in rising FROM_BATCH order (R282). -/
  marks    : List (Nat × Nat) := []
  slots    : List (Nat × Space) := []
  slotBytes : Nat := 0
  runLimit : Nat := 0
  released : Nat := 0
  late     : Nat := 0
  voidRows : Nat := 0
  batches  : List Batch := []
  runs     : List RunRef := []
  /-- Batches at or above this one are never released (R160). -/
  stop     : Option Nat := none
  stopStatus : Nat := 0
  /-- The entry that opened it (R462), and the commands that opened it and that closes it. -/
  entry    : Option SubEntry := none
  openSeq  : Nat := 0
  closeSeq : Option Nat := none
  /-- Its source, as a TABLE word of R331 (log entry 50), and the source's rows. -/
  src      : Nat := 0
  rows     : Nat := 0
  /-- A landing stage of its source is under way (R281). -/
  landing  : Bool := false
  /-- What the lanes have decoded for its table stages, by table. -/
  dec      : Tab Dec := []
  deriving DecidableEq, Repr

/-- The states of a task record (R327), coded 0 to 5. -/
inductive TaskState where
  | free
  | delayed
  | waiting
  | ready
  | prefetched
  | running
  deriving DecidableEq, Repr

/-- A task record in a task slot (chapter 12). -/
structure TaskRec where
  state  : TaskState := .free
  tpl    : Nat := 0
  place  : Nat := 0
  stream : Nat := 0
  /-- The batch, or none for a table stage (R338). -/
  batch  : Option Nat := none
  frame  : Nat := 0
  start  : Nat := 0
  prio   : Nat := 0
  /-- Effects of the completion done so far (R341): the hand-off waits for the window (R355). -/
  handing : Bool := false
  /-- Its core, numbered 32k + n, once placed; or its unit's queue. -/
  seat   : Nat := 0
  /-- Status of a table stage or unit task that failed (R166); 0 otherwise. -/
  fail   : Nat := 0
  /-- The unit's work of the task is done. -/
  ended  : Bool := false
  /-- HBM and bus memory as they stood when a GATHER began (R222). -/
  snap   : Option (Tab Byte × Tab Byte) := none
  /-- The rows that a LOOKUP has done (R251). -/
  look   : LookProg := {}
  deriving DecidableEq, Repr

/-- A flag frame of a cluster: 1,024 flags as one number (chapter 12). -/
structure Frame where
  used   : Bool := false
  stream : Nat := 0
  batch  : Option Nat := none
  flags  : Nat := 0
  deriving DecidableEq, Repr

/-- A Hopper entry: 0 empty, 1 filling, 2 filled, 3 running, its slot and the prefetched bytes so far. -/
structure Hopper where
  state : Nat := 0
  slot  : Nat := 0
  got   : Nat := 0
  deriving DecidableEq, Repr

/-- The dispatcher of a cluster (chapter 12). -/
structure Disp where
  slots    : Tab TaskRec := []
  frames   : Tab Frame := []
  /-- Slots in DELAYED, sorted by start position, equal positions in insertion order (R47). -/
  delay    : List Nat := []
  /-- The tick position up to which the delay list is being released (R344). -/
  due      : Nat := 0
  /-- Ready lists by level, head first. -/
  ready    : Tab (List Nat) := []
  /-- Queues of the cluster units: 0 Millstone, 1 Quern, 2 Sorrel, 3 Sage, 4 gather coalescer; the head runs. -/
  unitQ    : Tab (List Nat) := []
  levelEn  : Nat := 0xFF
  lookahead : Nat := 16
  stCfg    : Nat := 0x10FF
  pending  : Option Nat := none
  flagDup  : Nat := 0
  flagStray : Nat := 0
  slotStall : Nat := 0
  discarded : Nat := 0
  dispatched : Nat := 0
  taskSel  : Nat := 0
  deriving DecidableEq, Repr

/-- An address stream descriptor (R151). -/
structure StreamDesc where
  base   : Nat
  step   : Int
  stride : Int
  mode   : Nat
  esize  : Nat
  deriving DecidableEq, Repr

/-- What a core runs: the program's streams and size, and the identities that its words draw on (R141, R152). -/
structure ProgCtx where
  prog    : Nat
  /-- The body's words (R151, R154). -/
  body    : List Nat
  engines : Nat
  descs   : List StreamDesc
  slot    : Nat
  hop     : Nat
  tileBase : Nat
  tiles   : Nat
  pfDst   : Nat
  pfLen   : Nat
  seed    : Nat
  epoch   : Nat
  stream  : Nat
  batch   : Nat
  deriving DecidableEq, Repr

/-- One core: its store, Hopper, sequencer and registers (chapters 05, 12). -/
structure Core where
  store   : Tab Byte := []
  h0      : Hopper := {}
  h1      : Hopper := {}
  next    : Nat := 0
  fills   : Nat := 0
  ctx     : Option ProgCtx := none
  lastProg : Nat := 0
  arith   : Nat := 0
  flagEn  : Nat := 0
  faulted : Bool := false
  faultInfo : Nat := 0
  faultAddr : Nat := 0
  faultCount : Nat := 0
  words   : Nat := 0
  deriving DecidableEq, Repr

/-- One engine (R133): registers, validity words, masks, cursors in bits, open loops (word after LOOP and
iterations left, innermost first), flags, next word, words issued for the tile, task tile. -/
structure Engine where
  v      : Tab (BitVec 256) := []
  valid  : Tab (BitVec 32) := []
  k      : Tab (BitVec 32) := []
  cursor : Tab Int := []
  loops  : List (Nat × Nat) := []
  flags  : Nat := 0
  word   : Nat := 0
  issue  : Nat := 0
  tile   : Nat := 0
  stopped : Bool := false
  deriving DecidableEq, Repr

/-- A segment held by Tailrace: sequence, producing cluster, slot number and contents (R355). -/
structure HeldSeg where
  seq    : Nat
  batch  : Nat
  seg    : Nat
  bytes  : Bytes
  deriving DecidableEq, Repr

/-- An ordered flow (R355). -/
structure Flow where
  next : Nat := 0
  held : List HeldSeg := []
  deriving DecidableEq, Repr

/-- What a layout job of a stream has last written to a range of output memory: elements of `unit` bits, data or padding (R130 to
R132). -/
structure Laid where
  stream : Nat
  space  : Space
  addr   : Nat
  len    : Nat
  unit   : Nat
  data   : Bool
  deriving DecidableEq, Repr

/-- Tailrace (chapter 12). -/
structure Trc where
  busy     : Bool := false
  paused   : Bool := false
  stall    : Nat := 0
  released : Nat := 0
  /-- Output memory as the jobs of open streams have laid it out (R131, R132). -/
  laid     : List Laid := []
  deriving DecidableEq, Repr

/-- A Weir instance (R351, R352): generation, arrivals of the current generation by participant, held arrivals
(generation and cluster, oldest first), closes. -/
structure Weir where
  gen    : Nat := 0
  arrived : Tab Nat := []
  heldQ  : List (Nat × Nat) := []
  closes : Nat := 0
  /-- Generations that have closed while a lower batch of the stream was still to come (R353). -/
  closed : List Nat := []
  deriving DecidableEq, Repr

/-- The saved context of a graph phase: cores, engines and cluster stores (R53). -/
structure Saved where
  cores   : Tab Core := []
  engines : Tab Engine := []
  stores  : Tab (Tab Byte) := []
  banks   : Tab (Tab SageBank) := []
  deriving DecidableEq, Repr

/-- Everything that carries the work of a graph. -/
structure Work where
  graph   : Option Graph := none
  streams : Tab Stream := []
  disps   : Tab Disp := []
  cores   : Tab Core := []
  engines : Tab Engine := []
  stores  : Tab (Tab Byte) := []
  flows   : Tab Flow := []
  weirs   : Tab Weir := []
  weirHeld : Nat := 0
  trc     : Trc := {}
  saved   : Tab Saved := []
  units   : Tab Units := []
  lanes   : Tab Lane := []
  tables  : Tab Table := []
  built   : Tab Built := []
  /-- Void reasons of the rows that table stages have written to slot columns, by 256 times the cluster plus the slot (R168). -/
  slotVoids : Tab (Tab Nat) := []
  deriving DecidableEq, Repr

end Sys2Proof.Machine
end

