-- ==== Sys2Proof/Machine/State.lean ====
section
/-! DEFINITION. The whole state of the block as plain data, the state right after reset, and the closed lists of
faults and refusals. -/

namespace Sys2Proof.Machine

/-- The block's state. -/
structure State where
  /-- Time in ns; a command that carries an instant moves it forward. -/
  now     : Nat := 0
  /-- The model's own counter of free choices (log entry 20); no register of the spec. -/
  free    : Nat := 0
  glb     : Glb := {}
  beat    : Beat := {}
  qps     : Tab Qp := []
  groups  : Tab DbGroup := []
  jrn     : Journal := {}
  /-- Commands outstanding, in acceptance order. -/
  cmds    : List Cmd := []
  work    : Work := {}
  mem     : Mem := {}
  evc     : Evc := {}
  err     : Err := {}
  pci     : Pci := {}
  chain   : Chain := {}
  pair    : Pair2 := {}
  sec     : Sec := {}
  pwr     : Pwr := {}
  mgt     : Mgt := {}
  present : Present := {}
  /-- Units that boot found good and that nothing has removed since: what the configuration present shows when every
  domain is on (R480, R481, R516, R517). -/
  fit     : Present := {}
  /-- Held _HI values by the BAR0 offset of the _HI register, each until its next read (R7). -/
  capture : Tab (Option Word) := []
  /-- What the block has sent, newest first. -/
  out     : List Out := []
  /-- The commands that wait, first in, first out. -/
  pending : List Instr := []
  deriving DecidableEq, Repr

/-- No command of the model stops the block: every command has its effect, or changes nothing where the condition
that the spec sets for it does not hold. -/
inductive Fault where
  /-- Raised by no command (safe). -/
  | none_
  deriving DecidableEq, Repr

/-- The reasons a command has no meaning. -/
inductive Refusal where
  /-- Raised by a dispatch arm whose command has no meaning yet (safe: nothing is proved of it). -/
  | notModelled (mnemonic : String)
  deriving DecidableEq, Repr

/-- The block right after reset: every field at the value the spec gives, or at the one its log entry names. -/
def State.reset : State := {}

end Sys2Proof.Machine
end

