-- ==== Sys2Proof/Machine/Tab.lean ====
section
/-! DEFINITION. Reading and writing sparse tables and memories in their one canonical form: keys strictly
rising and no listed value equal to what an unlisted key reads as. -/

namespace Sys2Proof.Machine

/-- The value of a table at a key; an unlisted key reads as `d`. -/
def tget {α : Type} (d : α) : Tab α → Nat → α
  | [], _ => d
  | (j, w) :: r, k => if k = j then w else tget d r k

/-- Lists a value for a key, at its place in the key order. -/
def tput {α : Type} (k : Nat) (v : α) : Tab α → Tab α
  | [] => [(k, v)]
  | (j, w) :: r => if k < j then (k, v) :: (j, w) :: r else if k = j then (k, v) :: r else (j, w) :: tput k v r

/-- Writes a key of a table; writing the default removes the entry. -/
def tset {α : Type} [DecidableEq α] (d : α) (k : Nat) (v : α) (t : Tab α) : Tab α :=
  if v = d then t.filter fun e => decide (e.1 ≠ k) else tput k v t

/-- Changes one key of a table. -/
def tmod {α : Type} [DecidableEq α] (d : α) (k : Nat) (f : α → α) (t : Tab α) : Tab α :=
  tset d k (f (tget d t k)) t

/-- Every key of a table lies above a bound and the keys rise. -/
def tabAbove {α : Type} : Nat → Tab α → Bool
  | _, [] => true
  | b, (j, _) :: r => decide (b < j) && tabAbove j r

/-- The keys of a table rise strictly. -/
def tabSorted {α : Type} : Tab α → Bool
  | [] => true
  | (j, _) :: r => tabAbove j r

/-- No listed value is the default. -/
def tabNoDefault {α : Type} [DecidableEq α] (d : α) (t : Tab α) : Bool := t.all fun e => decide (e.2 ≠ d)

/-- The canonical form of a table. -/
def tabWf {α : Type} [DecidableEq α] (d : α) (t : Tab α) : Bool := tabSorted t && tabNoDefault d t

/-- The canonical form of a byte memory: an unlisted byte reads as zero. -/
def memWf (m : Tab Byte) : Bool := tabWf (0#8) m

/-- One byte of a memory. -/
def readByte (m : Tab Byte) (a : Nat) : Byte := tget 0#8 m a

/-- Writes one byte of a memory. -/
def writeByte (m : Tab Byte) (a : Nat) (v : Byte) : Tab Byte := tset 0#8 a v m

/-- The bytes at addresses `a`, `a + 1`, ... (`n` of them). -/
def readBytes (m : Tab Byte) : Nat → Nat → Bytes
  | _, 0 => []
  | a, n + 1 => readByte m a :: readBytes m (a + 1) n

/-- Stores a string of bytes at rising addresses. -/
def writeBytes : Tab Byte → Nat → Bytes → Tab Byte
  | m, _, [] => m
  | m, a, v :: vs => writeBytes (writeByte m a v) (a + 1) vs

/-- Removes every listed byte of a range (the range reads as zero afterwards). -/
def clearRange (m : Tab Byte) (a n : Nat) : Tab Byte := m.filter fun e => !(decide (a ≤ e.1) && decide (e.1 < a + n))

/-- Little-endian value of a string of bytes (R4). -/
def leNat : Bytes → Nat
  | [] => 0
  | b :: bs => b.toNat + 256 * leNat bs

/-- The `n` little-endian bytes of a value (R4). -/
def leBytes : Nat → Nat → Bytes
  | 0, _ => []
  | n + 1, v => BitVec.ofNat 8 v :: leBytes n (v / 256)

/-- A little-endian field of a byte string: `n` bytes at offset `o`. -/
def fieldAt (bs : Bytes) (o n : Nat) : Nat := leNat ((bs.drop o).take n)

/-- A little-endian read of a memory. -/
def readLe (m : Tab Byte) (a n : Nat) : Nat := leNat (readBytes m a n)

/-- Bits [hi:lo] of a number. -/
def bitsOf (v hi lo : Nat) : Nat := (v / 2 ^ lo) % 2 ^ (hi + 1 - lo)

/-- One bit of a number. -/
def bitOf (v i : Nat) : Bool := (v / 2 ^ i) % 2 == 1

/-- A flag as a number. -/
def b2n (b : Bool) : Nat := if b then 1 else 0

/-- A counter of 32 bits that saturates at 0xFFFF_FFFF. -/
def sat32 (c n : Nat) : Nat := min 0xFFFFFFFF (c + n)

/-- Changes every listed entry of a table and keeps its canonical form. -/
def tabMap {α : Type} [DecidableEq α] (d : α) (f : α → α) (t : Tab α) : Tab α :=
  t.foldr (fun p r => tset d p.1 (f p.2) r) []

end Sys2Proof.Machine
end

