-- ==== Sys2Proof/Machine/Ops.lean ====
section
/-! DEFINITION. The shared operations: time and position, what the block sends, register-write rejection, event
posts (R405 to R409, R422), access to the units' tables, byte access to the memories. -/

namespace Sys2Proof.Machine

/-- Moves time forward to an instant. -/
def State.at_ (s : State) (t : Nat) : State := { s with now := max s.now t }

/-- Sends something to the outside. -/
def State.emit (s : State) (o : Out) : State := { s with out := o :: s.out }

/-- A free choice among `n` values, and the counter advanced (log entry 20). -/
def State.choose (s : State) (n : Nat) : Nat × State :=
  (Config.draw s.free % n, { s with free := s.free + 1 })

/-- Work of the device's own on a reserved DMA channel, the lowest of its four being `base` (R381): which of the four takes it is not stated (a
free choice), and one job counts as one descriptor (DESIGN CHOICE, log entry 113). -/
def State.carried (s : State) (base n : Nat) : State :=
  let c := s.choose 4
  { c.2 with mem := { c.2.mem with chans := tmod {} (base + c.1) (fun x => { x with bytes := (x.bytes + n) % 2 ^ 64, descs := (x.descs + 1) % 2 ^ 64 }) c.2.mem.chans } }

/-- Queue pair `q`. -/
def State.qp (s : State) (q : Nat) : Qp := tget {} s.qps q
def State.modQp (s : State) (q : Nat) (f : Qp → Qp) : State := { s with qps := tmod {} q f s.qps }

/-- Doorbell group `g`. -/
def State.group (s : State) (g : Nat) : DbGroup := tget {} s.groups g
def State.modGroup (s : State) (g : Nat) (f : DbGroup → DbGroup) : State := { s with groups := tmod {} g f s.groups }

/-- Stream `n`. -/
def State.stream (s : State) (n : Nat) : Stream := tget {} s.work.streams n
def State.modWork (s : State) (f : Work → Work) : State := { s with work := f s.work }
def State.modStream (s : State) (n : Nat) (f : Stream → Stream) : State :=
  s.modWork fun w => { w with streams := tmod {} n f w.streams }

/-- The dispatcher of cluster `k`. -/
def State.disp (s : State) (k : Nat) : Disp := tget {} s.work.disps k
def State.modDisp (s : State) (k : Nat) (f : Disp → Disp) : State :=
  s.modWork fun w => { w with disps := tmod {} k f w.disps }

/-- Core `n` of cluster `k`, numbered 32k + n. -/
def State.core (s : State) (c : Nat) : Core := tget {} s.work.cores c
def State.modCore (s : State) (c : Nat) (f : Core → Core) : State :=
  s.modWork fun w => { w with cores := tmod {} c f w.cores }

/-- Engine `e` of core `c`, numbered 32c + e. -/
def State.engine (s : State) (e : Nat) : Engine := tget {} s.work.engines e
def State.modEngine (s : State) (e : Nat) (f : Engine → Engine) : State :=
  s.modWork fun w => { w with engines := tmod {} e f w.engines }

/-- The cluster store of cluster `k`. -/
def State.cstore (s : State) (k : Nat) : Tab Byte := tget [] s.work.stores k
def State.modStore (s : State) (k : Nat) (f : Tab Byte → Tab Byte) : State :=
  s.modWork fun w => { w with stores := tmod [] k f w.stores }

def State.modMem (s : State) (f : Mem → Mem) : State := { s with mem := f s.mem }
def State.chan (s : State) (c : Nat) : Chan := tget {} s.mem.chans c
def State.modChan (s : State) (c : Nat) (f : Chan → Chan) : State :=
  s.modMem fun m => { m with chans := tmod {} c f m.chans }
def State.hbmCtl (s : State) (c : Nat) : HbmCtl := tget {} s.mem.hbmc c
def State.modHbmCtl (s : State) (c : Nat) (f : HbmCtl → HbmCtl) : State :=
  s.modMem fun m => { m with hbmc := tmod {} c f m.hbmc }
def State.router (s : State) (k : Nat) : Router := tget {} s.mem.routers k
def State.modRouter (s : State) (k : Nat) (f : Router → Router) : State :=
  s.modMem fun m => { m with routers := tmod {} k f m.routers }

def State.modEvc (s : State) (f : Evc → Evc) : State := { s with evc := f s.evc }
def State.modGlb (s : State) (f : Glb → Glb) : State := { s with glb := f s.glb }
def State.modBeat (s : State) (f : Beat → Beat) : State := { s with beat := f s.beat }
def State.modJrn (s : State) (f : Journal → Journal) : State := { s with jrn := f s.jrn }
def State.modErr (s : State) (f : Err → Err) : State := { s with err := f s.err }
def State.modPci (s : State) (f : Pci → Pci) : State := { s with pci := f s.pci }
def State.modChain (s : State) (f : Chain → Chain) : State := { s with chain := f s.chain }
def State.modPair (s : State) (f : Pair2 → Pair2) : State := { s with pair := f s.pair }
def State.modSec (s : State) (f : Sec → Sec) : State := { s with sec := f s.sec }
def State.modPwr (s : State) (f : Pwr → Pwr) : State := { s with pwr := f s.pwr }
def State.modMgt (s : State) (f : Mgt → Mgt) : State := { s with mgt := f s.mgt }

/-- Status codes of R103. -/
def stOk : Nat := 0x00
def stDuplicate : Nat := 0x01
def stCancelled : Nat := 0x02
def stLate : Nat := 0x03
def stBadDescriptor : Nat := 0x10
def stMisaligned : Nat := 0x11
def stLimit : Nat := 0x12
def stBusy : Nat := 0x13
def stBusError : Nat := 0x20
def stDomainOff : Nat := 0x21
def stVersion : Nat := 0x30
def stSignature : Nat := 0x31
def stConfigShort : Nat := 0x32
def stBeatBreach : Nat := 0x40
def stAbandoned : Nat := 0x41
def stFaultRecovered : Nat := 0x42
def stInternal : Nat := 0x7F

/-- Void reason codes (chapter 00). -/
def vrNone : Nat := 0
def vrCorrupt : Nat := 1
def vrOverLimit : Nat := 2
def vrOverBudget : Nat := 3
def vrSourceError : Nat := 4
def vrIndex : Nat := 5

/-- The phase of the current position: it advances at 65,536 / P_est units per ns while LOCKED, up to 0xFFFF, and is
held in every other lock state (chapter 02). -/
def phaseNow (b : Beat) (now : Nat) : Nat :=
  match b.lock, b.edge with
  | .locked, some e =>
    let p := b.pest
    if p.num ≤ 0 then b.posPhase else min 0xFFFF ((now - e) * 65536 * p.den / p.num.toNat)
  | _, _ => b.posPhase

/-- The current beat position as the 80-bit value of R45. -/
def State.pos (s : State) : Nat := s.beat.posBeat * 65536 + phaseNow s.beat s.now

/-- A position as the POSITION field of a completion entry: low 48 bits of the beat number, then the phase. -/
def encPos (p : Nat) : Nat := p % 2 ^ 64

/-- Counts a dropped register write and records it (R532, R539). -/
def State.reject (s : State) (off master : Nat) : State :=
  s.modGlb fun g => { g with reject := sat32 g.reject 1, rejOffset := off, rejMaster := master }

/-- Whether the function is in D0. -/
def State.inD0 (s : State) : Bool := s.pci.dstate == .d0

/-- Whether the module shadows a primary: it polls no doorbell and writes nothing to host memory (R450). -/
def State.shadows (s : State) : Bool := s.pair.roleNow == 2 && s.pair.state != .solo

/-- Whether a primary's bound on writes has passed: 100 us since its latest completed lease cycle or return to D0 (R456). -/
def State.leaseOver (s : State) : Bool := s.pair.roleNow == 1 && s.pair.state != .off && decide (s.pair.leaseAt + 100000 < s.now)

/-- Whether the block may write host and peer memory and send MSI-X messages as far as its pair role goes: a
secondary writes nothing unless it is SOLO (R450); a primary writes nothing FENCED or past its bound (R456). -/
def State.mayOutput (s : State) : Bool := !s.shadows && s.pair.state != .fenced && !s.leaseOver

/-- Whether work that writes host or peer memory can go on: in D0 (R102), not FENCED or past the bound (R456), and on a primary back in D0 once
a lease cycle has completed (R455). A shadowing secondary goes on and its writes are suppressed (R450, R454). -/
def State.writeEnds (s : State) : Bool :=
  s.inD0 && s.pair.state != .fenced && !s.leaseOver && !(s.pair.roleNow == 1 && s.pair.needCycle)

/-- Whether a write of host or peer memory may begin: as `writeEnds`, and no HANDOVER waits for the writes already issued (R456). -/
def State.writeOpen (s : State) : Bool := s.writeEnds && !s.pair.handing

/-- The PME message of a stay outside D0, sent once (R100). -/
def State.sendPme (s : State) : State :=
  if s.pci.pmeEn && !s.pci.pmeSent && s.pci.dstate == .d3hot then
    (s.modPci fun p => { p with pmeStatus := true, pmeSent := true }).emit .pme
  else s

/-- An MSI-X message on a vector: while it or the function is masked, or MSI-X is not enabled, its pending bit is set instead (chapters 03
and 14; log entry 10). -/
def State.sendMsix (s : State) (v : Nat) : State :=
  if !s.mayOutput then s
  else if !s.pci.msixEn || s.pci.msixHold || tget true s.pci.msixMask v then s.modPci fun p => { p with msixPend := tset false v true p.msixPend }
  else s.emit (.msix v)

/-- An event message on a source's vector, held outside D0 (R422). -/
def State.eventMessage (s : State) (v : Nat) : State :=
  if s.inD0 then s.sendMsix v
  else (s.modEvc fun e => { e with held := e.held ++ [v] }).sendPme

/-- The stack-fault sources have a fixed configuration (R419). -/
def isStackFaultSrc (n : Nat) : Bool := decide (0x630 ≤ n) && decide (n < 0x644)

/-- A source with its configuration in force: that of sources 0x630 + t is fixed (R419). -/
def fixSrc (n : Nat) (e : EvSrc) : EvSrc :=
  if isStackFaultSrc n then
    let t := n - 0x630
    { e with prio := 63, hostEn := false, target := if t < 16 then 16 + t % 4 else 16 + (t - 16 + 1) % 4 }
  else e

/-- Source `n`, with its configuration in force. -/
def Evc.source (v : Evc) (n : Nat) : EvSrc := fixSrc n (tget {} v.src n)

/-- Changes source `n`. -/
def Evc.modSrc (v : Evc) (n : Nat) (f : EvSrc → EvSrc) : Evc := { v with src := tmod {} n f v.src }

/-- Target `t`. -/
def Evc.target (v : Evc) (t : Nat) : EvTgt := tget {} v.tgt t
def Evc.modTgt (v : Evc) (t : Nat) (f : EvTgt → EvTgt) : Evc := { v with tgt := tmod {} t f v.tgt }

/-- Whether a source's processor route is active (chapter 14). -/
def EvSrc.route (e : EvSrc) : Bool := e.prio != 0 && decide (e.target < 20)

/-- The state of a source after a post (R406, R407). -/
def EvSrc.post (e route : EvSrc) : EvSrc :=
  match e.state with
  | .idle =>
    { e with hostPend := e.hostPend || route.hostEn
             state := if route.route then .pending else if route.hostEn then .hostWait else .idle }
  | _ => { e with lost := true, lostCount := min 0xFF (e.lostCount + 1) }

/-- The pending copy of CH_CFG is adopted at a burst boundary, the first instant with no burst in flight (R10, R13). -/
def Chan.settleCfg (c : Chan) : Chan :=
  match c.pending with
  | some p => if c.job.all fun j => j.flight.isEmpty then { c with cfg := p, pending := none } else c
  | none => c

/-- A post reaches the trigger count of every channel whose CH_TRIG names the source (R390, R409). -/
def Chan.feed (src : Nat) (c : Chan) : Chan :=
  if c.trigSrc == src then
    (if c.trigCount < 255 then { c with trigCount := c.trigCount + 1 } else { c with trigLost := sat32 c.trigLost 1 })
  else c

/-- The 64 channels after a post. -/
def feedTriggers (src : Nat) (cs : Tab Chan) : Tab Chan :=
  (List.range 64).foldl (fun t k => if (tget ({} : Chan) t k).trigSrc == src then tmod {} k (Chan.feed src) t else t) cs

/-- A post arrives at an event source (R405 to R409, R422). -/
def State.postEvent (s : State) (src : Nat) : State :=
  let e := s.evc.source src
  let s1 := { s with
    evc := { s.evc.modSrc src (fun x => x.post e) with posts := (s.evc.posts + 1) % 2 ^ 64 }
    mem := { s.mem with chans := feedTriggers src s.mem.chans } }
  if e.state == .idle && e.hostEn then s1.eventMessage e.vector else s1

/-- A change of RLG_BEAT_STATUS.LOCK posts source 0x601 (R405). -/
def State.setLock (s : State) (l : Lock) : State :=
  if s.beat.lock == l then s else (s.modBeat fun b => { b with lock := l }).postEvent 0x601

/-- The mark of a word after more bits of it have turned over. -/
def EccMark.hit (m : EccMark) (bad : Bool) : EccMark := if bad || m != .good then .poisoned else .single

/-- Applies what happened before a step: stores of other bus agents, and bits of HBM that turned over. -/
def State.env (s : State) (e : BusEnv) : State :=
  s.modMem fun m => { m with
    bus := e.stores.foldl (fun b w => writeBytes b w.1 w.2) m.bus
    ecc := e.flips.foldl (fun t f => tmod .good f.1 (fun k => k.hit f.2) t) m.ecc }

/-- Whether a bus range meets a failing range of the step. -/
def envFails (e : BusEnv) (a n : Nat) : Bool := e.bad.any fun r => decide (a < r.1 + r.2) && decide (r.1 < a + n)

/-- A bus read of `n` bytes; none when it fails (R399). -/
def State.busRead (s : State) (e : BusEnv) (a n : Nat) : Option Bytes :=
  if envFails e a n then none else some (readBytes s.mem.bus a n)

/-- A write issued on the bus. -/
def State.rawWrite (s : State) (a : Nat) (bs : Bytes) : State :=
  (s.modMem fun m => { m with bus := writeBytes m.bus a bs }).emit (.busWrite a bs)

/-- A bus write of the block's work: a module that may not output writes nothing (R450, R456). -/
def State.busWrite (s : State) (a : Nat) (bs : Bytes) : State := if s.mayOutput then s.rawWrite a bs else s

/-- Bits set in a number below 2^n. -/
def countBits : Nat → Nat → Nat
  | 0, _ => 0
  | n + 1, v => v % 2 + countBits n (v / 2)

/-- The positions of the set bits of a number below 2^n, ascending. -/
def setBits (n v : Nat) : List Nat := (List.range n).filter fun i => bitOf v i

/-- Whether bit `i` of a mask is set or cleared. -/
def withBit (v i : Nat) (b : Bool) : Nat :=
  if bitOf v i == b then v else if b then v + 2 ^ i else v - 2 ^ i

/-- HBM capacity in service, in bytes (R363). -/
def State.pchCount (s : State) : Nat := countBits 256 s.present.pchans
def State.hbmCap (s : State) : Nat := s.pchCount * 0x48000000

/-- Whether cluster `k`, core `n` of it, or lane `i` is in service (R530, R533). -/
def State.clusterIn (s : State) (k : Nat) : Bool := bitOf s.present.clusters k
def State.coreIn (s : State) (c : Nat) : Bool := bitOf s.present.cores c && s.clusterIn (c / 32)
def State.laneIn (s : State) (i : Nat) : Bool := bitOf s.present.lanes i

/-- Cores in service, by R534 those of the clusters in service. -/
def State.coreCount (s : State) : Nat := ((List.range 512).filter fun c => s.coreIn c).length

/-- Module uptime in seconds since the last cold boot (MGT_UPTIME). -/
def State.uptime (s : State) : Nat := (s.now - s.mgt.bootAt) / 1000000000

/-- Rounded-up quotient. -/
def ceilDiv (a b : Nat) : Nat := (a + b - 1) / b

/-- Whether domain `d` is off, and whether a power-down request of it is in progress. -/
def State.domOff (s : State) (d : Nat) : Bool := bitOf s.pwr.off d
def State.draining (s : State) (d : Nat) : Bool := s.pwr.request.any fun r => r.1 == d && r.2.1

end Sys2Proof.Machine
end

