-- ==== Sys2Proof/Machine/Num.lean ====
section
/-! DEFINITION. Floating-point encodings and rounding: the formats of R106, the canonical NaNs of R107, the
rounding modes of R138 to R140 and the overflow rows of R143, on exact rational values. -/

namespace Sys2Proof.Machine

/-- A floating-point format of R106: exponent bits, mantissa bits, bias, whether it has infinities, its largest
finite code, its canonical NaN code (none when it has no NaN). -/
structure FpFmt where
  eb   : Nat
  mb   : Nat
  bias : Nat
  inf  : Bool
  maxc : Nat
  qnan : Option Nat
  deriving DecidableEq, Repr

def fp64 : FpFmt := ⟨11, 52, 1023, true, 0x7FEFFFFFFFFFFFFF, some 0x7FF8000000000000⟩
def fp32 : FpFmt := ⟨8, 23, 127, true, 0x7F7FFFFF, some 0x7FC00000⟩
def fp16 : FpFmt := ⟨5, 10, 15, true, 0x7BFF, some 0x7E00⟩
def bf16 : FpFmt := ⟨8, 7, 127, true, 0x7F7F, some 0x7FC0⟩
def e4m3 : FpFmt := ⟨4, 3, 7, false, 0x7E, some 0x7F⟩
def e5m2 : FpFmt := ⟨5, 2, 15, true, 0x7B, some 0x7E⟩
def e3m2 : FpFmt := ⟨3, 2, 3, false, 0x1F, none⟩
def e2m3 : FpFmt := ⟨2, 3, 1, false, 0x1F, none⟩
def e2m1 : FpFmt := ⟨2, 1, 1, false, 0x7, none⟩

/-- Width of a format in bits. -/
def FpFmt.width (f : FpFmt) : Nat := 1 + f.eb + f.mb

/-- The code of the sign bit. -/
def FpFmt.signBit (f : FpFmt) : Nat := 2 ^ (f.eb + f.mb)

/-- The canonical NaN (R107). -/
def FpFmt.nanCode (f : FpFmt) : Nat := f.qnan.getD 0

/-- The code of an infinity of a format that has one. -/
def FpFmt.infCode (f : FpFmt) (neg : Bool) : Nat := (if neg then f.signBit else 0) + (2 ^ f.eb - 1) * 2 ^ f.mb

/-- A floating-point value: NaN, an infinity, or an exact signed rational. -/
inductive FVal where
  | nan
  | inf (neg : Bool)
  | fin (neg : Bool) (n d : Nat)
  deriving DecidableEq, Repr

/-- 2 to an integer power as a fraction: numerator and denominator. -/
def pow2 (e : Int) : Nat × Nat := if e < 0 then (1, 2 ^ (-e).toNat) else (2 ^ e.toNat, 1)

/-- The value of a code (R106). -/
def FpFmt.decode (f : FpFmt) (bits : Nat) : FVal :=
  let neg := bitOf bits (f.eb + f.mb)
  let ex := bitsOf bits (f.eb + f.mb - 1) f.mb
  let ma := bits % 2 ^ f.mb
  let mag := bits % f.signBit
  if f.inf && ex == 2 ^ f.eb - 1 then (if ma == 0 then .inf neg else .nan)
  else if !f.inf && f.qnan == some mag then .nan
  else
    let (m, e) : Nat × Int := if ex == 0 then (ma, 1 - (f.bias : Int)) else (2 ^ f.mb + ma, (ex : Int) - f.bias)
    let p := pow2 (e - f.mb)
    .fin neg (m * p.1) p.2

/-- Whether a code is a NaN. -/
def FpFmt.isNan (f : FpFmt) (bits : Nat) : Bool := f.decode bits == .nan

/-- floor(log2(n / d)) for n, d > 0. -/
def floorLog2 (n d : Nat) : Int :=
  let l : Int := (Nat.log2 n : Int) - Nat.log2 d
  let p := pow2 l
  if n * p.2 < d * p.1 then l - 1 else l

/-- Whether a quotient with floor `a` and remainder `r` of `den` rounds up in magnitude: modes of R138, with the
draw `u` under SR (R140). -/
def roundsUp (rnd : Nat) (neg : Bool) (a r den u : Nat) : Bool :=
  if r == 0 then false
  else match rnd with
  | 0 => decide (2 * r > den) || (2 * r == den && a % 2 == 1)
  | 1 => false
  | 2 => !neg
  | 3 => neg
  | 4 => decide (2 * r ≥ den)
  | _ => decide (65536 * r / den + u ≥ 65536)

/-- A magnitude n / d rounded to an integer. -/
def roundNat (rnd : Nat) (neg : Bool) (n d u : Nat) : Nat :=
  let a := n / d
  if roundsUp rnd neg a (n % d) d u then a + 1 else a

/-- A signed rational rounded to an integer (unit step of R138), by sign and magnitude. -/
def roundInt (rnd : Nat) (neg : Bool) (n d : Nat) : Int :=
  let m := roundNat rnd neg n d 0
  if neg then -(m : Int) else m

/-- What rounding a magnitude to a format gives: the code without sign, and whether it was inexact, beyond the
largest finite value, or tiny and inexact. -/
structure Rounded where
  code    : Nat
  inexact : Bool
  ovf     : Bool
  unf     : Bool
  deriving DecidableEq, Repr

/-- The magnitude n / d over 2^q, rounded to an integer: the integer and whether a remainder was lost. -/
def roundAt (rnd : Nat) (neg : Bool) (n d : Nat) (q : Int) (u : Nat) : Nat × Bool :=
  let p := pow2 q
  let den := d * p.1
  let num := n * p.2
  (roundNat rnd neg num den u, num % den != 0)

/-- A magnitude n / d rounded to a format, as if its exponent had no upper bound in the code (R138, R140). -/
def FpFmt.roundMag (f : FpFmt) (rnd : Nat) (neg : Bool) (n d u : Nat) : Rounded :=
  if n == 0 then ⟨0, false, false, false⟩
  else
    let emin : Int := 1 - (f.bias : Int)
    let l := floorLog2 n d
    let e := max l emin
    let r := roundAt rnd neg n d (e - f.mb) u
    let code := (e - emin).toNat * 2 ^ f.mb + r.1
    let tiny :=
      if l < emin then
        let r' := roundAt rnd neg n d (l - f.mb) u
        let p := pow2 (l - f.mb - emin)
        decide (r'.1 * p.1 < p.2)
      else false
    ⟨code, r.2, decide (code > f.maxc), tiny && r.2⟩

/-- Flag bits of the flag table of chapter 05. -/
def flagINV : Nat := 1
def flagDZ  : Nat := 2
def flagOF  : Nat := 4
def flagUF  : Nat := 8
def flagNX  : Nat := 16
def flagSAT : Nat := 32

/-- Whether an overflow gives an infinity (R143), or else the largest finite value. -/
def overflowsToInf (rnd : Nat) (neg : Bool) : Bool :=
  match rnd with
  | 1 => false
  | 2 => !neg
  | 3 => neg
  | _ => true

/-- A signed rational rounded to a format, with its flags. Overflow follows R143; a format without infinities
answers its NaN in place of an infinity (R149), or its largest finite value where it has neither. With `sat`, overflow gives the largest finite value (R149). -/
def FpFmt.round (f : FpFmt) (rnd : Nat) (sat : Bool) (u : Nat) (neg : Bool) (n d : Nat) : Nat × Nat :=
  let r := f.roundMag rnd neg n d u
  let sgn := if neg then f.signBit else 0
  if r.ovf then
    if sat then (sgn + f.maxc, flagSAT + flagNX)
    else if overflowsToInf rnd neg then
      (if f.inf then f.infCode neg else sgn + f.qnan.getD f.maxc, flagOF + flagNX)
    else (sgn + f.maxc, flagOF + flagNX)
  else (sgn + r.code, (if r.inexact then flagNX else 0) + (if r.unf then flagUF else 0))

/-- The code of a value that needs no rounding choice: NaN canonical, infinities and signed zeros exact. -/
def FpFmt.encode (f : FpFmt) (rnd : Nat) (v : FVal) : Nat × Nat :=
  match v with
  | .nan => (f.nanCode, 0)
  | .inf neg => (f.infCode neg, 0)
  | .fin neg n d => f.round rnd false 0 neg n d

/-- The sign of a value. -/
def FVal.neg : FVal → Bool
  | .nan => false
  | .inf b => b
  | .fin b _ _ => b

/-- Whether a value is a zero. -/
def FVal.isZero : FVal → Bool
  | .fin _ n _ => n == 0
  | _ => false

/-- The value with its sign inverted. -/
def FVal.negate : FVal → FVal
  | .nan => .nan
  | .inf b => .inf (!b)
  | .fin b n d => .fin (!b) n d

/-- Exact sum; the sign of an exact zero follows R143. The second component is the flag word. -/
def fAdd (rnd : Nat) : FVal → FVal → FVal × Nat
  | .nan, _ => (.nan, 0)
  | _, .nan => (.nan, 0)
  | .inf a, .inf b => if a == b then (.inf a, 0) else (.nan, flagINV)
  | .inf a, _ => (.inf a, 0)
  | _, .inf b => (.inf b, 0)
  | .fin s n d, .fin s' n' d' =>
    let x := n * d'
    let y := n' * d
    if s == s' then (.fin s (x + y) (d * d'), 0)
    else if x == y then (.fin (rnd == 3) 0 1, 0)
    else if y < x then (.fin s (x - y) (d * d'), 0)
    else (.fin s' (y - x) (d * d'), 0)

/-- Exact product. -/
def fMul : FVal → FVal → FVal × Nat
  | .nan, _ => (.nan, 0)
  | _, .nan => (.nan, 0)
  | .inf a, .inf b => (.inf (a != b), 0)
  | .inf a, .fin b n _ => if n == 0 then (.nan, flagINV) else (.inf (a != b), 0)
  | .fin a n _, .inf b => if n == 0 then (.nan, flagINV) else (.inf (a != b), 0)
  | .fin a n d, .fin b n' d' => (.fin (a != b) (n * n') (d * d'), 0)

/-- Exact quotient. -/
def fDiv : FVal → FVal → FVal × Nat
  | .nan, _ => (.nan, 0)
  | _, .nan => (.nan, 0)
  | .inf _, .inf _ => (.nan, flagINV)
  | .inf a, .fin b _ _ => (.inf (a != b), 0)
  | .fin a _ _, .inf b => (.fin (a != b) 0 1, 0)
  | .fin a n d, .fin b n' d' =>
    if n' == 0 then (if n == 0 then (.nan, flagINV) else (.inf (a != b), flagDZ))
    else (.fin (a != b) (n * d') (d * n'), 0)

/-- Order of two values that are not NaN: x < y. -/
def fLt : FVal → FVal → Bool
  | .inf a, .inf b => a && !b
  | .inf a, .fin _ _ _ => a
  | .fin _ _ _, .inf b => !b
  | .fin s n d, .fin s' n' d' =>
    let x : Int := (if s then -1 else 1) * ((n * d' : Nat) : Int)
    let y : Int := (if s' then -1 else 1) * ((n' * d : Nat) : Int)
    decide (x < y)
  | _, _ => false

/-- Equality of two values; a NaN equals nothing, and the zeros are equal (R143). -/
def fEq : FVal → FVal → Bool
  | .nan, _ => false
  | _, .nan => false
  | x, y => !(fLt x y) && !(fLt y x)

/-- Integer square root by bits, from bit `k` down. -/
def isqrtLoop (n : Nat) : Nat → Nat → Nat
  | 0, r => r
  | k + 1, r => if (r + 2 ^ k) * (r + 2 ^ k) ≤ n then isqrtLoop n k (r + 2 ^ k) else isqrtLoop n k r

/-- floor of the square root. -/
def isqrt (n : Nat) : Nat := isqrtLoop n (Nat.log2 n / 2 + 1) 0

/-- The square root of n / d as a fraction whose lost part is kept as one sticky bit below the last. -/
def sqrtFrac (n d : Nat) : Nat × Nat :=
  let x := n * d * 4 ^ 64
  let r := isqrt x
  (2 * r + (if r * r == x then 0 else 1), 2 * d * 2 ^ 64)

/-- The exact square root of a value, for rounding. -/
def fSqrt : FVal → FVal × Nat
  | .nan => (.nan, 0)
  | .inf neg => if neg then (.nan, flagINV) else (.inf false, 0)
  | .fin neg n d =>
    if n == 0 then (.fin neg 0 1, 0)
    else if neg then (.nan, flagINV)
    else let q := sqrtFrac n d; (.fin false q.1 q.2, 0)

end Sys2Proof.Machine
end

