-- ==== Sys2Proof/Machine/Types.lean ====
section
/-! DEFINITION. The element types of R104 and the values of lanes of each kind. -/

namespace Sys2Proof.Machine

/-- How the lanes of a fixed-width type are read (R134, R157): booleans, unsigned and signed integers (DATE32 and
TS_US among the signed ones), floating point, scaled decimals. -/
inductive Kind where
  | bool
  | uint
  | sint
  | flt (f : FpFmt)
  | dec
  deriving DecidableEq, Repr

/-- A fixed-width type: bytes per element and kind. -/
structure LTy where
  size : Nat
  kind : Kind
  deriving DecidableEq, Repr

/-- The fixed-width types of R104 by code; none for MX and variable-width types and unknown codes. -/
def laneTy : Nat → Option LTy
  | 0x01 => some ⟨1, .bool⟩
  | 0x02 => some ⟨1, .sint⟩
  | 0x03 => some ⟨1, .uint⟩
  | 0x04 => some ⟨2, .sint⟩
  | 0x05 => some ⟨2, .uint⟩
  | 0x06 => some ⟨4, .sint⟩
  | 0x07 => some ⟨4, .uint⟩
  | 0x08 => some ⟨8, .sint⟩
  | 0x09 => some ⟨8, .uint⟩
  | 0x10 => some ⟨2, .flt fp16⟩
  | 0x11 => some ⟨2, .flt bf16⟩
  | 0x12 => some ⟨4, .flt fp32⟩
  | 0x13 => some ⟨8, .flt fp64⟩
  | 0x14 => some ⟨1, .flt e4m3⟩
  | 0x15 => some ⟨1, .flt e5m2⟩
  | 0x30 => some ⟨8, .dec⟩
  | 0x31 => some ⟨4, .sint⟩
  | 0x32 => some ⟨8, .sint⟩
  | _ => none

/-- Whether a code is an element type of R104. -/
def isType (c : Nat) : Bool :=
  (laneTy c).isSome || (decide (0x20 ≤ c) && decide (c ≤ 0x25)) || (decide (0x40 ≤ c) && decide (c ≤ 0x42))

/-- Whether a code is an MX type. -/
def isMx (c : Nat) : Bool := decide (0x20 ≤ c) && decide (c ≤ 0x25)

/-- Whether a code is a variable-width type. -/
def isVar (c : Nat) : Bool := decide (0x40 ≤ c) && decide (c ≤ 0x42)

/-- Bits per MX element. -/
def mxBits (c : Nat) : Nat := if c == 0x22 || c == 0x23 then 6 else if c == 0x24 then 4 else 8

/-- The next multiple of `z` at or above `n`. -/
def alignUp (z n : Nat) : Nat := (n + z - 1) / z * z

/-- Storage bits of an element of a fixed-width or MX type; 0 for variable-width types. -/
def tyBits (ty : Nat) : Nat :=
  if isMx ty then mxBits ty else ((laneTy ty).map fun t => 8 * t.size).getD 0

/-- Splits a list into runs of 32. -/
def groups32 {α : Type} : Nat → List α → List (List α)
  | 0, _ => []
  | fuel + 1, l => if l.isEmpty then [] else l.take 32 :: groups32 fuel (l.drop 32)

/-- Two's complement value of `n` bits. -/
def sInt (n v : Nat) : Int := if v % 2 ^ n < 2 ^ (n - 1) then ((v % 2 ^ n : Nat) : Int) else ((v % 2 ^ n : Nat) : Int) - 2 ^ n

/-- The `n` low bits of an integer. -/
def wrapN (n : Nat) (x : Int) : Nat := (x % (2 : Int) ^ n).toNat

/-- Whether a kind is signed when read as an integer. -/
def Kind.signed : Kind → Bool
  | .sint => true
  | .dec => true
  | _ => false

/-- The integer value of a lane of an integer kind. -/
def laneInt (t : LTy) (v : Nat) : Int :=
  match t.kind with
  | .bool => if v == 0 then 0 else 1
  | .uint => (v : Int)
  | _ => sInt (8 * t.size) v

/-- Least and greatest value of an integer type. -/
def tyMin (t : LTy) : Int := if t.kind.signed then -(2 ^ (8 * t.size - 1)) else 0
def tyMax (t : LTy) : Int := if t.kind.signed then 2 ^ (8 * t.size - 1) - 1 else 2 ^ (8 * t.size) - 1

/-- The greatest magnitude of a DEC64 (R111). -/
def decMax : Int := 10 ^ 18 - 1

/-- An exact integer result in a type: wrapped when SAT is 0, clamped with the SAT flag when it is 1 (R145). -/
def fitInt (t : LTy) (sat : Bool) (x : Int) : Nat × Nat :=
  if tyMin t ≤ x && x ≤ tyMax t then (wrapN (8 * t.size) x, 0)
  else if sat then (wrapN (8 * t.size) (if x < tyMin t then tyMin t else tyMax t), flagSAT)
  else (wrapN (8 * t.size) x, 0)

/-- An exact DEC64 result: invalid with OF when out of range and SAT is 0, clamped when it is 1 (R148). -/
def fitDec (sat : Bool) (x : Int) : Option Nat × Nat :=
  if -decMax ≤ x && x ≤ decMax then (some (wrapN 64 x), 0)
  else if sat then (some (wrapN 64 (if x < 0 then -decMax else decMax)), flagSAT)
  else (none, flagOF)

/-- The key fold of a value of `w` bits (R118, R119). -/
def foldFloat (f : FpFmt) (bits : Nat) : Nat :=
  let w := f.width
  let sign := 2 ^ (w - 1)
  if f.isNan bits then 2 ^ w - 1
  else
    let b := if bits == sign then 0 else bits
    if bitOf b (w - 1) then 2 ^ w - 1 - b else b + sign

/-- The fold of a fixed-width key value; none where the type is no key type. -/
def foldKey (t : LTy) (v : Nat) : Option Nat :=
  match t.kind with
  | .bool => some v
  | .uint => some v
  | .sint => some (Nat.xor v (2 ^ (8 * t.size - 1)))
  | .dec => some (Nat.xor v (2 ^ 63))
  | .flt f => if t.size == 1 then none else some (foldFloat f v)

/-- The element format of an MX code: none for MXINT8. -/
def mxFmt : Nat → Option FpFmt
  | 0 => some e4m3
  | 1 => some e5m2
  | 2 => some e3m2
  | 3 => some e2m3
  | 4 => some e2m1
  | _ => none

/-- EMAX of R150 by SUB code. -/
def mxEmax : Nat → Int
  | 0 => 8
  | 1 => 15
  | 2 => 4
  | 3 => 2
  | 4 => 2
  | _ => 0

/-- Bits per element by SUB code of QMX. -/
def mxElemBits : Nat → Nat
  | 2 => 6
  | 3 => 6
  | 4 => 4
  | _ => 8

/-- An MX element's value before scaling (R106, R108). -/
def mxElem (fmt code : Nat) : FVal :=
  match mxFmt fmt with
  | some f => f.decode code
  | none =>
    let x := sInt 8 code
    .fin (decide (x < 0)) x.natAbs 64

/-- One element of a quantised block: rounded by RND with draw `u`, clamped to the largest finite value without a
flag; the sign of a zero is kept for float elements (R150). -/
def mxRound (fmt rnd u : Nat) (x : FVal) (e : Int) : Nat :=
  match x with
  | .fin neg n d =>
    let p := pow2 (127 - e)
    let n' := n * p.1
    let d' := d * p.2
    match mxFmt fmt with
    | some f =>
      let r := f.roundMag rnd neg n' d' u
      (if neg then f.signBit else 0) + (if r.ovf then f.maxc else r.code)
    | none =>
      let m := roundNat rnd neg (n' * 64) d' u
      let m' := min m 127
      wrapN 8 (if neg then -(m' : Int) else (m' : Int))
  | _ => 0

/-- The value as a magnitude comparison: |x| ≤ |y| for finite values. -/
def magLe : FVal → FVal → Bool
  | .fin _ n d, .fin _ n' d' => decide (n * d' ≤ n' * d)
  | _, _ => false

/-- The greatest magnitude of a list of finite values. -/
def amax (vs : List FVal) : FVal := vs.foldl (fun a x => if magLe a x then x else a) (.fin false 0 1)

/-- QMX of a block (R150): the scale byte, the element codes, and whether INV is raised. `draw` gives the
draw of element i. -/
def qmxBlock (fmt rnd : Nat) (draw : Nat → Nat) (vs : List FVal) : Nat × List Nat × Bool :=
  let bad := vs.any fun x => match x with
    | .fin _ _ _ => false
    | _ => true
  if bad then (0xFF, vs.map fun _ => 0, true)
  else
    let e : Int := match amax vs with
      | .fin _ n d => if n == 0 then 127 else max 0 (floorLog2 n d - mxEmax fmt + 127)
      | _ => 127
    (e.toNat, vs.zipIdx.map (fun p => mxRound fmt rnd (draw p.2) p.1 e), false)

/-- The value scale × element of an MX element (R108). -/
def mxValue (fmt scale code : Nat) : FVal :=
  if scale == 0xFF then .nan
  else match mxElem fmt code with
    | .fin neg n d =>
      let p := pow2 ((scale : Int) - 127)
      .fin neg (n * p.1) (d * p.2)
    | v => v

/-- Codes of `b` bits packed from bit 0 upward, as one number (R109). -/
def packBits (b : Nat) : List Nat → Nat
  | [] => 0
  | x :: xs => x % 2 ^ b + 2 ^ b * packBits b xs

/-- The i-th code of `b` bits of a packed number. -/
def unpackBits (b v i : Nat) : Nat := (v / 2 ^ (b * i)) % 2 ^ b

/-- mix64 of R141. -/
def mix64 (x : Nat) : Nat :=
  let x := x % 2 ^ 64
  let x := Nat.xor x (x / 2 ^ 31)
  let x := x * 0xB7E41A6D3C58F0A9 % 2 ^ 64
  let x := Nat.xor x (x / 2 ^ 29)
  let x := x * 0x8F2CD39561E74B1B % 2 ^ 64
  Nat.xor x (x / 2 ^ 32)

/-- The stochastic-rounding draw of R141. -/
def srDraw (seed epoch stream batch tile issue lane : Nat) : Nat :=
  let k := mix64 (Nat.xor (Nat.xor seed (epoch * 256 % 2 ^ 64)) stream)
  let x := mix64 ((k + batch) % 2 ^ 64)
  let c := Nat.lor (Nat.lor (tile * 2 ^ 24 % 2 ^ 64) (issue % 2 ^ 19 * 32)) lane
  mix64 (Nat.xor x c) / 2 ^ 48

end Sys2Proof.Machine
end

