-- ==== Sys2Proof/Machine/GraphRead.lean ====
section
/-! DEFINITION. Reading the records of a loaded graph's sections: variants, cadences, templates, placement, slots, Weir,
flow and area records, stream programs, output descriptors (chapters 02, 04, 05, 12), and the logical units of R482. -/

namespace Sys2Proof.Machine

/-- `n` records of `z` bytes from offset `o`, as far as they lie within the bytes. -/
def recs (bs : Bytes) (o z n : Nat) : List Bytes := (List.range (min n ((bs.length - o) / z))).map fun i => (bs.drop (o + z * i)).take z

/-- The configuration record of a schedule variant (chapter 02). An INTAKE_LANES of 0 is applied as 8. -/
structure VarCfg where
  clusters : Nat
  pcie : Nat
  cores : Nat
  pch : Nat
  rolog : Nat
  intake : Nat
  saveArea : Nat
  saveLen : Nat
  deriving DecidableEq, Repr

def parseCfg (b : Bytes) : VarCfg :=
  { clusters := fieldAt b 0 1, pcie := fieldAt b 1 1, cores := fieldAt b 2 2, pch := fieldAt b 4 2, rolog := fieldAt b 6 1
    intake := if fieldAt b 7 1 == 0 then 8 else fieldAt b 7 1, saveArea := fieldAt b 8 8, saveLen := fieldAt b 16 8 }

/-- A cadence entry (chapter 02). -/
structure Cadence where
  stream : Nat
  due : Nat
  k : Nat
  lead : Nat
  rows : Nat
  deriving DecidableEq, Repr

def parseCadence (b : Bytes) : Cadence :=
  { stream := fieldAt b 0 1, due := fieldAt b 2 2, k := fieldAt b 4 2, lead := fieldAt b 8 4, rows := fieldAt b 12 4 }

/-- A task template (R329). -/
structure Tpl where
  kind : Nat
  unit : Nat
  prio : Nat
  flags : Nat
  prog : Nat
  kernel : Nat
  layer : Nat
  outSlot : Nat
  flow : Nat
  weir : Nat
  waitGroup : Nat
  setGroup : Nat
  stream : Nat
  waitMask : Nat
  setMask : Nat
  salt : Nat
  paramOff : Nat
  paramLen : Nat
  op : Nat
  deriving DecidableEq, Repr

def parseTpl (b : Bytes) : Tpl :=
  { kind := fieldAt b 0 1, unit := fieldAt b 1 1, prio := fieldAt b 2 1, flags := fieldAt b 3 1, prog := fieldAt b 4 2
    kernel := fieldAt b 6 2, layer := fieldAt b 8 1, outSlot := fieldAt b 9 1, flow := fieldAt b 10 2, weir := fieldAt b 12 1
    waitGroup := fieldAt b 13 1, setGroup := fieldAt b 14 1, stream := fieldAt b 15 1, waitMask := fieldAt b 16 8
    setMask := fieldAt b 24 8, salt := fieldAt b 32 8, paramOff := fieldAt b 40 8, paramLen := fieldAt b 48 4, op := fieldAt b 52 2 }

/-- CONSUME and TABLE_STAGE. -/
def Tpl.consume (t : Tpl) : Bool := bitOf t.flags 0
def Tpl.stage (t : Tpl) : Bool := bitOf t.flags 1

/-- A slot record: a tensor slot's region of a cluster's store (R332). -/
structure SlotRec where
  cluster : Nat
  slot : Nat
  off : Nat
  len : Nat
  deriving DecidableEq, Repr

def parseSlot (b : Bytes) : SlotRec :=
  { cluster := fieldAt b 0 1, slot := fieldAt b 1 1, off := fieldAt b 4 4, len := fieldAt b 8 4 }

/-- A Weir record (R332); `action` 0 is FLAG and 1 STREAM_END. -/
structure WeirRec where
  inst : Nat
  action : Nat
  stream : Nat
  parts : Nat
  arrivals : Nat
  flag : Nat
  deriving DecidableEq, Repr

def parseWeir (b : Bytes) : WeirRec :=
  { inst := fieldAt b 0 1, action := fieldAt b 1 1, stream := fieldAt b 2 1, parts := fieldAt b 4 2, arrivals := fieldAt b 6 2
    flag := fieldAt b 8 2 }

/-- A flow record (R332). -/
structure FlowRec where
  flow : Nat
  stream : Nat
  segs : Nat
  window : Nat
  outOff : Nat
  segBytes : Nat
  deriving DecidableEq, Repr

def parseFlow (b : Bytes) : FlowRec :=
  { flow := fieldAt b 0 2, stream := fieldAt b 2 1, segs := fieldAt b 4 2, window := fieldAt b 6 2, outOff := fieldAt b 8 8
    segBytes := fieldAt b 16 8 }

/-- An HBM area record (R332, R333). -/
structure AreaRec where
  kind : Nat
  owner : Nat
  base : Nat
  len : Nat
  deriving DecidableEq, Repr

def parseArea (b : Bytes) : AreaRec :=
  { kind := fieldAt b 0 1, owner := fieldAt b 2 2, base := fieldAt b 8 8, len := fieldAt b 16 8 }

/-- A placement entry (R332). -/
structure Place where
  tpl : Nat
  cluster : Nat
  core : Nat
  seg : Nat
  start : Nat
  tileBase : Nat
  tiles : Nat
  pfSrc : Nat
  pfDst : Nat
  pfLen : Nat
  deriving DecidableEq, Repr

def parsePlace (b : Bytes) : Place :=
  { tpl := fieldAt b 0 4, cluster := fieldAt b 4 1, core := fieldAt b 5 1, seg := fieldAt b 6 2, start := fieldAt b 8 4
    tileBase := fieldAt b 12 4, tiles := fieldAt b 16 4, pfSrc := fieldAt b 20 4, pfDst := fieldAt b 24 4, pfLen := fieldAt b 28 4 }

/-- The contents of a section of which a graph holds at most one; empty when absent (R542). -/
def Graph.sect (g : Graph) (ty : Nat) : Bytes := ((g.sections.find? fun x => x.ty == ty).map fun x => x.data).getD []

/-- The section of schedule variant `v`. -/
def Graph.varSect (g : Graph) (v : Nat) : Bytes :=
  ((g.sections.find? fun x => x.ty == 4 && x.index == v).map fun x => x.data).getD []

/-- The number of schedule variants. -/
def Graph.variants (g : Graph) : Nat := (g.sections.filter fun x => x.ty == 4).length

def Graph.cfgOf (g : Graph) (v : Nat) : VarCfg := parseCfg (g.varSect v)
def Graph.cfg (g : Graph) : VarCfg := g.cfgOf g.variant

def Graph.cadencesOf (g : Graph) (v : Nat) : List Cadence := (recs (g.varSect v) 32 16 g.streams).map parseCadence

/-- The cadence of a stream in the running variant (R547). -/
def Graph.cadence (g : Graph) (st : Nat) : Option Cadence := (g.cadencesOf g.variant).find? fun c => c.stream == st

/-- The tables of a variant after its cadence entries (R332). -/
structure VarTables where
  slots : List SlotRec
  weirs : List WeirRec
  flows : List FlowRec
  areas : List AreaRec
  places : List Place
  deriving DecidableEq, Repr

/-- Reads the dispatch tables of a variant section of a graph with `n` streams. -/
def parseTables (b : Bytes) (n : Nat) : VarTables :=
  let h := 32 + 16 * n
  let np := fieldAt b h 4
  let ns := fieldAt b (h + 4) 2
  let nw := fieldAt b (h + 6) 1
  let nf := fieldAt b (h + 8) 2
  let na := fieldAt b (h + 10) 2
  let oS := h + 16
  let oW := oS + 16 * ns
  let oF := oW + 16 * nw
  let oA := oF + 32 * nf
  let oP := oA + 32 * na
  { slots := (recs b oS 16 ns).map parseSlot, weirs := (recs b oW 16 nw).map parseWeir
    flows := (recs b oF 32 nf).map parseFlow, areas := (recs b oA 32 na).map parseArea
    places := (recs b oP 32 np).map parsePlace }

def Graph.tablesOf (g : Graph) (v : Nat) : VarTables := parseTables (g.varSect v) g.streams
def Graph.tables (g : Graph) : VarTables := g.tablesOf g.variant

def Graph.tplCount (g : Graph) : Nat := fieldAt (g.sect 2) 0 4

/-- Task template `i` (R329). -/
def Graph.tpl (g : Graph) (i : Nat) : Option Tpl :=
  if i < g.tplCount then some (parseTpl (((g.sect 2).drop (16 + 64 * i)).take 64)) else none

/-- The parameter words of a UNIT template (R330). -/
def Graph.params (g : Graph) (t : Tpl) : List Nat :=
  (List.range (t.paramLen / 8)).map fun i => fieldAt (g.sect 2) (t.paramOff + 8 * i) 8

/-- An HBM area of the running variant (R333). -/
def Graph.area (g : Graph) (kind owner : Nat) : Option AreaRec :=
  g.tables.areas.find? fun a => a.kind == kind && a.owner == owner

def Graph.flowRec (g : Graph) (f : Nat) : Option FlowRec := g.tables.flows.find? fun r => r.flow == f
def Graph.weirRec (g : Graph) (w : Nat) : Option WeirRec := g.tables.weirs.find? fun r => r.inst == w
def Graph.streamFlows (g : Graph) (st : Nat) : List FlowRec := g.tables.flows.filter fun r => r.stream == st

/-- The bytes of stream program `p` (chapter 05): directory entry, then its image. -/
def Graph.program (g : Graph) (p : Nat) : Bytes :=
  let b := g.sect 1
  (b.drop (fieldAt b (16 + 16 * p) 8)).take (fieldAt b (24 + 16 * p) 4)

/-- A Millstone layer record (R323). -/
structure LayerRec where
  op : Nat
  aTy : Nat
  bTy : Nat
  outTy : Nat
  epi : Nat
  mode : Nat
  inSlot : Nat
  in2 : Nat
  out : Nat
  aux : Nat
  table : Nat
  kk : Nat
  n : Nat
  heads : Nat
  maxBag : Nat
  wOff : Nat
  wLen : Nat
  bOff : Nat
  scale : Nat
  deriving DecidableEq, Repr

def parseLayer (b : Bytes) : LayerRec :=
  { op := fieldAt b 0 1, aTy := fieldAt b 1 1, bTy := fieldAt b 2 1, outTy := fieldAt b 3 1, epi := fieldAt b 4 1, mode := fieldAt b 5 1
    inSlot := fieldAt b 6 1, in2 := fieldAt b 7 1, out := fieldAt b 8 1, aux := fieldAt b 9 1, table := fieldAt b 10 2, kk := fieldAt b 12 4
    n := fieldAt b 16 4, heads := fieldAt b 20 2, maxBag := if fieldAt b 22 2 == 0 then 65536 else fieldAt b 22 2, wOff := fieldAt b 24 8
    wLen := fieldAt b 32 8, bOff := fieldAt b 40 8, scale := fieldAt b 48 4 }

/-- BARRIER_AFTER. -/
def LayerRec.barrier (l : LayerRec) : Bool := bitOf l.epi 4

/-- Kernel `i` of section 0x0003, and its layer records (R323). -/
def Graph.kernel (g : Graph) (i : Nat) : Bytes :=
  let b := g.sect 3
  if i < fieldAt b 0 4 then (b.drop (fieldAt b (16 + 16 * i) 8)).take (fieldAt b (24 + 16 * i) 4) else []
def Graph.layer (g : Graph) (i l : Nat) : Option LayerRec :=
  let b := g.kernel i
  if l < fieldAt b 0 2 then some (parseLayer ((b.drop (16 + 64 * l)).take 64)) else none

/-- The address streams of a program (R151). -/
def progDescs (b : Bytes) : List StreamDesc :=
  (recs b 16 16 (fieldAt b 4 1)).map fun d =>
    { base := fieldAt d 0 4, step := sInt 32 (fieldAt d 4 4), stride := sInt 16 (fieldAt d 8 2)
      mode := fieldAt d 10 1, esize := fieldAt d 11 1 }

/-- Cores in service of a cluster, ascending. -/
def State.coresOf (s : State) (k : Nat) : List Nat := (List.range 32).filter fun n => s.coreIn (32 * k + n)

/-- The physical clusters that serve as logical clusters 0, 1, ... of a variant of `c` clusters (R482). -/
def State.logical (s : State) (c : Nat) : List Nat :=
  let ins := (List.range 16).filter s.clusterIn
  let cnt := fun k => (s.coresOf k).length
  ins.filter fun k => decide ((ins.filter fun j => decide (cnt k < cnt j) || (cnt j == cnt k && decide (j < k))).length < c)

/-- The physical clusters of the running variant; none without a graph. -/
def State.clusters (s : State) : List Nat :=
  match s.work.graph with
  | some g => s.logical g.cfg.clusters
  | none => []

/-- The logical number of a physical cluster in the running variant (R482). -/
def State.logicalOf (s : State) (k : Nat) : Option Nat := s.clusters.findIdx? fun x => x == k

/-- The physical core of logical core `n` of physical cluster `k` (R482). -/
def State.physCore (s : State) (k n : Nat) : Option Nat := (s.coresOf k)[n]?

/-- The physical lanes of logical lanes 0, 1, ... (R482, R275). -/
def State.lanesIn (s : State) : List Nat := (List.range 8).filter s.laneIn

/-- The physical lanes that the running variant uses (R31, R275). -/
def State.graphLanes (s : State) (g : Graph) : List Nat := s.lanesIn.take g.cfg.intake

/-- The physical cores that the running variant may use (R31): those that its placement entries fix, then the others, by number within
their cluster and then by cluster, up to the count that its configuration names (log entry 82). -/
def State.graphCores (s : State) (g : Graph) : List Nat :=
  let cl := s.clusters
  let fixed := (g.tables.places.filterMap fun p =>
    if p.core == 0xFF then none else (cl[p.cluster]?).bind fun k => (s.physCore k p.core).map fun n => 32 * k + n).eraseDups
  let rest := (List.range 32).flatMap fun j => cl.filterMap fun k => (s.physCore k j).map fun n => 32 * k + n
  (fixed ++ rest.filter fun c => !fixed.contains c).take g.cfg.cores

/-- The region of tensor slot `n` on physical cluster `k` (R334). -/
def State.slotRec (s : State) (k n : Nat) : Option SlotRec :=
  match s.work.graph, s.logicalOf k with
  | some g, some l => g.tables.slots.find? fun r => r.cluster == l && r.slot == n
  | _, _ => none

/-- PCIe lanes and Rolog lanes in service. -/
def State.rologCount (s : State) : Nat := countBits 16 s.present.rolog
def State.pcieCount (s : State) : Nat := countBits 16 s.present.pcie
def State.laneCount (s : State) : Nat := countBits 8 s.present.lanes
def State.clusterCount (s : State) : Nat := countBits 16 s.present.clusters

/-- Units of kind 1 to 6 (R83) that a variant requires, and that are in service. -/
def VarCfg.needs (c : VarCfg) (kind : Nat) : Nat :=
  match kind with
  | 1 => c.clusters | 2 => c.cores | 3 => c.pch | 4 => c.pcie | 5 => c.rolog | _ => c.intake
def State.inService (s : State) (kind : Nat) : Nat :=
  match kind with
  | 1 => s.clusterCount | 2 => s.coreCount | 3 => s.pchCount | 4 => s.pcieCount | 5 => s.rologCount | _ => s.laneCount

/-- Whether a variant fits the reported configuration (R31, R55). -/
def State.fits (s : State) (c : VarCfg) : Bool := (List.range 6).all fun i => decide (c.needs (i + 1) ≤ s.inService (i + 1))

/-- The first variant in QXG order that fits (R55, R56). -/
def State.firstFit (s : State) (g : Graph) : Option Nat := (List.range g.variants).find? fun v => s.fits (g.cfgOf v)

/-- The shortfall of R83. -/
def State.shortfall (s : State) (g : Graph) : Nat :=
  let vs := (List.range g.variants).map g.cfgOf
  let short := fun kind => vs.filter fun c => decide (s.inService kind < c.needs kind)
  match ((List.range 6).map (· + 1)).find? fun kind => !(short kind).isEmpty with
  | some kind =>
    let few := ((short kind).map fun c => c.needs kind).foldl min 0xFFFF
    kind + few * 2 ^ 16 + s.inService kind % 2 ^ 16 * 2 ^ 32
  | none => 0

/-- Device address of HBM byte `a` as the memory holds it: out of the capacity in service there is none (R363). -/
def State.hbmOk (s : State) (a n : Nat) : Bool := decide (a + n ≤ s.hbmCap)

/-- Reads bytes of a space: none where a bus read fails or the range leaves HBM. -/
def State.readSpace (s : State) (e : BusEnv) (sp : Space) (a n : Nat) : Option Bytes :=
  match sp with
  | .bus => s.busRead e a n
  | .hbm => if s.hbmOk a n then some (readBytes s.mem.hbm a n) else none

/-- Writes bytes to HBM. A whole new word clears its ECC mark (R366, R367). -/
def Mem.writeHbm (m : Mem) (a : Nat) (bs : Bytes) : Mem :=
  { m with hbm := writeBytes m.hbm a bs
           ecc := m.ecc.filter fun p => !(decide (a ≤ 8 * p.1) && decide (8 * p.1 + 8 ≤ a + bs.length)) }

/-- The ASPACE code of an address operand. -/
def spaceOf (c : Nat) : Space := if c == 0 then .bus else .hbm

/-- Whether a template's tasks belong to a graph phase: the one that the graph declares for it, or every phase (R53; log entry 35). -/
def Graph.tplInPhase (g : Graph) (tpl ph : Nat) : Bool := (g.decls.phases.filter fun p => p.1 == tpl).all fun p => p.2 == ph

end Sys2Proof.Machine
end

