-- ==== Sys2Proof/Machine/Checks.lean ====
section
/-! DEFINITION. The check functions of the spec: CRC-32C and CRC-64/ECMA-182 (R394, R34, R546, R86), and the
SHA-384 of FIPS 180-4 that the spec names without restating it (R58, R498, R499). -/

namespace Sys2Proof.Machine

/-- `n` steps of a reflected CRC of polynomial `p` on a register value. -/
def crcReflSteps (p : Nat) : Nat → Nat → Nat
  | 0, c => c
  | n + 1, c => crcReflSteps p n (if c % 2 == 1 then Nat.xor (c / 2) p else c / 2)

/-- One byte into the running CRC-32C register (reflected polynomial 0x82F6_3B78, R394). -/
def crc32cByte (c : Nat) (b : Byte) : Nat := crcReflSteps 0x82F63B78 8 (Nat.xor c b.toNat)

/-- Goes on with a number once it has been evaluated (so that no chain of unevaluated numbers builds up). -/
def withNat {α : Type} (x : Nat) (k : Nat → α) : α :=
  match x with
  | 0 => k 0
  | n + 1 => k (n + 1)

/-- A byte string into a running CRC register, byte by byte. -/
def crcRun (f : Nat → Byte → Nat) : Bytes → Nat → Nat
  | [], c => c
  | b :: bs, c => withNat (f c b) (crcRun f bs)

/-- A byte string into the running CRC-32C register, without inversion. -/
def crc32cRun (c : Nat) (bs : Bytes) : Nat := crcRun crc32cByte bs c

/-- CRC-32C with initial value and final XOR 0xFFFF_FFFF (R394). -/
def crc32c (bs : Bytes) : Nat := Nat.xor (crc32cRun 0xFFFFFFFF bs) 0xFFFFFFFF

/-- `n` steps of the CRC-64/ECMA-182 register (0x42F0_E1EB_A9EA_3693, not reflected). -/
def crc64Steps : Nat → Nat → Nat
  | 0, c => c
  | n + 1, c =>
    crc64Steps n (if c / 2 ^ 63 % 2 == 1 then Nat.xor (c * 2 % 2 ^ 64) 0x42F0E1EBA9EA3693 else c * 2 % 2 ^ 64)

/-- One byte into the running CRC-64 register. -/
def crc64Byte (c : Nat) (b : Byte) : Nat := crc64Steps 8 (Nat.xor c (b.toNat * 2 ^ 56))

/-- A byte string into the running CRC-64 register. -/
def crc64Run (c : Nat) (bs : Bytes) : Nat := crcRun crc64Byte bs c

/-- CRC-64/ECMA-182 with initial value 0 and final XOR 0 (R394). -/
def crc64 (bs : Bytes) : Nat := crc64Run 0 bs

/-- The round constants of SHA-512, which SHA-384 shares (FIPS 180-4, section 4.2.3). -/
def shaK : List (BitVec 64) :=
  [0x428a2f98d728ae22#64, 0x7137449123ef65cd#64, 0xb5c0fbcfec4d3b2f#64, 0xe9b5dba58189dbbc#64, 0x3956c25bf348b538#64,
   0x59f111f1b605d019#64, 0x923f82a4af194f9b#64, 0xab1c5ed5da6d8118#64, 0xd807aa98a3030242#64, 0x12835b0145706fbe#64,
   0x243185be4ee4b28c#64, 0x550c7dc3d5ffb4e2#64, 0x72be5d74f27b896f#64, 0x80deb1fe3b1696b1#64, 0x9bdc06a725c71235#64,
   0xc19bf174cf692694#64, 0xe49b69c19ef14ad2#64, 0xefbe4786384f25e3#64, 0x0fc19dc68b8cd5b5#64, 0x240ca1cc77ac9c65#64,
   0x2de92c6f592b0275#64, 0x4a7484aa6ea6e483#64, 0x5cb0a9dcbd41fbd4#64, 0x76f988da831153b5#64, 0x983e5152ee66dfab#64,
   0xa831c66d2db43210#64, 0xb00327c898fb213f#64, 0xbf597fc7beef0ee4#64, 0xc6e00bf33da88fc2#64, 0xd5a79147930aa725#64] ++
  [0x06ca6351e003826f#64, 0x142929670a0e6e70#64, 0x27b70a8546d22ffc#64, 0x2e1b21385c26c926#64, 0x4d2c6dfc5ac42aed#64,
   0x53380d139d95b3df#64, 0x650a73548baf63de#64, 0x766a0abb3c77b2a8#64, 0x81c2c92e47edaee6#64, 0x92722c851482353b#64,
   0xa2bfe8a14cf10364#64, 0xa81a664bbc423001#64, 0xc24b8b70d0f89791#64, 0xc76c51a30654be30#64, 0xd192e819d6ef5218#64,
   0xd69906245565a910#64, 0xf40e35855771202a#64, 0x106aa07032bbd1b8#64, 0x19a4c116b8d2d0c8#64, 0x1e376c085141ab53#64,
   0x2748774cdf8eeb99#64, 0x34b0bcb5e19b48a8#64, 0x391c0cb3c5c95a63#64, 0x4ed8aa4ae3418acb#64, 0x5b9cca4f7763e373#64] ++
  [0x682e6ff3d6b2b8a3#64, 0x748f82ee5defb2fc#64, 0x78a5636f43172f60#64, 0x84c87814a1f0ab72#64, 0x8cc702081a6439ec#64,
   0x90befffa23631e28#64, 0xa4506cebde82bde9#64, 0xbef9a3f7b2c67915#64, 0xc67178f2e372532b#64, 0xca273eceea26619c#64,
   0xd186b8c721c0c207#64, 0xeada7dd6cde0eb1e#64, 0xf57d4f7fee6ed178#64, 0x06f067aa72176fba#64, 0x0a637dc5a2c898a6#64,
   0x113f9804bef90dae#64, 0x1b710b35131c471b#64, 0x28db77f523047d84#64, 0x32caab7b40c72493#64, 0x3c9ebe0a15c9bebc#64,
   0x431d67c49c100d4c#64, 0x4cc5d4becb3e42b6#64, 0x597f299cfc657e2a#64, 0x5fcb6fab3ad6faec#64, 0x6c44198c4a475817#64]

/-- The initial hash value of SHA-384. -/
def sha384Init : List (BitVec 64) :=
  [0xcbbb9d5dc1059ed8#64, 0x629a292a367cd507#64, 0x9159015a3070dd17#64, 0x152fecd8f70e5939#64,
   0x67332667ffc00b31#64, 0x8eb44a8768581511#64, 0xdb0c2e0d64f98fa7#64, 0x47b5481dbefa4fa4#64]

/-- Big-endian words of 64 bits of a byte string. -/
def shaWords : Nat → Bytes → List (BitVec 64)
  | 0, _ => []
  | n + 1, bs => BitVec.ofNat 64 ((bs.take 8).foldl (fun a b => a * 256 + b.toNat) 0) :: shaWords n (bs.drop 8)

/-- Goes on with a word once it has been evaluated. -/
def withWord {α : Type} (x : BitVec 64) (k : BitVec 64 → α) : α := withNat x.toNat fun n => k (BitVec.ofNat 64 n)

/-- The rest of the message schedule, kept newest first. -/
def shaSchedule : Nat → List (BitVec 64) → List (BitVec 64)
  | 0, w => w
  | n + 1, w =>
    let g (i : Nat) := w.getD i 0#64
    let s0 := (g 14).rotateRight 1 ^^^ (g 14).rotateRight 8 ^^^ ((g 14) >>> 7)
    let s1 := (g 1).rotateRight 19 ^^^ (g 1).rotateRight 61 ^^^ ((g 1) >>> 6)
    withWord (g 15 + s0 + g 6 + s1) fun x => shaSchedule n (x :: w)

/-- The rounds on the eight working variables, one for each word of constant plus schedule. -/
def shaRounds : List (BitVec 64) → List (BitVec 64) → List (BitVec 64)
  | [], v => v
  | kw :: r, [a, b, c, d, e, f, g, h] =>
    let s1 := e.rotateRight 14 ^^^ e.rotateRight 18 ^^^ e.rotateRight 41
    let ch := (e &&& f) ^^^ (~~~e &&& g)
    let t1 := h + s1 + ch + kw
    let s0 := a.rotateRight 28 ^^^ a.rotateRight 34 ^^^ a.rotateRight 39
    let mj := (a &&& b) ^^^ (a &&& c) ^^^ (b &&& c)
    withWord (t1 + (s0 + mj)) fun a' => withWord (d + t1) fun e' => shaRounds r [a', a, b, c, e', e, f, g]
  | _, o => o

/-- One block of 128 bytes. -/
def shaBlock (h : List (BitVec 64)) (blk : Bytes) : List (BitVec 64) :=
  let w := (shaSchedule 64 (shaWords 16 blk).reverse).reverse
  List.zipWith (· + ·) h (shaRounds (List.zipWith (· + ·) shaK w) h)

/-- `n` blocks of a padded message. -/
def shaBlocks : Nat → List (BitVec 64) → Bytes → List (BitVec 64)
  | 0, h, _ => h
  | n + 1, h, bs => shaBlocks n (shaBlock h (bs.take 128)) (bs.drop 128)

/-- Big-endian bytes of a value. -/
def beBytes (n v : Nat) : Bytes := (leBytes n v).reverse

/-- SHA-384 of a byte string: 48 bytes. -/
def sha384 (bs : Bytes) : Bytes :=
  let pad := (239 - bs.length % 128) % 128
  let m := bs ++ [0x80#8] ++ List.replicate pad 0#8 ++ beBytes 16 (8 * bs.length)
  ((shaBlocks (m.length / 128) sha384Init m).flatMap fun x => beBytes 8 x.toNat).take 48

end Sys2Proof.Machine
end

