-- ==== Sys2Proof/Machine/OpsErr.lean ====
section
/-! DEFINITION. Detected errors, error records and the FAILED state (R465 to R467, R473, R475, R476, R479, R487,
R488), messages on the pair link (R445 to R447), and the pair's fence and leave (R456, R464). -/

namespace Sys2Proof.Machine

/-- The codes of the pair states (R443). -/
def PairState.code : PairState → Nat
  | .off => 0 | .down => 1 | .syncing => 2 | .paired => 3 | .solo => 4 | .detached => 5 | .suspect => 6 | .fenced => 7

/-- Enters a pair state; a change posts source 0x627 (R432). -/
def State.setPair (s : State) (p : PairState) : State :=
  if s.pair.state == p then s else (s.modPair fun x => { x with state := p }).postEvent 0x627

/-- A pair message: header, payload, CHECK, four zero bytes (R445). -/
def pairMsg (ty flags ack seq : Nat) (payload : Bytes) : Bytes :=
  let body := leBytes 1 ty ++ leBytes 1 flags ++ leBytes 2 payload.length ++ leBytes 4 ack ++ leBytes 8 seq ++ payload
  body ++ leBytes 4 (crc32c body) ++ leBytes 4 0

/-- Sends a pair message on every port that is up (R445). A HEARTBEAT carries SEQ 0 and is not acknowledged; every
other message takes the next SEQ and is kept until it is acknowledged (R446). While SYNCING or PAIRED with no port up, a message is kept
and leaves when a port comes up (R21, R452). -/
def State.pairSend (s : State) (ty : Nat) (payload : Bytes) : State :=
  let keeps := ty != 2 && (s.pair.state == .syncing || s.pair.state == .paired)
  if s.pair.portsUp == 0 && !keeps then s
  else
    let seq := if ty == 2 then 0 else s.pair.txSeq + 1
    let s1 := s.modPair fun x =>
      if ty == 2 then { x with lastTx := s.now }
      else { x with lastTx := s.now, txSeq := seq, unacked := x.unacked ++ [(seq, ty, payload)] }
    if s.pair.portsUp == 0 then s1 else s1.emit (.pair (pairMsg ty 0 s.pair.rxSeq seq payload))

/-- The primary stops all writes and tells the secondary (R456): 1 lease failure, 2 HANDOVER. -/
def State.pairFence (s : State) (reason : Nat) : State :=
  (s.setPair .fenced).pairSend 7 (leBytes 1 reason ++ List.replicate 7 0#8)

/-- A closed stream keeps its staged descriptor, its arm counts and what QUERY reports. -/
def Stream.shut (st : Stream) : Stream :=
  { ({} : Stream) with stOrigin := st.stOrigin, stFrom := st.stFrom, armOverrun := st.armOverrun, armOverruns := st.armOverruns
                       released := st.released, late := st.late, voidRows := st.voidRows
                       runLimit := st.runLimit, marks := st.marks }

/-- A module that shadows nothing runs none of the work it mirrored (R443, R464): its commands, graph, streams and tables go, with the
records, frames and prefetches of their tasks (DESIGN CHOICE, log entry 108: what becomes of the mirrored graph is not stated). -/
def State.dropShadow (s : State) : State :=
  { s with
    cmds := []
    work := { s.work with
      graph := none, streams := tabMap {} Stream.shut s.work.streams
      disps := tabMap {} (fun d => { d with slots := [], frames := [], delay := [], ready := [], unitQ := [] }) s.work.disps
      cores := tabMap {} (fun c => { c with faulted := false, faultInfo := 0, faultAddr := 0, h0 := {}, h1 := {}, ctx := none }) s.work.cores
      lanes := tabMap {} (fun l => { l with cur := none, todo := [], fetchSlot := 0, raw := [], made := [], image := {}, text := {}, images := [], late := []
                                            refused := [], passed := [], windows := [], shuffled := [], stalls := [] }) s.work.lanes
      flows := [], weirs := [], saved := [], tables := [], built := [], slotVoids := [], trc := { s.work.trc with laid := [] } } }

/-- The secondary stops shadowing: held outputs are discarded, mirrored work ends (R464). -/
def State.pairLeave (s : State) : State :=
  ((s.modPair fun x => { x with kept := [], undone := [], mirrored := [], joins := [], early := [], doneEarly := [] }).dropShadow).setPair .detached

/-- Whether the pair mirrors: SYNCING or PAIRED, as primary (R451, R452). -/
def State.mirrors (s : State) : Bool :=
  s.pair.roleNow == 1 && (s.pair.state == .syncing || s.pair.state == .paired)

/-- Whether every pair message up to SEQ `n` needs no more waiting: acknowledged, or the pair no longer mirrors. -/
def State.pairAcked (s : State) (n : Nat) : Bool := n == 0 || decide (n ≤ s.pair.txAck) || !s.mirrors

/-- Spaces of a DMA descriptor (R382): 0 bus, 1 device. -/
def Desc.srcSp (d : Desc) : Nat := bitsOf d.spaces 1 0
def Desc.dstSp (d : Desc) : Nat := bitsOf d.spaces 3 2

/-- Whether writes of host or peer memory are issued and not complete: journal writes whose announcement is acknowledged, and bursts of a DMA
transfer to the bus. -/
def State.issuedWrites (s : State) : Bool :=
  (s.jrn.accesses.any fun a => s.pairAcked a.ann && match a.kind with
    | .accept seq => (s.cmds.find? fun c => c.seq == seq).any fun c => s.pairAcked c.accSeq
    | .update n _ => !(s.qps.any fun p => p.2.queue.any fun e => e.gate == some n && !s.pairAcked e.ann)
    | .control => true
    | .walk => false) ||
  s.mem.chans.any fun p => p.2.job.any fun j => j.desc.op != 2 && j.desc.dstSp == 0 && !j.flight.isEmpty

/-- A HANDOVER fences the primary once the writes already issued are complete (R456). -/
def State.handedOver (s : State) : State :=
  if s.pair.handing && !s.issuedWrites then (s.modPair fun x => { x with handing := false }).pairFence 2 else s

/-- An error record as its 64 bytes (R487). -/
def ErrRec.encode (r : ErrRec) : Bytes :=
  let body := leBytes 8 r.num ++ leBytes 8 (encPos r.position) ++ leBytes 1 r.kind ++ leBytes 1 r.cause ++
    leBytes 2 r.index ++ leBytes 1 r.outcome ++ leBytes 1 r.transients ++ leBytes 2 r.source ++ leBytes 8 r.detail ++
    leBytes 4 r.testUs ++ leBytes 4 r.pauseUs ++ leBytes 4 r.rerun ++ leBytes 4 r.uptime ++ leBytes 8 r.streams ++
    leBytes 4 0
  body ++ leBytes 4 (crc32c body)

/-- The event source of a detected error (R466). -/
def errSource (kind index : Nat) : Nat :=
  match kind with
  | 1 => 0x500 + index / 32
  | 7 => 0x500 + index / 8
  | 9 => 0x510 + index
  | 10 => 0x520 + index % 8
  | 11 => 0x520 + index
  | 12 => 0x528 + index
  | 13 => 0x530
  | 14 => 0x531
  | 15 => 0x532
  | 16 => 0x533
  | 17 => 0x534
  | 18 => 0x535 + index
  | 19 => 0x539
  | 20 => 0x53A
  | _ => 0x500 + index

/-- Adds a record to the ring of 256; overwriting one is counted and posts source 0x53E (R488). -/
def State.pushRecord (s : State) (r : ErrRec) : State :=
  let full := decide (256 ≤ s.err.log.length)
  let s1 := s.modErr fun e => { e with
    log := (r :: e.log).take 256, lastNum := r.num, logLost := if full then sat32 e.logLost 1 else e.logLost }
  if full then s1.postEvent 0x53E else s1

/-- Outcomes that are written to flash and reported to the event receiver (R488, R523). -/
def lastingOutcome (o : Nat) : Bool := o == 2 || o == 3 || o == 5 || o == 6

/-- Writes the outcome of a record; a lasting one also goes to flash and to the event receiver (R488, R523), and the
outcome is counted (ERR_TRANSIENTS, ERR_LASTING). -/
def State.setOutcome (s : State) (num : Nat) (f : ErrRec → ErrRec) : State :=
  match s.err.log.find? fun r => r.num == num with
  | none => s
  | some r0 =>
    let r := f r0
    let s1 := s.modErr fun e => { e with
      log := e.log.map fun x => if x.num == num then r else x
      transients := if r.outcome == 1 || r.outcome == 4 then sat32 e.transients 1 else e.transients
      lasting := if lastingOutcome r.outcome then sat32 e.lasting 1 else e.lasting
      flash := if lastingOutcome r.outcome then (r :: e.flash).take 1024 else e.flash }
    if lastingOutcome r.outcome && s.mgt.receiver.isSome then s1.emit (.mctp r.encode) else s1

/-- Every outstanding command completes with ST_INTERNAL (R473). -/
def failCmds (cs : List Cmd) : List Cmd :=
  cs.map fun c => match c.phase with
    | .accepted => { c with phase := .finished stInternal 0 }
    | .executing => { c with phase := .finished stInternal 0 }
    | _ => c

/-- The device enters FAILED by the error of record `num` and acts according to its pair role (R473). -/
def State.enterFailed (s : State) (num : Nat) : State :=
  if s.err.state == 2 then s
  else
    let s1 := (s.modErr fun e => { e with state := 2, recovering := [] }).postEvent 0x53D
    let s2 := s1.setOutcome num fun r => { r with outcome := 6 }
    if s.pair.state == .off || s.pair.state == .down || s.pair.state == .solo || s.pair.state == .detached then
      { s2 with cmds := failCmds s2.cmds }
    else if s.pair.roleNow == 1 then (s2.modPair fun x => { x with handing := true }).handedOver
    else s2.pairLeave

/-- Empties a target's stack and returns its sources to PENDING; FROZEN clears (R420). -/
def Evc.flush (v : Evc) (t : Nat) : Evc :=
  let st := (v.target t).stack
  let v1 := st.foldl (fun v e => v.modSrc e.source fun x => { x with state := .pending }) v
  v1.modTgt t fun g => { g with stack := [], frozen := false, faultNamed := 0, faultTop := 0, phase := .running }

/-- Whether a kind runs as a compared duplex: a copy removed, or under test (R475). -/
def State.isDuplex (s : State) (kind : Nat) : Bool :=
  (kind == 14 && s.err.duplexTrc) || (kind == 15 && s.evc.duplex) || (s.err.fenced.any fun p => p.1 == kind)

/-- Whether a unit is fenced (R467). -/
def State.isFenced (s : State) (kind index : Nat) : Bool := s.err.fenced.any fun f => f.1 == kind && f.2 == index

/-- A vote among three copies of the stack state has rewritten one; a compared duplex has no majority (R421, R475). -/
def State.voteFixed (s : State) : State :=
  if s.isDuplex 15 || s.err.state == 2 then s else s.modEvc fun v => { v with voteFix := sat32 v.voteFix 1 }

/-- A unit reports a detected error (R467, R475, R476, R479): record, event, fence, pause. In FAILED nothing runs and
nothing more is recorded (R473). -/
def State.detectError (s : State) (kind index cause detail : Nat) (injected : Bool) : State :=
  if s.err.state == 2 then s
  else
    let num := s.err.lastNum + 1
    let r : ErrRec := { num := num, position := s.pos, kind := kind, cause := cause, index := index, outcome := 0
                        transients := 0, source := errSource kind index, detail := detail, testUs := 0, pauseUs := 0
                        rerun := 0, uptime := s.uptime, streams := 0 }
    let s1 := (s.pushRecord r).postEvent r.source
    let second := s.err.state == 1
    let fatal := ((kind == 14 || kind == 15) && s.isDuplex kind) ||
      (second && (s.err.recovering.head?.map fun x => x.kind == kind && x.index == index) == some true)
    let s2 := s1.modErr fun e => { e with
      state := 1, double := e.double || second, fenced := (kind, index) :: e.fenced
      recovering := e.recovering ++ [{ num := num, kind := kind, index := index, start := s.now, injected := injected, decided := false, seen := s.now }] }
    let s3 := s2.modWork fun w => { w with trc := { w.trc with paused := true } }
    let s4 := if kind == 18 then s3.modEvc fun v => v.flush (16 + index) else s3
    if fatal then s4.enterFailed num else s4

end Sys2Proof.Machine
end

