-- ==== Sys2Proof/Machine/OpsHost.lean ====
section
/-! DEFINITION. The host side's shared operations: completion entries and notices (chapter 03: R62, R68, R79, R82, R98,
R100, R452), journal records and accesses (R84 to R87, R540), the entry checks of R69, and when a command begins. -/

namespace Sys2Proof.Machine

/-- Whether the agreed host queue format is 1.1 (R62). -/
def State.hqf11 (s : State) : Bool := s.glb.hqfAgreed == 0x0101

/-- A ring size field as applied: 4 to 16 (QP_CFG). -/
def clampLog (lo hi v : Nat) : Nat := if v < lo then lo else if hi < v then hi else v
def Qp.sqSize (q : Qp) : Nat := 2 ^ clampLog 4 16 q.sqLog2
def Qp.cqSize (q : Qp) : Nat := 2 ^ clampLog 4 16 q.cqLog2

/-- The 32 bytes of a completion entry (chapter 03), written at position `pos` with phase bit `ph`. -/
def CEntry.bytes (e : CEntry) (pos head : Nat) (ph : Bool) : Bytes :=
  leBytes 8 e.cmdId ++ leBytes 8 e.result ++ leBytes 8 (encPos pos) ++ leBytes 2 (e.sqHead.getD head) ++
    leBytes 1 e.status ++ leBytes 1 e.orig ++ leBytes 1 e.kind ++ leBytes 1 e.stream ++ leBytes 1 e.flags ++
    leBytes 1 (b2n ph)

/-- The slot and phase that the next queued entry of a queue pair will take; the ring of one that is not enabled starts anew (QP_CTL). -/
def Qp.nextSlot (q : Qp) : Nat × Bool :=
  let n := (if q.enable then q.cqTail else 0) + (q.queue.filter fun e => e.slot.isNone).length
  (n % q.cqSize, if n / q.cqSize % 2 == 0 then !q.enable || q.phase else q.enable && !q.phase)

/-- The submission head that entries may show: it passes no entry that is not accepted (R451). -/
def State.shownHead (s : State) (q : Nat) : Nat :=
  match s.cmds.find? fun c => c.qp == q && decide (c.phase = .accepting) with
  | some c => (c.sqHead + (s.qp q).sqSize - 1) % (s.qp q).sqSize
  | none => (s.qp q).sqHead

/-- An entry with the head that it may show: its own, or the shown head where its own lies past an entry still being accepted (R451). -/
def State.headed (s : State) (q : Nat) (e : CEntry) : CEntry :=
  let x := s.qp q
  let behind := fun h : Nat => (x.sqHead + x.sqSize - h % x.sqSize) % x.sqSize
  match e.sqHead with
  | some h => if e.slot.isNone && decide (behind h < behind (s.shownHead q)) then { e with sqHead := none } else e
  | none => e

/-- Queues an entry for a completion ring. An entry that a primary has announced already is not produced again (R454).
While the pair mirrors it is announced first, with the journal SEQ, STATE
and FINAL_STATUS it goes with and the flows of a batch record (R452). -/
def State.enqueue (s : State) (q : Nat) (e : CEntry) (jseq jfinal : Nat) (flows : List (Nat × Nat)) : State :=
  if s.mirrors then
    let qp := s.qp q
    let (slot, ph) := e.slot.getD qp.nextSlot
    let n := s.pair.annNum + 1
    let body := leBytes 8 n ++ leBytes 1 q ++ leBytes 1 (b2n ph) ++ leBytes 2 slot ++
      leBytes 1 (if jseq == 0 then 0 else 2) ++ leBytes 1 jfinal ++ leBytes 2 0 ++ leBytes 8 jseq ++
      (s.headed q e).bytes s.pos (s.shownHead q) ph ++ leBytes 2 flows.length ++ leBytes 6 0 ++
      (flows.flatMap fun f => leBytes 2 f.1 ++ leBytes 6 0 ++ leBytes 8 f.2)
    let s1 := (s.modPair fun x => { x with annNum := n }).pairSend 4 body
    s1.modQp q fun x => { x with queue := x.queue ++ [{ e with ann := s1.pair.txSeq, annNum := n }] }
  else if s.pair.early.contains (q, e.cmdId, e.kind, e.result) then
    s.modPair fun x => { x with early := x.early.filter fun y => y != (q, e.cmdId, e.kind, e.result) }
  else s.modQp q fun x => { x with queue := x.queue ++ [e] }

/-- A notice entry (R82). -/
def noticeEntry (status result : Nat) : CEntry :=
  { cmdId := 0xFFFFFFFFFFFFFFFF, result := result, sqHead := none, status := status, orig := 0, kind := 2
    stream := 0xFF, flags := 0, noIrq := false, gate := none, ann := 0, due := none, annNum := 0 }

/-- A notice to every enabled queue pair whose NOTICE_EN is 1, under HQF 1.1 (R62, R82). -/
def State.notice (s : State) (status result : Nat) : State :=
  if s.hqf11 then
    (List.range 64).foldl (fun t q => if (t.qp q).enable && (t.qp q).noticeEn then t.enqueue q (noticeEntry status result) 0 0 [] else t) s
  else s

/-- An interrupt condition of a queue pair: the message is issued, or held outside D0 (R98, R99, R100). -/
def State.irqCondition (s : State) (q : Nat) : State :=
  if s.inD0 then (s.modQp q fun x => { x with unsig := 0, timer := none, irqHeld := false }).sendMsix (s.qp q).vector
  else (s.modQp q fun x => { x with irqHeld := true, timer := none }).sendPme

/-- A signalling entry has been written: the count and the timer of R98. -/
def State.signal (s : State) (q : Nat) : State :=
  let x := s.qp q
  let s1 := s.modQp q fun x => { x with
    unsig := x.unsig + 1
    timer := if x.unsig == 0 && x.modTime != 0 then some (s.now + x.modTime * 100) else x.timer }
  if max 1 x.modCount ≤ x.unsig + 1 then s1.irqCondition q else s1

/-- Bytes 0 to 0x19 of a journal record are covered by CHECK (chapter 03). -/
def jrnRecord (id seq pos q op state final : Nat) : Bytes :=
  let b := leBytes 8 id ++ leBytes 8 seq ++ leBytes 8 (encPos pos) ++ leBytes 1 q ++ leBytes 1 op
  b ++ leBytes 1 state ++ leBytes 1 final ++ leBytes 4 (crc32c b)

/-- The control line (chapter 03). -/
def jrnControl (retire log2 : Nat) : Bytes :=
  let b := leBytes 8 retire ++ leBytes 4 log2 ++ List.replicate 48 0#8
  b ++ leBytes 4 (crc32c b)

/-- The bus address of record `seq`. -/
def Journal.recAddr (j : Journal) (seq : Nat) : Nat := j.actBase + 64 + 32 * (seq % 2 ^ j.actLog2)

/-- Whether a journal access waits to be repeated (QP_JRN_STATUS.STALLED). -/
def Journal.stalled (j : Journal) : Bool := j.accesses.any fun a => a.waitUs != 0

/-- The next wait of R540: 1, 2, 4, ... up to 1,024 us. -/
def nextWait (w : Nat) : Nat := if w == 0 then 1 else if 1024 ≤ w then 1024 else 2 * w

/-- An access that has failed waits (R540). -/
def JAccess.fail (a : JAccess) (now : Nat) : JAccess :=
  { a with waitUs := nextWait a.waitUs, until_ := some (now + nextWait a.waitUs * 1000) }

/-- Replaces or removes the journal access of a kind. -/
def Journal.updAccess (j : Journal) (k : JKind) (f : JAccess → Option JAccess) : Journal :=
  { j with accesses := j.accesses.filterMap fun a => if a.kind = k then f a else some a }

/-- The access of a kind that is issued and under way (not waiting). -/
def Journal.access (j : Journal) (k : JKind) : Option JAccess :=
  j.accesses.find? fun a => decide (a.kind = k) && a.until_.isNone

/-- Issues a journal access to its place in the journal in force; a shadowing secondary writes no journal (R450). -/
def State.jIssue (s : State) (k : JKind) : State :=
  let a := match k with
    | .accept seq => s.jrn.recAddr seq
    | .update seq _ => s.jrn.recAddr seq + 0x1A
    | _ => s.jrn.actBase
  if s.shadows then s
  else s.modJrn fun j => { j with accesses := j.accesses ++ [{ kind := k, addr := a, waitUs := 0, until_ := none }] }

/-- Advances the retire point over consecutive completed records (R86). -/
def retireRun : Nat → List Nat → Nat → Nat
  | 0, _, r => r
  | n + 1, cs, r => if cs.contains r then retireRun n cs (r + 1) else r

/-- A record has become COMPLETED: the retire point advances; after 64 retirements the control line is rewritten
(R86). -/
def State.recordCompleted (s : State) (seq : Nat) : State :=
  let j := s.jrn
  let cs := seq :: j.completed
  let r := retireRun cs.length cs j.retire
  let n := j.sinceCtl + (r - j.retire)
  let s1 := s.modJrn fun j => { j with retire := r, completed := cs.filter fun x => decide (r ≤ x), sinceCtl := n }
  if 64 ≤ n && !(j.accesses.any fun a => a.kind == .control) then s1.jIssue .control else s1

/-- A submission entry from its 128 bytes. -/
def parseEntry (b : Bytes) : SubEntry :=
  { id := fieldAt b 0 8, opcode := fieldAt b 8 1, flags := fieldAt b 9 1, stream := fieldAt b 10 1, rsvd := fieldAt b 11 5
    addr0 := fieldAt b 16 8, len0 := fieldAt b 24 8, params := (List.range 12).map fun i => fieldAt b (32 + 8 * i) 8 }

/-- The 128 bytes of a submission entry. -/
def SubEntry.bytes (e : SubEntry) : Bytes :=
  leBytes 8 e.id ++ leBytes 1 e.opcode ++ leBytes 1 e.flags ++ leBytes 1 e.stream ++ leBytes 5 e.rsvd ++
    leBytes 8 e.addr0 ++ leBytes 8 e.len0 ++ e.params.flatMap (leBytes 8)

/-- Parameter word `i`. -/
def SubEntry.p (e : SubEntry) (i : Nat) : Nat := e.params[i]?.getD 0
/-- ORDERED, NO_IRQ and ASPACE. -/
def SubEntry.ordered (e : SubEntry) : Bool := bitOf e.flags 0
def SubEntry.noIrq (e : SubEntry) : Bool := bitOf e.flags 1
def SubEntry.aspace (e : SubEntry) : Nat := bitsOf e.flags 3 2

/-- Setup entries of SYNC_DATA run as commands numbered from here on, above every journal SEQ (R462). -/
def setupSeq : Nat := 2 ^ 64

/-- Opcodes of the command table. -/
def opAttach : Nat := 0x01
def opDetach : Nat := 0x02
def opLoad : Nat := 0x03
def opUnload : Nat := 0x04
def opOpen : Nat := 0x05
def opClose : Nat := 0x06
def opEpoch : Nat := 0x07
def opRun : Nat := 0x08
def opCancel : Nat := 0x09
def opFence : Nat := 0x0A
def opQuery : Nat := 0x0B
def opWarm : Nat := 0x0C

/-- Opcodes that name a stream in STREAM. -/
def streamOp (o : Nat) : Bool := o == opOpen || o == opClose || o == opEpoch || o == opRun
/-- The setup commands of R72. -/
def setupOp (o : Nat) : Bool := decide (opAttach ≤ o) && decide (o ≤ opClose)

/-- The bits of parameter word `i` that a command of an opcode uses. P1 of a QUERY is used for KIND 1 only. -/
def usedBits (e : SubEntry) (i : Nat) : Nat :=
  match e.opcode, i with
  | 1, 0 => 0xFFFFFF
  | 2, 0 => 0xFFFF
  | 5, 0 => 0xFFFFFFFFFFFFFFFF
  | 5, 1 => 0xFFFFFFFFFFFFFFFF
  | 5, 2 => 0xFFFFFFFF
  | 5, 3 => 0xFFFFFFFFFFFFFFFF
  | 5, 4 => 0xFFFF
  | 5, 5 => 0xFFFFFFFFFFFFFFFF
  | 7, 0 => 0xFFFFFFFF
  | 7, 1 => 0xFFFFFFFFFFFFFFFF
  | 8, 0 => 0xFFFFFFFFFFFFFFFF
  | 9, 0 => 0xFFFFFFFFFFFFFFFF
  | 9, 1 => 0x3F
  | 10, 0 => 1
  | 11, 0 => 0xFF
  | 11, 1 => if e.p 0 % 256 == 1 then 0x3F else 0
  | _, _ => 0

/-- Bytes that the address operand of a command reads or writes. -/
def SubEntry.addrLen (e : SubEntry) : Nat :=
  if e.opcode == opAttach then 16 * e.len0 else e.len0

/-- Whether a command uses ADDR0 and LEN0. -/
def addrOp (o : Nat) : Bool := o == opAttach || o == opLoad || o == opQuery

/-- Step 1 of R69: the entry is malformed; address operands that its command does not use count as unused parameter words (DEDUCED, log
entry 84). -/
def State.entryBad (s : State) (e : SubEntry) : Bool :=
  !(decide (1 ≤ e.opcode) && decide (e.opcode ≤ 12)) || e.rsvd != 0 || decide (16 ≤ e.flags) || decide (2 ≤ e.aspace) ||
  (!streamOp e.opcode && e.stream != 0) ||
  ((List.range 12).any fun i => Nat.land (e.p i) (Nat.xor 0xFFFFFFFFFFFFFFFF (usedBits e i)) != 0) ||
  (!addrOp e.opcode && (e.addr0 != 0 || e.len0 != 0 || e.aspace != 0)) ||
  (addrOp e.opcode && e.aspace == 1 && !s.hbmOk e.addr0 (max 1 e.addrLen))

/-- Step 2 of R69: an address below its alignment. -/
def entryMisaligned (e : SubEntry) : Bool :=
  (addrOp e.opcode && e.addr0 % 64 != 0) || (e.opcode == opOpen && e.p 3 % 4096 != 0)

/-- Step 3 of R69: a value outside its range. -/
def entryLimit (e : SubEntry) : Bool :=
  let out := fun v lo hi : Nat => !(decide (lo ≤ v) && decide (v ≤ hi))
  (streamOp e.opcode && decide (64 ≤ e.stream)) ||
  match e.opcode with
  | 1 => out e.len0 1 0x100000 || out (e.p 0 % 65536) 1 4095 || decide (3 < bitsOf (e.p 0) 23 16)
  | 2 => out (e.p 0) 1 4095
  | 3 => out e.len0 128 0x100000000
  | 5 => out (e.p 4) 1 65535 || out (e.p 5) 4096 0x10000000000 || e.p 5 % 4096 != 0
  | 8 => out (e.p 0) 1 0xFFFFFFFF
  | _ => false

/-- The checks of R69 in order; 0 where all pass. -/
def State.entryCheck (s : State) (e : SubEntry) : Nat :=
  if s.entryBad e then stBadDescriptor else if entryMisaligned e then stMisaligned else if entryLimit e then stLimit else stOk

/-- The outstanding command of a sequence number. -/
def State.cmd (s : State) (seq : Nat) : Option Cmd := s.cmds.find? fun c => c.seq == seq

/-- Changes a command. -/
def State.modCmd (s : State) (seq : Nat) (f : Cmd → Cmd) : State :=
  { s with cmds := s.cmds.map fun c => if c.seq == seq then f c else c }

/-- Decides a command's status and result. -/
def State.finish (s : State) (seq status result : Nat) : State :=
  s.modCmd seq fun c => { c with phase := .finished status result }

/-- Whether a command has its status already, and whether that is ST_CANCELLED. -/
def Cmd.done (c : Cmd) : Bool := match c.phase with | .finished _ _ => true | _ => false
def Cmd.cut (c : Cmd) : Bool := match c.phase with | .finished st _ => st == stCancelled | _ => false

/-- Whether an accepted command may begin: ORDERED (R70), setup commands one at a time (R72), RUN commands of one
stream in acceptance order (R74). -/
def State.mayBegin (s : State) (c : Cmd) : Bool :=
  decide (c.phase = .accepted) && s.err.state != 2 &&
  !(c.entry.ordered && s.cmds.any fun x => x.qp == c.qp && decide (x.seq < c.seq)) &&
  !(setupOp c.entry.opcode && s.cmds.any fun x => setupOp x.entry.opcode && decide (x.seq < c.seq) && !x.done) &&
  !(c.entry.opcode == opRun && s.cmds.any fun x =>
      x.entry.opcode == opRun && x.entry.stream == c.entry.stream && decide (x.seq < c.seq) &&
      (decide (x.phase = .accepted) || decide (x.phase = .accepting)))

/-- Whether an accepted WARM_RESTART that may begin waits for descriptors that have begun; no other begins meanwhile (R543). -/
def State.warmWaits (s : State) : Bool := s.cmds.any fun c => c.entry.opcode == opWarm && s.mayBegin c

/-- Begins the command `seq` if it is of opcode `op` and may begin; its checks of R69 come first. -/
def State.begin (s : State) (seq op : Nat) (f : Cmd → State → State) : State :=
  match s.cmd seq with
  | some c =>
    if c.entry.opcode == op && s.mayBegin c then
      (match s.entryCheck c.entry with
      | 0 => f c (s.modCmd seq fun x => { x with phase := .executing })
      | st => s.finish seq st 0)
    else s
  | none => s

end Sys2Proof.Machine
end

