-- ==== Sys2Proof/Machine/SageImage.lean ====
section
/-! DEFINITION. Sage images of section 0x0007 and the bank contents they give (R252, R258, R263). -/

namespace Sys2Proof.Machine

/-- The parity of 16 bits. -/
def par16 (x : Nat) : Bool := ((List.range 16).filter fun i => bitOf x i).length % 2 == 1

/-- The parity bits of a match row: one for each 16 bits of KEY, and one for PRIO and VALID (R242). -/
def SageRow.parityBits (r : SageRow) : Nat :=
  ((List.range 32).map fun i => if par16 (r.key / 2 ^ (16 * i) % 2 ^ 16) then 2 ^ i else 0).sum + if par16 (r.prio + 256 * b2n r.valid) then 2 ^ 32 else 0

/-- Whether a match row passes its parity check (R250). -/
def SageEntry.parityOk (x : SageEntry) : Bool := x.parity == x.row.parityBits

/-- An entry as it is written: match row and stored copy alike (R253). -/
def freshEntry (r : SageRow) (source : Option SageRow) : SageEntry := { row := r, parity := r.parityBits, stored := r, source := source }

/-- The match row rewritten from the stored copy (R249, R250). -/
def SageEntry.rewrite (x : SageEntry) : SageEntry := { x with row := x.stored, parity := x.stored.parityBits }

/-- A Sage image's header: MODE, WIDTH, MASK_COUNT, ENTRY_COUNT (R263). -/
structure SageHead where
  mode : Nat
  width : Nat
  masks : Nat
  entries : Nat
  deriving DecidableEq, Repr

def parseSage (b : Bytes) : SageHead := { mode := fieldAt b 0 1, width := fieldAt b 1 1, masks := fieldAt b 2 1, entries := fieldAt b 4 4 }

def SageHead.recLen (h : SageHead) : Nat := if h.mode == 2 then 48 else 16 + 16 * h.width
def SageHead.first (h : SageHead) : Nat := if h.mode == 2 then 320 else 64 + 64 * h.masks
/-- The records of an image. -/
def sageRecs (b : Bytes) : List Bytes := let h := parseSage b; recs b h.first h.recLen h.entries

/-- An automaton's states by number (R258, R263). -/
def sageStates (b : Bytes) : Tab Nat := (sageRecs b).foldl (fun t r => tset 0 (fieldAt r 0 2) (fieldAt r 16 32) t) []

/-- The contents that an image gives a bank: its match rows, their stored copies, and the image as the source of reloads (R242, R251, R252). -/
def sageLoad (b : Bytes) (old : SageBank) : SageBank :=
  let h := parseSage b
  let w := if h.width == 4 then 2 else if h.width == 2 then 1 else 0
  if h.mode == 2 then
    { stCfg := old.stCfg, pending := old.pending, mode := 2, width := w, states := sageStates b
      classes := (List.range 256).foldl (fun t i => tset 0 i (fieldAt b (64 + i) 1) t) [] }
  else
    { stCfg := old.stCfg, pending := old.pending, mode := 1, width := w
      masks := ((List.range h.masks).drop 1).foldl (fun t i => tset 0 i (fieldAt b (64 + 64 * i) 64) t) []
      entries := (sageRecs b).foldl (fun t r =>
        let x : SageRow := { valid := bitOf (fieldAt r 3 1) 0, prio := fieldAt r 2 1, result := fieldAt r 8 8, key := fieldAt r 16 (16 * h.width) }
        tset {} (fieldAt r 0 2) (freshEntry x (some x)) t) [] }

/-- The image's bytes: item `i` of the directory of section 0x0007. -/
def Graph.sageImage (g : Graph) (i : Nat) : Bytes :=
  let b := g.sect 7
  (b.drop (fieldAt b (16 + 16 * i) 8)).take (fieldAt b (24 + 16 * i) 4)

/-- Loads the images that variant `v` places (variant, image, logical cluster, bank) into their banks (R252). -/
def State.loadBanks (s : State) (g : Graph) (v : Nat) : State :=
  let cl := s.logical (g.cfgOf v).clusters
  (g.sage.filter fun p => p.1 == v).foldl (fun t p =>
    match cl[p.2.2.1]? with
    | some k => t.modWork fun w => { w with units := tmod {} k (fun u => { u with sage := { u.sage with
        banks := tmod {} p.2.2.2 (sageLoad (g.sageImage p.2.1)) u.sage.banks } }) w.units }
    | none => t) s

end Sys2Proof.Machine
end

