-- ==== Sys2Proof/Machine/Stages.lean ====
section
/-! DEFINITION. What the templates of a stream read: the TABLE words of R331, companion templates, the table stages that a stream
needs (R164) and the attached tables that it reads (R73). -/

namespace Sys2Proof.Machine

/-- The TABLE words of a template's declaration. -/
def Graph.tableWords (g : Graph) (t : Tpl) : List Nat :=
  let ps := g.params t
  if t.kind != 3 then []
  else match t.unit, t.op with
  | 1, 3 => (ps.drop 3).take 1
  | 1, 5 => (ps.drop 1).take 1
  | 1, 7 => (ps.drop 1).take 1
  | 2, 2 => ((ps.drop 7).take 1).filter (· != 0)
  | 3, 3 => (ps.drop 4).take 1
  | 4, 1 => (ps.drop 5).take 1
  | 4, 2 => (ps.drop 5).take 1
  | 4, 3 => (ps.drop 6).take 1
  | _, _ => []

/-- The templates that a template's declaration names: its companion, and those of its DERIVED tables (R331). -/
def Graph.refTpls (g : Graph) (t : Tpl) : List Nat :=
  let ps := g.params t
  let comp := if t.kind == 3 && t.unit == 1 then
      (match t.op with
      | 4 => [ps.getD 2 0]
      | 6 => [ps.getD 3 0]
      | 8 => [ps.getD 1 0]
      | _ => [])
    else []
  comp ++ ((g.tableWords t).filter fun w => bitOf w 12).map fun w => bitsOf w 31 16

/-- The table stages whose FIT a template takes by its declarations: the normalisations of its program's words, and its bucketing (R183, R208;
log entry 95). -/
def Graph.fitTpls (g : Graph) (i : Nat) (t : Tpl) : List Nat :=
  (if t.kind == 1 then (g.decls.norms.filter fun d => d.1 == t.prog).filterMap fun d => d.2.2.fit.map fun f => f.1 else []) ++
    (g.decls.buckets.filter fun d => d.1 == i).filterMap fun d => d.2.fit.map fun f => f.1

/-- Template numbers closed under the templates that they name; `fuel` counts the templates. -/
def Graph.closeRefs (g : Graph) : Nat → List Nat → List Nat
  | 0, l => l
  | fuel + 1, l =>
    let more := ((l.flatMap fun i => ((g.tpl i).map fun t => g.refTpls t ++ g.fitTpls i t).getD []).filter fun i => !l.contains i).eraseDups
    if more.isEmpty then l else g.closeRefs fuel (l ++ more)

/-- The templates that a stream with source word `src` uses: its own, the stages behind its source, and what these name. -/
def Graph.usedTpls (g : Graph) (n src : Nat) : List Nat :=
  let own := (List.range g.tplCount).filter fun i => (g.tpl i).any fun t => t.stream == n
  g.closeRefs g.tplCount (own ++ if bitOf src 12 && !own.contains (bitsOf src 31 16) then [bitsOf src 31 16] else [])

/-- The table stages that a stream needs (R164). -/
def Graph.stagesFor (g : Graph) (n src : Nat) : List Nat :=
  (g.usedTpls n src).filter fun i => (g.tpl i).any Tpl.stage

/-- The TABLE_ID of an EMBED_BAG layer's table (R323). -/
def Graph.bagTables (g : Graph) (t : Tpl) : List Nat :=
  if t.kind == 2 then ((g.layer t.kernel t.layer).map fun l => if l.op == 2 && bitOf l.mode 5 then [l.table] else []).getD [] else []

/-- The attached tables that a stream reads: its source, and those that its templates name (R73, R325). -/
def Graph.tablesRead (g : Graph) (n src : Nat) : List Nat :=
  (if bitOf src 12 then [] else [src % 4096]) ++ (g.usedTpls n src).flatMap fun i => match g.tpl i with
    | some t => ((g.tableWords t).filter fun w => !bitOf w 12).map (fun w => w % 4096) ++ g.bagTables t
    | none => []

/-- Where a landed source is kept among what table stages have built (R281). -/
def landedKey (n : Nat) : Nat := 0x10000 + n

/-- Whether a stream is open or being opened or closed. -/
def Stream.inUse (st : Stream) : Bool := st.phase != .closed

/-- The stages completed for the streams that are open, but for stream `n`: they are reused (R164). -/
def State.stagesDone (s : State) (g : Graph) (n : Nat) : List Nat :=
  (List.range 64).flatMap fun m =>
    let st := tget ({} : Stream) s.work.streams m
    if m != n && st.inUse then g.stagesFor m st.src else []

/-- QRN_STATUS.SPILLING of cluster `k`: whether a build that is kept, or a group-by that has not ended, uses HBM spill space for it (R190,
R204). -/
def State.spillsOn (s : State) (k : Nat) : Bool :=
  let at_ := fun p : InPart => p.k == k && p.spill != 0
  s.work.built.any (fun b => bitOf b.2.spilled k || b.2.ins.any at_) ||
    s.work.streams.any fun st => st.2.batches.any fun b => b.shares.any fun p => at_ p.2

/-- Outputs of table stages that no open stream uses are dropped (R164). -/
def State.keepBuilt (s : State) : State :=
  match s.work.graph with
  | none => s
  | some g =>
    let used := s.stagesDone g 64 ++ (((List.range 64).filter fun m => (tget ({} : Stream) s.work.streams m).inUse).map landedKey)
    { s with work := { s.work with built := s.work.built.filter fun (b : Nat × Built) => used.contains b.1 } }

end Sys2Proof.Machine
end

