-- ==== Sys2Proof/Machine/OpsWork.lean ====
section
/-! DEFINITION. Shared operations on the work of a graph: positions of batches (R48, R358), discards (R348, R349),
reruns (R470), stops and variant switches (R56, R160), flags (R339), Weir instances (R351 to R354), and the end of
RUN, CANCEL and CLOSE_STREAM commands (R74, R76, R94). -/

namespace Sys2Proof.Machine

/-- The anchor of batch `b`: the newest adopted descriptor with FROM_BATCH at or below `b` (R358). -/
def Stream.anchor (st : Stream) (b : Nat) : Nat × Nat := (st.anchors.find? fun a => decide (a.2 ≤ b)).getD (0, 0)

/-- Due position of batch `b` of a stream with cadence `c` (R48, R358). -/
def Stream.dueOf (st : Stream) (c : Cadence) (b : Nat) : Nat :=
  let a := st.anchor b
  (a.1 + (b - a.2) * c.k) * 65536 + c.due

/-- Intake lane `i`. -/
def State.lane (s : State) (i : Nat) : Lane := tget {} s.work.lanes i
def State.modLane (s : State) (i : Nat) (f : Lane → Lane) : State := s.modWork fun w => { w with lanes := tmod {} i f w.lanes }

/-- Start position of batch `b`; a start before beat 0 is position 0. -/
def Stream.startOf (st : Stream) (c : Cadence) (b : Nat) : Nat := st.dueOf c b - c.lead * 64

/-- The cadence of a stream of the loaded graph. -/
def State.cadence (s : State) (n : Nat) : Option Cadence := s.work.graph.bind fun g => g.cadence n

/-- The instantiated batch `b`. -/
def Stream.batch (st : Stream) (b : Nat) : Option Batch := st.batches.find? fun x => x.num == b

/-- Changes batch `b`. -/
def State.modBatch (s : State) (n b : Nat) (f : Batch → Batch) : State :=
  s.modStream n fun st => { st with batches := st.batches.map fun x => if x.num == b then f x else x }

/-- Whether a stream has a begun, unreleased batch (STRM_ARM_STATUS.BUSY). -/
def Stream.busy (st : Stream) : Bool := st.batches.any fun b => b.begun

/-- The first batch of a stream that has not begun (R73, R77, R96). -/
def Stream.firstUnbegun (st : Stream) : Nat :=
  (((List.range (st.batches.length + 1)).map fun i => st.released + i).find? fun b =>
    !(st.batches.any fun x => x.num == b && (x.begun || x.recorded))).getD st.released

/-- Begun batches stay; the others are discarded (R348, R350). -/
def Stream.keeps (st : Stream) (b : Nat) : Bool := st.batches.any fun x => x.num == b && (x.begun || x.recorded)

/-- Removes a slot from all the lists of a dispatcher. -/
def Disp.drop (d : Disp) (slots : List Nat) : Disp :=
  let keep := fun l : List Nat => l.filter fun x => !slots.contains x
  { d with delay := keep d.delay
           ready := d.ready.filterMap fun p => let l := keep p.2; if l.isEmpty then none else some (p.1, l)
           unitQ := d.unitQ.filterMap fun p => let l := keep p.2; if l.isEmpty then none else some (p.1, l)
           slots := d.slots.filter fun p => !slots.contains p.1 }

/-- The Hopper entries of a core that hold one of the slots given are emptied; answers how many buffers held a prefetched byte (R349): whether
the first one of a fill in progress has arrived is free, by `u` (log entry 97). An entry that stays is the one to start next (R25). -/
def Core.dropHoppers (c : Core) (slots : List Nat) (u : Nat) : Nat × Core :=
  let hit := fun h : Hopper => h.state != 0 && slots.contains h.slot
  let held := fun (h : Hopper) (i : Nat) => hit h && h.got != 0 && (h.state != 1 || bitOf u i)
  let n := b2n (held c.h0 0) + b2n (held c.h1 1)
  let h0 := if hit c.h0 then {} else c.h0
  let h1 := if hit c.h1 then {} else c.h1
  (n, { c with h0 := h0, h1 := h1, next := if h0.state == 0 && 0 < h1.state && h1.state < 3 then 1
                                           else if h1.state == 0 && 0 < h0.state && h0.state < 3 then 0 else c.next })

/-- The records of a dispatcher that a test picks. -/
def Disp.pick (d : Disp) (p : TaskRec → Bool) : List Nat := (d.slots.filter fun x => p x.2).map fun x => x.1

/-- A saved context without the Hopper entries and programs of slots of cluster `k` that are discarded (R53, R348). -/
def Saved.drop (v : Saved) (k : Nat) (slots : List Nat) : Saved :=
  { v with cores := v.cores.map fun (p : Nat × Core) =>
      if p.1 / 32 == k then
        let c := (p.2.dropHoppers slots 0).2
        (p.1, { c with ctx := if c.ctx.any fun x => slots.contains x.slot then none else c.ctx })
      else p }

/-- Discards picked records on cluster `k`: slots, lists, Hopper entries; answers records and buffers discarded (R348,
R349). A core that runs one of them stops running it. -/
def State.discardOn (s : State) (k : Nat) (p : TaskRec → Bool) : Nat × State :=
  let slots := (s.disp k).pick p
  if slots.isEmpty then (0, s)
  else
    let s0 := { s.modDisp k fun d => d.drop slots with free := s.free + 32 }
    let s1 := if s0.work.saved.isEmpty then s0 else s0.modWork fun w => { w with saved := w.saved.map fun p => (p.1, p.2.drop k slots) }
    (List.range 32).foldl (fun (a : Nat × State) n =>
      let c := 32 * k + n
      let k0 := a.2.core c
      let r := k0.dropHoppers slots (Config.draw (s.free + n))
      if r.2 = k0 && !(k0.ctx.any fun x => slots.contains x.slot) then a
      else (a.1 + r.1, a.2.modCore c fun _ =>
        { r.2 with ctx := if r.2.ctx.any fun x => slots.contains x.slot then none else r.2.ctx })) (slots.length, s1)

/-- Frees the frames of a stream that a test on the batch picks. -/
def Disp.freeFrames (d : Disp) (n : Nat) (p : Option Nat → Bool) : Disp :=
  { d with frames := d.frames.filter fun f => !(f.2.used && f.2.stream == n && p f.2.batch) }

/-- Discards every record of stream `n` whose batch a test picks, on every cluster, with the frames; the total of R349
is also added to each cluster's DSP_CANCEL_DISCARD. -/
def State.discard (s : State) (n : Nat) (count : Bool) (p : Option Nat → Bool) : Nat × State :=
  (List.range 16).foldl (fun (a : Nat × State) k =>
    let r := a.2.discardOn k fun t => t.stream == n && p t.batch
    (a.1 + r.1, r.2.modDisp k fun d =>
      let d1 := d.freeFrames n p
      if count then { d1 with discarded := sat32 d1.discarded r.1 } else d1)) (0, s)

/-- The next flow sequence and held segments of a flow. -/
def State.flow (s : State) (f : Nat) : Flow := tget {} s.work.flows f
def State.modFlow (s : State) (f : Nat) (g : Flow → Flow) : State :=
  s.modWork fun w => { w with flows := tmod {} f g w.flows }
def State.weir (s : State) (i : Nat) : Weir := tget {} s.work.weirs i
def State.modWeir (s : State) (i : Nat) (g : Weir → Weir) : State :=
  s.modWork fun w => { w with weirs := tmod {} i g w.weirs }

/-- Counts the held arrivals of the current generation, in arrival order (R352). -/
def Weir.takeHeld (w : Weir) : Weir :=
  (w.heldQ.filter fun h => h.1 == w.gen).foldl (fun w h => { w with arrived := tmod 0 h.2 (· + 1) w.arrived })
    { w with heldQ := w.heldQ.filter fun h => h.1 != w.gen }

/-- An instance takes up another generation; arrivals of the one it leaves are held for it again (R351, R352). -/
def Weir.goTo (w : Weir) (b : Nat) : Weir :=
  if b == w.gen then w
  else ({ w with gen := b, arrived := [], heldQ := (w.arrived.flatMap fun (p : Nat × Nat) => List.replicate p.2 (w.gen, p.1)) ++ w.heldQ } : Weir).takeHeld

/-- The generation after the current one: the next batch that the stream has instantiated (`live`) and that has not closed, else the next
number (R351). -/
def Weir.nextGen (w : Weir) (live : List Nat) : Nat :=
  let open_ := live.filter fun b => decide (w.gen < b) && !w.closed.contains b
  if open_.isEmpty then (((List.range (w.closed.length + 1)).map fun i => w.gen + 1 + i).find? fun b => !w.closed.contains b).getD (w.gen + 1)
  else open_.foldl min (open_.headD 0)

/-- Discarded batches: their generations are skipped and no arrival for them exists (R353). -/
def Weir.skip (w : Weir) (live gone : List Nat) : Weir :=
  let w1 := { w with heldQ := w.heldQ.filter fun h => !gone.contains h.1, closed := w.closed.filter fun b => !gone.contains b }
  if !gone.contains w.gen then w1
  else
    let w2 := { w1 with arrived := [] }
    if live.any fun b => decide (w.gen < b) && !w1.closed.contains b then w2.goTo (w2.nextGen live) else w2

/-- The FLAG instances of a stream. -/
def Graph.flagWeirs (g : Graph) (n : Nat) : List WeirRec := g.tables.weirs.filter fun w => w.action == 0 && w.stream == n

/-- Changes every FLAG instance of a stream. -/
def State.modFlags (s : State) (n : Nat) (f : Weir → Weir) : State :=
  match s.work.graph with
  | none => s
  | some g => (g.flagWeirs n).foldl (fun t r => t.modWeir r.inst f) s

/-- The batches that have reached their start position while the generator of lane `i` has still to compute its slots of them (R284). -/
def State.laneStalls (s : State) (i : Nat) : List (Nat × Nat) :=
  if !(s.work.graph.any fun g => (s.graphLanes g).contains i) then []
  else s.work.streams.flatMap fun p => (p.2.batches.filter fun x =>
    decide (x.start ≤ s.pos) && !bitOf x.intake i && !(s.lane i).shuffled.contains (p.1, x.num) && p.2.stop.all fun z => decide (x.num < z)).map fun x => (p.1, x.num)

/-- The stalls of a lane that INT_SHUF_STALL does not hold yet, and what that register counts with them (R284). -/
def State.newStalls (s : State) (i : Nat) : List (Nat × Nat) := (s.laneStalls i).filter fun p => !(s.lane i).stalls.contains p
def State.stallCount (s : State) (i : Nat) : Nat := sat32 (s.lane i).shufStall (s.newStalls i).length

/-- Takes those stalls into the lane's count. -/
def State.noteStalls (s : State) (i : Nat) : State :=
  if (s.newStalls i).isEmpty then s
  else s.modLane i fun l => { l with stalls := l.stalls ++ s.newStalls i, shufStall := s.stallCount i }
def State.noteAllStalls (s : State) : State := (List.range 8).foldl State.noteStalls s

/-- The discard of R348: everything of the stream's batches that have not begun; their Weir generations are skipped (R353). -/
def State.discardUnbegun (s : State) (n : Nat) : Nat × State :=
  let s := s.noteAllStalls
  let st := s.stream n
  let gone := fun b : Option Nat => match b with | some x => !st.keeps x | none => false
  let r := s.discard n true gone
  let live := (st.batches.map fun x => x.num).filter st.keeps
  let lost := (st.batches.map fun x => x.num).filter fun b => !st.keeps b
  (r.1, (r.2.modStream n fun st => { st with batches := st.batches.filter fun x => st.keeps x.num }).modFlags n fun w => w.skip live lost)

/-- The RUN of a stream that batch `b` belongs to. -/
def Stream.runOf (st : Stream) (b : Nat) : Option RunRef :=
  match st.runs.find? fun r => r.own.contains b with
  | some r => some r
  | none => st.runs.find? fun r => decide (b < r.last)

/-- Whether a RUN is over: its batches have all been released, or it is cancelled and none of them has begun (R74, R94). -/
def Stream.runOver (st : Stream) (r : RunRef) : Bool :=
  r.own.all (fun b => decide (b < st.released)) &&
    (decide (r.last ≤ st.released) || (r.cancelled && st.runs.any fun x => decide (x.seq < r.seq) && decide (r.last ≤ x.last)))

/-- A RUN's begun batches at or above `low`. -/
def Stream.begunOf (st : Stream) (low : Nat) (r : RunRef) : List Nat :=
  ((st.batches.filter fun b => decide (low ≤ b.num) && (b.begun || b.recorded)).map fun b => b.num).filter fun b =>
    (st.runOf b).any fun x => x.seq == r.seq

/-- Completes the RUN commands of a stream that are over. -/
def State.endRuns (s : State) (n : Nat) : State :=
  let st := s.stream n
  let s1 := (st.runs.filter st.runOver).foldl (fun t r => t.finish r.seq (if r.cancelled then stCancelled else stOk) r.count) s
  s1.modStream n fun st => { st with runs := st.runs.filter fun r => !st.runOver r }

/-- Stops RUN `seq` of a stream at its first unbegun batch (R94, R96): later RUNs move up; unbegun work is discarded. -/
def State.cancelRun (s : State) (n seq : Nat) : Nat × State :=
  let st := s.stream n
  match st.runs.find? fun r => r.seq == seq with
  | none => (0, s)
  | some r =>
    let first := ((st.runs.filter fun x => decide (x.last < r.last)).map fun x => x.last).foldl max 0
    let low := max first st.firstUnbegun
    let cut := r.last - low
    let d := s.discardUnbegun n
    let s1 := d.2.modStream n fun st => { st with
      runLimit := st.runLimit - cut
      runs := st.runs.map fun x =>
        if x.seq == seq then { x with last := x.last - cut, cancelled := true, own := st.begunOf low x }
        else if r.last < x.last then { x with last := x.last - cut, own := st.begunOf low x } else x }
    (d.1, s1.endRuns n)

/-- Completes FENCE and CANCEL commands whose condition holds (R94, R97). -/
def State.settleOne (s : State) (c : Cmd) : State :=
  if decide (c.phase = .executing) then
    (if c.entry.opcode == opCancel then
      (match c.target with
      | some t => if (s.cmd t).all Cmd.done then s.finish c.seq stOk (2 ^ 63 + c.count % 2 ^ 32) else s
      | none => s)
    else s)
  else s

def State.settle (s : State) : State := s.cmds.foldl State.settleOne s

/-- The flows of a closing stream pass over the sequence numbers of a discarded batch that lies below a begun one, which CLOSE_STREAM lets
finish and release (R76, R348; DEDUCED, log entry 80). -/
def State.skipFlows (s : State) (n : Nat) : State :=
  let st := s.stream n
  match s.work.graph with
  | none => s
  | some g =>
    if st.phase != .closing then s
    else (g.streamFlows n).foldl (fun (t : State) f =>
      let nx := (t.flow f.flow).next
      let b := nx / max 1 f.segs
      let up := (st.batches.filter fun x => x.begun && decide (b < x.num)).map fun x => x.num
      if nx % max 1 f.segs != 0 || up.isEmpty || st.batches.any fun x => x.num == b then t
      else t.modFlow f.flow fun x => { x with next := up.foldl min (up.headD 0) * f.segs }) s

/-- The frame of batch `b` (or of the table stages) of stream `n` on a dispatcher. -/
def Disp.frameOf (d : Disp) (n : Nat) (b : Option Nat) : Option Nat :=
  (d.frames.find? fun f => f.2.used && f.2.stream == n && f.2.batch == b).map fun f => f.1

/-- Sets the flags of a mask of group `g` in a frame; each flag that is already 1 is counted (R339). -/
def Disp.setFlags (d : Disp) (frame g mask : Nat) : Disp :=
  let old := (tget ({} : Frame) d.frames frame).flags
  let m := mask * 2 ^ (64 * g)
  { d with frames := tmod {} frame (fun f => { f with flags := Nat.lor f.flags m }) d.frames
           flagDup := sat32 d.flagDup (countBits 64 (Nat.land (old / 2 ^ (64 * g)) mask)) }

/-- A flag set by a pulse or a Weir close in the frame of a batch; a batch without a frame is counted (R339). -/
def State.pulse (s : State) (k n b flag : Nat) : State :=
  if !s.clusterIn k then s
  else s.modDisp k fun d =>
    match d.frameOf n (some b) with
    | some f => d.setFlags f (flag / 64) (2 ^ (flag % 64))
    | none => { d with flagStray := sat32 d.flagStray 1 }

/-- Whether a Millstone runs a layer task (R320). -/
def State.layerRunning (s : State) : Bool :=
  match s.work.graph with
  | none => false
  | some g => (List.range 16).any fun k => s.clusterIn k && (s.disp k).slots.any fun p =>
      p.2.state == .running && !p.2.ended && (g.tpl p.2.tpl).any fun t => t.kind == 2

/-- After a swap, the records of unit queues that belong to another phase stand behind those that may run, and behind one that runs (R53). -/
def Disp.phaseFirst (d : Disp) (g : Graph) (ph : Nat) : Disp :=
  let on := fun i => let r := tget ({} : TaskRec) d.slots i; r.state == .running || g.tplInPhase r.tpl ph
  { d with unitQ := d.unitQ.map fun (p : Nat × List Nat) => (p.1, p.2.filter on ++ p.2.filter fun i => !on i) }

/-- The bytes that a swap saves, and those that it restores: the stores and the register files in service (R54). -/
def State.swapBytes (s : State) : Nat := s.clusterCount * 0x1800000 + s.coreCount * 0x88000

/-- Saves the outgoing graph phase and restores the next one in cyclic order (R53), on reserved DMA channels (R381); Sage images are loaded
again (R252). -/
def State.swapPhase (s : State) (g : Graph) : State :=
  let nxt := (g.phase + 1) % max 1 g.phases
  let s1 := s.modWork fun w =>
    let cur : Saved := { cores := w.cores, engines := w.engines, stores := w.stores, banks := (w.units.map fun (u : Nat × Units) => (u.1, u.2.sage.banks)).filter fun (b : Nat × Tab SageBank) => !b.2.isEmpty }
    let sv := tset {} g.phase cur w.saved
    let inn := tget ({} : Saved) sv nxt
    { w with saved := tset {} nxt {} sv, stores := inn.stores, engines := inn.engines
             cores := (List.range 512).foldl (fun t c =>
               let o := tget ({} : Core) w.cores c
               let n := tget ({} : Core) inn.cores c
               tset {} c { o with store := n.store, h0 := n.h0, h1 := n.h1, next := n.next, ctx := n.ctx } t) []
             units := inn.banks.foldl (fun (t : Tab Units) b => tmod {} b.1 (fun u => { u with sage := { u.sage with banks := b.2 } }) t) w.units
             disps := w.disps.map fun (p : Nat × Disp) => (p.1, p.2.phaseFirst g nxt)
             graph := some { g with phase := nxt, swapDue := none, swapWait := false } }
  ((s1.carried 56 s.swapBytes).carried 56 s.swapBytes).loadBanks g g.variant

/-- A swap whose point has come: at once, or when the running layer tasks have ended (R53, R320). -/
def State.swapPoint (s : State) (g : Graph) : State :=
  if s.layerRunning then s.modWork fun w => { w with graph := some { g with swapDue := none, swapWait := true } } else s.swapPhase g

/-- Arrivals that a participant still owes for the current generation (WEIR_PENDING). -/
def Weir.owes (w : Weir) (r : WeirRec) : List Nat :=
  (setBits 16 r.parts).filter fun k => decide (tget 0 w.arrived k < r.arrivals)

/-- A closed generation: the instance advances to the next one (R351). -/
def Weir.close (w : Weir) (live : List Nat) (released : Nat) : Weir :=
  let w1 := { w with closed := (w.gen :: w.closed).filter fun b => decide (released ≤ b), closes := (w.closes + 1) % 2 ^ 32, arrived := [] }
  ({ w1 with gen := w1.nextGen live } : Weir).takeHeld

/-- Closes a FLAG instance as long as its current generation is complete: FLAG is set on every participant and the
generation advances (R351). `fuel` bounds the closes of one step by the held arrivals. Participants are logical
clusters. -/
def State.weirClose : Nat → State → Nat → WeirRec → State
  | 0, s, _, _ => s
  | fuel + 1, s, i, r =>
    let w := s.weir i
    if r.arrivals != 0 && (w.owes r).isEmpty then
      let cl := s.clusters
      let s1 := (setBits 16 r.parts).foldl (fun t k => match cl[k]? with
        | some p => t.pulse p r.stream w.gen r.flag
        | none => t) s
      let st := s1.stream r.stream
      let s2 := s1.modWeir i fun w => w.close (st.batches.map fun x => x.num) st.released
      let s3 := match s2.work.graph with
        | some g => if g.swapDue == some i then s2.swapPoint g else s2
        | none => s2
      s3.weirClose fuel i r
    else s

/-- An arrival of logical cluster `k` for generation `b` (R352): counted, held and counted in WEIR_HELD, or, for an
earlier generation, without effect. -/
def State.weirArrive (s : State) (i k b : Nat) : State :=
  match s.work.graph with
  | none => s
  | some g =>
    match g.weirRec i with
    | none => s
    | some r =>
      if r.action != 0 then s
      else
        let w := s.weir i
        if b < w.gen || w.closed.contains b then s
        else if w.gen < b then
          (s.modWeir i fun w => { w with heldQ := w.heldQ ++ [(b, k)] }).modWork fun w => { w with weirHeld := sat32 w.weirHeld 1 }
        else
          let s1 := s.modWeir i fun w => { w with arrived := tmod 0 k (· + 1) w.arrived }
          s1.weirClose (1 + w.heldQ.length) i r

/-- Whether any cluster holds a record of stream `n` outside its table-stage frame (R354). -/
def State.holdsRecords (s : State) (n : Nat) : Bool :=
  (List.range 16).any fun k => (s.disp k).slots.any fun x => x.2.stream == n && x.2.batch.isSome

/-- The STREAM_END instances of a stream. -/
def Graph.streamEnds (g : Graph) (n : Nat) : List WeirRec := g.tables.weirs.filter fun r => r.action == 1 && r.stream == n

/-- The participants of a STREAM_END instance that hold records of its closing stream outside its table-stage frame (R354). -/
def State.endOwes (s : State) (r : WeirRec) : List Nat :=
  let cl := s.clusters
  (setBits 16 r.parts).filter fun l => (cl[l]?).any fun k => (s.disp k).slots.any fun x => x.2.stream == r.stream && x.2.batch.isSome

/-- Closes the STREAM_END instances of a stream that is closing (R354), once: its table-stage frames are freed. -/
def State.streamEnd (s : State) (n : Nat) : State :=
  match s.work.graph with
  | none => s
  | some g =>
    if (s.stream n).ended then s
    else
      let s1 := (g.streamEnds n).foldl (fun t r => t.modWeir r.inst fun w => { w with closes := (w.closes + 1) % 2 ^ 32 }) s
      ((List.range 16).foldl (fun t k => t.modDisp k fun d => d.freeFrames n fun b => b.isNone) s1).modStream n fun st => { st with ended := true }

/-- The STREAM_END instances of a closing stream close once every participant has arrived (R354). -/
def State.streamEndDue (s : State) (n : Nat) : State :=
  match s.work.graph with
  | none => s
  | some g =>
    let ws := g.streamEnds n
    if (s.stream n).phase == .closing && !ws.isEmpty && ws.all fun r => (s.endOwes r).isEmpty then s.streamEnd n else s

/-- Completes CLOSE_STREAM once its stream holds nothing that has begun (R76, R354). -/
def State.endClose (s : State) (n : Nat) : State :=
  let s := s.streamEndDue n
  let st := s.stream n
  match st.phase, st.closeSeq with
  | .closing, some seq =>
    if st.batches.isEmpty && !s.holdsRecords n then
      (((s.streamEnd n).finish seq stOk st.released).modStream n Stream.shut).keepBuilt
    else s
  | _, _ => s

/-- Closes a stream that a program fault has stopped (R160): its records and frames go, a waiting CLOSE_STREAM finishes. -/
def State.shutStream (s : State) (n : Nat) : State :=
  let st := s.stream n
  let d := (s.discard n false fun _ => true).2.streamEnd n
  let s1 := match st.closeSeq with
    | some seq => if (d.cmd seq).all Cmd.done then d else d.finish seq stOk st.released
    | none => d
  (s1.modStream n Stream.shut).keepBuilt

/-- A stopped stream's outstanding RUNs complete with the status of the stop once the batches below it have been
released; after a program fault the stream becomes closed (R56, R160). -/
def State.endStop (s : State) (n : Nat) : State :=
  let st := s.stream n
  match st.stop with
  | some b =>
    if b ≤ st.released then
      let s1 := st.runs.foldl (fun t r => t.finish r.seq st.stopStatus r.count) s
      let s2 := s1.modStream n fun st => { st with runs := [] }
      if st.stopStatus == stBadDescriptor then s2.shutStream n else s2
    else s
  | none => s

/-- A SYNCING primary whose SYNC_JOIN is acknowledged is PAIRED once every batch below the join of each stream that is not closed is recorded
(R447, R463). -/
def State.pairJoined (s : State) : State :=
  if s.pair.state == .syncing && s.pair.roleNow == 1 && s.pair.readySent && decide (s.pair.joinSeq ≤ s.pair.txAck) &&
      s.pair.joins.all (fun j => decide (j.2 ≤ (s.stream j.1).released) || (s.stream j.1).phase == .closed) then s.setPair .paired
  else s

/-- Everything that a release can let complete: RUNs, stops, closes, FENCE and CANCEL, and the pair's joining. -/
def State.afterRelease (s : State) (n : Nat) : State := (((s.endRuns n).endStop n).endClose n).settle.pairJoined

/-- The end of an opening stream's table stage by a failure: OPEN_STREAM completes with the status, the stream stays closed
(R166). -/
def State.stageFail (s : State) (n fail : Nat) : State :=
  let st := s.stream n
  if st.phase == .opening then
    (((s.discard n false fun _ => true).2.modStream n fun _ => { ({} : Stream) with
      stOrigin := st.stOrigin, stFrom := st.stFrom, armOverrun := st.armOverrun, armOverruns := st.armOverruns }).keepBuilt).finish st.openSeq fail 0
  else s

/-- A fresh batch record. -/
def newBatch (num start due : Nat) : Batch :=
  { num := num, start := start, due := due, insts := 0, begun := false, intake := 0, intakeDone := 0, breach := false
    busError := false, domainOff := false, voids := [], released := 0, recorded := false }

/-- Begun, unreleased batches of stream `n` are discarded everywhere and wait to be instantiated again (R470): records
in any state, frames, Hopper entries, held segments, intake work; Weir generations fall back. A batch whose outputs have all been
released and whose record only waits for its ring keeps them (R88; log entry 80). -/
def State.rerunStream (s : State) (n : Nat) : Nat × State :=
  let st := s.stream n
  let bs := (st.batches.filter fun b => b.begun && !b.recorded).map fun b => b.num
  if bs.isEmpty then (0, s)
  else
    let pick := fun b : Option Nat => match b with | some x => bs.contains x | none => false
    let s1 := (s.discard n false pick).2
    let low := bs.foldl min (bs.headD 0)
    let s2 := s1.modStream n fun st => { st with
      batches := st.batches.map fun b =>
        if bs.contains b.num then { newBatch b.num b.start b.due with begun := b.begun, breach := b.breach, busError := b.busError, domainOff := b.domainOff } else b }
    let g := s2.work.graph
    let s3 := ((g.map fun g => g.streamFlows n).getD []).foldl (fun t f =>
      t.modFlow f.flow fun x => { x with held := x.held.filter fun h => !bs.contains h.batch }) s2
    let s4 := s3.modFlags n fun w => { w with
      gen := min w.gen low, arrived := [], heldQ := w.heldQ.filter fun h => !bs.contains h.1, closed := w.closed.filter fun b => !bs.contains b }
    (bs.length, s4)

/-- Reruns every begun, unreleased batch of the graph and counts them (R470). -/
def State.rerunAll (s : State) : Nat × State :=
  (List.range 64).foldl (fun (a : Nat × State) n => let r := a.2.rerunStream n; (a.1 + r.1, r.2)) (0, s)

/-- Every stream of the graph stops (R56): its outstanding commands complete with the status, an OPEN_STREAM at its table stages and a
CLOSE_STREAM among them; a stream that was closing is closed. -/
def State.stopAll (s : State) (status : Nat) : State :=
  let s1 := (List.range 64).foldl (fun t n =>
    let st := t.stream n
    match st.phase with
    | .closed => t
    | .opening => t.stageFail n status
    | .open_ | .closing =>
      let d := (t.discard n false fun b => b.isSome).2
      let s1 := (d.modStream n fun st => { st with stop := some st.released, stopStatus := status, batches := [] }).endStop n
      match st.closeSeq with
      | some seq => (s1.finish seq status 0).shutStream n
      | none => s1) s
  (s1.cmds.filter fun c => streamOp c.entry.opcode && c.entry.opcode != opOpen && decide (c.phase = .accepted)).foldl
    (fun t c => t.finish c.seq status 0) s1

/-- Flows whose batches have another number of segments in the new variant go on from the first segment of the batch that they had reached (R56,
R332, R355). -/
def State.renumber (s : State) (g h : Graph) : State :=
  (List.range 64).foldl (fun t n => (g.streamFlows n).foldl (fun (t : State) f =>
    match h.flowRec f.flow with
    | none => t
    | some f2 =>
      if f2.segs == f.segs then t
      else t.modFlow f.flow fun x => { x with next := x.next / max 1 f.segs * f2.segs, held := [] }) t) s

/-- The switch of R56 at a beat boundary, or when the layer tasks that run there have ended (R320): the first variant that fits, every stream from its first unreleased batch;
or the streams stop and a notice names the shortfall. -/
def State.switchVariant (s : State) : State :=
  match s.work.graph with
  | none => s
  | some g =>
    if !g.switchDue then s
    else if s.layerRunning then s.modWork fun w => { w with graph := some { g with switchWait := true } }
    else match s.firstFit g with
    | some v =>
      let s1 := (List.range 64).foldl (fun t n =>
        let r := t.rerunStream n
        let d := r.2.discardUnbegun n
        d.2) s
      let h := { g with variant := v, switchDue := false, switchWait := false }
      ((s1.modWork fun w => { w with graph := some h }).renumber g h).loadBanks g v
    | none =>
      let s1 := (s.stopAll stConfigShort).notice stConfigShort (s.shortfall g)
      s1.modWork fun w => { w with graph := some { g with switchDue := false, switchWait := false } }

/-- The end of a layer task: a switch or swap that has waited for it takes place once none runs (R320). -/
def State.layerEnded (s : State) : State :=
  if s.layerRunning then s
  else
    let s1 := if s.work.graph.any fun g => g.switchWait then s.switchVariant else s
    match s1.work.graph with
    | some g => if g.swapWait then s1.swapPhase g else s1
    | none => s1

/-- A removal that leaves the running variant unsatisfied makes a switch due (R56). -/
def State.checkVariant (s : State) : State :=
  match s.work.graph with
  | some g => if s.fits g.cfg then s else s.modWork fun w => { w with graph := some { g with switchDue := true } }
  | none => s

/-- The cluster clock of a step, in MHz. -/
def clockMhz (step : Nat) : Nat := 2400 - 100 * step

/-- PWR_FLOOR: the loaded graph's MIN_CLOCK_MHZ, or 1,200 (R521). -/
def State.floorMhz (s : State) : Nat := (s.work.graph.map fun g => g.minClock).getD 1200

/-- BELOW_FLOOR follows the clock in force (R521). -/
def State.floorCheck (s : State) : State :=
  let low := decide (clockMhz s.pwr.step < s.floorMhz)
  let s1 := s.modPwr fun p => { p with belowFloor := low }
  if low && !s.pwr.belowFloor then s1.postEvent 0x611 else s1

end Sys2Proof.Machine
end

