-- ==== Sys2Proof/Machine/OpsBeat.lean ====
section
/-! DEFINITION. The phase loop: how a delivery of a source is judged and what an accepted beat does (R33 to R45, R50, R53,
R56, R437, R453). -/

namespace Sys2Proof.Machine

/-- A delivery that has passed the frame or record checks: source, number, beat instant, HOLD bit. -/
structure Delivery where
  src  : BeatSrc
  num  : Nat
  at_  : Nat
  hold : Bool
  deriving DecidableEq, Repr

/-- HOLD_BEATS as applied (RLG_BEAT_CFG). -/
def Beat.holds (b : Beat) : Nat := max 1 b.holdBeats

/-- A natural number of ns compared with HOLD_BEATS periods. -/
def Beat.within (b : Beat) (n : Nat) : Bool :=
  if b.pest.num ≤ 0 then decide (n ≤ 10000000000) else decide (((n : Int) : Rat) ≤ (b.holds : Int) * b.pest)

/-- The last beat of a source. -/
def Beat.last (b : Beat) (s : BeatSrc) : Option SrcBeat :=
  match s with
  | .beatIn => b.lastIn
  | .chain => b.lastChain
  | .page => b.lastPage

def Beat.setLast (b : Beat) (s : BeatSrc) (x : SrcBeat) : Beat :=
  match s with
  | .beatIn => { b with lastIn := some x }
  | .chain => { b with lastChain := some x }
  | .page => { b with lastPage := some x }

/-- Whether a source's last accepted beat lies within the window of R38 at instant `t`. -/
def Beat.heard (b : Beat) (s : BeatSrc) (t : Nat) : Bool :=
  match b.last s with
  | some x => b.within (t - x.at_)
  | none => false

/-- The source that automatic selection names at instant `t` (R38). -/
def Beat.selected (b : Beat) (t : Nat) : Option BeatSrc :=
  ([.beatIn, .chain, .page] : List BeatSrc).find? fun s => b.heard s t

/-- The judgement of the loop: spacing (R33) before number (R37). -/
inductive Verdict where
  | accept
  | glitch
  | number
  deriving DecidableEq, Repr

def Beat.judge (b : Beat) (d : Delivery) : Verdict :=
  match b.edge with
  | some e => if d.at_ < e + 50000 then .glitch else if b.lastNum.any fun n => decide (d.num ≤ n) then .number else .accept
  | none => if b.lastNum.any fun n => decide (d.num ≤ n) then .number else .accept

/-- Whether a delivery is judged well against its own source's previous beat (R38). -/
def Beat.ownOk (b : Beat) (d : Delivery) : Bool :=
  match b.last d.src with
  | some x => decide (x.at_ + 50000 ≤ d.at_) && decide (x.num < d.num)
  | none => true

/-- What becomes of a delivery: taken by the loop with a verdict, or dropped without a count. -/
inductive Fate where
  | judged (v : Verdict)
  | dropped
  deriving DecidableEq, Repr

/-- The source and the loop's judgement of a delivery (R33, R38, R39). -/
def Beat.fate (b : Beat) (d : Delivery) : Fate :=
  let code := match d.src with | .beatIn => 0 | .chain => 1 | .page => 2
  if b.srcCfg != 3 then (if b.srcCfg == code then .judged (b.judge d) else .dropped)
  else match b.active with
  | none => .judged (b.judge d)
  | some a =>
    if a = d.src then .judged (b.judge d)
    else if b.ownOk d then
      let b1 := b.setLast d.src { num := d.num, at_ := d.at_ }
      if b1.selected d.at_ = some d.src && b.judge d = .accept then .judged .accept else .dropped
    else .dropped

/-- P_est after an accepted interval (R42, R34). -/
def newPest (p : Rat) (i : Nat) (hold : Bool) : Rat :=
  let x : Rat := ((i : Nat) : Int)
  if hold then p else if x ≤ 2 * p then p + (x - p) / 8 else p

/-- Whether two intervals match for acquisition: they differ by at most 1/64 of the longer. -/
def ivalMatch (a b : Nat) : Bool := decide (64 * (max a b - min a b) ≤ max a b)

/-- The lock state and estimate after an accepted edge of interval `i` processed in state `l` (lock-state table, R33,
R34, R41, R42). An interval that ends LOST or exceeds 10 s is no matching interval (DEDUCED, log entry 83). -/
def edgeLock (l : Lock) (i : Option Nat) (hold : Bool) (prev : Option Nat) (p : Rat) : Lock × Option Nat × Rat :=
  let long := i.any fun x => decide (10000000000 < x)
  match l with
  | .locked => if long then (.acquiring, none, newPest p (i.getD 0) hold) else (.locked, none, newPest p (i.getD 0) hold)
  | .hold => if long then (.acquiring, none, newPest p (i.getD 0) hold) else (.locked, none, newPest p (i.getD 0) hold)
  | .acquiring =>
    match i with
    | none => (.acquiring, none, p)
    | some x =>
      if long || hold then (.acquiring, none, p)
      else if prev.any fun y => ivalMatch y x then (.locked, none, ((x : Nat) : Int))
      else (.acquiring, some x, p)
  | _ => (.acquiring, none, p)

/-- P_cert as a comparison: an interval shorter than P_min (1 - 2^-12) (R49, R50). -/
def breaches (minPeriod i : Nat) : Bool := decide (i * 4096 < minPeriod * 4095)

/-- Posts a breach for an accepted interval while a graph is loaded (R50). -/
def State.breach (s : State) (i : Nat) : State :=
  match s.work.graph with
  | some g =>
    if breaches g.minPeriod i then
      let s1 := (s.modBeat fun b => { b with breach := true, breaches := sat32 b.breaches 1 }).postEvent 0x600
      let s2 := s1.modWork fun w => { w with streams := w.streams.map fun p =>
        (p.1, { p.2 with batches := p.2.batches.map fun b => { b with breach := b.breach || b.begun } }) }
      s2.notice stBeatBreach i
    else s
  | none => s

/-- The frame of BEAT_OUT for a beat (BEAT_IN format). -/
def beatFrame (num : Nat) (hold : Bool) : Nat :=
  let body := leBytes 8 num ++ leBytes 2 (b2n hold)
  0xA5C3 + leNat body * 2 ^ 16 + crc32c body * 2 ^ 96

/-- A new frame on BEAT_OUT, started within 200 ns of the acceptance (R35). -/
def State.beatOutNew (s : State) (d : Delivery) : State :=
  if s.beat.outEn then
    let (r, s1) := s.choose 201
    s1.emit (.beatOut (s.now + r) (beatFrame d.num d.hold) 128)
  else s

/-- The code of a lock state (chapter 02). -/
def lockCode : Lock → Nat
  | .unlocked => 0 | .acquiring => 1 | .locked => 2 | .hold => 3 | .lost => 4 | .mismatch => 5

/-- Graph phases at a beat boundary: with more than one phase, whether a swap point of the variant lies here, and which Weir barrier it
names, is not in the layout, so it is a free choice: none, at the boundary, or at the next close of a FLAG instance (R53; log entry
20). -/
def State.phaseBoundary (s : State) : State :=
  match s.work.graph with
  | some g =>
    if g.phases ≤ 1 then s
    else
      let ws := (g.tables.weirs.filter fun w => w.action == 0).map fun w => w.inst
      let (c, s1) := s.choose (2 + ws.length)
      if c == 1 then s1.swapPoint g
      else match ws[c - 2]? with
        | some i => if 2 ≤ c then s1.modWork fun w => { w with graph := some { g with swapDue := some i } } else s1
        | none => s1
  | none => s

/-- An accepted beat (R33, R34, R37, R38, R41 to R44, R50, R53, R56). -/
def State.acceptBeat (s : State) (d : Delivery) : State :=
  let b := s.beat
  let ival := b.edge.map fun e => d.at_ - e
  let from_ := if b.lock = .mismatch then b.mmFrom else b.lock
  let r := edgeLock from_ ival d.hold b.prevIval b.pest
  let s1 := s.modBeat fun b => { b.setLast d.src { num := d.num, at_ := d.at_ } with
    lastNum := some d.num, edge := some d.at_, posBeat := d.num, posPhase := 0, numRejects := 0
    prevIval := r.2.1, pest := r.2.2, active := some d.src, srcHold := d.hold
    periodMin := match ival with | some i => min b.periodMin i | none => b.periodMin }
  let s2 := s1.setLock r.1
  let s3 := match ival with | some i => s2.breach i | none => s2
  s3.switchVariant.phaseBoundary

/-- A number rejection (R37): counted; the fourth in a row enters MISMATCH. -/
def State.rejectNumber (s : State) : State :=
  let s1 := s.modBeat fun b => { b with reject := sat32 b.reject 1, numRejects := b.numRejects + 1 }
  if 4 ≤ s1.beat.numRejects && s1.beat.lock != .mismatch then
    (s1.modBeat fun b => { b with mmFrom := b.lock, posPhase := phaseNow b s1.now }).setLock .mismatch
  else s1

/-- Whether the module follows the mirrored lock of its primary and ignores its own sources (R46). -/
def State.followsPrimary (s : State) : Bool :=
  s.pair.roleNow == 2 && s.pair.portsUp != 0 && (s.pair.state == .syncing || s.pair.state == .paired || s.pair.state == .suspect)

/-- A delivery is judged and takes effect; answers whether the loop accepted it. -/
def State.deliver (s : State) (d : Delivery) : Bool × State :=
  if s.followsPrimary then (false, s)
  else match s.beat.fate d with
  | .judged .accept => (true, s.acceptBeat d)
  | .judged .glitch => (false, s.modBeat fun b => { b with glitch := sat32 b.glitch 1 })
  | .judged .number => (false, s.rejectNumber)
  | .dropped =>
    (false, s.modBeat fun b => if b.srcCfg == 3 && b.ownOk d then b.setLast d.src { num := d.num, at_ := d.at_ } else b)

/-- A chain token from TYPE, HOPS and payload; HOPS is outside the CHECK (R435). -/
def chainToken (ty hops : Nat) (payload : Bytes) : Bytes :=
  leBytes 1 ty ++ leBytes 1 hops ++ leBytes 1 payload.length ++ payload ++
    leBytes 4 (crc32c (leBytes 1 ty ++ leBytes 1 payload.length ++ payload))

/-- Whether a splice window runs: 20 us from the end of a BEAT token at CHAIN_IN (R441). -/
def State.inWindow (s : State) : Bool := s.chain.window.any fun w => decide (s.now < w + 20000)

/-- The BEAT token of the chain master for a beat from a source other than the chain, sent within 1 us (R437). The master sends none within a
window (R441), and not afterwards either (DESIGN CHOICE, log entry 109). -/
def State.chainBeat (s : State) (d : Delivery) : State :=
  if s.chain.master && s.chain.inserted && !s.chain.conflict && !s.inWindow && d.src != .chain then
    let (r, s1) := s.choose 1001
    let lag := s.now + r - d.at_
    s1.emit (.chain (chainToken 1 1 (leBytes 8 d.num ++ leBytes 4 (s.sec.deviceId % 2 ^ 32) ++ leBytes 2 (b2n d.hold) ++
      leBytes 2 0 ++ leBytes 4 lag)))
  else s

/-- The BEAT message of a primary, with P_est in whole ns (R453). -/
def State.pairBeat (s : State) (d : Delivery) : State :=
  if s.mirrors then
    s.pairSend 6 (leBytes 8 d.num ++ leBytes 4 (s.now - d.at_) ++ leBytes 1 (lockCode s.beat.lock) ++ leBytes 3 0 ++
      leBytes 8 (s.beat.pest.floor.toNat))
  else s

/-- What an accepted beat sends on: the chain's BEAT token and the pair's BEAT message (R437, R453). -/
def State.relayBeat (s : State) (d : Delivery) : State := (s.chainBeat d).pairBeat d

end Sys2Proof.Machine
end

