-- ==== Sys2Proof/Machine/Beat.lean ====
section
/-! DEFINITION. The commands of the beat (chapter 02): frames, the host beat page, holdover, REBASE, source selection. -/

namespace Sys2Proof.Machine

/-- CHECK of a BEAT_IN frame covers bits 16 to 95 (chapter 02). -/
def frameOk (bits : Nat) : Bool :=
  bits % 2 ^ 16 == 0xA5C3 && bitsOf bits 127 96 == crc32c (leBytes 10 (bitsOf bits 95 16))

/-- How many bits of a frame are repeated: all, or up to and with the first bit of SYNC that does not match (R35). -/
def forwardLen (bits : Nat) : Nat :=
  match (List.range 16).find? fun i => bitOf bits i != bitOf 0xA5C3 i with
  | some i => i + 1
  | none => 128

/-- The repeated frame: started 200 ns +- 20 ns after the first transition, the last CHECK bit inverted when the frame
was not accepted (R35). -/
def State.forwardFrame (s : State) (bits t : Nat) (ok : Bool) : State :=
  let (r, s1) := s.choose 41
  let n := forwardLen bits
  let b := bits % 2 ^ 128
  s1.emit (.beatOut (t + 180 + r) (if n == 128 then (if ok then b else withBit b 127 (!bitOf b 127)) else b % 2 ^ n) n)

/-- BEAT_IN_FRAME: 128 bits received, first transition at `t`; judged 10.24 us later (R33 to R35, R37). -/
def execBeatInFrame (bits t : Nat) (s : State) : Host.Outcome State Fault Refusal :=
  let s0 := s.at_ (t + 10240)
  let fwd := s0.beat.outEn && !s0.followsPrimary && s0.beat.active == some .beatIn && (s0.beat.srcCfg == 0 || s0.beat.srcCfg == 3)
  let d : Delivery := { src := .beatIn, num := bitsOf bits 79 16, at_ := t, hold := bitOf bits 80 }
  let r := if frameOk bits then s0.deliver d
    else
      let counts := !s0.followsPrimary && (s0.beat.srcCfg == 0 || (s0.beat.srcCfg == 3 && (s0.beat.active.all fun a => a == .beatIn)))
      (false, if counts then s0.modBeat fun b => { b with reject := sat32 b.reject 1 } else s0)
  let s1 := if fwd then r.2.forwardFrame bits t r.1 else if r.1 then r.2.beatOutNew d else r.2
  .next (if r.1 then s1.relayBeat d else s1)

/-- Whether the host beat page is read: selected or automatic, in D0, address written (R36, R102). -/
def State.pageReadable (s : State) : Bool := (s.beat.srcCfg == 2 || s.beat.srcCfg == 3) && s.inD0 && s.beat.pageSet

/-- BEAT_PAGE_POLL: the line is read once every 1 us, whether or not earlier reads have returned (R36). -/
def execBeatPagePoll (t : Nat) (s : State) : Host.Outcome State Fault Refusal :=
  let s1 := s.at_ t
  .next (if s1.pageReadable && decide (s1.beat.pageNext ≤ s1.now) then
    (s1.modBeat fun b => { b with pageReads := b.pageReads ++ [s1.now], pageNext := s1.now + 1000 }).emit (.busRead s1.beat.page.val.toNat 64)
  else s1)

/-- Whether page deliveries are judged by the loop (R38). -/
def Beat.pageJudged (b : Beat) : Bool := b.srcCfg == 2 || (b.srcCfg == 3 && (b.active.all fun a => a == .page))

/-- A read of the page that verifies nothing: eight in a row are counted once (R546), unless the module ignores its own sources (R46). -/
def Beat.pageFail (ignored : Bool) (b : Beat) : Beat :=
  { b with pageFails := min 9 (b.pageFails + 1)
           reject := if b.pageFails == 7 && b.pageJudged && !ignored then sat32 b.reject 1 else b.reject }

/-- BEAT_PAGE_READ_COMPLETE: the line read at instant `issued` returns, or the read failed (R36, R546). Outside D0 the page delivers no
beat (R36). The beat instant is the instant at which the first read that returned the record was issued, less AGE_NS (DEDUCED, log entry
83). -/
def execBeatPageReadComplete (line : Option Bytes) (issued t : Nat) (s : State) : Host.Outcome State Fault Refusal :=
  let s0 := s.at_ t
  if !s0.beat.pageReads.contains issued then .next s0
  else
    let s1 := s0.modBeat fun b => { b with pageReads := b.pageReads.erase issued }
    if !s1.inD0 then .next s1
    else match line with
    | none => .next (s1.modBeat (Beat.pageFail s1.followsPrimary))
    | some l =>
      if l.length != 64 || fieldAt l 60 4 != crc32c (l.take 60) then .next (s1.modBeat (Beat.pageFail s1.followsPrimary))
      else
        let num := fieldAt l 0 8
        let age := fieldAt l 8 4
        if s1.beat.pageLast == some num then .next (s1.modBeat fun b => { b with pageFails := 0 })
        else
          let s2 := s1.modBeat fun b => { b with pageFails := 0, pageLast := some num }
          if 1000000 < age then
            .next (if s2.beat.pageJudged && !s2.followsPrimary then s2.modBeat fun b => { b with reject := sat32 b.reject 1 } else s2)
          else
            let d : Delivery := { src := .page, num := num, at_ := issued - age, hold := false }
            let r := s2.deliver d
            .next (if r.1 then (r.2.beatOutNew d).relayBeat d else r.2)

/-- BEAT_PHASE_END_HOLD: the phase reaches 0xFFFF in LOCKED without an edge (lock-state table). -/
def execBeatPhaseEndHold (t : Nat) (s : State) : Host.Outcome State Fault Refusal :=
  let s1 := s.at_ t
  .next (if s1.beat.lock == .locked && phaseNow s1.beat s1.now == 0xFFFF then
    (s1.modBeat fun b => { b with posPhase := 0xFFFF }).setLock .hold
  else s1)

/-- BEAT_HOLD_TIMEOUT_LOST: HOLD_BEATS periods have passed since the last accepted edge (lock-state table). -/
def execBeatHoldTimeoutLost (t : Nat) (s : State) : Host.Outcome State Fault Refusal :=
  let s1 := s.at_ t
  let late := match s1.beat.edge with
    | some e => decide ((s1.beat.holds : Int) * s1.beat.pest ≤ (((s1.now - e : Nat) : Int) : Rat))
    | none => false
  .next (if s1.beat.lock == .hold && late then s1.setLock .lost else s1)

/-- Whether any stream is open. One whose OPEN_STREAM still runs its table stages counts (DESIGN CHOICE, log entry 134). -/
def State.anyOpen (s : State) : Bool := s.work.streams.any fun p => p.2.phase != .closed

/-- REBASE: accepted only while no stream is open; the last number is cleared and the loop acquires (R40). -/
def State.rebase (s : State) (m : Nat) : State :=
  if s.anyOpen then s.reject 0x100048 m
  else (s.modBeat fun b => { b with
    posPhase := phaseNow b s.now, lastNum := none, prevIval := none, numRejects := 0
    lastIn := none, lastChain := none, lastPage := none }).setLock .acquiring

def execRebase (m : Master) (s : State) : Host.Outcome State Fault Refusal := .next (s.rebase m.val)

/-- BEAT_SRC_SELECT: a write of RLG_BEAT_CFG.SRC takes effect at once; position and estimate are kept (R39). -/
def execBeatSrcSelect (src : Fin 4) (s : State) : Host.Outcome State Fault Refusal :=
  .next (s.modBeat fun b => { b with srcCfg := src.val })

end Sys2Proof.Machine
end

