-- ==== Sys2Proof/Machine/OpsMem.lean ====
section
/-! DEFINITION. Device addresses (R362 to R364), the HBM interleave (R365), ECC on reads (R366, R367), power domains that a
range touches (R402, R514, R515). -/

namespace Sys2Proof.Machine

/-- The pseudo-channel and the byte within it of a device address (R365). -/
def hbmPlace (svc : Nat) (a : Nat) : Nat × Nat :=
  let g := a / 4096
  let l := setBits 256 svc
  let n := l.length
  if n == 256 then ((Nat.xor (Nat.xor g (g / 256)) (g / 65536)) % 256, g / 256 * 4096 + a % 4096)
  else (l[g % n]?.getD 0, g / n * 4096 + a % 4096)

/-- The stack (HBM controller) of a device address. -/
def State.stackOf (s : State) (a : Nat) : Nat := (hbmPlace s.present.pchans a).1 % 8

/-- The pieces of a range that lie in one granule each: address and length. -/
def granules : Nat → Nat → Nat → List (Nat × Nat)
  | 0, _, _ => []
  | fuel + 1, a, n =>
    if n = 0 then []
    else
      let x := min n (4096 - a % 4096)
      (a, x) :: granules fuel (a + x) (n - x)

/-- Pieces of a range (at most one more than its granules). -/
def pieces (a n : Nat) : List (Nat × Nat) := granules (n / 4096 + 2) a n

/-- Counts bytes read or written at the controllers of a range (HBM_RD_BYTES, HBM_WR_BYTES). -/
def State.countHbm (s : State) (wr : Bool) (a n : Nat) : State :=
  (pieces a n).foldl (fun t p => t.modHbmCtl (t.stackOf p.1) fun c =>
    if wr then { c with wrBytes := (c.wrBytes + p.2) % 2 ^ 64 } else { c with rdBytes := (c.rdBytes + p.2) % 2 ^ 64 }) s

/-- What a device-address range names (R362 to R364). -/
inductive DevTarget where
  | hbm
  | store (k : Nat)
  | core (c : Nat)
  deriving DecidableEq, Repr

/-- The target that holds a whole device-address range, and the offset in it; none where it is unmapped or spans two. -/
def State.devTarget (s : State) (a n : Nat) : Option (DevTarget × Nat) :=
  if a < 0x004800000000 then (if s.hbmOk a n then some (.hbm, a) else none)
  else if a < 0x010000000000 then none
  else
    let w := a - 0x010000000000
    let k := w / 0x04000000
    let o := w % 0x04000000
    if 16 ≤ k || !s.clusterIn k then none
    else if o < 0x01800000 then (if o + n ≤ 0x01800000 then some (.store k, o) else none)
    else if o < 0x02000000 then none
    else
      let c := (o - 0x02000000) / 0x80000
      let x := (o - 0x02000000) % 0x80000
      if c < 32 && x + n ≤ 0x60000 && s.coreIn (32 * k + c) then some (.core (32 * k + c), x) else none

/-- ECC of the marked words that `p` picks, as their reads find it: single-bit errors are corrected in place and counted; an uncorrectable
word is counted, recorded and reported. Answers whether any is poisoned (R366). -/
def State.eccWords (s : State) (p : Nat → Bool) : Bool × State :=
  (s.mem.ecc.filter fun w => p w.1).foldl (fun (r : Bool × State) w =>
    let c := r.2.stackOf (w.1 * 8)
    match w.2 with
    | .single => (r.1, (r.2.modMem fun m => { m with ecc := tset .good w.1 .good m.ecc }).modHbmCtl c fun x => { x with corr := sat32 x.corr 1 })
    | .poisoned =>
      let t := r.2.modHbmCtl c fun x => { x with uncorr := sat32 x.uncorr 1, errAddr := w.1 * 8 }
      (true, t.detectError 10 (hbmPlace t.present.pchans (w.1 * 8)).1 1 (w.1 * 8) false)
    | .good => r) (false, s)

/-- Whether a word meets a byte range. -/
def wordMeets (a n w : Nat) : Bool := decide (w * 8 < a + n) && decide (a < w * 8 + 8)

/-- ECC on an HBM read of a range (R366). -/
def State.eccRead (s : State) (a n : Nat) : Bool × State := s.eccWords (wordMeets a n)

/-- A write to HBM: a word that it fills only in part is read, modified and written (R366, R368). -/
def State.hbmWrite (s : State) (a : Nat) (bs : Bytes) : State :=
  let n := bs.length
  let s1 := (s.eccWords fun w => wordMeets a n w && !(decide (a ≤ 8 * w) && decide (8 * w + 8 ≤ a + n))).2
  (s1.modMem fun m => m.writeHbm a bs).countHbm true a n

/-- Writes bytes to a space. -/
def State.writeSpace (s : State) (sp : Space) (a : Nat) (bs : Bytes) : State :=
  match sp with
  | .bus => s.busWrite a bs
  | .hbm => s.hbmWrite a bs

/-- Whether a range of HBM holds a poisoned word. -/
def State.poisonAt (s : State) (a n : Nat) : Bool := s.mem.ecc.any fun w => w.2 == .poisoned && wordMeets a n w.1

/-- Reads a device-address range: its bytes, and whether they are poisoned. -/
def State.devRead (s : State) (a n : Nat) : Bytes × Bool × State :=
  match s.devTarget a n with
  | some (.hbm, x) => let r := s.eccRead x n; (readBytes s.mem.hbm x n, r.1, r.2.countHbm false x n)
  | some (.store k, x) => (readBytes (s.cstore k) x n, false, s)
  | some (.core c, x) => (readBytes (s.core c).store x n, false, s)
  | none => ([], false, s)

/-- Writes bytes at an offset of a target. -/
def State.putTarget (s : State) (t : DevTarget) (x : Nat) (bs : Bytes) : State :=
  match t with
  | .hbm => s.hbmWrite x bs
  | .store k => s.modStore k fun m => writeBytes m x bs
  | .core c => s.modCore c fun k => { k with store := writeBytes k.store x bs }

/-- Writes a device-address range. -/
def State.devWrite (s : State) (a : Nat) (bs : Bytes) : State :=
  match s.devTarget a bs.length with
  | some (t, x) => s.putTarget t x bs
  | none => s

/-- The 8 KiB DRAM row of a device address, by pseudo-channel and number (R469). -/
def State.rowOf (s : State) (a : Nat) : Nat × Nat :=
  let p := hbmPlace s.present.pchans a
  (p.1, p.2 / 8192)

/-- The address that an error record gives (R487). -/
def State.errAddr (s : State) (num : Nat) : Nat := ((s.err.log.find? fun x => x.num == num).map fun x => x.detail).getD 0

/-- Whether an HBM address waits for a self-test: it lies in the row of a pseudo-channel, or in the stack of a controller, under test (R469). -/
def State.memTested (s : State) (a : Nat) : Bool :=
  match s.err.recovering.head? with
  | some r =>
    !r.decided && ((r.kind == 10 && (s.rowOf a).1 == r.index && s.rowOf a == s.rowOf (s.errAddr r.num)) ||
      (r.kind == 11 && s.stackOf a == r.index))
  | none => false

/-- Whether pieces of memory wait for a self-test (R469). -/
def State.memHeld (s : State) (ps : List (Space × Nat × Nat)) : Bool :=
  !s.err.recovering.isEmpty && ps.any fun p => p.1 == .hbm && (pieces p.2.1 p.2.2).any fun g => s.memTested g.1

/-- Whether a descriptor's next access of `n` bytes at an offset waits for a self-test. -/
def State.devHeld (s : State) (a n : Nat) : Bool := decide (a < 0x004800000000) && s.memHeld [(.hbm, a, n)]

/-- The power domains that a device-address range touches (R402, R514). -/
def State.domainsOf (s : State) (a n : Nat) : List Nat :=
  if a < 0x004800000000 then (pieces a n).map fun p => 26 + s.stackOf p.1
  else if 0x010000000000 ≤ a then [(a - 0x010000000000) / 0x04000000]
  else []

/-- Whether a device-address range touches a stack or a unit whose domain is off (R515). -/
def State.touchesOff (s : State) (a n : Nat) : Bool := (s.domainsOf a n).any s.domOff

/-- Whether the domain of any HBM stack is off (R515). -/
def State.anyStackOff (s : State) : Bool := (List.range 8).any fun i => s.domOff (26 + i)

/-- Reads a bus or HBM range for a unit: none where the bus fails, the range leaves HBM or the data is poisoned. -/
def State.unitRead (s : State) (e : BusEnv) (sp : Space) (a n : Nat) : Option Bytes × State :=
  match sp with
  | .bus => (s.busRead e a n, s)
  | .hbm =>
    if !s.hbmOk a n then (none, s)
    else
      let r := s.eccRead a n
      (if r.1 then none else some (readBytes s.mem.hbm a n), r.2.countHbm false a n)

end Sys2Proof.Machine
end

