-- ==== Sys2Proof/Machine/Slots.lean ====
section
/-! DEFINITION. Columns of tensor slots: the blocked layout (R113, R123 to R125), COL words (R331), and the void rows of a batch (R114,
R117). -/

namespace Sys2Proof.Machine

/-- The units of cluster `k`. -/
def State.units (s : State) (k : Nat) : Units := tget {} s.work.units k
def State.modUnits (s : State) (k : Nat) (f : Units → Units) : State :=
  s.modWork fun w => { w with units := tmod {} k f w.units }
def State.modQuern (s : State) (k : Nat) (f : Quern → Quern) : State := s.modUnits k fun u => { u with quern := f u.quern }
def State.modSorrel (s : State) (k : Nat) (f : Sorrel → Sorrel) : State := s.modUnits k fun u => { u with sorrel := f u.sorrel }
def State.modGth (s : State) (k : Nat) (f : Gth → Gth) : State := s.modUnits k fun u => { u with gth := f u.gth }
def State.modMls (s : State) (k : Nat) (f : Mls → Mls) : State := s.modUnits k fun u => { u with mls := f u.mls }
def State.modSage (s : State) (k : Nat) (f : Sage → Sage) : State := s.modUnits k fun u => { u with sage := f u.sage }

/-- Bytes per data element of a variable-width column: 1 for STRING and BINARY, the element's for LIST. -/
def varBytes (ty param : Nat) : Nat := if ty == 0x42 then tyBits param / 8 else 1

/-- Bytes of one span of a fixed-width or MX column (R125). -/
def spanBytes (ty : Nat) (nullable : Bool) : Nat :=
  (if nullable then 1024 else 0) + alignUp 1024 (8192 * tyBits ty / 8) + (if isMx ty then 1024 else 0)

/-- `n` bits at bit offset `o` of a little-endian number read from bytes. -/
def bitsAt (rd : Nat → Nat → Option Bytes) (base o n : Nat) : Option Nat :=
  (rd (base + o / 8) ((o % 8 + n + 7) / 8)).map fun bs => leNat bs / 2 ^ (o % 8) % 2 ^ n

/-- Element bits as the block reads and writes them: every nonzero BOOL is true, and is written as 0x01 (R105). -/
def outBits (ty x : Nat) : Nat := if ty == 1 then b2n (x % 256 != 0) else x

/-- The values of the elements of a LIST. -/
def listElems (z : Nat) : Nat → Bytes → List Nat
  | 0, _ => []
  | n + 1, bs => leNat (bs.take z) :: listElems z n (bs.drop z)

/-- The most bytes of a STRING or BINARY value, or elements of a LIST (R112). -/
def varMax (ty : Nat) : Nat := if ty == 0x42 then 65536 else 16777216

/-- Where the scale bytes of an MX span start, from the span's first byte (R125). -/
def scalesAt (ty : Nat) (nullable : Bool) : Nat := (if nullable then 1024 else 0) + alignUp 1024 (8192 * tyBits ty / 8)

/-- Row `r` of a span that starts at `start` (R113, R123 to R125); none where a read fails. A value longer than R112 allows is marked, and
its bytes are not read. -/
def spanCell (rd : Nat → Nat → Option Bytes) (start ty : Nat) (nullable : Bool) (param r : Nat) : Option Cell :=
  let vt := if nullable then 1024 else 0
  (if nullable then bitsAt rd start r 1 else some 1).bind fun v =>
    if isVar ty then
      (if r == 0 then some 0 else bitsAt rd (start + vt) (32 * (r - 1)) 32).bind fun a =>
        (bitsAt rd (start + vt) (32 * r) 32).bind fun b =>
          let z := varBytes ty param
          if v != 0 && decide (varMax ty < b - a) then some { valid := true, long := true }
          else (rd (start + vt + 32768 + a * z) ((b - a) * z)).map fun bs =>
            if v == 0 then {}
            else if ty == 0x42 then { valid := true, elems := (listElems z (b - a) bs).map (outBits param) } else { valid := true, bytes := bs }
    else
      (bitsAt rd (start + vt) (tyBits ty * r) (tyBits ty)).bind fun x =>
        (if isMx ty then (rd (start + scalesAt ty nullable + r / 32) 1).map leNat else some 127).map fun sc =>
          if v == 0 then {} else { valid := true, bits := outBits ty x, scale := sc }

/-- Writes `n` bits of a memory at a bit offset from `base`. -/
def putBits (m : Tab Byte) (base o n v : Nat) : Tab Byte :=
  let a := base + o / 8
  let z := (o % 8 + n + 7) / 8
  let old := readLe m a z
  let keep := old - old / 2 ^ (o % 8) % 2 ^ n * 2 ^ (o % 8)
  writeBytes m a (leBytes z (keep + v % 2 ^ n * 2 ^ (o % 8)))

/-- The code that a NaN or infinite MX element keeps in a block of another scale (R107): its own, or, where its block's scale makes it NaN, the
canonical NaN of its format; none for other elements. -/
def mxCarried (fmt scale code : Nat) : Option Nat :=
  match mxElem fmt code with
  | .fin _ _ _ => if scale == 0xFF && fmt == 0 then some 0x7F else if scale == 0xFF && fmt == 1 then some 0x7E else none
  | _ => some code

/-- The element codes and the scale of an MX block of cells (R108, R114, R150): an invalid cell holds +0; cells of one scale keep their
codes and it, a block without a valid cell has the scale 127, and cells of unequal scales are quantised anew by QMX under RNE, but for codes that
are NaN or infinite, which are carried unchanged (R107; DESIGN CHOICE, log entry 86). -/
def mxBlockOf (ty : Nat) (cs : List Cell) : Nat × List Nat :=
  let live := cs.filter Cell.valid
  let sc := (live.head?.map Cell.scale).getD 127
  if live.all fun c => c.scale == sc then (sc, cs.map fun c => if c.valid then c.bits else 0)
  else
    let carried := cs.map fun c => if c.valid then mxCarried (ty - 0x20) c.scale c.bits else none
    let vs := (cs.zip carried).map fun p => if p.1.valid && p.2.isNone then mxValue (ty - 0x20) p.1.scale p.1.bits else .fin false 0 1
    let q := qmxBlock (ty - 0x20) 0 (fun _ => 0) (vs ++ List.replicate (32 - vs.length) (.fin false 0 1))
    (q.1, (carried.zip q.2.1).map fun p => p.1.getD p.2)

/-- An MX element's code in a block of another scale, where it can stand there unchanged in value: a NaN or infinite code, or one that the
scale represents exactly. -/
def mxRescale (fmt scale code dst : Nat) : Option Nat :=
  match mxCarried fmt scale code with
  | some x => some x
  | none =>
    let v := mxValue fmt scale code
    let x := mxRound fmt 0 0 v dst
    match v, mxValue fmt dst x with
    | .fin a n d, .fin b n' d' => if n * d' == n' * d && (a == b || n == 0) then some x else none
    | _, _ => none

/-- Writes one row of a fixed-width or MX column; an invalid element holds the fill value 0 (R104, R114); a graph
has no field that declares another (DEDUCED, log entry 85). -/
def putCell (m : Tab Byte) (base ty : Nat) (nullable : Bool) (r : Nat) (c : Cell) : Tab Byte :=
  let start := base + r / 8192 * spanBytes ty nullable
  let m1 := if nullable then putBits m start (r % 8192) 1 (b2n c.valid) else m
  putBits m1 (start + if nullable then 1024 else 0) (tyBits ty * (r % 8192)) (tyBits ty) (if c.valid then outBits ty c.bits else 0)

/-- Writes an MX block of a column from row `r`, a multiple of 32: codes, validity bits, scale byte, and with the first block of a span the
padding behind the scale bytes (R125). -/
def putMxBlock (m : Tab Byte) (base ty : Nat) (nullable : Bool) (r : Nat) (cs : List Cell) : Tab Byte :=
  let q := mxBlockOf ty cs
  let m1 := ((cs.zip q.2).zipIdx).foldl (fun m p => putCell m base ty nullable (r + p.2) { p.1.1 with bits := p.1.2 }) m
  let at_ := base + r / 8192 * spanBytes ty nullable + scalesAt ty nullable
  writeBytes (if r % 8192 == 0 then writeBytes m1 (at_ + 256) (List.replicate 768 0#8) else m1) (at_ + r % 8192 / 32) (leBytes 1 q.1)

/-- Number of data elements and data bytes of a variable-width cell. -/
def Cell.len (ty : Nat) (c : Cell) : Nat := if !c.valid then 0 else if ty == 0x42 then c.elems.length else c.bytes.length
def Cell.data (ty param z : Nat) (c : Cell) : Bytes :=
  if !c.valid then [] else if ty == 0x42 then c.elems.flatMap fun x => leBytes z (outBits param x) else c.bytes

/-- Writes one span of a variable-width column, padded with 0x00, and answers where the next one starts (R125). -/
def putVarSpan (m : Tab Byte) (start ty : Nat) (nullable : Bool) (param : Nat) (cells : List Cell) : Tab Byte × Nat :=
  let vt := if nullable then 1024 else 0
  let z := varBytes ty param
  let step := fun (a : Tab Byte × Nat × Nat) (c : Cell) =>
    let m1 := if nullable then putBits a.1 start a.2.2 1 (b2n c.valid) else a.1
    let m2 := writeBytes m1 (start + vt + 32768 + a.2.1 * z) (c.data ty param z)
    (writeBytes m2 (start + vt + 4 * a.2.2) (leBytes 4 (a.2.1 + c.len ty)), a.2.1 + c.len ty, a.2.2 + 1)
  let r := cells.foldl step (m, 0, 0)
  let pad := (List.range (8192 - r.2.2)).foldl (fun m i => writeBytes m (start + vt + 4 * (r.2.2 + i)) (leBytes 4 r.2.1)) r.1
  let used := vt + 32768 + r.2.1 * z
  (writeBytes pad (start + used) (List.replicate (alignUp 1024 used - used) 0#8), alignUp 1024 used + start)

/-- Writes the spans of a variable-width column; answers the span starts. `fuel` counts spans. -/
def putVar : Nat → Tab Byte → Nat → Nat → Bool → Nat → List Cell → Tab Byte × List Nat × Nat
  | 0, m, start, _, _, _, _ => (m, [], start)
  | fuel + 1, m, start, ty, nullable, param, cells =>
    if cells.isEmpty then (m, [], start)
    else
      let p := putVarSpan m start ty nullable param (cells.take 8192)
      let r := putVar fuel p.1 p.2 ty nullable param (cells.drop 8192)
      (r.1, start :: r.2.1, r.2.2)

/-- Writes a whole column from row 0; answers the span starts of a variable-width one and the column's end. -/
def putColumn (m : Tab Byte) (start ty : Nat) (nullable : Bool) (param : Nat) (cells : List Cell) : Tab Byte × List Nat × Nat :=
  if isVar ty then putVar (cells.length / 8192 + 1) m start ty nullable param cells
  else if isMx ty then
    (((groups32 (cells.length / 32 + 1) cells).zipIdx).foldl (fun m p => putMxBlock m start ty nullable (32 * p.2) p.1) m, [],
      start + ceilDiv cells.length 8192 * spanBytes ty nullable)
  else ((cells.zipIdx).foldl (fun m p => putCell m start ty nullable p.2 p.1) m, [], start + ceilDiv cells.length 8192 * spanBytes ty nullable)

/-- A COL word (R331). -/
def parseCol (w : Nat) : ColW :=
  { slot := w % 256, ty := bitsOf w 15 8, nullable := bitOf w 16, last := bitOf w 17, desc := bitOf w 18, tbl := bitOf w 19
    param := bitsOf w 31 24, off := w / 2 ^ 32 }

/-- A count word and its elements (KEY and LIST of R331), and the words that follow. -/
def takeList : List Nat → List Nat × List Nat
  | [] => ([], [])
  | n :: r => (r.take n, r.drop n)
def takeCols (ws : List Nat) : List ColW × List Nat := let r := takeList ws; (r.1.map parseCol, r.2)

/-- The read of a slot column's bytes. -/
def storeRd (m : Tab Byte) (a n : Nat) : Option Bytes := some (readBytes m a n)

/-- The start of span `i` of a variable-width column in a slot: spans follow each other (R125). -/
def varStart (m : Tab Byte) (nullable : Bool) (z : Nat) : Nat → Nat → Nat
  | 0, start => start
  | i + 1, start =>
    let vt := if nullable then 1024 else 0
    varStart m nullable z i (start + alignUp 1024 (vt + 32768 + readLe m (start + vt + 4 * 8191) 4 * z))

/-- Row `r` of a slot column on cluster `k`; a slot without a record reads as null. -/
def State.slotCell (s : State) (k : Nat) (c : ColW) (r : Nat) : Cell :=
  match s.slotRec k c.slot with
  | none => {}
  | some sr =>
    let m := s.cstore k
    let base := sr.off + c.off
    let start := if isVar c.ty then varStart m c.nullable (varBytes c.ty c.param) (r / 8192) base
      else base + r / 8192 * spanBytes c.ty c.nullable
    (spanCell (storeRd m) start c.ty c.nullable c.param (r % 8192)).getD {}

/-- Writes the cells of a slot column: fixed-width rows in place, a variable-width column whole. -/
def State.putSlot (s : State) (k : Nat) (c : ColW) (cells : List Cell) : State :=
  match s.slotRec k c.slot with
  | none => s
  | some sr => s.modStore k fun m => (putColumn m (sr.off + c.off) c.ty c.nullable c.param cells).1

/-- Writes an element with its bits whatever its validity: a padding element of an invalid position keeps its value (R290, R304). -/
def putElem (m : Tab Byte) (base ty : Nat) (nullable : Bool) (r : Nat) (valid : Bool) (bits : Nat) : Tab Byte :=
  let start := base + r / 8192 * spanBytes ty nullable
  let m1 := if nullable then putBits m start (r % 8192) 1 (b2n valid) else m
  putBits m1 (start + if nullable then 1024 else 0) (tyBits ty * (r % 8192)) (tyBits ty) bits

/-- Writes consecutive elements of a slot column from element `at_`. -/
def State.putElems (s : State) (k : Nat) (c : ColW) (at_ : Nat) (xs : List (Bool × Nat)) : State :=
  match s.slotRec k c.slot with
  | none => s
  | some sr => s.modStore k fun m => (xs.zipIdx).foldl (fun (m : Tab Byte) (p : (Bool × Nat) × Nat) =>
      putElem m (sr.off + c.off) c.ty c.nullable (at_ + p.2) p.1.1 p.1.2) m

/-- Row-major bytes of a slot column in ROWS form: rows at PITCH after a validity tile where the column is NULLABLE (log entry 54). -/
def State.putRawRow (s : State) (k : Nat) (c : ColW) (pitch i : Nat) (row : Option Bytes) (size : Nat) : State :=
  match s.slotRec k c.slot with
  | none => s
  | some sr =>
    let base := sr.off + c.off
    s.modStore k fun m =>
      let m1 := if c.nullable then putBits m base i 1 (b2n row.isSome) else m
      writeBytes m1 (base + (if c.nullable then 1024 else 0) + pitch * i) (row.getD (List.replicate size 0#8))

/-- The byte of a slot in which element `i` of a fixed-width or MX column begins. -/
def ColW.byteOf (c : ColW) (i : Nat) : Nat :=
  c.off + i / 8192 * spanBytes c.ty c.nullable + (if c.nullable then 1024 else 0) + tyBits c.ty * (i % 8192) / 8

/-- Marks what has been written to bytes of a slot for a batch, in place of what was marked there (R132, R544). -/
def State.mark (s : State) (n : Nat) (b : Option Nat) (k slot : Nat) (ms : List Mark) : State :=
  match b, s.slotRec k slot with
  | some b, some sr =>
    if ms.isEmpty then s
    else
      let new := ms.map fun m => { m with at_ := sr.off + m.at_ }
      s.modBatch n b fun x => { x with
        marks := new.map (fun m => (k, m)) ++ x.marks.filter fun o => o.1 != k || !(new.any fun m => decide (m.at_ < o.2.at_ + o.2.len) && decide (o.2.at_ < m.at_ + m.len)) }
  | _, _ => s

/-- The marks of the cells of a column's rows; a variable-width column forms no output region (R116). -/
def cellMarks (c : ColW) (rows : List (Nat × Cell)) : List Mark :=
  if isVar c.ty then [] else rows.map fun r => { at_ := c.byteOf r.1, len := max 1 (tyBits c.ty / 8), valid := r.2.valid, pad := false }

/-- Writes raw bytes of a tensor slot, as far as they lie within it. -/
def State.putRegion (s : State) (k slot off : Nat) (bs : Bytes) : State :=
  match s.slotRec k slot with
  | none => s
  | some sr => s.modStore k fun m => writeBytes m (sr.off + off) (bs.take (sr.len - off))

/-- The void reason of a row slot of a batch, or none in a table stage. -/
def State.voidOf (s : State) (n : Nat) (b : Option Nat) (row : Nat) : Nat :=
  match b with
  | some b => (((s.stream n).batch b).map fun x => tget 0 x.voids row).getD 0
  | none => 0

/-- Writes the cells of some rows into a slot column that holds `count` rows from row slot `first`. -/
def State.putRowsIn (s : State) (k : Nat) (c : ColW) (first count : Nat) (rows : List (Nat × Cell)) : State :=
  let mine := rows.filter fun r => decide (first ≤ r.1) && decide (r.1 < first + count)
  if mine.isEmpty then s
  else s.putSlot k c ((List.range count).map fun i =>
    ((mine.find? fun r => r.1 == first + i).map fun r => r.2).getD (s.slotCell k c i))

/-- A row of a batch in one column takes its fill value with validity 0 (R114). -/
def State.voidRow (s : State) (n b row : Nat) (c : ColAt) : State :=
  if row < c.first || c.first + c.count ≤ row then s
  else
    let i := row - c.first
    match c.form with
    | .cells => (s.putRowsIn c.k c.col c.first c.count [(row, {})]).mark n (some b) c.k c.col.slot (cellMarks c.col [(i, {})])
    | .rows p z => (s.putRawRow c.k c.col p i none z).mark n (some b) c.k c.col.slot
        [{ at_ := c.col.off + (if c.col.nullable then 1024 else 0) + p * i, len := z, valid := false, pad := false }]
    | .elems m v => (s.putElems c.k c.col (m * i) (List.replicate m (false, v))).mark n (some b) c.k c.col.slot
        [{ at_ := c.col.byteOf (m * i), len := tyBits c.col.ty * m / 8, valid := false, pad := false }]

/-- Notes slot columns that hold rows of a batch; rows of it that are void already take their fill there (R114). -/
def State.noteCols (s : State) (n b : Nat) (cs : List ColAt) : State :=
  let x := (s.stream n).batch b
  let new := cs.filter fun c => !(x.any fun y => y.cols.contains c)
  if new.isEmpty then s
  else
    let voids := (x.map fun y => y.voids.map fun v => v.1).getD []
    new.foldl (fun t c => voids.foldl (fun t r => t.voidRow n b r c) t) (s.modBatch n b fun y => { y with cols := y.cols ++ new })

/-- Makes a row void; its first reason is kept (R117), and every column written of it takes its fill value with validity 0 (R114). -/
def State.markVoid (s : State) (n b row reason : Nat) : State :=
  if s.voidOf n (some b) row != 0 then s
  else
    let cols := (((s.stream n).batch b).map fun x => x.cols).getD []
    cols.foldl (fun t c => t.voidRow n b row c) (s.modBatch n b fun x => { x with voids := tset 0 row reason x.voids })

end Sys2Proof.Machine
end

