-- ==== Sys2Proof/Machine/Layout.lean ====
section
/-! DEFINITION. Output slots: the regions that the output descriptors place (R113 to R116, R544), what a segment's bytes become when it is
released, and data and padding (R130 to R132). -/

namespace Sys2Proof.Machine

/-- An output descriptor (R116). -/
structure OutRec where
  stream : Nat
  kind : Nat
  ty : Nat
  rank : Nat
  off : Nat
  pitch : Nat
  dims : List Nat
  ref : Nat
  deriving DecidableEq, Repr

def parseOut (b : Bytes) : OutRec :=
  { stream := fieldAt b 0 1, kind := fieldAt b 1 1, ty := fieldAt b 2 1, rank := fieldAt b 3 1, off := fieldAt b 8 8, pitch := fieldAt b 16 8
    dims := (List.range 4).map fun i => fieldAt b (24 + 4 * i) 4, ref := fieldAt b 40 2 }

def Graph.outs (g : Graph) : List OutRec := (recs (g.sect 9) 16 64 (fieldAt (g.sect 9) 0 4)).map parseOut

/-- The output records of a stream, each with the tensor that its REF names. -/
def Graph.streamOuts (g : Graph) (n : Nat) : List (OutRec × OutRec) :=
  (g.outs.filter fun r => r.stream == n).map fun r => (r, (g.outs[r.ref]?).getD r)

/-- The product of a tensor's dimensions but the innermost, and the innermost. -/
def OutRec.shape (r : OutRec) : Nat × Nat :=
  let ds := r.dims.take r.rank
  ((ds.take (r.rank - 1)).foldl (· * ·) 1, ds.getLastD 1)

/-- The bytes of one row of a region (R109, R110, R116); `t` is the tensor that REF names. -/
def OutRec.rowBytes (r t : OutRec) : Nat :=
  match r.kind with
  | 0 => let x := r.shape; x.1 * (if isMx r.ty then alignUp 32 x.2 else x.2) * tyBits r.ty / 8
  | 1 => 1
  | _ => let x := t.shape; x.1 * ceilDiv x.2 32

/-- A region's byte strings in an output slot over a batch of `rows`: start, pitch, bytes and count; a VALIDITY region is one bitmap (R113). -/
def OutRec.region (r t : OutRec) (rows : Nat) : Nat × Nat × Nat × Nat :=
  if r.kind == 2 then (r.off, 0, alignUp 64 (ceilDiv rows 8), 1) else (r.off, r.pitch, r.rowBytes t, rows)

/-- A piece of an output slot: its bytes, the bits of its elements, and whether they are data. -/
structure Piece where
  off  : Nat
  len  : Nat
  unit : Nat
  data : Bool
  deriving DecidableEq, Repr

/-- The data elements of a region, and the padding elements of its partial MX blocks and of the end of its bitmap (R110, R113, R116). -/
def OutRec.parts (r t : OutRec) (rows : Nat) : List Piece :=
  if r.kind == 2 then
    let d := ceilDiv rows 8
    [{ off := r.off, len := d, unit := 1, data := true }, { off := r.off + d, len := alignUp 64 d - d, unit := 8, data := false }]
  else (List.range rows).flatMap fun i =>
    let a := r.off + i * r.pitch
    if r.kind == 0 && isMx r.ty then
      let x := r.shape
      let z := alignUp 32 x.2 * tyBits r.ty / 8
      let d := ceilDiv (x.2 * tyBits r.ty) 8
      (List.range x.1).flatMap fun v =>
        [{ off := a + v * z, len := d, unit := tyBits r.ty, data := true }, { off := a + v * z + d, len := z - d, unit := tyBits r.ty, data := false }]
    else [{ off := a, len := r.rowBytes t, unit := if r.kind == 0 then tyBits r.ty else 8, data := true }]

/-- The bytes that two ranges share. -/
def shared (a n b m : Nat) : Nat := min (a + n) (b + m) - max a b

/-- The part of a piece that lies in a range. -/
def Piece.clip (p : Piece) (o n : Nat) : Option Piece :=
  let x := shared p.off p.len o n
  if x == 0 then none else some { p with off := max p.off o, len := x }

/-- What is left of a range without another: start and length of each part. -/
def cutRange (a n : Nat) (x : Nat × Nat) : List (Nat × Nat) :=
  if shared a n x.1 x.2 == 0 then [x]
  else (if x.1 < a then [(x.1, a - x.1)] else []) ++ (if a + n < x.1 + x.2 then [(a + n, x.1 + x.2 - (a + n))] else [])

/-- What is left of a piece without the ranges of others. -/
def Piece.without (p : Piece) (ps : List Piece) : List Piece :=
  (ps.foldl (fun l q => l.flatMap (cutRange q.off q.len)) [(p.off, p.len)]).map fun x => { p with off := x.1, len := x.2 }

/-- The elements of a region, those that were written as padding elements among them (R290, R301): `marks` by byte of the output slot. -/
def OutRec.pieces (r t : OutRec) (rows : Nat) (marks : List Mark) : List Piece :=
  let pads := (marks.filter fun m => m.pad).map fun m => ({ off := m.at_, len := m.len, unit := 8, data := false } : Piece)
  (r.parts t rows).flatMap fun p =>
    if r.kind != 0 || !p.data then [p]
    else p.without pads ++ pads.filterMap fun q => (p.clip q.off q.len).map fun x => { x with data := false }

/-- The layout job of a segment that covers `n` bytes of an output slot from `o`: the data and padding elements of the regions, and padding
where no record covers the slot (R116, R130). -/
def layoutJob (outs : List (OutRec × OutRec)) (rows : Nat) (marks : List Mark) (o n : Nat) : List Piece :=
  let ps := (outs.flatMap fun r => r.1.pieces r.2 rows marks).filterMap fun p => p.clip o n
  ps ++ ({ off := o, len := n, unit := 8, data := false } : Piece).without ps

/-- Element positions at which a padding piece and a data piece meet. -/
def Piece.meets (p q : Piece) : Nat := if p.data == q.data then 0 else ceilDiv (8 * shared p.off p.len q.off q.len) (if p.data then p.unit else q.unit)

/-- What a job leaves at its addresses: data wins over padding (R130), and how many positions that decides (R132). -/
def settleJob (ps : List Piece) : List Piece × Nat :=
  let d := ps.filter fun p => p.data
  let pad := ps.filter fun p => !p.data
  (d ++ pad.flatMap fun p => p.without d, (pad.map fun p => (d.map fun q => p.meets q).sum).sum)

/-- Bytes laid over a segment that starts at byte `o` of the output slot, as far as they fall within it. -/
def patch (o : Nat) (seg : Bytes) (a : Nat) (bs : Bytes) : Bytes :=
  let lo := max a o
  let hi := min (a + bs.length) (o + seg.length)
  if hi ≤ lo then seg else seg.take (lo - o) ++ (bs.drop (lo - a)).take (hi - lo) ++ seg.drop (hi - o)

/-- A byte of the output slot in a segment; 0 outside it. -/
def segByte (o : Nat) (seg : Bytes) (a : Nat) : Nat := if a < o then 0 else (seg.getD (a - o) 0#8).toNat

/-- The void reasons that a segment's own VOID_REASON bytes hold: row slot and reason (R115, R117). -/
def segVoids (outs : List (OutRec × OutRec)) (rows o : Nat) (seg : Bytes) : List (Nat × Nat) :=
  outs.flatMap fun r => if r.1.kind != 1 then [] else
    (List.range rows).filterMap fun i => let x := segByte o seg (r.1.off + i * r.1.pitch); if x == 0 then none else some (i, x)

/-- The bit of a row in a VALIDITY region (R544): 0 for a void row; else whether any element that Millstone, a unit or a lane wrote of it is
valid, or the bit that the graph's program has left in the region (DEDUCED, log entry 87). -/
def rowBit (t : OutRec) (voids : Tab Nat) (valid : List Mark) (own : Bool) (row : Nat) : Bool :=
  let mine := valid.filter fun v => shared (t.off + row * t.pitch) (t.rowBytes t) v.at_ v.len != 0
  tget 0 voids row == 0 && if mine.isEmpty then own else mine.any fun v => v.valid

/-- A region's data bytes that the batch's void rows and validity decide: where they lie, and what they are (R114, R115, R544). -/
def OutRec.settled (r t : OutRec) (rows : Nat) (voids : Tab Nat) (valid : List Mark) (o : Nat) (seg : Bytes) : List (Nat × Bytes) :=
  match r.kind with
  | 1 => (List.range rows).map fun i => (r.off + i * r.pitch, leBytes 1 (tget 0 voids i))
  | 2 => (List.range (ceilDiv rows 8)).map fun j =>
      let raw := segByte o seg (r.off + j)
      (r.off + j, leBytes 1 (((List.range 8).map fun b => if 8 * j + b < rows && rowBit t voids valid (bitOf raw b) (8 * j + b) then 2 ^ b else 0).sum))
  | k => (voids.filter fun v => decide (v.1 < rows)).map fun v => (r.off + v.1 * r.pitch, List.replicate (r.rowBytes t) (if k == 3 then 127#8 else 0#8))

/-- The bytes that a released segment writes (R113 to R116, R130, R544): padding of +0 wherever no record places an element, the elements of its
OUT_SLOT, and the void rows and bitmaps of the batch. -/
def segmentOut (outs : List (OutRec × OutRec)) (rows : Nat) (voids : Tab Nat) (valid : List Mark) (o : Nat) (seg : Bytes) : Bytes :=
  let ps := outs.flatMap fun r => r.1.parts r.2 rows
  let s2 := (ps.filter fun p => p.data).foldl (fun x p => match p.clip o seg.length with
    | some q => patch o x q.off ((seg.drop (q.off - o)).take q.len)
    | none => x) (List.replicate seg.length 0#8)
  outs.foldl (fun x r => (r.1.settled r.2 rows voids valid o seg).foldl (fun x p => patch o x p.1 p.2) x) s2

/-- A range of output memory without another. -/
def Laid.without (l : Laid) (sp : Space) (a n : Nat) : List Laid :=
  if l.space != sp then [l] else (cutRange a n (l.addr, l.len)).map fun x => { l with addr := x.1, len := x.2 }

/-- Positions at which a piece written at `base` meets what an earlier job has laid there (R131, R132). -/
def Laid.meets (l : Laid) (sp : Space) (base : Nat) (p : Piece) : Nat :=
  if l.space != sp || l.data == p.data then 0
  else ceilDiv (8 * shared l.addr l.len (base + p.off) p.len) (if l.data then l.unit else p.unit)

/-- A layout job reaches output memory: overlaps of padding and data are counted, within it and with earlier jobs, and it determines what
stands there (R130 to R132). `base` is the output slot's address. -/
def State.layJob (s : State) (n : Nat) (sp : Space) (base o len : Nat) (ps : List Piece) : State :=
  let j := settleJob ps
  let met := (s.work.trc.laid.map fun l => (j.1.map fun p => l.meets sp base p).sum).sum
  let runs := j.1.map fun p => ({ stream := n, space := sp, addr := base + p.off, len := p.len, unit := p.unit, data := p.data } : Laid)
  (s.modGlb fun g => { g with padOverlap := sat32 g.padOverlap (j.2 + met) }).modWork fun w =>
    { w with trc := { w.trc with laid := runs ++ w.trc.laid.flatMap fun l => l.without sp (base + o) len } }

end Sys2Proof.Machine
end

