-- ==== Sys2Proof/Machine/Approx.lean ====
section
/-! DEFINITION. The approximating words of R144: exact-to-far-below-an-ulp reference values in fixed point, and the
choice of the answered code within the rule's bound. -/

namespace Sys2Proof.Machine

/-- Fraction bits of the fixed-point reference values. -/
def fxBits : Nat := 256
def fxOne : Int := 2 ^ fxBits

/-- Product of two fixed-point numbers, rounded down. -/
def fxMul (a b : Int) : Int := a * b / fxOne

/-- ln 2 in fixed point, by 2 atanh(1/3). -/
def atanhSeries : Nat → Nat → Int → Int → Int → Int
  | 0, _, _, _, acc => acc
  | n + 1, k, z2, p, acc => atanhSeries n (k + 2) z2 (fxMul p z2) (acc + p / (k : Int))

/-- 2 atanh(z) for a fixed-point z with |z| at most 1/3. -/
def fxLogRatio (z : Int) : Int := 2 * atanhSeries 90 1 (fxMul z z) z 0

def fxLn2 : Int := fxLogRatio (fxOne / 3)

/-- Sum of z^k / k! for a fixed-point z with |z| at most 1. -/
def expSeries : Nat → Nat → Int → Int → Int → Int
  | 0, _, _, _, acc => acc
  | n + 1, k, z, p, acc => expSeries n (k + 1) z (fxMul p z / (k : Int)) (acc + p)

/-- The positive fraction E / 2^256 * 2^k close to exp of a fixed-point number, as numerator and denominator. -/
def fxExp (x : Int) : Nat × Nat :=
  let k := x / fxLn2
  let e := expSeries 70 1 (x - k * fxLn2) fxOne 0
  let p := pow2 (k - fxBits)
  (e.toNat * p.1, p.2)

/-- A signed fraction as a fixed-point number, rounded down. -/
def toFx (neg : Bool) (n d : Nat) : Int :=
  let m : Int := ((n * 2 ^ fxBits / d : Nat) : Int)
  if neg then -m else m

/-- A fixed-point number as a sign and a fraction. -/
def ofFx (x : Int) : Bool × Nat × Nat := (decide (x < 0), x.natAbs, 2 ^ fxBits)

/-- ln of a positive fraction, in fixed point. -/
def fxLog (n d : Nat) : Int :=
  let l := floorLog2 n d
  let p := pow2 l
  let m := toFx false (n * p.2) (d * p.1)
  let z := (m - fxOne) * fxOne / (m + fxOne)
  l * fxLn2 + fxLogRatio z

/-- Sum of the alternating series of erf: z is the argument, z2 its square, p = z^(2k+1)/k! so far. -/
def erfSeries : Nat → Nat → Int → Int → Int → Int
  | 0, _, _, _, acc => acc
  | n + 1, k, z2, p, acc => erfSeries n (k + 1) z2 (-(fxMul p z2) / ((k : Int) + 1)) (acc + p / (2 * (k : Int) + 1))

/-- 2 / sqrt(pi) in fixed point, from pi by Machin's formula. -/
def atanInv : Nat → Nat → Int → Int → Int → Int
  | 0, _, _, _, acc => acc
  | n + 1, k, q, p, acc => atanInv n (k + 2) q (-p / q) (acc + p / (k : Int))

def fxPi : Int := 16 * atanInv 120 1 25 (fxOne / 5) 0 - 4 * atanInv 120 1 (239 * 239) (fxOne / 239) 0

def fxTwoOverSqrtPi : Int := ((2 : Int) * fxOne * (2 ^ (fxBits / 2) : Int)) / (isqrt fxPi.toNat : Int)

/-- Whether |n / d| is below 2^-60: there a short polynomial is the reference. -/
def isSmall (n d : Nat) : Bool := decide (n * 2 ^ 60 < d)

/-- Reference value of EXP of a finite value. -/
def refExp (neg : Bool) (n d : Nat) : Bool × Nat × Nat :=
  if n ≥ 2000 * d then (false, if neg then (1, 2 ^ 2600) else (2 ^ 2600, 1))
  else (false, fxExp (toFx neg n d))

/-- Reference value of LOG1P of a finite value above -1. -/
def refLog1p (neg : Bool) (n d : Nat) : Bool × Nat × Nat :=
  if isSmall n d then (neg, n * (if neg then 2 * d + n else 2 * d - n), 2 * d * d)
  else ofFx (fxLog (if neg then d - n else d + n) d)

/-- Reference value of TANH of a finite value. -/
def refTanh (neg : Bool) (n d : Nat) : Bool × Nat × Nat :=
  if isSmall n d then (neg, n, d)
  else
    let e := if n ≥ 200 * d then (2 ^ 400, 1) else fxExp (2 * toFx false n d)
    (neg, e.1 - e.2, e.1 + e.2)

/-- Reference value of SIGM of a finite value. -/
def refSigm (neg : Bool) (n d : Nat) : Bool × Nat × Nat :=
  let e := (refExp neg n d).2
  (false, e.1, e.1 + e.2)

/-- Reference value of ERF of a finite value. -/
def refErf (neg : Bool) (n d : Nat) : Bool × Nat × Nat :=
  if isSmall n d then
    let c := ofFx fxTwoOverSqrtPi
    (neg, n * c.2.1, d * c.2.2)
  else if n ≥ 7 * d then (neg, 2 ^ 70 - 1, 2 ^ 70)
  else
    let x := toFx false n d
    let r := ofFx (fxMul fxTwoOverSqrtPi (erfSeries 260 0 (fxMul x x) x 0))
    (neg, r.2.1, r.2.2)

/-- The approximating words (R144). -/
inductive ApproxOp where
  | exp | log | log1p | tanh | sigm | erf | rsqrt | rcp
  deriving DecidableEq, Repr

/-- The opcode of an approximating word (R157). -/
def ApproxOp.code : ApproxOp → Nat
  | .exp => 0x38 | .log => 0x39 | .log1p => 0x3A | .tanh => 0x3B | .sigm => 0x3C | .erf => 0x3D | .rsqrt => 0x3E
  | .rcp => 0x3F

/-- A special result with its flags, or the reference value of the operand: the table of R144. -/
def approxRef (op : ApproxOp) (x : FVal) : Sum (FVal × Nat) (Bool × Nat × Nat) :=
  match op, x with
  | _, .nan => .inl (.nan, 0)
  | .exp, .inf s => .inl (if s then .fin false 0 1 else .inf false, 0)
  | .exp, .fin s n d => if n == 0 then .inl (.fin false 1 1, 0) else .inr (refExp s n d)
  | .log, .inf s => .inl (if s then (.nan, flagINV) else (.inf false, 0))
  | .log, .fin s n d =>
    if n == 0 then .inl (.inf true, flagDZ)
    else if s then .inl (.nan, flagINV)
    else if n == d then .inl (.fin false 0 1, 0)
    else .inr (ofFx (fxLog n d))
  | .log1p, .inf s => .inl (if s then (.nan, flagINV) else (.inf false, 0))
  | .log1p, .fin s n d =>
    if n == 0 then .inl (.fin s 0 1, 0)
    else if s && n == d then .inl (.inf true, flagDZ)
    else if s && n > d then .inl (.nan, flagINV)
    else .inr (refLog1p s n d)
  | .tanh, .inf s => .inl (.fin s 1 1, 0)
  | .tanh, .fin s n d => if n == 0 then .inl (.fin s 0 1, 0) else .inr (refTanh s n d)
  | .erf, .inf s => .inl (.fin s 1 1, 0)
  | .erf, .fin s n d => if n == 0 then .inl (.fin s 0 1, 0) else .inr (refErf s n d)
  | .sigm, .inf s => .inl (if s then .fin false 0 1 else .fin false 1 1, 0)
  | .sigm, .fin s n d => if n == 0 then .inl (.fin false 1 2, 0) else .inr (refSigm s n d)
  | .rsqrt, .inf s => .inl (if s then (.nan, flagINV) else (.fin false 0 1, 0))
  | .rsqrt, .fin s n d =>
    if n == 0 then .inl (.inf s, flagDZ)
    else if s then .inl (.nan, flagINV)
    else let q := sqrtFrac d n; .inr (false, q.1, q.2)
  | .rcp, .inf s => .inl (.fin s 0 1, 0)
  | .rcp, .fin s n d => if n == 0 then .inl (.inf s, flagDZ) else .inr (s, d, n)

/-- The unit in the last place at a magnitude n / d, as a fraction. -/
def FpFmt.ulp (f : FpFmt) (n d : Nat) : Nat × Nat :=
  pow2 (max (floorLog2 n d) (1 - (f.bias : Int)) - f.mb)

/-- Whether a code lies within `k` ulp of the exact value (R144). -/
def FpFmt.within (f : FpFmt) (k : Nat) (code : Nat) (neg : Bool) (n d : Nat) : Bool :=
  match f.decode code with
  | .fin s m e =>
    let u := f.ulp n d
    let x : Int := (if s then -1 else 1) * ((m * d : Nat) : Int)
    let y : Int := (if neg then -1 else 1) * ((n * e : Nat) : Int)
    decide (code < 2 ^ f.width) && decide ((x - y).natAbs * u.2 ≤ k * u.1 * (d * e))
  | _ => false

/-- The answer of an approximating word: a special result, or the free candidate where it lies within the bound
(1 ulp for 16-bit formats, 2 ulp for the others, R144), or the correctly rounded value. -/
def approxWord (op : ApproxOp) (f : FpFmt) (ty : Nat) (rnd : Nat) (bits : Nat) : Nat × Nat :=
  match approxRef op (f.decode bits) with
  | .inl (v, fl) => ((f.encode rnd v).1, fl)
  | .inr (neg, n, d) =>
    let r := f.round rnd false 0 neg n d
    let k := if f.width == 16 then 1 else 2
    let cand := Config.approx op.code ty bits
    if (f.roundMag rnd neg n d 0).ovf then r
    else if f.within k cand neg n d then
      (cand, if f.decode cand == .fin neg n d || (f.roundMag 0 neg n d 0).inexact == false && cand == r.1 then 0
             else r.2 / flagUF % 2 * flagUF + flagNX)
    else r

end Sys2Proof.Machine
end

