-- ==== Sys2Proof/Machine/Lanes.lean ====
section
/-! DEFINITION. The engine's registers as lanes (R133, R134), the mask rule (R135), the validity rule (R136), and
the lane functions of the operation table (R157) that the words share. -/

namespace Sys2Proof.Machine

/-- Lane `i` of a register at lane width `s`. -/
def laneOf (s : Nat) (r : BitVec 256) (i : Nat) : Nat := r.toNat / 2 ^ (8 * s * i) % 2 ^ (8 * s)

/-- The number whose lanes are the listed values. -/
def joinLanes (s : Nat) : List Nat → Nat
  | [] => 0
  | v :: vs => v % 2 ^ (8 * s) + 2 ^ (8 * s) * joinLanes s vs

/-- The mask whose bits are the listed ones. -/
def joinBits : List Bool → Nat
  | [] => 0
  | b :: bs => b2n b + 2 * joinBits bs

/-- Data register `j`. -/
def Engine.reg (e : Engine) (j : Nat) : BitVec 256 := tget 0 e.v j

/-- Validity bit of lane `i` of register `j`. -/
def Engine.isValid (e : Engine) (j i : Nat) : Bool := bitOf (tget 0 e.valid j).toNat i

/-- Mask register `m`; K0 reads as all ones (R133). -/
def Engine.kreg (e : Engine) (m : Nat) : BitVec 32 := if m == 0 then BitVec.allOnes 32 else tget 0 e.k m

/-- Whether lane `i` is executed under the word's MASK (R135). -/
def Engine.on (e : Engine) (m i : Nat) : Bool := bitOf (e.kreg m).toNat i

/-- Lane `i` of register `j`, or none when it is invalid. -/
def Engine.src (e : Engine) (s j i : Nat) : Option Nat := if e.isValid j i then some (laneOf s (e.reg j) i) else none

/-- Writes a data register and its validity word. -/
def Engine.setReg (e : Engine) (j data valid : Nat) : Engine :=
  { e with v := tset 0 j (BitVec.ofNat 256 data) e.v, valid := tset 0 j (BitVec.ofNat 32 valid) e.valid }

/-- Writes a mask register; writes of K0 are ignored (R133). -/
def Engine.setK (e : Engine) (m bits : Nat) : Engine :=
  if m == 0 then e else { e with k := tset 0 m (BitVec.ofNat 32 bits) e.k }

/-- Raises flags (R142). -/
def Engine.raise (e : Engine) (fl : Nat) : Engine := { e with flags := Nat.lor e.flags fl }

/-- OR of a list of flag words. -/
def orFlags (l : List Nat) : Nat := l.foldl Nat.lor 0

/-- What a word makes of one lane: its value, none when the lane becomes invalid, and the flags it raises. -/
abbrev LaneRes := Option Nat × Nat

/-- A lane's validity and data as a word leaves them: an invalid result holds zero bits (R136). -/
def LaneRes.take (r : LaneRes) : Bool × Nat := (r.1.isSome, r.1.getD 0)

/-- A lane's validity and data as they are. -/
def Engine.lane (e : Engine) (s j i : Nat) : Bool × Nat := (e.isValid j i, laneOf s (e.reg j) i)

/-- Writes every lane of register `j` with a validity and data. -/
def Engine.putLanes (e : Engine) (j s : Nat) (p : Nat → Bool × Nat) : Engine :=
  let lanes := (List.range (32 / s)).map p
  e.setReg j (joinLanes s (lanes.map fun x => x.2)) (joinBits (lanes.map fun x => x.1))

/-- What a lane of VD becomes under the mask (R135): an executed lane takes the result, another keeps its data and validity
or, under MZ, becomes zero and invalid. -/
def Engine.masked (e : Engine) (f : Fields) (s : Nat) (g : Nat → LaneRes) (i : Nat) : Bool × Nat :=
  if e.on f.mask.val i then (g i).take else if f.mz then (false, 0) else e.lane s f.vd.val i

/-- The flags of the executed lanes (R135, R142). -/
def Engine.maskedFlags (e : Engine) (f : Fields) (s : Nat) (g : Nat → LaneRes) : Nat :=
  orFlags ((List.range (32 / s)).map fun i => if e.on f.mask.val i then (g i).2 else 0)

/-- Writes VD lane by lane under the mask (R135, R136). -/
def Engine.writeLanes (e : Engine) (f : Fields) (s : Nat) (g : Nat → LaneRes) : Engine :=
  (e.putLanes f.vd.val s (e.masked f s g)).raise (e.maskedFlags f s g)

/-- Writes the mask register that VD names, lane by lane; bits of lanes not executed keep, or clear under MZ. -/
def Engine.writeMask (e : Engine) (f : Fields) (s : Nat) (g : Nat → Bool) : Engine :=
  let d := f.vd.val % 8
  let bits := (List.range (32 / s)).map fun i =>
    if e.on f.mask.val i then g i else !f.mz && bitOf (tget 0 e.k d).toNat i
  e.setK d (joinBits bits)

/-- Writes lane 0 of VD alone, under the mask; the other lanes keep, but for masked-off ones under MZ (R135). -/
def Engine.writeLane0 (e : Engine) (f : Fields) (s : Nat) (r : LaneRes) : Engine :=
  (e.putLanes f.vd.val s fun i =>
    if i == 0 then e.masked f s (fun _ => r) 0 else if !e.on f.mask.val i && f.mz then (false, 0) else e.lane s f.vd.val i).raise
    (if e.on f.mask.val 0 then r.2 else 0)

/-- Writes lane 0 of VD and makes every other lane zero and invalid (R158). -/
def Engine.reduceTo (e : Engine) (f : Fields) (s : Nat) (r : LaneRes) : Engine :=
  (e.setReg f.vd.val (joinLanes s [r.1.getD 0]) (b2n r.1.isSome)).raise r.2

/-- A unary lane function on VA. -/
def Engine.map1 (e : Engine) (f : Fields) (s : Nat) (op : Nat → LaneRes) : Engine :=
  e.writeLanes f s fun i => match e.src s f.va.val i with
    | some a => op a
    | none => (none, 0)

/-- A binary lane function on VA and VB. -/
def Engine.map2 (e : Engine) (f : Fields) (s : Nat) (op : Nat → Nat → LaneRes) : Engine :=
  e.writeLanes f s fun i => match e.src s f.va.val i, e.src s f.vb.val i with
    | some a, some b => op a b
    | _, _ => (none, 0)

/-- A ternary lane function on VA, VB and VC. -/
def Engine.map3 (e : Engine) (f : Fields) (s : Nat) (op : Nat → Nat → Nat → LaneRes) : Engine :=
  e.writeLanes f s fun i => match e.src s f.va.val i, e.src s f.vb.val i, e.src s f.vc.val i with
    | some a, some b, some c => op a b c
    | _, _, _ => (none, 0)

/-- Runs a word body on the word's TYPE; a TYPE that names no fixed-width type leaves the registers as they are
(R155 keeps such words out of a loaded program). -/
def withTy (f : Fields) (e : Engine) (g : LTy → Engine) : Engine :=
  match laneTy f.ty.val with
  | some t => g t
  | none => e

/-- Integer lane results as a lane result. -/
def okInt (r : Nat × Nat) : LaneRes := (some r.1, r.2)

/-- A floating-point result rounded by the word's mode. -/
def okFlt (fm : FpFmt) (f : Fields) (r : FVal × Nat) : LaneRes :=
  let q := fm.encode f.rnd.val r.1
  (some q.1, Nat.lor q.2 r.2)

/-- An exact result in an integer type or DEC64: wrapped or clamped, or by the range rule of DEC64 (R145, R148). -/
def okExact (t : LTy) (sat : Bool) (x : Int) : LaneRes :=
  match t.kind with
  | .dec => fitDec sat x
  | _ => okInt (fitInt t sat x)

/-- A result that is one of its operands: DEC64 keeps it only within its range (R148). -/
def okPick (t : LTy) (f : Fields) (a : Nat) : LaneRes :=
  match t.kind with
  | .dec => fitDec f.sat (laneInt t a)
  | _ => (some a, 0)

/-- ADD and SUB of one lane (R143, R145, R148): `neg` subtracts. -/
def laneAdd (t : LTy) (f : Fields) (neg : Bool) (a b : Nat) : LaneRes :=
  match t.kind with
  | .flt fm => okFlt fm f (fAdd f.rnd.val (fm.decode a) (if neg then (fm.decode b).negate else fm.decode b))
  | _ => okExact t f.sat (if neg then laneInt t a - laneInt t b else laneInt t a + laneInt t b)

/-- DEC64 product or quotient rounded to an integer by RND, with NX (R148). -/
def decRound (f : Fields) (neg : Bool) (n d : Nat) : LaneRes :=
  let r := fitDec f.sat (roundInt f.rnd.val neg n d)
  (r.1, Nat.lor r.2 (if r.1.isSome && n % d != 0 then flagNX else 0))

/-- MUL of one lane (R143, R145, R148). -/
def laneMul (t : LTy) (f : Fields) (a b : Nat) : LaneRes :=
  match t.kind with
  | .flt fm => okFlt fm f (fMul (fm.decode a) (fm.decode b))
  | .dec =>
    let x := laneInt t a * laneInt t b
    decRound f (decide (x < 0)) x.natAbs (10 ^ f.imm.val)
  | _ => okInt (fitInt t f.sat (laneInt t a * laneInt t b))

/-- MULH of one lane: the upper half of the exact product (R145). -/
def laneMulh (t : LTy) (a b : Nat) : LaneRes :=
  (some (wrapN (8 * t.size) (laneInt t a * laneInt t b / 2 ^ (8 * t.size))), 0)

/-- FMA of one lane: one rounding (R143). -/
def laneFma (t : LTy) (f : Fields) (a b c : Nat) : LaneRes :=
  match t.kind with
  | .flt fm =>
    let p := fMul (fm.decode a) (fm.decode b)
    let z := if f.sub.val % 2 == 1 then (fm.decode c).negate else fm.decode c
    let q := fAdd f.rnd.val p.1 z
    okFlt fm f (q.1, Nat.lor p.2 q.2)
  | _ => (some 0, 0)

/-- Truncating quotient of two integers. -/
def divTrunc (a b : Int) : Int := a.tdiv b

/-- Floor quotient of two integers. -/
def divFloor (a b : Int) : Int := a.fdiv b

/-- The integer division words of one lane (R146): `q` is the quotient used, `rem` asks for the remainder. -/
def laneDivInt (t : LTy) (f : Fields) (q : Int → Int → Int) (rem : Bool) (a b : Nat) : LaneRes :=
  let x := laneInt t a
  let y := laneInt t b
  if y == 0 then (none, flagDZ)
  else if t.kind.signed && x == tyMin t && y == -1 then
    (if rem then (some 0, 0)
     else if f.sat then (some (wrapN (8 * t.size) (tyMax t)), flagSAT)
     else (some (wrapN (8 * t.size) (tyMin t)), flagOF))
  else (some (wrapN (8 * t.size) (if rem then x - y * q x y else q x y)), 0)

/-- DIV of one lane (R146, R148, R143). -/
def laneDiv (t : LTy) (f : Fields) (a b : Nat) : LaneRes :=
  match t.kind with
  | .flt fm => okFlt fm f (fDiv (fm.decode a) (fm.decode b))
  | .dec =>
    let x := laneInt t a
    let y := laneInt t b
    if y == 0 then (none, flagDZ)
    else decRound f (decide (x < 0) != decide (y < 0)) (x.natAbs * 10 ^ f.imm.val) y.natAbs
  | _ => laneDivInt t f divTrunc false a b

/-- MIN or MAX of one lane (R143): `hi` asks for the larger. -/
def laneMinMax (t : LTy) (hi : Bool) (a b : Nat) : Nat :=
  match t.kind with
  | .flt fm =>
    let x := fm.decode a
    let y := fm.decode b
    if x == .nan then (if y == .nan then fm.nanCode else b)
    else if y == .nan then a
    else if x.isZero && y.isZero then
      (if hi then (if x.neg then b else a) else (if x.neg then a else b))
    else if fLt x y then (if hi then b else a) else (if hi then a else b)
  | _ => if laneInt t a < laneInt t b then (if hi then b else a) else (if hi then a else b)

/-- ABS of one lane (R143, R145, R148). -/
def laneAbs (t : LTy) (f : Fields) (a : Nat) : LaneRes :=
  match t.kind with
  | .flt fm => (some (a % fm.signBit), 0)
  | _ => okExact t f.sat (laneInt t a).natAbs

/-- NEG of one lane (R143, R145, R148). -/
def laneNeg (t : LTy) (f : Fields) (a : Nat) : LaneRes :=
  match t.kind with
  | .flt fm => (some (Nat.xor a fm.signBit), 0)
  | _ => okExact t f.sat (-(laneInt t a))

/-- SQRT of one lane (R143). -/
def laneSqrt (t : LTy) (f : Fields) (a : Nat) : LaneRes :=
  match t.kind with
  | .flt fm => okFlt fm f (fSqrt (fm.decode a))
  | _ => (some 0, 0)

/-- An approximating word of one lane (R144). -/
def laneApprox (op : ApproxOp) (t : LTy) (f : Fields) (a : Nat) : LaneRes :=
  match t.kind with
  | .flt fm => let r := approxWord op fm f.ty.val f.rnd.val a; (some r.1, r.2)
  | _ => (some 0, 0)

/-- MOVI: the immediate as a lane of the type (R157); an infinity is E4M3's NaN by its sign (R149). An immediate that the
type cannot hold exactly gives an unstated value of the type (log entry 116). -/
def laneImm (t : LTy) (imm : Nat) : Nat :=
  match t.kind with
  | .flt fm =>
    (match fp16.decode imm with
    | .inf neg => if fm.inf then fm.infCode neg else (if neg then fm.signBit else 0) + fm.nanCode
    | v =>
      let q := fm.encode 0 v
      if q.2 == 0 then q.1 else Config.unstated 12 fm.nanCode imm % 2 ^ (8 * t.size))
  | .bool => if imm < 2 then imm else Config.unstated 12 0 imm % 2
  | .uint => if imm < 2 ^ (8 * t.size) then imm else Config.unstated 12 1 imm % 2 ^ (8 * t.size)
  | _ =>
    let v := sInt 16 imm
    if t.size == 1 && (decide (v < -128) || decide (127 < v)) then Config.unstated 12 2 imm % 256 else wrapN (8 * t.size) v

/-- CMP of one lane under a condition (R143, R157). -/
def laneCmp (t : LTy) (cond : Nat) (a b : Nat) : Bool :=
  match t.kind with
  | .flt fm =>
    let x := fm.decode a
    let y := fm.decode b
    let un := x == .nan || y == .nan
    match cond with
    | 0 => fEq x y
    | 1 => un || !(fEq x y)
    | 2 => !un && fLt x y
    | 3 => !un && !(fLt y x)
    | 4 => !un && fLt y x
    | _ => !un && !(fLt x y)
  | _ =>
    let x := laneInt t a
    let y := laneInt t b
    match cond with
    | 0 => x == y
    | 1 => x != y
    | 2 => decide (x < y)
    | 3 => decide (x ≤ y)
    | 4 => decide (y < x)
    | _ => decide (y ≤ x)

/-- The class bit of a floating-point lane (R157): 0 to 8. -/
def laneClass (fm : FpFmt) (a : Nat) : Nat :=
  match fm.decode a with
  | .nan => 8
  | .inf neg => if neg then 0 else 7
  | .fin neg n _ =>
    if n == 0 then (if neg then 3 else 4)
    else
      let sub := bitsOf a (fm.eb + fm.mb - 1) fm.mb == 0
      match neg, sub with
      | true, false => 1
      | true, true => 2
      | false, true => 5
      | false, false => 6

/-- The operand of a bitwise word: BOOL operands are first read as 0 or 1 (R147). -/
def bitOperand (t : LTy) (a : Nat) : Nat := if t.kind == .bool then b2n (a != 0) else a

/-- NOT within the lane width; on BOOL the result is 0 or 1 (R105, R147). -/
def laneNot (t : LTy) (a : Nat) : Nat :=
  if t.kind == .bool then 1 - bitOperand t a else 2 ^ (8 * t.size) - 1 - a

/-- The shift count of a lane (R147). -/
def shiftCount (t : LTy) (f : Fields) (b : Nat) : Nat :=
  (if f.sub.val % 2 == 1 then f.imm.val % 64 else b) % (8 * t.size)

/-- Shift words of one lane by a count: 0 SHL, 1 SHR, 2 SAR, 3 ROTL. -/
def laneShift (t : LTy) (op : Nat) (a c : Nat) : Nat :=
  let n := 8 * t.size
  match op with
  | 0 => a * 2 ^ c % 2 ^ n
  | 1 => a / 2 ^ c
  | 2 => wrapN n (sInt n a / 2 ^ c)
  | _ => (a * 2 ^ c + a / 2 ^ (n - c)) % 2 ^ n

/-- A shift word: the count comes from VB or, under SUB bit 0, from the immediate (R147). -/
def Engine.shiftWord (e : Engine) (f : Fields) (op : Nat) : Engine :=
  withTy f e fun t =>
    if f.sub.val % 2 == 1 then e.map1 f t.size fun a => (some (laneShift t op a (shiftCount t f 0)), 0)
    else e.map2 f t.size fun a b => (some (laneShift t op a (shiftCount t f b)), 0)

/-- Population count of a number of `n` bits. -/
def popCount : Nat → Nat → Nat
  | 0, _ => 0
  | n + 1, a => a % 2 + popCount n (a / 2)

/-- Trailing zeros of a number within `n` bits; n for 0. -/
def trailZeros : Nat → Nat → Nat
  | 0, _ => 0
  | n + 1, a => if a % 2 == 1 then 0 else 1 + trailZeros n (a / 2)

/-- Leading zeros of a number of `n` bits; n for 0 (R147). -/
def leadZeros (n a : Nat) : Nat := if a == 0 then n else n - 1 - Nat.log2 a

/-- The contributing lanes of a reduction, valid and unmasked, by lane index (R158). -/
def Engine.contrib (e : Engine) (f : Fields) (s : Nat) : List (Option Nat) :=
  (List.range (32 / s)).map fun i => if e.on f.mask.val i then e.src s f.va.val i else none

/-- One level of the fixed tree of R158: neighbours are combined, a member without a partner passes. -/
def treePairs (g : Nat → Nat → Nat × Nat) : List (Option Nat) → Nat → List (Option Nat) × Nat
  | a :: b :: r, fl =>
    let rest := treePairs g r fl
    match a, b with
    | some x, some y => let q := g x y; (some q.1 :: rest.1, Nat.lor rest.2 q.2)
    | some x, none => (some x :: rest.1, rest.2)
    | none, y => (y :: rest.1, rest.2)
  | [a], fl => ([a], fl)
  | [], fl => ([], fl)

/-- The tree reduction over at most 2^n lanes. -/
def treeReduce (g : Nat → Nat → Nat × Nat) : Nat → List (Option Nat) → Nat → Option Nat × Nat
  | 0, l, fl => (l.headD none, fl)
  | n + 1, l, fl => let q := treePairs g l fl; treeReduce g n q.1 q.2

/-- Sum of two codes of a format, rounded (R158). -/
def addCodes (fm : FpFmt) (rnd : Nat) (a b : Nat) : Nat × Nat :=
  let r := fAdd rnd (fm.decode a) (fm.decode b)
  let q := fm.encode rnd r.1
  (q.1, Nat.lor q.2 r.2)

/-- The type that RSUMW widens to (R157). -/
def widerTy (t : LTy) : Option LTy :=
  match t.kind with
  | .flt fm => if fm == fp16 || fm == bf16 then some ⟨4, .flt fp32⟩ else if fm == fp32 then some ⟨8, .flt fp64⟩ else none
  | .uint => if t.size ≤ 2 then some ⟨4, .uint⟩ else if t.size == 4 then some ⟨8, .uint⟩ else none
  | .sint => if t.size ≤ 2 then some ⟨4, .sint⟩ else if t.size == 4 then some ⟨8, .sint⟩ else none
  | _ => none

/-- The sum of the contributing lanes in a result type (R158). -/
def sumLanes (t r : LTy) (f : Fields) (ls : List (Option Nat)) : LaneRes :=
  match t.kind, r.kind with
  | .flt fm, .flt fr =>
    treeReduce (addCodes fr f.rnd.val) 5 (ls.map fun o => o.map fun a => (fr.encode 0 (fm.decode a)).1) 0
  | _, _ =>
    let vs := ls.filterMap id
    if vs.isEmpty then (none, 0)
    else okExact r f.sat (vs.foldl (fun acc a => acc + laneInt t a) 0)

/-- UTF-8 automaton: continuation bytes owed and the bounds of the next byte; none after a break (R157, UTF8V). -/
def utf8Step (st : Option (Nat × Nat × Nat)) (b : Nat) : Option (Nat × Nat × Nat) :=
  match st with
  | none => none
  | some (0, _, _) =>
    if b < 0x80 then some (0, 0x80, 0xBF)
    else if 0xC2 ≤ b ∧ b ≤ 0xDF then some (1, 0x80, 0xBF)
    else if b = 0xE0 then some (2, 0xA0, 0xBF)
    else if b = 0xED then some (2, 0x80, 0x9F)
    else if 0xE1 ≤ b ∧ b ≤ 0xEF then some (2, 0x80, 0xBF)
    else if b = 0xF0 then some (3, 0x90, 0xBF)
    else if b = 0xF4 then some (3, 0x80, 0x8F)
    else if 0xF1 ≤ b ∧ b ≤ 0xF3 then some (3, 0x80, 0xBF)
    else none
  | some (n + 1, lo, hi) => if lo ≤ b ∧ b ≤ hi then some (n, 0x80, 0xBF) else none

/-- Whether a byte string is valid UTF-8. -/
def utf8Ok (bs : List Nat) : Bool :=
  match bs.foldl utf8Step (some (0, 0x80, 0xBF)) with
  | some (n, _, _) => n == 0
  | none => false

/-- The classes of BCLS (R157). -/
def byteClass (b : Nat) : Nat :=
  (if 0x30 ≤ b ∧ b ≤ 0x39 then 1 else 0) + (if 0x41 ≤ b ∧ b ≤ 0x5A then 2 else 0) + (if 0x61 ≤ b ∧ b ≤ 0x7A then 4 else 0) +
  (if b = 0x20 ∨ (0x09 ≤ b ∧ b ≤ 0x0D) then 8 else 0) + (if 0x80 ≤ b ∧ b ≤ 0xBF then 16 else 0) +
  (if 0xC2 ≤ b ∧ b ≤ 0xF4 then 32 else 0)

/-- xxHash64 round of R157. -/
def xxRound (acc lane : Nat) : Nat :=
  let x := (acc + lane * 0xC2B2AE3D27D4EB4F) % 2 ^ 64
  ((x * 2 ^ 31 + x / 2 ^ 33) % 2 ^ 64) * 0x9E3779B185EBCA87 % 2 ^ 64

/-- Rotation of a 64-bit number to the left. -/
def rotl64 (x n : Nat) : Nat := (x * 2 ^ n + x / 2 ^ (64 - n)) % 2 ^ 64

/-- One SipRound on (v0, v1, v2, v3) (R157). -/
def sipRound (v : List Nat) : List Nat :=
  let v0 := v.getD 0 0
  let v1 := v.getD 1 0
  let v2 := v.getD 2 0
  let v3 := v.getD 3 0
  let a0 := (v0 + v1) % 2 ^ 64
  let a1 := Nat.xor (rotl64 v1 13) a0
  let a0' := rotl64 a0 32
  let a2 := (v2 + v3) % 2 ^ 64
  let a3 := Nat.xor (rotl64 v3 16) a2
  let b0 := (a0' + a3) % 2 ^ 64
  let b3 := Nat.xor (rotl64 a3 21) b0
  let b2 := (a2 + a1) % 2 ^ 64
  let b1 := Nat.xor (rotl64 a1 17) b2
  [b0, b1, rotl64 b2 32, b3]

end Sys2Proof.Machine
end

