-- ==== Sys2Proof/Machine/Operands.lean ====
section
/-! DEFINITION. The operand forms of the stream words: which types a word accepts (R157), the address streams and
their accesses (R151 to R153, R17, R346), and what one issued word does besides its own result (R156, R142). -/

namespace Sys2Proof.Machine

/-- The sets of types that the operation table names (R157). -/
inductive TypeSet where
  | fixed | fixedNotFp8 | int | flt | intFlt | arith | intBool | u8 | u32u64 | u64 | qmx | dqmx | widen | anyTy
  deriving DecidableEq, Repr

/-- Integer types, DATE32 and TS_US included; BOOL is none. -/
def isIntTy (c : Nat) : Bool := (decide (2 ≤ c) && decide (c ≤ 9)) || c == 0x31 || c == 0x32

/-- FP16, BF16, FP32 and FP64. -/
def isFltTy (c : Nat) : Bool := decide (0x10 ≤ c) && decide (c ≤ 0x13)

/-- Whether a type code belongs to a set. -/
def TypeSet.has (s : TypeSet) (c : Nat) : Bool :=
  match s with
  | .fixed => (laneTy c).isSome
  | .fixedNotFp8 => (laneTy c).isSome && c != 0x14 && c != 0x15
  | .int => isIntTy c
  | .flt => isFltTy c
  | .intFlt => isIntTy c || isFltTy c || c == 0x30
  | .arith => isIntTy c || isFltTy c || c == 0x30
  | .intBool => isIntTy c || c == 1
  | .u8 => c == 3
  | .u32u64 => c == 7 || c == 9
  | .u64 => c == 9
  | .qmx => c == 0x10 || c == 0x11 || c == 0x12
  | .dqmx => c == 0x11 || c == 0x12
  | .widen => (isIntTy c && c != 8 && c != 9 && c != 0x32) || c == 0x10 || c == 0x11 || c == 0x12
  | .anyTy => c == 0

/-- Runs a word body where the word's TYPE is one the word accepts; a loaded program holds no other (R155). -/
def forTypes (ts : TypeSet) (f : Fields) (e : Engine) (g : LTy → Engine) : Engine :=
  if ts.has f.ty.val then withTy f e g else e

/-- A word without a type (control and mask words). -/
def noType (_f : Fields) (_e : Engine) (g : Engine) : Engine := g

/-- The core-store address that a program's address reaches: the prefetch window maps to the Hopper buffer of the
running task (R346). -/
def ProgCtx.mapAddr (c : ProgCtx) (a : Nat) : Nat :=
  if c.pfDst ≤ a ∧ a < c.pfDst + c.pfLen then 0x60000 + 0x10000 * c.hop + (a - c.pfDst) else a

/-- Reads or writes one byte of the core store as the running program sees it. -/
def progRead (cx : ProgCtx) (m : Tab Byte) (a : Nat) : Nat := (readByte m (cx.mapAddr a)).toNat
def progWrite (cx : ProgCtx) (m : Tab Byte) (a v : Nat) : Tab Byte := writeByte m (cx.mapAddr a) (BitVec.ofNat 8 v)

/-- The first byte address outside the program's 384 KiB, among the touched ones in lane and byte order (R17, R159; log entry
121). -/
def badAddr (as : List Int) : Option Int := as.find? fun a => decide (a < 0) || decide (a ≥ 0x60000)

/-- `n` consecutive byte addresses. -/
def span (a : Int) (n : Nat) : List Int := (List.range n).map fun i => a + (i : Int)

/-- Stores a little-endian number of `n` bytes. -/
def progStore (cx : ProgCtx) (m : Tab Byte) (a : Nat) : Nat → Nat → Tab Byte
  | 0, _ => m
  | n + 1, v => progStore cx (progWrite cx m a (v % 256)) (a + 1) n (v / 256)

/-- Loads a little-endian number of `n` bytes. -/
def progLoad (cx : ProgCtx) (m : Tab Byte) (a : Nat) : Nat → Nat
  | 0 => 0
  | n + 1 => progRead cx m a + 256 * progLoad cx m (a + 1) n

/-- The cursor of stream `j`, in bits. -/
def Engine.cur (e : Engine) (j : Nat) : Int := tget 0 e.cursor j

/-- Advances the cursor of stream `j` by a number of bits. -/
def Engine.advance (e : Engine) (j : Nat) (bits : Int) : Engine :=
  { e with cursor := tset 0 j (e.cur j + bits) e.cursor }

/-- What an access does: a fault at an address, or the new engine and core store. -/
abbrev Access := Sum Int (Engine × Tab Byte)

/-- LD (R137, R153): VD from its address stream. -/
def loadWord (cx : ProgCtx) (d : StreamDesc) (f : Fields) (t : LTy) (e : Engine) (m : Tab Byte) : Access :=
  let j := f.va.val % 8
  let a := e.cur j / 8
  let s := t.size
  let l := 32 / s
  match d.mode with
  | 1 =>
    let at_ := fun i : Nat => a + (i : Int) * d.stride
    match badAddr ((List.range l).flatMap fun i => span (at_ i) s) with
    | some x => .inl x
    | none =>
      .inr ((e.writeLanes f s fun i => (some (progLoad cx m (at_ i).toNat s), 0)).advance j ((l : Int) * d.stride * 8), m)
  | 3 =>
    let n := d.stride.toNat
    match badAddr (span a n) with
    | some x => .inl x
    | none =>
      let r := BitVec.ofNat 256 (progLoad cx m a.toNat n)
      .inr ((e.writeLanes f s fun i => (some (laneOf s r i), 0)).advance j (d.stride * 8), m)
  | _ =>
    match badAddr (span a 32) with
    | some x => .inl x
    | none =>
      let r := BitVec.ofNat 256 (progLoad cx m a.toNat 32)
      .inr ((e.writeLanes f s fun i => (some (laneOf s r i), 0)).advance j (d.stride * 8), m)

/-- The bytes that a store writes: lane by lane for the executed lanes, an invalid lane as zero bytes (R137); BOOL as 0 or 1 (R105). -/
def storeLane (e : Engine) (f : Fields) (s i : Nat) : Nat :=
  let v := (e.src s f.vd.val i).getD 0
  if f.ty.val == 1 then min 1 v else v

/-- ST (R137, R153): the unmasked lanes of VD to its address stream. -/
def storeWord (cx : ProgCtx) (d : StreamDesc) (f : Fields) (t : LTy) (e : Engine) (m : Tab Byte) : Access :=
  let j := f.va.val % 8
  let a := e.cur j / 8
  let s := t.size
  let l := 32 / s
  let lanes := (List.range l).filter fun i => e.on f.mask.val i
  match d.mode with
  | 1 =>
    let at_ := fun i : Nat => a + (i : Int) * d.stride
    match badAddr (lanes.flatMap fun i => span (at_ i) s) with
    | some x => .inl x
    | none =>
      .inr (e.advance j ((l : Int) * d.stride * 8),
        lanes.foldl (fun m i => progStore cx m (at_ i).toNat s (storeLane e f s i)) m)
  | 3 =>
    let n := d.stride.toNat
    let bytes := (List.range n).filter fun b => e.on f.mask.val (b / s)
    match badAddr (bytes.map fun b => a + ((b : Nat) : Int)) with
    | some x => .inl x
    | none =>
      .inr (e.advance j (d.stride * 8),
        bytes.foldl (fun m b => progWrite cx m (a + ((b : Nat) : Int)).toNat (storeLane e f s (b / s) / 256 ^ (b % s) % 256)) m)
  | _ =>
    match badAddr (lanes.flatMap fun i => span (a + ((i * s : Nat) : Int)) s) with
    | some x => .inl x
    | none =>
      .inr (e.advance j (d.stride * 8),
        lanes.foldl (fun m i => progStore cx m (a + ((i * s : Nat) : Int)).toNat s (storeLane e f s i)) m)

/-- LDV (R137): the validity of VD from a bitmap stream; lanes marked invalid become zero. -/
def loadValid (cx : ProgCtx) (f : Fields) (t : LTy) (e : Engine) (m : Tab Byte) : Access :=
  let j := f.va.val % 8
  let c := e.cur j
  let s := t.size
  let l := 32 / s
  match badAddr ((List.range l).map fun i => (c + (i : Int)) / 8) with
  | some x => .inl x
  | none =>
    let bit := fun i : Nat => bitOf (progRead cx m ((c + (i : Int)) / 8).toNat) ((c + (i : Int)) % 8).toNat
    .inr ((e.writeLanes f s fun i =>
      (if bit i then some (laneOf s (e.reg f.vd.val) i) else none, 0)).advance j (l : Int), m)

/-- STV (R137): the validity bits of the unmasked lanes of VD to a bitmap stream. -/
def storeValid (cx : ProgCtx) (f : Fields) (t : LTy) (e : Engine) (m : Tab Byte) : Access :=
  let j := f.va.val % 8
  let c := e.cur j
  let l := 32 / t.size
  let lanes := (List.range l).filter fun i => e.on f.mask.val i
  match badAddr (lanes.map fun i => (c + ((i : Nat) : Int)) / 8) with
  | some x => .inl x
  | none =>
    .inr (e.advance j (l : Int), lanes.foldl (fun m i =>
      let a := ((c + ((i : Nat) : Int)) / 8).toNat
      progWrite cx m a (withBit (progRead cx m a) ((c + ((i : Nat) : Int)) % 8).toNat (e.isValid f.vd.val i))) m)

/-- The physical number of an engine's core, and of the engine. -/
def coreNo (e : EngineId) : Nat := 32 * e.cluster.val + e.core.val
def engineNo (e : EngineId) : Nat := 32 * coreNo e + e.engine.val

/-- The cursors of a program's streams at the start of a tile (R152). -/
def startCursors (ds : List StreamDesc) (t : Nat) : Tab Int :=
  (ds.zipIdx).foldl (fun c p => tset 0 p.2 (((p.1.base : Int) + (t : Int) * p.1.step) * 8) c) []

/-- The engine after a word: at the end of the body it goes on to its next tile (R152). -/
def nextWord (cx : Option ProgCtx) (e : Engine) (w : Nat) : Engine :=
  let e := { e with issue := e.issue + 1 }
  match cx with
  | none => { e with word := w }
  | some c =>
    if w < c.body.length then { e with word := w }
    else if e.tile + c.engines < c.tiles then
      { e with word := 0, issue := 0, loops := [], tile := e.tile + c.engines
               cursor := startCursors c.descs (e.tile + c.engines) }
    else { e with word := w }

/-- The arithmetic-flag source of a core (R405). -/
def arithSource (c : Nat) : Nat := 0x200 + c

/-- Takes the flags that an engine raised into CORE_ARITH_FLAGS and posts the core's event when an enabled flag
goes from 0 to 1 (R142, chapter 05 registers). -/
def State.coreFlags (s : State) (c fl : Nat) : State :=
  let k := s.core c
  let s1 := s.modCore c fun k => { k with arith := Nat.lor k.arith fl, words := (k.words + 1) % 2 ^ 64 }
  if Nat.land (Nat.land fl (Nat.xor (Nat.lor k.arith fl) k.arith)) k.flagEn != 0 then s1.postEvent (arithSource c) else s1

/-- Whether an engine has begun its tile. -/
def Engine.begunTile (e : Engine) : Bool := e.word != 0 || e.issue != 0

/-- Whether an engine issues a word: no fault has ended the task's tiles before this one (R159), it is the word of the running program that is next on this engine, in program order (R156), and the power
controller does not withhold issue (R28, R520). -/
def State.issues (s : State) (id : EngineId) (op : Nat) (f : Fields) : Bool :=
  let e := s.engine (engineNo id)
  !e.stopped && !s.pwr.gating && s.err.state != 2 && !s.isFenced 1 (coreNo id) && (s.core (coreNo id)).ctx.any fun cx =>
    (cx.tiles != 0 || e.begunTile) && decide (id.engine.val < cx.engines) && cx.body[e.word]? == some (encodeFields op f)

/-- Issues a word whose whole effect lies in the engine's registers (R156). -/
def State.issue (s : State) (op : Nat) (id : EngineId) (f : Fields) (body : Engine → Engine) : State :=
  if !s.issues id op f then s
  else
    let e := s.engine (engineNo id)
    let e1 := body { e with flags := 0 }
    let fl := e1.flags
    let e2 := nextWord (s.core (coreNo id)).ctx { e1 with flags := Nat.lor e.flags fl } (e.word + 1)
    (s.modEngine (engineNo id) fun _ => e2).coreFlags (coreNo id) fl

/-- Stops the streams of the graph after a program fault of a task of stream `st`, batch `b` (R160). -/
def State.stopStreams (s : State) (st b status : Nat) : State :=
  s.modWork fun w => { w with streams := w.streams.map fun p =>
    if p.2.phase == .open_ || p.2.phase == .closing then
      (p.1, { p.2 with
        stop := some (match p.2.stop with
          | some x => min x (if p.1 == st then min b p.2.firstUnbegun else p.2.firstUnbegun)
          | none => if p.1 == st then min b p.2.firstUnbegun else p.2.firstUnbegun)
        stopStatus := status })
    else p }

/-- The records of a stopped stream's batches that will not be released, and that do not run, give up their slots, Hopper entries and places in
queues, so that the batches below the stop go on (R160). -/
def State.dropStalled (s : State) (n : Nat) : State :=
  match (s.stream n).stop with
  | none => s
  | some x => (List.range 16).foldl (fun (t : State) k =>
      (t.discardOn k fun r => r.stream == n && r.state != .running && r.batch.any fun b => decide (x ≤ b)).2) s

/-- A program fault of an engine at word `w`, address `a` (R159, R160). The core keeps the first fault. -/
def State.programFault (s : State) (id : EngineId) (w : Nat) (a : Int) : State :=
  let s := s.modWork fun w => { w with graph := w.graph.map fun g => { g with faulted := true } }
  let c := coreNo id
  let k := s.core c
  let prog := (k.ctx.map fun x => x.prog).getD k.lastProg
  let s1 := s.modEngine (engineNo id) fun e => { e with stopped := true }
  let s2 := s1.modCore c fun k => { k with
    faulted := true
    faultInfo := if k.faultInfo == 0 then 1 + id.engine.val * 16 + w % 1024 * 1024 + prog % 4096 * 2 ^ 20 else k.faultInfo
    faultAddr := if k.faultInfo == 0 then wrapN 32 a else k.faultAddr
    faultCount := sat32 k.faultCount 1
    ctx := k.ctx.map fun x => { x with tiles := 0 } }
  let s3 := s2.postEvent c
  match k.ctx with
  | some x =>
    let s4 := s3.stopStreams x.stream x.batch stBadDescriptor
    (List.range 64).foldl (fun t n => ((t.dropStalled n).endStop n).stageFail n stBadDescriptor) s4
  | none => s3

/-- Issues a word that accesses the core store through an address stream; R155 keeps a stream index that the program does not have, or a
stream of another mode, out of a loaded program. -/
def State.issueAccess (s : State) (op : Nat) (id : EngineId) (f : Fields) (modes : List Nat)
    (acc : ProgCtx → StreamDesc → LTy → Engine → Tab Byte → Access) : State :=
  let e := s.engine (engineNo id)
  let k := s.core (coreNo id)
  if !s.issues id op f then s
  else match k.ctx, laneTy f.ty.val with
  | some cx, some t =>
    match cx.descs[f.va.val % 8]? with
    | some d =>
      if !(modes.contains d.mode) then s
      else match acc cx d t e k.store with
      | .inl a => s.programFault id e.word a
      | .inr (e', m') =>
        ((s.modEngine (engineNo id) fun _ => nextWord (some cx) e' (e.word + 1)).modCore (coreNo id)
          fun k => { k with store := m' }).coreFlags (coreNo id) 0
    | none => s
  | _, _ => s

end Sys2Proof.Machine
end

