-- ==== Sys2Proof/Machine/Tasks.lean ====
section
/-! DEFINITION. The dispatchers, the Hopper, Weir and Tailrace (chapter 12; R47, R358 to R360). -/

namespace Sys2Proof.Machine

/-- Whether a cluster takes new work: store, dispatcher not fenced, no power-down of it under way, and the device has not
failed (R402, R404, R467, R473). -/
def State.clusterWorks (s : State) (k : Nat) : Bool :=
  s.err.state != 2 && s.clusterIn k && !s.draining k && !s.isFenced 2 k && !s.isFenced 8 k

/-- Where a build is placed (R189): 0 REPLICATED, 1 PARTITIONED, 2 HBM, by MAX_BUILD_BYTES and the variant's clusters. -/
def placementOf (maxBytes clusters : Nat) : Nat :=
  if maxBytes ≤ 0x800000 then 0 else if maxBytes ≤ 0x800000 * clusters then 1 else 2

/-- Whether a task builds or probes a build in PARTITIONED placement, so that its store traffic reaches every cluster of the variant (R189). -/
def Graph.crosses (g : Graph) (r : TaskRec) : Bool :=
  let limit := fun t : Tpl => (g.params t).getD 1 0
  (g.tpl r.tpl).any fun t => t.kind == 3 && t.unit == 1 && match t.op with
    | 3 => placementOf (limit t) g.cfg.clusters == 1
    | 4 => (g.tpl ((g.params t).getD 2 0)).any fun b => placementOf (limit b) g.cfg.clusters == 1
    | _ => false

/-- Whether the store traffic of a task on cluster `k` touches the store of cluster `d` (R404). -/
def State.reaches (s : State) (g : Graph) (k : Nat) (r : TaskRec) (d : Nat) : Bool := k == d || (g.crosses r && s.clusters.contains d)

/-- Whether lanes land rows of stream `n` in the store of cluster `d`: a task of the stream is placed there (R275, R404). -/
def State.landsIn (s : State) (g : Graph) (n d : Nat) : Bool :=
  g.tables.places.any fun p => s.clusters[p.cluster]? == some d && (g.tpl p.tpl).any fun t => t.stream == n

/-- Whether a power-down under way holds back a task on cluster `k`: it would touch the domain (R402, R404). -/
def State.holdsTask (s : State) (g : Graph) (k : Nat) (r : TaskRec) : Bool := s.pwr.request.any fun q => q.2.1 && s.reaches g k r q.1

/-- Whether a unit of a cluster takes new work (R467). -/
def State.unitWorks (s : State) (k u : Nat) : Bool :=
  match u with
  | 0 => !s.isFenced 3 k
  | 1 => !s.isFenced 4 k
  | 2 => !s.isFenced 5 k
  | 3 => !((List.range 8).any fun b => s.isFenced 7 (8 * k + b))
  | _ => !s.isFenced 6 k

/-- Keeps a delay list sorted by start position; an equal position goes behind (R47). -/
def insertDelay (start : Nat → Nat) (x : Nat) : List Nat → List Nat
  | [] => [x]
  | y :: ys => if start x < start y then x :: y :: ys else y :: insertDelay start x ys

/-- The record in a task slot. -/
def Disp.task (d : Disp) (i : Nat) : TaskRec := tget {} d.slots i
def Disp.modRec (d : Disp) (i : Nat) (f : TaskRec → TaskRec) : Disp := { d with slots := tmod {} i f d.slots }
/-- The start position of a slot's record. -/
def Disp.startAt (d : Disp) (i : Nat) : Nat := (d.task i).start

/-- Moves the records of a stream's affected batches to new start positions (R358). -/
def Disp.rebaseRecords (d : Disp) (n : Nat) (off : TaskRec → Option Nat) : Disp :=
  let d1 := { d with slots := d.slots.map fun (p : Nat × TaskRec) =>
    (p.1, if p.2.stream == n then (match off p.2 with | some x => { p.2 with start := x } | none => p.2) else p.2) }
  { d1 with delay := d1.delay.foldl (fun l x => insertDelay d1.startAt x l) [] }

/-- The start position of a record of batch `b` of a stream (R337). -/
def recStart (start ticks : Nat) : Nat := start + ticks * 64

/-- Adopts a stream descriptor for the batches at or above FROM_BATCH that have not begun (R358). -/
def State.adopt (s : State) (n : Nat) (a : Nat × Nat) : State :=
  match s.cadence n, s.work.graph with
  | some c, some g =>
    let s1 := s.modStream n fun st => { st with anchors := a :: st.anchors }
    let st := s1.stream n
    let moves := fun b : Batch => !b.begun && decide (a.2 ≤ b.num)
    let s2 := s1.modStream n fun st => { st with
      batches := st.batches.map fun b => if moves b then { b with start := st.startOf c b.num, due := st.dueOf c b.num } else b }
    (List.range 16).foldl (fun t k => t.modDisp k fun d => d.rebaseRecords n fun r =>
      match r.batch with
      | some b => if (st.batch b).any moves then some (recStart (st.startOf c b) ((g.tables.places[r.place]?.map fun p => p.start).getD 0)) else none
      | none => none) s2
  | _, _ => s

/-- STRM_ARM of a stream: dropped when it is not open; ignored and recorded while the slot is full; adopted at once when
nothing of the stream has begun; otherwise armed (R359, R360). -/
def State.strmArm (s : State) (n m : Nat) : State :=
  let st := s.stream n
  if st.phase != .open_ && st.phase != .closing then s.reject (0xD000 + n * 0x20 + 0x10) m
  else if st.armed.isSome then s.modStream n fun st => { st with armOverrun := true, armOverruns := sat32 st.armOverruns 1 }
  else
    let a := (st.stOrigin.val.toNat, st.stFrom.val.toNat)
    if st.busy then s.modStream n fun st => { st with armed := some a } else s.adopt n a

/-- STRM_ARM. -/
def execStrmArm (st : Fin 64) (m : Master) (s : State) : Host.Outcome State Fault Refusal := .next (s.strmArm st.val m.val)

/-- Adopts every armed descriptor (R359). -/
def State.adoptArmed (s : State) : State :=
  (List.range 64).foldl (fun t n => match (t.stream n).armed with
    | some a => (t.modStream n fun st => { st with armed := none }).adopt n a
    | none => t) s

/-- One cycle's release from a delay list: of the entries due at the last tick, the first 32 in order (R47, R344). -/
def Disp.releaseMore (d : Disp) : Disp :=
  let due := (d.delay.filter fun i => decide (d.startAt i ≤ d.due)).take 32
  { (due.foldl (fun d i => d.modRec i fun r => { r with state := .waiting }) d) with
    delay := d.delay.filter fun i => !due.contains i }

/-- A tick at position `pos` makes the entries up to it due and releases the first of them (R344). -/
def Disp.releaseDue (d : Disp) (pos : Nat) : Disp := ({ d with due := pos } : Disp).releaseMore

/-- Placement entries of a cluster for a stream, table stages or not, with their numbers in placement order. -/
def Graph.placesOf (g : Graph) (l n : Nat) (stage : Bool) : List (Nat × Place) :=
  ((g.tables.places.zipIdx).map fun p => (p.2, p.1)).filter fun p =>
    p.2.cluster == l && (g.tpl p.2.tpl).any fun t => t.stream == n && t.stage == stage

/-- Task slots and frames that are free (4,096 and 64 of them). -/
def Disp.freeSlots (d : Disp) : Nat := 4096 - d.slots.length
def Disp.freeFrame (d : Disp) : Option Nat := (List.range 64).find? fun f => !(tget ({} : Frame) d.frames f).used

/-- LOOKAHEAD as applied (DSP_CFG). -/
def Disp.ahead (d : Disp) : Nat := clampLog 1 16 d.lookahead

/-- The dispatcher's pending configuration in force (R13): LOOKAHEAD 0 counts as 1, above 16 as 16. -/
def Disp.adopt (d : Disp) : Disp :=
  match d.pending with
  | some p => { d with levelEn := p % 256, lookahead := p / 256 % 32, pending := none }
  | none => d

/-- Whether a stream may instantiate batch `b` as far as its own state goes (R335). -/
def Stream.eligible (st : Stream) (ahead b : Nat) : Bool :=
  (st.phase == .open_ || (st.phase == .closing && st.keeps b)) && (decide (b < st.runLimit) || st.keeps b) && decide (b < st.released + ahead) &&
    st.stop.all fun x => decide (b < x)

/-- The batches of stream `n` that cluster `k` has not instantiated and may, as far as the stream goes (R335). -/
def State.waitingFor (s : State) (k n : Nat) : List Nat :=
  let st := s.stream n
  let a := (s.disp k).ahead
  ((List.range a).map fun i => st.released + i).filter fun b =>
    st.eligible a b && !((st.batch b).any fun x => bitOf x.insts k || x.recorded)

/-- The start position of a batch, instantiated or not (R358). -/
def Stream.startNow (st : Stream) (c : Cadence) (b : Nat) : Nat := (st.batch b).elim (st.startOf c b) fun x => x.start

/-- Whether cluster `k` has a frame and slots for a batch of stream `n`. -/
def State.roomFor (s : State) (g : Graph) (k l n : Nat) : Bool :=
  let d := s.disp k
  d.freeFrame.isSome && decide ((g.placesOf l n false).length ≤ d.freeSlots)

/-- Clusters that wait for slots or a frame with a batch whose start is reached count the tick (R336). -/
def State.countStalls (s : State) (pos : Nat) : State :=
  match s.work.graph with
  | none => s
  | some g =>
    (s.clusters.zipIdx).foldl (fun t p =>
      let k := p.1
      let lacks := (List.range 64).any fun n => !t.roomFor g k p.2 n && (t.waitingFor k n).any fun b =>
        (t.cadence n).any fun c => decide ((t.stream n).startNow c b ≤ pos)
      if lacks then t.modDisp k fun d => { d with slotStall := sat32 d.slotStall 1 } else t) s

/-- DISPATCHER_TICK: a tick boundary of 64 phase units: armed descriptors are adopted, then due entries released (R47, R336,
R344, R359). -/
def execDispatcherTick (t : Nat) (s : State) : Host.Outcome State Fault Refusal :=
  let s := s.at_ t
  if s.err.state == 2 then .next s
  else
    let s1 := s.adoptArmed
    let pos := s1.pos / 64 * 64
    let s2 := (List.range 16).foldl (fun t k => if t.clusterWorks k then t.modDisp k fun d => d.releaseDue pos else t) s1
    .next (s2.countStalls pos)

/-- The `n` lowest free task slots. -/
def Disp.pickSlots (d : Disp) (n : Nat) : List Nat :=
  ((List.range 4096).filter fun i => (d.task i).state == .free).take n

/-- Creates the records of a frame, one per placement entry in placement order, in the lowest free slots (R335, R337). -/
def Disp.create (d : Disp) (frame n : Nat) (b : Option Nat) (start pos : Nat) (es : List (Nat × Place)) (prio : Nat → Nat) : Disp :=
  let d0 := { d with frames := tset {} frame { used := true, stream := n, batch := b, flags := 0 } d.frames }
  (es.zip (d0.pickSlots es.length)).foldl (fun d x =>
    let st := if b.isSome then recStart start x.1.2.start else 0
    let late := b.isNone || decide (st ≤ pos)
    let r : TaskRec := { state := if late then .waiting else .delayed, tpl := x.1.2.tpl, place := x.1.1, stream := n, batch := b
                         frame := frame, start := st, prio := prio x.1.2.tpl, handing := false, seat := 0, fail := 0 }
    let d1 := d.modRec x.2 fun _ => r
    if late then d1 else { d1 with delay := insertDelay d1.startAt x.2 d1.delay }) d0

/-- Puts a batch into a stream's list, in batch order. -/
def insertBatch (b : Batch) : List Batch → List Batch
  | [] => [b]
  | x :: xs => if b.num < x.num then b :: x :: xs else x :: insertBatch b xs

/-- Instantiates batch `b` of stream `n` on cluster `k` (R335). A batch that is rerun keeps its positions (R358); an instance that had skipped
the batch takes up its generation (R351, R353). -/
def State.instantiate (s : State) (g : Graph) (k l n b : Nat) : State :=
  match s.cadence n, (s.disp k).freeFrame with
  | some c, some f =>
    let st := s.stream n
    let x := (st.batch b).getD (newBatch b (st.startOf c b) (st.dueOf c b))
    let s1 := if (st.batch b).isSome then s else s.modStream n fun st => { st with batches := insertBatch x st.batches }
    let s2 := (s1.modBatch n b fun y => { y with insts := withBit y.insts k true }).modFlags n fun w =>
      if b < w.gen && !w.closed.contains b then w.goTo b else w
    s2.modDisp k fun d => d.create f n (some b) x.start s.pos (g.placesOf l n false) fun t => ((g.tpl t).map fun y => y.prio).getD 0
  | _, _ => s

/-- Whether a stream of a joining secondary still waits for its join batch: it runs only batches at or above it (R454, R463). -/
def State.awaitsJoin (s : State) (n : Nat) : Bool :=
  s.pair.roleNow == 2 && s.pair.state == .syncing && !s.pair.joinSeen && decide (setupSeq ≤ (s.stream n).openSeq)

/-- The qualifying batch of a cluster: ascending start position, then stream number (R335). -/
def State.bestBatch (s : State) (g : Graph) (k l : Nat) : Option (Nat × Nat) :=
  let cands := (List.range 64).flatMap fun n => match s.cadence n with
    | some c => if s.awaitsJoin n then [] else if s.roomFor g k l n then (s.waitingFor k n).map fun b => ((s.stream n).startNow c b, n, b) else []
    | none => []
  (cands.foldl (fun (m : Option (Nat × Nat × Nat)) x => match m with
    | none => some x
    | some y => if x.1 < y.1 then some x else some y) none).map fun x => x.2

/-- BATCH_INSTANTIATE: the dispatcher of a cluster instantiates its next qualifying batch (R335 to R337, R482). -/
def execBatchInstantiate (k : Fin 16) (s : State) : Host.Outcome State Fault Refusal :=
  .next (match s.work.graph, s.logicalOf k.val with
    | some g, some l =>
      if !s.clusterWorks k.val then s
      else
        let s := s.modDisp k.val Disp.adopt
        (match s.bestBatch g k.val l with
        | some (n, b) => s.instantiate g k.val l n b
        | none => s)
    | _, _ => s)

/-- Whether a record's wait condition holds, and its start is reached (R48, R340, R358). -/
def Disp.canReady (d : Disp) (g : Graph) (pos i : Nat) : Bool :=
  let r := d.task i
  r.state == .waiting && decide (r.start ≤ pos) && (g.tpl r.tpl).any fun t =>
    Nat.land ((tget ({} : Frame) d.frames r.frame).flags / 2 ^ (64 * t.waitGroup)) t.waitMask == t.waitMask

/-- A record becomes READY: a CONSUME record clears its bits; it joins the tail of its level (R340, R342). -/
def Disp.makeReady (d : Disp) (g : Graph) (i : Nat) : Disp :=
  let r := d.task i
  match g.tpl r.tpl with
  | none => d
  | some t =>
    let d1 := if t.consume then
        { d with frames := tmod {} r.frame (fun f =>
          { f with flags := f.flags - Nat.land f.flags (t.waitMask * 2 ^ (64 * t.waitGroup)) }) d.frames }
      else d
    { (d1.modRec i fun r => { r with state := .ready }) with ready := tmod [] r.prio (fun l => l ++ [i]) d1.ready }

/-- Records that qualify in one cycle, in ascending slot order: a CONSUME record whose bits an earlier one has cleared stays WAITING (R340). -/
def Disp.readyCycle (d : Disp) (g : Graph) (pos : Nat) : Disp :=
  ((d.slots.map fun p => p.1).filter fun i => d.canReady g pos i).foldl (fun e i =>
    if ((g.tpl (d.task i).tpl).any fun t => t.consume) && !e.canReady g pos i then e else e.makeReady g i) d

/-- TASK_READY: one cycle of a cluster's flag-wait set (R340, R342); entries that were due at the last tick go on leaving the delay list
(R344). -/
def execTaskReady (k : Fin 16) (s : State) : Host.Outcome State Fault Refusal :=
  .next (match s.work.graph with
    | none => s
    | some g =>
      if !s.clusterWorks k.val then s
      else s.modDisp k.val fun d => (d.readyCycle g s.pos).releaseMore)

/-- Whether every intake lane of the running variant has finished its work for a batch, step 1 of R18. -/
def State.intakeOver (s : State) (g : Graph) (n b : Nat) : Bool :=
  ((s.stream n).batch b).any fun x => (s.graphLanes g).all fun i => bitOf x.intakeDone i

/-- The unit that a template's task runs on. -/
def Tpl.unitNo (t : Tpl) : Nat := if t.kind == 2 then 0 else t.unit

/-- The free Hopper entry of a core, the one it starts next first. -/
def Core.freeEntry (c : Core) : Option Nat :=
  if c.next == 0 then (if c.h0.state == 0 then some 0 else if c.h1.state == 0 then some 1 else none)
  else (if c.h1.state == 0 then some 1 else if c.h0.state == 0 then some 0 else none)

/-- Whether a core takes new work. -/
def State.coreWorks (s : State) (c : Nat) : Bool := s.coreIn c && !s.isFenced 1 c

/-- Where a READY record of the phase in place (R53) can be placed in this cycle (R343): a core of those that the variant may use (R31), or its unit's queue. -/
def State.placeFor (s : State) (g : Graph) (k i : Nat) : Option Nat :=
  let r := (s.disp k).task i
  match g.tpl r.tpl, g.tables.places[r.place]? with
  | some t, some p =>
    if !g.tplInPhase r.tpl g.phase then none
    else if t.kind == 1 then
      (if p.core == 0xFF then
        let own := s.graphCores g
        ((List.range 32).map fun n => 32 * k + n).find? fun c => own.contains c && s.coreWorks c && (s.core c).freeEntry.isSome
       else (s.physCore k p.core).bind fun n =>
         let c := 32 * k + n
         if s.coreWorks c && (s.core c).freeEntry.isSome then some c else none)
    else
      let u := t.unitNo
      if s.unitWorks k u && decide ((tget [] (s.disp k).unitQ u).length < 1 + Config.unitDepth u) then some u else none
  | _, _ => none

/-- Hopper entry `i` of a core. -/
def Core.hop (c : Core) (i : Nat) : Hopper := if i == 0 then c.h0 else c.h1
def Core.setHop (c : Core) (i : Nat) (h : Hopper) : Core := if i == 0 then { c with h0 := h } else { c with h1 := h }

/-- The bytes that a prefetch copies from the cluster store into a Hopper buffer (R345). -/
def State.prefetch (s : State) (k c i : Nat) (p : Place) : State :=
  s.modCore c fun x => { x with
    store := writeBytes x.store (0x60000 + 0x10000 * i) (readBytes (s.cstore k) p.pfSrc p.pfLen) }

/-- Places a record (R327, R343, R345): PREFETCHED in a Hopper entry, or into its unit's queue. -/
def State.place (s : State) (g : Graph) (k i seat : Nat) : State :=
  let r := (s.disp k).task i
  let s1 := s.modDisp k fun d => { d with ready := tmod [] r.prio (fun l => l.filter fun x => x != i) d.ready }
  match g.tpl r.tpl, g.tables.places[r.place]? with
  | some t, some p =>
    if t.kind == 1 then
      let e := ((s.core seat).freeEntry).getD 0
      ((s1.modDisp k fun d => d.modRec i fun r => { r with state := .prefetched, seat := seat }).prefetch k seat e p).modCore seat fun c =>
        c.setHop e { state := 1, slot := i, got := p.pfLen }
    else s1.modDisp k fun d => { (d.modRec i fun r => { r with seat := seat }) with unitQ := tmod [] seat (fun l => l ++ [i]) d.unitQ }
  | _, _ => s

/-- TASK_PLACE: at most one placement of a cluster cycle: levels from 7 down, head to tail, skipping what cannot be placed
(R22 to R25, R343, R345, R347). Between two placements a pending configuration comes into force first (R10, R13). -/
def execTaskPlace (k : Fin 16) (s : State) : Host.Outcome State Fault Refusal :=
  .next (match s.work.graph with
    | none => s
    | some g =>
      if !s.clusterWorks k.val then s
      else
        let s := s.modDisp k.val Disp.adopt
        let d := s.disp k.val
        let order := ([7, 6, 5, 4, 3, 2, 1, 0].filter fun l => bitOf d.levelEn l).flatMap fun l => tget [] d.ready l
        match order.findSome? fun i => (s.placeFor g k.val i).map fun x => (i, x) with
        | some (i, seat) => s.place g k.val i seat
        | none => s)

/-- The core number of an operand. -/
def cidx (c : CoreId) : Nat := 32 * c.cluster.val + c.core.val

/-- HOPPER_FILL_COMPLETE: an entry's fill is complete (R345, CORE_HOPPER_FILLS). -/
def execHopperFillComplete (c : CoreId) (i : Fin 2) (s : State) : Host.Outcome State Fault Refusal :=
  .next (if ((s.core (cidx c)).hop i.val).state == 1 then
    s.modCore (cidx c) fun x => { x.setHop i.val { x.hop i.val with state := 2 } with fills := (x.fills + 1) % 2 ^ 64 }
  else s)

/-- A batch has begun (R75, R328). -/
def State.beginBatch (s : State) (n : Nat) (b : Option Nat) : State :=
  match b with
  | none => s
  | some b => s.modBatch n b fun x => { x with begun := true }

/-- The epoch that a batch draws with: that of the mark of greatest FROM_BATCH at or below it (R141, R282). -/
def Stream.epochOf (st : Stream) (b : Nat) : Nat := ((st.marks.filter fun m => decide (m.1 ≤ b)).getLast?.map fun m => m.2).getD 0

/-- What a core runs for a record (R141, R152). A record of a table stage draws as batch 0 (log entry 119). -/
def State.ctxFor (s : State) (g : Graph) (r : TaskRec) (slot hop : Nat) (t : Tpl) (p : Place) : ProgCtx :=
  let b := g.program t.prog
  let st := s.stream r.stream
  { prog := t.prog, body := (recs b (16 + 16 * fieldAt b 4 1) 8 (fieldAt b 0 4)).map leNat, engines := fieldAt b 5 1, descs := progDescs b, slot := slot, hop := hop
    tileBase := p.tileBase, tiles := p.tiles, pfDst := p.pfDst, pfLen := p.pfLen, seed := st.seed
    epoch := st.epochOf (r.batch.getD 0), stream := r.stream, batch := r.batch.getD 0 }

/-- The engines of a core at the start of a task: every item of their state is 0 (R133), and engine e of the program takes tile e (R152). -/
def State.startEngines (s : State) (c : Nat) (x : ProgCtx) : State :=
  (List.range 32).foldl (fun t e => t.modEngine (32 * c + e) fun _ =>
    if e < x.engines then { cursor := startCursors x.descs e, word := if e < x.tiles then 0 else x.body.length, tile := e } else {}) s

/-- Whether batch `b` of a stream is instantiated on every cluster of the running variant (R336). -/
def State.allInst (s : State) (n b : Nat) : Bool :=
  ((s.stream n).batch b).any fun x => s.clusters.all fun k => bitOf x.insts k

/-- Whether a record may start: its start position is reached, its batch is instantiated everywhere and not stopped (R48,
R160, R336). -/
def State.mayStart (s : State) (r : TaskRec) : Bool :=
  decide (r.start ≤ s.pos) && match r.batch with
    | some b => s.allInst r.stream b && (s.stream r.stream).stop.all fun x => decide (b < x)
    | none => true

/-- A core starts its next filled entry when it has no running task (R328, R345, R350). -/
def State.startCore (s : State) (g : Graph) (c : Nat) : State :=
  let x := s.core c
  let h := x.hop x.next
  if h.state != 2 || x.ctx.isSome || !s.coreWorks c then s
  else
    let k := c / 32
    let r := (s.disp k).task h.slot
    match g.tpl r.tpl, g.tables.places[r.place]? with
    | some t, some p =>
      if !s.mayStart r || !g.tplInPhase r.tpl g.phase then s
      else
        let cx := s.ctxFor g r h.slot x.next t p
        let s1 := s.modCore c fun y => { y.setHop y.next { h with state := 3 } with ctx := some cx, lastProg := t.prog, next := 1 - y.next }
        let s2 := s1.modDisp k fun d => { (d.modRec h.slot fun r => { r with state := .running }) with dispatched := (d.dispatched + 1) % 2 ^ 64 }
        (s2.startEngines c cx).beginBatch r.stream r.batch
    | _, _ => s

/-- Whether a layer task may start as far as BARRIER_AFTER of the layer before it goes: the Weir instance that a template of that layer
names has closed for the batch (R321). -/
def State.barrierOpen (s : State) (g : Graph) (r : TaskRec) : Bool :=
  match g.tpl r.tpl, r.batch with
  | some t, some b =>
    if t.kind != 2 || t.layer == 0 then true
    else if !(g.layer t.kernel (t.layer - 1)).any LayerRec.barrier then true
    else ((List.range g.tplCount).filterMap g.tpl).all fun p =>
      !(p.kind == 2 && p.kernel == t.kernel && p.layer + 1 == t.layer && p.stream == t.stream && p.weir != 0xFF) || decide (b < (s.weir p.weir).gen) || (s.weir p.weir).closed.contains b
  | _, _ => true

/-- Whether a GATHER reads host memory while the function is not in D0: its snapshot would be such a read, so it waits (R102, R222). -/
def State.gatherWaits (s : State) (g : Graph) (r : TaskRec) : Bool :=
  !s.inD0 && (g.tpl r.tpl).any fun t => t.kind == 3 && t.unit == 4 && t.op == 1 &&
    (g.tableWords t).any fun w => !bitOf w 12 && (tget ({} : Table) s.work.tables (w % 4096)).extents.any fun x => x.space == .bus

/-- A unit starts the task at the head of its queue (R25, R328); a GATHER keeps its source as it stands now (R222). -/
def State.startUnit (s : State) (g : Graph) (k u : Nat) : State :=
  match tget [] (s.disp k).unitQ u with
  | [] => s
  | i :: _ =>
    let r := (s.disp k).task i
    if r.state != .ready || !g.tplInPhase r.tpl g.phase || s.gatherWaits g r || !s.unitWorks k u || s.holdsTask g k r || !s.mayStart r || !s.barrierOpen g r || (u == 0 && (g.swapWait || g.switchWait)) then s
    else
      let gather := (g.tpl r.tpl).any fun t => t.kind == 3 && t.unit == 4 && t.op == 1
      let snap := if gather then some (s.mem.hbm, s.mem.bus) else none
      let s1 := s.modDisp k fun d => { (d.modRec i fun r => { r with state := .running, snap := snap, look := {} }) with dispatched := (d.dispatched + 1) % 2 ^ 64 }
      let s2 := if u == 3 then s1.modSage k fun q => { q with banks := q.banks.map fun p => (p.1, { p.2 with reload := none }) } else s1
      s2.beginBatch r.stream r.batch

/-- TASK_START (R320, R328, R345, R350). -/
def execTaskStart (seat : Seat) (s : State) : Host.Outcome State Fault Refusal :=
  .next (match s.work.graph with
    | none => s
    | some g =>
      match seat with
      | .core c => if s.clusterWorks c.cluster.val then s.startCore g (cidx c) else s
      | .unit k u => if s.clusterWorks k.val then s.startUnit g k.val u.val else s)

/-- Whether every engine of a core's program has run its tiles, or, after a program fault, has stopped or ended the tile that it had begun
(R152, R159). -/
def State.coreDone (s : State) (c : Nat) (x : ProgCtx) : Bool :=
  (List.range x.engines).all fun e =>
    let g := s.engine (32 * c + e)
    g.stopped || (decide (x.body.length ≤ g.word) && decide (x.tiles ≤ g.tile + x.engines)) || (x.tiles == 0 && !g.begunTile)

/-- Whether a program fault has stopped an engine of the running task of core `c` (R159). -/
def State.coreFaulted (s : State) (c : Nat) : Bool :=
  (s.core c).ctx.any fun x => (List.range x.engines).any fun e => (s.engine (32 * c + e)).stopped

/-- The bytes of a segment: its task's OUT_SLOT (R356). -/
def State.segmentBytes (s : State) (k slot : Nat) : Bytes :=
  match s.slotRec k slot with
  | some r => readBytes (s.cstore k) r.off r.len
  | none => []

/-- The sequence number of a record's segment in its flow. -/
def segSeq (f : FlowRec) (b seg : Nat) : Nat := b * f.segs + seg

/-- The rows of a stream's batches (R547). -/
def Graph.batchRows (g : Graph) (n : Nat) : Nat := ((g.cadence n).map fun c => c.rows).getD 0

/-- Where a segment lies in its output slot (R356). -/
def FlowRec.segOff (f : FlowRec) (seg : Nat) : Nat := f.outOff + seg * f.segBytes

/-- Takes over what a task's segment says of its batch: which of its bytes hold valid and padding elements (R132, R544), and rows that the program has marked in its
VOID_REASON bytes, which become void here (R115, R117; log entry 87). -/
def State.settleSeg (s : State) (g : Graph) (f : FlowRec) (k slot b seg : Nat) (bytes : Bytes) : State :=
  let o := f.segOff seg
  let s1 := match s.slotRec k slot with
    | none => s
    | some sr =>
      let within := fun p : Nat × Mark => p.1 == k && decide (sr.off ≤ p.2.at_) && decide (p.2.at_ < sr.off + sr.len)
      s.modBatch f.stream b fun x => { x with valid := x.valid ++ (x.marks.filter within).map fun p => { p.2 with at_ := o + (p.2.at_ - sr.off) } }
  (segVoids (g.streamOuts f.stream) (g.batchRows f.stream) o bytes).foldl (fun t v => t.markVoid f.stream b v.1 v.2) s1

/-- Hands a segment to Tailrace (R355); one that was already released is discarded (R470). Answers whether it was taken. -/
def State.handOff (s : State) (g : Graph) (k : Nat) (t : Tpl) (p : Place) (b : Nat) : Bool × State :=
  match g.flowRec t.flow with
  | none => (true, s)
  | some f =>
    let q := segSeq f b p.seg
    let next := (s.flow t.flow).next
    if next + f.window ≤ q then (false, s)
    else if q < next then (true, s)
    else
      let bs := s.segmentBytes k t.outSlot
      (true, (s.settleSeg g f k t.outSlot b p.seg bs).modFlow t.flow fun x => { x with held := x.held ++ [{ seq := q, batch := b, seg := p.seg, bytes := bs }] })

/-- A slot returns to FREE: its Hopper entry empties (writes to its window are discarded, R346), its unit's queue moves on. -/
def State.freeSlot (s : State) (k i : Nat) : State :=
  let r := (s.disp k).task i
  let s1 := s.modDisp k fun d => { d with
    slots := tset {} i {} d.slots
    unitQ := d.unitQ.filterMap fun p => let l := p.2.filter fun x => x != i; if l.isEmpty then none else some (p.1, l) }
  let c := s1.core r.seat
  if c.ctx.any fun x => x.slot == i && r.seat / 32 == k then
    let h := (c.ctx.map fun x => x.hop).getD 0
    s1.modCore r.seat fun c => { c.setHop h {} with ctx := none }
  else s1

/-- The rows of a stream's source once its table stages are done: those of a derived table are known now. -/
def State.sourceRows (s : State) (n : Nat) : Nat :=
  let st := s.stream n
  if bitOf st.src 12 then (tget ({} : Built) s.work.built (bitsOf st.src 31 16)).count else st.rows

/-- The end of a table stage: when the last record of the opening stream is gone, OPEN_STREAM finishes; a failed stage, or a source
without rows, gives its status and the stream stays closed (R164, R166). -/
def State.stageDone (s : State) (n : Nat) (fail : Nat) : State :=
  let st := s.stream n
  if st.phase != .opening then s
  else if fail != 0 then s.stageFail n fail
  else if st.landing || (List.range 16).any fun k => (s.disp k).slots.any fun x => x.2.stream == n && x.2.batch.isNone then s
  else if s.sourceRows n == 0 then s.stageFail n stLimit
  else
    let bad := s.work.graph.any fun g => g.faulted
    (s.modStream n fun st => { st with
      phase := .open_, rows := s.sourceRows n
      stop := if bad then some st.released else st.stop, stopStatus := if bad then stBadDescriptor else st.stopStatus }).finish st.openSeq stOk 0

/-- The effects of a completing task after its writes, in the order of R341. A task that a program fault stopped has none: its core is free
for the batches below the stop batch (R160). -/
def State.completeTask (s : State) (g : Graph) (k i : Nat) : State :=
  let r := (s.disp k).task i
  match g.tpl r.tpl, g.tables.places[r.place]? with
  | some t, some p =>
    if t.kind == 1 && s.coreFaulted r.seat then s.freeSlot k i
    else
    let s1 := s.modDisp k fun d => d.setFlags r.frame t.setGroup t.setMask
    let s2 := match r.batch, s.logicalOf k with
      | some b, some l => if t.weir != 0xFF then s1.weirArrive t.weir l b else s1
      | _, _ => s1
    (match r.batch with
    | some b =>
      if t.flow != 0xFFFF then
        let h := s2.handOff g k t p b
        if h.1 then (h.2.freeSlot k i).afterRelease r.stream
        else (s2.modDisp k fun d => d.modRec i fun r => { r with handing := true }).modWork fun w =>
          { w with trc := { w.trc with stall := sat32 w.trc.stall 1 } }
      else (s2.freeSlot k i).afterRelease r.stream
    | none => (s2.freeSlot k i).stageDone r.stream r.fail)
  | _, _ => s

/-- Whether a running task has ended: a core's engines have, a unit's work is the unit command's (R341). -/
def State.taskEnded (s : State) (g : Graph) (k : Nat) (r : TaskRec) : Bool :=
  match g.tpl r.tpl with
  | some t => if t.kind == 1 then (s.core r.seat).ctx.any fun x => s.coreDone r.seat x else r.ended
  | none => s.clusterIn k

/-- TASK_COMPLETE (R341, R355). -/
def execTaskComplete (k : Fin 16) (slot : Fin 4096) (s : State) : Host.Outcome State Fault Refusal :=
  .next (match s.work.graph with
    | none => s
    | some g =>
      let r := (s.disp k.val).task slot.val
      if r.state == .running && !r.handing && s.err.state != 2 && s.taskEnded g k.val r then s.completeTask g k.val slot.val else s)

/-- FLAG_PULSE: a pulse of an intake lane or a DMA channel to the clusters of a mask (R339). -/
def execFlagPulse (mask : Fin 65536) (st : Fin 64) (batch : Nat) (flag : Fin 1024) (s : State) : Host.Outcome State Fault Refusal :=
  .next ((setBits 16 mask.val).foldl (fun t k => t.pulse k st.val batch flag.val) s)

/-- WEIR_ARRIVAL: an arrival of a participant reaches an instance (R351, R352). -/
def execWeirArrival (w : Fin 64) (k : Fin 16) (gen : Nat) (s : State) : Host.Outcome State Fault Refusal :=
  .next (s.weirArrive w.val k.val gen)

/-- SEGMENT_HANDOFF: a hand-off that waited for its flow's window completes (R22, R341, R355). -/
def execSegmentHandoff (k : Fin 16) (slot : Fin 4096) (s : State) : Host.Outcome State Fault Refusal :=
  .next (match s.work.graph with
    | none => s
    | some g =>
      let r := (s.disp k.val).task slot.val
      match r.batch, g.tpl r.tpl, g.tables.places[r.place]? with
      | some b, some t, some p =>
        if r.handing then
          let h := s.handOff g k.val t p b
          if h.1 then (h.2.freeSlot k.val slot.val).afterRelease r.stream else s
        else s
      | _, _, _ => s)

/-- The output slot of a batch: base and space (R71, R74). -/
def Stream.outSlot (st : Stream) (b : Nat) : Option (Nat × Space) := st.slots[b % max 1 st.slots.length]?

/-- Whether an address range in HBM lies in capacity and in a domain that is on; a bus range may fail in the step. -/
def State.writeFails (s : State) (e : BusEnv) (sp : Space) (a n : Nat) : Bool :=
  match sp with
  | .bus => envFails e a n
  | .hbm => !s.hbmOk a n

/-- Writes a segment: to its output slot, or, on a shadowing secondary, into what it keeps (R356, R454). Its bytes are those of a layout
job (R114 to R116, R130 to R132). Nothing is released from a batch that the primary has finished (R454). A write that fails still counts as released; the batch carries ST_BUS_ERROR (R357). A
reserved DMA channel carries the release (R381). -/
def State.writeSegment (s : State) (g : Graph) (e : BusEnv) (n : Nat) (f : FlowRec) (h : HeldSeg) : State :=
  match (s.stream n).outSlot h.batch with
  | none => s
  | some (base, sp) =>
    let o := f.segOff h.seg
    let a := base + o
    let outs := g.streamOuts n
    let x := (s.stream n).batch h.batch
    let bs := segmentOut outs (g.batchRows n) ((x.map fun b => b.voids).getD []) ((x.map fun b => b.valid).getD []) o h.bytes
    let s := s.layJob n sp base o bs.length (layoutJob outs (g.batchRows n) ((x.map fun b => b.valid).getD []) o bs.length)
    if s.pair.doneEarly.contains (n, h.batch) then s
    else if s.shadows then
      s.modPair fun p => { p with kept := p.kept ++ [(n, h.batch, sp, a, bs)] }
    else if s.writeFails e sp a bs.length then s.modBatch n h.batch fun b => { b with busError := true }
    else (s.writeSpace sp a bs).carried 60 bs.length

/-- The vote of Tailrace's copies: a disagreeing copy is rewritten and reported (R474). -/
def State.trcVote (s : State) (vote : Option (Fin 3)) : State :=
  match vote with
  | none => s
  | some c => s.detectError 14 c.val 6 0 false

/-- Whether Tailrace may release to a space now: not paused, not failed; bus writes need D0 and no fence (R102, R456, R467). -/
def State.mayRelease (s : State) (sp : Space) : Bool :=
  !s.work.trc.paused && s.err.state != 2 && (sp == .hbm || s.writeOpen)

/-- SEGMENT_RELEASE: the next segment of a flow leaves in sequence (R355 to R357, R454), after the batch's intake (R18). -/
def execSegmentRelease (f : Fin 1024) (e : BusEnv) (vote : Option (Fin 3)) (s : State) : Host.Outcome State Fault Refusal :=
  let s := (s.env e).trcVote vote
  .next (match s.work.graph.bind fun g => (g.flowRec f.val).map fun r => (g, r) with
    | none => s
    | some (g, r) =>
      let fl := s.flow f.val
      match fl.held.find? fun h => h.seq == fl.next with
      | none => s
      | some h =>
        let sp := (((s.stream r.stream).outSlot h.batch).map fun x => x.2).getD .hbm
        if !s.mayRelease sp || !s.intakeOver g r.stream h.batch || (s.stream r.stream).stop.any fun x => decide (x ≤ h.batch) then s
        else
          let s1 := s.writeSegment g e r.stream r h
          let s2 := s1.modFlow f.val fun x => { x with next := x.next + 1, held := x.held.filter fun y => y.seq != h.seq }
          ((s2.modBatch r.stream h.batch fun b => { b with released := b.released + 1 }).modWork fun w =>
            { w with trc := { w.trc with released := (w.trc.released + 1) % 2 ^ 64 } }).skipFlows r.stream)

end Sys2Proof.Machine
end

