-- ==== Sys2Proof/Machine/Columns.lean ====
section
/-! DEFINITION. Tables as the cluster units read and write them: attached and derived tables (R125, R126, R331, R333), and the running
tasks of the units. -/

namespace Sys2Proof.Machine

/-- Attached table `t`, and what the table stage of template `t` has built. -/
def State.table (s : State) (t : Nat) : Table := tget {} s.work.tables t
def State.modTable (s : State) (t : Nat) (f : Table → Table) : State := s.modWork fun w => { w with tables := tmod {} t f w.tables }
def State.builtOf (s : State) (t : Nat) : Built := tget {} s.work.built t
def State.setBuilt (s : State) (t : Nat) (b : Built) : State := s.modWork fun w => { w with built := tset {} t b w.built }

/-- Reads a byte range across extents, in list order (R125, chapter 09); none where it leaves them or a read fails. -/
def extRead (rd : Space → Nat → Nat → Option Bytes) : List Extent → Nat → Nat → Option Bytes
  | [], _, n => if n == 0 then some [] else none
  | x :: xs, o, n =>
    if n == 0 then some []
    else if x.len ≤ o then extRead rd xs (o - x.len) n
    else
      let z := min n (x.len - o)
      (rd x.space (x.addr + o) z).bind fun bs => (extRead rd xs 0 (n - z)).map fun r => bs ++ r

/-- The pieces of a byte range across extents. -/
def extPieces : List Extent → Nat → Nat → List (Space × Nat × Nat)
  | [], _, _ => []
  | x :: xs, o, n =>
    if n == 0 then []
    else if x.len ≤ o then extPieces xs (o - x.len) n
    else
      let z := min n (x.len - o)
      (x.space, x.addr + o, z) :: extPieces xs 0 (n - z)

/-- A read without its effects: none where the bus fails, HBM ends, or a word is poisoned (R366, R399). -/
def State.peek (s : State) (e : BusEnv) (sp : Space) (a n : Nat) : Option Bytes :=
  if sp == .hbm && s.poisonAt a n then none
  else s.readSpace e sp a n

/-- The effects of reading a range: ECC corrections and reports, bytes counted (R366). -/
def State.readEffect (s : State) (sp : Space) (a n : Nat) : State :=
  match sp with
  | .bus => s
  | .hbm => if s.hbmOk a n then (s.eccRead a n).2.countHbm false a n else s

/-- A table as an operator reads it: rows, columns, void reason of a row, a cell (none where a read fails), and the extents of its
bytes. -/
structure TabView where
  rows   : Nat
  cols   : List TCol
  voidOf : Nat → Nat
  cell   : Nat → Nat → Option Cell
  exts   : List Extent
  /-- Its values are read from input as they stand, and no lane has checked them (FORMAT 3). -/
  input  : Bool := false

/-- Whether a value read from input breaks R111 or R112. -/
def overLimit (c : TCol) (x : Cell) : Bool :=
  let wide := fun v : Nat => decide (decMax < (sInt 64 v).natAbs)
  x.valid && (x.long || (c.ty == 0x30 && wide x.bits) || (c.ty == 0x42 && c.param == 0x30 && x.elems.any wide))

/-- The void reason of a row as an operator that reads the columns `cols` finds it (R111, R112). -/
def TabView.rowVoid (v : TabView) (cols : List Nat) (r : Nat) : Nat :=
  if v.voidOf r != 0 then v.voidOf r
  else if v.input && cols.any (fun c => (v.cols[c]?).any fun x => (v.cell c r).any (overLimit x)) then vrOverLimit
  else 0

/-- Row `r` of a column of a blocked table read by table offsets (R125). -/
def blockedCell (rd : Nat → Nat → Option Bytes) (c : TCol) (r : Nat) : Option Cell :=
  (if isVar c.ty then (bitsAt rd c.idx (64 * (r / 8192)) 64).map fun x => c.off + x
    else some (c.off + r / 8192 * spanBytes c.ty c.nullable)).bind fun start =>
    spanCell rd start c.ty c.nullable c.param (r % 8192)

/-- The view of a blocked table over extents. -/
def State.viewBlocked (s : State) (e : BusEnv) (exts : List Extent) (rows : Nat) (cols : List TCol) (voids : Tab Nat) : TabView :=
  { rows := rows, cols := cols, voidOf := fun r => tget 0 voids r, exts := exts
    cell := fun c r => (cols[c]?).bind fun x => blockedCell (extRead (s.peek e) exts) x r }

/-- The area that holds a derived table. -/
def Graph.derivedExt (g : Graph) (t : Nat) : List Extent :=
  match g.area 7 t with
  | some a => [{ addr := a.base, len := a.len, space := .hbm }]
  | none => []

/-- What the lanes have decoded of table `t` for stream `n` (R281). -/
def State.decOf (s : State) (n t : Nat) : Dec := tget {} (s.stream n).dec t
/-- Whether a row of a table has been decoded, or has become void, for a stream; and whether every row has. -/
def Dec.has (d : Dec) (r : Nat) : Bool := (d.cells.any fun x => x.1 == r) || d.voids.any fun x => x.1 == r
def Dec.whole (d : Dec) (rows : Nat) : Bool := decide (rows ≤ d.cells.length + d.voids.length)

/-- The view of the table that a TABLE word names (R331), for stream `n`: attached, or derived. -/
def State.viewTable (s : State) (e : BusEnv) (g : Graph) (n w : Nat) : TabView :=
  if bitOf w 12 then
    let t := bitsOf w 31 16
    let b := s.builtOf t
    s.viewBlocked e (g.derivedExt t) b.count b.cols b.voids
  else
    let t := s.table (w % 4096)
    if t.format == 3 then { s.viewBlocked e t.extents t.rows t.cols [] with input := true }
    else { rows := t.rows, cols := t.cols, voidOf := fun r => tget 0 (s.decOf n (w % 4096)).voids r, exts := t.extents
           cell := fun c r => some ((tget [] (s.decOf n (w % 4096)).cells r).getD c {}) }

/-- Whether extents lie on a bus that may not be read now (R102), or in memory under test (R469): the work that needs them waits. -/
def State.waitsBus (s : State) (exts : List Extent) : Bool :=
  (!s.inD0 && exts.any fun x => x.space == .bus) || s.memHeld (exts.map fun x => (x.space, x.addr, x.len))

/-- Whether a table can be read for stream `n`: every row of a format that the lanes decode has been decoded (R281), and no extent waits for
the bus. -/
def State.tableReady (s : State) (n w : Nat) : Bool :=
  bitOf w 12 || (let t := s.table (w % 4096);
    if t.format == 3 then !s.waitsBus t.extents else (s.decOf n (w % 4096)).whole t.rows)

/-- The effects of reading pieces of memory. -/
def State.readPieces (s : State) (ps : List (Space × Nat × Nat)) : State := ps.foldl (fun t p => t.readEffect p.1 p.2.1 p.2.2) s

/-- Whether data read from pieces of memory is poisoned: the task that reads it is held (R367). -/
def State.poisonedIn (s : State) (ps : List (Space × Nat × Nat)) : Bool := ps.any fun p => p.1 == .hbm && s.poisonAt p.2.1 p.2.2

/-- The pieces of memory that hold the columns named. -/
def TabView.pieces (v : TabView) (cols : List Nat) : List (Space × Nat × Nat) :=
  (cols.filterMap fun c => v.cols[c]?).flatMap fun c => extPieces v.exts c.off c.len

/-- The pieces of memory that hold the rows from `first` of a fixed-width column. -/
def TabView.rowPieces (v : TabView) (c first count : Nat) : List (Space × Nat × Nat) :=
  match v.cols[c]? with
  | none => []
  | some x =>
    if x.len == 0 then []
    else ((List.range count).filter fun i => decide (first + i < v.rows)).flatMap fun i =>
      let r := first + i
      let at_ := x.off + r / 8192 * spanBytes x.ty x.nullable
      (if x.nullable then extPieces v.exts (at_ + r % 8192 / 8) 1 else []) ++
        extPieces v.exts (at_ + (if x.nullable then 1024 else 0) + tyBits x.ty * (r % 8192) / 8) (tyBits x.ty / 8)

/-- Where the columns of a new blocked table lie: span index and data offsets (R125, R126). -/
def layTable (rows : Nat) (cols : List TCol) : List TCol :=
  let spans := ceilDiv rows 8192
  let idx0 := alignUp 64 (64 + 32 * cols.length)
  let nVar := (cols.filter fun c => isVar c.ty).length
  let data0 := alignUp 0x400000 (idx0 + nVar * alignUp 64 (8 * spans))
  (cols.foldl (fun (a : List TCol × Nat × Nat) c =>
    let len := if isVar c.ty then 0 else spans * spanBytes c.ty c.nullable
    (a.1 ++ [{ c with off := a.2.2, idx := if isVar c.ty then a.2.1 else 0, len := len }],
      if isVar c.ty then a.2.1 + alignUp 64 (8 * spans) else a.2.1, alignUp 0x400000 (a.2.2 + len))) ([], idx0, data0)).1

/-- Lays out and writes one column of a derived table; answers the column with its length and where the next begins. -/
def putTableCol (m : Tab Byte) (base : Nat) (c : TCol) (off : Nat) (cells : List Cell) : Tab Byte × TCol × Nat :=
  let r := putColumn m (base + off) c.ty c.nullable c.param cells
  let idx := r.2.1.flatMap fun x => leBytes 8 (x - base - off)
  let end_ := r.2.2 - base
  (writeBytes r.1 (base + c.idx) idx, { c with off := off, len := end_ - off }, alignUp 0x400000 end_)

/-- The 64-byte header and the descriptors of a blocked table (R126). -/
def tableHead (rows len : Nat) (cols : List TCol) : Bytes :=
  let h := [0x51#8, 0x42#8, 0x4C#8, 0x1A#8] ++ leBytes 2 1 ++ leBytes 2 cols.length ++ leBytes 8 rows ++ leBytes 8 len ++ List.replicate 36 0#8
  h ++ leBytes 4 (crc32c h) ++ cols.flatMap fun c =>
    let a := leBytes 1 c.ty ++ leBytes 1 (b2n c.nullable) ++ leBytes 1 c.param ++ [0#8]
    let b := leBytes 8 c.off ++ leBytes 8 c.idx ++ leBytes 8 c.len
    a ++ leBytes 4 (crc32c (a ++ b)) ++ b

/-- Writes a blocked table at an HBM area: the columns as laid out, or none where it does not fit the area (R333). -/
def State.putTable (s : State) (a : AreaRec) (cols : List TCol) (rows : List (List Cell)) : Option (List TCol × State) :=
  let lay := layTable rows.length cols
  let data0 := (lay.head?.map fun c => c.off).getD 0x400000
  let m0 := clearRange s.mem.hbm a.base a.len
  let r := (lay.zipIdx).foldl (fun (x : Tab Byte × List TCol × Nat) p =>
    let q := putTableCol x.1 a.base p.1 x.2.2 (rows.map fun cs => cs.getD p.2 {})
    (q.1, x.2.1 ++ [q.2.1], q.2.2)) (m0, [], data0)
  let end_ := (r.2.1.map fun c => c.off + c.len).foldl max data0
  if a.len < end_ then none
  else
    let m1 := writeBytes r.1 a.base (tableHead rows.length end_ r.2.1)
    some (r.2.1, (s.modMem fun m => { m with
      hbm := m1, ecc := m.ecc.filter fun w => !(decide (a.base ≤ 8 * w.1) && decide (8 * w.1 < a.base + a.len)) }).countHbm true a.base end_)

/-- The columns that an operator reads from tensor slots (R331). -/
def inputCols (u op : Nat) (ps : List Nat) : List ColW :=
  let key := fun i => takeCols (ps.drop i)
  let one := fun i => [parseCol (ps.getD i 0)]
  match u, op with
  | 1, 1 => (key 2).1
  | 1, 2 => (key 4).1
  | 1, 4 => (key 3).1
  | 1, 6 => (key 4).1 ++ ((key 4).2.take 1).map parseCol
  | 1, 8 => (key 2).1 ++ ((key 2).2.take 1).map parseCol
  | 1, 9 => (key 2).1 ++ (takeCols (key 2).2).1
  | 1, 10 => one 1
  | 1, 11 => (key 1).1
  | 1, 12 => (key 2).1
  | 2, 1 => one 4
  | 2, 2 => if ps.getD 2 0 == 2 then [] else one 8
  | 3, 1 => (key 3).1
  | 3, 2 => one 2
  | 4, 1 => one 6
  | 4, 2 => one 6 ++ (key 7).1
  | 4, 3 => one 7 ++ (key 8).1
  | _, _ => []

/-- A running unit task: graph, template, parameter words, record, cluster, template number, task slot. -/
structure Job2 where
  g : Graph
  t : Tpl
  ps : List Nat
  r : TaskRec
  k : Nat
  tpl : Nat
  slot : Nat
  deriving DecidableEq, Repr

/-- Parameter word `i`. -/
def Job2.p (j : Job2) (i : Nat) : Nat := j.ps.getD i 0

/-- Whether the task is a table stage with a derived table's area of its own (R333). -/
def Job2.derived (j : Job2) : Option AreaRec := if j.t.stage then j.g.area 7 j.tpl else none

/-- The running record of a unit's task in a slot, with its operator (R331): none where the slot runs no such task, or the unit
takes no work. -/
def State.unitJob (s : State) (k slot u op : Nat) : Option Job2 :=
  match s.work.graph with
  | none => none
  | some g =>
    let r := (s.disp k).task slot
    if r.state != .running || r.ended || !s.clusterIn k || s.err.state == 2 || s.isFenced 2 k || !s.unitWorks k u then none
    else match g.tpl r.tpl with
      | none => none
      | some t => if t.kind == 3 && t.unit == u && t.op == op then some { g := g, t := t, ps := g.params t, r := r, k := k, tpl := r.tpl, slot := slot } else none

/-- The end of a unit's work: TASK_COMPLETE may follow; a failed table stage keeps its status (R166). -/
def State.unitEnd (s : State) (k slot fail : Nat) : State :=
  s.modDisp k fun d => { d with slots := tmod {} slot (fun r => { r with ended := true, fail := fail }) d.slots }

/-- What a body answers beside its state where it has read poisoned data: the task is held until the fault handling decides (R367). -/
def stHeld : Nat := 256

/-- Runs a unit's work; a body that answers none waits, and one that answers `stHeld` has read but not worked. -/
def State.unitRun (s : State) (k slot u op : Nat) (f : Job2 → State → Option (State × Nat)) : State :=
  match s.unitJob k slot u op with
  | none => s
  | some j =>
    match f j s with
    | some r => if r.2 == stHeld then r.1 else r.1.unitEnd k slot r.2
    | none => s

/-- The local row numbers of a task and their row slots. -/
def rowList (r : Rows) : List (Nat × Nat) := (List.range r.count).map fun i => (i, r.first + i)

/-- The slots behind the programs of a table stage that set a flag a template waits for on cluster `l` of the variant: the slots that these
programs' tiles are prefetched from, and those behind them in turn (R117, R167; log entry 127). -/
def Graph.feedSlots (g : Graph) (l : Nat) : Nat → Tpl → List Nat
  | 0, _ => []
  | fuel + 1, t =>
    (List.range g.tplCount).flatMap fun i => match g.tpl i with
      | none => []
      | some u =>
        let ps := g.tables.places.filter fun p => p.tpl == i && p.cluster == l
        if u.kind != 1 || !u.stage || u.stream != t.stream || u.setGroup != t.waitGroup || Nat.land u.setMask t.waitMask == 0 || ps.isEmpty then []
        else ((ps.filter fun p => p.pfLen != 0).filterMap fun p =>
            (g.tables.slots.find? fun x => x.cluster == l && decide (x.off ≤ p.pfSrc) && decide (p.pfSrc < x.off + x.len)).map fun x => x.slot) ++
          g.feedSlots l fuel u

/-- The void reason of row `row` that a task of a table stage finds in the slots it reads, or behind the programs that computed them. -/
def State.stageReason (s : State) (g : Graph) (k : Nat) (t : Tpl) (slots : List Nat) (row : Nat) : Nat :=
  let at_ := fun z => tget 0 (tget [] s.work.slotVoids (256 * k + z)) row
  let own := (slots.map at_).find? fun x => x != 0
  match own with
  | some x => x
  | none =>
    if slots.all fun z => s.work.slotVoids.any fun p => p.1 == 256 * k + z then 0
    else (((g.feedSlots ((s.logicalOf k).getD 16) g.tplCount t).map at_).find? fun x => x != 0).getD 0

/-- The void reason of a row of a task (local number and row slot), or 0: that of the batch's row slot, or in a table stage that of the row
in the operator's input columns (R117, R168). -/
def Job2.reason (j : Job2) (s : State) (p : Nat × Nat) : Nat :=
  match j.r.batch with
  | some b => s.voidOf j.r.stream (some b) p.2
  | none => s.stageReason j.g j.k j.t ((inputCols j.t.unit j.t.op j.ps).map fun c => c.slot) p.1

/-- Whether a row of a task is void. -/
def Job2.isVoid (j : Job2) (s : State) (p : Nat × Nat) : Bool := j.reason s p != 0

/-- Whether the row mask of the task's operator is false or null for a row of a batch: the row is absent (R169). -/
def Job2.masked (j : Job2) (s : State) (p : Nat × Nat) : Bool :=
  match j.r.batch, j.g.decls.masks.find? fun m => m.1 == j.tpl with
  | some _, some m => let x := s.slotCell j.k (parseCol m.2) p.1; !x.valid || x.bits == 0
  | _, _ => false

/-- Whether a row takes no part in the task's operator: void, or masked out. -/
def Job2.absent (j : Job2) (s : State) (p : Nat × Nat) : Bool := j.isVoid s p || j.masked s p

/-- Makes a row of a batch void; in a table stage the reason goes with the output row. -/
def State.jobVoid (s : State) (j : Job2) (row reason : Nat) : State :=
  match j.r.batch with
  | some b => if reason == 0 then s else s.markVoid j.r.stream b row reason
  | none => s

/-- Notes which columns hold rows of a batch (R114), and which of their cells are valid (R544). -/
def State.noteOut (s : State) (j : Job2) (cs : List ColW) (rs : Rows) (rows : List (List Cell)) : State :=
  match j.r.batch with
  | none => s
  | some b =>
    (cs.zipIdx).foldl (fun t p => t.mark j.r.stream j.r.batch j.k p.1.slot (cellMarks p.1 ((rows.zipIdx).map fun q => (q.2, q.1.getD p.2 {}))))
      (s.noteCols j.r.stream b (cs.map fun c => { k := j.k, first := rs.first, count := rs.count, col := c }))

/-- Writes several output columns of a task from rows of cells. -/
def State.putOuts (s : State) (j : Job2) (cs : List ColW) (rs : Rows) (rows : List (List Cell)) : State :=
  ((cs.zipIdx).foldl (fun t p => t.putSlot j.k p.1 (rows.map fun r => r.getD p.2 {})) s).noteOut j cs rs rows

/-- Void reasons of a list of rows, by position. -/
def voidTab (rows : List Nat) : Tab Nat := (rows.zipIdx).foldl (fun t p => if p.1 == 0 then t else tset 0 p.2 p.1 t) []

/-- A derived table from the output rows of its stage's tasks, in the order of their input (R185, R333); ST_LIMIT where its area is too
small. -/
def State.putDerived (s : State) (j : Job2) (a : AreaRec) (cs : List ColW) (outs : List OutPart) : State × Nat :=
  let cols := cs.map fun c : ColW => ({ ty := c.ty, nullable := c.nullable, param := if c.ty == 0x30 || c.ty == 0x42 then c.param else 0 } : TCol)
  let rows := outs.flatMap fun p => p.rows
  match s.putTable a cols (rows.map fun r => r.1) with
  | some (lay, s1) => (s1.setBuilt j.tpl { s.builtOf j.tpl with rows := [], count := rows.length, cols := lay, voids := voidTab (rows.map fun r => r.2), outs := outs }, 0)
  | none => (s, stLimit)

/-- Insertion of a task's output rows in the order of its input rows; a task that runs again replaces its own. -/
def insertPart (p : OutPart) (l : List OutPart) : List OutPart :=
  let r := l.filter fun q => q.place != p.place
  (r.filter fun q => decide (q.first ≤ p.first)) ++ p :: r.filter fun q => decide (p.first < q.first)

/-- Void reasons of the rows that a table stage has written to slot columns. -/
def State.setSlotVoids (s : State) (k : Nat) (cs : List ColW) (vs : Tab Nat) : State :=
  cs.foldl (fun (t : State) c => t.modWork fun w => { w with slotVoids := tset [] (256 * k + c.slot) vs w.slotVoids }) s

/-- Writes the output rows of a table-context operator, each with its void reason: into the derived table of the stage, or into slot columns
of the task's cluster without an area (log entry 52). -/
def State.putStage (s : State) (j : Job2) (cs : List ColW) (rs : Rows) (rows : List (List Cell × Nat)) : State × Nat :=
  let full := rows.map fun r => if r.2 == 0 then r else ([], r.2)
  match j.derived with
  | some a => s.putDerived j a cs (insertPart { place := j.r.place, first := rs.first, rows := full } (s.builtOf j.tpl).outs)
  | none =>
    ((s.putOuts j cs rs (full.map fun r => r.1)).setSlotVoids j.k cs (voidTab (full.map fun r => r.2)), 0)

/-- Writes a result that the tasks of a stage share: the whole derived table, or slot columns without an area. -/
def State.putWhole (s : State) (j : Job2) (cs : List ColW) (rs : Rows) (rows : List (List Cell)) : State × Nat :=
  match j.derived with
  | some a => s.putDerived j a cs [{ place := j.r.place, first := 0, rows := rows.map fun r => (r, 0) }]
  | none => (s.putOuts j cs rs rows, 0)

/-- One output row for each row of a task, in its place (R162, R163): a void row's cells hold their fill with validity 0 (R114), and it stays
void (R117); a masked-out row's outputs are null (R169). -/
def State.putRows (s : State) (j : Job2) (cs : List ColW) (rs : Rows) (f : Nat → List Cell) : State × Nat :=
  let rows := (rowList rs).map fun p => let v := j.reason s p; (if j.absent s p then [] else f p.1, v)
  if j.t.stage then s.putStage j cs rs rows else (s.putOuts j cs rs (rows.map fun r => r.1), 0)

/-- The placement entries of a template, by cluster and then by number. -/
def Graph.tplPlaces (g : Graph) (tpl : Nat) : List Nat :=
  (List.range 16).flatMap fun c => ((g.tables.places.zipIdx).filter fun p => p.1.tpl == tpl && p.1.cluster == c).map fun p => p.2

/-- What the tasks of an operator have brought so far, as they came; the same in ascending cluster order; and with a task's own part. -/
def State.broughtTo (s : State) (j : Job2) : List InPart :=
  match j.r.batch with
  | some b => ((((s.stream j.r.stream).batch b).map fun (x : Batch) => x.shares).getD []).filterMap fun (p : Nat × InPart) => if p.1 == j.tpl then some p.2 else none
  | none => (s.builtOf j.tpl).ins
def State.partsOf (s : State) (j : Job2) : List InPart :=
  (j.g.tplPlaces j.tpl).filterMap fun i => (s.broughtTo j).find? fun p => p.place == i
def State.putPart (s : State) (j : Job2) (p : InPart) : State :=
  match j.r.batch with
  | some b => s.modBatch j.r.stream b fun x => { x with shares := x.shares.filter (fun q => !(q.1 == j.tpl && q.2.place == p.place)) ++ [(j.tpl, p)] }
  | none => s.setBuilt j.tpl { s.builtOf j.tpl with ins := ((s.builtOf j.tpl).ins.filter fun q => q.place != p.place) ++ [p] }

/-- Uses an HBM area of an operator, from byte `at_` on, for `n` bytes whose layout the spec does not give: they hold free values (log entry 89). Spilled data goes by a
reserved DMA channel (R381). -/
def State.useArea (s : State) (kind owner at_ n : Nat) : State :=
  match s.work.graph.bind fun g => g.area kind owner with
  | none => s
  | some a =>
    if n == 0 then s
    else
      let bs := (List.range (min n (a.len - at_))).map fun i => Config.freeByte s.free i
      let s1 := ({ s with free := s.free + 1 } : State).writeSpace .hbm (a.base + at_) bs
      if kind == 3 || kind == 5 then s1.carried 56 n else s1

end Sys2Proof.Machine
end

