-- ==== Sys2Proof/Machine/Intake.lean ====
section
/-! DEFINITION. The intake lanes (chapter 09): intake records and limit sets (R269 to R271), the shuffle permutation (R279, R280),
batches and epochs (R282 to R284), the order in which a lane takes batches (R545), failed fetches (R272). -/

namespace Sys2Proof.Machine

/-- A budget slot of an intake record (R269). A MULT of 0 is applied as 8. -/
structure BudgetRec where
  mean     : Nat
  mult     : Nat
  patience : Nat
  reserve  : Nat
  deriving DecidableEq, Repr

def parseBudget (b : Bytes) : BudgetRec :=
  { mean := fieldAt b 0 4, mult := if fieldAt b 4 1 == 0 then 8 else fieldAt b 4 1, patience := fieldAt b 8 4, reserve := fieldAt b 12 4 }

/-- A stream intake record (R269). -/
structure IntakeRec where
  stream    : Nat
  mode      : Nat
  flags     : Nat
  window    : Nat
  footer    : Nat
  group     : Nat
  pageComp  : Nat
  pageUncomp : Nat
  value     : Nat
  list      : Nat
  record    : Nat
  dict      : Nat
  imgW      : Nat
  imgH      : Nat
  imgPix    : Nat
  image     : BudgetRec
  text      : BudgetRec
  deriving DecidableEq, Repr

def parseIntake (b : Bytes) : IntakeRec :=
  { stream := fieldAt b 0 1, mode := fieldAt b 1 1, flags := fieldAt b 2 2, window := fieldAt b 4 4, footer := fieldAt b 8 4
    group := fieldAt b 12 4, pageComp := fieldAt b 16 4, pageUncomp := fieldAt b 20 4, value := fieldAt b 24 4, list := fieldAt b 28 4
    record := fieldAt b 32 4, dict := fieldAt b 36 4, imgW := fieldAt b 40 2, imgH := fieldAt b 42 2, imgPix := fieldAt b 44 4
    image := parseBudget (b.drop 64), text := parseBudget (b.drop 80) }

def Graph.intakes (g : Graph) : List IntakeRec := (recs (g.sect 5) 16 128 (fieldAt (g.sect 5) 0 4)).map parseIntake

/-- The intake record of a stream. -/
def Graph.intakeRec (g : Graph) (n : Nat) : IntakeRec := ((g.intakes).find? fun r => r.stream == n).getD (parseIntake [])

/-- Whether a declared size exceeds its limit (R271; R112 beneath the limit set). -/
def IntakeRec.exceeds (r : IntakeRec) : Declared → Bool
  | .pageComp n => decide (r.pageComp < n)
  | .pageUncomp n => decide (r.pageUncomp < n)
  | .zstd w d => decide (8388608 < w) || d != 0
  | .dict n => decide (r.dict < n)
  | .value n => decide (min r.value 16777216 < n)
  | .list n => decide (min r.list 65536 < n)
  | .record n => decide (r.record < n)
  | .image w h => decide (r.imgW < w) || decide (r.imgH < h) || decide (r.imgPix < w * h)

/-- The round function of R279. -/
def rf (key x h : Nat) : Nat :=
  let x := Nat.xor x key * 0x9FB21C651E98DF25 % 2 ^ 64
  let x := Nat.xor x (x / 2 ^ 32)
  let x := x * 0x9FB21C651E98DF25 % 2 ^ 64
  let x := Nat.xor x (x / 2 ^ 29)
  x / 2 ^ (64 - h)

def roundKeys (seed epoch stream tag : Nat) : List Nat :=
  let k := mix64 (Nat.xor (Nat.xor seed (epoch * 256 % 2 ^ 64)) stream)
  (List.range 4).map fun r => mix64 ((k + tag * 4 + r) % 2 ^ 64)

/-- The four-round network: a bijection of the numbers below 2^(2h) (R279). -/
def feistel (x h : Nat) (rk : List Nat) : Nat :=
  let r := rk.foldl (fun (a : Nat × Nat) k => (a.2, Nat.xor a.1 (rf k a.2 h))) (x / 2 ^ h, x % 2 ^ h)
  r.1 * 2 ^ h + r.2

/-- Cycle-walking: the value and how many evaluations it took. A cycle has at most 2^(2h) members, which `fuel` counts. -/
def cycleWalk (n h : Nat) (rk : List Nat) : Nat → Nat → Nat → Nat × Nat
  | 0, y, c => (y, c)
  | fuel + 1, y, c => if n ≤ y then cycleWalk n h rk fuel (feistel y h rk) (c + 1) else (y, c)

/-- Half the bits of the domain of n values. -/
def halfBits (n : Nat) : Nat := ((if n ≤ 1 then 0 else Nat.log2 (n - 1) + 1) + 1) / 2

/-- The permutation of the numbers below n, and the evaluations it takes (R279, R280). -/
def permute (x n : Nat) (rk : List Nat) : Nat × Nat :=
  if n ≤ 1 then (0, 0) else cycleWalk n (halfBits n) rk (4 ^ halfBits n) (feistel x (halfBits n) rk) 1

/-- The source row of position p in epoch e, and the evaluations (R279). -/
def sourceRow (p n mode w seed e stream : Nat) : Nat × Nat :=
  match mode with
  | 0 => (p, 0)
  | 1 => permute p n (roundKeys seed e stream 0)
  | _ =>
    let full := n / max 1 w
    let j := p / max 1 w
    let a := if j < full then permute j full (roundKeys seed e stream 1) else (full, 0)
    let size := if j < full then w else n - full * w
    let b := permute (p % max 1 w) size (roundKeys seed e stream (2 + a.1))
    (a.1 * w + b.1, a.2 + b.2)

/-- Epoch and position of slot `i` of batch `b` (R282). -/
def Stream.posOf (st : Stream) (rows b i : Nat) : Nat × Nat :=
  let m := ((st.marks.filter fun m => decide (m.1 ≤ b)).getLast?).getD (0, 0)
  let g := (b - m.1) * rows + i
  ((m.2 + g / max 1 st.rows) % 2 ^ 32, g % max 1 st.rows)

/-- The source row of slot `i` of batch `b` of stream `n`, and the evaluations (R283). -/
def State.slotRow (s : State) (g : Graph) (n b i : Nat) : Nat × Nat :=
  let st := s.stream n
  let r := g.intakeRec n
  let p := st.posOf (((g.cadence n).map fun c => c.rows).getD 0) b i
  sourceRow p.2 st.rows r.mode r.window st.seed p.1 n

/-- Windows of an epoch under WINDOWED (R279, R280). -/
def windowsPer (rows w : Nat) : Nat := (rows + max 1 w - 1) / max 1 w

/-- The window that holds slot `i` of batch `b` under WINDOWED: the mark it is counted from, and its number since then. -/
def Stream.windowOf (st : Stream) (rows w b i : Nat) : Nat × Nat :=
  let f := (((st.marks.filter fun m => decide (m.1 ≤ b)).getLast?).getD (0, 0)).1
  let g := (b - f) * rows + i
  (f, g / max 1 st.rows * windowsPer st.rows w + g % max 1 st.rows / max 1 w)

/-- The first batch that holds a row of a window. -/
def Stream.windowBatch (st : Stream) (rows w : Nat) (x : Nat × Nat) : Nat :=
  let z := max 1 (windowsPer st.rows w)
  x.1 + (x.2 / z * st.rows + x.2 % z * w) / max 1 rows

/-- The window whose turn comes after a window: the next of its mark, or the first of the next mark where that begins before it. -/
def Stream.windowAfter (st : Stream) (rows w : Nat) (x : Nat × Nat) : Nat × Nat :=
  match (st.marks.filter fun m => decide (x.1 < m.1)).head? with
  | some m => if st.windowBatch rows w (x.1, x.2 + 1) < m.1 then (x.1, x.2 + 1) else (m.1, 0)
  | none => (x.1, x.2 + 1)

/-- The source rows of a window: the first, and how many. -/
def Stream.windowRows (st : Stream) (w n : Nat) (x : Nat × Nat) : Nat × Nat :=
  let z := max 1 (windowsPer st.rows w)
  let e := ((((st.marks.find? fun m => m.1 == x.1).map fun m => m.2).getD 0) + x.2 / z) % 2 ^ 32
  let full := st.rows / max 1 w
  let j := x.2 % z
  let p := if j < full then (permute j full (roundKeys st.seed e n 1)).1 else full
  (p * w, if j < full then w else st.rows - full * w)

/-- The source table of a stream: landed, or the table that its TABLE word names (R281). -/
def State.viewSource (s : State) (e : BusEnv) (g : Graph) (n : Nat) : TabView :=
  let b := s.builtOf (landedKey n)
  if b.count != 0 then
    s.viewBlocked e (((g.area 1 n).map fun a => [({ addr := a.base, len := a.len, space := .hbm } : Extent)]).getD []) b.count b.cols b.voids
  else s.viewTable e g n (s.stream n).src

/-- The logical number of a physical lane within the running variant (R275, R482). -/
def State.laneNo (s : State) (g : Graph) (i : Nat) : Option Nat :=
  (s.lanesIn.findIdx? fun x => x == i).bind fun j => if j < g.cfg.intake then some j else none

/-- How a batch's rows come from the source: 0 by pages as they are decoded, 1 from blocked memory, 2 from windows (R281). -/
def State.sourceForm (s : State) (g : Graph) (n : Nat) : Nat :=
  let src := (s.stream n).src
  if bitOf src 12 || (s.builtOf (landedKey n)).count != 0 || (s.table (src % 4096)).format == 3 then 1
  else if (g.intakeRec n).mode == 2 then 2 else 0

/-- Whether a lane goes on with the work it has: in service, not fenced, the device not failed (R467). -/
def State.laneRuns (s : State) (i : Nat) : Bool := s.laneIn i && !s.isFenced 12 i && s.err.state != 2

/-- Whether a lane takes up new work: its domain is not being powered down besides (R404). -/
def State.laneWorks (s : State) (i : Nat) : Bool := s.laneRuns i && !s.draining (16 + i)

/-- The slots of a batch that logical lane `j` of `l` decodes (R275). -/
def laneSlots (l j rows : Nat) : List Nat := (List.range rows).filter fun i => i % max 1 l == j

/-- The batch that a lane works on, as long as that batch is still instantiated and this lane has begun it. -/
def State.laneBatch (s : State) (i : Nat) : Option (Nat × Nat) :=
  (s.lane i).cur.bind fun c =>
    if ((s.stream c.1).batch c.2).any fun x => bitOf x.intake i && !bitOf x.intakeDone i then some c else none

/-- Whether a lane has work of a batch left to finish: begun and not done, or not begun at all (R545). -/
def State.laneOwes (s : State) (i n b : Nat) : Bool :=
  !(((s.stream n).batch b).any fun x => bitOf x.intakeDone i)

/-- Whether batch `b` of stream `n` comes next for a lane: the lane has finished every batch that precedes it, by start position and
then stream number (R545). -/
def State.isNextFor (s : State) (i n b start : Nat) : Bool :=
  (List.range 64).all fun m =>
    let st := s.stream m
    (st.phase != .open_ && st.phase != .closing) ||
      (match s.cadence m with
      | none => s.laneIn i
      | some c => (List.range 17).all fun d =>
        let x := st.released + d
        let q := ((st.batch x).map fun y => y.start).getD (st.startOf c x)
        (m == n && x == b) || !(st.batch x).isSome && !decide (x < st.runLimit) || st.stop.any (fun z => decide (z ≤ x)) || !s.laneOwes i m x ||
          decide (start < q) || (q == start && decide (n ≤ m)))

/-- The slots of a batch that physical lane `i` decodes. -/
def State.ownSlots (s : State) (g : Graph) (i n : Nat) : List Nat :=
  match s.laneNo g i with
  | none => []
  | some j => laneSlots g.cfg.intake j (((g.cadence n).map fun c => c.rows).getD 0)

/-- Slot `i` of a batch lies in one of these windows, the one in work and the two that it may run ahead to (R281). -/
def Stream.windowsNear (st : Stream) (rows w b i : Nat) : List (Nat × Nat) :=
  let a := st.windowOf rows w b i
  let c := st.windowAfter rows w a
  [a, c, st.windowAfter rows w c]

/-- The declarations of a stream's TOKENISE and IMAGE_PREP operators, in the graph's order, as far as FLAGS marks their class (R269). -/
def Graph.textsOf (g : Graph) (n : Nat) : List TokDecl := if bitOf (g.intakeRec n).flags 2 then g.toks.filter fun d => d.stream == n else []
def Graph.imagesOf (g : Graph) (n : Nat) : List PrepDecl := if bitOf (g.intakeRec n).flags 1 then g.preps.filter fun d => d.stream == n else []

/-- The values of a class that a row gives, by their column, in the order of the declarations (R275): class 1 IMAGE, a value once however many
declarations prepare it; class 2 TEXT, a value for each declaration. -/
def Graph.budgetCols (g : Graph) (n cls : Nat) : List Nat :=
  if cls == 1 then ((g.imagesOf n).map fun d => d.col).eraseDups else (g.textsOf n).map fun d => d.col

/-- The columns that a lane keeps of a batch's rows: budgeted values, and per-row MESH and LENS lists (R287, R297). -/
def Graph.valueCols (g : Graph) (n : Nat) : List Nat :=
  g.budgetCols n 1 ++ g.budgetCols n 2 ++ (g.imagesOf n).flatMap fun d => d.meshCol.toList ++ d.lensCol.toList

/-- The lane's account of a class. -/
def Lane.budget (l : Lane) (cls : Nat) : Budget := if cls == 1 then l.image else l.text

/-- A value of a decoded row. -/
def Lane.value (l : Lane) (slot col : Nat) : Cell := (tget [] l.raw slot).getD col {}

/-- Whether value `p` (row slot, place among the row's values of the class) is a sample still to be taken: present, in a row that was not void when
it was decoded and that no sample of the class has made void (R275, R278; log entry 128). -/
def Lane.pendingSample (l : Lane) (cols : List Nat) (cls : Nat) (p : Nat × Nat) : Bool :=
  ((l.budget cls).last.all fun q => decide (q.1 < p.1) || (q.1 == p.1 && decide (q.2 < p.2))) && (cols[p.2]?).any (fun c => (l.value p.1 c).valid) &&
    !l.late.contains (p.1, cls)

/-- The sample of a class that a lane takes next, in ascending slot order and within a slot in the order of the declarations; none before the rows
up to it are decoded (R275, R545). -/
def State.nextSample (s : State) (g : Graph) (i n cls : Nat) : Option (Nat × Nat) :=
  let l := s.lane i
  let cols := g.budgetCols n cls
  let all := (s.ownSlots g i n).flatMap fun slot => (List.range cols.length).map fun o => (slot, o)
  (all.find? fun p => l.todo.contains p.1 || l.pendingSample cols cls p).bind fun p => if l.todo.contains p.1 then none else some p

/-- Whether every output of the batch's budgeted operators is written for the lane's rows. -/
def State.allMade (s : State) (g : Graph) (i n : Nat) : Bool :=
  (s.ownSlots g i n).all fun slot => (List.range (g.textsOf n).length).all (fun o => (s.lane i).made.contains (slot, false, o)) &&
    (List.range (g.imagesOf n).length).all fun o => (s.lane i).made.contains (slot, true, o)

/-- A lane takes a batch: its slots are to be decoded, its budgets are fresh (R275, R276). Windows behind the batch's first are dropped. -/
def State.laneTake (s : State) (g : Graph) (i j n b nImage nText : Nat) : State :=
  let rows := ((g.cadence n).map fun c => c.rows).getD 0
  let slots := laneSlots g.cfg.intake j rows
  let near := (s.stream n).windowsNear rows (g.intakeRec n).window b (slots.headD 0)
  let other := fun p : Nat × Into × Nat × Nat => match p.2.1 with
    | .batch _ => false
    | .table _ => true
    | .window f k => p.1 != n || near.contains (f, k)
  (s.modLane i fun l => { l with
    cur := some (n, b), todo := slots, fetchSlot := 0, raw := [], made := [], images := [], late := []
    refused := l.refused.filter other, passed := l.passed.filter other
    windows := l.windows.filter fun w => w.stream != n || near.contains (w.mark, w.k)
    image := { total := nImage }, text := { total := nText } }).modBatch n b fun x => { x with intake := withBit x.intake i true }

/-- A lane that has nothing of its batch left has finished it (R545). -/
def State.laneSettle (s : State) (i : Nat) : State :=
  match s.laneBatch i, s.work.graph with
  | some (n, b), some g =>
    let l := s.lane i
    if l.todo.isEmpty && l.images.isEmpty && (s.nextSample g i n 1).isNone && (s.nextSample g i n 2).isNone && s.allMade g i n then
      (s.modLane i fun l => { l with cur := none }).modBatch n b fun x => { x with intakeDone := withBit x.intakeDone i true }
    else s
  | _, _ => s

/-- INTAKE_BATCH_BEGIN: a lane begins a batch that is instantiated everywhere, whose start position is reached and that comes next for
it (R48, R336, R545), unless a cluster it would land in is being powered down (R404); while its slots are not computed it waits, a stall that
counts once (R284). The operands give how many IMAGE and TEXT samples the lane's rows hold, n of R276. -/
def execIntakeBatchBegin (lane : Fin 8) (n : Fin 64) (b nImage nText : Nat) (s : State) : Host.Outcome State Fault Refusal :=
  let s := s.noteStalls lane.val
  .next (match s.work.graph, (s.stream n.val).batch b with
    | some g, some x =>
      match s.laneNo g lane.val with
      | none => s
      | some j =>
        if !s.laneWorks lane.val || !s.allInst n.val b || !decide (x.start ≤ s.pos) || bitOf x.intake lane.val ||
          (s.laneBatch lane.val).isSome || (s.pwr.request.any fun q => q.2.1 && s.landsIn g n.val q.1) || !s.isNextFor lane.val n.val b x.start || (s.stream n.val).stop.any fun z => decide (z ≤ b) then s
        else if (s.lane lane.val).shuffled.contains (n.val, b) then
          (s.laneTake g lane.val j n.val b nImage nText).laneSettle lane.val
        else s
    | _, _ => s)

/-- SHUFFLE_SLOTS_COMPUTED: the generator of a lane completes its slots of a batch, at most 16 batches ahead of the stream's first
unreleased batch; its evaluations are counted (R279, R280, R284). A fetch that waits may begin: INTAKE_BATCH_BEGIN follows. -/
def execShuffleSlotsComputed (lane : Fin 8) (n : Fin 64) (b : Nat) (s : State) : Host.Outcome State Fault Refusal :=
  let s := s.noteStalls lane.val
  .next (match s.work.graph with
    | none => s
    | some g =>
      match s.laneNo g lane.val with
      | none => s
      | some j =>
        let st := s.stream n.val
        let l := s.lane lane.val
        if !s.laneWorks lane.val || (st.phase != .open_ && st.phase != .closing) || decide (b < st.released) || decide (st.released + 16 < b) ||
          l.shuffled.contains (n.val, b) then s
        else
          let rows := ((g.cadence n.val).map fun c => c.rows).getD 0
          let steps := ((laneSlots g.cfg.intake j rows).map fun i => (s.slotRow g n.val b i).2).foldl (· + ·) 0
          s.modLane lane.val fun l => { l with
            shufSteps := (l.shufSteps + steps) % 2 ^ 64
            stalls := l.stalls.filter fun p => !(p.1 == n.val && decide (p.2 < st.released))
            shuffled := (l.shuffled.filter fun p => !(p.1 == n.val && decide (p.2 < st.released))) ++ [(n.val, b)] })

/-- SET_EPOCH discards computed slots of the batches whose mark it changes (from `lo` up to the next mark, `hi`), and input fetched
for them, windows decoded ahead among it (R281, R284). -/
def State.dropShuffled (s : State) (n lo : Nat) (hi : Option Nat) : State :=
  let hit := fun p : Nat × Nat => p.1 == n && decide (lo ≤ p.2) && hi.all fun h => decide (p.2 < h)
  let wipe := fun x : Batch => if hit (n, x.num) && !x.begun then { x with intake := 0, intakeDone := 0, voids := [], cols := [] } else x
  let s := s.noteAllStalls
  let s1 := s.modStream n fun st => { st with batches := st.batches.map wipe }
  let drop := fun l : Lane =>
    let sh := l.shuffled.filter fun p => !(hit p)
    let cu := if l.cur.any hit then none else l.cur
    let wi := l.windows.filter fun w => w.stream != n || !hit (n, w.mark)
    { l with shuffled := sh, cur := cu, windows := wi }
  (List.range 8).foldl (fun (t : State) i => if drop (t.lane i) = t.lane i then t else t.modLane i drop) s1

/-- A stream that opens begins with nothing fetched, checked or decoded for it (R270, R281). -/
def State.freshInput (s : State) (n : Nat) : State :=
  let drop := fun l : Lane => { l with refused := l.refused.filter fun p => p.1 != n, passed := l.passed.filter fun p => p.1 != n
                                       windows := l.windows.filter fun w => w.stream != n, stalls := l.stalls.filter fun p => p.1 != n }
  (List.range 8).foldl (fun (t : State) i => if drop (t.lane i) = t.lane i then t else t.modLane i drop) (s.dropShuffled n 0 none)

/-- A lane's own count of a void row, by reason, and the last such row (R271, R272, R274, R277). -/
def Lane.countVoid (l : Lane) (n row reason : Nat) : Lane :=
  let m := { l with lastReason := reason, lastStream := n, lastRow := row }
  match reason with
  | 1 => { m with voidCorrupt := sat32 m.voidCorrupt 1 }
  | 2 => { m with voidLimit := sat32 m.voidLimit 1 }
  | 3 => { m with voidBudget := sat32 m.voidBudget 1 }
  | _ => { m with voidSource := sat32 m.voidSource 1 }

/-- A lane makes a row slot of a batch void; a row that is void already keeps its first reason and is not counted (R117, R274). -/
def State.laneVoid (s : State) (g : Graph) (i n b slot reason : Nat) : State :=
  if s.voidOf n (some b) slot != 0 then s
  else (s.markVoid n b slot reason).modLane i fun l => l.countVoid n (s.slotRow g n b slot).1 reason

/-- What the lanes have decoded of a table for a stream, changed. -/
def State.modDec (s : State) (n t : Nat) (f : Dec → Dec) : State := s.modStream n fun st => { st with dec := tmod {} t f st.dec }

/-- A lane makes a row of a table void while it decodes the table (R281). -/
def State.laneVoidRow (s : State) (i n t row reason : Nat) : State :=
  if (s.decOf n t).has row then s
  else (s.modDec n t fun x => { x with voids := tset 0 row reason x.voids }).modLane i fun l => l.countVoid n row reason

/-- A row of a window in a lane's buffers, where the lane has decoded it. -/
def Lane.keptRow (l : Lane) (n : Nat) (x : Nat × Nat) (row : Nat) : Option Kept :=
  (l.windows.find? fun w => w.stream == n && w.mark == x.1 && w.k == x.2).bind fun w => w.rows.lookup row

/-- Puts rows of a window into a lane's buffers; each is decoded once for the window (R281). -/
def Lane.keepRows (l : Lane) (n : Nat) (x : Nat × Nat) (rows : List (Nat × Kept)) : Lane :=
  let new := rows.filter fun r => (l.keptRow n x r.1).isNone
  let put := fun (w : WinBuf) => { w with rows := w.rows ++ new }
  let mine := fun (w : WinBuf) => w.stream == n && w.mark == x.1 && w.k == x.2
  { l with windows := if l.windows.any mine then l.windows.map fun w => if mine w then put w else w
                      else l.windows ++ [put { stream := n, mark := x.1, k := x.2 }] }

/-- Makes rows void that a lane decodes; a window's rows are counted when they are delivered. -/
def State.laneVoids (s : State) (g : Graph) (i n reason : Nat) (into : Into) (rows : List Nat) : State :=
  match into with
  | .window f k => s.modLane i fun l => l.keepRows n (f, k) (rows.map fun r => (r, { reason := reason }))
  | _ => rows.foldl (fun t r => match into with
    | .batch b => t.laneVoid g i n b r reason
    | .table x => t.laneVoidRow i n x.val r reason
    | .window .. => t) s

/-- Whether a lane works for a window now: the batch it works on is of that stream, the window is the one that its next row lies in or one of
the two after it, and the batch that the window's first row belongs to has reached its start position (R281, R545; DEDUCED, log entry 129). -/
def State.windowOpen (s : State) (g : Graph) (i n f k : Nat) : Bool :=
  let st := s.stream n
  let w := (g.intakeRec n).window
  match s.laneBatch i, g.cadence n with
  | some (m, b), some c =>
    let x := st.windowBatch c.rows w (f, k)
    m == n && s.sourceForm g n == 2 && ((s.lane i).todo.head?).any (fun slot => (st.windowsNear c.rows w b slot).contains (f, k)) &&
      decide (((st.batch x).map fun y => y.start).getD (st.startOf c x) ≤ s.pos)
  | _, _ => false

/-- Whether a lane works for a target now: the batch that it has begun, a window of that batch's stream, or a table while OPEN_STREAM runs its
table stages (R281, R545). -/
def State.laneOn (s : State) (g : Graph) (i n : Nat) (into : Into) : Bool :=
  s.laneRuns i && match into with
  | .batch b => s.laneBatch i == some (n, b)
  | .table _ => s.laneWorks i && (s.stream n).phase == .opening
  | .window f k => s.windowOpen g i n f k

/-- The rows of a list that a lane has still to decode of a target: the slots it owes of a batch, rows of a table or a window that it has not
decoded. -/
def State.laneRows (s : State) (g : Graph) (i n : Nat) (into : Into) (rows : List Nat) : List Nat :=
  if !s.laneOn g i n into then []
  else match into with
  | .batch _ => (s.lane i).todo.filter fun r => rows.contains r
  | .table t => rows.filter fun r => decide (r < (s.table t.val).rows) && !(s.decOf n t.val).has r
  | .window f k =>
    let x := (s.stream n).windowRows (g.intakeRec n).window n (f, k)
    rows.filter fun r => decide (x.1 ≤ r) && decide (r < x.1 + x.2) && ((s.lane i).keptRow n (f, k) r).isNone

/-- Those that it may decode next: a batch's in ascending slot order (R545). -/
def State.laneNext (s : State) (g : Graph) (i n : Nat) (into : Into) (rows : List Nat) : List Nat :=
  match into with
  | .batch _ => if s.laneOn g i n into then (s.lane i).todo.takeWhile fun r => rows.contains r else []
  | _ => s.laneRows g i n into rows

/-- Rows of a batch leave the lane's list once they are decoded or void. -/
def State.laneDid (s : State) (i : Nat) (into : Into) (rows : List Nat) : State :=
  match into with
  | .batch _ => s.modLane i fun l => { l with todo := l.todo.filter fun r => !rows.contains r }
  | _ => s

/-- The extents that a lane reads: those of a batch's source, or of the table it decodes. -/
def State.laneExts (s : State) (e : BusEnv) (g : Graph) (n : Nat) : Into → List Extent
  | .batch _ => (s.viewSource e g n).exts
  | .table t => (s.table t.val).extents
  | .window .. => (s.table ((s.stream n).src % 4096)).extents

/-- The attached table that a target's bytes belong to. -/
def State.laneTable (s : State) (n : Nat) : Into → Table
  | .table t => s.table t.val
  | _ => s.table ((s.stream n).src % 4096)

/-- The physical cluster of a destination. -/
def State.destCluster (s : State) (d : Dest) : Option Nat := s.clusters[d.cluster.val]?

/-- The slot columns of destinations, as a batch's (R114). -/
def State.destCols (s : State) (ds : List Dest) : List ColAt :=
  ds.flatMap fun d => match s.destCluster d with
    | some k => (d.cols.filter (· != 0)).map fun w => ({ k := k, first := d.first, count := d.count, col := parseCol w } : ColAt)
    | none => []

/-- Notes where a batch's rows go, so that void rows take their fill there (R114). -/
def State.noteDests (s : State) (n : Nat) (into : Into) (ds : List Dest) : State :=
  match into with
  | .batch b => s.noteCols n b (s.destCols ds)
  | _ => s

/-- The landed table of a GLOBAL stream, once its source is decoded whole: a blocked table in its LANDING area; ST_LIMIT where it does not
fit (R281, R333). -/
def State.landTable (s : State) (g : Graph) (n t : Nat) : State :=
  let x := s.table t
  let d := s.decOf n t
  match g.area 1 n with
  | none => s
  | some a =>
    if !(s.stream n).landing || (s.stream n).src != t || !d.whole x.rows then s
    else
      let rows := (List.range x.rows).map fun r => if tget 0 d.voids r == 0 then tget [] d.cells r else x.cols.map fun _ => ({} : Cell)
      match s.putTable a x.cols rows with
      | some (lay, s1) => ((s1.setBuilt (landedKey n) { rows := [], count := x.rows, cols := lay, voids := d.voids }).modStream n fun st => { st with landing := false }).stageDone n 0
      | none => s.stageFail n stLimit

/-- What follows once rows of a target are decoded or void: a batch that is finished, a source that is landed whole (R281, R545). -/
def State.laneLanded (s : State) (g : Graph) (i n : Nat) (into : Into) : State :=
  match into with
  | .table t => s.landTable g n t.val
  | _ => s.laneSettle i

/-- Makes rows of a unit void that a lane has still to decode: their columns hold their fill (R114), and they count as done. -/
def State.voidUnit (s : State) (g : Graph) (i n reason : Nat) (into : Into) (u : UnitRows) : State :=
  let rs := s.laneRows g i n into u.rows
  ((((s.noteDests n into u.dests).laneVoids g i n reason into rs).laneDid i into rs).laneLanded g i n into)

/-- Whether a byte range touches one of a list of units, or lies within one. -/
def unitHit (n : Nat) (into : Into) (off len : Nat) (p : Nat × Into × Nat × Nat) : Bool :=
  p.1 == n && p.2.1 == into && decide (p.2.2.1 < off + len) && decide (off < p.2.2.1 + p.2.2.2)
def unitHolds (n : Nat) (into : Into) (off len : Nat) (p : Nat × Into × Nat × Nat) : Bool :=
  p.1 == n && p.2.1 == into && decide (p.2.2.1 ≤ off) && decide (off + len ≤ p.2.2.1 + p.2.2.2)

/-- Whether a read of a unit's bytes may be made (R270, R545): none of a refused unit; the body of a page or a buffer (FORMAT 0 and 1, whose units have
headers) only after its header has passed; a batch's rows in ascending slot order. -/
def State.fetchOpen (s : State) (i n : Nat) (into : Into) (off len : Nat) (u : UnitRows) : Bool :=
  let l := s.lane i
  !(l.refused.any (unitHit n into off len)) && (u.header || decide (2 ≤ (s.laneTable n into).format) || l.passed.any (unitHolds n into off len)) &&
    (match into with
    | .batch _ => u.rows.all fun r => decide (l.fetchSlot ≤ r)
    | _ => true)

/-- INTAKE_FETCH_COMPLETE: a read of a range of the source completes, or fails after its retries: the rows whose bytes it covered become
void with VR_SOURCE_ERROR (R272, R367), and during a table stage OPEN_STREAM fails with ST_BUS_ERROR (R166, R274). No byte of a refused
unit is read (R270), and nothing from a bus that may not be read (R102). -/
def execIntakeFetchComplete (lane : Fin 8) (n : Fin 64) (into : Into) (off len : Nat) (u : UnitRows) (e : BusEnv) (s : State) :
    Host.Outcome State Fault Refusal :=
  let s := s.env e
  .next (match s.work.graph with
    | none => s
    | some g =>
      if !s.laneOn g lane.val n.val into then s
      else
        let exts := s.laneExts e g n.val into
        if (!s.inD0 && (extPieces exts off len).any fun p => p.1 == .bus) || s.memHeld (extPieces exts off len) || !s.fetchOpen lane.val n.val into off len u then s
        else
        let ok := (extRead (s.peek e) exts off len).isSome
        let s1 := (extPieces exts off len).foldl (fun t p => t.readEffect p.1 p.2.1 p.2.2) s
        let s2 := match into with
          | .batch _ => s1.modLane lane.val fun l => { l with fetchSlot := max l.fetchSlot (u.rows.foldl min (u.rows.headD 0)) }
          | _ => s1
        if ok then s2.modLane lane.val fun l => { l with bytesIn := (l.bytesIn + len) % 2 ^ 64 }
        else match into with
          | .table _ => s2.stageFail n.val stBusError
          | _ => s2.voidUnit g lane.val n.val vrSourceError into u)

/-- INTAKE_HEADER_CHECK: a declared size past its limit makes the rows of its unit void with VR_OVER_LIMIT, before anything is reserved
for them, and the unit's body is never read; a unit within its limits may be (R270, R271). -/
def execIntakeHeaderCheck (lane : Fin 8) (n : Fin 64) (into : Into) (h : UnitHeader) (u : UnitRows) (s : State) :
    Host.Outcome State Fault Refusal :=
  .next (match s.work.graph with
    | none => s
    | some g =>
      if !s.laneOn g lane.val n.val into then s
      else if h.sizes.any (g.intakeRec n.val).exceeds then
        (s.modLane lane.val fun l => { l with refused := (n.val, into, h.off, h.len) :: l.refused
                                              passed := l.passed.filter fun p => !unitHit n.val into h.off h.len p }).voidUnit g lane.val n.val vrOverLimit into u
      else s.modLane lane.val fun l => { l with passed := (n.val, into, h.off, h.len) :: l.passed })

end Sys2Proof.Machine
end

