-- ==== Sys2Proof/Machine/HostCmds.lean ====
section
/-! DEFINITION. The command-table operations on graphs and streams that need no table or image: UNLOAD_GRAPH, CLOSE_STREAM,
SET_EPOCH, RUN, CANCEL, FENCE (chapter 03; R282, R359). -/

namespace Sys2Proof.Machine

/-- Whether a stream is open, closing included. -/
def State.opened (s : State) (n : Nat) : Bool := (s.stream n).phase == .open_ || (s.stream n).phase == .closing

/-- Whether any stream of the graph is open or being opened or closed. -/
def State.graphBusy (s : State) : Bool := s.work.streams.any fun p => p.2.phase != .closed

/-- Everything that a graph has put into the dispatchers, cores, flows, Weir instances and table stages goes with it; program faults are
cleared (R59, R159; log entry 31). -/
def State.dropGraph (s : State) : State :=
  s.modWork fun w => { w with
    graph := none
    disps := w.disps.foldl (fun (t : Tab Disp) p =>
      tset {} p.1 { p.2 with slots := [], frames := [], delay := [], ready := [], unitQ := [] } t) []
    cores := w.cores.foldl (fun (t : Tab Core) p => tset {} p.1 { p.2 with faulted := false, faultInfo := 0, faultAddr := 0, ctx := none } t) []
    flows := [], weirs := [], saved := [], built := [], slotVoids := [], trc := { w.trc with laid := [] } }

/-- UNLOAD_GRAPH (R59): ST_BUSY while a stream is open; without a graph ST_BAD_DESCRIPTOR (log entry 30). -/
def execUnloadGraph (seq : Nat) (s : State) : Host.Outcome State Fault Refusal :=
  .next (s.begin seq opUnload fun _ s =>
    match s.work.graph with
    | none => s.finish seq stBadDescriptor 0
    | some g => if s.graphBusy then s.finish seq stBusy 0 else (s.dropGraph.floorCheck).finish seq stOk g.id)

/-- RUN commands of a closing stream end at the first unbegun batch, cancelled (R76). -/
def Stream.cutRuns (st : Stream) : Stream :=
  { st with runLimit := min st.runLimit st.firstUnbegun
            runs := st.runs.map fun r => { r with last := min r.last st.firstUnbegun, cancelled := true, own := st.begunOf st.firstUnbegun r } }

/-- A closing stream's batches at or above a stop are discarded; they are never released (R160). -/
def State.dropStopped (s : State) (n : Nat) : State :=
  match (s.stream n).stop with
  | none => s
  | some x =>
    let d := (s.discard n false fun b => match b with | some y => decide (x ≤ y) | none => false).2
    d.modStream n fun st => { st with batches := st.batches.filter fun b => decide (b.num < x) }

/-- RUN commands of a stream that are accepted and have not begun complete with ST_CANCELLED (R76). -/
def State.cancelWaitingRuns (s : State) (n : Nat) : State :=
  (s.cmds.filter fun c => c.entry.opcode == opRun && c.entry.stream == n && decide (c.phase = .accepted)).foldl
    (fun t c => t.finish c.seq stCancelled 0) s

/-- CLOSE_STREAM (R73, R76, R348, R354, R360). -/
def execCloseStream (seq : Nat) (s : State) : Host.Outcome State Fault Refusal :=
  .next (s.begin seq opClose fun c s =>
    let n := c.entry.stream
    if (s.stream n).phase != .open_ then s.finish seq stBadDescriptor 0
    else
      let s1 := (s.dropStopped n).modStream n fun st => { st with phase := .closing, closeSeq := some seq, armed := none }
      let s2 := (((s1.discardUnbegun n).2.modStream n Stream.cutRuns).cancelWaitingRuns n).skipFlows n
      ((s2.endRuns n).endClose n).settle.pairJoined)

/-- Puts an epoch mark into the list in rising FROM_BATCH order, replacing one of the same FROM_BATCH (R282). -/
def setMark (f e : Nat) : List (Nat × Nat) → List (Nat × Nat)
  | [] => [(f, e)]
  | m :: ms => if f < m.1 then (f, e) :: m :: ms else if f = m.1 then (f, e) :: ms else m :: setMark f e ms

/-- SET_EPOCH (R73, R282). -/
def execSetEpoch (seq : Nat) (s : State) : Host.Outcome State Fault Refusal :=
  .next (s.begin seq opEpoch fun c s =>
    let n := c.entry.stream
    if (s.stream n).phase != .open_ then s.finish seq stBadDescriptor 0
    else if c.entry.p 1 < (s.stream n).firstUnbegun then s.finish seq stLimit 0
    else
      let hi := (((s.stream n).marks.filter fun m => decide (c.entry.p 1 < m.1)).head?).map fun m => m.1
      ((s.modStream n fun st => { st with marks := setMark (c.entry.p 1) (c.entry.p 0) st.marks }).dropShuffled n (c.entry.p 1) hi).finish seq stOk 0)

/-- RUN: the run limit rises by BATCHES; the command stays outstanding until its last batch is released (R73, R74). -/
def execRun (seq : Nat) (s : State) : Host.Outcome State Fault Refusal :=
  .next (s.begin seq opRun fun c s =>
    let n := c.entry.stream
    if (s.stream n).phase != .open_ then s.finish seq stBadDescriptor 0
    else (s.modStream n fun st => { st with
      runLimit := st.runLimit + c.entry.p 0
      runs := st.runs ++ [{ seq := seq, last := st.runLimit + c.entry.p 0, count := 0, cancelled := false }] }).endStop n)

/-- The command that a CANCEL names: an accepted, not completed RUN, FENCE or QUERY, the latest of the id (R94, R95). -/
def State.cancelTarget (s : State) (c : Cmd) : Option Cmd :=
  (s.cmds.filter fun x => x.qp == c.entry.p 1 && x.entry.id == c.entry.p 0 && x.seq != c.seq &&
    (x.entry.opcode == opRun || x.entry.opcode == opFence || x.entry.opcode == opQuery) &&
    (decide (x.phase = .accepted) || (decide (x.phase = .executing) && x.entry.opcode == opRun))).getLast?

/-- CANCEL (R94 to R96, R348, R349). -/
def execCancel (seq : Nat) (s : State) : Host.Outcome State Fault Refusal :=
  .next (s.begin seq opCancel fun c s =>
    match s.cancelTarget c with
    | none => s.finish seq stOk 0
    | some x =>
      let r := if decide (x.phase = .accepted) then (0, s.finish x.seq stCancelled 0) else s.cancelRun x.entry.stream x.seq
      (r.2.modCmd seq fun c => { c with target := some x.seq, count := r.1 }).settle)

/-- FENCE: completes once every command accepted before it, on its queue pair or on all, has completed (R97). -/
def execFence (seq : Nat) (s : State) : Host.Outcome State Fault Refusal :=
  .next (match s.cmd seq with
    | some c =>
      if s.cmds.any fun x => decide (x.seq < seq) && (bitOf (c.entry.p 0) 0 || x.qp == c.qp) then s
      else s.begin seq opFence fun _ s => s.finish seq stOk 0
    | none => s)

end Sys2Proof.Machine
end

