-- ==== Sys2Proof/Machine/Jpeg.lean ====
section
/-! DEFINITION. The JPEG decoder (R293 to R296; log entry 12): segments, tables, entropy-coded data, the inverse DCT. A value is read in byte order, and
the first thing in it that breaks R293 gives the cause. -/

namespace Sys2Proof.Machine

/-- A component of a frame: identifier, sampling factors, quantisation table, and the DC and AC tables that the scan gives it. -/
structure JpegComp where
  id : Nat
  h  : Nat
  v  : Nat
  tq : Nat
  td : Nat := 0
  ta : Nat := 0
  deriving DecidableEq, Repr

/-- What the segments before a scan have said: quantisation tables in zigzag order; Huffman tables (codes of each length, symbols) by 16 times the
class plus the number; restart interval; width, height and components of SOF0. -/
structure JpegHead where
  quant   : Tab (List Nat) := []
  huff    : Tab (List Nat × List Nat) := []
  restart : Nat := 0
  w       : Nat := 0
  h       : Nat := 0
  comps   : List JpegComp := []
  framed  : Bool := false
  deriving DecidableEq, Repr

/-- A breach of R293 that the table of R295 does not name: its code is free (log entry 12). -/
def jpgOther : Nat := 8

/-- A 2-byte number, most significant byte first. -/
def be2 (b : Bytes) (o : Nat) : Nat := (b.getD o 0#8).toNat * 256 + (b.getD (o + 1) 0#8).toNat

/-- The tables of a DQT segment: 8-bit values (baseline). `fuel` counts tables. -/
def jpgDqt : Nat → Bytes → JpegHead → Except Nat JpegHead
  | 0, _, _ => .error jpgOther
  | fuel + 1, b, h =>
    match b with
    | [] => .ok h
    | x :: r =>
      if 4 ≤ x.toNat || r.length < 64 then .error jpgOther
      else jpgDqt fuel (r.drop 64) { h with quant := tset [] x.toNat ((r.take 64).map BitVec.toNat) h.quant }

/-- The tables of a DHT segment: baseline has two of each class. `fuel` counts tables. -/
def jpgDht : Nat → Bytes → JpegHead → Except Nat JpegHead
  | 0, _, _ => .error jpgOther
  | fuel + 1, b, h =>
    match b with
    | [] => .ok h
    | x :: r =>
      let counts := (r.take 16).map BitVec.toNat
      let n := counts.foldl (· + ·) 0
      if !(x.toNat == 0 || x.toNat == 1 || x.toNat == 16 || x.toNat == 17) || r.length < 16 + n then .error jpgOther
      else jpgDht fuel (r.drop (16 + n)) { h with huff := tset ([], []) x.toNat (counts, ((r.drop 16).take n).map BitVec.toNat) h.huff }

/-- Whether components and sampling factors are those of R293. -/
def compsOk (cs : List JpegComp) : Bool :=
  match cs with
  | [a] => decide (1 ≤ a.h) && decide (a.h ≤ 4) && decide (1 ≤ a.v) && decide (a.v ≤ 4)
  | [a, b, c] => ((a.h == 1 && a.v == 1) || (a.h == 2 && a.v == 1) || (a.h == 2 && a.v == 2)) && b.h == 1 && b.v == 1 && c.h == 1 && c.v == 1
  | _ => false

/-- The SOF0 segment: its size stands whatever else it breaks (R271, R295). -/
def jpgSof (b : Bytes) (h : JpegHead) : JpegHead × Nat :=
  let n := (b.getD 5 0#8).toNat
  let cs := (List.range n).map fun i =>
    let hv := (b.getD (7 + 3 * i) 0#8).toNat
    ({ id := (b.getD (6 + 3 * i) 0#8).toNat, h := hv / 16, v := hv % 16, tq := (b.getD (8 + 3 * i) 0#8).toNat } : JpegComp)
  if b.length < 6 then (h, jpgOther)
  else
    let h1 := { h with h := be2 b 1, w := be2 b 3, comps := cs, framed := true }
    (h1, if b.getD 0 0#8 != 8#8 then 1
      else if !(n == 1 || n == 3) then 2
      else if b.length != 6 + 3 * n then jpgOther
      else if !compsOk cs || h1.h == 0 then 2
      else if h1.w == 0 then jpgOther
      else 0)

/-- The SOS segment: the components with their tables, or a cause. -/
def jpgSos (b : Bytes) (h : JpegHead) : Except Nat (List JpegComp) :=
  let n := (b.getD 0 0#8).toNat
  if !h.framed then .error 3
  else if n != h.comps.length then .error 2
  else if b.length != 4 + 2 * n || be2 b (1 + 2 * n) != 63 || b.getD (3 + 2 * n) 0#8 != 0#8 then .error jpgOther
  else
    let cs := (h.comps.zipIdx).map fun c =>
      let t := (b.getD (2 + 2 * c.2) 0#8).toNat
      { c.1 with td := t / 16, ta := t % 16 }
    if (h.comps.zipIdx).any fun c => (b.getD (1 + 2 * c.2) 0#8).toNat != c.1.id then .error jpgOther
    else if cs.any fun c => (h.quant.lookup c.tq).isNone || (h.huff.lookup c.td).isNone || (h.huff.lookup (16 + c.ta)).isNone then .error 4
    else .ok cs

/-- What reading the segments of a value comes to: what they said; the scan's components and the bytes behind its header, or a cause. -/
structure JpegRead where
  head : JpegHead
  scan : Except Nat (List JpegComp × Bytes)

/-- The segments from a marker on, up to and with SOS. `fuel` counts segments. -/
def jpgSegs : Nat → Bytes → JpegHead → JpegRead
  | 0, _, h => { head := h, scan := .error 3 }
  | fuel + 1, b, h =>
    let stop := fun (x : JpegHead) (c : Nat) => ({ head := x, scan := .error c } : JpegRead)
    if b.isEmpty then stop h 3
    else if b.headD 0#8 != 0xFF#8 then stop h jpgOther
    else match b.dropWhile fun x => x == 0xFF#8 with
    | [] => stop h 3
    | x :: r =>
      let m := x.toNat
      if m == 0xD9 then stop h 3
      else if 0xD0 ≤ m && m ≤ 0xD7 then stop h 6
      else if m < 0xC0 || m == 0xD8 then stop h jpgOther
      else
        let len := be2 r 0
        if r.length < 2 || r.length < len then stop h 3
        else if len < 2 then stop h jpgOther
        else
          let body := (r.drop 2).take (len - 2)
          let rest := r.drop len
          let go := fun (x : Except Nat JpegHead) => match x with
            | .ok h1 => jpgSegs fuel rest h1
            | .error c => stop h c
          if m == 0xC0 then
            (if h.framed then stop h 3
            else
              let q := jpgSof body h
              if q.2 == 0 then jpgSegs fuel rest q.1 else stop q.1 q.2)
          else if m == 0xC4 then go (jpgDht (body.length + 1) body h)
          else if m == 0xDB then go (jpgDqt (body.length + 1) body h)
          else if m == 0xDD then (if len == 4 then jpgSegs fuel rest { h with restart := be2 body 0 } else stop h jpgOther)
          else if m == 0xDA then
            (match jpgSos body h with
            | .ok cs => { head := h, scan := .ok (cs, rest) }
            | .error c => stop h c)
          else if (0xE0 ≤ m && m ≤ 0xEF) || m == 0xFE then jpgSegs fuel rest h
          else if m == 0xDC then stop h 2
          else if m < 0xD0 && m != 0xC8 && m != 0xCC then stop h 1
          else stop h jpgOther

/-- The entropy-coded data at the start of bytes: its intervals without stuffed bytes, each with the number of the RSTn that ends it (8: none), and
what follows from the marker that ends the data; none where the bytes end. `fuel` counts bytes. -/
def jpgEcs : Nat → Bytes → Bytes → List (Bytes × Nat) × Option Bytes
  | 0, acc, _ => ([(acc.reverse, 8)], none)
  | fuel + 1, acc, b =>
    match b with
    | [] => ([(acc.reverse, 8)], none)
    | x :: r =>
      if x != 0xFF#8 then jpgEcs fuel (x :: acc) r
      else match r.dropWhile fun y => y == 0xFF#8 with
      | [] => ([(acc.reverse, 8)], none)
      | m :: q =>
        if m == 0#8 then jpgEcs fuel (0xFF#8 :: acc) q
        else if 0xD0 ≤ m.toNat && m.toNat ≤ 0xD7 then
          (let z := jpgEcs fuel [] q
           ((acc.reverse, m.toNat - 0xD0) :: z.1, z.2))
        else ([(acc.reverse, 8)], some (m :: q))

/-- What stands behind a scan, from its marker on: the bytes behind EOI, or a cause. `fuel` counts segments. -/
def jpgTail : Nat → Bytes → Except Nat Bytes
  | 0, _ => .error 3
  | fuel + 1, b =>
    match b.dropWhile fun x => x == 0xFF#8 with
    | [] => .error 3
    | x :: r =>
      let m := x.toNat
      if m == 0xD9 then .ok r
      else if m == 0xDA || m == 0xDC then .error 2
      else if m == 0xC0 then .error 3
      else if 0xC0 ≤ m && m < 0xD0 && m != 0xC4 && m != 0xC8 && m != 0xCC then .error 1
      else if (0xE0 ≤ m && m ≤ 0xEF) || m == 0xFE then
        (if r.length < 2 || r.length < be2 r 0 then .error 3 else if be2 r 0 < 2 then .error jpgOther
         else
          let q := r.drop (be2 r 0)
          if q.isEmpty then .error 3 else if q.headD 0#8 != 0xFF#8 then .error jpgOther else jpgTail fuel q)
      else .error jpgOther

/-- The bits of bytes, most significant first. -/
def bitsMsb (b : Bytes) : List Bool := b.flatMap fun x => (List.range 8).map fun i => x.getLsbD (7 - i)

/-- The next symbol of a Huffman table: 5 where no code of 16 bits or fewer stands there, 7 where the bits end. -/
def jpgSym (syms : List Nat) : List Nat → Nat → Nat → Nat → List Bool → Except Nat (Nat × List Bool)
  | [], _, _, _, _ => .error 5
  | _ :: _, _, _, _, [] => .error 7
  | n :: ns, code, first, idx, b :: bs =>
    let c := 2 * code + b2n b
    if c < first + n then .ok (syms.getD (idx + (c - first)) 0, bs) else jpgSym syms ns c (2 * (first + n)) (idx + n) bs

/-- `n` further bits as the signed value that they extend to (T.81). -/
def jpgExtend (n : Nat) (bs : List Bool) : Except Nat (Int × List Bool) :=
  if bs.length < n then .error 7
  else
    let v := (bs.take n).foldl (fun a b => 2 * a + b2n b) 0
    .ok (if n == 0 then 0 else if 2 ^ (n - 1) ≤ v then (v : Int) else (v : Int) - (2 ^ n : Nat) + 1, bs.drop n)

/-- The AC coefficients of a block from index `k` on, as index and value. `fuel` counts codes. -/
def jpgAc (t : List Nat × List Nat) : Nat → Nat → List Bool → List (Nat × Int) → Except Nat (List (Nat × Int) × List Bool)
  | 0, _, bs, acc => .ok (acc, bs)
  | fuel + 1, k, bs, acc =>
    if 63 < k then .ok (acc, bs)
    else match jpgSym t.2 t.1 0 0 0 bs with
    | .error c => .error c
    | .ok (rs, b1) =>
      let run := rs / 16
      let size := rs % 16
      if size == 0 then
        (if run == 0 then .ok (acc, b1) else if run != 15 || 63 < k + 15 then .error 5 else jpgAc t fuel (k + 16) b1 acc)
      else if 63 < k + run || 10 < size then .error 5
      else match jpgExtend size b1 with
      | .error c => .error c
      | .ok (v, b2) => jpgAc t fuel (k + run + 1) b2 ((k + run, v) :: acc)

/-- The index in a block, row by row, of a coefficient in zigzag order. -/
def zigzag : List Nat :=
  [0, 1, 8, 16, 9, 2, 3, 10, 17, 24, 32, 25, 18, 11, 4, 5, 12, 19, 26, 33, 40, 48, 41, 34, 27, 20, 13, 6, 7, 14, 21, 28] ++
    [35, 42, 49, 56, 57, 50, 43, 36, 29, 22, 15, 23, 30, 37, 44, 51, 58, 59, 52, 45, 38, 31, 39, 46, 53, 60, 61, 54, 47, 55, 62, 63]

/-- 10^18 cos(n pi / 16), rounded, for n from 0 to 8. -/
def cosTab : List Int :=
  [1000000000000000000, 980785280403230449, 923879532511286756, 831469612302545237, 707106781186547524, 555570233019602225, 382683432365089772,
    195090322016128268, 0]
def cos16 (n : Nat) : Int :=
  let m := n % 32
  if m ≤ 8 then cosTab.getD m 0 else if m ≤ 16 then -cosTab.getD (16 - m) 0 else if m ≤ 24 then -cosTab.getD (m - 16) 0 else cosTab.getD (32 - m) 0

/-- A sample of the inverse DCT of dequantised coefficients (row, column, value), level-shifted by 128, rounded to the nearest integer and clamped
(R294). A sum within 10^-9 of a half counts as the half, which goes up (log entry 12). -/
def idctAt (cs : List (Nat × Nat × Int)) (x y : Nat) : Nat :=
  let root := fun (u v : Nat) => if u == 0 && v == 0 then (500000000000000000 : Int) else if u == 0 || v == 0 then 707106781186547524 else 1000000000000000000
  let sum := (cs.map fun c => c.2.2 * root c.2.1 c.1 * cos16 ((2 * x + 1) * c.2.1) * cos16 ((2 * y + 1) * c.1)).foldl (· + ·) 0
  let r := (2 * sum + 4 * 10 ^ 54 + 8 * 10 ^ 45) / (8 * 10 ^ 54)
  (max 0 (min 255 (r + 128))).toNat

/-- A block: its 64 samples row by row, the new DC prediction, and the bits left. -/
def jpgBlock (h : JpegHead) (c : JpegComp) (pred : Int) (bs : List Bool) : Except Nat (List Nat × Int × List Bool) :=
  let dc := tget ([], []) h.huff c.td
  match jpgSym dc.2 dc.1 0 0 0 bs with
  | .error e => .error e
  | .ok (t, b1) =>
    if 11 < t then .error 5
    else match jpgExtend t b1 with
    | .error e => .error e
    | .ok (d, b2) =>
      match jpgAc (tget ([], []) h.huff (16 + c.ta)) 64 1 b2 [] with
      | .error e => .error e
      | .ok (ac, b3) =>
        let q := tget [] h.quant c.tq
        let cs := (((0, pred + d) :: ac).filter fun (p : Nat × Int) => p.2 != 0).map fun (p : Nat × Int) =>
          (zigzag.getD p.1 0 / 8, zigzag.getD p.1 0 % 8, p.2 * ((q.getD p.1 0 : Nat) : Int))
        .ok ((List.range 64).map fun i => idctAt cs (i % 8) (i / 8), pred + d, b3)

/-- The blocks of a component in one MCU. -/
def jpgBlocks (h : JpegHead) (c : JpegComp) : Nat → Int → List Bool → List (List Nat) → Except Nat (List (List Nat) × Int × List Bool)
  | 0, p, bs, acc => .ok (acc.reverse, p, bs)
  | n + 1, p, bs, acc =>
    match jpgBlock h c p bs with
    | .error e => .error e
    | .ok (b, p1, b1) => jpgBlocks h c n p1 b1 (b :: acc)

/-- One MCU: by component its blocks, with the predictions that follow. One component alone has one block a MCU. -/
def jpgMcu (h : JpegHead) : List (JpegComp × Int) → List Bool → Except Nat (List (List (List Nat) × Int) × List Bool)
  | [], bs => .ok ([], bs)
  | c :: cs, bs =>
    match jpgBlocks h c.1 (if h.comps.length == 1 then 1 else c.1.h * c.1.v) c.2 bs [] with
    | .error e => .error e
    | .ok (b, p, b1) =>
      match jpgMcu h cs b1 with
      | .error e => .error e
      | .ok (r, b2) => .ok ((b, p) :: r, b2)

/-- `n` MCUs of an interval, from predictions of 0: by MCU and component its blocks. -/
def jpgMcus (h : JpegHead) (cs : List JpegComp) : Nat → List Int → List Bool → List (List (List (List Nat))) →
    Except Nat (List (List (List (List Nat))) × List Bool)
  | 0, _, bs, acc => .ok (acc.reverse, bs)
  | n + 1, ps, bs, acc =>
    match jpgMcu h (cs.zip ps) bs with
    | .error e => .error e
    | .ok (m, b1) => jpgMcus h cs n (m.map fun x => x.2) b1 ((m.map fun x => x.1) :: acc)

/-- The intervals of a scan from number `i` on, with `left` MCUs to come; `ends` tells whether a marker follows the last one (R295). -/
def jpgScan (h : JpegHead) (cs : List JpegComp) (ends : Bool) : List (Bytes × Nat) → Nat → Nat → List (List (List (List Nat))) →
    Except Nat (List (List (List (List Nat))))
  | [], _, _, _ => .error 7
  | (b, m) :: rest, i, left, acc =>
    let n := if h.restart == 0 then left else min h.restart left
    match jpgMcus h cs n (cs.map fun _ => 0) (bitsMsb b) [] with
    | .error e => .error (if e == 7 && m == 8 && !ends then 3 else e)
    | .ok (ms, bs) =>
      if left - n == 0 then
        (if m != 8 then .error 6 else if 8 ≤ bs.length then .error jpgOther else .ok (acc ++ ms))
      else if 8 ≤ bs.length || m != i % 8 then .error 6
      else jpgScan h cs ends rest (i + 1) (left - n) (acc ++ ms)

/-- A decoded value: size, sampling of component 1, and by MCU and component the blocks of samples, before the free step of R294. -/
structure JpegImg where
  w    : Nat
  h    : Nat
  comps : Nat
  hs   : Nat
  vs   : Nat
  mcus : List (List (List (List Nat)))
  deriving DecidableEq, Repr

/-- What a value comes to: the size that its SOF0 declares, its cycles (none where it lacks what R296 counts), and a cause of R295 or the image. -/
structure JpegOut where
  size   : Option (Nat × Nat)
  cycles : Option Nat
  padded : Nat
  res    : Except Nat JpegImg

/-- Width and height of a MCU in luma samples. -/
def mcuW (cs : List JpegComp) : Nat := if cs.length == 3 then 8 * (cs.map fun c => c.h).headD 1 else 8
def mcuH (cs : List JpegComp) : Nat := if cs.length == 3 then 8 * (cs.map fun c => c.v).headD 1 else 8

/-- The decoding of a value (R293 to R296). -/
def jpegOf (v : Bytes) : JpegOut :=
  if v.take 2 != [0xFF#8, 0xD8#8] then { size := none, cycles := none, padded := 0, res := .error 3 }
  else
    let q := jpgSegs (v.length + 1) (v.drop 2) {}
    let h := q.head
    let size := if h.framed then some (h.w, h.h) else none
    match q.scan with
    | .error c => { size := size, cycles := none, padded := 0, res := .error c }
    | .ok (cs, data) =>
      let x := jpgEcs (data.length + 1) [] data
      let tail := match x.2 with
        | some t => jpgTail (t.length + 1) t
        | none => .error 3
      let mw := ceilDiv h.w (mcuW cs)
      let mh := ceilDiv h.h (mcuH cs)
      let padded := mw * mcuW cs * (mh * mcuH cs)
      let cycles := match tail with
        | .ok behind => some (max (ceilDiv (padded * 16) 15) (2 * (data.length - behind.length - 2) + ceilDiv (v.length - data.length) 4))
        | .error _ => none
      let res := match jpgScan h cs x.2.isSome x.1 0 (mw * mh) [] with
        | .error c => .error c
        | .ok ms => match tail with
          | .error c => .error c
          | .ok _ => .ok { w := h.w, h := h.h, comps := cs.length, hs := (cs.map fun c => c.h).headD 1, vs := (cs.map fun c => c.v).headD 1, mcus := ms }
      { size := size, cycles := cycles, padded := padded, res := res }

/-- The sample of component `c` at (x, y) of that component's plane, moved by at most 1 by a free choice `u` (R294, log entry 22). -/
def JpegImg.sample (j : JpegImg) (u : Nat → Nat) (c x y : Nat) : Nat :=
  let hs := if j.comps == 3 && c == 0 then j.hs else 1
  let vs := if j.comps == 3 && c == 0 then j.vs else 1
  let mw := ceilDiv j.w (if j.comps == 3 then 8 * j.hs else 8)
  let mcu := y / (8 * max 1 vs) * mw + x / (8 * max 1 hs)
  let blk := y / 8 % max 1 vs * hs + x / 8 % max 1 hs
  let e := ((((j.mcus.getD mcu []).getD c []).getD blk []).getD (y % 8 * 8 + x % 8) 0)
  min 255 (e + u (3 * (y * (mw * 8 * j.hs) + x) + c) % 3 - 1)

end Sys2Proof.Machine
end

