-- ==== Sys2Proof/Machine/PageDecode.lean ====
section
/-! DEFINITION. What the format decoders of a lane do with fields: UTF-8 (R273), the conversions of R267, CSV records (R268), the
checks of values (R111, R112, R271, R272), and INTAKE_PAGE_DECODE. -/

namespace Sys2Proof.Machine

/-- How many continuation bytes a lead byte asks for, and the range of the first of them (R157's UTF8V); none for no lead byte. -/
def utf8Lead (b : Nat) : Option (Nat × Nat × Nat) :=
  if b < 0x80 then some (0, 0, 0)
  else if b < 0xC2 then none
  else if b < 0xE0 then some (1, 0x80, 0xBF)
  else if b == 0xE0 then some (2, 0xA0, 0xBF)
  else if b == 0xED then some (2, 0x80, 0x9F)
  else if b < 0xF0 then some (2, 0x80, 0xBF)
  else if b == 0xF0 then some (3, 0x90, 0xBF)
  else if b < 0xF4 then some (3, 0x80, 0xBF)
  else if b == 0xF4 then some (3, 0x80, 0x8F)
  else none

/-- How many of the bytes that follow continue a sequence that owes `n` more, the first of them within a range. -/
def utf8Cont : Nat → Nat → Nat → Bytes → Nat
  | 0, _, _, _ => 0
  | _ + 1, _, _, [] => 0
  | n + 1, lo, hi, b :: bs => if lo ≤ b.toNat && b.toNat ≤ hi then 1 + utf8Cont n 0x80 0xBF bs else 0

/-- The bytes of the sequence or maximal ill-formed subpart at the start, and whether it is well formed (R273). -/
def utf8Part : Bytes → Nat × Bool
  | [] => (0, true)
  | b :: bs =>
    match utf8Lead b.toNat with
    | none => (1, false)
    | some (n, lo, hi) => let k := utf8Cont n lo hi bs; (1 + k, k == n)

/-- A text with each maximal ill-formed subpart replaced by U+FFFD, and whether any was (R273). `fuel` counts bytes. -/
def utf8Fix : Nat → Bytes → Bytes × Bool
  | 0, _ => ([], false)
  | _, [] => ([], false)
  | fuel + 1, bs =>
    let p := utf8Part bs
    let r := utf8Fix fuel (bs.drop p.1)
    if p.2 then (bs.take p.1 ++ r.1, r.2) else ([0xEF#8, 0xBF#8, 0xBD#8] ++ r.1, true)

/-- What the checks of a field answer: a cell and whether UTF-8 was replaced, or a void reason. -/
inductive Checked where
  | ok (c : Cell) (fixed : Bool)
  | void (reason : Nat)
  deriving DecidableEq, Repr

def Checked.reason : Checked → Nat
  | .ok _ _ => 0
  | .void r => r
def Checked.cell : Checked → Cell
  | .ok c _ => c
  | .void _ => {}
def Checked.fixed : Checked → Bool
  | .ok _ f => f
  | .void _ => false

/-- An exact integer for an element type: outside it, or beyond R111 for DEC64, the row is over its limit (R272). -/
def checkInt (ty : Nat) (x : Int) : Checked :=
  match laneTy ty with
  | some t =>
    let lim := if t.kind = .dec then (-decMax, decMax) else (tyMin t, tyMax t)
    if lim.1 ≤ x && x ≤ lim.2 then .ok { valid := true, bits := wrapN (8 * t.size) x } false else .void vrOverLimit
  | none => .void vrCorrupt

/-- A text or byte string under the limit set (R112, R271 to R273). -/
def checkBytes (r : IntakeRec) (ty : Nat) (v : Bytes) : Checked :=
  if r.exceeds (.value v.length) then .void vrOverLimit
  else if ty != 0x40 then .ok { valid := true, bytes := v } false
  else
    let f := utf8Fix v.length v
    if !f.2 then .ok { valid := true, bytes := v } false
    else if !bitOf r.flags 0 then .void vrCorrupt
    else if r.exceeds (.value f.1.length) then .void vrOverLimit
    else .ok { valid := true, bytes := f.1 } true

/-- A time in TS_US: multiplied up, or from nanoseconds divided with floor (R267). A product outside INT64 is a case for which the spec
states no result (log entry 23). -/
def timeUs (v : Int) (unit : Nat) : Int :=
  let x := match unit with
    | 0 => v * 1000000
    | 1 => v * 1000
    | 2 => v
    | _ => v / 1000
  if -(2 ^ 63) ≤ x && x < 2 ^ 63 then x else sInt 64 (Config.unstated 6 unit (wrapN 64 v))

/-- Conversion and checks of one field of a column (R267, R271 to R273). -/
def checkField (r : IntakeRec) (c : TCol) : RawCell → Checked
  | .null => .ok {} false
  | .bits v =>
    if c.ty == 0x30 then checkInt c.ty (sInt 64 v) else .ok { valid := true, bits := outBits c.ty (v % 2 ^ tyBits c.ty) } false
  | .int v => checkInt c.ty v
  | .time v u => .ok { valid := true, bits := wrapN 64 (timeUs v u.val) } false
  | .bytes v => checkBytes r c.ty v
  | .elems v =>
    let x : Cell := { valid := true, elems := v.map (outBits c.param) }
    if r.exceeds (.list v.length) || overLimit c x then .void vrOverLimit else .ok x false

/-- The checks of a cell read from a blocked table (R111, R112, R128); an MX element keeps the scale of its block. -/
def recheck (r : IntakeRec) (c : TCol) (x : Cell) : Checked :=
  if !x.valid then .ok x false
  else if x.long then .void vrOverLimit
  else if c.ty == 0x42 then checkField r c (.elems x.elems)
  else if isVar c.ty then checkBytes r c.ty x.bytes
  else if isMx c.ty then .ok x false
  else checkField r c (.bits x.bits)

/-- The least of two void reasons that is not 0 (R117). -/
def lowReason (a b : Nat) : Nat := if a == 0 then b else if b == 0 then a else min a b

/-- Fields of a CSV record: whether quoted, and the text; none where a quote stands inside an unquoted field, text follows a closing quote,
or a quote stays open (R268, R272). The mode is 0 at a field's start, 1 in an unquoted field, 2 in a quoted one, 3 after a quote in
it. -/
def csvFields (delim : Byte) : Nat → Bytes → List (Bool × Bytes) → Bytes → Option (List (Bool × Bytes))
  | m, acc, done, [] => if m == 2 then none else some (done ++ [(m == 3, acc)])
  | m, acc, done, b :: bs =>
    if m == 2 then (if b == 0x22#8 then csvFields delim 3 acc done bs else csvFields delim 2 (acc ++ [b]) done bs)
    else if b == delim then csvFields delim 0 [] (done ++ [(m == 3, acc)]) bs
    else if b == 0x22#8 then
      (if m == 0 then csvFields delim 2 [] done bs
       else if m == 3 then csvFields delim 2 (acc ++ [b]) done bs
       else none)
    else if m == 3 then none
    else csvFields delim 1 (acc ++ [b]) done bs

/-- A string of decimal digits as a number; none where it holds anything else or nothing. -/
def digits (bs : Bytes) : Option Nat :=
  if bs.isEmpty || !(bs.all fun b => decide (0x30 ≤ b.toNat) && decide (b.toNat ≤ 0x39)) then none
  else some (bs.foldl (fun a b => 10 * a + (b.toNat - 0x30)) 0)

/-- An optional sign and the rest. -/
def takeSign : Bytes → Bool × Bytes
  | [] => (false, [])
  | b :: bs => if b == 0x2D#8 then (true, bs) else if b == 0x2B#8 then (false, bs) else (false, b :: bs)

/-- Splits at the first byte that a test picks; the second half starts behind it. -/
def splitAt (p : Byte → Bool) (bs : Bytes) : Bytes × Option Bytes :=
  let a := bs.takeWhile fun b => !p b
  if a.length < bs.length then (a, some (bs.drop (a.length + 1))) else (a, none)

/-- ASCII text as bytes. -/
def ascii (t : String) : Bytes := t.toList.map fun c => BitVec.ofNat 8 c.toNat

/-- Decimal or exponent form as an exact fraction: digits, with a point among or beside them, then perhaps an exponent. Exponents far
outside every format are drawn in to where they change no result. -/
def decimalText (bs : Bytes) : Option FVal :=
  let s := takeSign bs
  let e := splitAt (fun b => b == 0x65#8 || b == 0x45#8) s.2
  let p := splitAt (fun b => b == 0x2E#8) e.1
  let frac := p.2.getD []
  let ex : Option Int := match e.2 with
    | none => some 0
    | some x => let t := takeSign x; (digits t.2).map fun n => if t.1 then -(n : Int) else (n : Int)
  match digits (p.1 ++ frac), ex with
  | some m, some x =>
    let far : Int := 5000 + (p.1.length + frac.length : Nat)
    let k := max (-far) (min far (x - frac.length))
    if k < 0 then some (.fin s.1 m (10 ^ (-k).toNat)) else some (.fin s.1 (m * 10 ^ k.toNat) 1)
  | _, _ => none

/-- Floating-point text of R268, rounded once by RNE. -/
def floatText (f : FpFmt) (bs : Bytes) : Option Nat :=
  if bs == ascii "NaN" then some f.nanCode
  else if bs == ascii "Infinity" then some (f.encode 0 (.inf false)).1
  else if bs == ascii "-Infinity" || bs == [0xE2#8, 0x88#8, 0x92#8] ++ ascii "Infinity" then some (f.encode 0 (.inf true)).1
  else (decimalText bs).map fun v => (f.encode 0 v).1

/-- Days from 1970-01-01 to a date of the Gregorian calendar. -/
def daysFrom (y m d : Nat) : Int :=
  let y1 : Int := if m ≤ 2 then (y : Int) - 1 else y
  let era := y1 / 400
  let yoe := y1 - era * 400
  let mp : Int := if m ≤ 2 then (m : Int) + 9 else (m : Int) - 3
  let doy := (153 * mp + 2) / 5 + (d : Int) - 1
  era * 146097 + (yoe * 365 + yoe / 4 - yoe / 100 + doy) - 719468

/-- Days of a month. -/
def monthDays (y m : Nat) : Nat :=
  if m == 2 then (if (y % 4 == 0 && y % 100 != 0) || y % 400 == 0 then 29 else 28)
  else if m == 4 || m == 6 || m == 9 || m == 11 then 30 else 31

/-- YYYY-MM-DD as a day number. -/
def dateText (bs : Bytes) : Option Int :=
  match digits (bs.take 4), digits ((bs.drop 5).take 2), digits ((bs.drop 8).take 2) with
  | some y, some m, some d =>
    if bs.length == 10 && bs[4]? == some 0x2D#8 && bs[7]? == some 0x2D#8 && decide (1 ≤ m) && decide (m ≤ 12) && decide (1 ≤ d) &&
      decide (d ≤ monthDays y m) then some (daysFrom y m d) else none
  | _, _, _ => none

/-- HH:MM:SS, perhaps a fraction of 1 to 6 digits, then Z, in microseconds. -/
def clockText (bs : Bytes) : Option Int :=
  let frac := (bs.drop 9).take (bs.length - 10)
  match digits (bs.take 2), digits ((bs.drop 3).take 2), digits ((bs.drop 6).take 2) with
  | some h, some m, some x =>
    let ok := bs[2]? == some 0x3A#8 && bs[5]? == some 0x3A#8 && bs.getLast? == some 0x5A#8 && decide (h < 24) && decide (m < 60) && decide (x < 60)
    let base : Int := ((h * 60 + m) * 60 + x : Nat) * 1000000
    if !ok then none
    else if bs.length == 9 then some base
    else if bs[8]? == some 0x2E#8 && decide (1 ≤ frac.length) && decide (frac.length ≤ 6) then
      (digits frac).map fun n => base + (n * 10 ^ (6 - frac.length) : Nat)
    else none
  | _, _, _ => none

/-- A scaled decimal: sign, digits, perhaps a point and at most `scale` digits. -/
def decText (scale : Nat) (bs : Bytes) : Option Int :=
  let s := takeSign bs
  let p := splitAt (fun b => b == 0x2E#8) s.2
  let frac := p.2.getD []
  match digits p.1, digits (p.1 ++ frac) with
  | some _, some n => if frac.length ≤ scale then some ((if s.1 then -1 else 1) * (n * 10 ^ (scale - frac.length) : Nat)) else none
  | _, _ => none

/-- A CSV field of a declared column (R268); none where the text is not accepted. -/
def csvField (c : TCol) (quoted : Bool) (bs : Bytes) : Option RawCell :=
  if !quoted && bs.isEmpty then some .null
  else if c.ty == 0x40 || c.ty == 0x41 then some (.bytes bs)
  else if c.ty == 0x31 then (dateText bs).map fun d => .int d
  else if c.ty == 0x32 then
    (if bs[10]? == some 0x54#8 then
      match dateText (bs.take 10), clockText (bs.drop 11) with
      | some d, some t => some (.int (d * 86400000000 + t))
      | _, _ => none
    else none)
  else match laneTy c.ty with
  | some ⟨_, .bool⟩ =>
    if bs == ascii "true" || bs == ascii "1" then some (.bits 1) else if bs == ascii "false" || bs == ascii "0" then some (.bits 0) else none
  | some ⟨_, .flt f⟩ => (floatText f bs).map fun v => .bits v
  | some ⟨_, .dec⟩ => (decText c.param bs).map fun v => .int v
  | some _ =>
    let s := takeSign bs
    if 20 < s.2.length then none else (digits s.2).map fun n => .int (if s.1 then -(n : Int) else n)
  | none => none

/-- The checked fields of a CSV record, or the void reason of its row (R268, R271, R272). -/
def csvRecord (r : IntakeRec) (t : Table) (bs : Bytes) : Nat × List Checked :=
  if r.exceeds (.record bs.length) then (vrOverLimit, [])
  else match csvFields (BitVec.ofNat 8 t.delim) 0 [] [] bs with
  | none => (vrCorrupt, [])
  | some fs =>
    if fs.length != t.cols.length then (vrCorrupt, [])
    else
      let cells := (t.cols.zip fs).map fun p => match csvField p.1 p.2.1 p.2.2 with
        | some x => checkField r p.1 x
        | none => .void vrCorrupt
      (cells.foldl (fun a c => lowReason a c.reason) 0, cells)

/-- The records of CSV text: each ends at LF or CRLF outside quotes, and the last may lack a terminator (R268). -/
def csvRecords (quote : Bool) (acc : Bytes) : Bytes → List Bytes
  | [] => if acc.isEmpty then [] else [acc.reverse]
  | b :: bs =>
    if b == 0x0A#8 && !quote then (if acc.head? == some 0x0D#8 then acc.drop 1 else acc).reverse :: csvRecords false [] bs
    else csvRecords (quote != (b == 0x22#8)) (b :: acc) bs

/-- What a lane has made of one row: a void reason (counted by the lane, or carried over from its source), cells, UTF-8 repairs. -/
structure RowOut where
  row    : Nat
  reason : Nat
  carried : Bool
  cells  : List Cell
  fixed  : Nat

def rowOut (row : Nat) (r : Nat × List Checked) : RowOut :=
  { row := row, reason := r.1, carried := false, cells := if r.1 == 0 then r.2.map Checked.cell else []
    fixed := (r.2.filter Checked.fixed).length }

/-- The checked fields of a row of a page. -/
def pageRow (r : IntakeRec) (cols : List TCol) (fs : List RawCell) : Nat × List Checked :=
  let cells := (cols.zip fs).map fun p => checkField r p.1 p.2
  (cells.foldl (fun a c => lowReason a c.reason) 0, cells)

/-- A row of a blocked source: its own void reason stays; a failed read gives VR_SOURCE_ERROR (R272, R281). -/
def blockedRow (r : IntakeRec) (v : TabView) (wanted : Nat → Bool) (row src : Nat) : RowOut :=
  if v.voidOf src != 0 then { row := row, reason := v.voidOf src, carried := true, cells := [], fixed := 0 }
  else
    let cells := v.cols.zipIdx.map fun p =>
      if wanted p.2 then (match v.cell p.2 src with
        | some c => recheck r p.1 c
        | none => .void vrSourceError) else .ok {} false
    rowOut row (cells.foldl (fun a c => lowReason a c.reason) 0, cells)

/-- Stored bytes of an element (INT_BYTES_OUT). -/
def cellBytes (c : ColW) (x : Cell) : Nat :=
  if isVar c.ty then x.len c.ty * varBytes c.ty c.param else (tyBits c.ty + 7) / 8

/-- Writes decoded rows of a batch to one destination, and answers the bytes written. -/
def State.putDest (s : State) (n b : Nat) (d : Dest) (rows : List RowOut) : Nat × State :=
  match s.destCluster d with
  | none => (0, s)
  | some k =>
    let mine := rows.filter fun r => decide (d.first ≤ r.row) && decide (r.row < d.first + d.count)
    (d.cols.zipIdx).foldl (fun (a : Nat × State) p =>
      if p.1 == 0 then a
      else
        let c := parseCol p.1
        (a.1 + (mine.map fun r => cellBytes c (r.cells.getD p.2 {})).foldl (· + ·) 0,
          (a.2.putRowsIn k c d.first d.count (mine.map fun r => (r.row, r.cells.getD p.2 {}))).mark n (some b) k c.slot
            (cellMarks c (mine.map fun r => (r.row - d.first, r.cells.getD p.2 {}))))) (0, s)

/-- The values of a decoded row that the lane keeps for its samples (R275, R287, R297). -/
def rawRow (cols : List Nat) (cells : List Cell) : List Cell := cells.zipIdx.map fun p => if cols.contains p.2 then p.1 else {}

/-- The budgeted and per-row values of decoded rows stay in the lane. -/
def Lane.keepRaw (l : Lane) (cols : List Nat) (rows : List RowOut) : Lane :=
  { l with raw := (rows.filter fun r => r.reason == 0 && !cols.isEmpty).foldl (fun t r => tset [] r.row (rawRow cols r.cells) t) l.raw }

/-- Rows decoded for a batch: void reasons, UTF-8 counts, and the tiles written to the cluster stores. -/
def State.landBatch (s : State) (g : Graph) (i n b : Nat) (ds : List Dest) (rows : List RowOut) : State :=
  let s1 := rows.foldl (fun (t : State) r =>
    let t1 := if r.reason == 0 then t else if r.carried then t.markVoid n b r.row r.reason else t.laneVoid g i n b r.row r.reason
    t1.modLane i fun l => { l with utf8Fixed := sat32 l.utf8Fixed r.fixed }) s
  let out := ds.foldl (fun (a : Nat × State) d => let r := a.2.putDest n b d rows; (a.1 + r.1, r.2)) (0, s1.noteCols n b (s1.destCols ds))
  ((out.2.modLane i fun l => { l.keepRaw (g.valueCols n) rows with bytesOut := (l.bytesOut + out.1) % 2 ^ 64 }).laneDid i (.batch b) (rows.map fun r => r.row)).laneSettle i

/-- Rows decoded of a table. -/
def State.landRows (s : State) (g : Graph) (i n t : Nat) (rows : List RowOut) : State :=
  let s1 := rows.foldl (fun u r =>
    let u1 := if r.reason == 0 then u.modDec n t fun x => { x with cells := tset [] r.row r.cells x.cells } else u.laneVoidRow i n t r.row r.reason
    u1.modLane i fun l => { l with utf8Fixed := sat32 l.utf8Fixed r.fixed }) s
  s1.landTable g n t

/-- Rows decoded of a window go into the lane's buffers (R281). -/
def RowOut.keep (r : RowOut) : Nat × Kept := (r.row, { reason := r.reason, cells := r.cells, fixed := r.fixed })

/-- A row slot's row out of its window, where the lane has decoded it (R281). -/
def State.keptOut (s : State) (g : Graph) (i n b slot : Nat) : Option RowOut :=
  let st := s.stream n
  let x := st.windowOf (((g.cadence n).map fun c => c.rows).getD 0) (g.intakeRec n).window b slot
  ((s.lane i).keptRow n x (s.slotRow g n b slot).1).map fun k => { row := slot, reason := k.reason, carried := false, cells := k.cells, fixed := k.fixed }

/-- Whether a target takes what a lane decodes in this form: pages and text from FORMAT 0 to 2, straight into a batch under SEQUENTIAL; rows of a
blocked source; rows of windows under WINDOWED (R281). -/
def State.takes (s : State) (g : Graph) (n : Nat) (into : Into) (pg : PageIn) : Bool :=
  let csv := (s.laneTable n into).format == 2
  let form := match into with | .batch _ => s.sourceForm g n | _ => 0
  match pg with
  | .page .. => form == 0 && !csv
  | .broken .. => form == 0
  | .csv .. => form == 0 && csv
  | .blocked _ => form == 1
  | .kept _ => form == 2

/-- The rows of a page as a lane makes them. -/
def State.pageRows (s : State) (g : Graph) (i n : Nat) (e : BusEnv) (cols : List TCol) (t : Table) (wanted : Nat → Bool) (into : Into)
    (pg : PageIn) : List RowOut :=
  let r := g.intakeRec n
  match pg with
  | .page ds rows => if ds.any r.exceeds then rows.map fun x => rowOut x.1 (vrOverLimit, []) else rows.map fun x => rowOut x.1 (pageRow r cols x.2)
  | .broken _ rows => rows.map fun x => rowOut x (vrCorrupt, [])
  | .csv first text =>
    let rs := csvRecords false [] text
    (match into with
    | .batch b => (s.lane i).todo.filterMap fun x =>
        let src := (s.slotRow g n b x).1
        if first ≤ src then (rs[src - first]?).map fun y => rowOut x (csvRecord r t y) else none
    | _ => (rs.zipIdx).map fun p => rowOut (first + p.2) (csvRecord r t p.1))
  | .blocked rows =>
    match into with
    | .batch b => let v := s.viewSource e g n; rows.map fun x => blockedRow r v wanted x (s.slotRow g n b x).1
    | _ => []
  | .kept rows =>
    match into with
    | .batch b => rows.filterMap (s.keptOut g i n b)
    | _ => []

/-- Whether a decode reads the source's own memory: rows of a blocked table. -/
def readsSource : PageIn → Bool
  | .blocked _ => true
  | _ => false

/-- INTAKE_PAGE_DECODE: a page, buffer, record or span is decoded; corrupt input makes rows void; decoded rows of a batch go to the
cluster stores in ascending slot order, those of a table or a window to what the lanes have decoded of it (R111, R112, R267, R268, R271 to
R274, R281, R545). -/
def execIntakePageDecode (lane : Fin 8) (n : Fin 64) (into : Into) (ds : List Dest) (pg : PageIn) (e : BusEnv) (s : State) :
    Host.Outcome State Fault Refusal :=
  let s := s.env e
  .next (match s.work.graph with
    | none => s
    | some g =>
      let wanted := fun c => (g.valueCols n.val).contains c || ds.any fun d => d.cols.getD c 0 != 0
      let t := s.laneTable n.val into
      let cols := match into with | .batch _ => (s.viewSource e g n.val).cols | _ => t.cols
      let out := s.pageRows g lane.val n.val e cols t wanted into pg
      let mine := s.laneNext g lane.val n.val into (out.map fun r => r.row)
      let rows := out.filter fun r => mine.contains r.row
      if mine.isEmpty || !s.takes g n.val into pg || (readsSource pg && s.waitsBus (s.viewSource e g n.val).exts) then s
      else match into with
        | .batch b => s.landBatch g lane.val n.val b ds rows
        | .table x => s.landRows g lane.val n.val x.val rows
        | .window f k => s.modLane lane.val fun l => l.keepRows n.val (f, k) (rows.map RowOut.keep))

end Sys2Proof.Machine
end

