-- ==== Sys2Proof/Machine/Chervil.lean ====
section
/-! DEFINITION. Budgeted samples (R275 to R278), Chervil's dictionaries and tokenisation (R285 to R292), JPEG decoding (R293 to
R296). -/

namespace Sys2Proof.Machine

/-- A dictionary: fallback base, entries in strict order (R285). -/
structure Dict where
  base    : Nat
  entries : List (Bytes × Nat)
  deriving DecidableEq, Repr

/-- Dictionary `i` of section 0x0006 (R285). -/
def Graph.dict (g : Graph) (i : Nat) : Dict :=
  let b := g.sect 6
  let d := (b.drop (fieldAt b (16 + 16 * i) 8)).take (fieldAt b (24 + 16 * i) 4)
  let n := fieldAt d 0 4
  let pool := d.drop (64 + 8 * n)
  { base := fieldAt d 8 4
    entries := (recs d 64 8 n).map fun r =>
      let w := leNat r
      ((pool.drop (bitsOf w 57 32)).take (bitsOf w 63 58 + 1), bitsOf w 23 0) }

/-- The white space of R287. -/
def isWs (b : Byte) : Bool := b == 0x20#8 || (decide (0x09 ≤ b.toNat) && decide (b.toNat ≤ 0x0D))

/-- Each maximal run of white space as one space. -/
def collapse : Bool → Bytes → Bytes
  | _, [] => []
  | inRun, b :: bs => if isWs b then (if inRun then collapse true bs else 0x20#8 :: collapse true bs) else b :: collapse false bs

/-- The prenormalisation of R287: TRIM, COLLAPSE, LOWER. -/
def prenorm (pre : Nat) (b : Bytes) : Bytes :=
  let b1 := if bitOf pre 0 then (((b.dropWhile isWs).reverse.dropWhile isWs).reverse) else b
  let b2 := if bitOf pre 1 then collapse false b1 else b1
  if bitOf pre 2 then b2.map fun x => if 0x41 ≤ x.toNat && x.toNat ≤ 0x5A then x + 0x20#8 else x else b2

/-- Whether the rest of a text starts a code point, or is empty (R287). -/
def atBoundary : Bytes → Bool
  | [] => true
  | b :: _ => !(decide (0x80 ≤ b.toNat) && decide (b.toNat ≤ 0xBF))

/-- Length of the longest common start of two strings. -/
def common : Bytes → Bytes → Nat
  | a :: as, b :: bs => if a == b then 1 + common as bs else 0
  | _, _ => 0

/-- What a run of tokenisation has so far: ids, fallback ids, and the extra cycles X of R292. -/
structure TokRun where
  ids   : List Nat := []
  falls : Nat := 0
  extra : Nat := 0
  deriving DecidableEq, Repr

/-- The longest entry that the rest of a text starts with, and whose end may end a token (R287). -/
def Dict.longest (d : Dict) (cp : Bool) (bs : Bytes) : Option (Bytes × Nat) :=
  (d.entries.filter fun e => e.1.isPrefixOf bs && (!cp || atBoundary (bs.drop e.1.length))).foldl (fun m e => match m with
    | none => some e
    | some x => if x.1.length < e.1.length then some e else some x) none

/-- Bytes that a step examines: the longest start of the rest that starts an entry, capped at 64 (R292). -/
def Dict.reach (d : Dict) (bs : Bytes) : Nat := min 64 ((d.entries.map fun e => common e.1 bs).foldl max 0)

/-- How many bytes fall back at once: one, or a whole code point (R287). -/
def fallLen (cp : Bool) (bs : Bytes) : Nat := if cp then 1 + ((bs.drop 1).takeWhile fun b => !atBoundary [b]).length else 1

/-- The steps of R287 over a text. `fuel` counts bytes. -/
def Dict.run (d : Dict) (cp : Bool) : Nat → Bytes → TokRun → TokRun
  | 0, _, r => r
  | _, [], r => r
  | fuel + 1, bs, r =>
    let x := r.extra + (d.reach bs - 16)
    match d.longest cp bs with
    | some e => d.run cp fuel (bs.drop (max 1 e.1.length)) { r with ids := r.ids ++ [e.2], extra := x }
    | none =>
      let m := fallLen cp bs
      d.run cp fuel (bs.drop m) { ids := r.ids ++ (bs.take m).map fun b => d.base + b.toNat, falls := r.falls + m, extra := x }

/-- UNIT CODEPOINT on a BINARY column is applied as BYTE (R287). -/
def tokCp (d : TokDecl) : Bool := d.unit == 1 && d.str

/-- Content ids, fallbacks and cycles of a value (R287, R292). -/
def tokenise (g : Graph) (d : TokDecl) (v : Bytes) : TokRun × Nat :=
  let b := prenorm d.pre v
  let r := (g.dict d.dict).run (tokCp d) b.length b {}
  (r, ceilDiv b.length 5 + 8 + r.extra)

/-- Truncation of R289: the ids kept, and whether any were cut; VOID answers none for the ids. -/
def tokCut (d : TokDecl) (ids : List Nat) : Option (List Nat) × Bool :=
  let q := d.maxTokens - (d.bos.toList.length + d.eos.toList.length)
  let wrap := fun l => d.bos.toList ++ l ++ d.eos.toList
  if ids.length ≤ q then (some (wrap ids), false)
  else match d.trunc with
  | 0 => (some (wrap (ids.take q)), true)
  | 1 => (some (wrap (ids.drop (ids.length - q))), true)
  | _ => (none, true)

/-- The limit of the sample that a lane takes next in a class, with A = n × M + RESERVE and q = n - done - 1 (R276). The lane's count n has no
part in the result: it adds n × M and takes it away again. -/
def BudgetRec.limit (r : BudgetRec) (x : Budget) : Nat :=
  let a : Int := x.total * r.mean + r.reserve
  let q : Int := (x.total : Int) - x.done - 1
  min (r.mult * r.mean + r.patience) (a - x.used - q * r.mean).toNat

/-- The cycles of a JPEG value (R296). One that lacks what the rule counts (no scan, no EOI) has a free cost (log entry 12). -/
def jpgCycles (v : Bytes) : Nat := ((jpegOf v).cycles).getD (Config.unstated 14 (crc32c v) v.length)

/-- The cause of R295 that a value fails by, or 0; a breach of R293 that its table does not name has a free one (log entry 12). -/
def jpgFault (v : Bytes) : Nat :=
  match (jpegOf v).res with
  | .ok _ => 0
  | .error c => if c == jpgOther then 1 + Config.unstated 15 (crc32c v) v.length % 7 else c

/-- The class of a sample (1 IMAGE, 2 TEXT: its bit of FLAGS), its budget record, its cycles (R269, R292, R296). -/
def smpClass : Sample → Nat
  | .image _ => 1
  | .text _ _ => 2
def smpRec (r : IntakeRec) : Sample → BudgetRec
  | .image _ => r.image
  | .text _ _ => r.text
def smpCycles (g : Graph) : Sample → Nat
  | .image v => jpgCycles v
  | .text d v => (tokenise g d v).2

/-- The bytes of a sample, and its place among the values of its class in a row: of the column's declarations (R275). -/
def smpBytes : Sample → Bytes
  | .image v => v
  | .text _ v => v
def Graph.smpPlace (g : Graph) (n col : Nat) : Sample → Nat
  | .image _ => (g.budgetCols n 1).idxOf col
  | .text d _ => (g.textsOf n).idxOf d

/-- Whether an operand names the column and the declaration of a sample's operator (R275, R288). -/
def Graph.declares (g : Graph) (n col : Nat) : Sample → Bool
  | .image _ => (g.budgetCols n 1).contains col
  | .text d _ => (g.textsOf n).contains d && d.col == col

def Lane.setBudget (l : Lane) (x : Budget) (cls : Nat) : Lane := if cls == 1 then { l with image := x } else { l with text := x }

/-- A row slot of the batch in work that the lane has decoded (R275). -/
def State.rowDone (s : State) (g : Graph) (i n b slot : Nat) : Bool :=
  s.laneBatch i == some (n, b) && s.laneRuns i && (s.ownSlots g i n).contains slot && !(s.lane i).todo.contains slot

/-- Whether a value is the next sample of its class that the lane takes: that of the row's column, of a class that the stream decodes, by a
declared operator (R269, R272, R273, R275, R287, R288). -/
def State.sampleOpen (s : State) (g : Graph) (i n b slot col : Nat) (x : Sample) : Bool :=
  s.rowDone g i n b slot && g.declares n col x && s.nextSample g i n (smpClass x) == some (slot, g.smpPlace n col x) &&
    ((s.lane i).value slot col).bytes == smpBytes x

/-- A sample ends: its class is charged (R276, R277). -/
def State.sampleEnd (s : State) (g : Graph) (i n slot col charge : Nat) (x : Sample) (patient : Bool) : State :=
  s.modLane i fun l =>
    let u := l.budget (smpClass x)
    { l.setBudget { u with done := u.done + 1, used := u.used + charge, last := some (slot, g.smpPlace n col x) } (smpClass x) with
      samples := (l.samples + 1) % 2 ^ 64, patience := sat32 l.patience (b2n patient) }

/-- Whether a sample finishes within its limit, and whether it borrows (R276). -/
def State.sampleFits (s : State) (g : Graph) (i n : Nat) (x : Sample) : Bool :=
  decide (smpCycles g x ≤ ((smpRec (g.intakeRec n) x).limit ((s.lane i).budget (smpClass x))))
def smpBorrows (g : Graph) (n : Nat) (x : Sample) : Bool :=
  let r := smpRec (g.intakeRec n) x
  decide (r.mult * r.mean < smpCycles g x)

/-- A sample of a class (0: Lovage's work) makes its row void: the row's other values of that class are no samples (R275; log entry 128). -/
def State.sampleVoid (s : State) (g : Graph) (i n b slot cls reason : Nat) : State :=
  (s.laneVoid g i n b slot reason).modLane i fun l => { l with late := (slot, cls) :: l.late }

/-- Whether the SOF0 segment of an image declares more than its limits; no buffer is then allocated (R270, R271). A value that fails before its
SOF0 has declared nothing. -/
def IntakeRec.imageOver (r : IntakeRec) (v : Bytes) : Bool := ((jpegOf v).size).any fun z => r.exceeds (.image z.1 z.2)
def IntakeRec.sampleOver (r : IntakeRec) : Sample → Bool
  | .image v => r.imageOver v
  | .text _ _ => false

/-- A value past its size limit makes its row void before it is decoded; it is no sample (R271, R275). -/
def State.sampleOver (s : State) (g : Graph) (i n b slot : Nat) (x : Sample) : State :=
  (s.sampleVoid g i n b slot (smpClass x) vrOverLimit).laneSettle i

/-- SAMPLE_ABANDON: a sample reaches its limit unfinished: its row is void with VR_OVER_BUDGET and the limit is charged (R277, R278). -/
def execSampleAbandon (lane : Fin 8) (n : Fin 64) (b : Nat) (p : ValueAt) (x : Sample) (s : State) : Host.Outcome State Fault Refusal :=
  .next (match s.work.graph with
    | none => s
    | some g =>
      if !s.sampleOpen g lane.val n.val b p.slot p.col x then s
      else if (g.intakeRec n.val).sampleOver x then s.sampleOver g lane.val n.val b p.slot x
      else if s.sampleFits g lane.val n.val x then s
      else
        let lim := (smpRec (g.intakeRec n.val) x).limit ((s.lane lane.val).budget (smpClass x))
        ((s.sampleEnd g lane.val n.val p.slot p.col lim x false).sampleVoid g lane.val n.val b p.slot (smpClass x) vrOverBudget).laneSettle lane.val)

/-- The outputs of a TOKENISE operator for a row: ids, LENGTH, TRUNCATED (R290, R291). `ids` is none for a null value, `void_` marks a
void row. The slots behind the ids are padding elements. -/
def State.putTokens (s : State) (n b : Nat) (d : TokDecl) (dst : Dest) (slot : Nat) (ids : Option (List Nat)) (cut void_ : Bool) : State :=
  match s.destCluster dst with
  | none => s
  | some k =>
    if slot < dst.first || dst.first + dst.count ≤ slot then s
    else
      let col := fun i => parseCol (dst.cols.getD i 0)
      let l := ids.getD []
      let ok := ids.isSome
      let i := slot - dst.first
      let at_ := fun (j : Nat) (f : ColForm) => ({ k := k, first := dst.first, count := dst.count, col := col j, form := f } : ColAt)
      let s := s.noteCols n b [at_ 0 (if d.form == 1 then .elems d.maxTokens 0 else .cells), at_ 1 .cells, at_ 2 .cells]
      let s := s.mark n (some b) k (col 0).slot (if d.form != 1 then [] else
        let run := fun (a z : Nat) (p : Bool) => if z ≤ a then [] else
          [({ at_ := (col 0).byteOf (i * d.maxTokens + a), len := 4 * (z - a), valid := ok, pad := p } : Mark)]
        run 0 l.length false ++ run l.length d.maxTokens (!void_))
      let s := (s.mark n (some b) k (col 1).slot (cellMarks (col 1) [(i, { valid := ok })])).mark n (some b) k (col 2).slot (cellMarks (col 2) [(i, { valid := ok })])
      let s1 :=
        if d.form == 1 then
          s.putElems k (col 0) ((slot - dst.first) * d.maxTokens) ((List.range d.maxTokens).map fun i =>
            (ok, l.getD i (if void_ then 0 else d.padId)))
        else s.putRowsIn k (col 0) dst.first dst.count [(slot, { valid := ok, elems := l })]
      (s1.putRowsIn k (col 1) dst.first dst.count [(slot, { valid := ok, bits := l.length })]).putRowsIn k (col 2) dst.first dst.count
        [(slot, { valid := ok, bits := b2n cut })]

/-- Bytes that the outputs of a row take: ids, LENGTH, TRUNCATED (INT_BYTES_OUT). -/
def tokBytes (d : TokDecl) (n : Nat) : Nat := 4 * (if d.form == 1 then d.maxTokens else n) + 5

/-- An output of a budgeted operator is written for a row: `image` tells IMAGE_PREP from TOKENISE, `o` is the declaration's number. -/
def State.setMade (s : State) (i slot : Nat) (image : Bool) (o : Nat) : State := s.modLane i fun l => { l with made := (slot, image, o) :: l.made }

/-- Chervil's work on the next TEXT sample: its charge, its counts, its outputs, or the void of a truncation by VOID (R287 to R290). -/
def State.tokenRow (s : State) (g : Graph) (i n b : Nat) (p : ValueAt) (d : TokDecl) (v : Bytes) (dst : Dest) : State :=
  let x : Sample := .text d v
  let r := (tokenise g d v).1
  let c := tokCut d r.ids
  let dead := s.voidOf n (some b) p.slot != 0
  let s1 := (s.sampleEnd g i n p.slot p.col (smpCycles g x) x (smpBorrows g n x)).modLane i fun l =>
    { l with dict := d.dict, fallback := sat32 l.fallback r.falls, truncated := sat32 l.truncated (b2n c.2)
             tokens := (l.tokens + (if dead then 0 else (c.1.map List.length).getD 0)) % 2 ^ 64
             bytesOut := (l.bytesOut + (if dead then 0 else (c.1.map fun y => tokBytes d y.length).getD 0)) % 2 ^ 64 }
  match c.1 with
  | some ids => if dead then s1.putTokens n b d dst p.slot none false true else s1.putTokens n b d dst p.slot (some ids) c.2 false
  | none => (s1.sampleVoid g i n b p.slot 2 vrOverLimit).putTokens n b d dst p.slot none false true

/-- TOKENISE: Chervil tokenises the value of a row's column (R287 to R292): a null gives nulls and is no sample, a void row stays void, a
value past its budget does not finish (SAMPLE_ABANDON follows). The value is the one that the lane has decoded and checked. -/
def execTokenise (lane : Fin 8) (n : Fin 64) (b : Nat) (p : ValueAt) (d : TokDecl) (v : Option Bytes) (dst : Dest) (s : State) :
    Host.Outcome State Fault Refusal :=
  .next (match s.work.graph with
    | none => s
    | some g =>
      let l := s.lane lane.val
      let o := (g.textsOf n.val).idxOf d
      if !s.rowDone g lane.val n.val b p.slot || !(g.textsOf n.val).contains d || p.col != d.col || l.made.contains (p.slot, false, o) then s
      else if l.pendingSample (g.budgetCols n.val 2) 2 (p.slot, o) then
        (match v with
        | none => s
        | some val =>
          if !s.sampleOpen g lane.val n.val b p.slot p.col (.text d val) || !s.sampleFits g lane.val n.val (.text d val) then s
          else ((s.tokenRow g lane.val n.val b p d val dst).setMade lane.val p.slot false o).laneSettle lane.val)
      else if s.voidOf n.val (some b) p.slot != 0 then ((s.putTokens n.val b d dst p.slot none false true).setMade lane.val p.slot false o).laneSettle lane.val
      else if v.isSome then s
      else (((s.putTokens n.val b d dst p.slot none false false).modLane lane.val fun l =>
        { l with bytesOut := (l.bytesOut + tokBytes d 0) % 2 ^ 64 }).setMade lane.val p.slot false o).laneSettle lane.val)

/-- A value rounded and clamped to 0 to 255, then moved by at most 1 within that range by a free choice (R294, log entry 22). -/
def pixNear (thousandths : Int) (u : Nat) : Byte :=
  let r : Int := max 0 (min 255 ((thousandths + 500000) / 1000000))
  BitVec.ofNat 8 (max 0 (min 255 (r + (u % 3 : Nat) - 1))).toNat

/-- The pixels of an image: its Y samples, or RGB of its three planes by replication of the chroma and the JFIF equations (R294). -/
def JpegImg.pixels (j : JpegImg) (u : Nat) : Bytes :=
  let free := fun i => Config.draw (u + i)
  let rgb := u + 4 * (j.w + 16) * (j.h + 16)
  (List.range (j.w * j.h)).flatMap fun i =>
    let x := i % max 1 j.w
    let y := i / max 1 j.w
    let at_ := fun (c a b : Nat) => ((j.sample free c a b : Nat) : Int)
    if j.comps == 1 then [BitVec.ofNat 8 (j.sample free 0 x y)]
    else
      let ys := 1000000 * at_ 0 x y
      let b := at_ 1 (x / max 1 j.hs) (y / max 1 j.vs) - 128
      let r := at_ 2 (x / max 1 j.hs) (y / max 1 j.vs) - 128
      let pick := fun k => Config.draw (rgb + 3 * i + k)
      [pixNear (ys + 1402000 * r) (pick 0), pixNear (ys - 344136 * b - 714136 * r) (pick 1), pixNear (ys + 1772000 * b) (pick 2)]

/-- A decoded image goes to Lovage: into the lane's buffer, or, above 4,194,304 pixels, into its staging area; one that does not fit there
makes its row void (R305, R333). -/
def State.stageImage (s : State) (g : Graph) (i n b : Nat) (p : ValueAt) (j : JpegImg) : State :=
  let pix := j.pixels s.free
  let s0 := { s with free := s.free + 8 * (j.w + 16) * (j.h + 16) }
  let left := ((g.imagesOf n).zipIdx.filter fun d => d.1.col == p.col).map fun d => d.2
  let put := fun (t : State) (staged : Bool) => t.modLane i fun l =>
    { l with images := l.images ++ [{ slot := p.slot, col := p.col, left := left, w := j.w, h := j.h, gray := j.comps == 1, staged := staged, pix := pix }] }
  if j.w * j.h ≤ 4194304 then put s0 false
  else match (s.laneNo g i).bind fun x => g.area 6 x with
    | some a =>
      if pix.length ≤ a.len then
        (put (s0.writeSpace .hbm a.base pix) true).modLane i fun l => { l with staged := sat32 l.staged 1 }
      else s0.sampleVoid g i n b p.slot 1 vrOverLimit
    | none => s0.sampleVoid g i n b p.slot 1 vrOverLimit

/-- JPEG_DECODE: an IMAGE sample, the value that the lane has decoded of a row's column, is decoded, or its row is void by its size (R271) or by a
cause of R295 (R293 to R296). The image of a row that is void already goes nowhere (R304). -/
def execJpegDecode (lane : Fin 8) (n : Fin 64) (b : Nat) (p : ValueAt) (v : Bytes) (s : State) : Host.Outcome State Fault Refusal :=
  .next (match s.work.graph with
    | none => s
    | some g =>
      let x : Sample := .image v
      if !s.sampleOpen g lane.val n.val b p.slot p.col x then s
      else if (g.intakeRec n.val).imageOver v then s.sampleOver g lane.val n.val b p.slot x
      else if !s.sampleFits g lane.val n.val x then s
      else
        let s1 := s.sampleEnd g lane.val n.val p.slot p.col (smpCycles g x) x (smpBorrows g n.val x)
        (match (jpegOf v).res with
        | .ok j =>
          let s2 := s1.modLane lane.val fun l => { l with pixels := (l.pixels + (jpegOf v).padded) % 2 ^ 64 }
          if s.voidOf n.val (some b) p.slot != 0 then s2 else s2.stageImage g lane.val n.val b p j
        | .error _ => (s1.sampleVoid g lane.val n.val b p.slot 1 vrCorrupt).modLane lane.val fun l =>
            { l with lastError := jpgFault v, unsupported := sat32 l.unsupported (b2n (decide (jpgFault v ≤ 2)))
                     jpgCorrupt := sat32 l.jpgCorrupt (b2n (decide (3 ≤ jpgFault v))) }).laneSettle lane.val)

end Sys2Proof.Machine
end

