-- ==== Sys2Proof/Machine/Keys.lean ====
section
/-! DEFINITION. Keys and hashes (R118 to R122, R171 to R178), and sums, means and other aggregates of cells (R198, R199, R203). -/

namespace Sys2Proof.Machine

/-- qhash over the 16-byte chunks of a byte string (R176). `fuel` counts chunks. -/
def qhashLoop : Nat → Bytes → Nat → Nat
  | 0, _, h => h
  | fuel + 1, bs, h =>
    let h1 := mix64 (Nat.xor h (leNat (bs.take 8)))
    let h2 := mix64 ((h1 + leNat ((bs.drop 8).take 8)) % 2 ^ 64)
    qhashLoop fuel (bs.drop 16) h2

/-- Chunks of a key or string of `n` bytes (R176, R177). -/
def chunksOf (n : Nat) : Nat := ceilDiv (max n 1) 16

/-- qhash (R176). -/
def qhash (bs : Bytes) (salt : Nat) : Nat :=
  qhashLoop (chunksOf bs.length) bs (mix64 (Nat.xor (Nat.xor salt 0x51A49C2ED07B36F1) bs.length))

/-- The partition of a hash among 2^b (R178). -/
def partitionOf (h b : Nat) : Nat := h / 2 ^ (64 - b)

/-- The reduction of a hash to `n` values (R178). -/
def reduceTo (h n : Nat) : Nat := h * n / 2 ^ 64

/-- The salt of a spill level (R178). -/
def spillSalt (salt l : Nat) : Nat := (salt + l * 0x9E3779B97F4A7C15) % 2 ^ 64

/-- Bytes of a key part's fold without its class byte (R118); `hash` takes the 8-byte digest of a string (R173). -/
def ColW.foldLen (hash : Bool) (c : ColW) : Nat := if isVar c.ty then (if hash then 8 else c.param) else tyBits c.ty / 8

/-- The first P bytes of a string, byte 0 most significant (R118). -/
def prefixFold (p : Nat) (bs : Bytes) : Nat := (bs.take p ++ List.replicate (p - bs.length) 0#8).foldl (fun a b => a * 256 + b.toNat) 0

/-- A key part's fold with its width in bytes, class byte included (R118 to R121, R173); `i` is the part's number. -/
def foldPart (hash : Bool) (salt i : Nat) (c : ColW) (x : Cell) : Nat × Nat :=
  let w := c.foldLen hash
  let v := if !x.valid then 0
    else if isVar c.ty then (if hash then qhash x.bytes (mix64 ((salt + i) % 2 ^ 64)) else prefixFold c.param x.bytes)
    else ((laneTy c.ty).bind fun t => foldKey t x.bits).getD 0
  let v1 := if c.desc && !hash then 2 ^ (8 * w) - 1 - v else v
  if c.nullable then ((if x.valid then 1 else if c.last then 2 else 0) * 2 ^ (8 * w) + v1, w + 1) else (v1, w)

/-- The folded key of a row and its width in bytes, the first part most significant (R122, R172, R173). -/
def foldKeys (hash : Bool) (salt : Nat) (parts : List ColW) (xs : List Cell) : Nat × Nat :=
  ((parts.zip xs).zipIdx).foldl (fun a p => let q := foldPart hash salt p.2 p.1.1 p.1.2; (a.1 * 2 ^ (8 * q.2) + q.1, a.2 + q.2)) (0, 0)

/-- The hash of a row's hashing key (R173, R176). -/
def keyHash (salt : Nat) (parts : List ColW) (xs : List Cell) : Nat :=
  let k := foldKeys true salt parts xs
  qhash (leBytes k.2 k.1) salt

/-- Chunks that hashing a row's key takes, string digests included (R177). -/
def keyChunks (parts : List ColW) (xs : List Cell) : Nat :=
  chunksOf (foldKeys true 0 parts xs).2 +
    ((parts.zip xs).map fun p => if isVar p.1.ty && p.2.valid then chunksOf p.2.bytes.length else 0).sum

/-- Whether a key has a null part. -/
def keyNull (xs : List Cell) : Bool := xs.any fun x => !x.valid

/-- Whether a cell holds a NaN. -/
def cellNan (ty : Nat) (x : Cell) : Bool :=
  x.valid && (match laneTy ty with
    | some ⟨_, .flt f⟩ => f.isNan x.bits
    | _ => false)

/-- Equality of two key parts (R174); two nulls count as equal here, and the operators say where they do not. -/
def partSame (c : ColW) (x y : Cell) : Bool :=
  x.valid == y.valid && (!x.valid || if isVar c.ty then x.bytes == y.bytes else foldPart false 0 0 c x == foldPart false 0 0 c y)

/-- Equality of two keys (R174). -/
def keySame (parts : List ColW) (xs ys : List Cell) : Bool := (parts.zip (xs.zip ys)).all fun p => partSame p.1 p.2.1 p.2.2

/-- Bytewise order of two strings, a prefix ahead of a longer value: -1, 0 or 1 (R122, R175). -/
def cmpBytes : Bytes → Bytes → Int
  | [], [] => 0
  | [], _ :: _ => -1
  | _ :: _, [] => 1
  | a :: as, b :: bs => if a.toNat < b.toNat then -1 else if b.toNat < a.toNat then 1 else cmpBytes as bs

/-- Order of two keys: folds, then the full bytes of each string part (R172, R175). -/
def cmpKeys (parts : List ColW) (xs ys : List Cell) : Int :=
  let a := (foldKeys false 0 parts xs).1
  let b := (foldKeys false 0 parts ys).1
  if a < b then -1 else if b < a then 1
  else ((parts.zip (xs.zip ys)).foldl (fun (r : Int) p => if r != 0 then r else if isVar p.1.ty then cmpBytes p.2.1.bytes p.2.2.bytes else 0) 0)

/-- A boundary of a range (R181; log entry 53): a value of a fixed-width key's type; for a string, the 8 bytes of the word, byte 0 most
significant, without trailing 0x00. -/
def boundCell (c : ColW) (w : Nat) : Cell :=
  if isVar c.ty then
    { valid := true, bytes := ((((List.range 8).map fun i => BitVec.ofNat 8 (w / 2 ^ (8 * (7 - i)))).reverse.dropWhile fun b => b == 0#8).reverse) }
  else { valid := true, bits := w % 2 ^ tyBits c.ty }

/-- A compound key's boundary holds the top 8 bytes of an ordering key; the bytes below them are 0 (log entry 53). -/
def boundWide (len w : Nat) : Nat := w * 2 ^ (8 * (len - 8))

/-- Whether a boundary lies at or below a row's key, and whether a boundary lies at or below another, in the order of R172 and R175, the full
bytes of a string deciding where folds tie (R179, R181). -/
def boundaryBelow (parts : List ColW) (xs : List Cell) (w : Nat) : Bool :=
  match parts with
  | [c] => decide (cmpKeys [c] [boundCell c w] xs ≤ 0)
  | _ => let k := foldKeys false 0 parts xs; decide (boundWide k.2 w ≤ k.1)
def boundLe (parts : List ColW) (a b : Nat) : Bool :=
  match parts with
  | [c] => decide (cmpKeys [c] [boundCell c a] [boundCell c b] ≤ 0)
  | _ => decide (a ≤ b)

/-- Insertion into a list sorted by a comparison; equals go behind. -/
def insertBy {α : Type} (le : α → α → Bool) (x : α) : List α → List α
  | [] => [x]
  | y :: ys => if le y x then y :: insertBy le x ys else x :: y :: ys

/-- A stable sort. -/
def sortBy {α : Type} (le : α → α → Bool) (l : List α) : List α := l.foldl (fun acc x => insertBy le x acc) []

/-- The key cells of a row: of slot columns, or of columns of a table; none where a table read fails. -/
def State.keyCells (s : State) (k : Nat) (parts : List ColW) (r : Nat) : List Cell := parts.map fun c => s.slotCell k c r
def TabView.colCell (v : TabView) (c : ColW) (r : Nat) : Option Cell := v.cell c.off r
def TabView.cellsOf (v : TabView) (cs : List ColW) (r : Nat) : Option (List Cell) := cs.mapM fun c => v.colCell c r

/-- An aggregate word (AGG of R331). -/
structure AggW where
  code : Nat
  col  : Nat
  arg  : Nat
  q    : Nat
  deriving DecidableEq, Repr

def parseAgg (w : Nat) : AggW := { code := w % 256, col := bitsOf w 15 8, arg := bitsOf w 31 16, q := w / 2 ^ 32 % 2 ^ 32 }

/-- The value of a finite code as a signed fraction. -/
def ratOf : FVal → Rat
  | .fin neg n d => (if neg then -1 else 1) * ((n : Rat) / (d : Rat))
  | _ => 0

/-- A rational rounded to binary64 by RNE. -/
def fp64Of (x : Rat) : Nat := (fp64.round 0 false 0 (decide (x < 0)) x.num.natAbs x.den).1

/-- A binary64 code as a number in the order of the values (R119), and back. -/
def ord64 (b : Nat) : Nat := foldFloat fp64 b
def unord64 (x : Nat) : Nat := if bitOf x 63 then x - 2 ^ 63 else 2 ^ 64 - 1 - x

/-- The least binary64 number at or above a rational, and the greatest at or below it, in the order of `ord64`. -/
def ceil64 (x : Rat) : Nat := let r := fp64Of x; if ratOf (fp64.decode r) < x then ord64 r + 1 else ord64 r
def floor64 (x : Rat) : Nat := let r := fp64Of x; if x < ratOf (fp64.decode r) then ord64 r - 1 else ord64 r

/-- The free choice of R199 for a sum: any binary64 number within `band` of the exact value, or the nearest where none lies within. -/
def bandRound (x band : Rat) : Nat :=
  let lo := ceil64 (x - band)
  let hi := floor64 (x + band)
  if hi < lo then fp64Of x else unord64 (lo + Config.unstated 8 lo hi % (hi - lo + 1))

/-- The present values of a list of rows, with their times and row numbers. -/
abbrev Vals := List (Nat × Int × Cell)

/-- SUM of floating-point values (R199); `s` is the sum of magnitudes that bounds the error. -/
def sumFloat (f : FpFmt) (s : Rat) (vs : List Nat) : Nat :=
  let xs := vs.map f.decode
  let pos := xs.any fun x => x == .inf false
  let neg := xs.any fun x => x == .inf true
  if xs.any (fun x => x == .nan) || (pos && neg) then fp64.nanCode
  else if pos then fp64.infCode false
  else if neg then fp64.infCode true
  else bandRound ((xs.map ratOf).sum) (s / (2 : Rat) ^ (100 : Nat))

/-- MEAN of floating-point values: their SUM divided by their count, rounded once (R198). -/
def meanFloat (f : FpFmt) (s : Rat) (vs : List Nat) : Nat :=
  (fp64.encode 0 (fDiv (fp64.decode (sumFloat f s vs)) (.fin false vs.length 1)).1).1

/-- The magnitude sum of R199 over a run's values. -/
def magSum (ty : Nat) (vs : Vals) : Rat :=
  match laneTy ty with
  | some ⟨_, .flt f⟩ => (vs.map fun p => let x := ratOf (f.decode p.2.2.bits); if x < 0 then -x else x).sum
  | _ => 0

/-- LAST of R198: the value of greatest time, then greatest row. -/
def lastVal (vs : Vals) : Option Cell :=
  (vs.foldl (fun (m : Option (Nat × Int × Cell)) x => match m with
    | none => some x
    | some y => if y.2.1 < x.2.1 || (y.2.1 == x.2.1 && decide (y.1 < x.1)) then some x else some y) none).map fun x => x.2.2

/-- A NaN as its canonical code (R107). -/
def canonNan (t : LTy) (b : Nat) : Nat :=
  match t.kind with
  | .flt f => if f.isNan b then f.nanCode else b
  | _ => b

/-- A value as binary64, DEC64 by its scale, rounded by RNE. -/
def value64 (t : LTy) (scale b : Nat) : Nat :=
  match t.kind with
  | .flt f => (match f.decode b with | .nan => fp64.nanCode | .inf n => fp64.infCode n | v => fp64Of (ratOf v))
  | .dec => fp64Of ((laneInt t b : Rat) / ((10 ^ scale : Nat) : Rat))
  | _ => fp64Of (laneInt t b : Rat)

/-- A partial of VAR_POP (R203): count, mean and M2, the last two as binary64 codes. -/
abbrev Triple := Nat × Nat × Nat

def finite64 (b : Nat) : Bool :=
  match fp64.decode b with
  | .fin _ _ _ => true
  | _ => false

/-- The free choice of a binary64 number between two bounds, by a case of Config.unstated; the nearest to `x` where none lies between
them, or where `x` leaves the format. -/
def pick64 (c k1 k2 : Nat) (x a b : Rat) : Nat :=
  let lo := ceil64 a
  let hi := floor64 b
  if hi < lo || decide ((2 : Rat) ^ (1023 : Nat) ≤ x) || decide (x ≤ -(2 : Rat) ^ (1023 : Nat)) then fp64Of x
  else unord64 (lo + Config.unstated c k1 k2 % (hi - lo + 1))

/-- The magnitude of a rational. -/
def ratAbs (x : Rat) : Rat := if x < 0 then -x else x

/-- The partial of one value, and the merge of two: counts add; the mean moves by delta × n_b ÷ n, and M2 takes both M2 and
delta² × n_a × n_b ÷ n. The spec does not state how these steps round: mean and M2 are free within what FP64 steps can be off, and NaN where a
partial is not finite (log entry 125). -/
def oneTriple (x : Nat) : Triple := (1, x, if finite64 x then 0 else fp64.nanCode)
def mergeTriple (a b : Triple) : Triple :=
  if a.1 == 0 then b
  else if b.1 == 0 then a
  else if !(finite64 a.2.1 && finite64 a.2.2 && finite64 b.2.1 && finite64 b.2.2) then (a.1 + b.1, fp64.nanCode, fp64.nanCode)
  else
    let code := fun t : Triple => t.1 * 2 ^ 128 + t.2.1 * 2 ^ 64 + t.2.2
    let v := fun w : Nat => ratOf (fp64.decode w)
    let n : Rat := (a.1 + b.1 : Nat)
    let d := v b.2.1 - v a.2.1
    let mean := v a.2.1 + d * (b.1 : Rat) / n
    let m2 := v a.2.2 + v b.2.2 + d * d * (a.1 : Rat) * (b.1 : Rat) / n
    let e1 := (ratAbs mean + ratAbs d) / (2 : Rat) ^ (51 : Nat)
    let e2 := m2 / (2 : Rat) ^ (50 : Nat) + 1 / (2 : Rat) ^ (1060 : Nat)
    (a.1 + b.1, if d == 0 then a.2.1 else pick64 9 (code a) (code b) mean (mean - e1) (mean + e1),
      if m2 == 0 then 0 else pick64 11 (code a) (code b) m2 (if m2 < e2 then 0 else m2 - e2) (m2 + e2))

/-- VAR_POP over the partials of cores and clusters in ascending order (R203). -/
def varPop (parts : List (List Nat)) : Nat :=
  let r := (parts.map fun xs => (xs.map oneTriple).foldl mergeTriple (0, 0, 0)).foldl mergeTriple (0, 0, 0)
  (fp64.encode 0 (fDiv (fp64.decode r.2.2) (.fin false r.1 1)).1).1

/-- An aggregate over the rows of a window or group (R198, R199, R203 without VAR_POP and the sketches): the result and whether it left its
range. `run` bounds the error of a floating-point sum. -/
def aggregate (code ty scale : Nat) (run : Rat) (rows : Vals) : Cell × Bool :=
  let vs := rows.filter fun p => p.2.2.valid
  let bits := vs.map fun p => p.2.2.bits
  let num := fun n : Nat => ({ valid := true, bits := n } : Cell)
  match code, laneTy ty with
  | 0, _ => (num rows.length, false)
  | 1, _ => (num vs.length, false)
  | 6, _ => ((lastVal vs).getD {}, false)
  | 7, _ => ((vs.head?.map fun p => p.2.2).getD {}, false)
  | c, some t =>
    if vs.isEmpty then ({}, false)
    else match c, t.kind with
      | 2, .flt f => (num (sumFloat f run bits), false)
      | 3, .flt f => (num (meanFloat f run bits), false)
      | 2, k =>
        let x := (bits.map fun b => laneInt t b).sum
        let ok := if k == .dec then decide (x.natAbs ≤ 10 ^ 18 - 1) else decide (-(2 ^ 63) ≤ x) && decide (x < 2 ^ 63)
        if ok then (num (wrapN 64 x), false) else ({}, true)
      | 3, k =>
        let x : Int := (bits.map fun b => laneInt t b).sum
        (num (fp64Of ((x : Rat) / (vs.length : Rat) / (if k == .dec then ((10 ^ scale : Nat) : Rat) else 1))), false)
      | 4, _ => (num (canonNan t (bits.tail.foldl (fun a b => laneMinMax t false a b) (bits.headD 0))), false)
      | 5, _ => (num (canonNan t (bits.tail.foldl (fun a b => laneMinMax t true a b) (bits.headD 0))), false)
      | _, _ => ({}, false)
  | _, none => ({}, false)

def newSketch (k : Nat) : Sketch := { k := k, levels := [[]], parity := [0] }

/-- Every second item from position `p`. -/
def everyOther {α : Type} : Nat → List α → List α
  | _, [] => []
  | 0, x :: xs => x :: everyOther 1 xs
  | _ + 1, _ :: xs => everyOther 0 xs

/-- One pass of compact from level `h` upward (R209). `fuel` bounds the levels. -/
def Sketch.compact : Nat → Nat → Sketch → Sketch
  | 0, _, s => s
  | fuel + 1, h, s =>
    if s.levels.length ≤ h then s
    else
      let items := s.levels.getD h []
      if items.length < s.k then Sketch.compact fuel (h + 1) s
      else
        let p := s.parity.getD h 0
        let keep := everyOther p (sortBy (fun a b => decide (a ≤ b)) items)
        let lv := s.levels.set h []
        let pr := s.parity.set h (1 - p)
        let lv2 := if h + 1 == lv.length then lv ++ [keep] else lv.set (h + 1) (lv.getD (h + 1) [] ++ keep)
        let pr2 := if h + 1 == s.levels.length then pr ++ [0] else pr
        Sketch.compact fuel (h + 1) { s with levels := lv2, parity := pr2 }

/-- insert (R209). -/
def Sketch.insert (s : Sketch) (x : Nat) : Sketch :=
  let s1 := { s with levels := s.levels.set 0 (s.levels.headD [] ++ [x]) }
  Sketch.compact (s1.levels.length + 1) 0 s1

/-- Level-wise concatenation of two lists of levels. -/
def joinLevels : List (List Nat) → List (List Nat) → List (List Nat)
  | [], b => b
  | a, [] => a
  | a :: as, b :: bs => (a ++ b) :: joinLevels as bs

/-- merge (R209). -/
def Sketch.merge (s t : Sketch) : Sketch :=
  let lv := joinLevels s.levels t.levels
  let s1 := { s with levels := lv, parity := s.parity ++ List.replicate (lv.length - s.parity.length) 0 }
  Sketch.compact (lv.length + 64) 0 s1

/-- quantile (R209): the fold whose cumulated weight first reaches max(1, ceil(q n)); none for an empty sketch. -/
def Sketch.quantile (s : Sketch) (q : Rat) : Option Nat :=
  let pairs := sortBy (fun a b : Nat × Nat => decide (a.1 < b.1) || (a.1 == b.1 && decide (a.2 ≤ b.2)))
    ((s.levels.zipIdx).flatMap fun p => p.1.map fun x => (x, 2 ^ p.2))
  let n := (pairs.map fun p => p.2).sum
  if n == 0 then none
  else
    let target := max 1 (q * (n : Rat)).ceil.toNat
    let r := pairs.foldl (fun (a : Nat × Option Nat) p =>
      match a.2 with
      | some _ => a
      | none => let c := a.1 + p.2; if target ≤ c then (c, some p.1) else (c, none)) (0, none)
    r.2

/-- The inverse of the fold of a fixed-width key type (R118, R119). -/
def unfoldKey (t : LTy) (x : Nat) : Nat :=
  match t.kind with
  | .bool => x
  | .uint => x
  | .sint => Nat.xor x (2 ^ (8 * t.size - 1))
  | .dec => Nat.xor x (2 ^ 63)
  | .flt f =>
    let w := f.width
    if bitOf x (w - 1) then x - 2 ^ (w - 1) else 2 ^ w - 1 - x

/-- Runs of `parts` lengths of a list, then the rest as one run. -/
def splitParts {α : Type} : List Nat → List α → List (List α)
  | [], l => if l.isEmpty then [] else [l]
  | n :: ns, l => l.take n :: splitParts ns (l.drop n)

/-- A value of a key type as its fold, and back (R118, R119, R209); a string unfolds to its prefix without the 0x00 that fills it (log
entry 126). -/
def ColW.foldOf (c : ColW) (x : Cell) : Nat :=
  if isVar c.ty then prefixFold c.param x.bytes else ((laneTy c.ty).bind fun t => foldKey t x.bits).getD 0
def ColW.unfold (c : ColW) (x : Nat) : Cell :=
  if isVar c.ty then
    { valid := true, bytes := ((((List.range c.param).map fun i => BitVec.ofNat 8 (x / 2 ^ (8 * i))).dropWhile fun b => b == 0#8).reverse) }
  else ((laneTy c.ty).map fun t => ({ valid := true, bits := unfoldKey t x } : Cell)).getD {}

/-- A sketch filled with the values of one column: the partial of each run of cells, merged in order (R209). NaNs are not inserted. -/
def fillSketch (k : Nat) (c : ColW) (runs : List (List Cell)) : Sketch :=
  let one := fun l : List Cell => (l.filter fun x => x.valid && !cellNan c.ty x).foldl (fun s x => s.insert (c.foldOf x)) (newSketch k)
  match runs.map one with
  | [] => newSketch k
  | p :: ps => ps.foldl Sketch.merge p

/-- The value at a quantile, null for an empty sketch (R209). -/
def Sketch.cellAt (s : Sketch) (c : ColW) (q : Rat) : Cell := ((s.quantile q).map c.unfold).getD {}

/-- The knots that a FIT sketch gives at points i ÷ n for `i` from `lo` to `hi`, as cells of its column; each 0 without a value (R183, R208). -/
def Built.knots (b : Built) (lo hi n : Nat) : List Cell :=
  match b.sketch with
  | none => []
  | some (w, s) => (List.range (hi + 1 - lo)).map fun i =>
    let x := s.cellAt (parseCol w) (((lo + i : Nat) : Rat) / (n : Rat))
    if x.valid then x else { valid := true, bits := 0 }

/-- Bytes that a group takes in a cluster's store: its key and 8 bytes an aggregate (R204; log entry 56). -/
def groupBytes (parts : List ColW) (naggs : Nat) : Nat := (foldKeys true 0 parts (parts.map fun _ => {})).2 + 8 * naggs

/-- What the tasks of an operator have brought, as one run of rows for each core's partial, in ascending cluster and core order (R203,
R209). -/
def coreRuns (ps : List InPart) : List (List (Nat × List Cell × List Cell)) := ps.flatMap fun p => splitParts p.parts p.rows

/-- Binary64 steps by RNE. -/
def add64 (a b : Nat) : Nat := (fp64.encode 0 (fAdd 0 (fp64.decode a) (fp64.decode b)).1).1
def mul64 (a b : Nat) : Nat := (fp64.encode 0 (fMul (fp64.decode a) (fp64.decode b)).1).1
def div64 (a b : Nat) : Nat := (fp64.encode 0 (fDiv (fp64.decode a) (fp64.decode b)).1).1
def nat64 (n : Nat) : Nat := fp64Of (n : Rat)

/-- add of R211 on a register set, by the hash of a key. -/
def hllAdd (m : Tab Nat) (h p : Nat) : Tab Nat :=
  let w := h * 2 ^ p % 2 ^ 64
  let rho := if w == 0 then 64 - p + 1 else leadZeros64 w + 1
  tmod 0 (h / 2 ^ (64 - p)) (max rho) m
where
  /-- Leading zeros of a 64-bit number. -/
  leadZeros64 (w : Nat) : Nat := if w == 0 then 64 else 63 - Nat.log2 w

/-- estimate of R211, in binary64 steps; the logarithm is rounded once. -/
def hllEstimate (m : Tab Nat) (p : Nat) : Nat :=
  let n := 2 ^ p
  let alpha := div64 (fp64Of (7213 / 10000)) (add64 (nat64 1) (div64 (fp64Of (1079 / 1000)) (nat64 n)))
  let sum := (List.range n).foldl (fun a j => add64 a (fp64Of (1 / (2 : Rat) ^ (tget 0 m j)))) 0
  let e := div64 (mul64 (mul64 alpha (nat64 n)) (nat64 n)) sum
  let v := n - m.length
  let l := if v == 0 then 0 else
    let x := ratOf (fp64.decode (div64 (nat64 n) (nat64 v)))
    fp64Of (((fxLogOf x : Int) : Rat) / (2 : Rat) ^ fxBits)
  let e2 := if fLt (fp64.decode (mul64 (fp64Of (5 / 2)) (nat64 n))) (fp64.decode e) || v == 0 then e else mul64 (nat64 n) l
  match fp64.decode e2 with
  | .fin neg a d => (roundInt 0 neg a d).toNat
  | _ => 0
where
  /-- Natural logarithm of a positive fraction in fixed point. -/
  fxLogOf (x : Rat) : Int := fxLog x.num.natAbs x.den

end Sys2Proof.Machine
end

