-- ==== Sys2Proof/Machine/LoadHead.lean ====
section
/-! DEFINITION. LOAD_GRAPH: the header, the section table and the presence of sections (R57, R58, R542), and the form in which all
load checks answer. -/

namespace Sys2Proof.Machine

/-- Which of the steps of R58 that the records' checks share have failed: step 4 (ST_MISALIGNED), 5 (ST_BAD_DESCRIPTOR), 8
(ST_LIMIT). -/
structure Chk where
  mis : Bool := false
  bad : Bool := false
  lim : Bool := false
  deriving DecidableEq, Repr

def Chk.and (a b : Chk) : Chk := { mis := a.mis || b.mis, bad := a.bad || b.bad, lim := a.lim || b.lim }
def misIf (b : Bool) : Chk := { mis := b }
def badIf (b : Bool) : Chk := { bad := b }
def limIf (b : Bool) : Chk := { lim := b }
/-- Every check of a list. -/
def chks (l : List Chk) : Chk := l.foldl Chk.and {}
/-- One check over every element of a list. -/
def chkAll {α : Type} (l : List α) (f : α → Chk) : Chk := chks (l.map f)
/-- A value outside lo to hi fails step 8. -/
def range (v lo hi : Nat) : Chk := limIf (!(decide (lo ≤ v) && decide (v ≤ hi)))
/-- A value that is no multiple of m fails step 4. -/
def multiple (v m : Nat) : Chk := misIf (v % m != 0)
/-- A reserved or unused field that is not 0 fails step 5. -/
def zero (v : Nat) : Chk := badIf (v != 0)
/-- No value of a list is repeated. -/
def distinct {α : Type} [DecidableEq α] (l : List α) : Bool := (l.zipIdx).all fun p => !((l.drop (p.2 + 1)).contains p.1)
/-- Two byte ranges (start and length) share a byte. -/
def overlaps (a b : Nat × Nat) : Bool := a.2 != 0 && b.2 != 0 && decide (a.1 < b.1 + b.2) && decide (b.1 < a.1 + a.2)
/-- Two of a list of ranges share a byte. -/
def anyOverlap (l : List (Nat × Nat)) : Bool := (l.zipIdx).any fun p => (l.drop (p.2 + 1)).any fun r => overlaps p.1 r

/-- The header of a QXG image (chapter 02). -/
structure QHead where
  magic : Nat
  major : Nat
  minor : Nat
  size : Nat
  sections : Nat
  total : Nat
  id : Nat
  flags : Nat
  variants : Nat
  phases : Nat
  period : Nat
  clock : Nat
  streams : Nat
  table : Nat
  digest : Bytes
  deriving DecidableEq, Repr

def parseHead (b : Bytes) : QHead :=
  { magic := fieldAt b 0 4, major := fieldAt b 4 2, minor := fieldAt b 6 2, size := fieldAt b 8 4, sections := fieldAt b 12 4
    total := fieldAt b 16 8, id := fieldAt b 24 8, flags := fieldAt b 32 4, variants := fieldAt b 36 2, phases := fieldAt b 38 2
    period := fieldAt b 40 8, clock := fieldAt b 48 2, streams := fieldAt b 50 2, table := fieldAt b 52 4
    digest := (b.drop 56).take 48 }

/-- A section-table entry (chapter 02). -/
structure SectEnt where
  ty : Nat
  flags : Nat
  index : Nat
  off : Nat
  len : Nat
  crc : Nat
  rsvd : Nat
  deriving DecidableEq, Repr

def parseSect (b : Bytes) : SectEnt :=
  { ty := fieldAt b 0 2, flags := fieldAt b 2 2, index := fieldAt b 4 4, off := fieldAt b 8 8, len := fieldAt b 16 8, crc := fieldAt b 24 4
    rsvd := fieldAt b 28 4 }

def SectEnt.required (e : SectEnt) : Bool := bitOf e.flags 0
/-- The section types of chapter 02. -/
def knownSect (t : Nat) : Bool := (decide (1 ≤ t) && decide (t ≤ 9)) || t == 0xF0

def sectTable (img : Bytes) (h : QHead) : List SectEnt := (recs img h.table 32 h.sections).map parseSect
def SectEnt.data (e : SectEnt) (img : Bytes) : Bytes := (img.drop e.off).take e.len

/-- The graph that an image describes, with its sections in table order. -/
def graphOf (img : Bytes) (h : QHead) (en : SubEntry) : Graph :=
  { id := h.id, major := h.major, minor := h.minor, minPeriod := h.period, minClock := h.clock, streams := h.streams, phases := h.phases
    sections := (sectTable img h).map fun e => { ty := e.ty, index := e.index, data := e.data img }
    image := img, entry := en, variant := 0, digest := h.digest, phase := 0, swapDue := none, switchDue := false }

/-- Step 2 of R58. -/
def headBad (h : QHead) (len : Nat) : Bool := h.magic != 0x1A475851 || h.size != 128 || h.total != len

/-- The header's fields in steps 4, 5 and 8. -/
def headChk (img : Bytes) (h : QHead) : Chk :=
  chks [multiple h.table 64, zero (h.flags / 2), zero (fieldAt img 0x68 24), badIf (h.clock % 100 != 0), range h.sections 1 256,
    range h.total 0 0x100000000, range h.variants 1 16, range h.phases 1 64, range h.period 50000 10000000000, range h.clock 1200 2400,
    range h.streams 1 64]

/-- The section table in steps 4 and 5: within the image, sections apart from each other, the header and the table.
A nonzero INDEX of a known section that is no variant fails step 5 (DEDUCED, log entry 83). -/
def tableChk (h : QHead) (es : List SectEnt) : Chk :=
  let ranges := (0, 128) :: (h.table, 32 * h.sections) :: es.map fun e => (e.off, e.len)
  chks [badIf (decide (h.total < h.table + 32 * h.sections)), badIf (anyOverlap ranges),
    chkAll es fun e => chks [multiple e.off 64, badIf (decide (h.total < e.off + e.len)), zero (e.flags / 2), zero e.rsvd,
      badIf (e.ty != 4 && knownSect e.ty && e.index != 0)]]

/-- Step 6: every section CRC, and the digest of all section contents in table order. -/
def sumsFail (img : Bytes) (h : QHead) (es : List SectEnt) : Bool :=
  (es.any fun e => crc32c (e.data img) != e.crc) || sha384 (es.flatMap fun e => e.data img) != h.digest

/-- A directory section (chapters 05, 08, 10, 11): its count and zero bytes, then entries of offset, length and zero bytes. -/
def dirOf (b : Bytes) : List (Nat × Nat) := (recs b 16 16 (fieldAt b 0 4)).map fun e => (fieldAt e 0 8, fieldAt e 8 4)
def dirItem (b : Bytes) (d : Nat × Nat) : Bytes := (b.drop d.1).take d.2
def dirChk (b : Bytes) (max : Nat) : Chk :=
  chks [range (fieldAt b 0 4) 1 max, zero (fieldAt b 4 12), badIf (decide (b.length < 16 + 16 * fieldAt b 0 4)),
    chkAll (recs b 16 16 (fieldAt b 0 4)) fun e =>
      chks [multiple (fieldAt e 0 8) 64, zero (fieldAt e 12 4), badIf (decide (b.length < fieldAt e 0 8 + fieldAt e 8 4))]]

/-- How many sections of a type an image holds. -/
def Graph.countSect (g : Graph) (t : Nat) : Nat := (g.sections.filter fun x => x.ty == t).length
/-- A section of a type that may stand at most once: none passes unless it is needed (R542). -/
def oneSect (g : Graph) (t : Nat) (need : Bool) : Chk :=
  badIf (decide (1 < g.countSect t) || (need && g.countSect t == 0))

/-- A section's checks, where the image holds it. -/
def Graph.ifSect (g : Graph) (t : Nat) (f : Bytes → Chk) : Chk := if g.countSect t == 0 then {} else f (g.sect t)

end Sys2Proof.Machine
end

