-- ==== Sys2Proof/Machine/LoadTpl.lean ====
section
/-! DEFINITION. LOAD_GRAPH: the checks of task templates and operator declarations (R329 to R331, R171, R181, R215, R219, R224, R227,
R229, R243, R247, R548). -/

namespace Sys2Proof.Machine

/-- A parameter field of R331. -/
inductive PForm where
  /-- A number from lo to hi. -/
  | num (lo hi : Nat)
  /-- A power of two from lo to hi. -/
  | pow2 (lo hi : Nat)
  /-- Any word. -/
  | any
  /-- A COL; one that may be 0. -/
  | col
  | colOpt
  /-- A KEY of lo to 8 parts of key types; Sage's carries field widths. -/
  | key (lo : Nat) (sage : Bool)
  /-- A LIST of COLs. -/
  | cols
  /-- A LIST of lo to hi words, each from a to b. -/
  | nums (lo hi a b : Nat)
  /-- A LIST of AGG words, of codes up to `top`. -/
  | aggs (top : Nat)
  /-- A TABLE; one that may be 0. -/
  | tbl
  | tblOpt
  /-- The template of a companion Quern operator. -/
  | tpl (op : Nat)
  deriving DecidableEq, Repr

/-- Whether a code is a key type (R118). -/
def isKeyTy (ty : Nat) : Bool := ty == 0x40 || ty == 0x41 || ((laneTy ty).bind fun t => foldKey t 0).isSome

/-- A COL word: reserved bits 0, a type of R104, a DEC64 scale of at most 18 (R331). -/
def colChk (w : Nat) : Chk :=
  chks [zero (bitsOf w 23 20), badIf (bitOf w 19 && w % 256 != 0), limIf (!isType (bitsOf w 15 8)),
    limIf (bitsOf w 15 8 == 0x30 && decide (18 < bitsOf w 31 24))]

/-- A key part: a key type, a string's prefix P of 1 to 16, or Sage's field width F of 1 to 63 (R171, R243). -/
def partChk (sage : Bool) (w : Nat) : Chk :=
  let c := parseCol w
  chks [colChk w, limIf (!isKeyTy c.ty), if isVar c.ty then range c.param 1 (if sage then 63 else 16) else {}]

/-- A TABLE word: reserved bits 0, and it names an attached table or a table-stage template (R331). -/
def tblChk (att : Nat → Bool) (g : Graph) (w : Nat) : Chk :=
  if bitOf w 12 then
    chks [zero (w % 4096), zero (bitsOf w 15 13), zero (w / 2 ^ 32), badIf (!((g.tpl (bitsOf w 31 16)).any Tpl.stage))]
  else chks [zero (w / 2 ^ 13), badIf (!att (w % 4096))]

/-- An AGG word: its aggregate, its sketch width or precision, a quantile point of 0 to 1 (R198, R203, R209, R211). -/
def aggChk (top w : Nat) : Chk :=
  let a := parseAgg w
  chks [range a.code 0 top, zero (if a.code == 9 || a.code == 10 then 0 else a.arg), zero (if a.code == 10 then 0 else a.q),
    if a.code == 9 then range a.arg 10 16 else {},
    if a.code == 10 then limIf (!(a.arg == 0 || (decide (256 ≤ a.arg) && 2 ^ Nat.log2 a.arg == a.arg)) ||
      (match fp32.decode a.q with | .fin neg n d => (neg && n != 0) || decide (d < n) | _ => true)) else {}]

/-- Takes one field from the words: its checks and the words that follow; none where the words run out. -/
def PForm.take (att : Nat → Bool) (g : Graph) (f : PForm) (ws : List Nat) : Chk × Option (List Nat) :=
  match ws with
  | [] => ({}, none)
  | w :: r =>
    let list := fun each : Nat → Chk => if r.length < w then ({}, none) else (chkAll (r.take w) each, some (r.drop w))
    match f with
    | .num lo hi => (range w lo hi, some r)
    | .pow2 lo hi => (chks [range w lo hi, limIf (2 ^ Nat.log2 w != w)], some r)
    | .any => ({}, some r)
    | .col => (colChk w, some r)
    | .colOpt => (if w == 0 then {} else colChk w, some r)
    | .key lo sage => let x := list (partChk sage); ((range w lo 8).and x.1, x.2)
    | .cols => list colChk
    | .nums lo hi a b => let x := list fun v => range v a b; ((range w lo hi).and x.1, x.2)
    | .aggs top => list (aggChk top)
    | .tbl => (tblChk att g w, some r)
    | .tblOpt => (if w == 0 then {} else tblChk att g w, some r)
    | .tpl op => (badIf (!((g.tpl w).any fun t => t.kind == 3 && t.unit == 1 && t.op == op)), some r)

/-- All fields of an operator: PARAM_LEN must be what they take (R331). -/
def takeAll (att : Nat → Bool) (g : Graph) : List PForm → List Nat → Chk
  | [], ws => badIf (!ws.isEmpty)
  | f :: fs, ws =>
    let x := f.take att g ws
    match x.2 with
    | none => x.1.and (badIf true)
    | some r => x.1.and (takeAll att g fs r)

/-- The fields of Quern's operators, in the order of R331. -/
def quernForms : Nat → Option (List PForm)
  | 1 => some [.num 0 2, .num 1 12, .key 1 false, .col, .nums 0 65535 0 0xFFFFFFFFFFFFFFFF]
  | 2 => some [.num 1 0x100000000, .num 0 2, .any, .num 0 1, .key 1 false, .col]
  | 3 => some [.num 1 0xFFFFFFFF, .num 1 0x1000000000, .num 0 1, .tbl, .key 1 false, .cols]
  | 4 => some [.num 0 3, .num 0 1, .tpl 3, .key 1 false, .cols]
  | 5 => some [.num 1 268435456, .tbl, .key 1 false, .col, .cols]
  | 6 => some [.num 0 1, .any, .any, .tpl 5, .key 1 false, .col, .cols]
  | 7 => some [.num 1 268435456, .tbl, .key 1 false, .col, .cols, .aggs 6]
  | 8 => some [.num 0 1, .tpl 7, .key 1 false, .col, .nums 1 8 1 0x4000000000000000, .aggs 6, .cols]
  | 9 => some [.num 1 0xFFFFFFFF, .num 0 1, .key 1 false, .cols, .aggs 10, .cols]
  | 10 => some [.pow2 256 65536, .col, .nums 0 0xFFFFFFFF 0 0xFFFFFFFFFFFFFFFF, .col]
  | 11 => some [.num 10 16, .key 1 false, .col]
  | 12 => some [.num 2 0x100000000, .num 0 1, .key 2 false, .col]
  | _ => none

/-- The fields of every unit's operators. -/
def unitForms (u op : Nat) : Option (List PForm) :=
  match u, op with
  | 1, _ => quernForms op
  | 2, 1 => some [.num 0 1, .num 0 4, .num 0 2, .any, .col, .colOpt, .col]
  | 2, 2 => some [.num 1 65536, .num 0 1, .num 0 2, .num 0 4, .num 0 2, .any, .any, .tblOpt, .col, .colOpt, .col]
  | 3, 1 => some [.any, .num 0 15, .num 0 64, .key 1 true, .cols]
  | 3, 2 => some [.any, .num 1 65536, .col, .cols]
  | 3, 3 => some [.num 0 7, .num 0 1, .any, .colOpt, .tbl, .key 1 true]
  | 4, 1 => some [.num 0 3, .num 1 0x10000000000, .num 0 1, .any, .any, .tbl, .col, .cols]
  | 4, 2 => some [.num 0 3, .num 1 0x10000000000, .num 0 1, .any, .any, .tbl, .col, .cols]
  | 4, 3 => some [.num 0 3, .num 1 0x10000000000, .num 0 1, .any, .any, .num 0 1, .tbl, .col, .cols]
  | _, _ => none

/-- Whether a key part's fold with its class byte is a present NaN's (R118 to R121). -/
def nanFold (c : ColW) (v : Nat) : Bool :=
  match laneTy c.ty with
  | some ⟨z, .flt _⟩ => v % 2 ^ (8 * z) == (if c.desc then 0 else 2 ^ (8 * z) - 1) && (!c.nullable || v / 2 ^ (8 * z) == 1)
  | _ => false

/-- Whether a boundary is a NaN, or holds one in a part that lies within the 8 bytes it gives of a compound key (R181; log entry 53). -/
def boundNan (parts : List ColW) (w : Nat) : Bool :=
  match parts with
  | [c] => !isVar c.ty && cellNan c.ty { valid := true, bits := w % 2 ^ tyBits c.ty }
  | _ =>
    let len := (foldKeys false 0 parts (parts.map fun _ => {})).2
    (parts.foldl (fun (a : Nat × Bool) c =>
      let z := (foldPart false 0 0 c {}).2
      (a.1 - z, a.2 || decide (len - (a.1 - z) ≤ 8) && nanFold c (boundWide len w / 2 ^ (8 * (a.1 - z)) % 2 ^ (8 * z)))) (len, false)).2

/-- A list of boundaries: non-decreasing, no NaN (R181). -/
def boundListChk (parts : List ColW) (ws : List Nat) : Chk :=
  badIf (ws.any (boundNan parts) || (ws.zip (ws.drop 1)).any fun p => !boundLe parts p.1 p.2)

/-- PARTITION's boundaries: none but under MODE 2 (R181, R331). -/
def boundsChk (mode : Nat) (parts : List ColW) (ws : List Nat) : Chk :=
  if mode != 2 then badIf (!ws.isEmpty) else boundListChk parts ws

/-- A template whose FIT a declaration takes: a RANK_SKETCH of a table stage that works by the FIT rules (R183, R208). -/
def Graph.fitOk (g : Graph) (t : Nat) : Bool :=
  g.decls.fits.contains t && (g.tpl t).any fun x => x.stage && x.kind == 3 && x.unit == 1 && x.op == 10

/-- The boundaries of a range partition or bucketing (R181 to R183): 1 to 65,535, its own, or those that its bucketing declares; NULL_BUCKET
among the buckets. -/
def bucketChk (g : Graph) (i : Nat) (t : Tpl) : Chk :=
  let ps := g.params t
  let k := takeCols (ps.drop 2)
  let own := (takeList (k.2.drop 1)).1
  if !(t.kind == 3 && t.unit == 1 && t.op == 1 && ps.getD 0 0 == 2) then badIf (g.decls.buckets.any fun d => d.1 == i)
  else match g.decls.buckets.find? fun d => d.1 == i with
  | none => range own.length 1 65535
  | some (_, d) =>
    let m := match d.fit with
      | some f => f.2 - 1
      | none => if d.consts.isEmpty then own.length else d.consts.length
    chks [badIf (!own.isEmpty && (d.fit.isSome || !d.consts.isEmpty)), badIf (d.fit.isSome && !d.consts.isEmpty), range m 1 65535,
      boundListChk k.1 d.consts, badIf (d.fit.any fun f => !g.fitOk f.1), if d.nullMode == 1 then range d.nullBucket 0 m else {}]

/-- Whether numbers stand in their order, none of them a NaN. -/
def ascending (ws : List Nat) : Bool :=
  let vs := ws.map fp64.decode
  !(vs.any fun v => v == .nan) && (vs.zip (vs.drop 1)).all fun p => !fLt p.2 p.1

/-- The opcode of the words that compute a kind of normalisation (log entry 95). -/
def normOp : NormKind → Nat
  | .zscore => 0x24
  | .minmax => 0x24
  | .log1p => 0x3A
  | .clip => 0x2D
  | .quantile => 0x2F

/-- A declared normalisation: its word of FP32 or FP64, its parameters within R206, its FIT (R208). -/
def normChk (g : Graph) (d : Nat × Nat × Norm) : Chk :=
  let b := g.program d.1
  let w := leNat ((recs b (16 + 16 * fieldAt b 4 1) 8 (fieldAt b 0 4)).getD d.2.1 [])
  let n := d.2.2
  let ps := n.params
  chks [badIf (w % 256 != normOp n.kind || !((decodeFields w).ty.val == 0x12 || (decodeFields w).ty.val == 0x13)),
    match n.fit with
    | some f => chks [badIf (!g.fitOk f.1 || n.kind == .log1p || !ps.isEmpty), if n.kind == .quantile then range f.2 2 4097 else zero f.2]
    | none => (match n.kind with
      | .log1p => badIf (!ps.isEmpty)
      | .zscore => chks [badIf (ps.length != 2), limIf (!(ps.all finite64) || (ratOf (fp64.decode (ps.getD 1 0)) < 0))]
      | .quantile => chks [range ps.length 2 4097, limIf (!(ps.all finite64 && ascending ps))]
      | _ => chks [badIf (ps.length != 2), limIf (!(ps.all finite64 && ascending ps))])]

/-- What a graph declares of its operators (log entry 95). -/
def opsChk (g : Graph) : Chk :=
  chks [chkAll g.decls.norms (normChk g), chkAll ((List.range g.tplCount).filterMap fun i => (g.tpl i).map fun t => (i, t)) fun p => bucketChk g p.1 p.2,
    badIf (g.decls.fits.any fun t => !g.fitOk t)]

/-- A selection's threshold (R227, R331): its value's type, and no constant NaN. -/
def threshChk (ty src w : Nat) (pred : Bool) : Chk :=
  chks [limIf (!((laneTy ty).bind fun t => foldKey t 0).isSome), match src with
    | 0 => zero w
    | 1 => badIf (!pred && cellNan ty { valid := true, bits := w })
    | _ => colChk w]

/-- The row form of a gather or scatter (R219) and the type of its index (R215). -/
def rowsChk (form rowBytes pitch : Nat) (index : ColW) : Chk :=
  chks [limIf (!(decide (2 ≤ index.ty) && decide (index.ty ≤ 9))),
    if form == 1 then chks [range rowBytes 1 65536, limIf (pitch % 64 != 0 || decide (pitch < rowBytes))] else {}]

/-- The bytes that a Sage key needs (R243). -/
def sageKeyBytes (parts : List ColW) : Nat :=
  (parts.map fun c => (if isVar c.ty then c.param + 1 else tyBits c.ty / 8) + (if c.nullable && !isVar c.ty then 1 else 0)).sum

/-- The types that SCATTER_ADD adds (R224). -/
def addTy (t : Nat) : Bool := t == 6 || t == 7 || t == 8 || t == 9 || t == 0x12 || t == 0x13

/-- What the chapters ask of a Quern operator beyond the range of each field. -/
def quernExtra (op : Nat) (ps : List Nat) : Chk :=
  let p := fun i : Nat => ps.getD i 0
  match op with
  | 1 => let k := takeCols (ps.drop 2); boundsChk (p 0) k.1 (takeList (k.2.drop 1)).1
  | 2 => limIf (p 1 == 1 && decide (p 0 ≤ p 2))
  | 5 => let k := takeCols (ps.drop 2); limIf (!isIntTy (parseCol (k.2.headD 0)).ty)
  | 6 =>
    let k := takeCols (ps.drop 4)
    chks [limIf (decide (2 ^ 63 ≤ p 1) && p 1 != 0xFFFFFFFFFFFFFFFF), zero (p 2 / 8),
      limIf (!isIntTy (parseCol (k.2.headD 0)).ty)]
  | 7 =>
    let k := takeCols (ps.drop 2)
    let v := takeList (k.2.drop 1)
    chkAll (takeList v.2).1 fun a => limIf ((parseAgg a).code != 0 && decide (v.1.length ≤ (parseAgg a).col))
  | 9 =>
    let k := takeCols (ps.drop 2)
    let v := takeList k.2
    chkAll (takeList v.2).1 fun a => limIf ((parseAgg a).code != 0 && decide (v.1.length ≤ (parseAgg a).col))
  | 10 => chks [limIf (!isKeyTy (parseCol (p 1)).ty), chkAll (takeList (ps.drop 2)).1 fun q =>
      limIf (match fp64.decode q with | .fin neg n d => (neg && n != 0) || decide (d < n) | _ => true)]
  | _ => {}

/-- What the chapters ask of an operator beyond the range of each field. -/
def unitExtra (u op : Nat) (ps : List Nat) : Chk :=
  let p := fun i : Nat => ps.getD i 0
  match u, op with
  | 1, _ => quernExtra op ps
  | 2, 1 => threshChk (parseCol (p 4)).ty (p 2) (p 3) (p 0 == 1)
  | 2, 2 =>
    let c := parseCol (p 8)
    chks [threshChk (if p 2 == 1 && c.ty == 0x42 then c.param else c.ty) (p 4) (p 5) false, badIf ((p 2 == 2) != (p 7 != 0))]
  | 3, 1 => zero (p 0 / 256)
  | 3, 2 => zero (p 0 / 256)
  | 3, 3 => if p 1 == 0 then range (p 2) 0 255 else chks [colChk (p 2), limIf ((parseCol (p 2)).ty != 3)]
  | 4, 1 => rowsChk (p 2) (p 3) (p 4) (parseCol (p 6))
  | 4, 2 => rowsChk (p 2) (p 3) (p 4) (parseCol (p 6))
  | 4, 3 => (rowsChk (p 2) (p 3) (p 4) (parseCol (p 7))).and (chkAll (takeList (ps.drop 8)).1 fun w => badIf (!addTy (parseCol w).ty))
  | _, _ => {}

/-- The template that a probe's TPL names (R548). -/
def Graph.companion (g : Graph) (t : Tpl) : Option Tpl :=
  if t.kind == 3 && t.unit == 1 then
    (match t.op with
    | 4 => g.tpl ((g.params t).getD 2 0)
    | 6 => g.tpl ((g.params t).getD 3 0)
    | 8 => g.tpl ((g.params t).getD 1 0)
    | _ => none)
  else none

/-- What an operator's context does not permit (R163, R184, R188, R193, R195, R205, R209, R211, R229, R252; log entry 94): builds, sketches and
TABLE-scope selections run in table stages, and a batch keeps its rows. -/
def contextChk (stage : Bool) (u op : Nat) (ps : List Nat) : Chk :=
  let p := fun i : Nat => ps.getD i 0
  if stage then {}
  else match u, op with
    | 1, 3 => limIf true
    | 1, 4 => limIf (p 0 == 0)
    | 1, 5 => limIf true
    | 1, 6 => limIf (bitOf (p 2) 2)
    | 1, 7 => limIf true
    | 1, 9 => limIf (p 1 == 0)
    | 1, 10 => limIf true
    | 1, 11 => limIf true
    | 2, 2 => limIf (p 2 == 2)
    | 3, 3 => limIf true
    | _, _ => {}

/-- The operator of a UNIT template (R330, R331, R548). -/
def operatorChk (att : Nat → Bool) (g : Graph) (t : Tpl) : Chk :=
  match unitForms t.unit t.op with
  | none => badIf true
  | some fs =>
    chks [takeAll att g fs (g.params t), unitExtra t.unit t.op (g.params t), contextChk t.stage t.unit t.op (g.params t), badIf (t.paramLen % 8 != 0),
      badIf (decide ((g.sect 2).length < t.paramOff + t.paramLen)), range t.paramLen 8 65536, multiple t.paramOff 8,
      badIf ((g.companion t).any fun c => c.salt != t.salt)]

/-- One task template (R329, R334). -/
def tplChk (att : Nat → Bool) (g : Graph) (b : Bytes) : Chk :=
  let t := parseTpl b
  let unit := t.kind == 3
  chks [range t.kind 1 3, if unit then range t.unit 1 4 else zero t.unit, range t.prio 0 7, zero (t.flags / 4),
    if t.kind == 1 then badIf (decide ((dirOf (g.sect 1)).length ≤ t.prog)) else zero t.prog,
    if t.kind == 2 then badIf ((g.layer t.kernel t.layer).isNone) else chks [zero t.kernel, zero t.layer],
    if t.flow == 0xFFFF then zero t.outSlot else range t.flow 0 1023, if t.weir == 0xFF then {} else range t.weir 0 63,
    range t.waitGroup 0 15, range t.setGroup 0 15, range t.stream 0 63, if unit && t.unit == 1 then {} else zero t.salt,
    if unit then operatorChk att g t else chks [zero t.paramOff, zero t.paramLen, zero t.op], zero (fieldAt b 0x36 10)]

/-- The records of section 0x0002. -/
def Graph.tplRecs (g : Graph) : List Bytes := recs (g.sect 2) 16 64 g.tplCount
def Graph.tpls (g : Graph) : List Tpl := g.tplRecs.map parseTpl

/-- Section 0x0002. -/
def tplsChk (att : Nat → Bool) (g : Graph) : Chk :=
  chks [range g.tplCount 1 65536, zero (fieldAt (g.sect 2) 4 12), badIf (decide ((g.sect 2).length < 16 + 64 * g.tplCount)),
    chkAll g.tplRecs (tplChk att g)]

end Sys2Proof.Machine
end

