-- ==== Sys2Proof/Machine/Quern.lean ====
section
/-! DEFINITION. Quern's operators (chapter 06): partitioning and bucketing, hash joins, as-of joins, window aggregates, group-by,
sketches and feature crosses. -/

namespace Sys2Proof.Machine

/-- A UINT32 cell, a BOOL cell. -/
def u32Cell (n : Nat) : Cell := { valid := true, bits := n }
def boolCell (b : Bool) : Cell := { valid := true, bits := b2n b }

/-- The partition of a row (R179): by hash, by the top bits of its ordering key, or by boundaries. -/
def partitionRow (mode b salt : Nat) (parts : List ColW) (bounds : List Nat) (xs : List Cell) : Nat :=
  match mode with
  | 0 => partitionOf (keyHash salt parts xs) b
  | 1 => let k := foldKeys false 0 parts xs; if b ≤ 8 * k.2 then k.1 / 2 ^ (8 * k.2 - b) else k.1 * 2 ^ (b - 8 * k.2)
  | _ => (bounds.filter fun w => boundaryBelow parts xs w).length

/-- The bucket of a row of a range bucketing (R181, R182): m boundaries give buckets 0 to m; a null part sorts by NULLS_LAST, and a NaN above
+infinity; a compound key with a NaN in any part goes to bucket m (log entry 123). -/
def rangeBucketRow (d : Bucketing) (parts : List ColW) (bounds : List Nat) (xs : List Cell) : Cell :=
  let ys := if d.nanNull then (parts.zip xs).map fun p => if cellNan p.1.ty p.2 then ({} : Cell) else p.2 else xs
  if keyNull ys then
    match d.nullMode with
    | 0 => {}
    | 1 => u32Cell d.nullBucket
    | _ => u32Cell (if ((parts.zip ys).find? fun p => !p.2.valid).any fun p => p.1.last then bounds.length else 0)
  else if (parts.zip ys).any fun p => cellNan p.1.ty p.2 then u32Cell bounds.length
  else u32Cell (bounds.filter fun w => boundaryBelow parts ys w).length

/-- The boundaries of a range bucketing: its own list, a constant list, or the quantiles (j + 1) ÷ n of the sketch that a stage has fitted
(R183). -/
def State.boundsOf (s : State) (d : Option Bucketing) (own : List Nat) : List Nat :=
  match d with
  | none => own
  | some x => match x.fit with
    | some (t, n) => ((s.builtOf t).knots 1 (n - 1) n).map fun c => c.bits
    | none => if x.consts.isEmpty then own else x.consts

/-- PARTITION (R179); with a bucketing declared, the range bucketing of a column (R181 to R183). -/
def execPartition (k : Fin 16) (slot : Fin 4096) (rs : Rows) (s : State) : Host.Outcome State Fault Refusal :=
  .next (s.unitRun k.val slot.val 1 1 fun j s =>
    let key := takeCols (j.ps.drop 2)
    let d := (j.g.decls.buckets.find? fun p => p.1 == j.tpl).map fun p => p.2
    let bounds := s.boundsOf d (takeList (key.2.drop 1)).1
    let cells := fun i => s.keyCells j.k key.1 i
    let live := (rowList rs).filter fun p => !j.absent s p
    let n := if j.p 0 == 0 then (live.map fun p => keyChunks key.1 (cells p.1)).sum else 0
    let tally := d.isSome && j.p 0 == 2
    some ((s.modQuern j.k fun q => { q with
      chunks := (q.chunks + n) % 2 ^ 64
      nullKeys := sat32 q.nullKeys (if tally then (live.filter fun p => keyNull (cells p.1)).length else 0)
      nanInputs := sat32 q.nanInputs (if tally then (live.map fun p => ((key.1.zip (cells p.1)).filter fun x => cellNan x.1.ty x.2).length).sum else 0) }).putRows j
        [parseCol (key.2.headD 0)] rs fun i => [match d with
          | some x => if j.p 0 == 2 then rangeBucketRow x key.1 bounds (cells i) else u32Cell (partitionRow (j.p 0) (j.p 1) j.t.salt key.1 bounds (cells i))
          | none => u32Cell (partitionRow (j.p 0) (j.p 1) j.t.salt key.1 bounds (cells i))]))

/-- The bucket of a row under NULL_MODE and NAN_MODE (R180, R182): the cell, and whether it is a null key or holds a NaN. -/
def hashBucketRow (n nullMode nullBucket nanMode salt : Nat) (parts : List ColW) (xs : List Cell) : Cell × Bool × Nat :=
  let nans := ((parts.zip xs).filter fun p => cellNan p.1.ty p.2).length
  let ys := if nanMode == 1 then (parts.zip xs).map fun p => if cellNan p.1.ty p.2 then ({} : Cell) else p.2 else xs
  let c := if keyNull ys && nullMode == 0 then {}
    else if keyNull ys && nullMode == 1 then u32Cell nullBucket
    else u32Cell (reduceTo (keyHash salt parts ys) n)
  (c, keyNull xs, nans)

/-- HASH_BUCKET (R180, R182). -/
def execHashBucket (k : Fin 16) (slot : Fin 4096) (rs : Rows) (s : State) : Host.Outcome State Fault Refusal :=
  .next (s.unitRun k.val slot.val 1 2 fun j s =>
    let key := takeCols (j.ps.drop 4)
    let f := fun i => hashBucketRow (j.p 0) (j.p 1) (j.p 2) (j.p 3) j.t.salt key.1 (s.keyCells j.k key.1 i)
    let live := (rowList rs).filter fun p => !j.absent s p
    some ((s.modQuern j.k fun q => { q with
      nullKeys := sat32 q.nullKeys (live.filter fun p => (f p.1).2.1).length
      nanInputs := sat32 q.nanInputs (live.map fun p => (f p.1).2.2).sum
      chunks := (q.chunks + (live.map fun p => keyChunks key.1 (s.keyCells j.k key.1 p.1)).sum) % 2 ^ 64 }).putRows j
        [parseCol (key.2.headD 0)] rs fun i => [(f i).1]))

/-- The rows of a table as a stage reads them: row number, void or not, key, payload (R111, R112, R188, R195, R201). -/
def TabView.stageRows (v : TabView) (key payload : List ColW) : Option (List (Nat × Bool × List Cell × List Cell)) :=
  (List.range v.rows).mapM fun r =>
    if v.rowVoid ((key ++ payload).map fun c => c.off) r != 0 then some (r, true, key.map fun _ => {}, payload.map fun _ => {})
    else (v.cellsOf key r).bind fun a => (v.cellsOf payload r).map fun b => (r, false, a, b)

/-- Bytes that a payload cell takes: fixed bytes and string bytes (R189); an MX element of 4 or 6 bits takes none (log entry
124). -/
def payloadBytes (cs : List ColW) (xs : List Cell) : Nat :=
  ((cs.zip xs).map fun p => if isVar p.1.ty then 4 + p.2.len p.1.ty * varBytes p.1.ty p.1.param else tyBits p.1.ty / 8).sum

/-- Length of an HBM area of the running variant; 0 without one. -/
def Graph.areaLen (g : Graph) (kind owner : Nat) : Nat := ((g.area kind owner).map fun a => a.len).getD 0

/-- JOIN_BUILD (R186 to R190): a table stage. A declared maximum exceeded, or an area too small, fails it with ST_LIMIT. -/
def execJoinBuild (k : Fin 16) (slot : Fin 4096) (e : BusEnv) (s : State) : Host.Outcome State Fault Refusal :=
  .next ((s.env e).unitRun k.val slot.val 1 3 fun j s =>
    let key := takeCols (j.ps.drop 4)
    let pay := (takeCols key.2).1
    if !s.tableReady j.r.stream (j.p 3) then none
    else
      let v := s.viewTable e j.g j.r.stream (j.p 3)
      let ps := v.pieces ((key.1 ++ pay).map fun c => c.off)
      let s0 := s.readPieces ps
      if s.poisonedIn ps then some (s0, stHeld)
      else match v.stageRows key.1 pay with
      | none => some (s0, stBusError)
      | some rows =>
        let c := j.g.cfg.clusters
        let place := placementOf (j.p 1) c
        let l := (s.logicalOf j.k).getD 0
        let hashOf := fun x : Nat × Bool × List Cell × List Cell => keyHash j.t.salt key.1 x.2.2.1
        let mine := rows.filter fun x => place == 0 || reduceTo (hashOf x) c == l
        let ok := fun x : Nat × Bool × List Cell × List Cell => !x.2.1 && !keyNull x.2.2.1
        let ins := rows.filter ok
        let insMine := mine.filter ok
        let bytes := fun xs : List (Nat × Bool × List Cell × List Cell) => (xs.map fun x => 32 + payloadBytes pay x.2.2.2).sum
        let dup := if j.p 2 == 1 then (insMine.filter fun x => ins.any fun y => decide (y.1 < x.1) && keySame key.1 y.2.2.1 x.2.2.1).length else 0
        let spillOf := fun i : Nat => if place == 1 then ceilDiv (bytes ((rows.filter fun x => ok x && reduceTo (hashOf x) c == i)) - 0x800000) 64 else 0
        let spill := spillOf l
        let before := ((List.range l).map spillOf).sum
        let s1 := s0.modQuern j.k fun q => { q with
          nullKeys := sat32 q.nullKeys (mine.filter fun x => !x.2.1 && keyNull x.2.2.1).length
          voidSkipped := sat32 q.voidSkipped (mine.filter fun x => x.2.1).length
          buildDup := sat32 q.buildDup dup
          spillBlocks := sat32 q.spillBlocks spill
          chunks := (q.chunks + (insMine.map fun x => keyChunks key.1 x.2.2.1).sum) % 2 ^ 64 }
        let full := decide (j.p 0 < ins.length) || decide (j.p 1 < bytes ins) ||
          (place == 2 && decide (j.g.areaLen 2 j.tpl < bytes ins)) || decide (j.g.areaLen 3 j.tpl < 64 * ((List.range c).map spillOf).sum)
        let first := fun x : Nat × Bool × List Cell × List Cell => !(ins.any fun y => decide (y.1 < x.1) && keySame key.1 y.2.2.1 x.2.2.1)
        let kept := if j.p 2 == 1 then ins.filter first else ins
        let was := (s.builtOf j.tpl).spilled
        if full then some (s1, stLimit)
        else some (((s1.useArea 3 j.tpl (64 * before) (64 * spill)).useArea 2 j.tpl 0 (if place == 2 then bytes ins else 0)).setBuilt j.tpl {
            rows := kept.map fun x => { row := x.1, hash := hashOf x, key := x.2.2.1, payload := x.2.2.2, time := 0 }
            spilled := withBit was j.k (spill != 0) }, 0))

/-- The build rows that match a probe key: none for a key with a null part (R174, R186). -/
def Built.hits (b : Built) (parts : List ColW) (xs : List Cell) : List BuildRow :=
  if keyNull xs then [] else b.rows.filter fun r => keySame parts r.key xs

/-- Counts the chunks and null keys of a probe (R177, R186, R194, R200); a row with a null key counts its chunks too (log entry
122). -/
def State.countProbe (s : State) (j : Job2) (parts : List ColW) (rs : Rows) (extra : Nat → Bool) : State :=
  let live := (rowList rs).filter fun p => !j.absent s p
  s.modQuern j.k fun q => { q with
    nullKeys := sat32 q.nullKeys (live.filter fun p => keyNull (s.keyCells j.k parts p.1) || extra p.1).length
    chunks := (q.chunks + (live.map fun p => keyChunks parts (s.keyCells j.k parts p.1)).sum) % 2 ^ 64 }

/-- The output rows of one probe row in table context (R184 to R186; log entry 52). -/
def joinOut (kind n : Nat) (key : List Cell) (payLen : Nat) (hits : List BuildRow) : List (List Cell) :=
  let wide := fun p : List Cell => if n ≤ payLen then p.take n else (key ++ p).take n
  match kind with
  | 0 => hits.map fun h => wide h.payload
  | 1 => if hits.isEmpty then [wide (List.replicate payLen {})] else hits.map fun h => wide h.payload
  | 2 => if hits.isEmpty then [] else [key.take n]
  | _ => if hits.isEmpty then [key.take n] else []

/-- The payload columns that a JOIN_BUILD template declares (R331). -/
def Graph.buildPayload (g : Graph) (tpl : Nat) : List ColW :=
  match g.tpl tpl with
  | some t => (takeCols (takeCols ((g.params t).drop 4)).2).1
  | none => []

/-- JOIN_PROBE (R184 to R187). -/
def execJoinProbe (k : Fin 16) (slot : Fin 4096) (rs : Rows) (s : State) : Host.Outcome State Fault Refusal :=
  .next (s.unitRun k.val slot.val 1 4 fun j s =>
    let key := takeCols (j.ps.drop 3)
    let outs := (takeCols key.2).1
    let b := s.builtOf (j.p 2)
    let hits := fun i => let h := b.hits key.1 (s.keyCells j.k key.1 i); if j.p 1 == 1 || !j.t.stage then h.take 1 else h
    let payLen := (j.g.buildPayload (j.p 2)).length
    let s1 := s.countProbe j key.1 rs fun _ => false
    if j.t.stage then
      some (s1.putStage j outs rs ((rowList rs).flatMap fun p =>
        if j.isVoid s p then [([], j.reason s p)]
        else (joinOut (j.p 0) outs.length (s.keyCells j.k key.1 p.1) payLen (hits p.1)).map fun r => (r, 0)))
    else
      some (s1.putRows j outs rs fun i =>
        let h := hits i
        let pay := (h.head?.map fun r => r.payload).getD []
        if 2 ≤ j.p 0 then
          (List.range (outs.length - 1)).map (fun c => pay.getD c {}) ++ [boolCell (if j.p 0 == 2 then !h.isEmpty else h.isEmpty)]
        else pay))

/-- The time of a cell of an integer type. -/
def timeOf (ty : Nat) (c : Cell) : Int := ((laneTy ty).map fun t => laneInt t c.bits).getD 0

/-- The first row whose key's run passes MAX_RUN (R195). -/
def overRun (parts : List ColW) (maxRun : Nat) (rows : List BuildRow) : Option BuildRow :=
  rows.find? fun r => decide (maxRun < (rows.filter fun x => decide (x.row ≤ r.row) && keySame parts x.key r.key).length)

/-- The index build that ASOF_INDEX and WINDOW_INDEX share (R194 to R196, R200, R201); `esize` is the index row size. -/
def State.buildIndex (s : State) (e : BusEnv) (j : Job2) (maxRun table : Nat) (key : List ColW) (tm : ColW) (pay : List ColW)
    (esize : Nat) : Option (State × Nat) :=
  if !s.tableReady j.r.stream table then none
  else
    let v := s.viewTable e j.g j.r.stream table
    let ps := v.pieces ((key ++ tm :: pay).map fun c => c.off)
    let s0 := s.readPieces ps
    if s.poisonedIn ps then some (s0, stHeld)
    else match v.stageRows key (tm :: pay) with
    | none => some (s0, stBusError)
    | some rows =>
      let bad := fun x : Nat × Bool × List Cell × List Cell => keyNull x.2.2.1 || !(x.2.2.2.headD {}).valid
      let ins := (rows.filter fun x => !x.2.1 && !bad x).map fun x =>
        ({ row := x.1, hash := keyHash j.t.salt key x.2.2.1, key := x.2.2.1, payload := x.2.2.2.drop 1, time := timeOf tm.ty (x.2.2.2.headD {}) } : BuildRow)
      let s1 := s0.modQuern j.k fun q => { q with
        nullKeys := sat32 q.nullKeys (rows.filter fun x => !x.2.1 && bad x).length
        voidSkipped := sat32 q.voidSkipped (rows.filter fun x => x.2.1).length
        chunks := (q.chunks + (ins.map fun x => keyChunks key x.key).sum) % 2 ^ 64 }
      match overRun key maxRun ins with
      | some r => some (s1.modQuern j.k fun q => { q with limitHit := true, limitKey := r.hash }, stLimit)
      | none =>
        if j.g.areaLen 4 j.tpl < ins.length * esize then some (s1, stLimit)
        else some ((s1.useArea 4 j.tpl 0 (ins.length * esize)).setBuilt j.tpl { rows := ins }, 0)

/-- ASOF_INDEX (R194 to R196). -/
def execAsofIndex (k : Fin 16) (slot : Fin 4096) (e : BusEnv) (s : State) : Host.Outcome State Fault Refusal :=
  .next ((s.env e).unitRun k.val slot.val 1 5 fun j s =>
    let key := takeCols (j.ps.drop 2)
    s.buildIndex e j (j.p 0) (j.p 1) key.1 (parseCol (key.2.headD 0)) (takeCols (key.2.drop 1)).1 16)

/-- The as-of match of a probe and whether its time is shared (R191, R192). -/
def asofMatch (strict : Bool) (tol : Nat) (hits : List BuildRow) (t : Int) : Option BuildRow × Bool :=
  let cand := hits.filter fun r => if strict then decide (r.time < t) else decide (r.time ≤ t)
  let best := cand.foldl (fun (m : Option BuildRow) r => match m with
    | none => some r
    | some x => if x.time < r.time || (x.time == r.time && decide (x.row < r.row)) then some r else some x) none
  match best with
  | none => (none, false)
  | some r =>
    if tol != 0xFFFFFFFFFFFFFFFF && decide ((tol : Int) < t - r.time) then (none, false)
    else (some r, decide (1 < (cand.filter fun x => x.time == r.time).length))

/-- ASOF_PROBE (R191 to R194). -/
def execAsofProbe (k : Fin 16) (slot : Fin 4096) (rs : Rows) (s : State) : Host.Outcome State Fault Refusal :=
  .next (s.unitRun k.val slot.val 1 6 fun j s =>
    let key := takeCols (j.ps.drop 4)
    let tm := parseCol (key.2.headD 0)
    let outs := (takeCols (key.2.drop 1)).1
    let fl := j.p 2
    let b := s.builtOf (j.p 3)
    let n := outs.length - b2n (bitOf fl 0) - b2n (bitOf fl 1)
    let tOf := fun i => s.slotCell j.k tm i
    let m := fun i => if (tOf i).valid then asofMatch (j.p 0 == 1) (j.p 1) (b.hits key.1 (s.keyCells j.k key.1 i)) (timeOf tm.ty (tOf i)) else (none, false)
    let live := (rowList rs).filter fun p => !j.absent s p
    let row := fun i =>
      let r := (m i).1
      (List.range n).map (fun c => (r.bind fun x => x.payload[c]?).getD {}) ++
        (if bitOf fl 0 then [(r.map fun x => ({ valid := true, bits := wrapN 64 (timeOf tm.ty (tOf i) - x.time) } : Cell)).getD {}] else []) ++
        (if bitOf fl 1 then [boolCell r.isSome] else [])
    let s1 := (s.countProbe j key.1 rs fun i => !(tOf i).valid).modQuern j.k fun q => { q with
      asofNomatch := sat32 q.asofNomatch (live.filter fun p => (m p.1).1.isNone).length
      asofTies := sat32 q.asofTies (live.filter fun p => (m p.1).2).length }
    if j.t.stage then
      some (s1.putStage j outs rs (((rowList rs).filter fun p => j.isVoid s p || !bitOf fl 2 || (m p.1).1.isSome).map fun p => (row p.1, j.reason s p)))
    else some (s1.putRows j outs rs row))

/-- Bytes of a window index row (R196): 16, 16 for each column with a SUM or MEAN, 8 for each MIN, MAX or LAST of a column (DEDUCED, log
entry 90). -/
def indexRowBytes (aggs : List AggW) : Nat :=
  let sums := ((aggs.filter fun a => a.code == 2 || a.code == 3).map fun a => a.col).eraseDups
  let picks := ((aggs.filter fun a => decide (4 ≤ a.code) && decide (a.code ≤ 6)).map fun a => (a.code, a.col)).eraseDups
  16 + 16 * sums.length + 8 * picks.length

/-- WINDOW_INDEX (R196, R200, R201). -/
def execWindowIndex (k : Fin 16) (slot : Fin 4096) (e : BusEnv) (s : State) : Host.Outcome State Fault Refusal :=
  .next ((s.env e).unitRun k.val slot.val 1 7 fun j s =>
    let key := takeCols (j.ps.drop 2)
    let vals := takeCols (key.2.drop 1)
    let aggs := (takeList vals.2).1.map parseAgg
    s.buildIndex e j (j.p 0) (j.p 1) key.1 (parseCol (key.2.headD 0)) vals.1 (indexRowBytes aggs))

/-- The value columns that a WINDOW_INDEX template declares. -/
def Graph.indexVals (g : Graph) (tpl : Nat) : List ColW :=
  match g.tpl tpl with
  | some t => (takeCols ((takeCols ((g.params t).drop 2)).2.drop 1)).1
  | none => []

/-- The aggregates of one probe over its windows, window-major, with the range errors (R197 to R199). -/
def windowRow (excl : Bool) (widths : List Nat) (aggs : List AggW) (vals : List ColW) (hits : List BuildRow) (t : Int) : List (Cell × Bool) :=
  let upto := hits.filter fun r => if excl then decide (r.time < t) else decide (r.time ≤ t)
  widths.flatMap fun w =>
    let win := upto.filter fun r => decide (t - (w : Int) < r.time)
    aggs.map fun a =>
      let c := vals.getD a.col (parseCol 0)
      let pick := fun l : List BuildRow => l.map fun r => ((r.row, r.time, r.payload.getD a.col {}) : Nat × Int × Cell)
      aggregate a.code c.ty c.param (magSum c.ty ((pick upto).filter fun p => p.2.2.valid)) (pick win)

/-- WINDOW_PROBE (R197 to R201). -/
def execWindowProbe (k : Fin 16) (slot : Fin 4096) (rs : Rows) (s : State) : Host.Outcome State Fault Refusal :=
  .next (s.unitRun k.val slot.val 1 8 fun j s =>
    let key := takeCols (j.ps.drop 2)
    let tm := parseCol (key.2.headD 0)
    let ws := takeList (key.2.drop 1)
    let ag := takeList ws.2
    let outs := (takeCols ag.2).1
    let aggs := ag.1.map parseAgg
    let b := s.builtOf (j.p 1)
    let vals := j.g.indexVals (j.p 1)
    let tOf := fun i => s.slotCell j.k tm i
    let miss := fun i => !(tOf i).valid || keyNull (s.keyCells j.k key.1 i)
    let res := fun i => if miss i then [] else windowRow (j.p 0 == 1) ws.1 aggs vals (b.hits key.1 (s.keyCells j.k key.1 i)) (timeOf tm.ty (tOf i))
    let live := (rowList rs).filter fun p => !j.absent s p
    let s1 := (s.countProbe j key.1 rs fun i => !(tOf i).valid).modQuern j.k fun q => { q with
      rangeErr := sat32 q.rangeErr (live.map fun p => ((res p.1).filter fun x => x.2).length).sum }
    some (s1.putRows j outs rs fun i => (res i).map fun x => x.1))

/-- A row of a group-by: row number, key, values. -/
abbrev GRow := Nat × List Cell × List Cell

/-- The groups of a list of rows, each with its rows in their order (R202). -/
def groupsOf (parts : List ColW) (rows : List GRow) : List (List Cell × List GRow) :=
  rows.foldl (fun gs r =>
    if gs.any fun g => keySame parts g.1 r.2.1 then gs.map fun g => if keySame parts g.1 r.2.1 then (g.1, g.2 ++ [r]) else g
    else gs ++ [(r.2.1, [r])]) []

/-- One aggregate of a group, whose rows come as the runs of the cores' partials (R198, R203, R209, R211). A K of 0 stands for 65,536, which
its field cannot hold. -/
def groupAgg (salt : Nat) (vals : List ColW) (a : AggW) (runs : List (List GRow)) : Cell × Bool :=
  let c := vals.getD a.col (parseCol 0)
  let cells := runs.map fun l => l.map fun r => r.2.2.getD a.col {}
  let vs : Vals := (sortBy (fun x y : GRow => decide (x.1 ≤ y.1)) runs.flatten).map fun r => (r.1, (r.1 : Int), r.2.2.getD a.col {})
  match a.code with
  | 8 =>
    let xs := cells.map fun l => (l.filter Cell.valid).map fun x => ((laneTy c.ty).map fun t => value64 t c.param x.bits).getD 0
    if xs.all List.isEmpty then ({}, false) else ({ valid := true, bits := varPop xs }, false)
  | 9 =>
    let m := (vs.filter fun p => p.2.2.valid).foldl (fun m p => hllAdd m (keyHash salt [c] [p.2.2]) a.arg) []
    ({ valid := true, bits := hllEstimate m a.arg }, false)
  | 10 => ((fillSketch (if a.arg == 0 then 65536 else a.arg) c cells).cellAt c (ratOf (fp32.decode a.q)), false)
  | _ => aggregate a.code c.ty c.param (magSum c.ty (vs.filter fun p => p.2.2.valid)) vs

/-- The row number at which the groups outgrow 16 MiB (R204; log entry 56). -/
def spillAt (parts : List ColW) (naggs : Nat) (rows : List GRow) : Option Nat :=
  let w := groupBytes parts naggs
  (List.range rows.length).find? fun i => decide (0x1000000 < (groupsOf parts (rows.take (i + 1))).length * w)

/-- 64 KiB blocks written when the rows from `i` on are partitioned 256 ways at spill level 1 (R178, R204). -/
def spillBlocks (salt : Nat) (parts vals : List ColW) (rows : List GRow) : Nat :=
  ((List.range 256).map fun p =>
    let mine := rows.filter fun r => partitionOf (keyHash (spillSalt salt 1) parts r.2.1) 8 == p
    ceilDiv ((mine.map fun r => payloadBytes (parts ++ vals) (r.2.1 ++ r.2.2)).sum) 0x10000).sum

/-- What a GROUP_BY declares: key, values, aggregates, outputs. -/
structure GroupDecl where
  key  : List ColW
  vals : List ColW
  aggs : List AggW
  outs : List ColW
  deriving DecidableEq, Repr

def Job2.groupDecl (j : Job2) : GroupDecl :=
  let key := takeCols (j.ps.drop 2)
  let vals := takeCols key.2
  let ag := takeList vals.2
  { key := key.1, vals := vals.1, aggs := ag.1.map parseAgg, outs := (takeCols ag.2).1 }

/-- The 64 KiB blocks that cluster `k` spills of the rows that its tasks have brought, in the order in which they came (R204). -/
def Job2.clusterBlocks (j : Job2) (ps : List InPart) (k : Nat) : Nat :=
  let d := j.groupDecl
  let rows := (ps.filter fun p => p.k == k).flatMap fun p => p.rows
  ((spillAt d.key d.aggs.length rows).map fun i => spillBlocks j.t.salt d.key d.vals (rows.drop i)).getD 0

/-- A group-by has ended: its spill space is free again. -/
def State.spillEnds (s : State) (j : Job2) : State :=
  match j.r.batch with
  | some b => s.modBatch j.r.stream b fun x => { x with shares := x.shares.map fun q => if q.1 == j.tpl then (q.1, { q.2 with spill := 0 }) else q }
  | none => s.setBuilt j.tpl { s.builtOf j.tpl with ins := (s.builtOf j.tpl).ins.map fun p => { p with spill := 0 } }

/-- Counts the rows that one task brings to a group-by: void rows, NaNs of its rank sketches, spilled blocks, chunks (R203, R204, R209). -/
def State.countGroups (s : State) (j : Job2) (d : GroupDecl) (voids blocks : Nat) (rows : List GRow) : State :=
  let nans := (d.aggs.filter fun a => a.code == 10).map fun a =>
    (rows.filter fun r => cellNan (d.vals.getD a.col (parseCol 0)).ty (r.2.2.getD a.col {})).length
  s.modQuern j.k fun q => { q with
    voidSkipped := sat32 q.voidSkipped voids
    nanInputs := sat32 q.nanInputs nans.sum
    spillBlocks := sat32 q.spillBlocks blocks
    chunks := (q.chunks + (rows.map fun r => keyChunks d.key r.2.1).sum) % 2 ^ 64 }

/-- The groups of all rows that the tasks of a group-by have brought, with their aggregates (R202, R203). -/
def groupResults (salt : Nat) (d : GroupDecl) (ps : List InPart) : List (List Cell × List (Cell × Bool)) :=
  let runs := coreRuns ps
  (groupsOf d.key runs.flatten).map fun g =>
    (g.1, d.aggs.map fun a => groupAgg salt d.vals a (runs.map fun l => l.filter fun r => keySame d.key r.2.1 g.1))

/-- The BROADCAST form (R205): each task's rows get the aggregates of their group in the batch, and each task's work ends. -/
def State.broadcast (s : State) (j : Job2) (d : GroupDecl) (gs : List (List Cell × List (Cell × Bool))) (ps : List InPart) : State :=
  ps.foldl (fun t p =>
    let rows := (List.range p.count).map fun i => match p.rows.find? fun r => r.1 == p.first + i with
      | some r => ((gs.find? fun g => keySame d.key g.1 r.2.1).map fun g => g.2.map fun x => x.1).getD []
      | none => []
    (t.putOuts { j with k := p.k, slot := p.slot } d.outs { first := p.first, count := p.count, per := 1 } rows).unitEnd p.k p.slot 0) s

/-- GROUP_BY (R202 to R205): each task brings its rows, split over its cores' partials; the last of them merges what all have
brought, and writes one row per group, or to the rows of all tasks in the BROADCAST form (log entry 91). -/
def execGroupBy (k : Fin 16) (slot : Fin 4096) (rs : SplitRows) (s : State) : Host.Outcome State Fault Refusal :=
  .next (match s.unitJob k.val slot.val 1 9 with
    | none => s
    | some j =>
      let d := j.groupDecl
      let live := (rowList rs.rows).filter fun p => !j.absent s p
      let rows : List GRow := live.map fun p => (p.2, s.keyCells j.k d.key p.1, s.keyCells j.k d.vals p.1)
      let part : InPart := { place := j.r.place, k := j.k, slot := j.slot, first := rs.rows.first, count := rs.rows.count, parts := rs.parts, rows := rows }
      let prior := (s.broughtTo j).filter fun p => p.place != j.r.place
      let total := fun ps : List InPart => ((List.range 16).map fun c => j.clusterBlocks ps c).sum
      let blocks := j.clusterBlocks (prior ++ [part]) j.k - j.clusterBlocks prior j.k
      if (s.partsOf j).any fun p => p.place == j.r.place && p.slot == j.slot && j.p 1 == 1 then s
      else
        let s1 := (((s.countGroups j d ((rowList rs.rows).filter fun p => j.isVoid s p).length blocks rows).useArea 5 j.tpl
          (0x10000 * total prior) (0x10000 * blocks)).putPart j { part with spill := blocks })
        let ps := s1.partsOf j
        let fails := j.t.stage && decide (j.g.areaLen 5 j.tpl < 0x10000 * (total prior + blocks))
        let ends := fun (t : State) => ps.foldl (fun u p => u.unitEnd p.k p.slot stLimit) (t.spillEnds j)
        if fails then (if j.p 1 == 0 then (s1.spillEnds j).unitEnd j.k j.slot stLimit else ends s1)
        else if ps.length < (j.g.tplPlaces j.tpl).length then (if j.p 1 == 0 then s1.unitEnd j.k j.slot 0 else s1)
        else
          let gs := groupResults j.t.salt d ps
          let s2 := s1.modQuern j.k fun q => { q with rangeErr := sat32 q.rangeErr (gs.map fun g => (g.2.filter fun x => x.2).length).sum }
          if j.p 0 < gs.length then (if j.p 1 == 0 then (s2.spillEnds j).unitEnd j.k j.slot stLimit else ends s2)
          else if j.p 1 == 0 then
            let ordered := sortBy (fun a b : List Cell × List (Cell × Bool) => decide (cmpKeys d.key a.1 b.1 ≤ 0)) gs
            let r := s2.putWhole j d.outs rs.rows (ordered.map fun g => g.1 ++ g.2.map fun x => x.1)
            (r.1.spillEnds j).unitEnd j.k j.slot r.2
          else (s2.broadcast j d gs ps).spillEnds j)

/-- Brings one task's part to a sketch; the last task writes what `out` makes of all parts, and `keep` stays with the stage (R208, R209,
R211). -/
def State.shareSketch (s : State) (j : Job2) (rs : Rows) (p : InPart) (outs : List ColW) (out : List InPart → List (List Cell))
    (keep : List InPart → Built → Built) : State × Nat :=
  let s1 := s.putPart j p
  let ps := s1.partsOf j
  if ps.length < (j.g.tplPlaces j.tpl).length then (s1, 0)
  else
    let r := s1.putWhole j outs rs (out ps)
    (r.1.setBuilt j.tpl (keep ps (r.1.builtOf j.tpl)), r.2)

/-- Whether a value is finite. -/
def cellFinite (ty : Nat) (x : Cell) : Bool :=
  match laneTy ty with
  | some ⟨_, .flt f⟩ => (match f.decode x.bits with | .fin _ _ _ => true | _ => false)
  | _ => true

/-- FIT parameters of the present, finite values of a column (R208), each rounded once to binary64 (DEDUCED, log entry 96); all 0 without a
value. -/
def fitOf (c : ColW) (xs : List Cell) : Fit :=
  let vs := xs.map fun x => ratOf (fp64.decode (((laneTy c.ty).map fun t => value64 t c.param x.bits).getD 0))
  let n : Rat := vs.length
  let mean := vs.sum / n
  let var := (vs.map fun v => (v - mean) * (v - mean)).sum / n
  if vs.isEmpty then { mu := 0, sigma := 0, lo := 0, hi := 0 }
  else { mu := fp64Of mean, sigma := (fp64.encode 0 (fSqrt (.fin false var.num.natAbs var.den)).1).1
         lo := fp64Of (vs.foldl min (vs.headD 0)), hi := fp64Of (vs.foldl max (vs.headD 0)) }

/-- RANK_SKETCH (R209): `parts` are the rows that each core's partial takes. Under the FIT rules (R208) only finite values are inserted, and
the merged sketch stays with the stage. -/
def execRankSketch (k : Fin 16) (slot : Fin 4096) (rs : Rows) (parts : List Nat) (s : State) : Host.Outcome State Fault Refusal :=
  .next (s.unitRun k.val slot.val 1 10 fun j s =>
    let c := parseCol (j.p 1)
    let qs := takeList (j.ps.drop 2)
    let fit := j.g.decls.fits.contains j.tpl
    let rows := (rowList rs).map fun p => (p.2, ([] : List Cell), [if j.absent s p then ({} : Cell) else s.slotCell j.k c p.1])
    let s1 := s.modQuern j.k fun q => { q with nanInputs := sat32 q.nanInputs (rows.filter fun r => r.2.2.any (cellNan c.ty)).length }
    let runs := fun ps : List InPart => (coreRuns ps).map fun l => (l.flatMap fun r => r.2.2).filter fun x => x.valid && (!fit || cellFinite c.ty x)
    let knots := fun ps : List InPart =>
      let sk := fillSketch (j.p 0) c (runs ps)
      qs.1.map fun q => let x := sk.cellAt c (ratOf (fp64.decode q)); if fit && !x.valid then { valid := true, bits := 0 } else x
    some (s1.shareSketch j rs { place := j.r.place, k := j.k, slot := j.slot, first := rs.first, count := rs.count, parts := parts, rows := rows }
      [parseCol (qs.2.headD 0)] (fun ps => (knots ps).map fun x => [x]) fun ps b => { b with
        fit := if fit then some (fitOf c (runs ps).flatten) else none
        sketch := if fit then some (j.p 1, fillSketch (j.p 0) c (runs ps)) else none }))

/-- APPROX_DISTINCT (R211): register sets merge by their maximum, so that the keys of all tasks may be added to one. -/
def execApproxDistinct (k : Fin 16) (slot : Fin 4096) (rs : Rows) (s : State) : Host.Outcome State Fault Refusal :=
  .next (s.unitRun k.val slot.val 1 11 fun j s =>
    let key := takeCols (j.ps.drop 1)
    let live := ((rowList rs).filter fun p => !j.absent s p).map fun p => (p.2, s.keyCells j.k key.1 p.1, ([] : List Cell))
    let ins := live.filter fun r => !keyNull r.2.1
    let s1 := s.modQuern j.k fun q => { q with chunks := (q.chunks + (ins.map fun r => keyChunks key.1 r.2.1).sum) % 2 ^ 64 }
    some (s1.shareSketch j rs { place := j.r.place, k := j.k, slot := j.slot, first := rs.first, count := rs.count, rows := ins }
      [parseCol (key.2.headD 0)] (fun ps =>
        let m := (ps.flatMap fun p => p.rows).foldl (fun m r => hllAdd m (keyHash j.t.salt key.1 r.2.1) (j.p 0)) []
        [[{ valid := true, bits := hllEstimate m (j.p 0) }]]) fun _ b => b))

/-- FEATURE_CROSS (R212). -/
def execFeatureCross (k : Fin 16) (slot : Fin 4096) (rs : Rows) (s : State) : Host.Outcome State Fault Refusal :=
  .next (s.unitRun k.val slot.val 1 12 fun j s =>
    let key := takeCols (j.ps.drop 2)
    let cells := fun i => s.keyCells j.k key.1 i
    let null := fun i => j.p 1 == 0 && keyNull (cells i)
    let live := (rowList rs).filter fun p => !j.absent s p
    some ((s.modQuern j.k fun q => { q with
      nullKeys := sat32 q.nullKeys (live.filter fun p => null p.1).length
      chunks := (q.chunks + ((live.filter fun p => !null p.1).map fun p => keyChunks key.1 (cells p.1)).sum) % 2 ^ 64 }).putRows j
        [parseCol (key.2.headD 0)] rs fun i => [if null i then {} else u32Cell (reduceTo (keyHash j.t.salt key.1 (cells i)) (j.p 0))]))

end Sys2Proof.Machine
end

