-- ==== Sys2Proof/Machine/Select.lean ====
section
/-! DEFINITION. Sorrel (chapter 07): eligibility, compaction, top-k and the merge of partial lists. -/

namespace Sys2Proof.Machine

/-- An eligible entry: fold, input position, value bits and identity (0: none) (R226, R230, R235). -/
structure Entry where
  fold  : Nat
  pos   : Nat
  bits  : Nat
  ident : Nat
  deriving DecidableEq, Repr

/-- The threshold of a selection (R227): the condition code and the value's bits, or none. -/
structure Thresh where
  cond : Nat
  bits : Option Nat
  deriving DecidableEq, Repr

/-- Whether an entry passes the threshold: folds are compared; nothing passes a NaN (R227). -/
def Thresh.pass (th : Option Thresh) (ty : Nat) (bits : Nat) : Bool :=
  match th with
  | none => true
  | some t =>
    match t.bits, laneTy ty with
    | some x, some lt =>
      let v := (foldKey lt bits).getD 0
      let w := (foldKey lt (x % 2 ^ (8 * lt.size))).getD 0
      !cellNan ty { valid := true, bits := x % 2 ^ (8 * lt.size) } &&
        match t.cond with
        | 0 => decide (w < v)
        | 1 => decide (w ≤ v)
        | 2 => decide (v < w)
        | 3 => decide (v ≤ w)
        | _ => v == w
    | _, _ => false

/-- Whether the threshold is a NaN (FLAGS.THRESH_NAN). -/
def Thresh.isNan (th : Option Thresh) (ty : Nat) : Bool :=
  th.any fun t => t.bits.any fun x => cellNan ty { valid := true, bits := x % 2 ^ tyBits ty }

/-- The threshold that a THRESH_SRC and THRESH word pair gives: none, a constant, or lane 0 of a scalar column (R227, R331). -/
def State.thresh (s : State) (k cond src w : Nat) : Option Thresh :=
  match src with
  | 0 => none
  | 1 => some { cond := cond, bits := some w }
  | _ => let c := s.slotCell k (parseCol w) 0; some { cond := cond, bits := if c.valid then some c.bits else none }

/-- How a row stands in a selection: it takes part, it is void, or it is masked out (R226). -/
inductive RowKind where
  | live
  | void_
  | masked
  deriving DecidableEq, Repr

/-- One input position of a selection: position, how its row stands, its cell, its identity. -/
abbrev SelIn := Nat × RowKind × Cell × Nat

/-- The eligible entries of an input, in position order (R226); the TABLE_ID of an identity must not be 0 (R235). -/
def eligible (ty : Nat) (th : Option Thresh) (xs : List SelIn) : List Entry :=
  (xs.filter fun x => decide (x.2.1 = .live) && x.2.2.1.valid && !cellNan ty x.2.2.1 && Thresh.pass th ty x.2.2.1.bits).map fun x =>
    { fold := ((laneTy ty).bind fun t => foldKey t x.2.2.1.bits).getD 0, pos := x.1, bits := x.2.2.1.bits
      ident := if bitsOf x.2.2.2 51 40 == 0 then 0 else x.2.2.2 }

/-- NaN entries of rows that are not void, masked out or not (R226). -/
def nanEntries (ty : Nat) (xs : List SelIn) : Nat := (xs.filter fun x => decide (x.2.1 ≠ .void_) && cellNan ty x.2.2.1).length

/-- Removes every later instance of an identity; answers what is left, the discards, and those whose fold differs (R236 to R238). -/
def dedup (es : List Entry) : List Entry × Nat × Nat :=
  es.foldl (fun a x =>
    match a.1.find? fun y => x.ident != 0 && y.ident == x.ident with
    | some y => (a.1, a.2.1 + 1, a.2.2 + b2n (y.fold != x.fold))
    | none => (a.1 ++ [x], a.2)) ([], 0, 0)

/-- Rank order (R230): by fold, then by position. -/
def rankLe (largest : Bool) (a b : Entry) : Bool :=
  if a.fold == b.fold then decide (a.pos ≤ b.pos) else if largest then decide (b.fold < a.fold) else decide (a.fold < b.fold)

/-- What a selection writes (R234). -/
structure Selection where
  taken    : List Entry
  eligible : Nat
  ties     : Nat
  nans     : Nat
  /-- Instances discarded: all of them, and those that the merge discards (R237). -/
  merged   : Nat
  across   : Nat
  mismatch : Nat
  threshNan : Bool
  deriving DecidableEq, Repr

/-- TOPK over partial lists (R230 to R233, R236, R237): the result of the ranking rule, which the radix procedure computes. -/
def topk (kk : Nat) (largest : Bool) (ty : Nat) (th : Option Thresh) (runs : List (List SelIn)) : Selection :=
  let cores := runs.map fun c => dedup (eligible ty th c)
  let lists := cores.map fun c => (sortBy (rankLe largest) c.1).take kk
  let inPos := sortBy (fun a b : Entry => decide (a.pos ≤ b.pos)) lists.flatten
  let m := dedup inPos
  let rank := sortBy (rankLe largest) m.1
  let taken := rank.take kk
  let all := cores.flatMap fun c => c.1
  let ties := match taken.getLast? with
    | some l => if taken.length == kk then (all.filter fun x => x.fold == l.fold && !taken.contains x && !(m.1.any fun y => x.ident != 0 && y.ident == x.ident && y.pos != x.pos)).length else 0
    | none => 0
  { taken := taken, eligible := all.length - m.2.1, ties := ties, nans := nanEntries ty runs.flatten
    merged := (cores.map fun c => c.2.1).sum + m.2.1, across := m.2.1, mismatch := (cores.map fun c => c.2.2).sum + m.2.2, threshNan := Thresh.isNan th ty }

/-- The bytes of a result region (R234): header, index array, value array, identity array, with capacity `cap`. -/
def Selection.bytes (x : Selection) (cap vsize fill : Nat) (ident top : Bool) : Bytes :=
  let n := x.taken.length
  let pad := fun bs : Bytes => bs ++ List.replicate (alignUp 64 bs.length - bs.length) 0#8
  let flags := b2n (x.ties != 0) + (if top && decide (n < cap) then 2 else 0) + (if x.threshNan then 4 else 0) + (if x.merged != 0 then 8 else 0)
  let head := leBytes 4 n ++ leBytes 4 (min 0xFFFFFFFF x.eligible) ++ leBytes 4 x.ties ++ leBytes 4 x.nans ++ leBytes 4 x.merged ++ leBytes 4 flags
  let idx := (x.taken.flatMap fun e => leBytes 4 e.pos) ++ List.replicate (4 * (cap - n)) 0xFF#8
  let vals := (x.taken.flatMap fun e => leBytes vsize e.bits) ++ (List.replicate (cap - n) (leBytes vsize fill)).flatten
  let ids := (x.taken.flatMap fun e => leBytes 8 e.ident) ++ List.replicate (8 * (cap - n)) 0#8
  pad head ++ pad idx ++ pad vals ++ (if ident then pad ids else [])

/-- Counts a result in Sorrel's registers. -/
def Sorrel.count (q : Sorrel) (x : Selection) (cap : Nat) (top : Bool) : Sorrel :=
  { q with nanSeen := sat32 q.nanSeen x.nans, dupMerged := sat32 q.dupMerged x.across, dupMismatch := sat32 q.dupMismatch x.mismatch
           tieAtK := sat32 q.tieAtK (b2n (x.ties != 0)), short := sat32 q.short (b2n (top && decide (x.taken.length < cap)))
           selections := (q.selections + 1) % 2 ^ 64 }

/-- The row id of an identity cell. -/
def identOf (x : Cell) : Nat := if x.valid then x.bits else 0

/-- How a row of a task stands in a selection, as cells: none for a void row, two for a masked one. -/
def Job2.standing (j : Job2) (s : State) (p : Nat × Nat) : List Cell := if j.isVoid s p then [] else if j.masked s p then [{}, {}] else [{}]

/-- What one task brings to a selection over a slot column, and the input positions again: row slot, how the row stands, value and
identity (R236). -/
def State.selPart (s : State) (j : Job2) (c ident : ColW) (hasId : Bool) (rs : Rows) (parts : List Nat) : InPart :=
  { place := j.r.place, k := j.k, slot := j.slot, first := rs.first, count := rs.count, parts := parts
    rows := (rowList rs).map fun p => (p.2, j.standing s p, [s.slotCell j.k c p.1, if hasId then s.slotCell j.k ident p.1 else {}]) }
def selIns (l : List (Nat × List Cell × List Cell)) : List SelIn :=
  l.map fun r => (r.1, match r.2.1 with | [] => .void_ | [_] => .live | _ => .masked, r.2.2.headD {}, identOf (r.2.2.getD 1 {}))

/-- Writes a result at its result column and counts it (R234). -/
def State.putSelection (s : State) (j : Job2) (res : ColW) (off : Nat) (x : Selection) (cap vsize fill : Nat) (ident top : Bool) : State :=
  (s.putRegion j.k res.slot (res.off + off) (x.bytes cap vsize fill ident top)).modSorrel j.k fun q => q.count x cap top

/-- A selection that all tasks of its template share (R236): each brings its input positions; the last of them merges the partial lists, the
result reaches the result column of every task, and the tasks end (log entry 91). Sorrel of the last task's cluster counts it. -/
def State.shareSelection (s : State) (j : Job2) (p : InPart) (res : ColW) (out : List InPart → Selection × Bytes × Bool × Nat) : State :=
  if (s.partsOf j).any fun q => q.place == p.place && q.slot == p.slot then s
  else
    let s1 := s.putPart j p
    let ps := s1.partsOf j
    if ps.length < (j.g.tplPlaces j.tpl).length then s1
    else
      let o := out ps
      (ps.foldl (fun t q => (t.putRegion q.k res.slot res.off o.2.1).unitEnd q.k q.slot 0) s1).modSorrel j.k fun q => q.count o.1 o.2.2.2 o.2.2.1

/-- COMPACT of an input (R228, R236, R237, R239): the eligible entries in input order; a table-context filter keeps void rows (R168) and does
not deduplicate. -/
def compactOf (ty : Nat) (pred : Bool) (th : Option Thresh) (stage : Bool) (xs : List SelIn) : Selection :=
  let es := if pred then (xs.filter fun x => decide (x.2.1 = .live) && x.2.2.1.valid && x.2.2.1.bits != 0).map fun x =>
      ({ fold := x.2.2.1.bits, pos := x.1, bits := x.2.2.1.bits, ident := if bitsOf x.2.2.2 51 40 == 0 then 0 else x.2.2.2 } : Entry)
    else eligible ty th xs
  let kept := if stage then es ++ (xs.filter fun x => decide (x.2.1 = .void_)).map (fun x => ({ fold := 0, pos := x.1, bits := 0, ident := 0 } : Entry)) else es
  let d := if stage then (sortBy (fun a b : Entry => decide (a.pos ≤ b.pos)) kept, 0, 0) else dedup kept
  { taken := d.1, eligible := d.1.length, ties := 0, nans := if pred then 0 else nanEntries ty xs
    merged := d.2.1, across := d.2.1, mismatch := d.2.2, threshNan := !pred && Thresh.isNan th ty }

/-- COMPACT (R167 to R170, R226 to R228, R234 to R239): the capacity is the batch's row count, in a table stage the rows that the tasks bring. -/
def execCompact (k : Fin 16) (slot : Fin 4096) (rs : Rows) (s : State) : Host.Outcome State Fault Refusal :=
  .next (match s.unitJob k.val slot.val 2 1 with
    | none => s
    | some j =>
      let c := parseCol (j.p 4)
      let hasId := j.p 5 != 0
      s.shareSelection j (s.selPart j c (parseCol (j.p 5)) hasId rs []) (parseCol (j.p 6)) fun ps =>
        let cap := if j.r.batch.isSome then j.g.batchRows j.r.stream else (ps.map fun p => p.count).sum
        let x := compactOf c.ty (j.p 0 == 1) (s.thresh j.k (j.p 1) (j.p 2) (j.p 3)) j.t.stage (selIns ((coreRuns ps).flatten))
        (x, x.bytes cap (tyBits c.ty / 8) 0 hasId false, false, cap))

/-- TOPK in ROW scope: one result per row over its LIST elements, whose identities are the elements of the identity column (R229). A void row's
result is SHORT (R231). -/
def State.topkRows (s : State) (j : Job2) (th : Option Thresh) (c ident res : ColW) (hasId : Bool) (rs : Rows) : State :=
  let cap := j.p 0
  let vsize := tyBits c.param / 8
  let size := 64 + alignUp 64 (4 * cap) + alignUp 64 (vsize * cap) + if hasId then alignUp 64 (8 * cap) else 0
  (rowList rs).foldl (fun t p =>
    let x := s.slotCell j.k c p.1
    let ids := if hasId then (s.slotCell j.k ident p.1).elems else []
    let xs : List SelIn := if j.isVoid s p || !x.valid then [] else (x.elems.zipIdx).map fun q =>
      (q.2, if j.masked s p then .masked else .live, { valid := true, bits := q.1 }, ids.getD q.2 0)
    t.putSelection j res (size * p.1) (topk cap (j.p 1 == 0) c.param th [xs]) cap vsize (j.p 6) hasId true) s

/-- TOPK in TABLE scope: what a task brings of its range of the table's rows, or the status with which the stage fails (R166, R229, R236). -/
def TabView.selTable (v : TabView) (c ident : ColW) (hasId : Bool) (rs : Rows) : Nat × List (Nat × List Cell × List Cell) :=
  if v.rows == 0 || decide (0xFFFFFFFF < v.rows) then (stLimit, [])
  else match (((List.range rs.count).map (rs.first + ·)).filter fun r => decide (r < v.rows)).mapM fun r => (v.colCell c r).bind fun x =>
      (if hasId then v.colCell ident r else some {}).map fun y =>
        (r, if v.rowVoid (c.off :: if hasId then [ident.off] else []) r != 0 then [] else [({} : Cell)], [x, y]) with
  | none => (stBusError, [])
  | some xs => (0, xs)

/-- TOPK (R226, R227, R229 to R239): `parts` are the input positions of each core of the task. In TABLE scope the rows of the task are a range of
the table's, and all tasks of the template share one result (R229, R236). -/
def execTopk (k : Fin 16) (slot : Fin 4096) (rs : Rows) (parts : List Nat) (e : BusEnv) (s : State) : Host.Outcome State Fault Refusal :=
  let s := s.env e
  .next (match s.unitJob k.val slot.val 2 2 with
    | none => s
    | some j =>
      let c := parseCol (j.p 8)
      let id := parseCol (j.p 9)
      let res := parseCol (j.p 10)
      let th := s.thresh j.k (j.p 3) (j.p 4) (j.p 5)
      let hasId := j.p 9 != 0
      let top := fun runs : List (List SelIn) => topk (j.p 0) (j.p 1 == 0) c.ty th runs
      match j.p 2 with
      | 0 => s.shareSelection j (s.selPart j c id hasId rs parts) res fun ps =>
          let x := top ((coreRuns ps).map selIns)
          (x, x.bytes (j.p 0) (tyBits c.ty / 8) (j.p 6) hasId true, true, j.p 0)
      | 1 => (s.topkRows j th c id res hasId rs).unitEnd j.k j.slot 0
      | _ =>
        if !s.tableReady j.r.stream (j.p 7) then s
        else
          let v := s.viewTable e j.g j.r.stream (j.p 7)
          let ps := v.rowPieces c.off rs.first rs.count ++ if hasId then v.rowPieces id.off rs.first rs.count else []
          let s0 := s.readPieces ps
          if s.poisonedIn ps then s0
          else
          let r := v.selTable c id hasId rs
          if r.1 != 0 then s0.unitEnd j.k j.slot r.1
          else s0.shareSelection j { place := j.r.place, k := j.k, slot := j.slot, first := rs.first, count := rs.count, parts := parts, rows := r.2 } res fun ps =>
            let x := top ((coreRuns ps).map selIns)
            (x, x.bytes (j.p 0) (tyBits c.ty / 8) (j.p 6) hasId true, true, j.p 0))

end Sys2Proof.Machine
end

