-- ==== Sys2Proof/Machine/Gather.lean ====
section
/-! DEFINITION. The gather coalescer: GATHER, SCATTER and SCATTER_ADD (chapter 07). -/

namespace Sys2Proof.Machine

/-- An index entry under INDEX_MODE (R215, R216): the row it names, if any, and whether it was out of range. -/
def resolveIndex (mode n : Nat) (i : Int) : Option Nat × Bool :=
  if 0 ≤ i ∧ i < n then (some i.toNat, false)
  else match mode with
    | 1 => (if n == 0 then none else some (i % (n : Int)).toNat, true)
    | 2 => (some (if i < 0 then 0 else n - 1), true)
    | _ => (none, true)

/-- The index entry of a row: void, null, or its resolution. -/
inductive IndexIn where
  | void_
  | null
  | at_ (row : Option Nat) (oor : Bool)
  deriving DecidableEq, Repr

/-- The index entries of a task in input order: local row, row slot, entry. -/
def State.indexIns (s : State) (j : Job2) (mode n : Nat) (c : ColW) (rs : Rows) : List (Nat × Nat × IndexIn) :=
  (rowList rs).map fun p =>
    let x := s.slotCell j.k c p.1
    (p.1, p.2, if j.absent s p then .void_ else if !x.valid then .null
      else let r := resolveIndex mode n (timeOf c.ty x); .at_ r.1 r.2)

/-- A gather window's count: entries, distinct source rows and read units in it, splits, units read (newest first), source rows read, entries
served without a read (R220, R221). -/
structure Window where
  entries : Nat := 0
  rows    : Nat := 0
  units   : List Nat := []
  splits  : Nat := 0
  log     : List Nat := []
  read    : Nat := 0
  served  : Nat := 0
  deriving DecidableEq, Repr

/-- A new window whose first entry names the read units `us`. -/
def Window.fresh (w : Window) (us : List Nat) : Window :=
  { w with entries := 1, rows := b2n !us.isEmpty, units := us, log := us.reverse ++ w.log, read := w.read + b2n !us.isEmpty }

/-- One entry whose source row has the read units `us` of `bytes` bytes each (R220, R221): it is served without a read when the window has read
all of them. Null, void and dropped entries name none. -/
def Window.add (w : Window) (bytes : Nat) (us : List Nat) : Window :=
  let more := us.filter fun u => !w.units.contains u
  if w.entries == 4096 then w.fresh us
  else if us.isEmpty then { w with entries := w.entries + 1 }
  else if more.isEmpty then { w with entries := w.entries + 1, served := w.served + 1 }
  else if decide (4096 < w.rows + 1) || decide (0x100000 < (w.units.length + more.length) * bytes) then
    ({ w with splits := w.splits + 1 } : Window).fresh us
  else { w with entries := w.entries + 1, rows := w.rows + 1, units := more ++ w.units, log := more.reverse ++ w.log, read := w.read + 1 }

/-- Counts index entries and windows in the coalescer's registers (R216, R217, R220, R221). -/
def State.countGather (s : State) (k : Nat) (ins : List (Nat × Nat × IndexIn)) (scatter : Bool) (mode : Nat) (w : Window) : State :=
  let oor := (ins.filter fun x => match x.2.2 with | .at_ _ o => o | _ => false).length
  let nulls := (ins.filter fun x => decide (x.2.2 = .null)).length
  let drop := (ins.filter fun x => match x.2.2 with | .at_ none _ => scatter && (mode == 0 || mode == 3) | _ => false).length
  s.modGth k fun q => { q with
    oor := sat32 q.oor oor, nullIndex := sat32 q.nullIndex nulls, dropped := sat32 q.dropped drop
    windowSplit := sat32 q.windowSplit w.splits, rowsRead := (q.rowsRead + w.read) % 2 ^ 64, coalesced := (q.coalesced + w.served) % 2 ^ 64 }

/-- The byte ranges of a table that hold row `r` of a column: first those of its element, and then what finds and qualifies it: span index, end
offsets, validity, scale (R125). A range whose place cannot be read is left out. -/
def TCol.spots (rd : Nat → Nat → Option Bytes) (c : TCol) (r : Nat) : List (Nat × Nat) × List (Nat × Nat) :=
  let vt := if c.nullable then 1024 else 0
  let i := r % 8192
  let mark := fun start : Nat => if c.nullable then [(start + i / 8, 1)] else []
  if isVar c.ty then
    let at_ := c.idx + 8 * (r / 8192)
    match rd at_ 8 with
    | none => ([], [(at_, 8)])
    | some x =>
      let start := c.off + leNat x
      let ends := start + vt + 4 * (i - 1)
      let look := (at_, 8) :: (ends, 8) :: mark start
      let z := varBytes c.ty c.param
      match rd ends 8 with
      | none => ([], look)
      | some b =>
        let lo := if i == 0 then 0 else fieldAt b 0 4
        let hi := if i == 0 then fieldAt b 0 4 else fieldAt b 4 4
        ([(start + vt + 32768 + lo * z, (hi - lo) * z)], look)
  else
    let start := c.off + r / 8192 * spanBytes c.ty c.nullable
    let a := start + vt + tyBits c.ty * i / 8
    ([(a, (tyBits c.ty * i % 8 + tyBits c.ty + 7) / 8)], mark start ++ if isMx c.ty then [(start + scalesAt c.ty c.nullable + i / 32, 1)] else [])

/-- The 64-byte lines of a byte range; that of its start for an empty one. -/
def linesOf (p : Nat × Nat) : List Nat := (List.range ((p.1 + max 1 p.2 - 1) / 64 + 1 - p.1 / 64)).map fun i => p.1 / 64 + i

/-- The read units of a source row: the row in ROWS form, the 64-byte lines that hold its elements in COLUMN form (R219, R221). -/
def readUnits (rd : Nat → Nat → Option Bytes) (form : Nat) (cols : List TCol) (r : Nat) : List Nat :=
  if form == 1 then [r] else (cols.flatMap fun x => (x.spots rd r).1.flatMap linesOf).eraseDups

/-- What a row of COLUMN form reads beside its elements' lines. -/
def readMarks (rd : Nat → Nat → Option Bytes) (form : Nat) (cols : List TCol) (r : Nat) : List (Nat × Nat) :=
  if form == 1 then [] else cols.flatMap fun x => (x.spots rd r).2

/-- The bytes of a row of a slot column in ROWS form (log entry 54). -/
def State.rawRow (s : State) (k : Nat) (c : ColW) (pitch i size : Nat) : Bytes :=
  match s.slotRec k c.slot with
  | none => []
  | some sr => readBytes (s.cstore k) (sr.off + c.off + (if c.nullable then 1024 else 0) + pitch * i) size

/-- The validity of a row of a slot column in ROWS form. -/
def State.rawValid (s : State) (k : Nat) (c : ColW) (i : Nat) : Bool :=
  match s.slotRec k c.slot with
  | none => false
  | some sr => !c.nullable || (bitsAt (storeRd (s.cstore k)) (sr.off + c.off) i 1).getD 0 == 1

/-- The rows that an index may name: those that the operator declares, and in COLUMN form no more than the table holds, since no padding row is
ever delivered (R128, R215; DESIGN CHOICE, log entry 114). -/
def TabView.bound (v : TabView) (form n : Nat) : Nat := if form == 1 then n else min n v.rows

/-- What a GATHER makes of one entry: the output cells or row bytes, and a void reason (0: none) (R216 to R218). A failed read makes
the row void with VR_SOURCE_ERROR (log entry 57). -/
def gatherRow (v : TabView) (rd : Nat → Nat → Option Bytes) (form rowBytes pitch ncols : Nat) (x : IndexIn) : List Cell × Option Bytes × Nat :=
  match x with
  | .void_ => ([], none, 0)
  | .null => ([], none, 0)
  | .at_ none _ => ([], none, 0)
  | .at_ (some r) _ =>
    if form != 1 && decide (v.rows ≤ r) then ([], none, 0)
    else if v.rowVoid (if form == 1 then [] else List.range ncols) r != 0 then ([], none, v.rowVoid (if form == 1 then [] else List.range ncols) r)
    else if form == 1 then
      (match rd (pitch * r) rowBytes with
      | some bs => ([], some bs, 0)
      | none => ([], none, vrSourceError))
    else match (List.range ncols).mapM fun c => v.cell c r with
      | some cs => (cs, none, 0)
      | none => ([], none, vrSourceError)

/-- The state with the memory that a GATHER reads: as it stood when its task began (R222). -/
def State.atStart (s : State) (r : TaskRec) : State :=
  match r.snap with
  | some m => s.modMem fun x => { x with hbm := m.1, bus := m.2 }
  | none => s

/-- Whether the attached table that a TABLE word names lies on a bus that may not be read (R102). -/
def State.waitsTable (s : State) (w : Nat) : Bool := !bitOf w 12 && s.waitsBus (s.table (w % 4096)).extents

/-- GATHER (R215 to R222). In a table stage a failed read ends the stage with ST_BUS_ERROR (R166). -/
def execGather (k : Fin 16) (slot : Fin 4096) (rs : Rows) (e : BusEnv) (s : State) : Host.Outcome State Fault Refusal :=
  .next ((s.env e).unitRun k.val slot.val 4 1 fun j s =>
    let mode := j.p 0
    let form := j.p 2
    let outs := (takeCols (j.ps.drop 7)).1
    if if form == 0 then !s.tableReady j.r.stream (j.p 5) else s.waitsTable (j.p 5) then none
    else
      let src := s.atStart j.r
      let v := src.viewTable e j.g j.r.stream (j.p 5)
      let ins := s.indexIns j mode (v.bound form (j.p 1)) (parseCol (j.p 6)) rs
      let rd := extRead (src.peek e) v.exts
      let rows := ins.filterMap fun x => match x.2.2 with | .at_ (some r) _ => some r | _ => none
      let bytes := if form == 1 then j.p 4 else 64
      let w := ins.foldl (fun (w : Window) x => w.add bytes (match x.2.2 with
        | .at_ (some r) _ => readUnits rd form (v.cols.take outs.length) r
        | _ => [])) {}
      let got := ins.map fun x => (x.1, x.2.1, x.2.2, gatherRow v rd form (j.p 3) (j.p 4) outs.length x.2.2)
      let reasonOf := fun x : Nat × Nat × IndexIn × List Cell × Option Bytes × Nat => match x.2.2.1 with
        | .at_ none _ => if mode == 0 then vrIndex else x.2.2.2.2.2
        | .void_ => j.reason s (x.1, x.2.1)
        | _ => x.2.2.2.2.2
      let ps := w.log.reverse.flatMap fun u => if form == 1 then extPieces v.exts (j.p 4 * u) (alignUp 64 (j.p 3)) else extPieces v.exts (64 * u) 64
      let ps := ps ++ (rows.flatMap fun r => readMarks rd form (v.cols.take outs.length) r).eraseDups.flatMap fun m => extPieces v.exts m.1 m.2
      if s.poisonedIn ps then some (s.readPieces ps, stHeld)
      else
      let s0 := (s.countGather j.k ins false mode w).readPieces ps
      let s1 := got.foldl (fun t x => t.jobVoid j x.2.1 (reasonOf x)) s0
      if j.t.stage && got.any fun x => x.2.2.2.2.2 == vrSourceError then some (s1, stBusError)
      else if form == 1 then
        let out := outs.headD (parseCol 0)
        let row := fun x => if reasonOf x == 0 then x.2.2.2.2.1 else none
        let s2 := got.foldl (fun t x => t.putRawRow j.k out (j.p 4) x.1 (row x) (j.p 3)) s1
        some (match j.r.batch with
          | none => s2.setSlotVoids j.k [out] (voidTab (got.map reasonOf))
          | some b => (s2.noteCols j.r.stream b [{ k := j.k, first := rs.first, count := rs.count, col := out, form := .rows (j.p 4) (j.p 3) }]).mark
              j.r.stream j.r.batch j.k out.slot (got.map fun x =>
                { at_ := out.off + (if out.nullable then 1024 else 0) + j.p 4 * x.1, len := j.p 3, valid := (row x).isSome, pad := false }), 0)
      else
        let rows := got.map fun x => (if reasonOf x == 0 then x.2.2.2.1 else [], reasonOf x)
        if j.t.stage then some (s1.putStage j outs rs rows) else some (s1.putOuts j outs rs (rows.map fun r => r.1), 0))

/-- Writes bytes across extents. -/
def State.extWrite (s : State) (exts : List Extent) (off : Nat) (bs : Bytes) : State :=
  ((extPieces exts off bs.length).foldl (fun (a : State × Bytes) p =>
    (a.1.writeSpace p.1 p.2.1 (a.2.take p.2.2), a.2.drop p.2.2)) (s, bs)).1

/-- Writes `n` bits across extents, keeping the bits around them. -/
def State.extPutBits (s : State) (e : BusEnv) (exts : List Extent) (base o n v : Nat) : State :=
  let a := base + o / 8
  let z := (o % 8 + n + 7) / 8
  match extRead (s.readSpace e) exts a z with
  | none => s
  | some bs =>
    let old := leNat bs
    let keep := old - old / 2 ^ (o % 8) % 2 ^ n * 2 ^ (o % 8)
    s.extWrite exts a (leBytes z (keep + v % 2 ^ n * 2 ^ (o % 8)))

/-- Writes one element of a fixed-width column of a blocked table, with its validity bit. -/
def State.putFixedCell (s : State) (e : BusEnv) (exts : List Extent) (c : TCol) (r : Nat) (x : Cell) : State :=
  let start := c.off + r / 8192 * spanBytes c.ty c.nullable
  let s1 := if c.nullable then s.extPutBits e exts start (r % 8192) 1 (b2n x.valid) else s
  s1.extPutBits e exts (start + if c.nullable then 1024 else 0) (tyBits c.ty * (r % 8192)) (tyBits c.ty) (if x.valid then outBits c.ty x.bits else 0)

/-- Writes one element of an MX column of `rows` rows; the other rows of its block keep their contents (R223). Where one of them is valid, the
block keeps its scale, and an element that has no code under it takes a free one (log entry 92). -/
def State.putMxCell (s : State) (e : BusEnv) (exts : List Extent) (rows : Nat) (c : TCol) (r : Nat) (x : Cell) : State :=
  let r0 := r / 32 * 32
  let rd := extRead (s.peek e) exts
  let at_ := c.off + r / 8192 * spanBytes c.ty c.nullable + scalesAt c.ty c.nullable + r % 8192 / 32
  let alone := (List.range 32).all fun i => r0 + i == r || decide (rows ≤ r0 + i) || (blockedCell rd c (r0 + i)).all fun y => !y.valid
  if !x.valid then s.putFixedCell e exts c r x
  else if alone then (s.putFixedCell e exts c r x).extWrite exts at_ (leBytes 1 x.scale)
  else
    match (rd at_ 1).bind fun sc => if leNat sc == x.scale then some x.bits else mxRescale (c.ty - 0x20) x.scale x.bits (leNat sc) with
    | some b => s.putFixedCell e exts c r { x with bits := b }
    | none => ({ s with free := s.free + 1 } : State).putFixedCell e exts c r { x with bits := Config.draw s.free % 2 ^ tyBits c.ty }

/-- A value of a variable-width cell's own length whose bytes are free. -/
def Cell.freed (x : Cell) (g z : Nat) : Cell :=
  let bs := fun i n : Nat => (List.range n).map fun k => Config.freeByte g (i * z + k)
  { x with valid := true, bytes := bs 0 x.bytes.length, elems := (List.range x.elems.length).map fun i => leNat (bs i z) }

/-- Writes one element of a variable-width column of `rows` rows: its spans and their index are laid out anew, and every other row keeps its
contents (R125, R223). Where the column would outgrow its DATA_LEN the spec states no result: the row keeps its length and takes free bytes
(log entry 92). A column of which a row cannot be read is left as it is. -/
def State.putVarCell (s : State) (e : BusEnv) (exts : List Extent) (rows : Nat) (c : TCol) (r : Nat) (x : Cell) : State :=
  match (List.range rows).mapM fun i => blockedCell (extRead (s.peek e) exts) c i with
  | none => s
  | some cs =>
    let lay := fun y : Cell => putColumn [] 0 c.ty c.nullable c.param (cs.set r y)
    let put := fun (t : State) (q : Tab Byte × List Nat × Nat) => (t.extWrite exts c.off (readBytes q.1 0 q.2.2)).extWrite exts c.idx (q.2.1.flatMap fun a => leBytes 8 a)
    let q := lay x
    if q.2.2 ≤ c.len then put s q
    else
      let f := lay ((cs.getD r {}).freed s.free (varBytes c.ty c.param))
      if f.2.2 ≤ c.len then put { s with free := s.free + 1 } f else s

/-- Writes one element of a column of a blocked table of `rows` rows. -/
def State.putTableCell (s : State) (e : BusEnv) (exts : List Extent) (rows : Nat) (c : TCol) (r : Nat) (x : Cell) : State :=
  if isVar c.ty then s.putVarCell e exts rows c r x else if isMx c.ty then s.putMxCell e exts rows c r x else s.putFixedCell e exts c r x

/-- A scatter operator's work so far in this batch or stage (R223). -/
def State.scatRec (s : State) (j : Job2) : Option (Tab Nat) :=
  match j.r.batch with
  | some b => (((s.stream j.r.stream).batch b).bind fun x => x.scat.find? fun p => p.1 == j.tpl).map fun p => p.2
  | none => (s.builtOf j.tpl).scat
def State.setScat (s : State) (j : Job2) (t : Tab Nat) : State :=
  match j.r.batch with
  | some b => s.modBatch j.r.stream b fun x => { x with scat := (j.tpl, t) :: x.scat.filter fun p => p.1 != j.tpl }
  | none => s.setBuilt j.tpl { s.builtOf j.tpl with scat := some t }

/-- The entries of a scatter that apply: local row, input position, destination row (R216, R217). -/
def applying (ins : List (Nat × Nat × IndexIn)) : List (Nat × Nat × Nat) :=
  ins.filterMap fun x => match x.2.2 with
    | .at_ (some r) _ => some (x.1, x.2.1, r)
    | _ => none

/-- The pieces of memory that writing row `r` of a column reads first: a whole variable-width column, the scale and validity of an MX block. -/
def TabView.writeReads (v : TabView) (c : TCol) (r : Nat) : List (Space × Nat × Nat) :=
  if isVar c.ty then extPieces v.exts c.off c.len ++ extPieces v.exts c.idx (8 * ceilDiv v.rows 8192)
  else if isMx c.ty then
    let start := c.off + r / 8192 * spanBytes c.ty c.nullable
    extPieces v.exts (start + scalesAt c.ty c.nullable + r % 8192 / 32) 1 ++
      if c.nullable then extPieces v.exts (start + r % 8192 / 32 * 4) 4 else []
  else []

/-- SCATTER (R216, R217, R223; held by poisoned data under R367): the entry latest in input order determines a destination row, across the operator's tasks. -/
def execScatter (k : Fin 16) (slot : Fin 4096) (rs : Rows) (e : BusEnv) (s : State) : Host.Outcome State Fault Refusal :=
  .next ((s.env e).unitRun k.val slot.val 4 2 fun j s =>
    if s.waitsTable (j.p 5) then none
    else
    let srcs := (takeCols (j.ps.drop 7)).1
    let v := s.viewTable e j.g j.r.stream (j.p 5)
    let ins := s.indexIns j (j.p 0) (v.bound (j.p 2) (j.p 1)) (parseCol (j.p 6)) rs
    let ps := if j.p 2 == 1 then [] else (applying ins).flatMap fun x => (v.cols.take srcs.length).flatMap fun c => v.writeReads c x.2.2
    if s.poisonedIn ps then some (s.readPieces ps, stHeld)
    else
    let s0 := (s.countGather j.k ins true (j.p 0) {}).readPieces ps
    let r := (applying ins).foldl (fun (a : State × Tab Nat) x =>
      if x.2.1 + 1 ≤ tget 0 a.2 x.2.2 then a
      else
        let t := if j.p 2 == 1 then a.1.extWrite v.exts (j.p 4 * x.2.2) (s.rawRow j.k (srcs.headD (parseCol 0)) (j.p 4) x.1 (j.p 3))
          else (srcs.zipIdx).foldl (fun t c => match v.cols[c.2]? with
            | some tc => t.putTableCell e v.exts v.rows tc x.2.2 (s.slotCell j.k c.1 x.1)
            | none => t) a.1
        (t, tset 0 x.2.2 (x.2.1 + 1) a.2)) (s0, (s.scatRec j).getD [])
    some (r.1.setScat j r.2, 0))

/-- The sum that SCATTER_ADD leaves in one element (R224, R225). -/
def scatterSum (ty : Nat) (old new : Cell) : Cell :=
  if !new.valid then old
  else if !old.valid then { new with bits := ((laneTy ty).map fun t => canonNan t new.bits).getD new.bits }
  else match laneTy ty with
    | some ⟨_, .flt f⟩ => { valid := true, bits := (f.encode 0 (fAdd 0 (f.decode old.bits) (f.decode new.bits)).1).1 }
    | some t => { valid := true, bits := (old.bits + new.bits) % 2 ^ (8 * t.size) }
    | none => old

/-- An order of a list that the spec leaves open: drawn one by one (R224; log entry 24). -/
def drawOrder {α : Type} : Nat → List α → State → List α × State
  | 0, l, s => (l, s)
  | n + 1, l, s =>
    match l with
    | [] => ([], s)
    | a :: as =>
      let c := s.choose l.length
      let x := l.getD c.1 a
      let r := drawOrder n (if c.1 == 0 then as else a :: as.eraseIdx (c.1 - 1)) c.2
      (x :: r.1, r.2)

/-- Adds one entry's elements to its destination row (R224, R225). -/
def State.scatterEntry (s : State) (e : BusEnv) (j : Job2) (v : TabView) (srcs : List ColW) (x : Nat × Nat × Nat) : State :=
  if j.p 2 == 1 then
    let c := srcs.headD (parseCol 0)
    let z := max 1 (tyBits c.ty / 8)
    let row := s.rawRow j.k c (j.p 4) x.1 (j.p 3)
    if !s.rawValid j.k c x.1 then s
    else (List.range (j.p 3 / z)).foldl (fun t i =>
      match extRead (t.peek e) v.exts (j.p 4 * x.2.2 + z * i) z with
      | some bs => t.extWrite v.exts (j.p 4 * x.2.2 + z * i)
          (leBytes z (scatterSum c.ty { valid := true, bits := leNat bs } { valid := true, bits := fieldAt row (z * i) z }).bits)
      | none => t) s
  else
    (srcs.zipIdx).foldl (fun t c => match v.cols[c.2]? with
      | some tc => (match blockedCell (extRead (t.peek e) v.exts) tc x.2.2 with
        | some old => t.putTableCell e v.exts v.rows tc x.2.2 (scatterSum c.1.ty old (t.slotCell j.k c.1 x.1))
        | none => t)
      | none => t) s

/-- INIT = ZERO: every destination element is valid 0 before the first entry (R225). -/
def State.scatterZero (s : State) (e : BusEnv) (j : Job2) (v : TabView) (srcs : List ColW) : State :=
  (List.range (j.p 1)).foldl (fun t r =>
    if j.p 2 == 1 then t.extWrite v.exts (j.p 4 * r) (List.replicate (j.p 3) 0#8)
    else (List.range srcs.length).foldl (fun t c => match v.cols[c]? with
      | some tc => t.putTableCell e v.exts v.rows tc r { valid := true }
      | none => t) t) s

/-- SCATTER_ADD (R216, R217, R224, R225; held by poisoned data under R367): entries are accumulated in an order drawn freely. -/
def execScatterAdd (k : Fin 16) (slot : Fin 4096) (rs : Rows) (e : BusEnv) (s : State) : Host.Outcome State Fault Refusal :=
  .next ((s.env e).unitRun k.val slot.val 4 3 fun j s =>
    if s.waitsTable (j.p 6) then none
    else
    let srcs := (takeCols (j.ps.drop 8)).1
    let v := s.viewTable e j.g j.r.stream (j.p 6)
    let ins := s.indexIns j (j.p 0) (v.bound (j.p 2) (j.p 1)) (parseCol (j.p 7)) rs
    let xs := applying ins
    let ps := xs.flatMap fun x => if j.p 2 == 1 then extPieces v.exts (j.p 4 * x.2.2) (j.p 3)
      else (readUnits (extRead (s.peek e) v.exts) 0 (v.cols.take srcs.length) x.2.2).flatMap (fun u => extPieces v.exts (64 * u) 64) ++
        (readMarks (extRead (s.peek e) v.exts) 0 (v.cols.take srcs.length) x.2.2).flatMap fun m => extPieces v.exts m.1 m.2
    let s0 := (if j.p 5 == 1 && (s.scatRec j).isNone then s.scatterZero e j v srcs else s).setScat j ((s.scatRec j).getD [])
    if s0.poisonedIn ps then some (s0.readPieces ps, stHeld)
    else
    let d := drawOrder xs.length xs ((s0.countGather j.k ins true (j.p 0) {}).readPieces ps)
    some (d.1.foldl (fun t x => t.scatterEntry e j v srcs x) d.2, 0))

end Sys2Proof.Machine
end

