-- ==== Sys2Proof/Machine/SageOps.lean ====
section
/-! DEFINITION. Sage (chapter 08): entries, searches and verification, automaton scans, builds, entry writes and reconfiguration. -/

namespace Sys2Proof.Machine

/-- Bank `b` of cluster `k`. -/
def State.bank (s : State) (k b : Nat) : SageBank := tget {} (s.units k).sage.banks b
def State.modBank (s : State) (k b : Nat) (f : SageBank → SageBank) : State :=
  s.modSage k fun q => { q with banks := tmod {} b f q.banks }

/-- Units per entry by WIDTH (R241). -/
def SageBank.unitsPer (b : SageBank) : Nat := 2 ^ min 2 b.width
/-- Entries or states that a bank holds in its mode (R241). -/
def SageBank.capacity (b : SageBank) : Nat := match b.mode with | 1 => 4096 / b.unitsPer | 2 => 2048 | _ => 0
/-- The global mask of a slot (R244). -/
def SageBank.mask (b : SageBank) (i : Nat) : Nat := (if i == 0 then 2 ^ 512 - 1 else tget 0 b.masks i) % 2 ^ (128 * b.unitsPer)
/-- VALID_ENTRIES (SAGE_BANK_STATUS). -/
def SageBank.validCount (b : SageBank) : Nat :=
  if b.mode == 2 then (b.states.filter fun p => bitOf p.2 69).length else (b.entries.filter fun p => p.2.stored.valid).length

/-- The test of R245. -/
def SageRow.hits (r : SageRow) (key g : Nat) : Bool := r.valid && Nat.land (Nat.xor r.key key) g == 0

/-- An upset of an entry of `bits` KEY bits (R242). -/
def SageEntry.upset (x : SageEntry) (u : SageUpset) (bits : Nat) : SageEntry :=
  { x with
    row := { x.row with
      key := Nat.xor x.row.key (u.row % 2 ^ bits)
      prio := Nat.xor x.row.prio (bitsOf u.row 519 512)
      valid := x.row.valid != bitOf u.row 520 }
    parity := Nat.xor x.parity (u.parity % 2 ^ (bits / 16) + if bitOf u.parity 32 then 2 ^ 32 else 0)
    ecc := (u.words.filter fun w => decide (w < bits / 64) || decide (8 ≤ w)).foldl (fun t w => tmod 0 w (fun n => min 2 (n + 1)) t) x.ecc }
/-- Upsets of the banks of a cluster; an address beyond the bank's capacity holds no entry. -/
def State.sageUpsets (s : State) (k : Nat) (us : List SageUpset) : State :=
  us.foldl (fun t u => t.modBank k u.bank fun b =>
    if decide (u.addr < b.capacity) then { b with entries := tmod {} u.addr (fun x => x.upset u (128 * b.unitsPer)) b.entries } else b) s

/-- Words of an entry's stored copy with a correctable error, and with one that cannot be corrected (R242, R251). -/
def SageEntry.corrs (x : SageEntry) : Nat := (x.ecc.filter fun w => w.2 == 1).length
def SageEntry.uncorrs (x : SageEntry) : Nat := (x.ecc.filter fun w => w.2 == 2).length

/-- What a search finds: the true matches in step order, the visited candidates that fail verification, those whose stored copy needs
corrections with their number, and the first in step order whose stored copy cannot be corrected (R245 to R251). -/
structure Found where
  hits    : List (Nat × SageRow)
  more    : Bool
  multi   : Bool
  lower   : Bool
  false_  : List Nat
  corr    : List (Nat × Nat)
  uncorr  : Option Nat
  deriving DecidableEq, Repr

/-- Step order: PRIO descending, then address ascending (R246). -/
def stepLe (a b : Nat × SageRow) : Bool := decide (b.2.prio < a.2.prio) || (a.2.prio == b.2.prio && decide (a.1 ≤ b.1))

/-- The order in which a search verifies its candidates: match rows that fail parity first, then step order (R250). -/
def candLe (a b : Nat × SageEntry) : Bool :=
  match a.2.parityOk, b.2.parityOk with
  | false, false => decide (a.1 ≤ b.1)
  | false, true => true
  | true, false => false
  | true, true => stepLe (a.1, a.2.row) (b.1, b.2.row)

/-- A search of a bank with its steps (R245, R246, R249, R250): a match row that fails parity is a candidate ahead of all others and a
false hit; the outputs follow the verified matches alone. Verification ends at a stored copy that cannot be corrected (R251). -/
def SageBank.search (b : SageBank) (key slot steps : Nat) : Found :=
  let w := 2 ^ (128 * b.unitsPer)
  let g := b.mask slot
  let ky := key % w
  let cand := sortBy candLe (b.entries.filter fun p => !p.2.parityOk || p.2.row.hits ky g)
  let good := fun x : SageEntry => x.parityOk && x.stored.hits ky g && x.stored.prio == x.row.prio
  let true_ := sortBy stepLe ((cand.filter fun p => good p.2 || (!p.2.parityOk && p.2.stored.hits ky g)).map fun p => (p.1, p.2.stored))
  let hits := true_.take (1 + steps)
  let reached := if true_.length ≤ steps then cand
    else match hits.getLast? with
      | some l => cand.filter fun p => !p.2.parityOk || stepLe (p.1, p.2.row) l
      | none => cand
  let stop := reached.findIdx fun p => p.2.uncorrs != 0
  let visited := reached.take stop
  { hits := hits, more := decide (1 + steps < true_.length)
    multi := match true_ with | a :: c :: _ => a.2.prio == c.2.prio | _ => false
    lower := match true_.head?, true_.getLast? with | some a, some z => decide (z.2.prio < a.2.prio) | _, _ => false
    false_ := (visited.filter fun p => !good p.2).map fun p => p.1
    corr := (visited.filter fun p => p.2.corrs != 0).map fun p => (p.1, p.2.corrs)
    uncorr := (reached[stop]?).map fun p => p.1 }

/-- The bytes of one key part of a search key (R243): a fold, or a string of F bytes with its length. -/
def sagePart (c : ColW) (x : Cell) : Bytes :=
  if isVar c.ty then (x.bytes ++ List.replicate (c.param - x.bytes.length) 0#8).take c.param ++ leBytes 1 x.bytes.length
  else let q := foldPart false 0 0 { c with desc := false } x; leBytes q.2 q.1
/-- The search key of a row (R243). -/
def sageKey (parts : List ColW) (xs : List Cell) : Nat := leNat ((parts.zip xs).flatMap fun p => sagePart p.1 p.2)
/-- Whether a string part is longer than its field (R248). -/
def sageLong (parts : List ColW) (xs : List Cell) : Bool := (parts.zip xs).any fun p => isVar p.1.ty && decide (p.1.param < p.2.bytes.length)

/-- Repairs after a search: false hits rewrite their match rows and are reported, corrections are made in place (R249, R251). -/
def State.sageRepair (s : State) (k b : Nat) (f : Found) : State :=
  let s1 := f.corr.foldl (fun t a => (t.modBank k b fun x => { x with entries := tmod {} a.1 (fun e => { e with ecc := [] }) x.entries }).modSage k fun q =>
    { q with eccCorr := sat32 q.eccCorr a.2 }) s
  f.false_.foldl (fun t a => ((t.modBank k b fun x => { x with entries := tmod {} a SageEntry.rewrite x.entries }).modSage k fun q =>
    { q with falseHit := sat32 q.falseHit 1 }).detectError 7 (8 * k + b) 3 a false) s1

/-- The output cells of a row with a search (R247). -/
def lookupCells (f : Found) (steps : Nat) : List Cell :=
  let w := f.hits.head?
  let val := fun g : Nat × SageRow → Nat => (w.map fun x => ({ valid := true, bits := g x } : Cell)).getD {}
  [boolCell w.isSome, val fun x => x.2.result, val fun x => x.1, val fun x => x.2.prio, u32Cell (b2n f.multi + 2 * b2n f.lower + 4 * b2n f.more)] ++
    (if steps == 0 then [] else [{ valid := true, elems := (f.hits.drop 1).map fun x => x.2.result }])

/-- A staged write on its bank (R253, R254): none when it is rejected. -/
def SageBank.apply (b : SageBank) (w : SageWr) : Option SageBank :=
  let addr := bitsOf w.target 15 4
  let key := ((List.range 16).map fun i => tget 0 w.key i * 2 ^ (32 * i)).sum
  match w.ctl % 4 with
  | 0 =>
    if b.mode == 1 && decide (addr < b.capacity) then
      let r : SageRow := { valid := bitOf w.ctl 2, prio := bitsOf w.ctl 15 8, result := w.res, key := key % 2 ^ (128 * b.unitsPer) }
      some { b with entries := tset {} addr (freshEntry r none) b.entries }
    else none
  | 1 => if b.mode == 1 && addr != 0 && decide (addr < 16) then some { b with masks := tset 0 addr key b.masks } else none
  | 2 => if b.mode == 2 && decide (addr < b.capacity) then some { b with states := tset 0 addr (key % 2 ^ 256) b.states } else none
  | _ => if b.mode == 2 then some { b with classes := tset 0 (addr % 256) (tget 0 w.key 0 % 64) b.classes } else none

/-- A pending configuration in force: a change of MODE or WIDTH invalidates the contents and clears mask slots 1 to 15 (R255). -/
def SageBank.reconfig (b : SageBank) : SageBank :=
  match b.pending with
  | none => b
  | some (_, v) =>
    let mode := if v % 4 == 3 then 0 else v % 4
    let width := min 2 (v / 4 % 4)
    if mode == b.mode && width == b.width then { b with pending := none }
    else { b with mode := mode, width := width, pending := none, entries := [], states := [], masks := [], reload := none }

/-- Applies the pending write of a cluster's Sage to its bank (R253, R254). -/
def State.sageWriteApply (s : State) (k : Nat) (w : SageWr) : State :=
  let i := w.target % 8
  let b := s.bank k i
  let s1 := s.modSage k fun q => { q with pending := none, banks := tset {} i ((b.apply w).getD b) q.banks }
  if (b.apply w).isSome then s1 else s1.modSage k fun q => { q with wrReject := sat32 q.wrReject 1, wrErr := true }

/-- Whether a search of cluster `k` waits for a reload of bank `b`: then no point lies between two searches of the bank (R251, R255). -/
def State.bankWaits (s : State) (k b : Nat) : Bool :=
  (s.bank k b).reload.isSome && match tget [] (s.disp k).unitQ 3 with
    | i :: _ => ((s.disp k).task i).state == .running && !((s.disp k).task i).ended
    | [] => false

/-- Applies the pending copies that have reached bank `b` of cluster `k` at one safe point, in the order of their commits (R253, R255, R256). -/
def State.sageApply (s : State) (k b : Nat) : State :=
  if s.bankWaits k b then s
  else
    let w := (s.units k).sage.pending.filter fun (p : Nat × SageWr) => p.2.target % 8 == b
    match w with
    | none => s.modBank k b SageBank.reconfig
    | some (n, w) =>
      if (s.bank k b).pending.any fun p => decide (p.1 < n) then (s.modBank k b SageBank.reconfig).sageWriteApply k w
      else (s.sageWriteApply k w).modBank k b SageBank.reconfig

/-- The outputs of a row without a match, the other columns null (R247, R248). -/
def noMatch (steps : Nat) : List Cell := boolCell false :: List.replicate (if steps == 0 then 4 else 5) {}

/-- A row's search on a bank (R246 to R251, R257): its row of results, or none while the entry at which its verification stands is loaded
again. `again` says that the search has been issued before. -/
def State.lookupRow (s : State) (k b slot steps : Nat) (parts : List ColW) (xs : List Cell) (again : Bool) : Option LookRow × State :=
  let bk := s.bank k b
  let s0 := if again then s else s.modSage k fun q => { q with searches := (q.searches + 1) % 2 ^ 64 }
  if bk.mode != 1 then
    (some { cells := lookupCells { hits := [], more := false, multi := false, lower := false, false_ := [], corr := [], uncorr := none } steps, sent := true },
      s0.modSage k fun q => { q with bankOff := sat32 q.bankOff 1, modeErr := true })
  else
    let f := bk.search (sageKey parts xs) slot steps
    let s1 := (s0.sageRepair k b f).modBank k b fun x => { x with reload := none }
    match f.uncorr with
    | none => (some { cells := lookupCells f steps, sent := true }, s1.modSage k fun q => { q with multi := sat32 q.multi (b2n f.multi) })
    | some a =>
      let x := tget ({} : SageEntry) bk.entries a
      let s2 := (s1.modSage k fun q => { q with eccUncorr := sat32 q.eccUncorr x.uncorrs }).detectError 7 (8 * k + b) 1 a false
      if x.source.isSome then (none, s2.modBank k b fun x => { x with reload := some (a, false) })
      else (some { cells := [], void_ := true, sent := true }, s2)

/-- Whether a search on a bank waits: the bank is fenced for its self-test, or loads an entry again (R251). -/
def State.searchWaits (s : State) (k b : Nat) : Bool :=
  s.isFenced 7 (8 * k + b) || (s.bank k b).reload.any fun x => !x.2

/-- The rows of a LOOKUP in input order, the replicas in rotation, from where it stands (R331): a void row and one without a search need no
bank; before a search the bank takes its pending copies (R253, R255); a search that waits ends the pass (R251). Answers how far it has come,
and whether that is the end. -/
def State.lookupRows (k slot steps : Nat) (parts : List ColW) (banks : List Nat) :
    List (Bool × List Cell) → LookProg → State → LookProg × Bool × State
  | [], p, s => (p, true, s)
  | x :: r, p, s =>
    let skip := fun (c : List Cell) (t : State) => lookupRows k slot steps parts banks r { p with rows := p.rows ++ [{ cells := c }] } t
    if x.1 then skip [] s
    else if keyNull x.2 then skip (noMatch steps) (s.modSage k fun q => { q with nullKeys := sat32 q.nullKeys 1 })
    else if sageLong parts x.2 then skip (noMatch steps) (s.modSage k fun q => { q with keyLong := sat32 q.keyLong 1 })
    else
      let b := banks.getD (p.issued % max 1 banks.length) 0
      if s.searchWaits k b then (p, false, s)
      else
        let q := (if p.waits then s else s.sageApply k b).lookupRow k b slot steps parts x.2 p.waits
        match q.1 with
        | none => ({ p with waits := true }, false, q.2)
        | some l => lookupRows k slot steps parts banks r { rows := p.rows ++ [l], issued := p.issued + 1, waits := false } q.2

/-- LOOKUP (R242 to R251, R257). Where a search waits, the record keeps how far the rows have come, and the command goes on from there. -/
def execLookup (k : Fin 16) (slot : Fin 4096) (rs : Rows) (ups : List SageUpset) (s : State) : Host.Outcome State Fault Refusal :=
  let s := s.sageUpsets k.val ups
  .next (match s.unitJob k.val slot.val 3 1 with
    | none => s
    | some j =>
      let key := takeCols (j.ps.drop 3)
      let outs := (takeCols key.2).1
      let ins := (rowList rs).map fun p => (j.absent s p, s.keyCells j.k key.1 p.1)
      let q := State.lookupRows j.k (j.p 1) (j.p 2) key.1 (setBits 8 (j.p 0)) (ins.drop j.r.look.rows.length) j.r.look s
      if !q.2.1 then q.2.2.modDisp j.k fun d => d.modRec j.slot fun r => { r with look := q.1 }
      else
        let all := (rowList rs).zip q.1.rows
        let done := all.foldl (fun (t : State) (p : (Nat × Nat) × LookRow) => if p.2.void_ then t.jobVoid j p.1.2 vrSourceError else t) q.2.2
        let rows := all.map fun p => (p.2.cells, if p.2.void_ then vrSourceError else j.reason s p.1)
        let w := if j.t.stage then done.putStage j outs rs rows else (done.putOuts j outs rs (rows.map fun r => r.1), 0)
        w.1.unitEnd k.val slot.val w.2)

/-- The successors of an automaton state, over its extension entries (R258). -/
def stateSucc (states : Tab Nat) : Nat → Nat → List Nat
  | 0, _ => []
  | fuel + 1, x =>
    let st := tget 0 states x
    let own := (List.range (min 8 (bitsOf st 99 96))).map fun i => bitsOf st (138 + 11 * i) (128 + 11 * i)
    let link := bitsOf st 226 216
    own ++ (if link == 0x7FF then [] else stateSucc states fuel link)

/-- The reports of one bank on a value (R259). -/
def SageBank.scan (b : SageBank) (val : Bytes) : List (Nat × Nat) :=
  let live := b.states.filter fun p => bitOf p.2 69 && !bitOf p.2 68
  let n := val.length
  let r := val.foldl (fun (a : List Nat × Nat × List (Nat × Nat)) byte =>
    let c := tget 0 b.classes byte.toNat % 64
    let next := a.1.flatMap fun x => stateSucc b.states 2048 x
    let act := live.filter fun p => bitOf p.2 c && (bitOf p.2 64 || (bitOf p.2 65 && a.2.1 == 0) || next.contains p.1)
    let rep := (act.filter fun p => bitOf p.2 66 && (!bitOf p.2 67 || a.2.1 + 1 == n)).map fun p => (a.2.1 + 1, bitsOf p.2 95 80)
    (act.map fun p => p.1, a.2.1 + 1, a.2.2 ++ rep)) ([], 0, [])
  r.2.2

/-- The merged reports of an automaton's banks: by end offset, then pattern, each once (R259, R261). -/
def scanBanks (bs : List SageBank) (val : Bytes) : List (Nat × Nat) :=
  (sortBy (fun a b : Nat × Nat => decide (a.1 < b.1) || (a.1 == b.1 && decide (a.2 ≤ b.2))) (bs.flatMap fun b => b.scan val)).dedup

/-- The image that the running variant places in bank `b` of cluster `k` (R252). -/
def State.imageOf (s : State) (g : Graph) (k b : Nat) : Option Nat :=
  ((g.sage.find? fun p => p.1 == g.variant && (s.logical (g.cfgOf g.variant).clusters)[p.2.2.1]? == some k && p.2.2.2 == b)).map fun p => p.2.1

/-- The replicas of an automaton among the banks of BANKS (R261, R331): the first copies of its images are the first replica, the second
copies the second, and so on; a bank that no image is placed in is a replica of its own (log entry 93). -/
def replicasOf (bs : List (Option Nat × Nat)) : List (List Nat) :=
  let keyed := (bs.zipIdx).map fun p =>
    (match p.1.1 with | some i => ((bs.take p.2).filter fun (q : Option Nat × Nat) => q.1 == some i).length | none => bs.length + p.2, p.1.2)
  (keyed.map fun p => p.1).eraseDups.map fun r => (keyed.filter fun p => p.1 == r).map fun p => p.2

/-- What a SCAN finds in a row: 0 void, 1 null, 2 scanned; its reports; whether a bank of its replica is in another mode (R257). -/
structure ScanRow where
  kind : Nat
  reps : List (Nat × Nat) := []
  off  : Bool := false
  deriving DecidableEq, Repr

/-- The rows of a SCAN in input order, the replicas in rotation (R331). -/
def scanRows (reps : List (List SageBank)) : List (Bool × Cell) → Nat → List ScanRow
  | [], _ => []
  | x :: r, i =>
    if x.1 then { kind := 0 } :: scanRows reps r i
    else if !x.2.valid then { kind := 1 } :: scanRows reps r i
    else
      let bs := reps.getD (i % max 1 reps.length) []
      let fit := bs.filter fun b => b.mode == 2
      { kind := 2, reps := scanBanks fit x.2.bytes, off := fit.length != bs.length } :: scanRows reps r (i + 1)

/-- SCAN (R257, R259 to R261); its banks take their pending copies first (R253, R255). -/
def execScan (k : Fin 16) (slot : Fin 4096) (rs : Rows) (s : State) : Host.Outcome State Fault Refusal :=
  .next (s.unitRun k.val slot.val 3 2 fun j s =>
    let s := (setBits 8 (j.p 0)).foldl (fun (t : State) b => t.sageApply j.k b) s
    let reps := (replicasOf ((setBits 8 (j.p 0)).map fun b => (s.imageOf j.g j.k b, b))).map fun l => l.map fun b => s.bank j.k b
    let c := parseCol (j.p 2)
    let outs := (takeCols (j.ps.drop 3)).1
    let res := scanRows reps ((rowList rs).map fun p => (j.absent s p, s.slotCell j.k c p.1)) 0
    let past := fun x : ScanRow => decide (j.p 1 < x.reps.length)
    let cells := fun x : ScanRow =>
      if x.kind != 2 then []
      else [boolCell (!x.reps.isEmpty), (x.reps.head?.map fun r => u32Cell r.1).getD {}, (x.reps.head?.map fun r => u32Cell r.2).getD {},
        { valid := true, elems := (x.reps.take (j.p 1)).map fun r => r.1 + r.2 * 2 ^ 32 }, boolCell (past x)]
    let off := (res.filter fun x => x.off).length
    let s1 := s.modSage j.k fun q => { q with
      searches := (q.searches + (res.filter fun x => x.kind == 2).length) % 2 ^ 64, nullKeys := sat32 q.nullKeys (res.filter fun x => x.kind == 1).length
      rptOverflow := sat32 q.rptOverflow (res.filter past).length
      bankOff := sat32 q.bankOff off, modeErr := q.modeErr || off != 0 }
    let rows := ((rowList rs).zip res).map fun p => (cells p.2, j.reason s p.1)
    if j.t.stage then some (s1.putStage j outs rs rows) else some (s1.putOuts j outs rs (rows.map fun r => r.1), 0))

/-- The search key that a build writes for a row; the rule gives none to a string longer than its field, whose field and length byte hold free
bytes (log entry 58). -/
def sageBuildKey (free : Nat) (parts : List ColW) (xs : List Cell) : Nat :=
  leNat ((parts.zip xs).flatMap fun p =>
    if isVar p.1.ty && decide (p.1.param < p.2.bytes.length) then (List.range (p.1.param + 1)).map fun i => Config.freeByte free i else sagePart p.1 p.2)

/-- SAGE_BUILD (R252): one entry per row that is not void, from address 0 in input order; rows with a null key part are skipped. -/
def execSageBuild (k : Fin 16) (slot : Fin 4096) (e : BusEnv) (s : State) : Host.Outcome State Fault Refusal :=
  .next ((s.env e).unitRun k.val slot.val 3 3 fun j s =>
    let key := (takeCols (j.ps.drop 5)).1
    let pc := parseCol (j.p 2)
    let rc := parseCol (j.p 3)
    if !s.tableReady j.r.stream (j.p 4) then none
    else
      let v := s.viewTable e j.g j.r.stream (j.p 4)
      let ps := v.pieces (key.map fun c => c.off)
      let s0 := s.readPieces ps
      if s.poisonedIn ps then some (s0, stHeld)
      else match v.stageRows key ((if j.p 1 == 1 then [pc] else []) ++ if j.p 3 != 0 then [rc] else []) with
      | none => some (s0, stBusError)
      | some rows =>
        let live := rows.filter fun x => !x.2.1
        let ins := live.filter fun x => !keyNull x.2.2.1
        let ent := fun x : Nat × Bool × List Cell × List Cell =>
          let prio := if j.p 1 == 1 then (x.2.2.2.headD {}).bits else j.p 2 % 256
          let res := if j.p 3 != 0 then (x.2.2.2.getD (if j.p 1 == 1 then 1 else 0) {}).bits else x.1
          let r : SageRow := { valid := true, prio := prio, result := res, key := sageBuildKey (s.free + x.1) key x.2.2.1 }
          freshEntry r (some r)
        let s1 := s0.modSage j.k fun q => { q with nullKeys := sat32 q.nullKeys (live.filter fun x => keyNull x.2.2.1).length }
        let cap := if (s.bank j.k (j.p 0)).mode == 1 then (s.bank j.k (j.p 0)).capacity else 0
        if cap < ins.length then some (s1, stLimit)
        else some (({ s1 with free := s1.free + v.rows } : State).modBank j.k (j.p 0) fun b => { b with entries := (ins.zipIdx).foldl (fun t p => tset {} p.2 (ent p.1) t) b.entries }, 0))

/-- SAGE_ENTRY_WRITE_APPLY (R253, R254, R256). -/
def execSageEntryWriteApply (k : Fin 16) (s : State) : Host.Outcome State Fault Refusal :=
  .next (match (s.units k.val).sage.pending with
    | none => s
    | some p => s.sageApply k.val (p.2.target % 8))

/-- SAGE_BANK_RECONFIG_APPLY (R255, R256). -/
def execSageBankReconfigApply (k : Fin 16) (b : Fin 8) (s : State) : Host.Outcome State Fault Refusal :=
  .next (if (s.bank k.val b.val).pending.isSome then s.sageApply k.val b.val else s)

/-- SAGE_ENTRY_RELOAD_COMPLETE (R251): the entry holds its source again; the search that waits for it runs again. -/
def execSageEntryReloadComplete (k : Fin 16) (b : Fin 8) (s : State) : Host.Outcome State Fault Refusal :=
  .next (match (s.bank k.val b.val).reload with
    | some (a, false) => s.modBank k.val b.val fun x => { x with
        reload := some (a, true)
        entries := tmod {} a (fun e => { e with stored := e.source.getD e.stored, ecc := [] }) x.entries }
    | _ => s)

/-- SAGE_MATCH_ROW_SCRUB (R250): every match row that fails parity is rewritten from its stored copy. -/
def execSageMatchRowScrub (k : Fin 16) (b : Fin 8) (ups : List SageUpset) (s : State) : Host.Outcome State Fault Refusal :=
  let s := s.sageUpsets k.val ups
  let bad := ((s.bank k.val b.val).entries.filter fun p => !p.2.parityOk).map fun p => p.1
  .next ((s.modBank k.val b.val fun x => { x with entries := bad.foldl (fun t a => tmod {} a SageEntry.rewrite t) x.entries }).modSage k.val fun q =>
    { q with scrubFix := sat32 q.scrubFix bad.length })

end Sys2Proof.Machine
end

