-- ==== Sys2Proof/Machine/Millstone.lean ====
section
/-! DEFINITION. Millstone (chapter 11): operand values, group sums, the epilogue and output conversion, and the five layer operations. -/

namespace Sys2Proof.Machine

/-- Elements of a tensor row rounded up to whole MX blocks, and the pitch of a row: packed elements, the scale bytes of an MX type, padding to
64 bytes (R109, R110, R324; log entry 59 for tensors in slots). -/
def padded (n : Nat) : Nat := alignUp 32 n
def tensorPitch (ty n : Nat) : Nat := alignUp 64 (padded n * tyBits ty / 8 + if isMx ty then padded n / 32 else 0)

/-- The value of a code of an operand type (R106, R108, R306); FP8 operands enter with scale 1. -/
def operandVal (ty scale code : Nat) : FVal :=
  if isMx ty then mxValue (ty - 0x20) scale code
  else match laneTy ty with
    | some ⟨_, .flt f⟩ => f.decode code
    | _ => .nan

/-- The values of one row of a tensor read at an address: element codes, then scales. -/
def rowVals (rd : Nat → Nat → Bytes) (base ty n : Nat) : List FVal :=
  let w := tyBits ty
  let bits := leNat (rd base (padded n * w / 8))
  let scales := if isMx ty then rd (base + padded n * w / 8) (padded n / 32) else []
  (List.range n).map fun i => operandVal ty ((scales.getD (i / 32) 127#8).toNat) (unpackBits w bits i)

/-- The streamed rows of a tensor slot and their validity bits: a bitmap of one bit per padded element follows the rows where the slot has
room for it, and without it every element is valid (log entry 59). -/
structure SlotView where
  mem  : Tab Byte
  off  : Nat
  len  : Nat
def State.slotView (s : State) (k n : Nat) : SlotView :=
  match s.slotRec k n with
  | some r => { mem := s.cstore k, off := r.off, len := r.len }
  | none => { mem := [], off := 0, len := 0 }
def SlotView.bitmapAt (v : SlotView) (ty n rows : Nat) : Option Nat :=
  let at_ := alignUp 64 (rows * tensorPitch ty n)
  if at_ + rows * padded n / 8 ≤ v.len then some (v.off + at_) else none
def SlotView.row (v : SlotView) (ty n i : Nat) : List FVal := rowVals (readBytes v.mem) (v.off + i * tensorPitch ty n) ty n
def SlotView.valid (v : SlotView) (ty n rows i : Nat) : List Bool :=
  match v.bitmapAt ty n rows with
  | some a => let b := leNat (readBytes v.mem (a + i * padded n / 8) (padded n / 8)); (List.range n).map fun e => bitOf b e
  | none => List.replicate n true

/-- The exact sum of the products of one group of at most 32 elements (R307, R309). -/
def groupSum (xs : List (FVal × FVal)) : FVal × Nat :=
  let ps := xs.map fun p => fMul p.1 p.2
  let both := ps.any (fun p => p.1 == .inf false) && ps.any fun p => p.1 == .inf true
  let fl := Nat.lor (orFlags (ps.map fun p => p.2)) (if both then flagINV else 0)
  if both || ps.any fun p => p.1 == .nan then (.nan, fl)
  else match ps with
    | [] => (.fin false 0 1, 0)
    | p :: r => (r.foldl (fun a q => (fAdd 0 a q.1).1) p.1, fl)

/-- An FP32 addition of an exact value with one RNE rounding: code and flags; Millstone raises only INV and OF (R307, R309). -/
def accAdd (acc : Nat) (x : FVal × Nat) : Nat × Nat :=
  let r := fAdd 0 (fp32.decode acc) x.1
  let q := fp32.encode 0 r.1
  (q.1, Nat.land (flagINV + flagOF) (Nat.lor x.2 (Nat.lor r.2 q.2)))

/-- The dot product of two rows in ascending groups of 32 (R307). -/
def dot (a b : List FVal) : Nat × Nat :=
  (groups32 (a.length / 32 + 1) (a.zip b)).foldl (fun r g => let q := accAdd r.1 (groupSum g); (q.1, Nat.lor r.2 q.2)) (0, 0)

/-- FP32 product and sum with one rounding. -/
def mul32 (a b : Nat) : Nat × Nat :=
  let r := fMul (fp32.decode a) (fp32.decode b)
  let q := fp32.encode 0 r.1
  (q.1, Nat.land (flagINV + flagOF) (Nat.lor r.2 q.2))
def add32 (a b : Nat) : Nat × Nat := accAdd a (fp32.decode b, 0)

/-- The epilogue of R311 on one accumulator: bias, OUT_SCALE, RELU, residual. A NaN stays NaN under RELU, as R311 says (log entry 61). -/
def epilogue (scale : Nat) (relu : Bool) (bias resid : Option Nat) (a : Nat × Nat) : Nat × Nat :=
  let r1 := match bias with | some b => add32 a.1 b | none => (a.1, 0)
  let r2 := mul32 r1.1 scale
  let v3 := if relu then (if fp32.isNan r2.1 then fp32.nanCode else if bitOf r2.1 31 then 0 else r2.1) else r2.1
  let r4 := match resid with | some b => add32 v3 b | none => (v3, 0)
  (r4.1, orFlags [a.2, r1.2, r2.2, r4.2])

/-- The draw of R312 for element `lane` of block `issue` of a row slot. An output that is not MX has one block, number 0: its lanes count the row's
elements (DEDUCED, log entry 135). -/
def State.layerDraw (s : State) (ty : Nat) (j : TaskRec) (row issue lane : Nat) : Nat :=
  let st := s.stream j.stream
  let b := j.batch.getD 0
  srDraw st.seed (st.epochOf b) j.stream b row (if isMx ty then issue % 2 ^ 19 else 0) lane

/-- Output conversion of a row of FP32 codes (R312): element codes, scale bytes, flags. -/
def convertRow (ty rnd : Nat) (draw : Nat → Nat → Nat) (xs : List Nat) : List Nat × List Nat × Nat :=
  if isMx ty then
    let bl := ((groups32 (xs.length / 32 + 1) xs).zipIdx).map fun g =>
      qmxBlock (ty - 0x20) rnd (fun l => draw g.2 l) ((g.1 ++ List.replicate (32 - g.1.length) 0).map fp32.decode)
    ((bl.flatMap fun q => q.2.1).take xs.length, bl.map fun q => q.1, if bl.any fun q => q.2.2 then flagINV else 0)
  else match laneTy ty with
    | some ⟨4, .flt _⟩ => (xs, [], 0)
    | some ⟨_, .flt f⟩ =>
      let rs := (xs.zipIdx).map fun p => match fp32.decode p.1 with
        | .fin neg n d => f.round rnd false (draw 0 p.2) neg n d
        | v => f.encode rnd v
      (rs.map fun r => r.1, [], Nat.land (flagINV + flagOF) (orFlags (rs.map fun r => r.2)))
    | _ => (xs.map fun _ => 0, [], 0)

/-- The bytes of an output row. -/
def rowBytes (ty n : Nat) (codes scales : List Nat) : Bytes :=
  let w := tyBits ty
  leBytes (padded n * w / 8) (packBits w codes) ++ if isMx ty then scales.flatMap fun x => leBytes 1 x else []

/-- One output row of a layer: FP32 results, or none where every element is invalid. -/
abbrev OutRow := Option (List Nat)

/-- Writes the output rows of a layer and its validity bits, and raises the conversion flags; invalid elements hold fill values (R310, R312).
`slotOf` is the batch row slot of a layer row, which names the draw; `holes` are the invalid elements of a layer row, as a mask. -/
def State.putTensor (s : State) (k slot ty n rnd : Nat) (r : TaskRec) (slotOf holes : Nat → Nat) (rows : List (OutRow × Nat)) : State × Nat :=
  match s.slotRec k slot with
  | none => (s, 0)
  | some sr =>
    let v : SlotView := { mem := [], off := sr.off, len := sr.len }
    let bm := v.bitmapAt ty n rows.length
    let res := (rows.zipIdx).map fun p =>
      let c := convertRow ty rnd (fun i l => s.layerDraw ty r (slotOf p.2) i l) (p.1.1.getD (List.replicate n 0))
      (p.2, p.1.1.isSome, c, p.1.2)
    let m := res.foldl (fun m x =>
      let m1 := writeBytes m (sr.off + x.1 * tensorPitch ty n) ((rowBytes ty n x.2.2.1.1 x.2.2.1.2.1).take (sr.len - x.1 * tensorPitch ty n))
      match bm with
      | some a => writeBytes m1 (a + x.1 * padded n / 8) (leBytes (padded n / 8) (if x.2.1 then Nat.xor (2 ^ n - 1) (holes x.1) else 0))
      | none => m1) (s.cstore k)
    (s.modStore k fun _ => m, orFlags (res.map fun x => Nat.lor x.2.2.2 (if x.2.1 then x.2.2.1.2.2 else 0)))

/-- The void reason of a layer's row (local number and row slot): that of the batch's row slot, in a table stage that of the row in IN_SLOT (R310). -/
def State.layerReason (s : State) (k : Nat) (r : TaskRec) (l : LayerRec) (p : Nat × Nat) : Nat :=
  match r.batch with
  | some b => s.voidOf r.stream (some b) p.2
  | none => match s.work.graph.bind fun g => (g.tpl r.tpl).map fun t => (g, t) with
    | some (g, t) => s.stageReason g k t [l.inSlot] p.1
    | none => 0

/-- Notes which rows of a layer's output hold a valid element (R310, R544). -/
def State.noteRows (s : State) (k : Nat) (r : TaskRec) (l : LayerRec) (n : Nat) (rows : List (OutRow × Nat)) : State :=
  s.mark r.stream r.batch k l.out ((rows.zipIdx).map fun p =>
    { at_ := tensorPitch l.outTy n * p.2, len := tensorPitch l.outTy n, valid := p.1.1.isSome, pad := false })

/-- The void reasons of a layer's rows go on with its output in a table stage (R117, R310). -/
def State.passVoids (s : State) (k : Nat) (r : TaskRec) (l : LayerRec) (reasons : List Nat) : State :=
  if r.batch.isSome then s
  else s.modWork fun w => { w with slotVoids := tset [] (256 * k + l.out) ((reasons.zipIdx).foldl (fun t p => if p.1 == 0 then t else tset 0 p.2 p.1 t) []) w.slotVoids }

/-- K elements per tile and cycles per streamed row of a type (R306). -/
def tileK (ty : Nat) : Nat := if 0x22 ≤ ty ∧ ty ≤ 0x24 then 256 else 128
def rowCycles (ty : Nat) : Nat := if ty == 0x10 || ty == 0x11 then 4 else 1
def layerKt (l : LayerRec) : Nat := min (tileK l.aTy) (tileK l.bTy)
def layerC (l : LayerRec) : Nat := max (rowCycles l.aTy) (rowCycles l.bTy)

/-- Ends a layer: registers, flags and their event (R309, MLS_FLAG_EVT_EN). -/
def State.endLayer (s : State) (k slot : Nat) (t : Tpl) (flags macs cycles : Nat) : State :=
  let q := (s.units k).mls
  let up := Nat.land (Nat.land flags (Nat.xor (Nat.lor q.arith flags) q.arith)) q.flagEn
  let s1 := ((s.modMls k fun q => { q with arith := Nat.lor q.arith flags, macs := (q.macs + macs) % 2 ^ 64, busyCycles := (q.busyCycles + cycles) % 2 ^ 64,
                                           layer := t.layer, kernel := t.kernel }).unitEnd k slot 0).layerEnded
  if up != 0 then s1.postEvent (0x4C0 + k) else s1

/-- A running layer of operation `op`: its task record and layer record; none while the power controller withholds issue (R28, R520). -/
def State.layerJob (s : State) (k slot op : Nat) : Option (Graph × Tpl × TaskRec × LayerRec) :=
  match s.work.graph with
  | none => none
  | some g =>
    let r := (s.disp k).task slot
    if r.state != .running || r.ended || !s.clusterIn k || s.err.state == 2 || s.isFenced 2 k || !s.unitWorks k 0 || s.pwr.gating then none
    else match g.tpl r.tpl with
      | none => none
      | some t => if t.kind != 2 then none else match g.layer t.kernel t.layer with
        | some l => if l.op == op then some (g, t, r, l) else none
        | none => none

/-- ACT, BIAS, RESID and RND of a layer. -/
def LayerRec.relu (l : LayerRec) : Bool := l.epi % 4 == 1
def LayerRec.bias (l : LayerRec) : Bool := bitOf l.epi 2
def LayerRec.resid (l : LayerRec) : Bool := bitOf l.epi 3
def LayerRec.rnd (l : LayerRec) : Nat := bitsOf l.epi 7 5

/-- The residual rows: FP32 where the slot has room for FP32 rows, else the layer's OUT_TYPE (log entry 59); an invalid element enters as +0. -/
def SlotView.residRow (v : SlotView) (l : LayerRec) (rows i : Nat) : List Nat :=
  let ty := if rows * tensorPitch 0x12 l.n ≤ v.len then 0x12 else l.outTy
  ((v.row ty l.n i).zip (v.valid ty l.n rows i)).map fun p => if p.2 then (fp32.encode 0 p.1).1 else 0

/-- `m` elements of a streamed row, from element `o`, with invalid ones as +0; none where every one of them is invalid (R310). -/
def SlotView.streamedAt (v : SlotView) (ty n rows i o m : Nat) : Option (List FVal) :=
  let ok := ((v.valid ty n rows i).drop o).take m
  if ok.any id then some (((((v.row ty n i).drop o).take m).zip ok).map fun p => if p.2 then p.1 else .fin false 0 1) else none

/-- A streamed row as a whole. -/
def SlotView.streamed (v : SlotView) (ty n rows i : Nat) : Option (List FVal) := v.streamedAt ty n rows i 0 n

/-- GEMM (R307 to R312, R324, R326). -/
def execGemm (k : Fin 16) (slot : Fin 4096) (rs : Rows) (s : State) : Host.Outcome State Fault Refusal :=
  .next (match s.layerJob k.val slot.val 1 with
    | none => s
    | some (g, t, r, l) =>
      let m := rs.count * max 1 rs.per
      let slotOf := fun i => rs.first + i / max 1 rs.per
      let w := g.sect 8
      let rd := fun a n => (w.drop a).take n
      let cols := (List.range l.n).map fun c => rowVals rd (l.wOff + c * tensorPitch l.bTy l.kk) l.bTy l.kk
      let av := s.slotView k.val l.inSlot
      let xv := s.slotView k.val l.aux
      let rows : List (OutRow × Nat) := (List.range m).map fun i =>
        if s.layerReason k.val r l (i / max 1 rs.per, slotOf i) != 0 then (none, 0)
        else match av.streamed l.aTy l.kk m i with
          | none => (none, 0)
          | some a =>
            let res := if l.resid then xv.residRow l m i else []
            let os := (cols.zipIdx).map fun c => epilogue l.scale l.relu (if l.bias then some (fieldAt w (l.bOff + 4 * c.2) 4) else none)
              (if l.resid then some (res.getD c.2 0) else none) (dot a c.1)
            (some (os.map fun o => o.1), orFlags (os.map fun o => o.2))
      let p := s.putTensor k.val l.out l.outTy l.n l.rnd r slotOf (fun _ => 0) rows
      let reasons := (rowList rs).map (s.layerReason k.val r l)
      let tiles := ceilDiv l.kk (layerKt l) * ceilDiv l.n 128
      ((p.1.passVoids k.val r l reasons).noteRows k.val r l l.n rows).endLayer k.val slot.val t p.2 (tiles * m * layerKt l * 128) (tiles * max (m * layerC l) 128 + 256))

/-- The lane of a batch row slot (R275). -/
def State.laneOfSlot (s : State) (g : Graph) (row : Nat) : Option Nat := s.lanesIn[row % max 1 g.cfg.intake]?

/-- What an embedding bag's row comes to (R316): a void reason, or the pooled FP32 row (none: null), with counts of dropped entries, mismatch
and empty bag. -/
structure BagRow where
  void_ : Nat
  out   : OutRow
  dropped : Nat
  mismatch : Bool
  empty : Bool
  used  : Nat
  /-- Its indices were resolved. -/
  asked : Bool
  /-- Flags that its arithmetic raised (R309). -/
  flags : Nat
  deriving DecidableEq, Repr

/-- Pools the dequantised, weighted rows of a bag (R314): 0 SUM, 1 MEAN, 2 MAX; each element with the flags of its additions. -/
def pool (mode n : Nat) (xs : List (List Nat)) : List (Nat × Nat) :=
  (List.range n).map fun e =>
    let vs := xs.map fun x => x.getD e 0
    let f : LTy := ⟨4, .flt fp32⟩
    if mode == 2 then (vs.tail.foldl (fun a b => laneMinMax f true a b) (vs.headD 0), 0)
    else
      let sum := vs.tail.foldl (fun (a : Nat × Nat) b => let q := add32 a.1 b; (q.1, Nat.lor a.2 q.2)) (vs.headD 0, 0)
      if mode == 1 then ((fp32.encode 0 (fDiv (fp32.decode sum.1) (.fin false xs.length 1)).1).1, sum.2) else sum

/-- A table element as FP32, with the flags of DQMX (R150, R309, R314). -/
def deq32 (v : FVal) : Nat × Nat :=
  let r := fp32.encode 0 v
  (r.1, Nat.land (flagINV + flagOF) r.2)

/-- A weighted element: the dequantised one times its weight, with the flags of both (R314). -/
def weigh (v : FVal) (w : Nat) : Nat × Nat :=
  let x := deq32 v
  let y := mul32 x.1 w
  (y.1, Nat.lor x.2 y.2)

/-- One bag (R314 to R316). `emb` gives a table row's values, none where a read fails. -/
def bagRow (l : LayerRec) (tableRows : Nat) (idx : Cell) (wts : Option Cell) (emb : Nat → Option (List FVal)) : BagRow :=
  let base : BagRow := { void_ := 0, out := none, dropped := 0, mismatch := false, empty := false, used := 0, asked := false, flags := 0 }
  if !idx.valid then base
  else if l.maxBag < idx.elems.length then { base with void_ := vrOverLimit }
  else if wts.any fun w => w.valid && w.elems.length != idx.elems.length then { base with void_ := vrCorrupt, mismatch := true }
  else
    let mode := bitsOf l.mode 3 2
    let ws := match wts with | some w => if w.valid then w.elems else idx.elems.map fun _ => 0x3F800000 | none => idx.elems.map fun _ => 0x3F800000
    let res := (idx.elems.zip ws).map fun p => (resolveIndex mode tableRows (timeOf l.aTy { valid := true, bits := p.1 }), p.2)
    if mode == 0 && res.any fun x => x.1.2 then { base with void_ := vrIndex, asked := true }
    else
      let live := res.filterMap fun x => x.1.1.map fun row => (row, x.2)
      let drop := res.length - live.length
      if live.isEmpty then { base with out := some (List.replicate l.kk 0), dropped := drop, empty := true, asked := true }
      else match live.mapM fun x => (emb x.1).map fun vs => vs.map fun v => weigh v x.2 with
        | some rows =>
          let q := pool (l.mode % 4) l.kk (rows.map fun vs => vs.map fun v => v.1)
          { base with out := some (q.map fun v => v.1), dropped := drop, used := live.length, asked := true
                      flags := orFlags (orFlags (q.map fun v => v.2) :: rows.map fun vs => orFlags (vs.map fun v => v.2)) }
        | none => { base with void_ := vrSourceError, dropped := drop, asked := true }

/-- The parameter-free column at the start of a tensor slot, NULLABLE (log entry 59). -/
def slotCol (slot ty param : Nat) : ColW := { slot := slot, ty := ty, nullable := true, last := false, desc := false, tbl := false, param := param, off := 0 }

/-- EMBED_BAG (R312, R314 to R316, R326). -/
def execEmbedBag (k : Fin 16) (slot : Fin 4096) (rs : Rows) (e : BusEnv) (s : State) : Host.Outcome State Fault Refusal :=
  let s := s.env e
  .next (match s.layerJob k.val slot.val 2 with
    | none => s
    | some (g, t, r, l) =>
      let pitch := tensorPitch l.bTy l.kk
      let tbl := s.table l.table
      let byTable := bitOf l.mode 5
      if byTable && s.waitsBus tbl.extents then s
      else
      let nRows := if byTable then (tbl.extents.map fun x => x.len).sum / pitch else l.n
      let w := g.sect 8
      let emb := fun i => if byTable then (extRead (s.peek e) tbl.extents (pitch * i) pitch).map fun bs => rowVals (fun a n => (bs.drop a).take n) 0 l.bTy l.kk
        else some (rowVals (fun a n => (w.drop a).take n) (l.wOff + i * pitch) l.bTy l.kk)
      let cellAt := fun i => s.slotCell k.val (slotCol l.inSlot 0x42 l.aTy) i
      let bags := (rowList rs).map fun p =>
        if s.layerReason k.val r l p != 0 then (p, ({ void_ := 0, out := none, dropped := 0, mismatch := false, empty := false, used := 0, asked := false, flags := 0 } : BagRow))
        else (p, bagRow l nRows (cellAt p.1) (if bitOf l.mode 4 then some (s.slotCell k.val (slotCol l.aux 0x42 0x12) p.1) else none) emb)
      let live := bags.filter fun b => b.2.asked
      let idxs := live.flatMap fun b => (cellAt b.1.1).elems
      let entries := ((rowList rs).map fun p => (cellAt p.1).elems.length).sum
      let res := idxs.map fun x => resolveIndex (bitsOf l.mode 3 2) nRows (timeOf l.aTy { valid := true, bits := x })
      let win := res.foldl (fun a x => a.add pitch x.1.toList) ({} : Window)
      let ps := if byTable then win.log.reverse.flatMap fun i => extPieces tbl.extents (pitch * i) pitch else []
      if s.poisonedIn ps then s.readPieces ps
      else
      let s1 := (s.modGth k.val fun q => { q with
        oor := sat32 q.oor (res.filter fun x => x.2).length, windowSplit := sat32 q.windowSplit win.splits
        rowsRead := (q.rowsRead + win.log.length) % 2 ^ 64, coalesced := (q.coalesced + win.served) % 2 ^ 64 }).modMls k.val fun q => { q with
        bagDropped := sat32 q.bagDropped (bags.map fun b => b.2.dropped).sum
        bagMismatch := sat32 q.bagMismatch (bags.filter fun b => b.2.mismatch).length
        emptyBag := sat32 q.emptyBag (bags.filter fun b => b.2.empty).length }
      let s2 := bags.foldl (fun (u : State) b => match r.batch with
        | some n =>
          if b.2.void_ == 0 then u
          else
            let u1 := u.markVoid r.stream n b.1.2 b.2.void_
            match if b.2.void_ == vrOverLimit then s.laneOfSlot g b.1.2 else none with
            | some i => u1.modLane i fun x => { x with voidLimit := sat32 x.voidLimit 1 }
            | none => u1
        | none => u) s1
      let s3 := s2.readPieces ps
      let rows : List (OutRow × Nat) := bags.map fun b => (if b.2.void_ == 0 then b.2.out else none, b.2.flags)
      let reasons := bags.map fun b => if b.2.void_ == 0 then s.layerReason k.val r l b.1 else b.2.void_
      let p := s3.putTensor k.val l.out l.outTy l.kk l.rnd r (fun i => rs.first + i) (fun _ => 0) rows
      ((p.1.passVoids k.val r l reasons).noteRows k.val r l l.kk rows).endLayer k.val slot.val t p.2 ((bags.map fun b => b.2.used).sum * l.kk) (ceilDiv (entries * pitch) 256 + 64))

/-- INTERACT (R317): the pairwise dot products of each row's vectors, in ascending i and then j; the stationary copy of a vector carries no
validity (R310). -/
def execInteract (k : Fin 16) (slot : Fin 4096) (rs : Rows) (s : State) : Host.Outcome State Fault Refusal :=
  .next (match s.layerJob k.val slot.val 3 with
    | none => s
    | some (_, t, r, l) =>
      let av := s.slotView k.val l.inSlot
      let total := rs.count * l.n
      let diag := bitOf l.mode 0
      let pairs := (List.range l.n).flatMap fun i => (List.range (if diag then i + 1 else i)).map fun c => (i, c)
      let rows : List (OutRow × Nat) := (rowList rs).map fun p =>
        if s.layerReason k.val r l p != 0 then (none, 0)
        else
          let vec := (List.range l.n).map fun f => av.streamed l.aTy l.kk total (p.1 * l.n + f)
          if vec.all fun v => v.isNone then (none, 0)
          else
            let vs := vec.map fun v => v.getD (List.replicate l.kk (.fin false 0 1))
            let os := pairs.map fun q => epilogue l.scale l.relu none none (dot (vs.getD q.1 []) (av.row l.aTy l.kk (p.1 * l.n + q.2)))
            (some (os.map fun o => o.1), orFlags (os.map fun o => o.2))
      let p := s.putTensor k.val l.out l.outTy pairs.length l.rnd r (fun i => rs.first + i) (fun _ => 0) rows
      let reasons := (rowList rs).map (s.layerReason k.val r l)
      let tiles := ceilDiv l.kk (layerKt l)
      ((p.1.passVoids k.val r l reasons).noteRows k.val r l pairs.length rows).endLayer k.val slot.val t p.2 (rs.count * tiles * l.n * layerKt l * 128) (rs.count * tiles * max (l.n * layerC l) 16 + 256))

/-- ATTN_SCORE (R318): per head, scaled dot products of queries and keys; scores past the row's length are −∞. -/
def execAttnScore (k : Fin 16) (slot : Fin 4096) (rs : Rows) (s : State) : Host.Outcome State Fault Refusal :=
  .next (match s.layerJob k.val slot.val 4 with
    | none => s
    | some (_, t, r, l) =>
      let width := l.heads * l.kk
      let total := rs.count * l.n
      let qv := s.slotView k.val l.inSlot
      let kv := s.slotView k.val l.in2
      let lenOf := fun i => s.slotCell k.val (slotCol l.aux 0x07 0) i
      let head := fun (vs : List FVal) h => (vs.drop (h * l.kk)).take l.kk
      let rows : List (OutRow × Nat) := (rowList rs).flatMap fun p =>
        (List.range l.heads).flatMap fun h => (List.range l.n).map fun i =>
          if s.layerReason k.val r l p != 0 || !(lenOf p.1).valid then (none, 0)
          else match qv.streamedAt l.aTy width total (p.1 * l.n + i) (h * l.kk) l.kk with
            | none => (none, 0)
            | some q =>
              let os := (List.range l.n).map fun c =>
                if (lenOf p.1).bits ≤ c then (fp32.infCode true, 0)
                else
                  let d := dot q (head (kv.row l.bTy width (p.1 * l.n + c)) h)
                  let x := mul32 d.1 l.scale
                  (x.1, Nat.lor d.2 x.2)
              (some (os.map fun o => o.1), orFlags (os.map fun o => o.2))
      let empty := ((rowList rs).filter fun p => s.layerReason k.val r l p == 0 && (lenOf p.1).valid && (lenOf p.1).bits == 0).length
      let p := s.putTensor k.val l.out l.outTy l.n l.rnd r (fun i => rs.first + i / max 1 (l.heads * l.n)) (fun _ => 0) rows
      let reasons := (rowList rs).map (s.layerReason k.val r l)
      let tiles := ceilDiv l.kk (layerKt l) * ceilDiv l.n 128
      (((p.1.passVoids k.val r l reasons).noteRows k.val r l l.n rows).modMls k.val fun q => { q with emptyAttn := sat32 q.emptyAttn empty }).endLayer k.val slot.val t p.2
        (rs.count * l.heads * tiles * l.n * layerKt l * 128) (rs.count * l.heads * tiles * max (l.n * layerC l) 128 + 256))

/-- ATTN_VALUE (R313): per head, probabilities times values; the heads of a position lie side by side. A head whose probabilities are all invalid
gives invalid elements (R310). -/
def execAttnValue (k : Fin 16) (slot : Fin 4096) (rs : Rows) (s : State) : Host.Outcome State Fault Refusal :=
  .next (match s.layerJob k.val slot.val 5 with
    | none => s
    | some (_, t, r, l) =>
      let width := l.heads * l.kk
      let pv := s.slotView k.val l.inSlot
      let vv := s.slotView k.val l.in2
      let probs := rs.count * l.heads * l.n
      let prob := fun (p i h : Nat) => pv.streamed l.aTy l.n probs ((p * l.heads + h) * l.n + i)
      let holes := fun x => ((List.range l.heads).filter fun h => (prob (x / max 1 l.n) (x % max 1 l.n) h).isNone).foldl (fun a h => a + (2 ^ l.kk - 1) * 2 ^ (h * l.kk)) 0
      let rows : List (OutRow × Nat) := (rowList rs).flatMap fun p => (List.range l.n).map fun i =>
        let ps := (List.range l.heads).map (prob p.1 i)
        if s.layerReason k.val r l p != 0 || ps.all fun x => x.isNone then (none, 0)
        else
          let vals := (List.range l.n).map fun c => vv.row l.bTy width (p.1 * l.n + c)
          let os := (ps.zipIdx).flatMap fun ph => (List.range l.kk).map fun e =>
            match ph.1 with
            | some a => epilogue l.scale l.relu none none (dot a (vals.map fun (v : List FVal) => v.getD (ph.2 * l.kk + e) (.fin false 0 1)))
            | none => (0, 0)
          (some (os.map fun o => o.1), orFlags (os.map fun o => o.2))
      let p := s.putTensor k.val l.out l.outTy width l.rnd r (fun i => rs.first + i / max 1 l.n) holes rows
      let reasons := (rowList rs).map (s.layerReason k.val r l)
      let tiles := ceilDiv l.n (layerKt l) * ceilDiv l.kk 128
      ((p.1.passVoids k.val r l reasons).noteRows k.val r l width rows).endLayer k.val slot.val t p.2 (rs.count * l.heads * tiles * l.n * layerKt l * 128) (rs.count * l.heads * tiles * max (l.n * layerC l) 128 + 256))

end Sys2Proof.Machine
end

