-- ==== Sys2Proof/Machine/LoadMisc.lean ====
section
/-! DEFINITION. LOAD_GRAPH: the checks of output descriptors (R116), intake records (R269), dictionaries (R286), declarations of tokens and
images (R288, R297), kernels (R325) and Sage images (R264). -/

namespace Sys2Proof.Machine

/-- One byte string meets one of a region's. -/
def meets (s n : Nat) (b : Nat × Nat × Nat × Nat) : Bool :=
  n != 0 && b.2.2.1 != 0 &&
  (if b.2.1 == 0 || b.2.2.2 ≤ 1 then b.2.2.2 != 0 && overlaps (s, n) (b.1, b.2.2.1)
  else
    let lo := if b.1 + b.2.2.1 ≤ s then (s - b.1 - b.2.2.1) / b.2.1 + 1 else 0
    decide (b.1 < s + n) && decide (lo ≤ min (b.2.2.2 - 1) ((s + n - 1 - b.1) / b.2.1)))

/-- Two regions share a byte. -/
def regionsMeet (a b : Nat × Nat × Nat × Nat) : Bool := (List.range a.2.2.2).any fun i => meets (a.1 + i * a.2.1) a.2.2.1 b

/-- TYPE, RANK and DIMS as KIND requires (R116). -/
def OutRec.shapeOk (r t : OutRec) : Bool :=
  match r.kind with
  | 0 => ((laneTy r.ty).isSome || isMx r.ty) && decide (1 ≤ r.rank) && decide (r.rank ≤ 4) && (r.dims.take r.rank).all (· != 0) &&
      (r.dims.drop r.rank).all (· == 0)
  | 1 => r.ty == 3 && r.rank == 1 && r.dims == [1, 0, 0, 0]
  | 2 => r.ty == 0 && r.rank == 0 && r.dims == [0, 0, 0, 0] && r.pitch == 0
  | _ => r.ty == 3 && r.rank == 1 && r.dims == [r.rowBytes t, 0, 0, 0]

/-- Section 0x0009 (R116). `rows` gives a stream's BATCH_ROWS. -/
def outsChk (g : Graph) (rows : Nat → Nat) : Chk :=
  let b := g.sect 9
  let rs := g.outs
  let ref := fun r : OutRec => (rs[r.ref]?).getD r
  chks [range (fieldAt b 0 4) 1 4096, zero (fieldAt b 4 12), badIf (decide (b.length < 16 + 64 * fieldAt b 0 4)),
    chkAll (recs b 16 64 (fieldAt b 0 4)) fun x => zero (fieldAt x 0x2A 22),
    chkAll rs fun r => chks [multiple r.off 64, range r.stream 0 63, range r.kind 0 3, badIf (decide (g.streams ≤ r.stream)),
      badIf (decide (r.kind ≤ 3) && !r.shapeOk (ref r)), badIf (r.kind != 2 && decide (r.pitch < r.rowBytes (ref r))),
      if r.kind == 2 || r.kind == 3 then
        badIf (!((rs[r.ref]?).any fun t => t.kind == 0 && t.stream == r.stream && (r.kind == 2 || isMx t.ty)))
      else zero r.ref],
    chkAll (List.range g.streams) fun n => badIf ((rs.filter fun r => r.stream == n && r.kind == 1).length != 1),
    chkAll rs.zipIdx fun (p : OutRec × Nat) => badIf ((rs.drop (p.2 + 1)).any fun q =>
      q.stream == p.1.stream && regionsMeet (p.1.region (ref p.1) (rows p.1.stream)) (q.region (ref q) (rows q.stream)))]

/-- One budget slot (R269): marked or not by its class's flag. -/
def budgetChk (b : Bytes) (marked : Bool) : Chk :=
  chks [zero (fieldAt b 5 3), badIf ((fieldAt b 0 4 != 0) != marked), if fieldAt b 4 1 == 0 then {} else range (fieldAt b 4 1) 2 64]

/-- One stream intake record (R269). -/
def intakeChk (b : Bytes) : Chk :=
  let r := parseIntake b
  chks [range r.stream 0 63, range r.mode 0 2, zero (r.flags / 8), if r.mode == 2 then range r.window 64 16777216 else range r.window 0 0,
    range r.footer 8 67108864, range r.group 1 1048576, range r.pageComp 1 268435456, range r.pageUncomp 1 268435456,
    range r.value 0 16777216, range r.list 0 65536, range r.record 1 16777216, range r.dict 1 16777216, range r.imgW 1 16384,
    range r.imgH 1 16384, range r.imgPix 1 67108864, zero (fieldAt b 0x30 16), budgetChk (b.drop 0x40) (bitOf r.flags 1),
    budgetChk (b.drop 0x50) (bitOf r.flags 2), zero (fieldAt b 0x60 32)]

/-- Section 0x0005: every stream below STREAM_COUNT has exactly one record (R269). -/
def intakesChk (g : Graph) : Chk :=
  let b := g.sect 5
  chks [range (fieldAt b 0 4) 1 64, zero (fieldAt b 4 12), badIf (decide (b.length < 16 + 128 * fieldAt b 0 4)),
    chkAll (recs b 16 128 (fieldAt b 0 4)) intakeChk, badIf (!distinct (g.intakes.map fun r => r.stream)),
    badIf (!((List.range g.streams).all fun n => g.intakes.any fun r => r.stream == n))]

/-- One dictionary of a directory length (R285, R286). -/
def dictChk (d : Bytes) (len : Nat) : Chk :=
  let n := fieldAt d 0 4
  let m := fieldAt d 4 4
  let es := recs d 64 8 n
  let token := fun r : Bytes => ((d.drop (64 + 8 * n)).drop (bitsOf (fieldAt r 0 8) 57 32)).take (bitsOf (fieldAt r 0 8) 63 58 + 1)
  chks [range n 1 1048576, range m 1 67108864, range (fieldAt d 8 4) 0 16776960, zero (fieldAt d 12 52), badIf (len != 64 + 8 * n + m),
    chkAll es fun r => chks [zero (fieldAt r 3 1), badIf (decide (m < bitsOf (fieldAt r 0 8) 57 32 + bitsOf (fieldAt r 0 8) 63 58 + 1))],
    badIf ((es.zip (es.drop 1)).any fun p => decide (0 ≤ cmpBytes (token p.1) (token p.2)))]

/-- Section 0x0006. -/
def dictsChk (b : Bytes) : Chk := chks [dirChk b 8, chkAll (dirOf b) fun d => dictChk (dirItem b d) d.2]

/-- A TOKENISE declaration (R288). -/
def tokChk (dicts : Nat) (d : TokDecl) : Chk :=
  let n := b2n d.bos.isSome + b2n d.eos.isSome
  chks [limIf (decide (dicts ≤ d.dict)), range d.unit 0 1, range d.pre 0 7, range d.trunc 0 2, range d.form 0 1, range (d.bos.getD 0) 0 16777215, range (d.eos.getD 0) 0 16777215, range d.maxTokens (max 1 n) 65536,
    range d.padId 0 16777215]

/-- An IMAGE_PREP declaration (R297). -/
def prepChk (d : PrepDecl) : Chk :=
  let mx := decide (0x20 ≤ d.outTy) && decide (d.outTy ≤ 0x25)
  let chans := if d.colour == 2 then 1 else 3
  chks [range d.outW 1 4096, range d.outH 1 4096, range d.gx 1 16, range d.gy 1 16, limIf (!(d.sup == 1 || d.sup == 2 || d.sup == 4)),
    limIf (d.mesh.any fun m => m.length != 2 * (d.gx + 1) * (d.gy + 1)), limIf (d.lens.any fun m => m.length != 8),
    limIf (d.std.any fun x => match fp32.decode x with | .fin neg n _ => neg || n == 0 | .inf neg => neg | _ => true),
    limIf (!(d.outTy == 0x12 || d.outTy == 0x10 || d.outTy == 0x11 || d.outTy == 3 || mx)),
    limIf ([d.mean, d.std, d.pad].any fun l => l.length != chans), range d.filter 0 2, range d.border 0 1, range d.colour 0 2, range d.layout 0 1,
    limIf (!(d.rnd == 0 || (d.rnd == 5 && (d.outTy == 0x10 || d.outTy == 0x11 || mx))))]

/-- The class of an operand type: 1 8-bit, 2 sub-byte, 3 16-bit, 0 none (R306). -/
def operandClass (t : Nat) : Nat :=
  if t == 0x14 || t == 0x15 || t == 0x20 || t == 0x21 || t == 0x25 then 1
  else if decide (0x22 ≤ t) && decide (t ≤ 0x24) then 2 else if t == 0x10 || t == 0x11 then 3 else 0

/-- Whether a layer takes its stationary operand from section 0x0008. -/
def LayerRec.weighted (l : LayerRec) : Bool := l.op == 1 || (l.op == 2 && !bitOf l.mode 5)

/-- The types of a layer (R306, R313). -/
def layerTypes (l : LayerRec) : Chk :=
  let ca := operandClass l.aTy
  let cb := operandClass l.bTy
  chks [if l.op == 2 then badIf (!(decide (2 ≤ l.aTy) && decide (l.aTy ≤ 9))) else badIf (ca == 0 || (ca == 3) != (cb == 3)),
    badIf (cb == 0), badIf (!(l.outTy == 0x12 || (l.op != 4 && (l.outTy == 0x10 || l.outTy == 0x11 || isMx l.outTy)))),
    badIf (if l.outTy == 0x12 then l.rnd != 0 else decide (5 < l.rnd))]

/-- The dimensions of a layer (R323). -/
def layerDims (l : LayerRec) : Chk :=
  match l.op with
  | 1 => chks [range l.kk 1 65536, range l.n 1 65536]
  | 2 => chks [range l.kk 1 16384, if bitOf l.mode 5 then range l.n 0 0 else range l.n 1 0xFFFFFFFF]
  | 3 => chks [range l.kk 1 1024, range l.n 2 128]
  | _ => chks [range l.kk 32 256, limIf (l.kk % 32 != 0), range l.n 1 512, range l.heads 1 16]

/-- One layer record (R323 to R325). `z` is the length of section 0x0008. -/
def layerChk (z : Nat) (b : Bytes) : Chk :=
  let l := parseLayer b
  let attn := l.op == 4 || l.op == 5
  let wlen := l.n * tensorPitch l.bTy l.kk
  chks [badIf (!(decide (1 ≤ l.op) && decide (l.op ≤ 5))), layerTypes l, layerDims l, range (l.epi % 4) 0 1,
    badIf (l.op != 1 && (l.bias || l.resid)),
    match l.op with
    | 2 => chks [zero (l.mode / 64), range (l.mode % 4) 0 2]
    | 3 => zero (l.mode / 2)
    | _ => zero l.mode,
    if attn then {} else chks [zero l.in2, zero l.heads], if l.resid || (l.op == 2 && bitOf l.mode 4) || l.op == 4 then {} else zero l.aux,
    if l.op == 2 && bitOf l.mode 5 then range l.table 1 4095 else zero l.table, if l.op == 2 then {} else zero (fieldAt b 0x16 2),
    multiple l.wOff 64, multiple l.bOff 64,
    if l.weighted then chks [badIf (l.wLen != wlen), badIf (decide (z < l.wOff + l.wLen))] else chks [zero l.wOff, zero l.wLen],
    if l.bias then badIf (decide (z < l.bOff + 4 * l.n)) else zero l.bOff,
    badIf (match fp32.decode l.scale with | .fin _ n _ => n == 0 | _ => true), zero (fieldAt b 0x34 12)]

/-- Section 0x0003 (R323, R325). -/
def kernelsChk (g : Graph) : Chk :=
  let b := g.sect 3
  chks [dirChk b 1024, chkAll (dirOf b) fun d =>
    let k := dirItem b d
    let n := fieldAt k 0 2
    chks [range n 1 256, zero (fieldAt k 2 14), badIf (d.2 != 16 + 64 * n), chkAll (recs k 16 64 n) (layerChk (g.sect 8).length)]]

/-- Whether a kernel takes a stationary operand or a bias from section 0x0008 (R542). -/
def Graph.usesWeights (g : Graph) : Bool :=
  (dirOf (g.sect 3)).any fun d => let k := dirItem (g.sect 3) d
    ((recs k 16 64 (fieldAt k 0 2)).map parseLayer).any fun l => l.weighted || l.bias

/-- Whether the chain of extension entries from a state comes to its end (R264). -/
def linkEnds (states : Tab Nat) : Nat → Nat → Bool
  | 0, _ => false
  | fuel + 1, x => let l := bitsOf (tget 0 states x) 226 216; l == 0x7FF || linkEnds states fuel l

/-- One automaton state (R258, R264): a successor names a valid state that is entered, EXT_LINK a valid extension entry. -/
def stateChk (states : Tab Nat) (r : Bytes) : Chk :=
  let v := fieldAt r 16 32
  let valid := fun x => bitOf (tget 0 states x) 69
  let ext := fun x => bitOf (tget 0 states x) 68
  let n := bitsOf v 99 96
  let link := bitsOf v 226 216
  chks [zero (fieldAt r 2 14), zero (bitsOf v 79 70), zero (bitsOf v 127 100), zero (v / 2 ^ 227), range n 0 8, range (fieldAt r 0 2) 0 2047,
    badIf ((List.range (min n 8)).any fun i => let x := bitsOf v (138 + 11 * i) (128 + 11 * i); !valid x || ext x),
    badIf (link != 0x7FF && !(valid link && ext link)), badIf (!linkEnds states 2049 (fieldAt r 0 2))]

/-- One Sage image of a directory length (R263, R264). -/
def sageChk (b : Bytes) (len : Nat) : Chk :=
  let h := parseSage b
  let rs := sageRecs b
  chks [range h.mode 1 2, limIf (!(if h.mode == 2 then h.width == 2 else h.width == 1 || h.width == 2 || h.width == 4)), zero (fieldAt b 3 1),
    zero (fieldAt b 8 56), if h.mode == 2 then range h.masks 0 0 else range h.masks 1 16, range h.entries 0 (4096 / max 1 h.width),
    badIf (len != h.first + h.recLen * h.entries), badIf (!distinct (rs.map fun r => fieldAt r 0 2)),
    if h.mode == 2 then
      chks [chkAll (List.range 256) fun i => range (fieldAt b (64 + i) 1) 0 63, chkAll rs (stateChk (sageStates b))]
    else
      chks [badIf (h.masks != 0 && ((b.drop 64).take 64).any fun x => x != 0xFF#8), chkAll rs fun r =>
        chks [range (fieldAt r 0 2) 0 (4096 / max 1 h.width - 1), zero (fieldAt r 3 1 / 2), zero (fieldAt r 4 4)]]]

/-- Section 0x0007. -/
def sagesChk (b : Bytes) : Chk := chks [dirChk b 128, chkAll (dirOf b) fun d => sageChk (dirItem b d) d.2]

end Sys2Proof.Machine
end

