-- ==== Sys2Proof/Machine/Open.lean ====
section
/-! DEFINITION. OPEN_STREAM: its checks, the output slot ring, the stream's first state, its table stages (R71, R73, R116, R164, R166,
R271, R281, R282, R325, R338, R356). -/

namespace Sys2Proof.Machine

/-- A ring entry (R71): base and space. -/
def parseRing (b : Bytes) : Nat × Space := (fieldAt b 0 8, spaceOf (bitsOf (fieldAt b 8 8) 1 0))

/-- Check 2 of R71 on an entry. -/
def ringBad (s : State) (size : Nat) (b : Bytes) : Bool :=
  let w := fieldAt b 8 8
  w / 4 != 0 || decide (2 ≤ w % 4) || (w % 4 == 1 && !s.hbmOk (fieldAt b 0 8) size)

/-- Whether an output region or a flow of a stream passes the end of its output slots (R116, R356). -/
def outBeyond (g : Graph) (n size : Nat) : Bool :=
  let rows := ((g.cadence n).map fun c => c.rows).getD 0
  let os := g.outs
  (os.any fun r => r.stream == n &&
    (let x := r.region ((os[r.ref]?).getD r) rows
     decide (size < x.1 + (x.2.2.2 - 1) * x.2.1 + x.2.2.1))) ||
  (g.streamFlows n).any fun f => decide (size < f.outOff + f.segs * f.segBytes)

/-- A source that the stream cannot read: its word names no attached table and no output of a table stage (R325, R331; log entry 50), or a
GLOBAL stream of a source of FORMAT 0 to 2 has no landing area (R281, R333; log entry 17). -/
def srcBad (s : State) (g : Graph) (n src : Nat) : Bool :=
  (if bitOf src 12 then !((g.tpl (bitsOf src 31 16)).any Tpl.stage) || src % 4096 != 0 else decide (4096 ≤ src)) ||
    ((g.tablesRead n src).any fun t => !(s.work.tables.any fun p => p.1 == t)) ||
    (!bitOf src 12 && (tget ({} : Table) s.work.tables (src % 4096)).format != 3 && (g.intakeRec n).mode == 1 && (g.area 1 n).isNone)

/-- The tables that a stream reads against its limit set (R271). -/
def srcLimit (s : State) (g : Graph) (n src : Nat) : Bool :=
  let r := g.intakeRec n
  let tab := fun i => tget ({} : Table) s.work.tables i
  (g.tablesRead n src).any fun i => decide (r.footer < (tab i).footer) || decide (r.group < (tab i).group)

/-- The placement entries of the table stages that stream `n` runs on logical cluster `l`, and the flags that reused stages have set there
(R164, R338). -/
def stagePlaces (g : Graph) (l : Nat) (need : List Nat) : List (Nat × Place) :=
  ((g.tables.places.zipIdx).map fun (p : Place × Nat) => (p.2, p.1)).filter fun (p : Nat × Place) => p.2.cluster == l && need.contains p.2.tpl

def stageFlags (g : Graph) (l : Nat) (done : List Nat) : Nat :=
  (stagePlaces g l done).foldl (fun f p => match g.tpl p.2.tpl with
    | some t => Nat.lor f (t.setMask * 2 ^ (64 * t.setGroup))
    | none => f) 0

/-- Whether every cluster has room for the table stages of a stream (log entry 63). -/
def State.stageRoom (s : State) (g : Graph) (need : List Nat) : Bool :=
  (s.clusters.zipIdx).all fun (p : Nat × Nat) =>
    let es := stagePlaces g p.2 need
    es.isEmpty || ((s.disp p.1).freeFrame.isSome && decide (es.length ≤ (s.disp p.1).freeSlots))

/-- Instantiates the table stages of a stream on every cluster, in a frame that it holds until it closes (R338). -/
def State.startStages (s : State) (g : Graph) (n : Nat) (need done : List Nat) : State :=
  let s := s.modWork fun w => { w with built := w.built.filter fun b => !need.contains b.1 }
  (s.clusters.zipIdx).foldl (fun (t : State) (p : Nat × Nat) =>
    let es := stagePlaces g p.2 need
    match es.isEmpty, (t.disp p.1).freeFrame with
    | false, some f => t.modDisp p.1 fun d =>
      let d1 := d.create f n none 0 0 es fun i => ((g.tpl i).map fun y => y.prio).getD 0
      { d1 with frames := tmod {} f (fun x => { x with flags := stageFlags g p.2 done }) d1.frames }
    | _, _ => t) s

/-- The first state of a stream that OPEN_STREAM opens (R74, R282, R358); the registers of its arm slot stay. -/
def Stream.start (st : Stream) (c : Cmd) (slots : List (Nat × Space)) (src rows : Nat) (landing : Bool) : Stream :=
  { ({} : Stream) with
    phase := .opening, anchors := [(c.entry.p 0, 0)], stOrigin := st.stOrigin, stFrom := st.stFrom, armOverrun := st.armOverrun
    armOverruns := st.armOverruns, seed := c.entry.p 1, marks := [(0, c.entry.p 2)], slots := slots, slotBytes := c.entry.p 5
    entry := some c.entry, openSeq := c.seq, src := src, rows := rows, landing := landing }

/-- The registers of Quern that the next OPEN_STREAM clears when it begins (QRN_STATUS, QRN_LIMIT_KEY). -/
def State.clearLimits (s : State) : State :=
  s.modWork fun w => { w with units := w.units.foldl (fun (t : Tab Units) u =>
    tset {} u.1 { u.2 with quern := { u.2.quern with limitHit := false, limitKey := 0 } } t) [] }

/-- The variant that a stream opens under (R55): units lost while no stream was open leave it to be selected anew; with a stream open
the switch of R56 does that (log entry 64). -/
def State.openVariant (s : State) (g : Graph) : Option State :=
  if s.fits g.cfg || s.graphBusy then some s
  else (s.firstFit g).map fun v =>
    (s.modWork fun w => { w with graph := some { g with variant := v, switchDue := false } }).loadBanks g v

/-- The jobs of a stream's earlier life no longer determine what stands in output memory (log entry 88). -/
def State.forgetLaid (s : State) (n : Nat) : State :=
  s.modWork fun w => { w with trc := { w.trc with laid := w.trc.laid.filter fun l => l.stream != n } }

/-- The flows and FLAG instances of a stream that opens begin again at batch 0 (R351, R355; log entry 98). -/
def State.freshFlows (s : State) (g : Graph) (n : Nat) : State :=
  let s1 := (g.streamFlows n).foldl (fun t f => t.modFlow f.flow fun _ => {}) s
  (g.tables.weirs.filter fun w => w.action == 0 && w.stream == n).foldl (fun t r =>
    t.modWeir r.inst fun w => { w with gen := 0, arrived := [], heldQ := [], closed := [] }) s1

/-- OPEN_STREAM past its ring: the remaining checks, then its table stages. -/
def State.openWith (s : State) (g : Graph) (c : Cmd) (ring : List Bytes) (src : Nat) : State :=
  let n := c.entry.stream
  if outBeyond g n (c.entry.p 5) then s.finish c.seq stLimit 0
  else if srcBad s g n src then s.finish c.seq stBadDescriptor 0
  else if srcLimit s g n src then s.finish c.seq stLimit 0
  else
    let t := tget ({} : Table) s.work.tables (src % 4096)
    let land := !bitOf src 12 && t.format != 3 && (g.intakeRec n).mode == 1
    let done := s.stagesDone g n
    let need := (g.stagesFor n src).filter fun i => !done.contains i
    let s1 := s.modStream n fun st => st.start c (ring.map parseRing) src (if bitOf src 12 then 0 else t.rows) land
    (((((s1.forgetLaid n).freshFlows g n).startStages g n need done).freshInput n).stageDone n 0)

/-- OPEN_STREAM (R71, R73, R164, R166). It waits while the block may not read the bus (R102). RESULT beside ST_CONFIG_SHORT is
the shortfall (log entry 115). -/
def execOpenStream (seq : Nat) (e : BusEnv) (src : Nat) (s : State) : Host.Outcome State Fault Refusal :=
  let s := s.env e
  .next (if !s.inD0 then s else s.begin seq opOpen fun c s1 =>
    let n := c.entry.stream
    match s1.work.graph with
    | none => s1.finish seq stBadDescriptor 0
    | some g =>
      if g.streams ≤ n then s1.finish seq stBadDescriptor 0
      else if (s1.stream n).inUse then s1.finish seq stBusy 0
      else
        let s2 := s1.clearLimits
        match s2.busRead e (c.entry.p 3) (16 * c.entry.p 4) with
        | none => s2.finish seq stBusError 0
        | some b =>
          let ring := recs b 0 16 (c.entry.p 4)
          if ring.any (ringBad s2 (c.entry.p 5)) then s2.finish seq stBadDescriptor 0
          else if ring.any fun r => fieldAt r 0 8 % 4096 != 0 then s2.finish seq stMisaligned 0
          else match s2.openVariant g with
          | none => s2.finish seq stConfigShort (s2.shortfall g)
          | some s3 =>
            let h := s3.work.graph.getD g
            let done := s3.stagesDone h n
            if s3.stageRoom h ((h.stagesFor n src).filter fun i => !done.contains i) then s3.openWith h c ring src else s)

end Sys2Proof.Machine
end

