-- ==== Sys2Proof/Machine/Errors.lean ====
section
/-! DEFINITION. Detected errors, self-test, decision, removal and resume (chapter 16: R465 to R489). -/

namespace Sys2Proof.Machine

/-- How many units of a kind there are (R466). -/
def unitCount (kind : Nat) : Nat :=
  match kind with
  | 1 => 512 | 2 => 16 | 3 => 16 | 4 => 16 | 5 => 16 | 6 => 16 | 7 => 128 | 8 => 16 | 9 => 16 | 10 => 256 | 11 => 8 | 12 => 8
  | 13 => 1 | 14 => 3 | 15 => 3 | 16 => 16 | 17 => 16 | 18 => 4 | 19 => 1 | 20 => 1 | _ => 0

/-- The cluster of a unit of kinds 1 to 9. -/
def unitCluster (kind index : Nat) : Nat := if kind == 1 then index / 32 else if kind == 7 then index / 8 else index

/-- Whether a unit is in service (R489). -/
def State.unitServes (s : State) (kind index : Nat) : Bool :=
  decide (index < unitCount kind) &&
  match kind with
  | 1 => s.coreIn index
  | 9 => true
  | 10 => bitOf s.present.pchans index
  | 12 => s.laneIn index
  | 14 => !s.err.out.contains (14, index)
  | 15 => !s.err.out.contains (15, index)
  | 16 => bitOf s.present.pcie index
  | 17 => bitOf s.present.rolog index
  | n => if n ≤ 8 then s.clusterIn (unitCluster n index) else true

/-- DETECTED_ERROR: a unit in service reports an error of cause 1 to 8 (R465 to R467, R474 to R476, R479). That of an event controller copy comes
from a vote, which is counted (R421). -/
def execDetectedError (kind : Fin 21) (index : Nat) (cause : Fin 9) (detail : Nat) (t : Nat) (s : State) :
    Host.Outcome State Fault Refusal :=
  let s := s.at_ t
  .next (if cause.val == 0 || !s.unitServes kind.val index then s
    else (if kind.val == 15 then s.voteFixed else s).detectError kind.val index cause.val detail false)

/-- Clusters that keep at least one core (R534). -/
def coveredClusters (cores clusters : Nat) : Nat :=
  (List.range 16).foldl (fun m k => withBit m k (bitOf clusters k && (List.range 32).any fun n => bitOf cores (32 * k + n))) 0

/-- The configuration present: the fit units whose domains are on; a cluster needs a core (R516, R533, R534). Rolog lanes are
those in service of the ports whose domains are on. -/
def State.refit (s : State) : State :=
  let f := s.fit
  let on := (List.range 16).foldl (fun m k => withBit m k (bitOf f.clusters k && !s.domOff k)) 0
  let cores := (List.range 512).foldl (fun m c => withBit m c (bitOf f.cores c && bitOf on (c / 32))) 0
  { s with present := { cores := cores, clusters := coveredClusters cores on, pchans := f.pchans
                        lanes := (List.range 8).foldl (fun m i => withBit m i (bitOf f.lanes i && !s.domOff (16 + i))) 0
                        pcie := f.pcie
                        rolog := (List.range 16).foldl (fun m i => withBit m i (bitOf s.present.rolog i && bitOf f.rolog i && !s.domOff (24 + i / 8))) 0 } }

/-- The grade of the configuration present: the first whose every figure is met, with all lanes in service (R484). -/
def State.gradeNow (s : State) : Nat :=
  let meets := fun g : Nat × Nat × Nat × Nat × Nat =>
    decide (g.1 ≤ s.clusterCount) && decide (g.2.1 ≤ s.coreCount) && decide (g.2.2.1 ≤ s.pchCount) &&
      decide (g.2.2.2.1 ≤ s.pcieCount) && decide (g.2.2.2.2 ≤ s.rologCount) && s.laneCount == 8
  (([(16, 512, 256, 16, 16), (16, 496, 248, 16, 8), (15, 464, 240, 8, 8), (14, 432, 224, 8, 8)] :
    List (Nat × Nat × Nat × Nat × Nat)).findIdx? meets).getD 7

/-- Reports a change of grade (R488); 7 until boot is complete. -/
def State.checkGrade (s : State) : State :=
  let g := if s.glb.ready then s.gradeNow else 7
  if s.err.grade == g then s else (s.modErr fun e => { e with grade := g }).postEvent 0x53C

/-- What the configuration present and its followers become after a change of units: grade (R488), variant (R56). -/
def State.refitted (s : State) : State := s.refit.checkGrade.checkVariant

/-- Takes units out of the fit set. -/
def fitWithout (f : Present) (kind index : Nat) : Present :=
  if kind == 1 then { f with cores := withBit f.cores index false }
  else if kind ≤ 8 then { f with clusters := withBit f.clusters (unitCluster kind index) false }
  else if kind == 10 then { f with pchans := withBit f.pchans index false }
  else if kind == 12 then { f with lanes := withBit f.lanes index false }
  else if kind == 16 then { f with pcie := withBit f.pcie index false }
  else if kind == 17 then { f with rolog := withBit f.rolog index false }
  else f

/-- The widest link width of at most `n` lanes (R425). -/
def widestLink (n : Nat) : Nat := ([16, 8, 4, 2, 1].find? fun w => decide (w ≤ n)).getD 0

/-- The lanes of a port in the configuration present: the first `lanes` fit ones (R30, R445, R533). -/
def withPort (mask fit p lanes : Nat) : Nat :=
  let use := ((List.range 8).filter fun i => bitOf fit (8 * p + i)).take lanes
  (List.range 8).foldl (fun m i => withBit m (8 * p + i) (use.contains i)) mask

/-- A removed PCIe lane: a link that is up retrains at the widest width that the lanes in service allow; without one it goes down, which
PCIE_LINK_DOWN reports (R425, R432, R472). -/
def State.pcieLost (s : State) : State :=
  let w := widestLink ((List.range 16).filter fun i => bitOf s.fit.pcie i).length
  if !s.pci.linkUp || w == 0 then s
  else (s.modPci fun p => { p with width := min p.width w, retrains := sat32 p.retrains 1 }).postEvent 0x620

/-- A removed Rolog lane: its port, where up, retrains at 4 lanes, its latency measured anew (a free value), or goes down (R445, R453, R472). -/
def State.rologLost (s : State) (p : Nat) : State :=
  let have_ := ((List.range 8).filter fun i => bitOf s.fit.rolog (8 * p + i)).length
  let was := if p == 0 then s.pair.lanes0 else s.pair.lanes1
  let n := if 4 ≤ have_ then min was 4 else 0
  let up := withBit s.pair.portsUp p (n != 0)
  let s1 := { s.modPair fun x => { x with
      portsUp := up, lanes0 := if p == 0 then n else x.lanes0, lanes1 := if p == 1 then n else x.lanes1
      latency := if n == 0 then x.latency else Config.draw s.free } with
    free := s.free + 1, present := { s.present with rolog := withPort s.present.rolog s.fit.rolog p n } }
  if up == s.pair.portsUp then s1 else s1.postEvent 0x628

/-- A unit leaves service: its removal is recorded and posted, and the configuration and a link that loses a lane follow (R472, R481,
R488). -/
def State.removeUnit (s : State) (kind index : Nat) : State :=
  let s1 := (s.modErr fun e => { e with
    removed := if e.removed.contains (kind, index) then e.removed else e.removed ++ [(kind, index)]
    duplexTrc := e.duplexTrc || kind == 14, out := if kind == 14 || kind == 15 then (kind, index) :: e.out else e.out }).postEvent 0x53B
  let s2 := if kind == 15 then s1.modEvc fun v => { v with duplex := true } else s1
  let s3 := if kind == 16 then s2.modPci fun p => { p with lanes := withBit p.lanes index false } else s2
  let s4 := { s3 with fit := fitWithout s3.fit kind index }
  (if kind == 16 then s4.pcieLost else if kind == 17 then s4.rologLost (index / 8) else s4).refitted

/-- Transients of a unit detected within 3,600 s of uptime before the instant `up` of another detection (R468). -/
def State.transientsOf (s : State) (kind index up : Nat) : Nat :=
  (s.err.history.filter fun h => h.1 == kind && h.2.1 == index && decide (up ≤ h.2.2 + 3600000000000)).length

/-- The uptime, in ns, at which a recovery's error was detected. -/
def State.seenAt (s : State) (r : Recovery) : Nat := r.seen - s.mgt.bootAt

/-- Kinds whose contents a fault loses (R469). -/
def losesContents (kind : Nat) : Bool := (decide (1 ≤ kind) && decide (kind ≤ 6)) || kind == 8 || kind == 12

/-- Bytes whose contents are lost are undefined: each listed byte takes a free value (log entry 21). -/
def scramble (g : Nat) (m : Tab Byte) : Tab Byte :=
  m.filterMap fun (p : Nat × Byte) => let b := Config.freeByte g p.1; if b = 0 then none else some (p.1, b)

/-- A core whose contents are lost (R469): its store and its engines' registers are undefined, its task is gone, and a Hopper entry whose record
has not begun is filled again. -/
def State.loseCore (s : State) (i : Nat) : State :=
  let again := fun h : Hopper => if h.state == 0 then h else { h with state := 1, got := 0 }
  let s1 := s.modCore i fun c => { c with store := scramble s.free c.store, ctx := none, h0 := again c.h0, h1 := again c.h1 }
  { s1 with free := s.free + 1 }.modWork fun w => { w with engines := w.engines.filter fun (p : Nat × Engine) => p.1 / 32 != i }

/-- The table stages of an opening stream begin again from the first (R471). -/
def State.restageAll (s : State) (n : Nat) : State :=
  match s.work.graph with
  | none => s
  | some g =>
    let done := s.stagesDone g n
    (s.discard n false fun b => b.isNone).2.startStages g n ((g.stagesFor n (s.stream n).src).filter fun i => !done.contains i) done

/-- A dispatcher whose contents are lost (R469): batches that have not begun are instantiated there again, and so are the table stages of which
it held records; begun batches are rerun (R470). -/
def State.loseRecords (s : State) (k : Nat) : State :=
  (List.range 64).foldl (fun t n =>
    if (t.stream n).phase == .opening && (t.disp k).slots.any fun (p : Nat × TaskRec) => p.2.stream == n && p.2.batch.isNone then t.restageAll n
    else
      ((t.discardOn k fun r => r.stream == n && r.batch.isSome).2.modDisp k fun d => d.freeFrames n fun b => b.isSome).modStream n fun st =>
        { st with batches := st.batches.map fun b => if b.begun then b else { b with insts := withBit b.insts k false } }) s

/-- The contents of a unit are lost (R469): a core's, the store of a cluster, a dispatcher's records, or a lane's buffers. Units of kinds 3 to 6
hold nothing between two commands of the model: the records of their tasks begin again with their batches (R470) and stages (R471). -/
def State.loseContents (s : State) (kind index : Nat) : State :=
  match kind with
  | 1 => s.loseCore index
  | 2 => { s with free := s.free + 1 }.modStore index (scramble s.free)
  | 8 => s.loseRecords index
  | 12 => s.modLane index fun l => { l with
      cur := none, todo := [], images := [], image := {}, text := {}, fetchSlot := 0, raw := [], made := [], passed := [], windows := []
      shuffled := [] }
  | _ => s

/-- Begins the records of a table stage of stream `n` again on a dispatcher (R471): they are discarded and instantiated anew in the stream's
frame, in WAITING (R327, R338); flags that they had consumed are set again (`bits`). -/
def Disp.restartStage (d : Disp) (n tpl prio bits : Nat) (es : List (Nat × Place)) : Disp :=
  let mine := d.slots.filter fun (p : Nat × TaskRec) => p.2.stream == n && p.2.batch.isNone && p.2.tpl == tpl
  let d1 := d.drop (mine.map fun p => p.1)
  match d1.frameOf n none with
  | none => d1
  | some f =>
    let d2 := { d1 with frames := tmod {} f (fun x => { x with flags := Nat.lor x.flags bits }) d1.frames }
    (es.zip (d2.pickSlots es.length)).foldl (fun e x =>
      e.modRec x.2 fun _ => { state := .waiting, tpl := tpl, place := x.1.1, stream := n, frame := f, prio := prio }) d2

/-- A table stage of an opening stream runs again from its start, on every cluster (R471): what it built is gone, and its records, Hopper
entries and programs begin again. -/
def State.restartStage (s : State) (n tpl : Nat) : State :=
  match s.work.graph with
  | none => s
  | some g =>
    let s0 := s.modWork fun w => { w with built := w.built.filter fun b => b.1 != tpl }
    (s.clusters.zipIdx).foldl (fun (t : State) (p : Nat × Nat) =>
      let hit := ((t.disp p.1).slots.filter fun (x : Nat × TaskRec) => x.2.stream == n && x.2.batch.isNone && x.2.tpl == tpl).map fun x => x.1
      let t1 := (List.range 32).foldl (fun u c => u.modCore (32 * p.1 + c) fun k =>
        { (k.dropHoppers hit 0).2 with ctx := if k.ctx.any fun x => hit.contains x.slot then none else k.ctx }) t
      t1.modDisp p.1 fun d => d.restartStage n tpl (((g.tpl tpl).map fun y => y.prio).getD 0) (((g.tpl tpl).map fun y => if y.consume then y.waitMask * 2 ^ (64 * y.waitGroup) else 0).getD 0) (stagePlaces g p.2 [tpl])) s0

/-- The table stages that run on a cluster, by stream and template. -/
def Disp.stagesOn (d : Disp) : List (Nat × Nat) :=
  ((d.slots.filter fun (p : Nat × TaskRec) => p.2.batch.isNone && (p.2.state == .running || p.2.state == .prefetched)).map
    fun p => (p.2.stream, p.2.tpl)).eraseDups

/-- The table stages running on a cluster run again from their start (R471). -/
def State.restartStages (s : State) (k : Nat) : State := (s.disp k).stagesOn.foldl (fun t p => t.restartStage p.1 p.2) s

/-- The table stages of an opening stream whose output holds an HBM address run again (R471). -/
def State.restartWriters (s : State) (a : Nat) : State :=
  match s.work.graph with
  | none => s
  | some g => ((List.range 64).filter fun n => (s.stream n).phase == .opening).foldl (fun t n =>
      ((g.stagesFor n (s.stream n).src).filter fun i => [2, 3, 7].any fun kind =>
        (g.area kind i).any fun r => decide (r.base ≤ a) && decide (a < r.base + r.len)).foldl (fun u i => u.restartStage n i) t) s

/-- Poisoned words of a tested row, kept except for them (R469): whether each is still poisoned, or holds an undefined value, is free (log entry
102). -/
def State.rowTested (s : State) (a : Nat) : State :=
  ((s.mem.ecc.filter fun w => w.2 == .poisoned && s.rowOf (8 * w.1) == s.rowOf a).map fun w => w.1).foldl (fun t w =>
    let c := t.choose 2
    if c.1 == 0 then c.2
    else { c.2 with free := c.2.free + 1 }.modMem fun m =>
      m.writeHbm (8 * w) ((List.range 8).map fun i => Config.freeByte c.2.free i)) s

/-- The self-test of a Sage bank rewrites its match rows from the stored copies that read back (R469). -/
def State.bankTested (s : State) (index : Nat) : State :=
  s.modBank (index / 8) (index % 8) fun b => { b with entries := b.entries.map fun (e : Nat × SageEntry) =>
    (e.1, if e.2.ecc.any fun x => 2 ≤ x.2 then e.2 else e.2.rewrite) }

/-- What the self-test of a unit whose contents are kept does to them, and its rerun of a damaged table stage (R469, R471). -/
def State.tested (s : State) (r : Recovery) (outcome : Nat) : State :=
  let a := s.errAddr r.num
  if r.kind == 7 then s.bankTested r.index
  else if r.kind == 10 && (s.rowOf a).1 == r.index then
    (if outcome == 2 || outcome == 3 then s else s.rowTested a).restartWriters a
  else s

/-- Streams with a begun, unreleased batch, as the mask of an error record. -/
def State.begunStreams (s : State) : Nat :=
  (List.range 64).foldl (fun m n => withBit m n ((s.stream n).batches.any fun b => b.begun)) 0

/-- The rewind of R470, counted in the record and in ERR_RERUN_BATCHES. -/
def State.rewind (s : State) (num kind index : Nat) : State :=
  let mask := s.begunStreams
  let s1 := if kind ≤ 8 then s.restartStages (unitCluster kind index) else s
  let r := s1.rerunAll
  (r.2.modErr fun e => { e with rerun := sat32 e.rerun r.1 }).setOutcome num fun x => { x with rerun := r.1, streams := mask }

/-- The kinds whose lasting fault fails the device (R472). -/
def fatalKind (kind : Nat) : Bool := [9, 11, 12, 13, 18, 19, 20].contains kind

/-- The decision on a tested unit (R468, R469, R472): outcome code. `spare` says whether a failing row has a spare. -/
def State.outcomeOf (s : State) (r : Recovery) (pass spare : Bool) : Nat :=
  if pass then
    (if r.injected then 7
     else if 3 ≤ s.transientsOf r.kind r.index (s.seenAt r) + 1 then (if fatalKind r.kind then 6 else if r.kind == 10 && spare then 5 else 3)
     else if r.kind == 14 || r.kind == 15 then 4 else 1)
  else if fatalKind r.kind then 6 else if r.kind == 10 && spare then 5 else 2

/-- What a lasting outcome removes (R472). A pseudo-channel without a spare row leaves service at the next cold boot. -/
def State.applyLasting (s : State) (r : Recovery) (outcome : Nat) : State :=
  if outcome != 2 && outcome != 3 then s
  else if r.kind == 10 then
    s.modErr fun e => { e with reboot := true, removed := if e.removed.contains (10, r.index) then e.removed else e.removed ++ [(10, r.index)] }
  else s.removeUnit r.kind r.index

/-- SELF_TEST_COMPLETE: the unit under recovery has been tested in `testUs`; decision and rewind follow (R468 to R472, R477,
R480). -/
def execSelfTestComplete (pass spare : Bool) (testUs t : Nat) (s : State) : Host.Outcome State Fault Refusal :=
  let s := s.at_ t
  .next (match s.err.recovering with
    | [] => s
    | r :: rest =>
      if r.decided then s
      else
        let o := s.outcomeOf r pass spare
        let counts := pass && !r.injected
        let n := s.transientsOf r.kind r.index (s.seenAt r) + b2n counts
        let s1 := s.modErr fun e => { e with
          history := if counts then e.history ++ [(r.kind, r.index, s.seenAt r)] else e.history
          fenced := e.fenced.filter fun f => f != (r.kind, r.index)
          recovering := { r with decided := true } :: rest }
        if o == 6 then (s1.setOutcome r.num fun x => { x with transients := min 255 n, testUs := testUs }).enterFailed r.num
        else
          let s2 := s1.setOutcome r.num fun x => { x with outcome := o, transients := min 255 n, testUs := testUs }
          let s3 := if losesContents r.kind then (s2.loseContents r.kind r.index).rewind r.num r.kind r.index else s2.tested r o
          s3.applyLasting r o)

/-- RECOVERY_RESUME: Tailrace resumes, the notice is written, and STATE returns to SERVICE, or the next recovery begins (R477 to
R479). -/
def execRecoveryResume (t : Nat) (s : State) : Host.Outcome State Fault Refusal :=
  let s := s.at_ t
  .next (match s.err.recovering with
    | [] => s
    | r :: rest =>
      if !r.decided then s
      else
        let us := (s.now - r.start) / 1000
        let s1 := s.modErr fun e => { e with
          log := e.log.map fun x => if x.num == r.num then { x with pauseUs := us } else x
          flash := e.flash.map fun x => if x.num == r.num then { x with pauseUs := us } else x
          maxPause := max e.maxPause us, state := if rest.isEmpty then 0 else 1
          recovering := match rest with | x :: xs => { x with start := s.now } :: xs | [] => [] }
        let s2 := if rest.isEmpty then s1.modWork fun w => { w with trc := { w.trc with paused := false } } else s1
        s2.notice stFaultRecovered r.num)

/-- A write of ERR_INJECT with GO: the named unit reports an injected error; dropped unless STATE is SERVICE and the unit is in
service (R489). -/
def State.errInject (s : State) (m kind index : Nat) : State :=
  let s1 := s.modErr fun e => { e with injKind := kind, injIndex := index }
  if s.err.state != 0 || !s.unitServes kind index then s1.reject 0xF02C m
  else s1.detectError kind index 9 0 true

/-- ERR_INJECT. -/
def execErrInject (m : Master) (kind : Fin 32) (index : Fin 65536) (t : Nat) (s : State) : Host.Outcome State Fault Refusal :=
  .next ((s.at_ t).errInject m.val kind.val index.val)

/-- A write of 1 to ERR_MAPOUT_CLEAR: the removal records are erased; dropped while a graph is loaded (R481). -/
def State.mapoutClear (s : State) (m : Nat) : State :=
  if s.work.graph.isSome then s.reject 0xF028 m
  else s.modErr fun e => { e with removed := [], reboot := false }

/-- ERR_MAPOUT_CLEAR. -/
def execErrMapoutClear (m : Master) (s : State) : Host.Outcome State Fault Refusal := .next (s.mapoutClear m.val)

end Sys2Proof.Machine
end

