-- ==== Sys2Proof/Machine/HostQueues.lean ====
section
/-! DEFINITION. The commands of attach, doorbells, acceptance, the journal, completion and interrupts (chapter 03; R535,
R540). -/

namespace Sys2Proof.Machine

/-- A range negotiated under R61: none where the two do not overlap. -/
def agree (mine offer : Nat) : Option (Nat × Nat) :=
  let lo := max (mine % 65536) (offer % 65536)
  let hi := min (mine / 65536 % 65536) (offer / 65536 % 65536)
  if lo ≤ hi then some (lo, hi) else none

/-- The ranges of the QZ7720 (chapter 19). -/
def hqfSupport : Nat := 0x01010100
def qxgSupport : Nat := 0x01020100
def rlpSupport : Nat := 0x01010100
def mgiSupport : Nat := 0x01000100

/-- Whether any queue pair is enabled. -/
def State.anyQp (s : State) : Bool := s.qps.any fun p => p.2.enable

/-- GLB_STATUS.ATTACHED. -/
def State.attached (s : State) : Bool := s.glb.done && s.glb.status == stOk

/-- A write of 1 to GLB_ATTACH.GO: by the host, with no queue pair enabled (R61, R63, R535). -/
def State.attachGo (s : State) (m : Nat) : State :=
  if m != 0 || s.anyQp then s.reject 0x0D8 m
  else s.modGlb fun g => { g with attachBusy := true, goHqf := g.hqfOffer, goQxg := g.qxgOffer, done := false }

/-- GLB_ATTACH_GO. -/
def execGlbAttachGo (m : Master) (s : State) : Host.Outcome State Fault Refusal := .next (s.attachGo m.val)

/-- ATTACH_AGREEMENT_COMPLETE: the agreements of the last GO are written, then DONE (R61, R535). -/
def execAttachAgreementComplete (t : Nat) (s : State) : Host.Outcome State Fault Refusal :=
  let s := s.at_ t
  .next (if s.glb.attachBusy then
    (match agree hqfSupport s.glb.goHqf, agree qxgSupport s.glb.goQxg with
    | some h, some q => s.modGlb fun g => { g with
        attachBusy := false, done := true, status := stOk, hqfAgreed := h.2, qxgAgreed := q.1 + q.2 * 65536 }
    | _, _ => s.modGlb fun g => { g with attachBusy := false, done := true, status := stVersion, hqfAgreed := 0, qxgAgreed := 0 })
  else s)

/-- The enabled queue pairs of a doorbell group. -/
def State.groupQps (s : State) (g : Nat) : List Nat := ((List.range 8).map fun j => 8 * g + j).filter fun q => (s.qp q).enable

/-- Whether the module may read doorbells: D0, and no secondary unless SOLO (R102, R450). -/
def State.polls (s : State) : Bool := s.inD0 && !s.shadows && s.glb.ready

/-- DOORBELL_POLL: one 64-byte read of the group's line when its interval has passed (R65, R66). -/
def execDoorbellPoll (g : Fin 8) (t : Nat) (s : State) : Host.Outcome State Fault Refusal :=
  let s := s.at_ t
  let d := s.group g.val
  .next (if s.polls && !(s.groupQps g.val).isEmpty && !d.busy && decide (d.nextPoll ≤ s.now) then
    (s.modGroup g.val fun d => { d with busy := true }).emit (.busRead d.addr.val.toNat 64)
  else s)

/-- A queue pair enters error (R67): no further fetches, and one notice under HQF 1.1. -/
def State.qpError (s : State) (q : Nat) : State :=
  if (s.qp q).err then s
  else
    let s1 := s.modQp q fun x => { x with err := true, errStatus := stBadDescriptor }
    if s1.hqf11 then s1.enqueue q (noticeEntry stBadDescriptor q) 0 0 [] else s1

/-- Takes one queue pair's doorbell fields; answers whether one changed (R66, R67). -/
def State.takeDoorbell (s : State) (q tail head : Nat) : Bool × State :=
  let x := s.qp q
  let changed := x.dbTail != tail || x.dbHead != head
  let s1 := s.modQp q fun x => { x with dbTail := tail, dbHead := head }
  let s2 := if !x.err && (decide (x.sqSize ≤ tail) || decide (x.cqSize ≤ head)) then s1.qpError q else s1
  let s3 := if !(s2.qp q).err then s2.modQp q fun x => { x with sqTail := tail } else s2
  let s4 := if head < x.cqSize then s3.modQp q fun x => { x with cqHead := head } else s3
  (changed, s4)

/-- DOORBELL_READ_COMPLETE: the line returned, or the read failed, which AER reports (R66, R67). -/
def execDoorbellReadComplete (g : Fin 8) (line : Option Bytes) (t : Nat) (s : State) : Host.Outcome State Fault Refusal :=
  let s := s.at_ t
  if !(s.group g.val).busy then .next s
  else
    let r := match line with
      | none => (false, s.emit (.aer 0))
      | some l => (s.groupQps g.val).foldl (fun (a : Bool × State) q =>
          let j := q % 8
          let x := a.2.takeDoorbell q (fieldAt l (4 * j) 2) (fieldAt l (0x20 + 4 * j) 2)
          (a.1 || x.1, x.2)) (false, s)
    .next (r.2.modGroup g.val fun d =>
      let i := if r.1 then 250 else min 50000 (2 * d.interval)
      { d with busy := false, interval := i, nextPoll := r.2.now + i })

/-- Whether a further command may be accepted: journal ready, no journal access waits (R540), room below the retire
point (R87). -/
def State.mayAccept (s : State) : Bool :=
  s.jrn.ready && !s.jrn.stalled && decide (s.jrn.tail - s.jrn.retire < 2 ^ s.jrn.actLog2)

/-- Commands outstanding on a queue pair (R540, QP_OUTSTANDING). -/
def State.outstanding (s : State) (q : Nat) : Nat := (s.cmds.filter fun c => c.qp == q).length

/-- The completion entry of a duplicate (R92). -/
def dupEntry (id head : Nat) (noIrq : Bool) (o : Nat × Nat) : CEntry :=
  { cmdId := id, result := o.2, sqHead := some head, status := stDuplicate, orig := o.1, kind := 0, stream := 0xFF
    flags := 0, noIrq := noIrq, gate := none, ann := 0, due := none, annNum := 0 }

/-- A duplicate is counted and answered, at once or after its original (R91, R92). -/
def State.duplicate (s : State) (q : Nat) (e : SubEntry) (head : Nat) (w : WindowId) : State :=
  let s1 := s.modQp q fun x => { x with dupCount := sat32 x.dupCount 1 }
  match w.outcome with
  | some o => s1.enqueue q (dupEntry e.id head e.noIrq o) 0 0 []
  | none => s1.modQp q fun x => { x with heldDups := x.heldDups ++ [(e.id, head, e.noIrq)] }

/-- Issues the acceptance record of an entry; while the pair mirrors, its ACCEPT goes first (R84, R451, R540). Its id
joins the duplicate window here (R91; DEDUCED, log entry 84). -/
def State.accept (s : State) (q : Nat) (e : SubEntry) (head : Nat) : State :=
  let seq := s.jrn.tail
  let s1 := (s.modJrn fun j => { j with tail := j.tail + 1 }).jIssue (.accept seq)
  let s2 := if s1.mirrors then s1.pairSend 3 (leBytes 8 seq ++ leBytes 1 q ++ leBytes 5 0 ++ leBytes 2 head ++ e.bytes) else s1
  let c : Cmd := { qp := q, seq := seq, entry := e, sqHead := head, pos := 0, phase := .accepting, count := 0, target := none
                   accSeq := if s1.mirrors then s2.pair.txSeq else 0 }
  { (s2.modQp q fun x => { x with window := ({ id := e.id, outcome := none } :: x.window).take 65536 }) with cmds := s2.cmds ++ [c] }

/-- SUBMISSION_ENTRY_ARRIVE: the next entry of a ring arrives in ring order (R84, R91). A fetch that fails changes
nothing; the entry stays in its ring. -/
def execSubmissionEntryArrive (q : Fin 64) (e : BusEnv) (t : Nat) (s : State) : Host.Outcome State Fault Refusal :=
  let s := (s.at_ t).env e
  let x := s.qp q.val
  if !(x.enable && !x.err && x.sqHead != x.sqTail && s.mayAccept && s.polls) then .next s
  else match s.busRead e (x.sqBase.val.toNat + 128 * x.sqHead) 128 with
  | none => .next s
  | some b =>
    let en := parseEntry b
    let head := (x.sqHead + 1) % x.sqSize
    let s1 := s.modQp q.val fun x => { x with sqHead := head }
    .next (match x.window.find? fun w => w.id == en.id with
      | some w => s1.duplicate q.val en head w
      | none => s1.accept q.val en head)

/-- ACCEPTANCE_RECORD_COMPLETE: the acceptance record's write and completion read succeed, or fail and wait (R540). Records
are accepted in sequence order; in a pair the ACCEPT must be acknowledged (R451). A failed device answers
ST_INTERNAL at acceptance (R473). -/
def execAcceptanceRecordComplete (seq : Nat) (ok : Bool) (t : Nat) (s : State) : Host.Outcome State Fault Refusal :=
  let s := s.at_ t
  match s.cmd seq, s.jrn.access (.accept seq) with
  | some c, some a =>
    if !s.pairAcked c.accSeq || !s.writeEnds then .next s
    else if !ok then .next (s.modJrn fun j => j.updAccess (.accept seq) fun a => some (a.fail s.now))
    else if (s.jrn.accesses.any fun a => a.until_.isSome) || (s.cmds.any fun x => decide (x.phase = .accepting) && decide (x.seq < seq)) then .next s
    else
      let s1 := s.modJrn fun j => j.updAccess (.accept seq) fun _ => none
      let s2 := s1.busWrite a.addr (jrnRecord c.entry.id seq s.pos c.qp c.entry.opcode 1 0)
      .next (s2.modCmd seq fun x => { x with
        pos := s.pos, phase := if s.err.state == 2 then .finished stInternal 0 else .accepted }).handedOver
  | _, _ => .next s

/-- JOURNAL_WRITE_RETRY: accesses whose wait has passed are issued again (R540). -/
def execJournalWriteRetry (t : Nat) (s : State) : Host.Outcome State Fault Refusal :=
  let s := s.at_ t
  .next (s.modJrn fun j => { j with
    accesses := j.accesses.map fun a => if a.until_.any fun u => decide (u ≤ s.now) then { a with until_ := none } else a })

/-- The completion entry of a command. -/
def cmdEntry (c : Cmd) (status result : Nat) : CEntry :=
  { cmdId := c.entry.id, result := result, sqHead := some c.sqHead, status := status, orig := 0, kind := 0, stream := 0xFF
    flags := 0, noIrq := c.entry.noIrq, gate := some c.seq, ann := 0, due := none, annNum := 0 }

/-- An accepted command of an unknown opcode begins and fails its first check (R69). -/
def State.beginUnknown (s : State) (seq : Nat) : State :=
  match s.cmd seq with
  | some c => if !(decide (1 ≤ c.entry.opcode) && decide (c.entry.opcode ≤ 12)) && s.mayBegin c then s.finish seq stBadDescriptor 0 else s
  | none => s

/-- A joining secondary that has executed the setup entries sends SYNC_READY (R462). -/
def State.syncReady (s : State) : State :=
  if s.pair.state == .syncing && s.pair.roleNow == 2 && s.pair.syncEnd && !s.pair.readySent &&
      s.cmds.all (fun c => decide (c.seq < setupSeq) || (c.entry.opcode == opRun && decide (c.phase = .executing))) then
    (s.modPair fun x => { x with readySent := true }).pairSend 9 (leBytes 8 0)
  else s

/-- A command completes (R85, R92): its record update is issued, its entry and those of its duplicates are queued behind
the update. A setup entry of SYNC_DATA has neither (R462). -/
def State.complete (s : State) (c : Cmd) (status result : Nat) : State :=
  let s1 := { s with cmds := s.cmds.filter fun x => x.seq != c.seq }
  if setupSeq ≤ c.seq then s1.syncReady.settle
  else
    let e := cmdEntry c status result
    let s2 := (s1.jIssue (.update c.seq status)).enqueue c.qp (if s.shadows then { e with gate := none } else e) c.seq status []
    let dups := (s2.qp c.qp).heldDups.filter fun d => d.1 == c.entry.id
    let s3 := dups.foldl (fun t d => t.enqueue c.qp (dupEntry d.1 d.2.1 d.2.2 (status, result)) 0 0 []) s2
    (s3.modQp c.qp fun x => { x with
      heldDups := x.heldDups.filter fun d => d.1 != c.entry.id
      window := x.window.map fun w => if w.id == c.entry.id && w.outcome.isNone then { w with outcome := some (status, result) } else w }).settle

/-- Whether a command waits for others to complete first: a CANCEL for its target (R94), a CLOSE_STREAM for the RUN commands of its
stream (R76). -/
def State.completesAfter (s : State) (c : Cmd) : Bool :=
  (c.target.any fun x => (s.cmd x).isSome) ||
    (c.entry.opcode == opClose && s.cmds.any fun x =>
      x.entry.opcode == opRun && x.entry.stream == c.entry.stream && (decide (x.seq < c.seq) || x.cut))

/-- COMMAND_COMPLETE (R76, R85, R94). -/
def execCommandComplete (seq t : Nat) (s : State) : Host.Outcome State Fault Refusal :=
  let s := (s.at_ t).beginUnknown seq
  match s.cmd seq with
  | some c =>
    (match c.phase with
    | .finished st r => .next (if s.completesAfter c then s else s.complete c st r)
    | _ => .next s)
  | none => .next s

/-- JOURNAL_UPDATE_COMPLETE: a STATE and FINAL_STATUS update, or the control line (no sequence number), succeeds, or fails
and waits (R85, R86, R540). -/
def execJournalUpdateComplete (seq : Option Nat) (ok : Bool) (t : Nat) (s : State) : Host.Outcome State Fault Refusal :=
  let s := s.at_ t
  let a := s.jrn.accesses.find? fun a => a.until_.isNone && (match a.kind, seq with
    | .update x _, some y => x == y
    | .control, none => true
    | _, _ => false)
  match a with
  | none => .next s
  | some a =>
    if !s.writeEnds then .next s
    else if !ok then .next (s.modJrn fun j => j.updAccess a.kind fun a => some (a.fail s.now))
    else
      match a.kind with
      | .update n f =>
        if (s.qps.any fun p => p.2.queue.any fun e => e.gate == some n && !s.pairAcked e.ann) then .next s
        else
          let s1 := (s.modJrn fun j => j.updAccess a.kind fun _ => none).busWrite a.addr (leBytes 1 2 ++ leBytes 1 f)
          let s2 := { s1 with qps := s1.qps.map fun (p : Nat × Qp) =>
            (p.1, { p.2 with queue := p.2.queue.map fun (e : CEntry) => if e.gate == some n then { e with gate := none } else e }) }
          .next (s2.recordCompleted n).handedOver
      | _ =>
        let s1 := (s.modJrn fun j => j.updAccess a.kind fun _ => none).busWrite a.addr (jrnControl s.jrn.retire s.jrn.actLog2)
        .next (s1.modJrn fun j => { j with sinceCtl := 0, ctlAt := s.now }).handedOver

/-- A batch record has been written: the batch is released, its frames are freed, counts move, and what waited for it
completes (R20, R48, R74, R81, R341, R354). -/
def State.batchWritten (s : State) (n b : Nat) (late : Bool) : State :=
  let st := s.stream n
  let x := st.batch b
  let s1 := s.modStream n fun st => { st with
    released := max (st.released + 1) (b + 1)
    late := if late then sat32 st.late 1 else st.late
    voidRows := st.voidRows + (x.map fun b => b.voids.length).getD 0
    batches := st.batches.filter fun x => x.num != b
    runs := st.runs.map fun r => if (st.runOf b).any fun y => y.seq == r.seq then { r with count := r.count + 1 } else r }
  let s2 := (List.range 16).foldl (fun t k => t.modDisp k fun d => d.freeFrames n fun y => y == some b) s1
  s2.afterRelease n

/-- The status of an entry when it is written: a batch record after its due position is late unless a status before
ST_LATE applies (R48, R80). -/
def CEntry.final (e : CEntry) (pos : Nat) : CEntry :=
  if e.status == stOk && e.due.any fun d => decide (d < pos) then { e with status := stLate } else e

/-- Whether a batch that a takeover records again is finished here, with its outputs written (R458). -/
def State.redone (s : State) (e : CEntry) : Bool :=
  (s.stream e.stream).phase == .closed || ((s.stream e.stream).batch e.result).any fun b => b.recorded

/-- Whether the head of a completion queue may be written: enabled, record updated, announcement acknowledged, slot free
(R68, R85, R452), the bus open (R102, R450, R456), and, of a batch record, every lower batch's record written (R81). An entry that a takeover
writes again has its slot; its batch must be finished here (R458). -/
def State.entryReady (s : State) (q : Nat) (e : CEntry) : Bool :=
  let x := s.qp q
  x.enable && e.gate.isNone && s.pairAcked e.ann && (e.slot.isSome || (x.cqTail + 1) % x.cqSize != x.cqHead) && s.writeOpen && !s.shadows &&
    (e.kind != 1 || decide (e.result ≤ (s.stream e.stream).released) && (e.slot.isNone || s.redone e))

/-- DONE after the write of the entry announced as `n`, where every entry announced before it is written too: it names the last announcement
up to which all are (R447, R452). -/
def State.sendDone (s : State) (n : Nat) : State :=
  let left := s.qps.flatMap fun p => (p.2.queue.filter fun e => e.annNum != 0).map fun e => e.annNum
  let upTo := left.foldl (fun m a => min m (a - 1)) s.pair.annNum
  if n != 0 && decide (n ≤ upTo) && s.mirrors then s.pairSend 5 (leBytes 8 upTo) else s

/-- COMPLETION_ENTRY_WRITE: the oldest waiting entry of a queue pair is written (R66, R68, R79, R98). A notice that waits when HQF 1.0 is
in force is not written (R62). A reserved DMA channel carries the entry (R381). -/
def execCompletionEntryWrite (q : Fin 64) (t : Nat) (s : State) : Host.Outcome State Fault Refusal :=
  let s := s.at_ t
  let x := s.qp q.val
  match x.queue with
  | [] => .next s
  | e0 :: rest =>
    if e0.kind == 2 && !s.hqf11 then .next (s.modQp q.val fun x => { x with queue := rest })
    else if !s.entryReady q.val e0 then .next s
    else
      let e := s.headed q.val (e0.final s.pos)
      let at_ := e.slot.getD (x.cqTail, x.phase)
      let s1 := (s.busWrite (x.cqBase.val.toNat + 32 * at_.1) (e.bytes s.pos (s.shownHead q.val) at_.2)).carried 60 32
      let tail := if e.slot.isSome then x.cqTail else (x.cqTail + 1) % x.cqSize
      let s2 := s1.modQp q.val fun x => { x with
        queue := rest, cqTail := tail, phase := if e.slot.isNone && tail == 0 then !x.phase else x.phase }
      let s3 := s2.modGroup (q.val / 8) fun d => { d with interval := 250, nextPoll := min d.nextPoll (s.now + 250) }
      let s4 := if e.noIrq then s3 else s3.signal q.val
      let s5 := s4.sendDone e.annNum
      .next (if e.kind == 1 then s5.batchWritten e.stream e.result (e.due.any fun d => decide (d < s.pos)) else s5)

/-- MODERATION_TIMER_EXPIRE (R98, R101). -/
def execModerationTimerExpire (q : Fin 64) (t : Nat) (s : State) : Host.Outcome State Fault Refusal :=
  let s := s.at_ t
  let x := s.qp q.val
  .next (if (x.timer.any fun u => decide (u ≤ s.now)) && x.unsig != 0 then s.irqCondition q.val else s)

/-- JOURNAL_GO: base and configuration are adopted; the walk follows (R86, R89). A secondary adopts without reading (R450). Record
accesses under way go on to the place they were issued to, and abandoned commands that have not been reported stay owed (log entry 74). -/
def State.journalGo (s : State) : State :=
  let s1 := s.modJrn fun j => { j with
    actBase := j.base.val.toNat, actLog2 := clampLog 10 20 j.sizeLog2, ready := false, walking := true, scanInvalid := false
    accesses := j.accesses.filter fun a => !(decide (a.kind = .walk) || decide (a.kind = .control)), completed := [], retire := j.tail }
  if s.pair.roleNow == 2 && s.pair.state != .solo then s1.modJrn fun j => { j with ready := true, walking := false }
  else s1.jIssue .walk

def execJournalGo (_m : Master) (t : Nat) (s : State) : Host.Outcome State Fault Refusal := .next (s.at_ t).journalGo

/-- A record of the journal verifies for a sequence number (R89). -/
def recordOk (b : Bytes) (seq : Nat) : Bool := fieldAt b 28 4 == crc32c (b.take 26) && fieldAt b 8 8 == seq

/-- The walk of R89 over at most `fuel` records: the first sequence number past it, and the addresses, numbers and (queue, id) of
its ACCEPTED records. -/
def walk (m : Tab Byte) (base log2 : Nat) : Nat → Nat → Nat × List (Nat × Nat × Nat × Nat)
  | 0, seq => (seq, [])
  | fuel + 1, seq =>
    let a := base + 64 + 32 * (seq % 2 ^ log2)
    let b := readBytes m a 32
    if recordOk b seq then
      let r := walk m base log2 fuel (seq + 1)
      (r.1, if fieldAt b 26 1 == 1 then (a, seq, fieldAt b 24 1, fieldAt b 0 8) :: r.2 else r.2)
    else (seq, [])

/-- The entry of an abandoned command (R89). -/
def abandonedEntry (id : Nat) : CEntry :=
  { cmdId := id, result := 0, sqHead := none, status := stAbandoned, orig := 0, kind := 0, stream := 0xFF, flags := 0
    noIrq := false, gate := none, ann := 0, due := none, annNum := 0 }

/-- A primary that mirrors announces the entries of the records that its walk abandons, each with its record's update, before it writes any
of them (R89, R452): they wait in their queues, and the walk waits for the acknowledgement. -/
def State.announceWalk (s : State) (rs : List (Nat × Nat × Nat × Nat)) : State :=
  let s1 := rs.foldl (fun t r => t.enqueue r.2.2.1 { abandonedEntry r.2.2.2 with gate := some r.2.1 } r.2.1 stAbandoned []) s
  s1.modJrn fun j => j.updAccess .walk fun a => some { a with ann := s1.pair.txSeq }

/-- JOURNAL_WALK_COMPLETE: control line and records read, ACCEPTED records abandoned, the control line written, READY set
(R86, R89). A failing read or write waits under R540; a primary that mirrors announces the updates first (R452). -/
def execJournalWalkComplete (e : BusEnv) (t : Nat) (s : State) : Host.Outcome State Fault Refusal :=
  let s := (s.at_ t).env e
  let j := s.jrn
  match j.access .walk with
  | none => .next s
  | some w =>
    if !s.writeOpen || !s.pairAcked w.ann then .next s
    else if envFails e j.actBase (64 + 32 * 2 ^ 20) then .next (s.modJrn fun j => j.updAccess .walk fun a => some (a.fail s.now))
    else
      let c := readBytes s.mem.bus j.actBase 64
      let log2 := fieldAt c 8 4
      let valid := fieldAt c 60 4 == crc32c (c.take 60) && decide (10 ≤ log2) && decide (log2 ≤ 20)
      let r := if !j.scan then (1, []) else if valid then walk s.mem.bus j.actBase log2 (2 ^ log2) (fieldAt c 0 8) else (1, [])
      if s.mirrors && w.ann == 0 && !r.2.isEmpty then .next (s.announceWalk r.2)
      else
      let s1 := r.2.foldl (fun t x => t.busWrite (x.1 + 0x1A) (leBytes 1 2 ++ leBytes 1 stAbandoned)) s
      let s0 := s1.busWrite j.actBase (jrnControl r.1 j.actLog2)
      let s2 := if w.ann == 0 then s0 else { s0 with qps := s0.qps.map fun (p : Nat × Qp) =>
        (p.1, { p.2 with queue := p.2.queue.map fun (e : CEntry) => if r.2.any fun x => e.gate == some x.2.1 then { e with gate := none } else e }) }
      .next (s2.modJrn fun j => { (j.updAccess .walk fun _ => none) with
        walking := false, ready := true, scanInvalid := j.scan && !valid, tail := r.1, retire := r.1
        abandoned := if j.scan then r.2.length else j.abandoned, owed := if w.ann == 0 then j.owed ++ r.2.map fun x => x.2.2 else j.owed, sinceCtl := 0, ctlAt := s.now })

/-- JOURNAL_CONTROL_LINE_TIMER: at least once per millisecond while the retire point moves (R86). -/
def execJournalControlLineTimer (t : Nat) (s : State) : Host.Outcome State Fault Refusal :=
  let s := s.at_ t
  let j := s.jrn
  .next (if j.sinceCtl != 0 && decide (j.ctlAt + 1000000 ≤ s.now) && !(j.accesses.any fun a => decide (a.kind = .control)) then s.jIssue .control else s)

/-- BAR0 offset of a queue pair's register. -/
def qpOffset (q r : Nat) : Nat := 0x10000 + q * 0x100 + r

/-- QP_ENABLE: dropped unless attached and the journal ready; heads, tails and phase are reset and owed entries of
abandoned commands come first, announced while the pair mirrors (R61, R79, R89, R452, QP_CTL). -/
def State.qpEnable (s : State) (q m : Nat) : State :=
  if (s.qp q).enable then s
  else if !(s.attached && s.jrn.ready) then s.reject (qpOffset q 0) m
  else
    let owed := (s.jrn.owed.filter fun o => o.1 == q).map fun o => abandonedEntry o.2
    let s0 := s.modQp q fun x => { x with
      enable := true, sqHead := 0, sqTail := 0, cqHead := 0, cqTail := 0, dbTail := 0, dbHead := 0, phase := true
      queue := if s.mirrors then x.queue else owed ++ x.queue }
    let s1 := if s.mirrors then owed.foldl (fun t e => t.enqueue q e 0 0 []) s0 else s0
    (s1.modJrn fun j => { j with owed := j.owed.filter fun o => o.1 != q }).modGroup (q / 8) fun d =>
      if (s.groupQps (q / 8)).isEmpty then { d with interval := 250, nextPoll := s.now, busy := false } else d

def execQpEnable (q : Fin 64) (m : Master) (s : State) : Host.Outcome State Fault Refusal := .next (s.qpEnable q.val m.val)

/-- QP_DISABLE: dropped while commands are outstanding; error and window are cleared (R93, QP_CTL, QP_STATUS). -/
def State.qpDisable (s : State) (q m : Nat) : State :=
  if !(s.qp q).enable then s
  else if s.outstanding q != 0 then s.reject (qpOffset q 0) m
  else s.modQp q fun x => { x with enable := false, err := false, errStatus := 0, window := [], heldDups := [] }

def execQpDisable (q : Fin 64) (m : Master) (s : State) : Host.Outcome State Fault Refusal := .next (s.qpDisable q.val m.val)

/-- The batch whose record comes next on a stream (R81). -/
def Stream.nextRecord (st : Stream) : Option Batch := st.batches.find? fun b => !b.recorded

/-- Whether the batches below `b` have all been recorded; a closing stream passes over discarded ones (R76, R81). -/
def Stream.nextInOrder (st : Stream) (b : Nat) : Bool :=
  st.phase == .closing || (st.batches.filter fun x => decide (x.num < b)).length + st.released == b

/-- Whether every flow of a stream has released every segment of batch `b` (R357). -/
def State.flowsDone (s : State) (g : Graph) (n b : Nat) : Bool :=
  (g.streamFlows n).all fun f => decide ((b + 1) * f.segs ≤ (s.flow f.flow).next)

/-- Whether a batch is complete: begun, its intake over, its flows released, none of its records left (R18, R357). -/
def State.batchDone (s : State) (g : Graph) (n : Nat) (b : Batch) : Bool :=
  b.begun && (s.graphLanes g).all (fun i => bitOf b.intakeDone i) && s.flowsDone g n b.num &&
  !((List.range 16).any fun k => (s.disp k).slots.any fun x => x.2.stream == n && x.2.batch == some b.num)

/-- Whether the record of a batch waits in a ring to be written again as the failed primary announced it (R458, R459). -/
def State.reannounces (s : State) (n b : Nat) : Bool :=
  s.qps.any fun p => p.2.queue.any fun e => e.slot.isSome && e.kind == 1 && e.stream == n && e.result == b

/-- BATCH_RECORD_WRITE: the record of a stream's next batch is queued to its RUN's queue pair; in a pair it is announced with
the next sequence of each flow (R20, R21, R80, R81, R357, R452). A batch that a failed primary announced gives no further record: its own is
written, or waits to be written as announced (R454, R459). -/
def execBatchRecordWrite (st : Fin 64) (t : Nat) (s : State) : Host.Outcome State Fault Refusal :=
  let s := s.at_ t
  let x := s.stream st.val
  match s.work.graph, x.nextRecord with
  | some g, some b =>
    if s.err.state != 0 || x.stop.any (fun y => decide (y ≤ b.num)) || !s.batchDone g st.val b ||
        x.batches.any (fun y => decide (y.num < b.num) && !y.recorded) || !x.nextInOrder b.num then .next s
    else if s.pair.doneEarly.contains (st.val, b.num) then
      .next (((s.modBatch st.val b.num fun b => { b with recorded := true }).modPair fun p => { p with
        doneEarly := p.doneEarly.filter fun y => y != (st.val, b.num)
        kept := p.kept.filter fun y => !(y.1 == st.val && y.2.1 == b.num) }).batchWritten st.val b.num false)
    else if s.reannounces st.val b.num then .next (s.modBatch st.val b.num fun b => { b with recorded := true })
    else match (x.runOf b.num).bind fun r => s.cmd r.seq with
    | none => .next s
    | some c =>
      let status := if b.domainOff then stDomainOff else if b.busError then stBusError else stOk
      let e : CEntry := { cmdId := c.entry.id, result := b.num, sqHead := some c.sqHead, status := status, orig := 0, kind := 1
                          stream := st.val, flags := b2n (!b.voids.isEmpty) + 2 * b2n b.breach, noIrq := c.entry.noIrq
                          gate := none, ann := 0, due := some b.due, annNum := 0 }
      let fl := (g.streamFlows st.val).map fun f => (f.flow, (s.flow f.flow).next)
      .next ((s.modBatch st.val b.num fun b => { b with recorded := true }).enqueue c.qp e 0 0 fl)
  | _, _ => .next s

end Sys2Proof.Machine
end

