-- ==== Sys2Proof/Machine/PairLink.lean ====
section
/-! DEFINITION. The Rolog pair link: transport, forming, mirroring, joining (chapter 15: R443 to R454, R461 to R464). -/

namespace Sys2Proof.Machine

/-- A pair message once its CHECK has verified (R445). -/
structure PairMsg where
  ty    : Nat
  flags : Nat
  ack   : Nat
  seq   : Nat
  pl    : Bytes
  deriving DecidableEq, Repr

/-- Reads a message; none where its length or CHECK fails (R445, R446). -/
def parsePair (b : Bytes) : Option PairMsg :=
  let n := fieldAt b 2 2
  if b.length == n + 24 && n % 8 == 0 && decide (n ≤ 4096) && fieldAt b (16 + n) 4 == crc32c (b.take (16 + n)) then
    some { ty := fieldAt b 0 1, flags := fieldAt b 1 1, ack := fieldAt b 4 4, seq := fieldAt b 8 8, pl := (b.drop 16).take n }
  else none

/-- A register of 4 or 8 bytes of one queue pair in CFG_DIGEST: ENABLE, QP_CFG, the submission and completion bases and the
doorbell line, which only the first block of a group holds (R447; field widths log entry 42). -/
def State.digestQp (s : State) (q : Nat) : Bytes :=
  let x := s.qp q
  leBytes 4 (b2n x.enable) ++ leBytes 4 (x.sqLog2 + 16 * x.cqLog2 + 256 * b2n x.noticeEn) ++ leBytes 8 x.sqBase.val.toNat ++
    leBytes 8 x.cqBase.val.toNat ++ leBytes 8 (if q % 8 == 0 then (s.group (q / 8)).addr.val.toNat else 0)

/-- CFG_DIGEST over the registers in ascending order (R447). -/
def State.cfgDigest (s : State) : Nat :=
  crc64 (((List.range 64).flatMap s.digestQp) ++ leBytes 8 s.jrn.base.val.toNat ++ leBytes 4 s.jrn.sizeLog2 ++
    leBytes 8 s.beat.page.val.toNat ++ leBytes 8 s.pair.lease.val.toNat)

/-- Sends a HEARTBEAT, with NAK where a gap was seen (R446, R447). A DETACHED module is silent: its partner loses it (R464; log entry 101). -/
def State.sendHeartbeat (s : State) (nak : Bool) : State :=
  if s.pair.portsUp == 0 || s.pair.state == .detached then s
  else (s.modPair fun x => { x with lastTx := s.now }).emit (.pair (pairMsg 2 (b2n nak) s.pair.rxSeq 0
    (leBytes 8 (encPos s.pos) ++ leBytes 8 s.pair.leaseCount ++ leBytes 8 s.cfgDigest)))

/-- Sends a HELLO (R447, R448). -/
def State.sendHello (s : State) : State :=
  s.pairSend 1 (leBytes 4 s.pair.offer ++ leBytes 1 s.pair.roleNow ++ leBytes 3 0 ++ leBytes 8 s.sec.deviceId ++ leBytes 8 s.cfgDigest)

/-- The full sequence number that an ACK's low 32 bits name, at or below the last one sent. -/
def fullAck (sent low : Nat) : Nat :=
  let d := (sent % 2 ^ 32 + 2 ^ 32 - low % 2 ^ 32) % 2 ^ 32
  sent - d

/-- Sends every unacknowledged message again, oldest first (R446). -/
def State.resendUnacked (s : State) : State :=
  s.pair.unacked.foldl (fun t u => t.emit (.pair (pairMsg u.2.1 0 t.pair.rxSeq u.1 u.2.2))) s

/-- Takes the ACK and the NAK of a message: acknowledged messages are forgotten, and with SYNC_JOIN among them the pair may be complete (R447);
a NAK resends the rest (R446). -/
def State.takeAck (s : State) (m : PairMsg) : State :=
  let a := max s.pair.txAck (fullAck s.pair.txSeq m.ack)
  let s1 := (s.modPair fun x => { x with txAck := a, unacked := x.unacked.filter fun u => decide (a < u.1) }).pairJoined
  if bitOf m.flags 0 then (s1.modPair fun x => { x with retries := sat32 x.retries 1, lastTx := s1.now }).resendUnacked
  else s1

/-- A message of type `ty` arrives on the link. What does not verify is discarded; a copy is discarded; a gap is answered with
NAK; the next one in order is taken and has its effect (R446). -/
def State.pairRx (s : State) (msg : Bytes) (t ty : Nat) (f : PairMsg → State → State) : State :=
  let s0 := s.at_ t
  match parsePair msg with
  | none => s0
  | some m =>
    if m.ty != ty || s0.pair.state == .off || s0.pair.portsUp == 0 then s0
    else
      let s1 := (s0.modPair fun x => { x with lastRx := s0.now }).takeAck m
      let count := fun x : Pair2 => { x with msgs := (x.msgs + 1) % 2 ^ 64 }
      if m.seq == 0 then (if ty == 2 then f m (s1.modPair count) else s1)
      else if m.seq ≤ s1.pair.rxSeq then s1
      else if m.seq != s1.pair.rxSeq + 1 then s1.sendHeartbeat true
      else f m (s1.modPair fun x => { count x with rxSeq := m.seq })

/-- Sets an error bit of RLG_PAIR_STATUS: a bit newly set posts source 0x629 (R432). -/
def State.pairErr (s : State) (was : Bool) (f : Pair2 → Pair2) : State :=
  if was then s else (s.modPair f).postEvent 0x629

/-- A setup entry built by the device. -/
def setupEntry (op stream : Nat) (params : List Nat) : SubEntry :=
  { id := 0, opcode := op, flags := 0, stream := stream, rsvd := 0, addr0 := 0, len0 := 0
    params := params ++ List.replicate (12 - params.length) 0 }

/-- A SYNC_DATA payload (R447). -/
def syncMsg (kind off : Nat) (data : Bytes) : Bytes :=
  leBytes 1 kind ++ leBytes 7 0 ++ leBytes 8 off ++ data ++ List.replicate ((8 - data.length % 8) % 8) 0#8

/-- Pieces of a byte string, with their offsets. -/
def chunks (b : Bytes) (z : Nat) : List (Nat × Bytes) :=
  (List.range (ceilDiv b.length z)).map fun i => (i * z, (b.drop (i * z)).take z)

/-- Streams that are open, in number order. -/
def State.openStreams (s : State) : List Nat := (List.range 64).filter fun n => (s.stream n).phase == .open_

/-- The setup entries in effect, each with its OFFSET (R462; log entry 42): attached tables, LOAD_GRAPH, OPEN_STREAM, SET_EPOCH, one RUN per
stream with its run limit. OFFSET names a RUN's queue pair, and above it how many batch records of the stream are written. -/
def State.setupEntries (s : State) : List (Nat × SubEntry) :=
  let opens := s.openStreams
  (s.work.tables.filterMap fun (p : Nat × Table) => p.2.entry.map fun x => (0, x)) ++ ((s.work.graph.map fun g => (0, g.entry)).toList) ++
  (opens.filterMap fun n => (s.stream n).entry.map fun e => (0, e)) ++
  (opens.flatMap fun n => (s.stream n).marks.map fun m => (0, setupEntry opEpoch n [m.2, m.1])) ++
  (opens.filterMap fun n =>
    let st := s.stream n
    if st.runLimit == 0 then none
    else
      let c := (st.runs.getLast?.bind fun r => s.cmd r.seq)
      some ((c.map fun c => c.qp).getD 0 + 256 * st.released, { setupEntry opRun n [st.runLimit] with id := (c.map fun c => c.entry.id).getD 0 }))

/-- A duplicate window as SYNC_DATA bytes, newest first: CMD_ID, whether completed, STATUS, RESULT (log entry 42). -/
def windowBytes (w : List WindowId) : Bytes :=
  w.flatMap fun x => leBytes 8 x.id ++ leBytes 1 (b2n x.outcome.isSome) ++ leBytes 1 ((x.outcome.map fun o => o.1).getD 0) ++
    leBytes 6 0 ++ leBytes 8 ((x.outcome.map fun o => o.2).getD 0)

/-- What a primary sends on entering SYNCING, in order, as far as the journal (R462). -/
def State.syncPayloads (s : State) : List Bytes :=
  ((s.work.graph.map fun g => (chunks g.image 4080).map fun c => syncMsg 1 c.1 c.2).getD []) ++
  (s.setupEntries.map fun e => syncMsg 2 e.1 e.2.bytes) ++
  ((List.range 64).flatMap fun q => (chunks (windowBytes (s.qp q).window) 4080).map fun c => syncMsg 3 q c.2)

/-- The journal records from the retire point onward, read from host memory; the last message of KIND 4 holds no record (R462). -/
def State.syncRecords (s : State) : List Bytes :=
  let j := s.jrn
  ((List.range (j.tail - j.retire)).map fun i => syncMsg 4 (j.retire + i) (readBytes s.mem.bus (j.recAddr (j.retire + i)) 32)) ++
  [syncMsg 4 j.tail []]

/-- Announces what waits in the completion queues as the pair begins to mirror (R452), in queue order. -/
def State.announceWaiting (s : State) : State :=
  (List.range 64).foldl (fun t q => (t.qp q).queue.foldl (fun u e =>
    let fl := if e.kind == 1 then ((u.work.graph.map fun g => g.streamFlows e.stream).getD []).map fun f => (f.flow, (u.flow f.flow).next) else []
    u.enqueue q e (e.gate.getD 0) (if e.gate.isSome then e.status else 0) fl) (t.modQp q fun x => { x with queue := [] })) s

/-- Sends the journal records of a transfer that still owes them, once the function is in D0 (R102, R462). -/
def State.syncRest (s : State) : State :=
  if s.pair.syncOwed && s.inD0 then
    s.syncRecords.foldl (fun t p => t.pairSend 8 p) (s.modPair fun x => { x with syncOwed := false })
  else s

/-- Enters SYNCING; the primary begins the transfer, of which the journal records wait for D0 (R102, R448, R462). A secondary starts without
what an earlier primary mirrored to it. -/
def State.enterSyncing (s : State) : State :=
  let s1 := (s.modPair fun x => { x with joins := [], syncImage := [], syncEnd := false, readySent := false, joinSeen := false, mirrored := []
                                         undone := [], kept := [], joinSeq := 0, syncFrom := s.jrn.tail, syncOwed := x.roleNow == 1
                                         written := [] }).setPair .syncing
  if s1.pair.roleNow == 1 then (s1.syncPayloads.foldl (fun t p => t.pairSend 8 p) s1).syncRest.announceWaiting
  else
    let s2 := (s1.modPair fun x => { x with early := [], doneEarly := [] }).modJrn fun j => { j with retire := j.tail, completed := [] }
    { s2 with qps := tabMap {} (fun x => { x with window := [], heldDups := [], queue := [] }) s2.qps }

/-- Judges a HELLO (R448): roles, digests, versions. -/
def State.judgeHello (s : State) (p : Bytes) : State :=
  let role := fieldAt p 4 1
  let ver := agree s.pair.offer (fieldAt p 0 4)
  let roleBad := role == s.pair.roleNow || role == 0 || decide (2 < role)
  let cfgBad := fieldAt p 16 8 != s.cfgDigest
  let s1 := s.modPair fun x => { x with peerId := fieldAt p 8 8 }
  let s2 := if roleBad then s1.pairErr s1.pair.roleErr fun x => { x with roleErr := true } else s1
  let s3 := if cfgBad then s2.pairErr s2.pair.cfgErr fun x => { x with cfgErr := true } else s2
  let s4 := if ver.isNone then s3.pairErr s3.pair.verErr fun x => { x with verErr := true } else s3
  match ver with
  | some v => if roleBad || cfgBad then s4 else (s4.modPair fun x => { x with agreed := v.2 }).enterSyncing
  | none => s4

/-- PAIR_HELLO: taken in DOWN, and in SOLO from a new partner, where it starts both directions anew (R448, R464). It is
answered where this module's own HELLO may be missing. -/
def execPairHello (msg : Bytes) (t : Nat) (s : State) : Host.Outcome State Fault Refusal :=
  let s := s.at_ t
  .next (match parsePair msg with
  | none => s
  | some m =>
    if m.ty != 1 || m.pl.length != 24 || s.pair.portsUp == 0 || m.seq == 0 then s
    else if s.pair.state != .down && s.pair.state != .solo then s.pairRx msg t 1 fun _ s => s
    else
      let again := !s.pair.helloSeen || decide (m.seq ≤ s.pair.rxSeq) || s.pair.state == .solo
      let s1 := s.modPair fun x => { x with
        lastRx := s.now, rxSeq := m.seq, msgs := (x.msgs + 1) % 2 ^ 64, helloSeen := true
        txSeq := if x.state == .solo || (x.helloSeen && decide (m.seq ≤ x.rxSeq)) then 0 else x.txSeq
        txAck := if x.state == .solo || (x.helloSeen && decide (m.seq ≤ x.rxSeq)) then 0 else x.txAck
        unacked := if x.state == .solo || (x.helloSeen && decide (m.seq ≤ x.rxSeq)) then [] else x.unacked }
      (if again then s1.sendHello else s1).judgeHello m.pl)

/-- The peer is lost to a mirroring module (R446, R457, R461; log entry 43): a primary goes on alone, a PAIRED secondary checks
the lease, a joining one detaches. -/
def State.losePeer (s : State) : State :=
  match s.pair.state, s.pair.roleNow with
  | .paired, 1 => (s.modPair fun x => { x with unacked := [], joins := [] }).setPair .solo
  | .syncing, 1 => (s.modPair fun x => { x with unacked := [], joins := [] }).setPair .solo
  | .paired, 2 => (s.modPair fun x => { x with staleAt := none, claimAt := none, leaseNext := s.now }).setPair .suspect
  | .syncing, 2 => s.pairLeave
  | _, _ => s

/-- PAIR_HEARTBEAT (R449). -/
def execPairHeartbeat (msg : Bytes) (t : Nat) (s : State) : Host.Outcome State Fault Refusal :=
  .next (s.pairRx msg t 2 fun m s =>
    if m.pl.length != 24 || fieldAt m.pl 16 8 == s.cfgDigest then s
    else
      let s1 := s.pairErr s.pair.cfgErr fun x => { x with cfgErr := true }
      if s1.pair.state != .syncing && s1.pair.state != .paired && s1.pair.state != .suspect then s1
      else if s1.pair.roleNow == 2 then s1.pairLeave
      else s1.losePeer)

/-- Whether a secondary takes mirrored work: SYNCING or PAIRED (R451, R452). -/
def State.mirroring (s : State) : Bool := s.pair.roleNow == 2 && (s.pair.state == .syncing || s.pair.state == .paired)

/-- PAIR_ACCEPT (R447, R451): window, journal copy and command list take the entry. -/
def execPairAccept (msg : Bytes) (t : Nat) (s : State) : Host.Outcome State Fault Refusal :=
  .next (s.pairRx msg t 3 fun m s =>
    if !s.mirroring || m.pl.length != 144 then s
    else
      let seq := fieldAt m.pl 0 8
      let q := fieldAt m.pl 8 1
      let head := fieldAt m.pl 14 2
      let e := parseEntry (m.pl.drop 16)
      let c : Cmd := { qp := q, seq := seq, entry := e, sqHead := head, pos := s.pos, phase := .accepted, count := 0, target := none
                       accSeq := 0 }
      let s1 := s.modPair fun x => { x with mirrored := x.mirrored ++ [{ seq := seq, queue := q, sqHead := head, entry := m.pl.drop 16 }] }
      let s2 := s1.modQp q fun x => { x with
        sqHead := head, sqTail := head, window := ({ id := e.id, outcome := none } :: x.window).take 65536 }
      { (s2.modJrn fun j => { j with tail := seq + 1 }) with cmds := s2.cmds ++ [c] })

/-- An ANNOUNCE from its payload (R447). -/
def parseAnnounce (p : Bytes) : Announce :=
  { ann := fieldAt p 0 8, queue := fieldAt p 8 1, phase := fieldAt p 9 1, slot := fieldAt p 10 2, jState := fieldAt p 12 1
    jFinal := fieldAt p 13 1, seq := fieldAt p 16 8, entry := (p.drop 24).take 32
    flows := (List.range (fieldAt p 56 2)).map fun i => (fieldAt p (64 + 16 * i) 2, fieldAt p (72 + 16 * i) 8) }

/-- Fields of an announced entry: CMD_ID, RESULT, STATUS, KIND, STREAM. -/
def Announce.cmdId (a : Announce) : Nat := fieldAt a.entry 0 8
def Announce.result (a : Announce) : Nat := fieldAt a.entry 8 8
def Announce.status (a : Announce) : Nat := fieldAt a.entry 26 1
def Announce.kind (a : Announce) : Nat := fieldAt a.entry 28 1
def Announce.stream (a : Announce) : Nat := fieldAt a.entry 29 1

/-- Removes the first entry that a test picks; none where there is no such entry. -/
def dropFirst (p : CEntry → Bool) : List CEntry → Option (List CEntry)
  | [] => none
  | e :: es => if p e then some es else (dropFirst p es).map fun r => e :: r

/-- A join is over once the primary has written the record of every batch below it, as its setup RUN and its DONEs tell, or its stream has
closed; a SYNCING secondary without joins is PAIRED (R463). -/
def State.secondaryJoined (s : State) : State :=
  if s.pair.roleNow == 2 && s.pair.state == .syncing && s.pair.readySent then
    let js := s.pair.joins.filter fun j => decide (tget 0 s.pair.written j.1 < j.2) && (s.stream j.1).phase != .closed
    let s1 := s.modPair fun x => { x with joins := js }
    if js.isEmpty && s1.pair.syncEnd && s1.pair.joinSeen then s1.setPair .paired else s1
  else s

/-- PAIR_ANNOUNCE (R452, R454): the secondary keeps the announcement, takes the entry out of its own queue or remembers that it is
announced already, and follows the ring's tail. -/
def execPairAnnounce (msg : Bytes) (t : Nat) (s : State) : Host.Outcome State Fault Refusal :=
  .next (s.pairRx msg t 4 fun m s =>
    if !s.mirroring || decide (m.pl.length < 64) then s
    else
      let a := parseAnnounce m.pl
      let x := s.qp a.queue
      let s1 := s.modPair fun p => { p with undone := p.undone ++ [a] }
      let found := dropFirst (fun e => e.cmdId == a.cmdId && e.kind == a.kind && e.result == a.result) x.queue
      let tail := (a.slot + 1) % x.cqSize
      let s2 := s1.modQp a.queue fun y => { y with
        queue := found.getD y.queue, cqTail := tail, phase := if tail == 0 then a.phase == 0 else a.phase == 1 }
      let s3 := if found.isSome || decide (2 ≤ a.kind) || a.status == stDuplicate then s2
        else s2.modPair fun p => { p with early := p.early ++ [(a.queue, a.cmdId, a.kind, a.result)] }
      s3)

/-- A done announcement takes effect on the secondary: the journal copy, the outputs held for a batch record, the batch
(R454). -/
def State.announceDone (s : State) (a : Announce) : State :=
  let s1 := if a.seq == 0 then s
    else (s.recordCompleted a.seq).modPair fun x => { x with mirrored := x.mirrored.filter fun m => m.seq != a.seq }
  if a.kind != 1 then s1
  else
    let n := a.stream
    let b := a.result
    let rec_ := ((s1.stream n).batch b).any fun x => x.recorded
    let s2 := s1.modPair fun x => { x with
      kept := x.kept.filter fun y => !(y.1 == n && y.2.1 == b), written := tmod 0 n (fun w => max w (b + 1)) x.written }
    if rec_ then s2.batchWritten n b (a.status == stLate)
    else s2.modPair fun x => if decide (b < (s1.stream n).released) then x else { x with doneEarly := x.doneEarly ++ [(n, b)] }

/-- PAIR_DONE (R447, R454). -/
def execPairDone (msg : Bytes) (t : Nat) (s : State) : Host.Outcome State Fault Refusal :=
  .next (s.pairRx msg t 5 fun m s =>
    if !s.mirroring || m.pl.length != 8 then s
    else
      let n := fieldAt m.pl 0 8
      let fin := s.pair.undone.filter fun a => decide (a.ann ≤ n)
      let s1 := s.modPair fun x => { x with undone := x.undone.filter fun a => decide (n < a.ann) }
      (fin.foldl State.announceDone s1).secondaryJoined)

/-- The lock state of a code. -/
def lockOf (n : Nat) : Lock :=
  match n with
  | 1 => .acquiring | 2 => .locked | 3 => .hold | 4 => .lost | 5 => .mismatch | _ => .unlocked

/-- PAIR_BEAT (R46, R453): position, lock state and estimate of the primary, at its beat boundary. -/
def execPairBeat (msg : Bytes) (t : Nat) (s : State) : Host.Outcome State Fault Refusal :=
  .next (s.pairRx msg t 6 fun m s =>
    if !s.followsPrimary || m.pl.length != 24 then s
    else
      let num := fieldAt m.pl 0 8
      let s1 := s.modBeat fun b => { b with
        posBeat := num, posPhase := 0, lastNum := some num, edge := some (t - fieldAt m.pl 8 4 - s.pair.latency)
        pest := ((fieldAt m.pl 16 8 : Nat) : Int) }
      ((s1.setLock (lockOf (fieldAt m.pl 12 1))).switchVariant).phaseBoundary)

/-- PAIR_FENCE: a PAIRED secondary checks the lease; a joining one detaches (R457). -/
def execPairFence (msg : Bytes) (t : Nat) (s : State) : Host.Outcome State Fault Refusal :=
  .next (s.pairRx msg t 7 fun _ s => if s.pair.roleNow == 2 then s.losePeer else s)

/-- A received setup entry becomes a command of the secondary (R462). -/
def State.addSetup (s : State) (q : Nat) (e : SubEntry) : State :=
  let n := setupSeq + (s.cmds.filter fun c => decide (setupSeq ≤ c.seq)).foldl (fun m c => max m (c.seq + 1 - setupSeq)) 0
  { s with cmds := s.cmds ++ [{ qp := q, seq := n, entry := e, sqHead := 0, pos := s.pos, phase := .accepted, count := 0, target := none
                                accSeq := 0 }] }

/-- Window ids from SYNC_DATA bytes. -/
def parseWindow (b : Bytes) : List WindowId :=
  (recs b 0 24 (b.length / 24)).map fun r =>
    { id := fieldAt r 0 8, outcome := if fieldAt r 8 1 == 1 then some (fieldAt r 9 1, fieldAt r 16 8) else none }

/-- PAIR_SYNC_DATA (R447, R462): image, setup entries, windows, journal records. -/
def execPairSyncData (msg : Bytes) (t : Nat) (s : State) : Host.Outcome State Fault Refusal :=
  .next (s.pairRx msg t 8 fun m s =>
    if s.pair.state != .syncing || s.pair.roleNow != 2 || decide (m.pl.length < 16) then s
    else
      let off := fieldAt m.pl 8 8
      let data := m.pl.drop 16
      match fieldAt m.pl 0 1 with
      | 1 => s.modPair fun x => { x with syncImage := x.syncImage.take off ++ data }
      | 2 => (s.addSetup (off % 256) (parseEntry data)).modPair fun x =>
          if fieldAt data 8 1 == opRun then { x with written := tset 0 (fieldAt data 10 1) (off / 256) x.written } else x
      | 3 => s.modQp off fun x => { x with window := (x.window ++ parseWindow data).take 65536 }
      | 4 =>
        if data.isEmpty then
          ((s.modJrn fun j => { j with tail := off, retire := if j.retire == j.tail then off else j.retire }).modPair fun x =>
            { x with syncEnd := true }).syncReady
        else
          let s1 := s.modJrn fun j => { j with retire := if j.retire == j.tail then off else j.retire, tail := off + 1 }
          if fieldAt data 26 1 == 2 then s1.recordCompleted off else s1
      | _ => s)

/-- The join batch of a stream: the first one not yet instantiated that starts at least 2 beats after the position; 0 for a stream opened by
a command accepted during SYNCING (R463). -/
def State.joinBatch (s : State) (n : Nat) : Nat :=
  let st := s.stream n
  let first := st.batches.foldl (fun m b => max m (b.num + 1)) st.released
  if decide (s.pair.syncFrom ≤ st.openSeq) && decide (st.openSeq < setupSeq) then 0 else
  match s.cadence n with
  | none => first
  | some c =>
    let need := s.pos + 2 * 65536
    let far := ceilDiv (need - st.startOf c first) (max 1 c.k * 65536)
    (((List.range (far + 1)).map fun i => first + i).find? fun b => decide (need ≤ st.startOf c b)).getD (first + far)

/-- PAIR_SYNC_READY: the primary answers with SYNC_JOIN, and is PAIRED at the earliest when that is acknowledged (R447, R463). -/
def execPairSyncReady (msg : Bytes) (t : Nat) (s : State) : Host.Outcome State Fault Refusal :=
  .next (s.pairRx msg t 9 fun _ s =>
    if s.pair.state != .syncing || s.pair.roleNow != 1 || s.pair.readySent then s
    else
      let js := s.openStreams.map fun n => (n, s.joinBatch n)
      let s1 := (s.modPair fun x => { x with joins := js, readySent := true }).pairSend 10 (leBytes 2 js.length ++ leBytes 6 0 ++
        js.flatMap fun j => leBytes 1 j.1 ++ leBytes 7 0 ++ leBytes 8 j.2)
      s1.modPair fun x => { x with joinSeq := x.txSeq })

/-- A stream of the secondary starts at its join batch (R463); one that joins at batch 0 has nothing below it. -/
def State.joinAt (s : State) (n j : Nat) : State :=
  if j == 0 then s else
  let s1 := s.modStream n fun st => { st with released := j }
  match s1.work.graph with
  | none => s1
  | some g =>
    let s2 := (g.streamFlows n).foldl (fun t f => t.modFlow f.flow fun x => { x with next := j * f.segs }) s1
    (g.tables.weirs.filter fun w => w.action == 0 && w.stream == n).foldl (fun t w => t.modWeir w.inst fun x => { x with gen := j }) s2

/-- PAIR_SYNC_JOIN (R463). -/
def execPairSyncJoin (msg : Bytes) (t : Nat) (s : State) : Host.Outcome State Fault Refusal :=
  .next (s.pairRx msg t 10 fun m s =>
    if s.pair.state != .syncing || s.pair.roleNow != 2 then s
    else
      let js := (List.range (fieldAt m.pl 0 2)).map fun i => (fieldAt m.pl (8 + 16 * i) 1, fieldAt m.pl (16 + 16 * i) 8)
      let s1 := js.foldl (fun t j => t.joinAt j.1 j.2) (s.modPair fun x => { x with joins := js, joinSeen := true })
      s1.secondaryJoined)

/-- HEARTBEAT_TIMER: nothing sent for 1 us: HELLO until one has been received, then HEARTBEAT (R446, R448). -/
def execHeartbeatTimer (t : Nat) (s : State) : Host.Outcome State Fault Refusal :=
  let s := s.at_ t
  .next (if s.pair.state == .off || decide (s.now < s.pair.lastTx + 1000) then s
    else if s.pair.state == .down && !s.pair.helloSeen then s.sendHello
    else s.sendHeartbeat false)

/-- PEER_LOSS_TIMEOUT: no valid message for 10 us (R446). -/
def execPeerLossTimeout (t : Nat) (s : State) : Host.Outcome State Fault Refusal :=
  let s := s.at_ t
  .next (if s.pair.lastRx + 10000 ≤ s.now then s.losePeer else s)

/-- Port `p` trains at 8 or 4 lanes or goes down; the latency is measured at training (R432, R445, R453,
R533). -/
def State.portChange (s : State) (p lanes latency : Nat) : State :=
  let n := if s.domOff (24 + p) then 0 else lanes
  let up := withBit s.pair.portsUp p (n != 0)
  let s1 := s.modPair fun x => { x with
    portsUp := up, lanes0 := if p == 0 then n else x.lanes0, lanes1 := if p == 1 then n else x.lanes1
    latency := if n == 0 then x.latency else latency }
  let s0 := if s.pair.portsUp == 0 && n != 0 then s1.resendUnacked else s1
  let s2 := ({ s0 with present := { s0.present with rolog := withPort s0.present.rolog s0.fit.rolog p n } }).checkGrade
  if up == s.pair.portsUp then s2 else s2.postEvent 0x628

/-- PAIR_PORT_STATE_CHANGE. -/
def execPairPortStateChange (p : Fin 2) (lanes : Fin 3) (latency : Nat) (s : State) : Host.Outcome State Fault Refusal :=
  .next (s.portChange p.val (4 * lanes.val) latency)

/-- A write of RLG_PAIR_CFG.ROLE: it reads as written (R9), 3 applied as OFF; the role comes into force and the pair starts from DOWN, or
is OFF (R443, R448). FENCED lasts until a reset: a fenced module keeps the role in force (R456). -/
def State.setRole (s : State) (r : Nat) : State :=
  if s.pair.state == .fenced then s.modPair fun x => { x with role := r } else
  let role := if r == 3 then 0 else r
  let s1 := s.modPair fun x => { x with
    role := r, roleNow := role, helloSeen := false, txSeq := 0, rxSeq := 0, txAck := 0, unacked := [], agreed := 0, joinSeen := false
    leaseAt := s.now, leaseNext := s.now, cycling := false, needCycle := false, staleAt := none, claimAt := none
    undone := [], mirrored := [], kept := [], early := [], doneEarly := [], joins := [], handing := false, syncOwed := false }
  s1.setPair (if role == 0 then .off else .down)

end Sys2Proof.Machine
end

