-- ==== Sys2Proof/Machine/Chain.lean ====
section
/-! DEFINITION. The PCIe link's events and the Rolog chain (chapter 15). -/

namespace Sys2Proof.Machine

/-- PCIE_LINK_TRAINED: the link trains, retrains or changes rate or width; `width` lanes come up on the partner's side, and the link takes the
widest width that these and the lanes in service allow. Out of D3cold it brings the function to D0 (R425, R428, R30, R432). -/
def execPcieLinkTrained (rate : Fin 7) (width : Fin 17) (s : State) : Host.Outcome State Fault Refusal :=
  let w := widestLink (min width.val s.pcieCount)
  .next (if rate.val == 0 || w == 0 || s.pci.perst then s
    else
      let s1 := (s.modPci fun p => { p with
        rate := rate.val, width := w, linkUp := true, dstate := if p.dstate == .d3cold then .d0 else p.dstate
        retrains := if p.linkUp then sat32 p.retrains 1 else p.retrains }).postEvent 0x620
      if s.pci.dstate == .d3cold then s1.postEvent 0x622 else s1)


/-- The messages held outside D0 are issued: queue pairs in number order, then event messages in arrival order (R100, R422). -/
def State.releaseHeld (s : State) : State :=
  let s1 := (List.range 64).foldl (fun t q => if (t.qp q).irqHeld then t.irqCondition q else t) s
  let held := s1.evc.held
  held.foldl (fun t v => t.sendMsix v) (s1.modEvc fun e => { e with held := [] })

/-- DSTATE_CHANGE between D0 and D3hot. Back in D0 a primary owes a lease cycle before any other write (R100, R428, R432,
R455, R456). -/
def execDstateChange (d0 : Bool) (t : Nat) (s : State) : Host.Outcome State Fault Refusal :=
  let s := s.at_ t
  .next (if s.pci.perst then s
    else match s.pci.dstate, d0 with
    | .d3hot, true =>
      let s1 := s.modPci fun p => { p with dstate := .d0, pmeSent := false }
      let s2 := s1.modPair fun p => if p.roleNow == 1 then { p with needCycle := true, leaseAt := s.now } else p
      (s2.postEvent 0x622).releaseHeld.syncRest
    | .d0, false =>
      (s.modPci fun p => { p with dstate := .d3hot }).postEvent 0x622 |>.modPair fun p => { p with cycling := false }
    | _, _ => s)

/-- A token's fields: type, hops, payload; none where its length or CHECK does not verify (R435). -/
def parseToken (b : Bytes) : Option (Nat × Nat × Bytes) :=
  let n := fieldAt b 2 1
  let pl := (b.drop 3).take n
  if b.length == n + 7 && decide (n ≤ 72) && fieldAt b (3 + n) 4 == crc32c (b.take 1 ++ (b.drop 2).take 1 ++ pl)
  then some (fieldAt b 0 1, fieldAt b 1 1, pl) else none

/-- A token arrives: it is counted, and one whose CHECK fails is counted again and goes no further (R436). -/
def State.chainRx (s : State) (tok : Bytes) (f : Nat → Nat → Bytes → State → State) : State :=
  let s1 := s.modChain fun c => { c with tokens := (c.tokens + 1) % 2 ^ 64 }
  match parseToken tok with
  | none => s1.modChain fun c => { c with crcErr := sat32 c.crcErr 1 }
  | some (ty, hops, pl) => f ty hops pl s1

/-- An inserted module repeats a token (R436). From the start of a splice window until the ENUM that ends it, a MGMT token waits (R440). -/
def State.chainRepeat (s : State) (ty hops : Nat) (pl : Bytes) : State :=
  if !s.chain.inserted then s
  else if ty == 3 && s.chain.enumDue then s.modChain fun c => { c with mgmtHeld := c.mgmtHeld ++ [chainToken ty hops pl] }
  else s.emit (.chain (chainToken ty hops pl))

/-- The ENUM that ends a splice window has passed: the MGMT tokens that waited follow it (R440). -/
def State.enumPassed (s : State) : State :=
  s.chain.mgmtHeld.foldl (fun t b => t.emit (.chain b)) (s.modChain fun c => { c with enumDue := false, mgmtHeld := [] })

/-- The MASTER_ID of this module: the low 32 bits of its identity (R435). -/
def State.chainId (s : State) : Nat := s.sec.deviceId % 2 ^ 32

/-- A master that hears a lower MASTER_ID sets CONFLICT (R439). -/
def State.chainConflict (s : State) (id : Nat) : State :=
  if s.chain.master && decide (id < s.chainId) && !s.chain.conflict then
    (s.modChain fun c => { c with conflict := true }).postEvent 0x625
  else s

/-- An accepted or refused beat of the chain (R437): the beat instant is the comma's arrival less hops, lag and skew. -/
def State.chainDeliver (s : State) (hops : Nat) (pl : Bytes) (t : Nat) : State :=
  let d : Delivery := { src := .chain, num := fieldAt pl 0 8, hold := bitOf (fieldAt pl 12 2) 0
                        at_ := t - (hops - 1) * 200 - fieldAt pl 16 4 - s.chain.skew }
  let r := s.deliver d
  if r.1 then (r.2.beatOutNew d).relayBeat d else r.2

/-- A BEAT token whose comma arrives at `t` opens a splice window at its end, on the master that sent it too, which removes it (R436 to R439,
R441). -/
def State.beatToken (s : State) (hops : Nat) (pl : Bytes) (t : Nat) : State :=
  let id := fieldAt pl 8 4
  let s0 := s.modChain fun c => { c with lastBeat := t + 112, window := some (t + 112), enumDue := true }
  if s0.chain.master && id == s0.chainId then s0
  else
    let s1 := s0.chainConflict id
    let s2 := if s1.chain.master then s1 else s1.chainRepeat 1 (hops + 1) pl
    if s2.chain.noPos then s2 else s2.chainDeliver hops pl t

/-- A position from an ENUM (R438): a change is counted and posted (R432). -/
def State.takePosition (s : State) (n : Nat) : State :=
  let s1 := s.modChain fun c => { c with noPos := false }
  if s.chain.position == n then s1
  else (s1.modChain fun c => { c with position := n, splices := (c.splices + 1) % 2 ^ 32 }).postEvent 0x624

/-- An ENUM token (R438 to R440). -/
def State.enumToken (s : State) (hops : Nat) (pl : Bytes) : State :=
  let id := fieldAt pl 0 4
  let n := fieldAt pl 4 1
  if s.chain.master then
    (if id == s.chainId then s.modChain fun c =>
        { c with ring := true, ringSize := n, splices := if c.ringSize == n then c.splices else (c.splices + 1) % 2 ^ 32 }
     else (s.chainConflict id).enumPassed)
  else if !s.chain.inserted then s.enumPassed
  else if 64 ≤ n then
    let s1 := if s.chain.over_ then s else (s.modChain fun c => { c with over_ := true }).postEvent 0x625
    ((s1.modChain fun c => { c with noPos := true }).chainRepeat 2 hops pl).enumPassed
  else ((s.takePosition n).chainRepeat 2 hops (leBytes 4 id ++ leBytes 1 (n + 1) ++ pl.drop 5)).enumPassed

/-- A MGMT payload is delivered to this module (R432, R440). -/
def State.mgmtDeliver (s : State) (pl : Bytes) : State :=
  (s.modChain fun c => { c with inbox := pl :: c.inbox }).postEvent 0x626

/-- A MGMT token (R440). A master passes MGMT tokens on like any module (log entry 41). -/
def State.mgmtToken (s : State) (hops : Nat) (pl : Bytes) : State :=
  let dest := fieldAt pl 0 1
  let src := fieldAt pl 1 1
  let me := s.chain.position
  if !s.chain.inserted then s
  else if dest == me then s.mgmtDeliver pl
  else if dest == 0xFF then (if src == me then s.mgmtDeliver pl else (s.mgmtDeliver pl).chainRepeat 3 hops pl)
  else if src == me then s.modChain fun c => { c with mgmtDrop := sat32 c.mgmtDrop 1 }
  else s.chainRepeat 3 hops pl

/-- A token that verifies, by its TYPE. One of an unknown TYPE, or of a length that its TYPE does not have, has no effect but to be repeated by a
module that is not the master, a BEAT with HOPS + 1 (R436). -/
def State.chainToken (s : State) (ty hops : Nat) (pl : Bytes) (t : Nat) : State :=
  if ty == 1 && pl.length == 20 then s.beatToken hops pl t
  else if ty == 2 && pl.length == 8 then s.enumToken hops pl
  else if ty == 3 && decide (5 ≤ pl.length) then s.mgmtToken hops pl
  else if s.chain.master then s
  else s.chainRepeat ty (if ty == 1 then hops + 1 else hops) pl

/-- CHAIN_BEAT_TOKEN (R436 to R439, R441). -/
def execChainBeatToken (tok : Bytes) (t : Nat) (s : State) : Host.Outcome State Fault Refusal :=
  .next ((s.at_ t).chainRx tok fun ty hops pl s => s.chainToken ty hops pl t)

/-- CHAIN_ENUM_TOKEN (R438, R439). -/
def execChainEnumToken (tok : Bytes) (s : State) : Host.Outcome State Fault Refusal :=
  .next (s.chainRx tok fun ty hops pl s => s.chainToken ty hops pl s.now)

/-- CHAIN_MGMT_TOKEN (R440). -/
def execChainMgmtToken (tok : Bytes) (s : State) : Host.Outcome State Fault Refusal :=
  .next (s.chainRx tok fun ty hops pl s => s.chainToken ty hops pl s.now)

/-- CHAIN_UNKNOWN_TOKEN (R436). -/
def execChainUnknownToken (tok : Bytes) (s : State) : Host.Outcome State Fault Refusal :=
  .next (s.chainRx tok fun ty hops pl s => s.chainToken ty hops pl s.now)

/-- SPLICE_WINDOW_END: 20 us after the BEAT token; the master, whose own position is 0, sends ENUM with COUNT 1, unless a conflict stands (R438, R439,
R441). -/
def execSpliceWindowEnd (t : Nat) (s : State) : Host.Outcome State Fault Refusal :=
  let s := s.at_ t
  .next (if s.chain.window.any fun w => decide (w + 20000 ≤ s.now) then
    let s1 := s.modChain fun c => { c with window := none }
    if s1.chain.master && !s1.chain.conflict then
      ((s1.takePosition 0).chainRepeat 2 0 (leBytes 4 s1.chainId ++ leBytes 1 1 ++ leBytes 3 0)).enumPassed
    else s1
  else s)

/-- Drives CHAIN_INSERT (R434): a change posts source 0x624 (R432). -/
def State.setInsert (s : State) (b : Bool) : State :=
  if s.chain.inserted == b then s else (s.modChain fun c => { c with inserted := b }).postEvent 0x624

/-- Whether the module may be in the chain: enabled, out of reset, booted (R434). -/
def State.mayInsert (s : State) : Bool := s.chain.en && s.glb.ready

/-- CHAIN_SPLICE: within the first 2 us of a window a module splices in, or leaves once EN is 0 (R430, R441). -/
def execChainSplice (t : Nat) (s : State) : Host.Outcome State Fault Refusal :=
  let s := s.at_ t
  .next (if s.chain.window.any fun w => decide (w ≤ s.now) && decide (s.now ≤ w + 2000) then s.setInsert s.mayInsert else s)

/-- CHAIN_BEAT_ABSENT: no BEAT token for 1 s: a module that may splices in at once (R441). -/
def execChainBeatAbsent (t : Nat) (s : State) : Host.Outcome State Fault Refusal :=
  let s := s.at_ t
  .next (if s.mayInsert && decide (s.chain.lastBeat + 1000000000 ≤ s.now) then s.setInsert true else s)

end Sys2Proof.Machine
end

