-- ==== Sys2Proof/Machine/Convert.lean ====
section
/-! DEFINITION. The converting words: CVT (R149), QMX and DQMX (R150). -/

namespace Sys2Proof.Machine

/-- A value converted to a floating-point format: NaN canonical, an infinity kept or, where the format has none,
its NaN by sign; otherwise rounded once with the CVT overflow rows (R149). -/
def cvtToFlt (fm : FpFmt) (f : Fields) (u : Nat) (v : FVal) : LaneRes :=
  match v with
  | .nan => (some fm.nanCode, 0)
  | .inf neg => (some (if fm.inf then fm.infCode neg else (if neg then fm.signBit else 0) + fm.nanCode), 0)
  | .fin neg n d => let r := fm.round f.rnd.val f.sat u neg n d; (some r.1, r.2)

/-- A floating-point value converted to an integer type (R149). -/
def cvtFltInt (t : LTy) (f : Fields) (v : FVal) : LaneRes :=
  match v with
  | .nan => (none, flagINV)
  | .inf neg => (some (wrapN (8 * t.size) (if neg then tyMin t else tyMax t)), flagINV)
  | .fin neg n d =>
    let x := roundInt f.rnd.val neg n d
    if x < tyMin t then (some (wrapN (8 * t.size) (tyMin t)), flagINV)
    else if tyMax t < x then (some (wrapN (8 * t.size) (tyMax t)), flagINV)
    else (some (wrapN (8 * t.size) x), if n % d == 0 then 0 else flagNX)

/-- An exact fraction rounded to a DEC64; out of range the lane is invalid with the given flag (R149). -/
def cvtDec (f : Fields) (bad : Nat) (neg : Bool) (n d : Nat) : LaneRes :=
  let x := roundInt f.rnd.val neg n d
  if -decMax ≤ x && x ≤ decMax then (some (wrapN 64 x), if n % d == 0 then 0 else flagNX) else (none, bad)

/-- A DEC64 as an exact fraction at a scale. -/
def decFrac (a scale : Nat) : Bool × Nat × Nat :=
  let v := sInt 64 a
  (decide (v < 0), v.natAbs, 10 ^ scale)

/-- One lane of CVT from type `sc` to type `dc` (R149). Pairs that the rule's table does not list answer a free
value (log entry 23). -/
def cvtLane (sc dc : Nat) (f : Fields) (u a : Nat) : LaneRes :=
  let scale := f.imm.val / 256
  match laneTy sc, laneTy dc with
  | some ts, some td =>
    if sc == 0x32 && dc == 0x31 then (some (wrapN 32 (sInt 64 a / 86400000000)), 0)
    else if sc == 0x31 && dc == 0x32 then
      let x := sInt 32 a * 86400000000
      if tyMin td ≤ x && x ≤ tyMax td then (some (wrapN 64 x), 0) else (none, flagOF)
    else match ts.kind, td.kind with
    | .flt fs, .flt fd => cvtToFlt fd f u (fs.decode a)
    | .flt fs, .dec =>
      match fs.decode a with
      | .fin neg n d => cvtDec f flagINV neg (n * 10 ^ scale) d
      | _ => (none, flagINV)
    | .flt fs, .uint => cvtFltInt td f (fs.decode a)
    | .flt fs, .sint => cvtFltInt td f (fs.decode a)
    | .dec, .flt fd => let q := decFrac a scale; cvtToFlt fd f u (.fin q.1 q.2.1 q.2.2)
    | .dec, .dec =>
      let q := decFrac a f.vc.val
      cvtDec f flagOF q.1 (q.2.1 * 10 ^ scale) q.2.2
    | .dec, .uint =>
      let q := decFrac a scale
      let x := roundInt f.rnd.val q.1 q.2.1 q.2.2
      if tyMin td ≤ x && x ≤ tyMax td then (some (wrapN (8 * td.size) x), if q.2.1 % q.2.2 == 0 then 0 else flagNX)
      else (none, flagOF)
    | .dec, .sint =>
      let q := decFrac a scale
      let x := roundInt f.rnd.val q.1 q.2.1 q.2.2
      if tyMin td ≤ x && x ≤ tyMax td then (some (wrapN (8 * td.size) x), if q.2.1 % q.2.2 == 0 then 0 else flagNX)
      else (none, flagOF)
    | .bool, .flt _ => (some (Config.unstated 1 dc a % 2 ^ (8 * td.size)), 0)
    | .bool, .dec => (some (Config.unstated 2 dc a % 2 ^ 64), 0)
    | .flt _, .bool => (some (Config.unstated 3 sc a % 2), 0)
    | .dec, .bool => (some (Config.unstated 4 sc a % 2), 0)
    | _, .flt fd => let x := laneInt ts a; cvtToFlt fd f u (.fin (decide (x < 0)) x.natAbs 1)
    | _, .dec =>
      let x := laneInt ts a
      cvtDec f flagOF (decide (x < 0)) (x.natAbs * 10 ^ scale) 1
    | _, .bool => (some (b2n (laneInt ts a != 0)), 0)
    | _, _ => okInt (fitInt td f.sat (laneInt ts a))
  | _, _ => (none, 0)

/-- The draw of a lane for the word about to issue (R141). -/
def Engine.drawOf (e : Engine) (cx : Option ProgCtx) (lane : Nat) : Nat :=
  match cx with
  | some c => srDraw c.seed c.epoch c.stream c.batch (c.tileBase + e.tile) e.issue lane
  | none => srDraw 0 0 0 0 e.tile e.issue lane

/-- CVT: part p of the lanes of VA converted into VD; lanes of VD outside the part are unchanged, masked off or not (R149). -/
def wordCvt (cx : Option ProgCtx) (f : Fields) (e : Engine) : Engine :=
  let sc := f.imm.val % 256
  let dc := f.ty.val
  match laneTy sc, laneTy dc with
  | some ts, some td =>
    let lw := 32 / max ts.size td.size
    let p := f.sub.val % 4
    let srcBase := if ts.size < td.size then p * lw else 0
    let dstBase := if ts.size > td.size then p * lw else 0
    let part := fun i : Nat => decide (dstBase ≤ i) && decide (i < dstBase + lw)
    let g := fun i => match e.src ts.size f.va.val (srcBase + (i - dstBase)) with
      | some a => cvtLane sc dc f (e.drawOf cx i) a
      | none => ((none, 0) : LaneRes)
    (e.putLanes f.vd.val td.size fun i => if part i then e.masked f td.size g i else e.lane td.size f.vd.val i).raise
      (e.maskedFlags f td.size fun i => if part i then g i else (none, 0))
  | _, _ => e

/-- QMX: one block of 32 source values into packed elements in VD and the scale byte in VB (R150). -/
def wordQmx (cx : Option ProgCtx) (f : Fields) (e : Engine) : Engine :=
  if !(TypeSet.qmx.has f.ty.val) || f.sub.val % 8 ≥ 6 then e
  else match laneTy f.ty.val with
  | some ⟨s, .flt fm⟩ =>
    let l := 32 / s
    let vals := (List.range 32).map fun i =>
      match e.src s (f.va.val + i / l) (i % l) with
      | some a => fm.decode a
      | none => .fin false 0 1
    let fmt := f.sub.val % 8
    let q := qmxBlock fmt f.rnd.val (fun i => e.drawOf cx i) vals
    let e1 := e.setReg f.vd.val (packBits (mxElemBits fmt) q.2.1) (2 ^ 32 - 1)
    (e1.setReg f.vb.val q.1 (2 ^ 32 - 1)).raise (if q.2.2 then flagINV else 0)
  | _ => e

/-- Element k of a DQMX: its dequantised value rounded into the destination format (R150, R108), invalid when a byte lane of
VA that holds a bit of the element, or byte lane 0 of VB, is invalid (R136; the choice of those lanes: log entry 118). -/
def dqmxElem (e0 : Engine) (f : Fields) (fm : FpFmt) (fmt scale : Nat) (scaleOk : Bool) (k : Nat) : LaneRes :=
  let b := mxElemBits fmt
  let ok := scaleOk && e0.isValid f.va.val (b * k / 8) && e0.isValid f.va.val ((b * k + b - 1) / 8)
  if !ok then (none, 0)
  else match mxValue fmt scale (unpackBits b (e0.reg f.va.val).toNat k) with
    | .fin neg n d => let q := fm.round f.rnd.val false 0 neg n d; (some q.1, q.2)
    | .inf neg => (some (fm.infCode neg), 0)
    | .nan => (some fm.nanCode, 0)

/-- Destination register r of DQMX takes elements r·L to r·L + L − 1, lane by lane under the mask (R134, R135). -/
def dqmxReg (e0 : Engine) (f : Fields) (fm : FpFmt) (s fmt scale : Nat) (scaleOk : Bool) (e : Engine) (r : Nat) : Engine :=
  let g := fun i => dqmxElem e0 f fm fmt scale scaleOk (r * (32 / s) + i)
  (e.putLanes (f.vd.val + r) s fun i =>
    if e0.on f.mask.val i then (g i).take else if f.mz then (false, 0) else e0.lane s (f.vd.val + r) i).raise
    (e0.maskedFlags f s g)

/-- DQMX: packed elements of VA times the scale in VB byte 0, into VD and the registers after it (R150, R108). -/
def wordDqmx (f : Fields) (e : Engine) : Engine :=
  if !(TypeSet.dqmx.has f.ty.val) || f.sub.val % 8 ≥ 6 then e
  else match laneTy f.ty.val with
  | some ⟨s, .flt fm⟩ =>
    (List.range s).foldl (dqmxReg e f fm s (f.sub.val % 8) (laneOf 1 (e.reg f.vb.val) 0) (e.isValid f.vb.val 0)) e
  | _ => e

/-- CVT (R149). -/
def execCvt (e : EngineId) (f : Fields) (s : State) : Host.Outcome State Fault Refusal :=
  .next (s.issue 0x60 e f (wordCvt (s.core (coreNo e)).ctx f))

/-- QMX (R150). -/
def execQmx (e : EngineId) (f : Fields) (s : State) : Host.Outcome State Fault Refusal :=
  .next (s.issue 0x61 e f (wordQmx (s.core (coreNo e)).ctx f))

/-- DQMX (R150). -/
def execDqmx (e : EngineId) (f : Fields) (s : State) : Host.Outcome State Fault Refusal := .next (s.issue 0x62 e f (wordDqmx f))

end Sys2Proof.Machine
end

