-- ==== Sys2Proof/Machine/Dma.lean ====
section
/-! DEFINITION. The DMA channels (chapter 13, R380 to R401). One descriptor of a channel runs at a time (log entry 32). -/

namespace Sys2Proof.Machine

/-- A descriptor from its 64 bytes, with its address (R382). -/
def parseDesc (a : Nat) (b : Bytes) : Desc :=
  { addr := a, link := fieldAt b 0 8, op := fieldAt b 8 1, flags := fieldAt b 9 1, spaces := fieldAt b 10 1, crc := fieldAt b 11 1
    len := fieldAt b 12 4, src := fieldAt b 16 8, dst := fieldAt b 24 8, expect := fieldAt b 32 8, at_ := fieldAt b 40 8
    cmp := fieldAt b 48 8, pulse := fieldAt b 56 8 }

def Desc.isEnd (d : Desc) : Bool := bitOf d.link 0
def Desc.next (d : Desc) : Nat := d.link / 64 * 64
def Desc.irq (d : Desc) : Bool := bitOf d.flags 0
def Desc.hasCmp (d : Desc) : Bool := bitOf d.flags 1
def Desc.hasPulse (d : Desc) : Bool := bitOf d.flags 2
def Desc.order (d : Desc) : Bool := bitOf d.flags 4
def Desc.crcEn (d : Desc) : Bool := bitOf d.flags 3
def Desc.trig (d : Desc) : Nat := bitsOf d.flags 6 5
def Desc.cmpSp (d : Desc) : Nat := bitsOf d.spaces 5 4
def Desc.crc64 (d : Desc) : Bool := bitOf d.crc 0
def Desc.cont (d : Desc) : Bool := bitOf d.crc 1
def Desc.check (d : Desc) : Bool := bitOf d.crc 2

/-- Channels 56 to 63 are reserved (R381). -/
def hostOwned (c : Nat) : Bool := decide (c < 56)

/-- Largest burst and outstanding bursts of a channel (R380). -/
def classBurst (c : Nat) : Nat := if c < 48 then 512 else 4096
def classFlight (c : Nat) : Nat := if c < 48 then 8 else 64
/-- The traffic queue that a channel issues on (R380, R381). -/
def chanTq (c : Nat) : Nat := if c < 48 then 2 else if c < 56 then 3 else if c < 60 then 1 else 6
def ChCfg.burstBytes (g : ChCfg) (c : Nat) : Nat := min (classBurst c) (64 * 2 ^ g.burst)
def ChCfg.retries (g : ChCfg) (c : Nat) : Nat := if hostOwned c then g.retry else 3
/-- CHAIN_ASPACE as applied: 2 and 3 as 0. -/
def ChCfg.chain (g : ChCfg) : Space := if g.space == 1 then .hbm else .bus

/-- A fresh job for a descriptor. -/
def newJob (d : Desc) : Job :=
  { desc := d, fired := false, trigPos := none, started := false, issued := 0, flight := [], crcReg := 0, edges := false
    retries := 0, failed := none, cplDone := false, cplTries := 0, cplUntil := 0, recTries := 0
    wrote := [] }

/-- Starts fetching at an address. -/
def Chan.fetch (x : Chan) (a : Nat) : Chan := { x with state := .fetch, fetching := some a, rereading := false, fetched := [], job := none }

/-- Parks the channel, or starts it at an armed head (R386, R389). -/
def Chan.park (x : Chan) : Chan :=
  match x.armed with
  | some h => { x with armed := none }.fetch h
  | none => { x with state := .parked, job := none, fetched := [], fetching := none, rereading := false }

/-- BAR0 offset of a channel's register. -/
def chOffset (c r : Nat) : Nat := 0x80000 + c * 0x400 + r

/-- CH_ARM: refused on a reserved channel, and while the armed slot is full (R381, R389). -/
def State.chArm (s : State) (c m : Nat) : State :=
  if !hostOwned c then s.reject (chOffset c 0x10) m
  else s.modChan c fun x =>
    let h := x.head.val.toNat
    if x.armed.isSome then { x with armOverrun := true, armOverruns := sat32 x.armOverruns 1 }
    else match x.state with
      | .idle => x.fetch h
      | .parked => x.fetch h
      | _ => { x with armed := some h }

def execChArm (c : Fin 64) (m : Master) (s : State) : Host.Outcome State Fault Refusal := .next (s.chArm c.val m.val)

/-- Begins a reread of the LINK at an address (R386, R387). -/
def Chan.reread (x : Chan) (a : Nat) : Chan := { x with state := .fetch, fetching := some a, rereading := true, repoke := false, job := none, fetched := [] }

/-- CH_REPOKE (R387). One that arrives before a pending reread has been made counts as that one. -/
def State.chRepoke (s : State) (c m : Nat) : State :=
  if !hostOwned c then s.reject (chOffset c 0x14) m
  else s.modChan c fun x => match x.state with
    | .idle => x.reread x.tail
    | .parked => x.reread x.tail
    | .fetch => if x.rereading then x else { x with repoke := true }
    | _ => { x with repoke := true }

def execChRepoke (c : Fin 64) (m : Master) (s : State) : Host.Outcome State Fault Refusal := .next (s.chRepoke c.val m.val)

/-- A channel with nothing left of it: IDLE (R401). -/
def Chan.idled (x : Chan) : Chan :=
  { x with state := .idle, armed := none, job := none, fetched := [], fetching := none, rereading := false, aborting := false, repoke := false }

/-- CH_ABORT (R401): the current descriptor ends with ST_CANCELLED at its next burst boundary. -/
def State.chAbort (s : State) (c m : Nat) : State :=
  if !hostOwned c then s.reject (chOffset c 0) m
  else s.modChan c fun x => match x.job, x.state with
    | some j, .run => { x with aborting := true, armed := none, job := some { j with failed := some (j.failed.getD stCancelled) } }
    | some j, .waitTrig => { x with aborting := true, armed := none, state := .run, job := some { j with failed := some (j.failed.getD stCancelled) } }
    | _, _ => x.idled

def execChAbort (c : Fin 64) (m : Master) (s : State) : Host.Outcome State Fault Refusal := .next (s.chAbort c.val m.val)

/-- CH_RESUME in HALTED: the failed descriptor runs again from its first byte (R400), and a read of the chain that failed is made again
(log entry 33). -/
def State.chResume (s : State) (c m : Nat) : State :=
  if !hostOwned c then s.reject (chOffset c 0) m
  else s.modChan c fun x => match x.state, x.job with
    | .halted, some j => { x with state := .run, job := some (newJob j.desc) }
    | .halted, none => if x.rereading then x.reread x.cur else x.fetch x.cur
    | _, _ => x

def execChResume (c : Fin 64) (m : Master) (s : State) : Host.Outcome State Fault Refusal := .next (s.chResume c.val m.val)

/-- The CRC register that a later CONT descriptor continues, once a channel leaves a descriptor (R394). -/
def Chan.keepCrc (x : Chan) (j : Job) : Nat := if j.desc.crcEn && j.started then j.crcReg else x.crcKept

/-- CH_RESUME_SKIP in HALTED: the failed descriptor's LINK is reread, as a repoke does (R400). -/
def State.chResumeSkip (s : State) (c m : Nat) : State :=
  if !hostOwned c then s.reject (chOffset c 0) m
  else s.modChan c fun x =>
    if x.state == .halted then { x.reread x.cur with crcKept := (x.job.map x.keepCrc).getD x.crcKept } else x

def execChResumeSkip (c : Fin 64) (m : Master) (s : State) : Host.Outcome State Fault Refusal := .next (s.chResumeSkip c.val m.val)

/-- The descriptors of a batched read that may be used: each earlier one has END 0 and names the next address (R385). -/
def usable : List Desc → List Desc
  | [] => []
  | [d] => [d]
  | d :: e :: r => if !d.isEnd && d.next == e.addr then d :: usable (e :: r) else [d]

/-- Whether a read of a channel's chain waits: a chain on the bus, outside D0 (R102), or the engine or the chain's memory under test (R469). -/
def State.fetchHeld (s : State) (x : Chan) : Bool :=
  s.isFenced 13 0 || if x.cfg.chain == .bus then !s.inD0 else x.fetching.any fun a => s.devHeld a 64

/-- Reads a descriptor range in the space that CHAIN_ASPACE names (R382): an unmapped range, one whose domain is off, poisoned data and a
failing read answer none. -/
def State.chainRead (s : State) (e : BusEnv) (x : Chan) (a n : Nat) : Option Bytes × State :=
  match x.cfg.chain with
  | .bus => (s.busRead e a n, s)
  | .hbm =>
    if (s.devTarget a n).isNone || s.touchesOff a n then (none, s)
    else
      let r := s.devRead a n
      (if r.2.1 then none else some r.1, r.2.2)

/-- A channel that cannot read its chain halts, with the cause recorded (R399, R400; log entry 33). -/
def Chan.fetchFail (x : Chan) (a : Nat) : Chan :=
  { x with state := .halted, cur := a, errInfo := (if x.cfg.chain == .bus then 1 else 4) + stBusError * 256, errAddr := a, fetching := none
           job := none }

/-- DESCRIPTOR_FETCH_COMPLETE: the batched read returns and its usable descriptors are held (R385). -/
def execDescriptorFetchComplete (c : Fin 64) (e : BusEnv) (s : State) : Host.Outcome State Fault Refusal :=
  let s := s.env e
  let x := s.chan c.val
  if s.fetchHeld x then .next s
  else match x.state, x.fetching, x.rereading with
  | .fetch, some a, false =>
    let n := 2 ^ x.cfg.batch
    let r := s.chainRead e x a (64 * n)
    let r := if r.1.isSome then r else s.chainRead e x a 64
    (match r.1 with
    | none => .next ((r.2.modChan c.val fun x => x.fetchFail a).postEvent (0x440 + c.val))
    | some b =>
      let ds := usable ((List.range (b.length / 64)).map fun i => parseDesc (a + 64 * i) ((b.drop (64 * i)).take 64))
      (match ds with
      | d :: rest => .next (r.2.modChan c.val fun x => { x with
          state := .run, fetching := none, job := some (newJob d), cur := d.addr, fetched := rest
          tail := ((d :: rest).getLast?.map fun y => y.addr).getD d.addr })
      | [] => .next r.2))
  | _, _, _ => .next s

/-- LINK_REREAD_COMPLETE (R386 to R388). -/
def execLinkRereadComplete (c : Fin 64) (e : BusEnv) (s : State) : Host.Outcome State Fault Refusal :=
  let s := s.env e
  let x := s.chan c.val
  if s.fetchHeld x then .next s
  else match x.state, x.fetching, x.rereading with
  | .fetch, some a, true =>
    let r := s.chainRead e x a 8
    (match r.1 with
    | none => .next ((r.2.modChan c.val fun x => x.fetchFail a).postEvent (0x440 + c.val))
    | some b =>
      let l := fieldAt b 0 8
      .next (r.2.modChan c.val fun x =>
        if !bitOf l 0 then x.fetch (l / 64 * 64) else { x with tail := a }.park))
  | _, _, _ => .next s

/-- Check 1 of R383. -/
def Desc.malformed (d : Desc) : Bool :=
  decide (2 < d.op) || d.trig == 3 || bitOf d.flags 7 || bitsOf d.link 5 1 != 0 || decide (64 ≤ d.spaces) || decide (8 ≤ d.crc) ||
  decide (2 ≤ d.srcSp) || decide (2 ≤ d.dstSp) || decide (2 ≤ d.cmpSp) || d.len == 0 ||
  (d.op == 1 && d.srcSp != 0) || (d.op == 2 && (d.dst != 0 || d.dstSp != 0)) || (!d.check && d.expect != 0) ||
  (d.trig != 2 && d.at_ != 0) || (!d.hasCmp && (d.cmp != 0 || d.cmpSp != 0)) || (!d.hasPulse && d.pulse != 0) || (!d.crcEn && d.crc != 0)

/-- The device-address ranges that a descriptor names. -/
def Desc.devRanges (d : Desc) : List (Nat × Nat) :=
  (if d.op != 1 && d.srcSp == 1 then [(d.src, d.len)] else []) ++ (if d.op != 2 && d.dstSp == 1 then [(d.dst, d.len)] else []) ++
  (if d.hasCmp && d.cmpSp == 1 then [(d.cmp, 32)] else [])

/-- Whether a descriptor touches a domain (R402). -/
def State.descTouches (s : State) (d : Desc) (p : Nat → Bool) : Bool := d.devRanges.any fun r => (s.domainsOf r.1 r.2).any p

/-- The checks of R383 in order; 0 where all pass. -/
def State.descCheck (s : State) (c : Nat) (g : ChCfg) (d : Desc) : Nat :=
  if d.malformed then stBadDescriptor
  else if d.devRanges.any fun r => (s.devTarget r.1 r.2).isNone then stBadDescriptor
  else if (!g.edge && ((d.op != 1 && d.src % 64 != 0) || (d.op != 2 && d.dst % 64 != 0) || d.len % 64 != 0)) || (d.hasCmp && d.cmp % 32 != 0) then stMisaligned
  else if hostOwned c && s.work.graph.isSome && d.devRanges.any (fun r => decide (0x010000000000 ≤ r.1)) then stBusy
  else if s.descTouches d s.domOff then stDomainOff
  else stOk

/-- A descriptor ends without a burst, with the status of a check (R383, R402). -/
def Chan.refuseJob (x : Chan) (j : Job) (st : Nat) : Chan :=
  { x with state := .run, errInfo := 256 * st, job := some { j with failed := some st } }

/-- The position a TRIG 2 descriptor waits for: the first at or after `pos` with the 64 bits of AT (R390). -/
def trigTarget (pos at_ : Nat) : Nat :=
  let t := pos / 2 ^ 64 * 2 ^ 64 + at_ % 2 ^ 64
  if pos ≤ t then t else t + 2 ^ 64

/-- Runs the checks of a channel's descriptor and starts it, unless it waits for its trigger or for a domain (R383, R390,
R402). While WARM_RESTART waits, or the engine is under test, none begins (R467, R543), and one with ORDER only once every earlier write of the
channel is complete (R393). -/
def State.startDesc (s : State) (c op : Nat) : State :=
  let x := s.chan c
  match x.state, x.job with
  | .run, some j =>
    if j.started || j.failed.isSome || s.warmWaits || s.isFenced 13 0 || (j.desc.op != op && !(op == 0 && decide (2 < j.desc.op))) then s
    else match s.descCheck c x.cfg j.desc with
    | 0 =>
      if (j.desc.trig != 0 && !j.fired) || s.descTouches j.desc s.draining then
        s.modChan c fun x => { x with state := .waitTrig, job := some { j with
          trigPos := if j.desc.trig == 2 then some (j.trigPos.getD (trigTarget s.pos j.desc.at_)) else none } }
      else if j.desc.order && x.owedDescs != 0 then s
      else s.modChan c fun x => { x with job := some { j with
        started := true, crcReg := if j.desc.cont then x.crcKept else if j.desc.crc64 then 0 else 0xFFFFFFFF } }
    | st => s.modChan c fun x => x.refuseJob j st
  | _, _ => s

/-- DMA_COPY: the checks and start of a COPY; also of a descriptor whose OP is not defined, which fails check 1. -/
def execDmaCopy (c : Fin 64) (s : State) : Host.Outcome State Fault Refusal := .next (s.startDesc c.val 0)
/-- DMA_FILL (R382, R383). -/
def execDmaFill (c : Fin 64) (s : State) : Host.Outcome State Fault Refusal := .next (s.startDesc c.val 1)
/-- DMA_CRC (R382, R383, R394). -/
def execDmaCrc (c : Fin 64) (s : State) : Host.Outcome State Fault Refusal := .next (s.startDesc c.val 2)

/-- DMA_TRIGGER_FIRE: a waiting descriptor's trigger fires, and it starts unless a domain holds it (R390, R402); not while the engine is
under test (R467). -/
def execDmaTriggerFire (c : Fin 64) (t : Nat) (s : State) : Host.Outcome State Fault Refusal :=
  let s := s.at_ t
  let x := s.chan c.val
  if s.isFenced 13 0 then .next s
  else match x.state, x.job with
  | .waitTrig, some j =>
    let go := fun (y : Chan) => { y with state := .run, job := some { j with fired := true } }
    if j.fired then .next s
    else if j.desc.trig == 1 then
      (if x.trigCount == 0 then .next s
       else .next ((s.modChan c.val fun y => go { y with trigCount := y.trigCount - 1 }).startDesc c.val j.desc.op))
    else if j.desc.trig == 2 && j.trigPos.any fun p => decide (p ≤ s.pos) then .next ((s.modChan c.val go).startDesc c.val j.desc.op)
    else .next s
  | _, _ => .next s

/-- The length of the next burst and whether it is an edge burst (R391): the head up to the first 64-byte boundary, the tail from the last one,
both of the destination, or of the source under CRC (log entry 99). -/
def burstLen (g : ChCfg) (c : Nat) (d : Desc) (off : Nat) : Nat × Bool :=
  let start := if d.op == 2 then d.src else d.dst
  let a := start + off
  let tail := (start + d.len) / 64 * 64
  let lim := fun n => min n (min (if d.op == 1 then 4096 else 4096 - (d.src + off) % 4096) (if d.op == 2 then 4096 else 4096 - a % 4096))
  if a < alignUp 64 start then (lim (min (d.len - off) (alignUp 64 start - a)), true)
  else if a < tail then (lim (min (g.burstBytes c) (tail - a)), false)
  else (lim (d.len - off), true)

/-- Whether a channel has a burst ready (R392); none while the engine, or the memory it would reach, is under test (R467, R469). -/
def State.burstReady (s : State) (c : Nat) : Bool :=
  let x := s.chan c
  x.state == .run && !x.aborting && x.job.any fun j =>
    j.started && j.failed.isNone && decide (j.issued < j.desc.len) && decide (j.flight.length < classFlight c) &&
    (s.inD0 || j.desc.srcSp != 0 || j.desc.op == 1) && (s.writeOpen || j.desc.dstSp != 0 || j.desc.op == 2) &&
    !s.isFenced 13 0 && !(j.desc.op != 1 && j.desc.srcSp == 1 && s.devHeld (j.desc.src + j.issued) 4096) &&
    !(j.desc.op != 2 && j.desc.dstSp == 1 && s.devHeld (j.desc.dst + j.issued) 4096)

/-- The channel that issues next: highest PRIO; among equals the one whose turn is running, else the next in number (R392). -/
def State.nextChan (s : State) : Option Nat :=
  let ready := (List.range 64).filter s.burstReady
  let top := (ready.map fun c => (s.chan c).prio).foldl max 0
  let eq := ready.filter fun c => (s.chan c).prio == top
  let last := tget 64 s.mem.lastCh top
  if eq.contains last && (s.chan last).turn != 0 then some last
  else match eq.find? fun c => decide (last < c) with
    | some c => some c
    | none => eq.head?

/-- Issues the burst of a descriptor at an offset on channel `c`: its source bytes as they stand now (R384), whether they are poisoned or the
bus failed, and its traffic queue (R380). -/
def State.readBurst (s : State) (e : BusEnv) (c : Nat) (d : Desc) (off n : Nat) : Burst × State :=
  let b : Burst := { off := off, len := n, data := [], poisoned := false, bad := false, tries := 0, until_ := none, tq := chanTq c }
  if d.op == 1 then ({ b with data := (List.range n).map fun i => (leBytes 8 d.src)[(off + i) % 8]?.getD 0 }, s)
  else if d.srcSp == 0 then
    (match s.busRead e (d.src + off) n with
    | some bs => ({ b with data := bs }, s)
    | none => ({ b with bad := true }, s))
  else
    let r := s.devRead (d.src + off) n
    ({ b with data := r.1, poisoned := r.2.1 }, r.2.2)

/-- BURST_ISSUE: the engine issues one burst (R384, R391, R392). -/
def execBurstIssue (e : BusEnv) (s : State) : Host.Outcome State Fault Refusal :=
  let s := s.env e
  match s.nextChan with
  | none => .next s
  | some c =>
    let x := s.chan c
    (match x.job with
    | none => .next s
    | some j =>
      let (n, edge) := burstLen x.cfg c j.desc j.issued
      let r := s.readBurst e c j.desc j.issued n
      let w := max 1 x.weight
      let turn := if tget 64 s.mem.lastCh x.prio == c && x.turn != 0 then x.turn - 1 else w - 1
      .next ((r.2.modChan c fun x => { x with
        job := some { j with issued := j.issued + n, flight := j.flight ++ [r.1], edges := j.edges || edge }
        edgeBursts := if edge then sat32 x.edgeBursts 1 else x.edgeBursts, turn := turn }).modMem fun m =>
          { m with lastCh := tset 64 x.prio c m.lastCh }))

/-- The status of a cause of R399, and whether it is retried. -/
def causeStatus (cause : Nat) : Nat := if cause == 6 then stDomainOff else stBusError
def causeRetried (cause : Nat) : Bool := cause != 6

/-- A descriptor ends with a cause at an address (R399). -/
def Chan.failJob (x : Chan) (j : Job) (cause addr : Nat) (wr : Bool) : Chan :=
  { x with errInfo := cause + 8 * b2n wr + 256 * causeStatus cause, errAddr := addr
           job := some { j with flight := [], failed := some (causeStatus cause) } }

/-- Whether the oldest outstanding burst of a job, or its next one, reads a device range (R403); and its offset. -/
def Job.readsRange (j : Job) : Bool := j.desc.op != 1 && j.desc.srcSp != 0
def Job.oldest (j : Job) : Nat := (j.flight.head?.map fun b => b.off).getD j.issued

/-- The CRC register after a burst (R394). -/
def Job.crcStep (j : Job) (bs : Bytes) : Nat :=
  if !j.desc.crcEn then j.crcReg else if j.desc.crc64 then crc64Run j.crcReg bs else crc32cRun j.crcReg bs

/-- A completion timeout is counted and posted (R425, R432). -/
def State.cplTimeout (s : State) : State :=
  (s.modPci fun p => { p with cplTimeouts := sat32 p.cplTimeouts 1 }).postEvent 0x621

/-- The oldest burst of a channel's transfer fails with a cause of R399: it is retried, or the transfer ends. -/
def State.burstFails (s : State) (c : Nat) (j : Job) (b : Burst) (rest : List Burst) (cause : Nat) (wr : Bool) : State :=
  let s := if cause == 2 then s.cplTimeout else s
  let x := s.chan c
  if causeRetried cause && decide (b.tries < x.cfg.retries c) then
    s.modChan c fun x => { x with
      job := some { j with flight := { b with tries := b.tries + 1, until_ := some (s.now + 2 ^ b.tries * 1000) } :: rest } }
  else (s.modChan c fun x => (x.failJob j cause ((if wr then j.desc.dst else j.desc.src) + b.off) wr).settleCfg).handedOver

/-- The first channel whose oldest burst waits for the completion of a bus read. -/
def State.busReader (s : State) : Option (Nat × Job × Burst × List Burst) :=
  (List.range 64).findSome? fun c => match (s.chan c).job with
    | some j => (match j.flight with
      | b :: rest => if j.desc.op != 1 && j.desc.srcSp == 0 && b.until_.isNone then some (c, j, b, rest) else none
      | [] => none)
    | none => none

/-- PCIE_COMPLETION_TIMEOUT (R399, R425, R432): a read request that receives no completion fails with cause 2: the oldest burst of the lowest
channel that waits for one (DESIGN CHOICE, log entry 110); where no burst waits, the request belongs to another reader, whose own command says
that its read failed. -/
def execPcieCompletionTimeout (s : State) : Host.Outcome State Fault Refusal :=
  .next (match s.busReader with
  | some (c, j, b, rest) => s.burstFails c j b rest 2 false
  | none => s.cplTimeout)

/-- The cause with which a burst returns, 0 for none (R399): `fail`, or what its read met: poisoned HBM data, or a bus read that failed. -/
def Burst.cause (b : Burst) (fail : Option (Fin 7)) : Nat :=
  let f := (fail.map fun f => f.val).getD 0
  if b.poisoned then 4 else if b.bad && f == 0 then 1 else f

/-- BURST_RESPONSE: the oldest burst of a channel returns (R395, R399); the write of a bus destination waits under R102. -/
def execBurstResponse (c : Fin 64) (fail : Option (Fin 7)) (t : Nat) (s : State) : Host.Outcome State Fault Refusal :=
  let s := s.at_ t
  let x := s.chan c.val
  match x.job with
  | none => .next s
  | some j =>
    (match j.flight with
    | [] => .next s
    | b :: rest =>
      if b.until_.isSome || (j.desc.op != 2 && j.desc.dstSp == 0 && !s.writeEnds) then .next s
      else
        let cause := b.cause fail
        let wr := j.desc.op == 1 || (cause != 4 && j.desc.srcSp != 0)
        if cause != 0 then
          .next (s.burstFails c.val j b rest cause wr)
        else
          let s1 := if j.desc.op == 2 then s
            else if j.desc.dstSp == 0 then s.busWrite (j.desc.dst + b.off) b.data
            else s.devWrite (j.desc.dst + b.off) b.data
          let wrote := if j.desc.op != 2 && j.desc.dstSp == 0 then j.wrote ++ [(j.desc.dst + b.off, b.data)] else j.wrote
          .next (s1.modChan c.val fun x => { x with job := some { j with flight := rest, crcReg := j.crcStep b.data, wrote := wrote } }.settleCfg).handedOver)

/-- BURST_RETRY: a burst whose wait has passed is issued again, its source read afresh (R399); not while the engine is under test (R467). -/
def execBurstRetry (c : Fin 64) (e : BusEnv) (t : Nat) (s : State) : Host.Outcome State Fault Refusal :=
  let s := (s.at_ t).env e
  let x := s.chan c.val
  match x.job with
  | none => .next s
  | some j =>
    (match j.flight with
    | [] => .next s
    | b :: rest =>
      if !s.isFenced 13 0 && (b.until_.any fun u => decide (u ≤ s.now)) && (s.inD0 || j.desc.srcSp != 0 || j.desc.op == 1) then
        let r := s.readBurst e c.val j.desc b.off b.len
        .next (r.2.modChan c.val fun x => { x with
          retries := sat32 x.retries 1
          job := some { j with retries := min 0xFFFF (j.retries + 1)
                               flight := { r.1 with tries := b.tries } :: rest } })
      else .next s)

/-- Whether all bytes of a job are moved, or it has ended otherwise. -/
def Job.moved (j : Job) : Bool := j.flight.isEmpty && (j.failed.isSome || (j.started && decide (j.desc.len ≤ j.issued)))

/-- Whether a job has written to the bus. -/
def Job.wroteBus (j : Job) : Bool := j.desc.op != 2 && j.desc.dstSp == 0 && j.issued != 0

/-- Whether R396 asks for the completion read of a job. -/
def Job.asks (j : Job) : Bool := j.desc.hasCmp || j.desc.hasPulse || j.desc.irq || j.desc.isEnd || j.failed.isSome

/-- Whether the completion read of R395 is to be made: R396 asks for it, and the job or an earlier one that no read has covered wrote to the
bus. -/
def Chan.needsRead (x : Chan) (j : Job) : Bool := (j.wroteBus || x.owedDescs != 0) && j.asks

/-- Whether the completion of a job is left to a later descriptor's read (R396); those of one channel complete in chain order (R397). -/
def Chan.owes (x : Chan) (j : Job) : Bool := (j.wroteBus || x.owedDescs != 0) && !j.asks

/-- Whether a descriptor with ORDER waits for the earlier writes of its channel, so that their completion read is made (R393). -/
def Chan.ordered (x : Chan) (j : Job) : Bool := j.desc.order && !j.started && j.failed.isNone && x.owedDescs != 0

/-- The last bus address written before a completion read: by the job, else by those that it covers (R395). -/
def Chan.readAt (x : Chan) (j : Job) : Nat := ((j.wrote.getLast?.map fun w => w.1 + w.2.length - 1).getD x.owedAt) / 4 * 4

/-- The descriptors that a completion read has covered are complete (R396). -/
def Chan.covered (x : Chan) : Chan :=
  { x with lastStatus := 0, descs := (x.descs + x.owedDescs) % 2 ^ 64, bytes := (x.bytes + x.owedBytes) % 2 ^ 64, owedDescs := 0, owedBytes := 0 }

/-- COMPLETION_READ_RETURN: the read of 4 bytes at the last destination address is made, and returns or fails; a failure is retried, the job's
writes made again first, then is cause 5 (R395, R399, R549). A job that waits under ORDER makes it for the descriptors before it (R393). -/
def execCompletionReadReturn (c : Fin 64) (ok : Bool) (t : Nat) (s : State) : Host.Outcome State Fault Refusal :=
  let s := s.at_ t
  let x := s.chan c.val
  match x.job with
  | none => .next s
  | some j =>
    if x.state != .run || !(x.ordered j || (j.moved && x.needsRead j && !j.cplDone)) || !decide (j.cplUntil ≤ s.now) || !s.inD0 || s.isFenced 13 0 ||
      (j.cplTries != 0 && !j.wrote.isEmpty && !s.writeOpen) then .next s
    else
      let s1 := (if j.cplTries == 0 then s else j.wrote.foldl (fun u w => u.busWrite w.1 w.2) s).emit (.busRead (x.readAt j) 4)
      if ok then .next (s1.modChan c.val fun x =>
        if x.ordered j then { x.covered with job := some { j with cplTries := 0 } } else { x with job := some { j with cplDone := true } })
      else if j.cplTries < x.cfg.retries c.val then
        .next (s1.modChan c.val fun x => { x with
          retries := sat32 x.retries 1
          job := some { j with cplTries := j.cplTries + 1, retries := min 0xFFFF (j.retries + 1), cplUntil := s.now + 2 ^ j.cplTries * 1000 } })
      else .next (s1.modChan c.val fun x => { x.failJob j 5 (x.readAt j) true with
        job := some { j with failed := some (j.failed.getD stBusError), cplDone := true } })

/-- The value of a job's CRC with the final XOR applied (R394). -/
def Job.crcOut (j : Job) : Nat :=
  if !j.desc.crcEn then 0 else if j.desc.crc64 then j.crcReg else Nat.xor j.crcReg 0xFFFFFFFF

/-- The completion record (R398). -/
def dmaRecord (j : Job) (status pos : Nat) (bad : Bool) : Bytes :=
  leBytes 8 j.desc.addr ++ leBytes 4 (if status == stOk then j.desc.len else 0) ++ leBytes 1 status ++
    leBytes 1 (b2n bad + 2 * b2n j.edges + 4 * b2n (j.retries != 0)) ++ leBytes 2 j.retries ++ leBytes 8 j.crcOut ++ leBytes 8 (encPos pos)

/-- A descriptor's pulse, to the dispatcher of every cluster in its mask (R339, R397). -/
def State.dmaPulse (s : State) (p : Nat) : State :=
  let n := bitsOf p 15 10
  let b := bitsOf p 63 32
  let full := (((s.stream n).batches.find? fun x => x.num % 2 ^ 32 == b).map fun x => x.num).getD b
  (setBits 16 (bitsOf p 31 16)).foldl (fun t k => t.pulse k n full (bitsOf p 9 0)) s

/-- What a channel does after a descriptor (R386, R387, R389, R394, R400, R401). -/
def Chan.advance (x : Chan) (c : Nat) (j : Job) (status : Nat) (crcBad : Bool) : Chan :=
  if x.aborting then x.idled
  else if (status != stOk && hostOwned c) || (crcBad && x.cfg.haltCrc) then { x with state := .halted, job := some j }
  else match x.fetched with
    | d :: r => { x with job := some (newJob d), cur := d.addr, fetched := r, state := .run }
    | [] => if x.repoke || j.desc.isEnd then x.reread j.desc.addr else x.fetch j.desc.next

/-- A completion record is written where its range is mapped and on (R397, R398). -/
def State.putDmaRecord (s : State) (d : Desc) (bs : Bytes) : State :=
  if d.cmpSp == 0 then s.busWrite d.cmp bs else if s.touchesOff d.cmp 32 then s else s.devWrite d.cmp bs

/-- The read that ends a record's write has failed: it is retried, then given up with cause 5 (R399, R549; log entry 100). -/
def Chan.recFail (x : Chan) (c : Nat) (j : Job) (now : Nat) : Chan :=
  if j.recTries < x.cfg.retries c then
    { x with retries := sat32 x.retries 1
             job := some { j with recTries := j.recTries + 1, retries := min 0xFFFF (j.retries + 1), cplUntil := now + 2 ^ j.recTries * 1000 } }
  else { x.failJob j 5 j.desc.cmp true with job := some { j with failed := some (j.failed.getD stBusError), recTries := 8, cplDone := true } }

/-- What a completed descriptor leaves in its channel's registers (R396, R398): with it complete those it covers. -/
def Chan.count (x : Chan) (j : Job) (status : Nat) (bad : Bool) : Chan :=
  let crc := if bad then sat32 x.crcFail 1 else x.crcFail
  if x.owes j then { x with owedDescs := x.owedDescs + 1, owedBytes := x.owedBytes + j.desc.len, owedAt := x.readAt j, crcFail := crc }
  else { x with lastStatus := status, descs := (x.descs + x.owedDescs + 1) % 2 ^ 64
                bytes := (x.bytes + x.owedBytes + if status == stOk then j.desc.len else 0) % 2 ^ 64
                owedDescs := 0, owedBytes := 0, crcFail := crc }

/-- DESCRIPTOR_COMPLETE: record, pulse and event of R397, in that order, then the next descriptor (R393, R394, R396 to R401). -/
def execDescriptorComplete (c : Fin 64) (e : BusEnv) (t : Nat) (s : State) : Host.Outcome State Fault Refusal :=
  let s := (s.at_ t).env e
  let x := s.chan c.val
  match x.job with
  | none => .next s
  | some j =>
    let rec_ := j.desc.hasCmp && decide (j.recTries < 8)
    if x.state != .run || !j.moved || (x.needsRead j && !j.cplDone) || !decide (j.cplUntil ≤ s.now) ||
      (rec_ && j.desc.cmpSp == 0 && !s.writeOpen) then .next s
    else
      let status := j.failed.getD stOk
      let bad := status == stOk && j.desc.crcEn && j.desc.check && j.crcOut != j.desc.expect
      let s1 := if rec_ then s.putDmaRecord j.desc (dmaRecord j status s.pos bad) else s
      if rec_ && j.desc.cmpSp == 0 && envFails e j.desc.cmp 32 then .next (s1.modChan c.val fun x => x.recFail c.val j s.now)
      else
        let s2 := if j.desc.hasPulse then s1.dmaPulse j.desc.pulse else s1
        let s3 := if j.desc.irq then s2.postEvent (0x400 + c.val) else s2
        let s4 := if bad then s3.postEvent (0x480 + c.val) else s3
        let halts := !x.aborting && ((status != stOk && hostOwned c.val) || (bad && x.cfg.haltCrc))
        let s5 := if halts then s4.postEvent (0x440 + c.val) else s4
        .next (s5.modChan c.val fun x =>
          { x.count j status bad with crcKept := if halts then x.crcKept else x.keepCrc j }.advance c.val j status bad)

end Sys2Proof.Machine
end

