-- ==== Sys2Proof/Machine/Events.lean ====
section
/-! DEFINITION. The event controller's commands (chapter 14). A `vote` operand names a copy of the stack state that
disagreed at the step's reads (R421). -/

namespace Sys2Proof.Machine

/-- The level of a target (chapter 14). -/
def EvTgt.level (g : EvTgt) : Nat := (g.stack.head?.map fun e => e.prio).getD 0

/-- Whether source `n` is PENDING, unmasked, routed to target `t` and above level and THRESHOLD (R411). -/
def Evc.qualifies (v : Evc) (t lvl n : Nat) : Bool :=
  let e := v.source n
  e.state == .pending && !e.mask && e.route && e.target == t && decide (lvl < e.prio) &&
    decide ((v.target t).threshold < e.prio)

/-- The qualifying source of highest PRIO, the lowest number among equals (R411). -/
def Evc.best (v : Evc) (t lvl : Nat) : Option Nat :=
  let c := (v.src.map fun p => p.1).filter fun n => v.qualifies t lvl n
  c.foldl (fun b n => match b with
    | none => some n
    | some m => if (v.source m).prio < (v.source n).prio then some n else some m) none

/-- The claim of a source by a target: pushed with STARTED 0, the entry window opens (R411, R413). -/
def Evc.claim (v : Evc) (t n : Nat) : Evc :=
  let p := (v.source n).prio
  (v.modSrc n fun e => { e with state := .claimed }).modTgt t fun g => { g with
    stack := { source := n, prio := p, started := false } :: g.stack
    phase := .entry, claims := (g.claims + 1) % 2 ^ 64 }

/-- A copy that disagrees is rewritten from the majority, counted, and reported as a detected error of kind 15 (R421, R466). The three copies
are one value in the model, since the read that meets a disagreement removes it: a `vote` operand, or a DETECTED_ERROR of kind 15 for a read of
any other command, says that one did (log entry 112). -/
def State.evcVote (s : State) (vote : Option (Fin 3)) : State :=
  match vote with
  | none => s
  | some c => s.voteFixed.detectError 15 c.val 6 0 false

/-- A claim, or the count of a blocked claim on a full stack (R411, R412). Nothing happens in an entry window, in an
exit, or while the stack is frozen. -/
def Evc.claimStep (v : Evc) (t : Nat) : Evc :=
  let g := v.target t
  if g.frozen || g.phase != .running then v
  else match v.best t g.level with
  | none => v
  | some n => if g.stack.length ≥ 16 then v.modTgt t fun g => { g with full := sat32 g.full 1 } else v.claim t n

/-- The top entry's handler begins (R413). -/
def startTop (g : EvTgt) : EvTgt :=
  match g.stack with
  | e :: r => { g with stack := { e with started := true } :: r, phase := .running }
  | [] => { g with phase := .running }

/-- The end of an entry window: a source that qualifies against the pushed level is claimed, or the handler begins
(R413). -/
def Evc.entryEnd (v : Evc) (t : Nat) : Evc :=
  let g := v.target t
  if g.phase != .entry then v
  else match (if g.frozen || g.stack.length ≥ 16 then none else v.best t g.level) with
  | some n => v.claim t n
  | none => v.modTgt t startTop

/-- The state a source takes when its processor route completes (R406). -/
def EvSrc.complete (e : EvSrc) : EvSrc := { e with state := if e.hostPend then .hostWait else .idle }

/-- A completion naming the top source pops it; the next claim is taken directly, or the exit begins (R414, R415). -/
def Evc.completeTop (v : Evc) (t n : Nat) : Evc :=
  let v1 := (v.modSrc n EvSrc.complete).modTgt t fun g => { g with stack := g.stack.tail, phase := .exiting }
  match v1.best t (v1.target t).level with
  | some m => v1.claim t m
  | none => v1

/-- The end of an exit: a source that became PENDING meanwhile is claimed; an unstarted top starts; otherwise the
restored context goes on (R415, R416). -/
def Evc.exitEnd (v : Evc) (t : Nat) : Evc :=
  let g := v.target t
  if g.phase != .exiting then v
  else match (if g.frozen then none else v.best t g.level) with
  | some n => v.claim t n
  | none => v.modTgt t startTop

/-- EVENT_POST: a post arrives at a source (R405 to R409, R421, R422). A source that nothing posts stays still. -/
def execEventPost (src : Fin 4096) (vote : Option (Fin 3)) (s : State) : Host.Outcome State Fault Refusal :=
  let n := src.val
  let dead := (decide (0x4D0 ≤ n) && decide (n < 0x500)) || (decide (0x53F ≤ n) && decide (n < 0x600)) ||
    (decide (0x602 ≤ n) && decide (n < 0x610)) || (decide (0x617 ≤ n) && decide (n < 0x620)) ||
    (decide (0x62B ≤ n) && decide (n < 0x630)) || (decide (0x644 ≤ n) && decide (n < 0xF00))
  .next (if dead then s else (s.evcVote vote).postEvent n)

/-- EVENT_CLAIM: one target cycle in which a target may claim (R411, R412). -/
def execEventClaim (t : Fin 20) (vote : Option (Fin 3)) (s : State) : Host.Outcome State Fault Refusal :=
  .next ((s.evcVote vote).modEvc fun v => v.claimStep t.val)

/-- HANDLER_ENTRY: the entry window ends (R413). -/
def execHandlerEntry (t : Fin 20) (s : State) : Host.Outcome State Fault Refusal :=
  .next (s.modEvc fun v => v.entryEnd t.val)

/-- The master that a target is: supervisors are masters 1 to 16, Millwright cores 17 to 20 (R532). -/
def tgtMaster (t : Nat) : Nat := t + 1

/-- A completion write: another master's is dropped (R420); one that names the top source pops it (R414); another
freezes the stack and posts source 0x630 + t (R418). Writes to a frozen stack are ignored. -/
def State.tgtComplete (s : State) (t n m off : Nat) : State :=
  let g := s.evc.target t
  if m != tgtMaster t then s.reject off m
  else if g.frozen then s
  else match g.stack with
  | e :: _ =>
    if e.source == n then s.modEvc fun v => v.completeTop t n
    else (s.modEvc fun v => v.modTgt t fun g => { g with frozen := true, faultNamed := n, faultTop := e.source }).postEvent (0x630 + t)
  | [] => (s.modEvc fun v => v.modTgt t fun g => { g with frozen := true, faultNamed := n, faultTop := 0xFFF }).postEvent (0x630 + t)

/-- BAR0 offset of a target's registers. -/
def tgtOffset (t r : Nat) : Nat := 0x40000 + 0x1000 + t * 0x40 + r

/-- EVC_TGT_COMPLETE (R414, R415, R418, R420). -/
def execEvcTgtComplete (t : Fin 20) (m : Master) (src : Fin 4096) (s : State) : Host.Outcome State Fault Refusal :=
  .next (s.tgtComplete t.val src.val m.val (tgtOffset t.val 0x0C))

/-- EXIT_END (R415, R416). -/
def execExitEnd (t : Fin 20) (s : State) : Host.Outcome State Fault Refusal :=
  .next (s.modEvc fun v => v.exitEnd t.val)

/-- FLUSH by a Millwright core; dropped from any other master (R420). -/
def State.tgtFlush (s : State) (t m : Nat) : State :=
  if 17 ≤ m ∧ m ≤ 20 then s.modEvc fun v => v.flush t else s.reject (tgtOffset t 0x10) m

/-- EVC_TGT_FLUSH (R420). -/
def execEvcTgtFlush (t : Fin 20) (m : Master) (s : State) : Host.Outcome State Fault Refusal := .next (s.tgtFlush t.val m.val)

/-- EVC_SW_POST: posts software source 0xF00 + INDEX (R405). -/
def execEvcSwPost (i : Fin 256) (s : State) : Host.Outcome State Fault Refusal := .next (s.postEvent (0xF00 + i.val))

/-- Clearing HOST_PEND completes the host route: a HOST_WAIT source becomes IDLE (R406). -/
def EvSrc.ack (e : EvSrc) : EvSrc :=
  { e with hostPend := false, state := if e.state == .hostWait then .idle else e.state }

/-- HOST_PEND_ACK (R423, R406). -/
def execHostPendAck (src : Fin 4096) (s : State) : Host.Outcome State Fault Refusal :=
  .next (s.modEvc fun v => v.modSrc src.val EvSrc.ack)

/-- THRESHOLD_WRITE: in force from the next target cycle; no entry leaves the stack (R417). -/
def execThresholdWrite (t : Fin 20) (v : Fin 64) (s : State) : Host.Outcome State Fault Refusal :=
  .next (s.modEvc fun e => e.modTgt t.val fun g => { g with threshold := v.val })

end Sys2Proof.Machine
end

