-- ==== Sys2Proof/Machine/Fabric.lean ====
section
/-! DEFINITION. The Neten routers, the patrol scrubber and BAR2 (chapters 13 and 15). -/

namespace Sys2Proof.Machine

/-- Router ports: 0 north, 1 east, 2 south, 3 west, 4 the cluster and die units. -/
def neighbour (k port : Nat) : Option Nat :=
  match port with
  | 0 => if 4 ≤ k then some (k - 4) else none
  | 1 => if k % 4 < 3 then some (k + 1) else none
  | 2 => if k < 12 then some (k + 4) else none
  | 3 => if 0 < k % 4 then some (k - 1) else none
  | _ => none

/-- The port of a neighbour at which a flit sent on `port` arrives. -/
def opposite (port : Nat) : Nat := (port + 2) % 4

/-- The output port towards a destination router: along the row first, then the column (R372). -/
def routePort (k dst : Nat) : Nat :=
  if k % 4 < dst % 4 then 1 else if dst % 4 < k % 4 then 3 else if k / 4 < dst / 4 then 2 else if dst / 4 < k / 4 then 0 else 4

/-- Buffer depth of a class per input port (R374). -/
def classDepth (cls : Nat) : Nat := if cls == 0 then 8 else 32

/-- The share in force of a traffic queue. -/
def Router.share (r : Router) (tq : Nat) : Nat := r.shares[tq]?.getD 0

/-- Flits of a traffic queue that an output port sent in the last 64 cycles, the present one among them (R376, R377; log entry 99). -/
def Router.sentCount (r : Router) (out tq cyc : Nat) : Nat :=
  ((tget [] r.sent out).filter fun x => x.2 == tq && decide (cyc < x.1 + 64)).length

/-- A candidate of an output port: input port, class and TQ of a head flit with a credit (R376). -/
structure Cand where
  port : Nat
  cls  : Nat
  tq   : Nat
  flit : Flit
  deriving DecidableEq, Repr

/-- Head flits of a router that leave by `out`. -/
def Router.heads (r : Router) (out : Nat) : List Cand :=
  r.held.filterMap fun p => match p.2 with
    | f :: _ => if f.out == out then some { port := p.1 / 3, cls := p.1 % 3, tq := f.tq, flit := f } else none
    | [] => none

/-- Whether a class has a credit at the next router in fabric cycle `cyc`; the local port always takes a flit. A credit returned in the
cycle itself counts from the next one (R24). -/
def Router.credit (r : Router) (out cls cyc : Nat) : Bool :=
  let b := tget (0, 0) r.back (3 * out + cls)
  out == 4 || decide (tget 0 r.used (3 * out + cls) + (if b.1 == cyc then b.2 else 0) < classDepth cls)

/-- A credit for a flit of class `cls` sent on port `out` comes back in cycle `cyc` (R24). -/
def Router.giveBack (r : Router) (out cls cyc : Nat) : Router :=
  let key := 3 * out + cls
  let b := tget (0, 0) r.back key
  { r with used := tmod 0 key (fun n => n - 1) r.used, back := tset (0, 0) key (cyc, if b.1 == cyc then b.2 + 1 else 1) r.back }

/-- The choice of R376: CONTROL first, then the highest TQ below its share, then the highest TQ. -/
def Router.pick (r : Router) (out cyc : Nat) (cs : List Cand) : Option Cand :=
  match cs.find? fun c => c.cls == 0 with
  | some c => some c
  | none =>
    let below := cs.filter fun c => decide (r.sentCount out c.tq cyc < r.share c.tq)
    (if below.isEmpty then cs else below).foldl (fun (b : Option Cand) c => match b with
      | none => some c
      | some x => if x.tq < c.tq then some c else b) none

/-- A flit reaches the units at its router: its bytes join its packet, and the last flit of a packet completes it. A RESPONSE frees the space
that was reserved for it (R373, R375). -/
def Router.deliver (r : Router) (f : Flit) : Router :=
  let bs := tget [] r.rx f.pkt ++ f.payload
  { r with
    rx := tset [] f.pkt (if f.num == f.last then [] else bs) r.rx
    packets := if f.num == f.last then (f.cls, f.tq, bs) :: r.packets else r.packets
    reserved := if f.cls == 2 then r.reserved - 1 else r.reserved }

/-- One output port's cycle at router `k`: a flit leaves for the port's link buffer or for the units here, takes a credit at the next router and
returns one upstream (R22, R24, R374, R379). The packets of a router under test wait (R469). -/
def State.portCycle (s : State) (k cyc out : Nat) : State :=
  let r := s.router k
  if ((tget [] r.sent out).head?.map fun x => x.1) == some cyc || s.isFenced 9 k then s
  else
    let hs := r.heads out
    let ok := hs.filter fun c => r.credit out c.cls cyc
    let s0 := if ok.length < hs.length then s.modRouter k fun r => { r with stall := sat32 r.stall 1 } else s
    match r.pick out cyc ok with
    | none => s0
    | some c =>
      let s1 := s0.modRouter k fun r => { r with
        held := tmod [] (3 * c.port + c.cls) List.tail r.held
        used := if out == 4 then r.used else tmod 0 (3 * out + c.cls) (· + 1) r.used
        link := if out == 4 then r.link else tmod [] out (fun l => l ++ [c.flit]) r.link
        sent := tmod [] out (fun l => (cyc, c.tq) :: l.filter fun x => decide (cyc < x.1 + 64)) r.sent
        flits := (r.flits + 1) % 2 ^ 64 }
      let s2 := if out == 4 then s1.modRouter k fun r => r.deliver c.flit else s1
      match neighbour k c.port with
      | some u => s2.modRouter u fun r => r.giveBack (opposite c.port) c.cls cyc
      | none => s2

/-- The routers that hold a flit. -/
def State.netBusy (s : State) : List Nat := (s.mem.routers.filter fun p => p.2.held.any fun h => !h.2.isEmpty).map fun p => p.1

/-- Fabric cycle `cyc`: every output port of every router that holds a flit runs it (R376, R377). -/
def State.fabricCycle (s : State) (cyc : Nat) : State :=
  s.netBusy.foldl (fun t k => (List.range 5).foldl (fun u o => u.portCycle k cyc o) t) (s.modMem fun m => { m with netCyc := max m.netCyc cyc })

/-- What passes while no command waits: the next fabric cycle, as long as a router holds a flit (log entry 5). -/
def State.fabricTick (s : State) : State := if s.netBusy.isEmpty then s else s.fabricCycle (s.mem.netCyc + 1)

/-- The flit that arrives at an input port: the oldest in the link buffer of the router at the other end, or one that a unit here sends into the
local port, or a link whose sender holds none. -/
def State.arriving (s : State) (k port cls tq : Nat) (f : FlitIn) : Flit :=
  let own : Flit := { out := 0, tq := tq, cls := cls, dst := f.dst.val, pkt := f.pkt, num := f.num.val, last := f.more.val
                      payload := f.payload.take 256 }
  match neighbour k port with
  | some u => (tget [] (s.router u).link (opposite port)).head?.getD own
  | none => own

/-- A flit has been received: its sender's link buffer lets it go (R379). -/
def State.linkTaken (s : State) (k port : Nat) : State :=
  match neighbour k port with
  | some u => if (tget [] (s.router u).link (opposite port)).isEmpty then s
      else s.modRouter u fun r => { r with link := tmod [] (opposite port) List.tail r.link }
  | none => s

/-- NETEN_FLIT_RECEIVE: a flit arrives at an input port in fabric cycle `cyc`. One whose CRC fails is discarded; its sender keeps it at the head of
its link buffer and replays it, and after 16 failed replays the link is reported with its port (R379, R487). A good one is held, and every
router runs the cycle (R372 to R377). A unit sends a read request only with receive space for the whole response (R375). -/
def execNetenFlitReceive (k : Fin 16) (port : Fin 5) (cls : Fin 3) (tq : Fin 8) (f : FlitIn) (crcOk : Bool) (cyc : Nat) (s : State) :
    Host.Outcome State Fault Refusal :=
  let r := s.router k.val
  let asks := if port.val == 4 && cls.val == 1 then f.resp.val else 0
  if !crcOk then
    let n := tget 0 r.replays port.val + 1
    let s1 := s.modRouter k.val fun r => { r with retry := sat32 r.retry 1, replays := tset 0 port.val (if 16 < n then 0 else n) r.replays }
    .next (if 16 < n then s1.detectError 9 k.val 5 port.val false else s1)
  else
    let x := s.arriving k.val port.val cls.val tq.val f
    let key := 3 * port.val + x.cls
    if classDepth x.cls ≤ (tget [] r.held key).length || (asks != 0 && decide (Config.receiveSpace k.val < r.reserved + asks)) then .next s
    else
      let s1 := (s.linkTaken k.val port.val).modRouter k.val fun r => { r with
        replays := tset 0 port.val 0 r.replays, reserved := r.reserved + asks
        held := tmod [] key (fun l => l ++ [{ x with out := routePort k.val x.dst }]) r.held }
      .next (s1.fabricCycle cyc)

/-- A commit of shares is applied at a flit boundary, unless the shares sum above 64 or one is above 64 (R378). -/
def Router.apply (r : Router) : Router :=
  match r.pending with
  | none => r
  | some p => if p.foldl (· + ·) 0 ≤ 64 then { r with shares := p, pending := none } else { r with qosErr := true, pending := none }

/-- NET_SHARE_APPLY. -/
def execNetShareApply (k : Fin 16) (s : State) : Host.Outcome State Fault Refusal := .next (s.modRouter k.val Router.apply)

/-- HBM_PATROL_SCRUB: a pass of one controller over its words (R366, R369); skipped while its stack is off (R515) or PERIOD
is 0. A word under test waits for the next pass (R469). -/
def execHbmPatrolScrub (c : Fin 8) (e : BusEnv) (s : State) : Host.Outcome State Fault Refusal :=
  let s := s.env e
  let h := s.hbmCtl c.val
  .next (if h.period == 0 || s.domOff (26 + c.val) then s
    else
      let words := (s.mem.ecc.filter fun w => s.stackOf (w.1 * 8) == c.val && s.hbmOk (w.1 * 8) 8).map fun w => w.1
      ((words.filter fun w => !s.memHeld [(.hbm, w * 8, 8)]).foldl (fun t w => (t.eccRead (w * 8) 8).2) s).modHbmCtl c.val fun x => { x with passes := (x.passes + 1) % 2 ^ 32 })

/-- A BAR2 or BAR0 access outside what is mapped: counted and logged (R427). -/
def State.unmapped (s : State) (code : Nat) : State :=
  ((s.modPci fun p => { p with unmapped := sat32 p.unmapped 1 }).emit (.aer code)).postEvent 0x623

/-- Whether a BAR2 range reaches HBM: below the BAR's size and the capacity, no stack of it off (R371, R427, R515). -/
def State.bar2Ok (s : State) (off n : Nat) : Bool := s.hbmOk off n && !s.touchesOff off n && decide (off + n ≤ 2 ^ s.pci.bar2Log2)

/-- BAR2_READ (R363, R366, R371, R427, R515); an access to memory under test waits (R469). -/
def execBar2Read (off len : Nat) (e : BusEnv) (s : State) : Host.Outcome State Fault Refusal :=
  let s := s.env e
  .next (if s.bar2Ok off len && s.devHeld off len then s
  else if s.bar2Ok off len then
    let r := s.devRead off len
    r.2.2.emit (if r.2.1 then .poisoned r.1 else .data r.1)
  else (s.unmapped 1).emit (.unsupported off))

/-- BAR2_WRITE (R363, R368, R371, R427, R515); an access to memory under test waits (R469). -/
def execBar2Write (off : Nat) (data : Bytes) (s : State) : Host.Outcome State Fault Refusal :=
  .next (if s.bar2Ok off data.length && s.devHeld off data.length then s
  else if s.bar2Ok off data.length then s.devWrite off data else s.unmapped 1)

end Sys2Proof.Machine
end

