-- ==== Sys2Proof/Machine/Lease.lean ====
section
/-! DEFINITION. The lease, takeover, HANDOVER and LEAVE (chapter 15: R455 to R460, R464). -/

namespace Sys2Proof.Machine

/-- A lease line (chapter 15). -/
def leaseLine (count id pos : Nat) : Bytes :=
  let b := leBytes 8 count ++ leBytes 8 id ++ leBytes 8 (encPos pos) ++ List.replicate 36 0#8
  b ++ leBytes 4 (crc32c b)

/-- COUNT and MODULE_ID of the lease line as read; none where the read fails or its CRC does not verify. -/
def State.readLease (s : State) (e : BusEnv) : Option (Nat × Nat) :=
  match s.busRead e s.pair.lease.val.toNat 64 with
  | some l => if fieldAt l 60 4 == crc32c (l.take 60) then some (fieldAt l 0 8, fieldAt l 8 8) else none
  | none => none

/-- Writes the lease line with a count and this module's identity (R455, R457). -/
def State.writeLease (s : State) (count : Nat) : State :=
  (s.rawWrite s.pair.lease.val.toNat (leaseLine count s.sec.deviceId s.pos)).modPair fun x => { x with leaseCount := count }

/-- Whether the module is a primary that holds, or works towards, the lease. -/
def State.holdsLease (s : State) : Bool := s.pair.roleNow == 1 && s.pair.state != .off && s.pair.state != .fenced

/-- LEASE_CYCLE: every 50 us in D0 the primary reads the line, fails on a foreign MODULE_ID, and writes COUNT + 1 (R455, R456). Past its bound
it is fenced instead. -/
def execLeaseCycle (e : BusEnv) (t : Nat) (s : State) : Host.Outcome State Fault Refusal :=
  let s := (s.at_ t).env e
  .next (if !s.holdsLease || !s.inD0 || s.pair.cycling || decide (s.now < s.pair.leaseNext) && !s.pair.needCycle then s
    else if s.leaseOver then s.pairFence 1
    else match s.readLease e with
    | some (n, id) =>
      if id == s.sec.deviceId then
        (s.writeLease ((n + 1) % 2 ^ 64)).modPair fun x => { x with cycling := true, leaseNext := s.now + 50000 }
      else s.pairFence 1
    | none => s.pairFence 1)

/-- LEASE_CYCLE_COMPLETE: the read of R395 returns the write, or the cycle fails (R455, R456). -/
def execLeaseCycleComplete (ok : Bool) (t : Nat) (s : State) : Host.Outcome State Fault Refusal :=
  let s := s.at_ t
  .next (if !s.holdsLease || !s.pair.cycling then s
    else if s.leaseOver then (s.modPair fun x => { x with cycling := false }).pairFence 1
    else if ok then s.modPair fun x => { x with cycling := false, leaseAt := s.now, needCycle := false }
    else (s.modPair fun x => { x with cycling := false }).pairFence 1)

/-- LEASE_BOUND_EXPIRE: 100 us in D0 without a completed lease cycle (R456). -/
def execLeaseBoundExpire (t : Nat) (s : State) : Host.Outcome State Fault Refusal :=
  let s := s.at_ t
  .next (if s.holdsLease && s.inD0 && decide (s.pair.leaseAt + 100000 ≤ s.now) then s.pairFence 1 else s)

/-- SUSPECT_LEASE_READ: every 5 us; an advancing COUNT or a failed read detaches; two equal reads 150 us apart claim the lease
(R457). -/
def execSuspectLeaseRead (e : BusEnv) (t : Nat) (s : State) : Host.Outcome State Fault Refusal :=
  let s := (s.at_ t).env e
  .next (if s.pair.state != .suspect || !s.inD0 || s.pair.claimAt.isSome || decide (s.now < s.pair.leaseNext) then s
    else
      let s1 := s.modPair fun x => { x with leaseNext := s.now + 5000 }
      match s1.readLease e with
      | none => s1.pairLeave
      | some (n, id) =>
        match s1.pair.staleAt with
        | none => s1.modPair fun x => { x with staleAt := some (s.now, n, id) }
        | some (at0, n0, id0) =>
          if n0 < n then s1.pairLeave
          else if n != n0 || id != id0 then s1.modPair fun x => { x with staleAt := some (s.now, n, id) }
          else if at0 + 150000 ≤ s.now then (s1.writeLease ((n + 1) % 2 ^ 64)).modPair fun x => { x with claimAt := some s.now }
          else s1)

/-- Whether the slot of an announced entry holds it (R458, step 5). -/
def State.entryPresent (s : State) (a : Announce) : Bool :=
  let b := readBytes s.mem.bus ((s.qp a.queue).cqBase.val.toNat + 32 * a.slot) 32
  b.take 16 == a.entry.take 16 && fieldAt b 26 1 == fieldAt a.entry 26 1 && fieldAt b 28 2 == fieldAt a.entry 28 2 &&
    fieldAt b 31 1 % 2 == a.phase

/-- The due position of a stream's batch: the one it was instantiated with, or that of its cadence. -/
def State.dueAt (s : State) (n b : Nat) : Option Nat :=
  match (s.stream n).batch b with
  | some x => some x.due
  | none => (s.cadence n).map fun c => (s.stream n).dueOf c b

/-- An announced entry as one that is written again in its slot, with its batch's due position (R458, R459). -/
def State.reannounced (s : State) (a : Announce) : CEntry :=
  { cmdId := a.cmdId, result := a.result, sqHead := some (fieldAt a.entry 24 2), status := a.status, orig := fieldAt a.entry 27 1
    kind := a.kind, stream := a.stream, flags := fieldAt a.entry 30 1, noIrq := false, gate := none, ann := 0
    due := if a.kind == 1 then s.dueAt a.stream a.result else none, annNum := 0, slot := some (a.slot, a.phase == 1) }

/-- The segments kept for a batch are written to their output slots. -/
def State.writeKept (s : State) (p : Nat → Nat → Bool) : State :=
  let k := s.pair.kept.filter fun y => p y.1 y.2.1
  k.foldl (fun t y => (t.writeSpace y.2.2.1 y.2.2.2.1 y.2.2.2.2).carried 60 y.2.2.2.2.length)
    (s.modPair fun x => { x with kept := x.kept.filter fun y => !p y.1 y.2.1 })

/-- Step 5 of R458 for one announced entry; `absent` says whether one before it was absent. A present entry is done. An absent
one is written in its slot with the announced bytes, behind the rewritten outputs; the record of a batch that this module has not finished waits
until it is finished. -/
def State.replay (acc : Bool × State) (a : Announce) : Bool × State :=
  let s := acc.2
  let absent := acc.1 || !s.entryPresent a
  if !absent then (false, s.announceDone a)
  else
    let q := a.queue
    let s2 := if a.seq == 0 then s
      else (s.busWrite (s.jrn.recAddr a.seq + 0x1A) (leBytes 1 a.jState ++ leBytes 1 a.jFinal)).recordCompleted a.seq
    let s3 := if a.kind == 1 then
        (s2.writeKept fun n b => n == a.stream && b == a.result).modPair fun x => { x with
          early := x.early.filter fun y => y != (q, a.cmdId, a.kind, a.result) }
      else s2
    (true, s3.modQp q fun x => { x with queue := x.queue ++ [s3.reannounced a] })

/-- Takeover (R458, R459). The notice takes the next slot of its rings and comes first, then the announced entries, then what this module's own
pipeline has produced. The RESULT of its notice, an error record number, does not exist here and is free (log entry 44). -/
def State.takeover (s : State) : State :=
  let s1 := ((s.modPair fun x => { x with
    roleNow := 1, takeovers := (x.takeovers + 1) % 2 ^ 32, claimAt := none, staleAt := none, leaseAt := s.now, leaseNext := s.now
    cycling := false, needCycle := false, unacked := [], joins := [] }).setPair .solo).postEvent 0x62A
  let s2 := s1.pair.mirrored.foldl (fun t m =>
    let b := readBytes t.mem.bus (t.jrn.recAddr m.seq) 32
    if recordOk b m.seq then t
    else t.busWrite (t.jrn.recAddr m.seq) (jrnRecord (fieldAt m.entry 0 8) m.seq t.pos m.queue (fieldAt m.entry 8 1) 1 0)) s1
  let (r, s3) := s2.choose (2 ^ 64)
  let own := s3.qp
  let s4 := ({ s3 with qps := tabMap {} (fun x => { x with queue := [] }) s3.qps } : State).notice stFaultRecovered r
  let s5 := (List.range 8).foldl (fun t g => t.modGroup g fun d => { d with interval := 250, nextPoll := t.now, busy := false }) s4
  let s6 := (s5.pair.undone.foldl State.replay (false, s5)).2
  let s7 := (List.range 64).foldl (fun t q => if (own q).queue.isEmpty then t else t.modQp q fun x => { x with queue := x.queue ++ (own q).queue }) s6
  (s7.writeKept fun _ _ => true).modPair fun x => { x with undone := [], mirrored := [] }

/-- LEASE_CLAIM_REREAD: 60 us after the claim (R457). -/
def execLeaseClaimReread (e : BusEnv) (t : Nat) (s : State) : Host.Outcome State Fault Refusal :=
  let s := (s.at_ t).env e
  .next (if s.pair.state != .suspect || !s.inD0 || !(s.pair.claimAt.any fun c => decide (c + 60000 ≤ s.now)) then s
    else match s.readLease e with
    | some (_, id) => if id == s.sec.deviceId then s.takeover else (s.modPair fun x => { x with claimAt := none }).pairLeave
    | none => (s.modPair fun x => { x with claimAt := none }).pairLeave)

/-- A write of 1 to RLG_PAIR_CTL.HANDOVER: a primary is fenced once the writes already issued are complete (R456); otherwise nothing happens. -/
def State.handover (s : State) : State :=
  if s.holdsLease then (s.modPair fun x => { x with handing := true }).handedOver else s

/-- HANDOVER. -/
def execHandover (_m : Master) (s : State) : Host.Outcome State Fault Refusal := .next s.handover

/-- A write of 1 to RLG_PAIR_CTL.LEAVE: a secondary detaches (R464); otherwise nothing happens. -/
def State.leave (s : State) : State := if s.pair.roleNow == 2 && s.pair.state != .off then s.pairLeave else s

/-- LEAVE. -/
def execLeave (_m : Master) (s : State) : Host.Outcome State Fault Refusal := .next s.leave

end Sys2Proof.Machine
end

