-- ==== Sys2Proof/Machine/LoadProg.lean ====
section
/-! DEFINITION. LOAD_GRAPH: the checks of stream programs (R139, R149, R151, R153 to R155, R157). -/

namespace Sys2Proof.Machine

/-- How a word's RND may stand (R138, R139): always 0; 0 to 4 where its type is a floating-point one, or that or DEC64; 0 to 4; 0
to 5; as CVT's. -/
inductive RndUse where
  | no
  | flt
  | fltDec
  | four
  | five
  | cvt
  deriving DecidableEq, Repr

/-- What an opcode uses of its word (R154, R157). Registers: whether VD, VA, VB, VC are used, in how many bits (5 a register, 3 a K
register or address stream, 0 unused); whether MASK and MZ are; where SAT is; the SUB values; the IMM range. -/
structure WForm where
  ts  : TypeSet
  vd  : Nat := 0
  va  : Nat := 0
  vb  : Nat := 0
  vc  : Nat := 0
  mask : Bool := true
  mz  : Bool := true
  sat : Bool := false
  rnd : RndUse := .no
  sub : Nat := 0
  imm : Nat × Nat := (0, 0)

def wf1 (ts : TypeSet) : WForm := { ts := ts, vd := 5, va := 5 }
def wf2 (ts : TypeSet) : WForm := { ts := ts, vd := 5, va := 5, vb := 5 }
def wf3 (ts : TypeSet) : WForm := { ts := ts, vd := 5, va := 5, vb := 5, vc := 5 }
def wfK (ts : TypeSet) : WForm := { ts := ts, vd := 3, va := 5 }

/-- The control, access and arithmetic words. -/
def wordFormA : Nat → Option WForm
  | 0x00 => some { ts := .anyTy, mask := false, mz := false }
  | 0x01 => some { ts := .anyTy, mask := false, mz := false, imm := (1, 65535) }
  | 0x02 => some { ts := .anyTy, mask := false, mz := false }
  | 0x10 => some { ts := .fixed, vd := 5, va := 3 }
  | 0x11 => some { ts := .fixed, vd := 5, va := 3, mz := false }
  | 0x12 => some { ts := .fixed, vd := 5, va := 3 }
  | 0x13 => some { ts := .fixed, vd := 5, va := 3, mz := false }
  | 0x20 => some { wf2 .arith with sat := true, rnd := .flt }
  | 0x21 => some { wf2 .arith with sat := true, rnd := .flt }
  | 0x22 => some { wf2 .arith with sat := true, rnd := .fltDec, imm := (0, 36) }
  | 0x23 => some (wf2 .int)
  | 0x24 => some { wf3 .flt with rnd := .flt, sub := 1 }
  | 0x25 => some { wf2 .arith with sat := true, rnd := .fltDec, imm := (0, 18) }
  | 0x26 => some { wf2 .int with sat := true }
  | 0x27 => some (wf2 .int)
  | 0x28 => some (wf2 .int)
  | 0x29 => some { wf2 .arith with sat := true }
  | 0x2A => some { wf2 .arith with sat := true }
  | 0x2B => some { wf1 .arith with sat := true }
  | 0x2C => some { wf1 .arith with sat := true }
  | 0x2D => some { wf3 .arith with sat := true }
  | 0x2E => some { wf1 .flt with rnd := .flt }
  | 0x2F => some (wf1 .fixed)
  | 0x30 => some { ts := .fixed, vd := 5, imm := (0, 65535) }
  | _ => none

/-- The comparing, selecting, bitwise and converting words. -/
def wordFormB : Nat → Option WForm
  | 0x40 => some { wfK .fixedNotFp8 with vb := 5, sub := 5 }
  | 0x41 => some { wfK .flt with imm := (0, 511) }
  | 0x42 => some { wf2 .fixed with vc := 3 }
  | 0x43 => some (wfK .fixed)
  | 0x44 => some (wf2 .fixed)
  | 0x45 => some { ts := .anyTy, vd := 3, va := 3, vb := 3, mask := false, mz := false, sub := 4 }
  | 0x46 => some { ts := .fixed, vd := 5, va := 3 }
  | 0x47 => some { ts := .u8, vd := 5, imm := (0, 255) }
  | 0x48 => some { ts := .anyTy, vd := 3, mask := false, mz := false, imm := (0, 32) }
  | 0x50 => some (wf2 .intBool)
  | 0x51 => some (wf2 .intBool)
  | 0x52 => some (wf2 .intBool)
  | 0x53 => some (wf2 .intBool)
  | 0x54 => some (wf1 .intBool)
  | 0x55 => some { wf2 .int with sub := 1, imm := (0, 63) }
  | 0x56 => some { wf2 .int with sub := 1, imm := (0, 63) }
  | 0x57 => some { wf2 .int with sub := 1, imm := (0, 63) }
  | 0x58 => some { wf2 .int with sub := 1, imm := (0, 63) }
  | 0x59 => some (wf1 .int)
  | 0x5A => some (wf1 .int)
  | 0x5B => some (wf1 .int)
  | 0x60 => some { wf1 .fixed with vc := 5, sat := true, rnd := .cvt, sub := 3, imm := (0, 65535) }
  | 0x61 => some { wf2 .qmx with mask := false, mz := false, rnd := .five, sub := 5 }
  | 0x62 => some { wf2 .dqmx with rnd := .four, sub := 5 }
  | 0x63 => some { wf1 .intFlt with sub := 1 }
  | _ => none

/-- The byte, hash, reducing and permuting words. -/
def wordFormC : Nat → Option WForm
  | 0x70 => some { wf1 .u8 with imm := (0, 255) }
  | 0x71 => some (wf2 .u8)
  | 0x72 => some (wf2 .u8)
  | 0x73 => some (wf1 .u8)
  | 0x74 => some { wfK .u8 with imm := (0, 63) }
  | 0x80 => some { wf1 .u32u64 with imm := (0, 63) }
  | 0x81 => some { wf2 .u32u64 with sub := 1, imm := (1, 32) }
  | 0x82 => some (wf2 .u64)
  | 0x83 => some (wf1 .u64)
  | 0x90 => some { wf1 .arith with sat := true, rnd := .flt }
  | 0x91 => some { wf1 .widen with rnd := .flt }
  | 0x92 => some { wf1 .arith with sat := true }
  | 0x93 => some { wf1 .arith with sat := true }
  | 0x94 => some (wf1 .fixed)
  | 0x95 => some (wf1 .intBool)
  | 0x96 => some (wf1 .intBool)
  | 0xA0 => some (wf2 .fixed)
  | 0xA1 => some { wf1 .fixed with vc := 3 }
  | 0xA2 => some { wf2 .fixed with imm := (0, 32) }
  | _ => none

/-- What each opcode of R157 uses. -/
def wordForm (op : Nat) : Option WForm :=
  if decide (0x38 ≤ op) && decide (op ≤ 0x3F) then some (wf1 .flt)
  else (wordFormA op).or ((wordFormB op).or (wordFormC op))

/-- A register field within the bits that its opcode uses of it. -/
def fieldOk (bits v : Nat) : Bool := decide (v < 2 ^ bits)

/-- RND as R139 permits it. -/
def RndUse.ok (u : RndUse) (ty rnd : Nat) : Bool :=
  match u with
  | .no => rnd == 0
  | .flt => rnd == 0 || (isFltTy ty && decide (rnd ≤ 4))
  | .fltDec => rnd == 0 || ((isFltTy ty || ty == 0x30) && decide (rnd ≤ 4))
  | .four => decide (rnd ≤ 4)
  | .five => decide (rnd ≤ 5)
  | .cvt => decide (rnd ≤ 4) || (rnd == 5 && ((laneTy ty).any fun t => match t.kind with | .flt _ => true | _ => false))

/-- CVT's own fields (R149): source type, scales, the part p. -/
def cvtChk (f : Fields) : Chk :=
  let src := f.imm.val % 256
  let sc := f.imm.val / 256
  match laneTy src, laneTy f.ty.val with
  | some a, some b =>
    let p := f.sub.val % 4
    let z := min a.size b.size
    let l := 32 / max a.size b.size
    chks [badIf (decide (32 / z < (p + 1) * l)),
      if src == 0x30 || f.ty.val == 0x30 then range sc 0 18 else zero sc,
      if src == 0x30 && f.ty.val == 0x30 then range f.vc.val 0 18 else zero f.vc.val]
  | _, _ => badIf true

/-- A shift's count comes from IMM or from VB by SUB, and the other is unused (R147, R154). -/
def countChk (f : Fields) : Chk := badIf (if f.sub.val == 0 then f.imm.val != 0 else f.vb.val != 0)

/-- The fields whose use depends on the word's type or SUB (R145, R147, R148, R150, R157). -/
def wordExtra (op : Nat) (f : Fields) : Chk :=
  let ty := f.ty.val
  let dec := ty == 0x30
  match op with
  | 0x20 => badIf (f.sat && isFltTy ty)
  | 0x21 => badIf (f.sat && isFltTy ty)
  | 0x22 => chks [badIf (f.sat && isFltTy ty), badIf (!dec && f.imm.val != 0)]
  | 0x25 => chks [badIf (f.sat && isFltTy ty), badIf (!dec && f.imm.val != 0)]
  | 0x29 => badIf (f.sat && !dec)
  | 0x2A => badIf (f.sat && !dec)
  | 0x2B => badIf (f.sat && isFltTy ty)
  | 0x2C => badIf (f.sat && isFltTy ty)
  | 0x2D => badIf (f.sat && !dec)
  | 0x55 => countChk f
  | 0x56 => countChk f
  | 0x57 => countChk f
  | 0x58 => countChk f
  | 0x45 => badIf (f.sub.val == 4 && f.vb.val != 0)
  | 0x60 => cvtChk f
  | 0x61 => badIf (decide (31 < f.va.val + (if ty == 0x12 then 3 else 1)))
  | 0x62 => badIf (decide (31 < f.vd.val + (if ty == 0x12 then 3 else 1)))
  | 0x81 => badIf (f.sub.val != (if ty == 7 then 0 else 1))
  | 0x90 => badIf (f.sat && !dec)
  | 0x92 => badIf (f.sat && !dec)
  | 0x93 => badIf (f.sat && !dec)
  | 0xA2 => limIf ((laneTy ty).any fun t => decide (32 / t.size < f.imm.val))
  | _ => {}

/-- The address stream of an access: it exists and has the word's mode; a narrow one has the word's lane width (R153, R155). -/
def accessChk (ds : List StreamDesc) (op : Nat) (f : Fields) : Chk :=
  if decide (0x10 ≤ op) && decide (op ≤ 0x13) then
    (match ds[f.va.val % 8]? with
    | none => badIf true
    | some d =>
      chks [badIf ((d.mode == 2) != decide (0x12 ≤ op)), misIf (d.mode == 1 && (laneTy f.ty.val).any fun t => t.size != d.esize)])
  else {}

/-- One body word (R155). -/
def wordChk (ds : List StreamDesc) (w : Nat) : Chk :=
  let f := decodeFields w
  let op := w % 256
  match wordForm op with
  | none => badIf true
  | some o =>
    chks [badIf (!o.ts.has f.ty.val),
      badIf (!(fieldOk o.vd f.vd.val && fieldOk o.va f.va.val && fieldOk o.vb f.vb.val && fieldOk o.vc f.vc.val)),
      badIf ((!o.mask && f.mask.val != 0) || (!o.mz && f.mz) || (!o.sat && f.sat)), badIf (!o.rnd.ok f.ty.val f.rnd.val),
      badIf (decide (o.sub < f.sub.val)), if o.imm.2 == 0 then zero f.imm.val else range f.imm.val o.imm.1 o.imm.2,
      wordExtra op f, accessChk ds op f]

/-- LOOP and LEND match, at most 4 deep: the depth after the words, none where they do not. -/
def loopDepth (ws : List Nat) : Option Nat :=
  ws.foldl (fun d w => d.bind fun n =>
    if w % 256 == 1 then (if n < 4 then some (n + 1) else none) else if w % 256 == 2 then (if n == 0 then none else some (n - 1)) else some n) (some 0)

/-- An address stream descriptor of 16 bytes (R151, R153). ESIZE is an unused field outside the narrow mode (log entry 120). -/
def descChk (b : Bytes) : Chk :=
  let mode := fieldAt b 10 1
  let es := fieldAt b 11 1
  let stride := sInt 16 (fieldAt b 8 2)
  let all := fun m : Int => misIf (!(sInt 32 (fieldAt b 4 4) % m == 0 && stride % m == 0 && (fieldAt b 0 4 : Int) % m == 0))
  chks [range (fieldAt b 0 4) 0 0x5FFFF, range mode 0 3, zero (fieldAt b 12 4),
    match mode with
    | 0 => chks [zero es, all 32]
    | 1 => if es == 1 || es == 2 || es == 4 || es == 8 then all es else limIf true
    | 2 => chks [zero es, misIf (stride != 0)]
    | _ => chks [zero es, limIf (!(decide (1 ≤ stride) && decide (stride ≤ 32)))]]

/-- The words of a program's body. -/
def progBody (b : Bytes) : List Nat := (recs b (16 + 16 * fieldAt b 4 1) 8 (fieldAt b 0 4)).map fun w => fieldAt w 0 8

/-- One stream program of a directory length (R151, R155). -/
def progChk (b : Bytes) (len : Nat) : Chk :=
  let ds := progDescs b
  let ws := progBody b
  chks [range (fieldAt b 0 4) 1 1024, range (fieldAt b 4 1) 0 8, range (fieldAt b 5 1) 1 32, zero (fieldAt b 6 10),
    badIf (len != 16 + 16 * fieldAt b 4 1 + 8 * fieldAt b 0 4), chkAll (recs b 16 16 (fieldAt b 4 1)) descChk, chkAll ws (wordChk ds),
    badIf (loopDepth ws != some 0)]

/-- Section 0x0001. -/
def progsChk (b : Bytes) : Chk := chks [dirChk b 4096, chkAll (dirOf b) fun d => progChk (dirItem b d) d.2]

end Sys2Proof.Machine
end

