-- ==== Sys2Proof/Machine/LoadVar.lean ====
section
/-! DEFINITION. LOAD_GRAPH: the checks of schedule variants: configuration record, cadences, dispatch tables (R332 to R334, R547, R542). -/

namespace Sys2Proof.Machine

/-- The configuration record (chapter 02). -/
def cfgChk (b : Bytes) : Chk :=
  let c := parseCfg b
  chks [range c.clusters 1 16, limIf (!([1, 2, 4, 8, 16].contains c.pcie)), range c.cores 1 512, range c.pch 1 256, range c.rolog 0 16,
    range (fieldAt b 7 1) 0 8, multiple c.saveArea 4096, limIf (decide (0x4800000000 < c.saveArea + c.saveLen)), zero (fieldAt b 0x18 8)]

/-- One cadence entry (chapter 02). -/
def cadenceChk (b : Bytes) : Chk :=
  let c := parseCadence b
  chks [range c.stream 0 63, zero (fieldAt b 1 1), zero (c.due % 64), range c.k 1 65535, zero (fieldAt b 6 2), range c.lead 1 16776192,
    range c.rows 1 1048576]

/-- Exactly one cadence entry a stream, with the rows that variant 0 gives it (R547). -/
def cadencesChk (g : Graph) (v : Nat) : Chk :=
  let cs := g.cadencesOf v
  chks [badIf (decide ((g.varSect v).length < 32 + 16 * g.streams)), chkAll (recs (g.varSect v) 32 16 g.streams) cadenceChk,
    badIf (!distinct (cs.map fun c => c.stream)), badIf (cs.any fun c => decide (g.streams ≤ c.stream)),
    badIf (cs.any fun c => (g.cadencesOf 0).any fun d => d.stream == c.stream && d.rows != c.rows)]

/-- The dispatch header and the length of the tables it counts (R332). -/
def dispatchChk (b : Bytes) (h : Nat) : Chk :=
  chks [range (fieldAt b h 4) 1 1048576, range (fieldAt b (h + 4) 2) 0 4096, range (fieldAt b (h + 6) 1) 0 64, zero (fieldAt b (h + 7) 1),
    range (fieldAt b (h + 8) 2) 0 1024, range (fieldAt b (h + 10) 2) 0 256, zero (fieldAt b (h + 12) 4),
    badIf (decide (b.length < h + 16 + 16 * fieldAt b (h + 4) 2 + 16 * fieldAt b (h + 6) 1 + 32 * fieldAt b (h + 8) 2 + 32 * fieldAt b (h + 10) 2
      + 32 * fieldAt b h 4))]

/-- Slot records (R332, R334). -/
def slotsChk (clusters : Nat) (bs : List Bytes) : Chk :=
  let rs := bs.map parseSlot
  chks [chkAll bs fun b => chks [zero (fieldAt b 2 2), zero (fieldAt b 12 4)],
    chkAll rs fun r => chks [range r.cluster 0 15, badIf (decide (clusters ≤ r.cluster)), multiple r.off 64, range r.len 64 25165824,
      limIf (decide (25165824 < r.off + r.len))],
    badIf (!distinct (rs.map fun r => (r.cluster, r.slot)))]

/-- Weir records (R332, R334). -/
def weirsChk (bs : List Bytes) : Chk :=
  let rs := bs.map parseWeir
  chks [chkAll bs fun b => chks [zero (fieldAt b 3 1), zero (fieldAt b 10 6)],
    chkAll rs fun r => chks [range r.inst 0 63, range r.action 0 1, range r.stream 0 63,
      if r.action == 1 then chks [zero r.arrivals, zero r.flag] else chks [range r.arrivals 1 4096, range r.flag 0 1023]],
    badIf (!distinct (rs.map fun r => r.inst))]

/-- Flow records (R332, R334). -/
def flowsChk (bs : List Bytes) : Chk :=
  let rs := bs.map parseFlow
  chks [chkAll bs fun b => chks [zero (fieldAt b 3 1), zero (fieldAt b 24 8)],
    chkAll rs fun r => chks [range r.flow 0 1023, range r.stream 0 63, range r.segs 1 4096, range r.window r.segs 4096, multiple r.outOff 64,
      multiple r.segBytes 64, limIf (decide (r.segBytes < 64))],
    badIf (!distinct (rs.map fun r => r.flow)), limIf (decide (16384 < (rs.map fun r => r.window).sum))]

/-- HBM area records (R332, R333): their own fields, a save area apart from them, and the records that uses need: a build in HBM, a build
across clusters that may spill, a group-by whose groups may outgrow a store, an index, an image that its limit set lets outgrow a lane's buffer,
a derived table. -/
def areasChk (g : Graph) (c : VarCfg) (bs : List Bytes) : Chk :=
  let rs := bs.map parseArea
  let need := fun k o => badIf (!(rs.any fun r => r.kind == k && r.owner == o))
  chks [chkAll bs fun b => chks [zero (fieldAt b 1 1), zero (fieldAt b 4 4), zero (fieldAt b 24 8)],
    chkAll rs fun r => chks [range r.kind 1 7,
      if r.kind == 1 then range r.owner 0 63 else if r.kind == 6 then range r.owner 0 7 else badIf (decide (g.tplCount ≤ r.owner)),
      multiple r.base 4096, multiple r.len 4096, limIf (decide (r.len < 4096)), limIf (decide (c.pch * 0x48000000 < r.base + r.len))],
    badIf (!distinct (rs.map fun r => (r.kind, r.owner))), badIf (anyOverlap ((c.saveArea, c.saveLen) :: rs.map fun r => (r.base, r.len))),
    chkAll g.tpls.zipIdx fun (p : Tpl × Nat) =>
      let ps := g.params p.1
      let quern := fun op => p.1.kind == 3 && p.1.unit == 1 && p.1.op == op
      let key := takeCols (ps.drop 2)
      let vals := takeCols key.2
      chks [if quern 3 && placementOf (ps.getD 1 0) c.clusters == 2 then need 2 p.2 else {},
        if quern 3 && placementOf (ps.getD 1 0) c.clusters == 1 then need 3 p.2 else {},
        if quern 9 && decide (0x1000000 < ps.getD 0 0 * groupBytes key.1 (takeList vals.2).1.length) then need 5 p.2 else {},
        if p.1.kind == 3 && p.1.unit == 1 && (p.1.op == 5 || p.1.op == 7) then need 4 p.2 else {},
        chkAll ((g.tableWords p.1).filter fun w => bitOf w 12) fun w => need 7 (bitsOf w 31 16)],
    chkAll g.intakes fun r =>
      if bitOf r.flags 1 && decide (4194304 < min (r.imgW * r.imgH) r.imgPix) then chkAll (List.range c.intake) fun i => need 6 i else {}]

/-- The tensor slots that a Millstone layer names (R323, R334). -/
def LayerRec.slots (l : LayerRec) : List Nat :=
  [l.inSlot, l.out] ++ (if l.op == 4 || l.op == 5 then [l.in2] else []) ++
    (if bitOf l.epi 3 || (l.op == 2 && bitOf l.mode 4) || l.op == 4 then [l.aux] else [])

/-- One placement entry against its template and the variant's tables (R332, R334). -/
def placeChk (g : Graph) (t : VarTables) (r : Place) : Chk :=
  let has := fun z => t.slots.any fun x => x.cluster == r.cluster && x.slot == z
  chks [range r.cluster 0 15, range r.start 0 16776192, range r.tiles 1 1048576, multiple r.pfSrc 64, multiple r.pfDst 64, multiple r.pfLen 64,
    range r.pfLen 0 65536, badIf (decide (0x60000 < r.pfDst + r.pfLen)),
    match g.tpl r.tpl with
    | none => badIf true
    | some p =>
      chks [if p.kind == 1 then limIf (!(decide (r.core ≤ 31) || r.core == 0xFF)) else zero r.core,
        if p.flow == 0xFFFF then badIf (r.seg != 0xFFFF)
        else match t.flows.find? fun f => f.flow == p.flow with
          | none => badIf true
          | some f => chks [badIf (!has p.outSlot), limIf (decide (f.segs ≤ r.seg)),
              badIf (t.slots.any fun x => x.cluster == r.cluster && x.slot == p.outSlot && decide (f.segBytes < x.len))],
        if p.weir == 0xFF then {} else badIf (!(t.weirs.any fun w => w.inst == p.weir && (w.action == 1 || bitOf w.parts r.cluster))),
        if p.kind == 2 then (match g.layer p.kernel p.layer with | some l => badIf (!(l.slots.all has)) | none => {}) else {}]]

/-- The placement entries as a whole (R334): arrivals of FLAG instances, segments of flows, entries of a cluster and stream. -/
def placesChk (g : Graph) (t : VarTables) : Chk :=
  let ps := t.places.map fun r => (r, g.tpl r.tpl)
  chks [chkAll t.places (placeChk g t),
    chkAll (t.weirs.filter fun w => w.action == 0) fun w => chkAll (setBits 16 w.parts) fun k =>
      badIf ((ps.filter fun p => p.1.cluster == k && p.2.any fun x => x.weir == w.inst).length != w.arrivals),
    chkAll t.flows fun f =>
      let ss := (ps.filter fun p => p.2.any fun x => x.flow == f.flow).map fun p => p.1.seg
      badIf (!(ss.length == f.segs && (List.range f.segs).all fun i => ss.contains i)),
    chkAll (List.range 16) fun k => chkAll (List.range 64) fun n =>
      limIf (decide (4096 < (ps.filter fun p => p.1.cluster == k && p.2.any fun x => x.stream == n).length))]

/-- The whole of variant `v`. -/
def variantChk (g : Graph) (v : Nat) : Chk :=
  let b := g.varSect v
  let h := 32 + 16 * g.streams
  let c := parseCfg b
  let t := g.tablesOf v
  let oS := h + 16
  let oW := oS + 16 * fieldAt b (h + 4) 2
  let oF := oW + 16 * fieldAt b (h + 6) 1
  let oA := oF + 32 * fieldAt b (h + 8) 2
  chks [cfgChk b, cadencesChk g v, dispatchChk b h, slotsChk c.clusters (recs b oS 16 (fieldAt b (h + 4) 2)),
    weirsChk (recs b oW 16 (fieldAt b (h + 6) 1)), flowsChk (recs b oF 32 (fieldAt b (h + 8) 2)),
    areasChk g c (recs b oA 32 (fieldAt b (h + 10) 2)), placesChk g t]

/-- The INDEX values of the variant sections run from 0 to VARIANT_COUNT - 1, each once (R55, R542); every variant is checked. -/
def variantsChk (g : Graph) (n : Nat) : Chk :=
  let ix := (g.sections.filter fun x => x.ty == 4).map fun x => x.index
  chks [badIf (!(ix.length == n && (List.range n).all fun v => ix.contains v)), chkAll ix (variantChk g)]

end Sys2Proof.Machine
end

