-- ==== Sys2Proof/Machine/Load.lean ====
section
/-! DEFINITION. LOAD_GRAPH (R58, R55, R503, R504, R515) and the graph's end (R59). -/

namespace Sys2Proof.Machine

/-- What a LOAD_GRAPH brings besides the image, for which a QXG has no layout: whether both signatures of the signature section
verify, where the variants place Sage images (variant, image, logical cluster, bank), and the TOKENISE and IMAGE_PREP
declarations of the graph. -/
abbrev Placed := List (Nat × Nat × Nat × Nat)

/-- A stream's BATCH_ROWS, the same in every variant (R547). -/
def Graph.rowsOf (g : Graph) (n : Nat) : Nat := (((g.cadencesOf 0).find? fun c => c.stream == n).map fun c => c.rows).getD 0

/-- The placed Sage images (R252, R542): each names an image, a cluster of its variant and a bank of its own. -/
def placedChk (g : Graph) : Chk :=
  chks [badIf (!distinct (g.sage.map fun p => (p.1, p.2.2))), chkAll g.sage fun p =>
    chks [badIf (decide ((dirOf (g.sect 7)).length ≤ p.2.1)), badIf (decide ((g.cfgOf p.1).clusters ≤ p.2.2.1)), range p.2.2.2 0 7]]

/-- The width in units of a bank of a variant's logical cluster: of the image placed there, else of the bank's EXACT configuration in force,
else the widest. -/
def State.sageWidth (s : State) (g : Graph) (v k b : Nat) : Nat :=
  match g.sage.find? fun p => p.1 == v && p.2.2 == (k, b) with
  | some p => (parseSage (g.sageImage p.2.1)).width
  | none =>
    match (s.logical (g.cfgOf v).clusters)[k]? with
    | some p => let x := tget ({} : SageBank) (tget ({} : Units) s.work.units p).sage.banks b; if x.mode == 1 then 2 ^ min 2 x.width else 4
    | none => 4

/-- The keys of LOOKUP and SAGE_BUILD against the width of their banks (R243). -/
def State.sageKeyChk (s : State) (g : Graph) (v : Nat) : Chk :=
  chkAll (g.tablesOf v).places fun r => match g.tpl r.tpl with
    | some t =>
      let ps := g.params t
      let need := fun (key : List ColW) (banks : List Nat) => chkAll banks fun b =>
        limIf (decide (16 * s.sageWidth g v r.cluster b < sageKeyBytes key))
      if t.kind == 3 && t.unit == 3 && t.op == 1 then need (takeCols (ps.drop 3)).1 (setBits 8 (ps.getD 0 0))
      else if t.kind == 3 && t.unit == 3 && t.op == 3 then need (takeCols (ps.drop 5)).1 [ps.getD 0 0 % 8]
      else {}
    | none => {}

/-- The presence of sections (R542). -/
def presenceChk (g : Graph) (toks : List TokDecl) : Chk :=
  chks [oneSect g 1 (g.tpls.any fun t => t.kind == 1), oneSect g 2 true, oneSect g 3 (g.tpls.any fun t => t.kind == 2), oneSect g 5 true,
    oneSect g 6 (!toks.isEmpty || g.intakes.any fun r => bitOf r.flags 2), oneSect g 7 (!g.sage.isEmpty), oneSect g 8 g.usesWeights,
    oneSect g 9 true]

/-- All checks of steps 4, 5 and 8 (R58). -/
def State.loadChk (s : State) (img : Bytes) (h : QHead) (g : Graph) (toks : List TokDecl) (preps : List PrepDecl) : Chk :=
  let att := fun t : Nat => s.work.tables.any fun p => p.1 == t
  chks [headChk img h, tableChk h (sectTable img h), presenceChk g toks, variantsChk g h.variants, g.ifSect 1 progsChk, tplsChk att g,
    g.ifSect 3 fun _ => kernelsChk g, intakesChk g, g.ifSect 6 dictsChk, g.ifSect 7 sagesChk, outsChk g g.rowsOf, placedChk g,
    chkAll (List.range h.variants) (s.sageKeyChk g), chkAll toks (tokChk (dirOf (g.sect 6)).length), chkAll preps prepChk, opsChk g]

/-- Whether a format version lies in the negotiated range; a module that no host has attached takes its own (R58, R61). -/
def State.fmtOk (s : State) (h : QHead) : Bool :=
  let r := if s.attached then s.glb.qxgAgreed else qxgSupport
  let ver := fun x : Nat => x / 256 * 65536 + x % 256
  decide (ver (r % 65536) ≤ h.major * 65536 + h.minor) && decide (h.major * 65536 + h.minor ≤ ver (r / 65536 % 65536))

/-- The signature check of step 7 under GRAPH_POLICY REQUIRED (R503); `verified` says whether both signatures verify under the slot's keys. -/
def State.signatureFails (s : State) (h : QHead) (g : Graph) (verified : Bool) : Bool :=
  let x := g.sect 0xF0
  let slot := fieldAt x 4 1
  let key := if slot == 0 then s.sec.owner0 else if slot == 1 then s.sec.owner1 else []
  s.sec.graphPolicy && (!bitOf h.flags 0 || g.countSect 0xF0 != 1 || fieldAt x 0 4 != 1 || fieldAt x 5 11 != 0 || fieldAt x 0xD3D 3 != 0 ||
    key.isEmpty || !verified)

/-- A failed signature: counted, and on a secondary that checks a mirrored image the pair is left (R503, R504). -/
def State.signatureFail (s : State) (seq : Nat) : State :=
  let s1 := (s.modSec fun x => { x with sigFail := sat32 x.sigFail 1 }).finish seq stSignature 0
  if setupSeq ≤ seq then s1.pairLeave else s1

/-- Steps 2 to 9 of R58 on an image as read; answers the status, RESULT and the loaded graph with its variant. -/
def State.checkImage (s : State) (img : Bytes) (c : Cmd) (sage : Placed) (toks : List TokDecl) (preps : List PrepDecl)
    (ops : OpDecls) (verified : Bool) : Nat × Nat × Option Graph :=
  let h := parseHead img
  let es := sectTable img h
  let g := { graphOf img h c.entry with sage := sage, decls := ops, toks := toks, preps := preps }
  let k := s.loadChk img h g toks preps
  if headBad h img.length then (stBadDescriptor, 0, none)
  else if !s.fmtOk h then (stVersion, 0, none)
  else if k.mis then (stMisaligned, 0, none)
  else if k.bad || sumsFail img h es then (stBadDescriptor, 0, none)
  else if es.any fun e => e.required && !knownSect e.ty then (stVersion, 0, none)
  else if s.signatureFails h g verified then (stSignature, 0, none)
  else if k.lim then (stLimit, 0, none)
  else match s.firstFit g with
  | none => (stConfigShort, s.shortfall g, none)
  | some v => (stOk, v, some { g with variant := v })

/-- The image of a LOAD_GRAPH: the bytes of its operand, or on a joining secondary those that SYNC_DATA mirrors, without the padding of its last message (R462). -/
def State.loadImage (s : State) (e : BusEnv) (c : Cmd) : Option Bytes :=
  if setupSeq ≤ c.seq then some (s.pair.syncImage.take c.entry.len0) else s.peek e (spaceOf c.entry.aspace) c.entry.addr0 c.entry.len0

/-- A graph comes into place: nothing of an earlier one remains in the dispatchers (R55, R252). -/
def State.placeGraph (s : State) (g : Graph) : State :=
  ((s.modWork fun w => { w with graph := some g, flows := [], weirs := [], saved := [] }).loadBanks g g.variant).floorCheck

/-- LOAD_GRAPH (R58, R55, R83, R462, R503, R504, R515). It waits while its image lies on a bus that may not be read (R102). -/
def execLoadGraph (seq : Nat) (e : BusEnv) (verified : Bool) (sage : Placed) (toks : List TokDecl) (decls : GraphDecls) (s : State) :
    Host.Outcome State Fault Refusal :=
  let s0 := s.env e
  .next (s0.begin seq opLoad fun c s =>
    if c.entry.aspace == 0 && !s.inD0 && decide (seq < setupSeq) then s0
    else if s.anyStackOff then s.finish seq stDomainOff 0
    else if s.work.graph.isSome then s.finish seq stBusy 0
    else match s.loadImage e c with
    | none => s.finish seq stBusError 0
    | some img =>
      let s1 := if setupSeq ≤ seq then s else s.readEffect (spaceOf c.entry.aspace) c.entry.addr0 c.entry.len0
      match s1.checkImage img c sage toks decls.preps decls.ops verified with
      | (st, r, some g) => (s1.placeGraph g).finish seq st r
      | (st, r, none) => if st == stSignature then s1.signatureFail seq else s1.finish seq st r)

end Sys2Proof.Machine
end

