-- ==== Sys2Proof/Machine/Lovage.lean ====
section
/-! DEFINITION. Lovage (R297 to R305): sample positions, mesh and lens model in FP32, filtering, colour, normalisation and output. -/

namespace Sys2Proof.Machine

/-- A value rounded to FP32 by RNE. -/
def r32 (v : FVal) : FVal := fp32.decode (fp32.encode 0 v).1
def f32 (bits : Nat) : FVal := fp32.decode (bits % 2 ^ 32)
def fNat (n : Nat) : FVal := r32 (.fin false n 1)
def qAdd (a b : FVal) : FVal := r32 (fAdd 0 a b).1
def qSub (a b : FVal) : FVal := r32 (fAdd 0 a b.negate).1
def qMul (a b : FVal) : FVal := r32 (fMul a b).1
def qDiv (a b : FVal) : FVal := r32 (fDiv a b).1

/-- Whether a value is finite. -/
def FVal.finite : FVal → Bool
  | .fin _ _ _ => true
  | _ => false

/-- A finite value as a rational. -/
def FVal.rat : FVal → Rat
  | .fin s n d => (if s then -1 else 1) * (n : Rat) / (d : Rat)
  | _ => 0

/-- A rational as a value. -/
def ofRat (q : Rat) : FVal := .fin (decide (q < 0)) q.num.natAbs q.den

/-- The mesh points in use: the row's own, the constant, or evenly spaced ones (R297). -/
def prepMesh (d : PrepDecl) (row : Option (List Nat)) : List FVal :=
  match row, d.mesh with
  | some m, _ => m.map f32
  | none, some m => m.map f32
  | none, none => (List.range (d.gy + 1)).flatMap fun j => (List.range (d.gx + 1)).flatMap fun i =>
      [qDiv (fNat i) (fNat d.gx), qDiv (fNat j) (fNat d.gy)]

/-- The lens values in use (R297). -/
def prepLens (d : PrepDecl) (row : Option (List Nat)) : List FVal :=
  match row, d.lens with
  | some l, _ => l.map f32
  | none, some l => l.map f32
  | none, none => [.fin false 1 2, .fin false 1 2, .fin false 1 1, .fin false 0 1, .fin false 0 1, .fin false 0 1, .fin false 0 1, .fin false 0 1]

/-- The perspective map of a mesh cell: a to h of R299, and whether den is 0. -/
structure CellMap where
  a : FVal
  b : FVal
  c : FVal
  d : FVal
  e : FVal
  f : FVal
  g : FVal
  h : FVal
  bad : Bool

def fZero : FVal := .fin false 0 1

/-- The map of cell (i, j) for a source of w x h pixels (R299). -/
def cellMap (m : List FVal) (gx w h i j : Nat) : CellMap :=
  let px := fun (p q : Nat) => qMul (m.getD (2 * (q * (gx + 1) + p)) fZero) (fNat w)
  let py := fun (p q : Nat) => qMul (m.getD (2 * (q * (gx + 1) + p) + 1) fZero) (fNat h)
  let x0 := px i j
  let x1 := px (i + 1) j
  let x2 := px (i + 1) (j + 1)
  let x3 := px i (j + 1)
  let y0 := py i j
  let y1 := py (i + 1) j
  let y2 := py (i + 1) (j + 1)
  let y3 := py i (j + 1)
  let dx1 := qSub x1 x2
  let dx2 := qSub x3 x2
  let dx3 := qSub (qAdd (qSub x0 x1) x2) x3
  let dy1 := qSub y1 y2
  let dy2 := qSub y3 y2
  let dy3 := qSub (qAdd (qSub y0 y1) y2) y3
  let den := qSub (qMul dx1 dy2) (qMul dx2 dy1)
  let g := qDiv (qSub (qMul dx3 dy2) (qMul dx2 dy3)) den
  let hh := qDiv (qSub (qMul dx1 dy3) (qMul dx3 dy1)) den
  { a := qAdd (qSub x1 x0) (qMul g x1), b := qAdd (qSub x3 x0) (qMul hh x3), c := x0, d := qAdd (qSub y1 y0) (qMul g y1)
    e := qAdd (qSub y3 y0) (qMul hh y3), f := y0, g := g, h := hh, bad := den.isZero }

/-- A source position, or none of w <= 0 (R299). -/
structure SrcPos where
  behind : Bool
  x : FVal
  y : FVal

/-- The ideal position of (s, t) in a cell (R299). -/
def CellMap.at_ (m : CellMap) (s t : FVal) : SrcPos :=
  let w := qAdd (qAdd (qMul m.g s) (qMul m.h t)) (.fin false 1 1)
  { behind := !fLt fZero w && w != .nan, x := qDiv (qAdd (qAdd (qMul m.a s) (qMul m.b t)) m.c) w
    y := qDiv (qAdd (qAdd (qMul m.d s) (qMul m.e t)) m.f) w }

/-- The lens model (R300). -/
def lensAt (l : List FVal) (w h : Nat) (p : SrcPos) : SrcPos :=
  let v := fun i => l.getD i fZero
  let one : FVal := .fin false 1 1
  let two : FVal := .fin false 2 1
  let cx := qMul (v 0) (fNat w)
  let cy := qMul (v 1) (fNat h)
  let fl := qMul (v 2) (fNat (max w h))
  let xn := qDiv (qSub p.x cx) fl
  let yn := qDiv (qSub p.y cy) fl
  let r2 := qAdd (qMul xn xn) (qMul yn yn)
  let k := qAdd (qAdd (qAdd one (qMul (v 3) r2)) (qMul (qMul (v 4) r2) r2)) (qMul (qMul (qMul (v 5) r2) r2) r2)
  let xd := qAdd (qAdd (qMul xn k) (qMul (qMul (qMul two (v 6)) xn) yn)) (qMul (v 7) (qAdd r2 (qMul (qMul two xn) xn)))
  let yd := qAdd (qAdd (qMul yn k) (qMul (v 6) (qAdd r2 (qMul (qMul two yn) yn)))) (qMul (qMul (qMul two (v 7)) xn) yn)
  { p with x := qAdd (qMul fl xd) cx, y := qAdd (qMul fl yd) cy }

/-- Pixel (p, q) of an image, channel c, with indices clamped to the image (R301). -/
def Img.at_ (m : Img) (p q : Int) (c : Nat) : Rat :=
  let x := (max 0 (min ((m.w : Int) - 1) p)).toNat
  let y := (max 0 (min ((m.h : Int) - 1) q)).toNat
  let i := y * m.w + x
  (((m.pix.getD (if m.gray then i else 3 * i + c) 0).toNat : Nat) : Rat)

/-- The cubic convolution kernel with a = -0.5 (R301). -/
def cubicW (t : Rat) : Rat :=
  let u := |t|
  if u ≤ 1 then (3 / 2) * u ^ 3 - (5 / 2) * u ^ 2 + 1
  else if u < 2 then -(1 / 2) * u ^ 3 + (5 / 2) * u ^ 2 - 4 * u + 2
  else 0

/-- The filtered value of a channel at an in-bounds position (R301). -/
def Img.sample (m : Img) (filter : Nat) (x y : Rat) (c : Nat) : Rat :=
  let x0 := (x - 1 / 2).floor
  let y0 := (y - 1 / 2).floor
  let fx := x - 1 / 2 - x0
  let fy := y - 1 / 2 - y0
  match filter with
  | 0 => m.at_ x.floor y.floor c
  | 1 =>
    let row := fun q => m.at_ x0 q c + fx * (m.at_ (x0 + 1) q c - m.at_ x0 q c)
    row y0 + fy * (row (y0 + 1) - row y0)
  | _ =>
    let ks : List Int := [-1, 0, 1, 2]
    let row := fun (j : Int) => (ks.map fun (i : Int) => cubicW (fx - (i : Rat)) * m.at_ (x0 + i) (y0 + j) c).foldl (· + ·) 0
    let v := (ks.map fun (j : Int) => cubicW (fy - (j : Rat)) * row j).foldl (· + ·) 0
    max 0 (min 255 v)

/-- The ideal position of sub-sample (a, b) of output pixel (u, v) (R298, R299). -/
def prepPos (d : PrepDecl) (mesh : List FVal) (w h u v a b : Nat) : SrcPos :=
  let sn := (2 * d.sup * u + 2 * a + 1) * d.gx
  let sd := 2 * d.sup * d.outW
  let tn := (2 * d.sup * v + 2 * b + 1) * d.gy
  let td := 2 * d.sup * d.outH
  let i := min (sn / max 1 sd) (d.gx - 1)
  let j := min (tn / max 1 td) (d.gy - 1)
  (cellMap mesh d.gx w h i j).at_ (r32 (.fin false (sn - i * sd) sd)) (r32 (.fin false (tn - j * td) td))

/-- Whether a position is out of bounds (R301). -/
def SrcPos.out (p : SrcPos) (w h : Nat) : Bool :=
  p.behind || fLt p.x fZero || fLt (fNat w) p.x || fLt p.y fZero || fLt (fNat h) p.y

/-- A coordinate clamped to the source. -/
def fClamp (n : Nat) (x : FVal) : FVal := if fLt x fZero then fZero else if fLt (fNat n) x then fNat n else x

/-- The channels of a filtered sample: R, G, B, or Y alone (R303). A position that is no number gives a value the spec does not state
(log entry 23). -/
def subSample (d : PrepDecl) (m : Img) (p : SrcPos) : List Rat :=
  let n := if m.gray then 1 else 3
  (List.range n).map fun c =>
    if p.x.finite && p.y.finite then m.sample d.filter p.x.rat p.y.rat c else ((Config.unstated 7 c (m.w * 65536 + m.h) % 256 : Nat) : Rat)

/-- One output pixel: the mean of its in-bounds sub-samples per source channel, or none; how many were out of bounds, and filtered. -/
def prepPixel (d : PrepDecl) (m : Img) (mesh lens : List FVal) (u v : Nat) : Option (List Rat) × Nat × Nat :=
  let subs := (List.range d.sup).flatMap fun b => (List.range d.sup).map fun a => lensAt lens m.w m.h (prepPos d mesh m.w m.h u v a b)
  let outs := (subs.filter fun p => p.out m.w m.h).length
  let use := if d.border == 1 then subs.map fun p => { p with x := fClamp m.w p.x, y := fClamp m.h p.y } else subs.filter fun p => !p.out m.w m.h
  let vals := use.map (subSample d m)
  let k := vals.length
  let mean := (List.range (if m.gray then 1 else 3)).map fun c => ((vals.map fun l => l.getD c 0).foldl (· + ·) 0) / (k : Rat)
  (if k == 0 then none else some mean, outs, k)

/-- Channels of an output (R303). -/
def prepChans (d : PrepDecl) : Nat := if d.colour == 2 then 1 else 3

/-- Colour selection of a pixel (R303). -/
def prepColour (d : PrepDecl) (l : List Rat) : List Rat :=
  let ch := fun i => if l.length == 1 then l.getD 0 0 else l.getD i 0
  match d.colour with
  | 0 => [ch 0, ch 1, ch 2]
  | 1 => [ch 2, ch 1, ch 0]
  | _ => if l.length == 1 then [ch 0] else [(299 * ch 0 + 587 * ch 1 + 114 * ch 2) / 1000]

/-- A channel's data element: normalised by an FMA in FP32 unless the output is UINT8 (R303). -/
def prepNorm (d : PrepDecl) (c : Nat) (v : Rat) : FVal :=
  if d.outTy == 0x03 then ofRat v
  else
    let sd := f32 (d.std.getD c 0)
    let a := r32 (fDiv (.fin false 1 1) (fMul (.fin false 255 1) sd).1).1
    let b := r32 (fDiv (f32 (d.mean.getD c 0)).negate sd).1
    r32 (fAdd 0 (fMul (r32 (ofRat v)) a).1 b).1

/-- A value as an element of a type that is not MX, by RNE or SR with a draw (R303, R149). -/
def prepElem (d : PrepDecl) (u : Nat) (v : FVal) : Nat :=
  match laneTy d.outTy with
  | some ⟨_, .flt f⟩ =>
    match v with
    | .fin s n m => (f.round (if d.rnd == 5 && d.outTy != 0x12 then 5 else 0) false u s n m).1
    | x => (f.encode 0 x).1
  | _ =>
    match v with
    | .fin s n m => (max 0 (min 255 (roundInt 0 s n m))).toNat
    | .inf s => if s then 0 else 255
    | .nan => 0

/-- The position of channel c of pixel (u, v) among the elements of an image, for an innermost dimension padded to `inner` (R110). -/
def prepInner (d : PrepDecl) : Nat :=
  let z := if d.layout == 1 then prepChans d else d.outW
  if isMx d.outTy then alignUp 32 z else z
def prepCount (d : PrepDecl) : Nat := (if d.layout == 1 then d.outH * d.outW else prepChans d * d.outH) * prepInner d

/-- Which channel and pixel an element position holds; none for padding of R110. -/
def prepAt (d : PrepDecl) (i : Nat) : Option (Nat × Nat × Nat) :=
  let z := prepInner d
  let o := i / max 1 z
  let k := i % max 1 z
  if d.layout == 1 then (if k < prepChans d then some (k, o % max 1 d.outW, o / max 1 d.outW) else none)
  else (if k < d.outW then some (o / max 1 d.outH, k, o % max 1 d.outH) else none)

/-- The elements of an image from the values at element positions: codes, and scale bytes for an MX type (R108 to R110, R150, R303). `draw`
gives the draw of block and element. -/
def prepCodes (d : PrepDecl) (draw : Nat → Nat → Nat) (vs : List FVal) : List Nat × List Nat :=
  if isMx d.outTy then
    let blocks := (List.range (ceilDiv vs.length 32)).map fun b =>
      qmxBlock (d.outTy - 0x20) (if d.rnd == 5 then 5 else 0) (draw b) ((vs.drop (32 * b)).take 32)
    (blocks.flatMap fun q => q.2.1, blocks.map fun q => q.1)
  else (vs.zipIdx.map fun p => prepElem d (draw 0 p.2) p.1, [])

/-- The bytes of an image's row of which every element is a padding element (R132, R301), as runs of the row's elements that fill whole
bytes: first element and count. -/
def padRuns (w : Nat) (pads : List Bool) : List (Nat × Nat) :=
  let z := if w == 4 then 2 else if w == 6 then 4 else 1
  ((List.range (ceilDiv pads.length z)).filter fun g => (((pads.drop (z * g)).take z).all id)).map fun g => (z * g, z)

/-- Writes an image's row of the output: elements with one validity, and scales (R290's form for tensors, R304); `pads` says which of its
elements are padding elements. -/
def State.putImage (s : State) (n b : Nat) (d : PrepDecl) (dst : Dest) (slot : Nat) (valid : Bool) (codes : List Nat × List Nat) (pads : List Bool) : State :=
  match s.destCluster dst with
  | none => s
  | some k =>
    if slot < dst.first || dst.first + dst.count ≤ slot then s
    else
      let c := parseCol (dst.cols.getD 0 0)
      let o := (slot - dst.first) * prepCount d
      let at_ := fun (j m v : Nat) => ({ k := k, first := dst.first, count := dst.count, col := parseCol (dst.cols.getD j 0), form := .elems m v } : ColAt)
      let s := s.noteCols n b (at_ 0 (prepCount d) 0 :: if codes.2.isEmpty then [] else [at_ 1 codes.2.length 127])
      let s := s.mark n (some b) k c.slot ({ at_ := c.byteOf o, len := tyBits c.ty * prepCount d / 8, valid := valid, pad := false } ::
        (padRuns (tyBits c.ty) pads).map fun r => { at_ := c.byteOf (o + r.1), len := tyBits c.ty * r.2 / 8, valid := valid, pad := true })
      let s1 := s.putElems k c o (codes.1.map fun x => (valid, x))
      if codes.2.isEmpty then s1
      else s1.putElems k (parseCol (dst.cols.getD 1 0)) ((slot - dst.first) * codes.2.length) (codes.2.map fun x => (valid, x))

/-- Whether the geometry of an image is bad (R302). -/
def prepBad (d : PrepDecl) (mesh lens : List FVal) (w h : Nat) : Bool :=
  mesh.length != 2 * (d.gx + 1) * (d.gy + 1) || lens.length != 8 || !(mesh.all FVal.finite) || !(lens.all FVal.finite) ||
    !fLt fZero (lens.getD 2 fZero) ||
    (List.range d.gy).any fun j => (List.range d.gx).any fun i => (cellMap mesh d.gx w h i j).bad

/-- The draw of an element under SR (R141, R303). An output that is not MX has one block, number 0: its lanes count the image's elements
(DEDUCED, log entry 135). -/
def State.prepDraw (s : State) (d : PrepDecl) (n b slot blk lane : Nat) : Nat :=
  let st := s.stream n
  srDraw st.seed (st.epochOf b) n b slot (if isMx d.outTy then blk % 2 ^ 19 else 0) lane

/-- Values that all hold PAD_c (R301, R304). -/
def prepPads (d : PrepDecl) : List FVal :=
  (List.range (prepCount d)).map fun i => ((prepAt d i).map fun p => f32 (d.pad.getD p.1 0)).getD fZero

/-- Counts the bytes of an image written (INT_BYTES_OUT). -/
def Lane.wrote (l : Lane) (d : PrepDecl) (codes : List Nat × List Nat) : Lane :=
  { l with bytesOut := (l.bytesOut + (codes.1.length * tyBits d.outTy + 7) / 8 + codes.2.length) % 2 ^ 64 }

/-- Lovage's work on an image (R298 to R303). -/
def State.lovageWork (s : State) (i n b slot : Nat) (d : PrepDecl) (m : Img) (mesh lens : List FVal) (dst : Dest) : State :=
  let pix := (List.range d.outH).map fun v => (List.range d.outW).map fun u => prepPixel d m mesh lens u v
  let outs := (pix.map fun r => (r.map fun p => p.2.1).foldl (· + ·) 0).foldl (· + ·) 0
  let subs := (pix.map fun r => (r.map fun p => p.2.2).foldl (· + ·) 0).foldl (· + ·) 0
  let vs := (List.range (prepCount d)).map fun e => match prepAt d e with
    | none => fZero
    | some (c, u, v) => match (((pix.getD v []).getD u (none, 0, 0)).1) with
      | some l => prepNorm d c ((prepColour d l).getD c 0)
      | none => f32 (d.pad.getD c 0)
  let codes := prepCodes d (s.prepDraw d n b slot) vs
  let pads := (List.range (prepCount d)).map fun e => (prepAt d e).any fun p => ((pix.getD p.2.2 []).getD p.2.1 (none, 0, 0)).1.isNone
  (s.putImage n b d dst slot true codes pads).modLane i fun l => { l.wrote d codes with
    border := sat32 l.border outs, lovSamples := (l.lovSamples + subs) % 2 ^ 64 }

/-- A per-row list of a declaration, where its column has one for the row (R297). -/
def Lane.rowList (l : Lane) (slot : Nat) (col : Option Nat) : Option (List Nat) :=
  col.bind fun c => if (l.value slot c).valid then some (l.value slot c).elems else none

/-- Declaration number `o` has worked on an image, or will not: the image goes once none is left. -/
def Lane.imageDone (l : Lane) (slot col o : Nat) : Lane :=
  { l with images := (l.images.map fun m => if m.slot == slot && m.col == col then { m with left := m.left.filter fun x => x != o } else m).filter fun m => !m.left.isEmpty }

/-- LOVAGE_IMAGE: Lovage straightens, resamples and normalises the image of a row (R297 to R305): a null image gives PAD with validity 0, a
void row no work, bad geometry a void row. Whether there is an image, and the row's lists, are what the lane has decoded. -/
def execLovageImage (lane : Fin 8) (n : Fin 64) (b slot : Nat) (d : PrepDecl) (present : Bool) (mesh lens : Option (List Nat)) (dst : Dest)
    (s : State) : Host.Outcome State Fault Refusal :=
  .next (match s.work.graph with
    | none => s
    | some g =>
      let l := s.lane lane.val
      let o := (g.imagesOf n.val).idxOf d
      let cols := g.budgetCols n.val 1
      let void_ := s.voidOf n.val (some b) slot != 0
      let fill := fun (t : State) => t.putImage n.val b d dst slot false (prepCodes { d with rnd := 0 } (fun _ _ => 0) ((List.range (prepCount d)).map fun _ => fZero)) []
      let ends := fun (t : State) => ((t.setMade lane.val slot true o).modLane lane.val fun l => l.imageDone slot d.col o).laneSettle lane.val
      if !s.rowDone g lane.val n.val b slot || !(g.imagesOf n.val).contains d || l.made.contains (slot, true, o) ||
        l.pendingSample cols 1 (slot, cols.idxOf d.col) then s
      else if void_ then ends (fill s)
      else if present != (l.value slot d.col).valid || mesh != l.rowList slot d.meshCol || lens != l.rowList slot d.lensCol then s
      else if !present then
        let codes := prepCodes { d with rnd := 0 } (fun _ _ => 0) (prepPads d)
        ends ((s.putImage n.val b d dst slot false codes []).modLane lane.val fun l => l.wrote d codes)
      else match l.images with
      | [] => s
      | m :: _ =>
        if m.slot != slot || m.col != d.col then s
        else
          let ms := prepMesh d mesh
          let ls := prepLens d lens
          if prepBad d ms ls m.w m.h then
            ends ((fill (s.sampleVoid g lane.val n.val b slot 0 vrCorrupt)).modLane lane.val fun l => { l with badGeom := sat32 l.badGeom 1 })
          else ends (s.lovageWork lane.val n.val b slot d m ms ls dst))

end Sys2Proof.Machine
end

