-- ==== Sys2Proof/Machine/Resets.lean ====
section
/-! DEFINITION. Resets, power-up and boot (chapters 03, 15, 17, 18, 19: R78, R89, R429 to R431, R480, R486, R496, R512, R513, R537,
R538, R543). -/

namespace Sys2Proof.Machine

/-- The fault state across a reset of R89: only a recovery in progress is abandoned (R473, R481, R488; log entry 45). -/
def Err.hostReset (e : Err) : Err :=
  { e with state := if e.state == 2 then 2 else 0, double := false, recovering := [], fenced := [], logSel := 0, injKind := 0, injIndex := 0
           transients := 0, lasting := 0, rerun := 0, maxPause := 0, logLost := 0 }

/-- The fault state after a cold boot: what flash holds (R468, R481, R488), and a removed copy. -/
def Err.coldReset (e : Err) : Err :=
  { ({} : Err) with flash := e.flash, cached := e.cached, removed := e.removed, duplexTrc := e.removed.any fun r => r.1 == 14
                    out := e.removed.filter fun r => r.1 == 14 || r.1 == 15 }

/-- Power and sensors across a reset of R89: registers, cap and domains return to reset, the surroundings stay (log
entry 45). -/
def Pwr.hostReset (p : Pwr) : Pwr :=
  { ({} : Pwr) with running := p.running, good := p.good, starting := p.starting, latched := p.latched, mv10 := p.mv10, watts := p.watts
                    tempDie := p.tempDie, tempHbm := p.tempHbm, samples := p.samples }

/-- The memories across a reset: host memory stays, HBM contents become undefined (log entry 45). -/
def Mem.reset (m : Mem) (g : Nat) : Mem :=
  { ({} : Mem) with bus := m.bus, hbm := scramble g m.hbm
                    hbmc := m.hbmc.filterMap fun (p : Nat × HbmCtl) => if p.2.trained then some (p.1, { ({} : HbmCtl) with trained := true }) else none }

/-- The Rolog lanes in service after a reset that leaves the ports as they are trained: those in service before, and those of a port whose
domain comes back on (R30, R445, R533). -/
def State.keptRolog (s : State) : Nat :=
  (List.range 16).foldl (fun m i => withBit m i (bitOf s.fit.rolog i && (bitOf s.present.rolog i || s.domOff (24 + i / 8)))) 0

/-- All device state cleared (R89). GLB_RESET_CAUSE takes the code of the reset and keeps WARM_COUNT (R538); the MGI agreement of this
cold boot stays (R536). -/
def State.hostReset (s : State) (cause : Nat) : State :=
  { ({} : State) with
    now := s.now, free := s.free + 1, out := s.out, pending := s.pending, fit := s.fit, present := { s.fit with rolog := s.keptRolog }
    mem := s.mem.reset s.free
    glb := { ({} : Glb) with ready := s.glb.ready, fwVersion := s.glb.fwVersion, mgiAgreed := s.glb.mgiAgreed, resetCause := cause
                             warmCount := s.glb.warmCount }
    err := s.err.hostReset
    evc := { ({} : Evc) with duplex := s.evc.duplex }
    pci := { ({} : Pci) with rate := s.pci.rate, width := s.pci.width, linkUp := s.pci.linkUp, lanes := s.pci.lanes, perst := s.pci.perst
                             frs := s.pci.frs, dstate := s.pci.dstate }
    chain := { ({} : Chain) with lastBeat := s.chain.lastBeat }
    pair := { ({} : Pair2) with portsUp := s.pair.portsUp, lanes0 := s.pair.lanes0, lanes1 := s.pair.lanes1, latency := s.pair.latency }
    sec := { s.sec with sigFail := 0, ide := false }
    pwr := s.pwr.hostReset
    mgt := s.mgt }

/-- Takes the module out of the boot state: nothing runs until stage 3 has completed again (R431, R434). -/
def State.unboot (s : State) : State :=
  { s with glb := { s.glb with ready := false }
           pci := { s.pci with linkUp := false, rate := 0, width := 0, frs := false, dstate := .d0 }
           mgt := { s.mgt with stage := 0, booting := false, stage3At := none } }

/-- A cold boot begins: everything but flash, host memory and the surroundings is cleared; the trial mark of the firmware
slots is judged; debug levels end or begin; a new HBM key is drawn (R480, R506, R508, R525). -/
def State.coldClear (s : State) (cause : Nat) : State :=
  let s1 := (s.hostReset cause).unboot
  { s1 with
    fit := {}, present := {}
    glb := { ({} : Glb) with resetCause := cause }
    err := { s.err.coldReset with grade := 7 }
    evc := { ({} : Evc) with duplex := s.err.removed.any fun r => r.1 == 15 }
    mem := { s1.mem with hbmc := [] }
    pci := { ({} : Pci) with perst := s.pci.perst, lanes := (List.range 16).foldl (fun m i => withBit m i (!s.err.removed.contains (16, i))) 0 }
    sec := { s.sec with bootSlot := 0, sigFail := 0, ide := false, tamper := false, images := [], challenge := none
                        debug := if s.sec.fullPending then 2 else 0, fullPending := false, hbmKey := s.sec.hbmKey + 1
                        hbmEnc := s.sec.hbmEncPolicy, deviceId := 0, svn := s.sec.svn }
    mgt := { ({} : Mgt) with images := s.mgt.images, committed := s.mgt.committed, verified := s.mgt.verified, thermal := s.mgt.thermal
                             cold := true, trialSlot := s.mgt.trialSlot, trialBoots := s.mgt.trialBoots } }

/-- Boot begins at stage 0, from the trial slot for at most two cold boots, else from the committed slot (R496, R525). A boot
that is not cold runs the slot of the last one. -/
def State.beginBoot (s : State) : State :=
  let m := s.mgt
  let m1 := if m.cold then
      (match m.trialSlot with
      | some k => if m.trialBoots < 2 then { m with active := k, trial := true, trialBoots := m.trialBoots + 1, bootAt := s.now }
        else { m with active := m.committed, trial := false, trialSlot := none, trialBoots := 0, bootAt := s.now }
      | none => { m with active := m.committed, trial := false, bootAt := s.now })
    else m
  { s with mgt := { m1 with booting := true, stage := 0 } }

/-- A stop as on power loss (R431, R513): the rails are off and everything volatile is gone; the next start is a cold boot. -/
def State.powerStop (s : State) : State :=
  let s1 := s.coldClear 0
  { s1 with pwr := { ({} : Pwr) with latched := s.pwr.latched } }

/-- PERST_ASSERT: the die enters reset within 1 us; the rails stay on (R431, R513). -/
def execPerstAssert (t : Nat) (s : State) : Host.Outcome State Fault Refusal :=
  let s := s.at_ t
  .next (if s.pci.perst then s
    else
      let s1 := (s.hostReset (if s.pci.dstate == .d3cold then 5 else 2)).unboot
      { s1 with pci := { s1.pci with perst := true } })

/-- PERST_DEASSERT: boot begins at stage 0 (R429, R512, R513). -/
def execPerstDeassert (t : Nat) (s : State) : Host.Outcome State Fault Refusal :=
  let s := s.at_ t
  .next (if !s.pci.perst || !s.pwr.good then s else { s with pci := { s.pci with perst := false } }.beginBoot)

/-- PCIE_LINK_DOWN: a surprise down or a hot reset is a conventional reset (R428, R89, R538). -/
def execPcieLinkDown (t : Nat) (s : State) : Host.Outcome State Fault Refusal :=
  let s := s.at_ t
  .next (if !s.pci.linkUp then s
    else
      let s1 := s.hostReset 2
      { s1 with pci := { s1.pci with linkUp := false, rate := 0, width := 0, dstate := .d0 } })

/-- FLR: a function-level reset (R89, R538). -/
def execFlr (t : Nat) (s : State) : Host.Outcome State Fault Refusal :=
  let s1 := (s.at_ t).hostReset 3
  .next { s1 with pci := { s1.pci with dstate := .d0 } }

/-- D3COLD_ENTRY: treated as the reset of R89; the exit is cause 5 (R428, R538). -/
def execD3coldEntry (t : Nat) (s : State) : Host.Outcome State Fault Refusal :=
  let s1 := (s.at_ t).hostReset 5
  .next { s1 with pci := { s1.pci with dstate := .d3cold, linkUp := false, rate := 0, width := 0 } }

/-- SOFT of GLB_RESET_CTL: dropped while the pair state is not OFF (R537). -/
def State.softReset (s : State) (m : Nat) : State :=
  if s.pair.state != .off then s.reject 0x018 m else s.hostReset 4

/-- COLD of GLB_RESET_CTL: a cold boot that keeps the rails (R537). -/
def State.coldBoot (s : State) : State :=
  let s1 := s.coldClear 1
  { s1 with pwr := { ({} : Pwr) with running := s.pwr.running, good := s.pwr.good, latched := s.pwr.latched, mv10 := s.pwr.mv10
                                     watts := s.pwr.watts, tempDie := s.pwr.tempDie, tempHbm := s.pwr.tempHbm } }.beginBoot

/-- A write of GLB_RESET_CTL (R537): another key is dropped; COLD comes before SOFT. -/
def State.resetCtl (s : State) (m v : Nat) : State :=
  if bitsOf v 31 16 != 0x5AFE then s.reject 0x018 m
  else if bitOf v 1 then s.coldBoot
  else if bitOf v 0 then s.softReset m
  else s

/-- SOFT_RESET: a write of SOFT with a key (R537). -/
def execSoftReset (m : Master) (key : Fin 65536) (t : Nat) (s : State) : Host.Outcome State Fault Refusal :=
  .next ((s.at_ t).resetCtl m.val (key.val * 65536 + 1))

/-- COLD_RESET: a write of COLD with a key (R537). -/
def execColdReset (m : Master) (key : Fin 65536) (t : Nat) (s : State) : Host.Outcome State Fault Refusal :=
  .next ((s.at_ t).resetCtl m.val (key.val * 65536 + 2))

/-- POWER_INPUT_START: 10 ms at or above 46 V; after a thermal stop only when the input had stayed below 44 V for a second
before (`low` ns; R510, R512, R519). The start is a cold boot. -/
def execPowerInputStart (low t : Nat) (s : State) : Host.Outcome State Fault Refusal :=
  let s := s.at_ t
  .next (if s.pwr.running || s.pwr.starting || (s.pwr.latched && decide (low < 1000000000)) then s
    else
      let s1 := s.coldClear 0
      { s1 with pwr := { ({} : Pwr) with starting := true } })

/-- RAILS_IN_TOLERANCE: the sequence of R512 ends; PWR_GOOD rises. -/
def execRailsInTolerance (t : Nat) (s : State) : Host.Outcome State Fault Refusal :=
  let s := s.at_ t
  .next (if s.pwr.starting then { s with pwr := { s.pwr with starting := false, running := true, good := true } } else s)

/-- The manifest fields of a firmware image (chapter 17). -/
structure Manifest where
  ty : Nat
  svn : Nat
  version : Nat
  length : Nat
  ed : Nat
  ml : Nat
  deriving DecidableEq, Repr

def parseManifest (b : Bytes) : Manifest :=
  { ty := fieldAt b 4 2, svn := fieldAt b 8 4, version := fieldAt b 0xC 4, length := fieldAt b 0x10 8, ed := fieldAt b 0x48 1, ml := fieldAt b 0x49 1 }

/-- Whether a firmware image is accepted for a type (R493); whether both signatures verify is given (log entry 46). -/
def Sec.imageOk (x : Sec) (b : Bytes) (ty : Nat) (sigs : Bool) : Bool :=
  let m := parseManifest b
  let zero := fun o n => (b.drop o).take n == List.replicate n 0#8
  b.take 4 == [0x51#8, 0x46#8, 0x57#8, 0x1A#8] && m.ty == ty && zero 6 2 && zero 0x4A 54 && zero 0x156D 19 &&
    decide (1 ≤ m.length) && decide (m.length ≤ 67108864) && b.length == 5504 + m.length &&
    decide (m.ed < 4) && decide (m.ml < 4) && decide (m.svn ≤ 65535) &&
    sha384 ((b.drop 0x80).take 32) == Config.rootHash 0 m.ed && sha384 ((b.drop 0xA0).take 1952) == Config.rootHash 1 m.ml &&
    !bitOf x.revokedEd m.ed && !bitOf x.revokedMl m.ml && sigs &&
    (b.drop 0x18).take 48 == sha384 (b.drop 5504) && decide (tget 0 x.svn ty ≤ m.svn)

/-- The firmware image in a slot. -/
def Mgt.image (m : Mgt) (slot ty : Nat) : Bytes := tget [] m.images (8 * slot + ty)

/-- The slot whose image of a type runs: the active slot first, the other second (R496). `good` lists the images, by slot and
type, whose signatures verify. -/
def State.pickImage (s : State) (ty : Nat) (good : List (Nat × Nat)) : Option Nat :=
  [s.mgt.active, 1 - s.mgt.active].find? fun k => s.sec.imageOk (s.mgt.image k ty) ty (good.contains (k, ty))

/-- Runs an image: its measurement is taken (R499). -/
def State.runImage (s : State) (ty slot : Nat) : State :=
  let b := s.mgt.image slot ty
  let m := parseManifest b
  s.modSec fun x => { x with images := (x.images.filter fun i => i.1 != ty) ++ [(ty, sha384 b, m.version, m.svn)] }

/-- Units that boot removes: in the cached map and neither found good nor held out (R480, R481). -/
def newRemovals (old found : Present) : List (Nat × Nat) :=
  let lost := fun kind n (a b : Nat) => ((List.range n).filter fun i => bitOf a i && !bitOf b i).map fun i => (kind, i)
  lost 1 512 old.cores found.cores ++ lost 2 16 old.clusters found.clusters ++ lost 10 256 old.pchans found.pchans ++
    lost 12 8 old.lanes found.lanes ++ lost 16 16 old.pcie found.pcie ++ lost 17 16 old.rolog found.rolog

/-- An error record of outcome LASTING_TEST for a unit that failed a boot self-test (R480, R488, R517). -/
def State.bootRemoval (s : State) (kind index : Nat) : State :=
  let num := s.err.lastNum + 1
  let r : ErrRec := { num := num, position := s.pos, kind := kind, cause := 0, index := index, outcome := 0, transients := 0
                      source := errSource kind index, detail := 0, testUs := 0, pauseUs := 0, rerun := 0, uptime := s.uptime, streams := 0 }
  (((s.pushRecord r).setOutcome num fun x => { x with outcome := 2 })).postEvent 0x53B

/-- The end of boot stage 2 (R480, R481, R533): a cold boot takes what the self-test found, another boot the cached map. -/
def State.bootRepair (s : State) (found : Present) : State :=
  let f0 := if s.mgt.cold then found else s.err.cached
  let s1 := if s.mgt.cold then
      let t := (newRemovals s.err.cached found).foldl (fun t u => t.bootRemoval u.1 u.2) s
      t.modErr fun e => { e with cached := found, reboot := false }
    else s
  let f := s1.err.removed.foldl (fun f u => fitWithout f u.1 u.2) f0
  ({ s1 with fit := f, present := f
             mem := { s1.mem with hbmc := (List.range 8).foldl (fun t c => tmod {} c (fun h => { h with trained := true }) t) s1.mem.hbmc } }).refit

/-- BOOT_STAGE_COMPLETE: the boot stage under way ends and verifies and runs its images, or the module stays where it is (R429,
R480, R493, R495, R496, R533). `good`: images, by slot and IMG_TYPE, whose signatures verify; `intact`: the replay-protected
region and the PUF seed are sound; `found`: the units that self-test finds good. -/
def execBootStageComplete (good : List (Nat × Nat)) (intact : Bool) (found : Present) (t : Nat) (s : State) :
    Host.Outcome State Fault Refusal :=
  let s := s.at_ t
  let reach := fun (s : State) n => s.modMgt fun m => { m with stage := n }
  .next (if !s.mgt.booting then s
    else match s.mgt.stage with
    | 0 =>
      (match s.pickImage 1 good with
      | some k => reach ((s.runImage 1 k).modSec fun x => { x with bootSlot := k }) 1
      | none => s)
    | 1 =>
      if !intact then s.modSec fun x => { x with tamper := true }
      else if s.sec.tamper then s
      else
        let s0 := s.modSec fun x => { x with deviceId := if x.debug == 2 then 0 else Config.moduleId }
        (match s0.pickImage 2 good, s0.pickImage 3 good, s0.pickImage 4 good with
        | some a, some b, some c =>
          reach ((((s0.runImage 2 a).runImage 3 b).runImage 4 c).modGlb fun g => { g with fwVersion := (parseManifest (s.mgt.image a 2)).version }) 2
        | _, _, _ => s0)
    | 2 => reach (s.bootRepair found) 3
    | _ =>
      let s1 := (s.modGlb fun g => { g with ready := true }).modMgt fun m => { m with
        stage := 4, booting := false, cold := false, stage3At := if m.trial then some s.now else none }
      (((s1.modPci fun p => { p with frs := true }).emit .frs)).checkGrade)

/-- A queue pair's, channel's and other units' counters at their reset values (R543). QP_DUP_COUNT, QP_JRN_ABANDONED and SCAN_INVALID are
taken as counters and status, not as registers that are kept (DESIGN CHOICE, log entry 81). -/
def Qp.warm (q : Qp) : Qp := { q with dupCount := 0 }
/-- A channel keeps its registers, but for RC counters and counters of events (R543). -/
def Chan.warm (c : Chan) : Chan :=
  { c with armOverruns := 0, trigLost := 0, retries := 0, crcFail := 0, edgeBursts := 0, bytes := 0, descs := 0 }
def Router.warm (r : Router) : Router := { r with qosErr := false, retry := 0, stall := 0, flits := 0 }
def HbmCtl.warm (h : HbmCtl) : HbmCtl := { h with corr := 0, uncorr := 0, errAddr := 0, passes := 0, rdBytes := 0, wrBytes := 0 }
def Disp.warm (d : Disp) : Disp := { d with flagDup := 0, flagStray := 0, slotStall := 0, discarded := 0, dispatched := 0 }
def Core.warm (c : Core) : Core :=
  { c with fills := 0, lastProg := 0, arith := 0, faulted := false, faultInfo := 0, faultAddr := 0, faultCount := 0, words := 0 }

/-- A cluster's units: counters and status at their reset values; Sage's configuration, contents and write group and Millstone's event
enable stay. -/
def Units.warm (u : Units) : Units :=
  { mls := { ({} : Mls) with flagEn := u.mls.flagEn }
    sage := { ({} : Sage) with banks := u.sage.banks, wr := u.sage.wr, pending := u.sage.pending, commits := u.sage.commits } }
/-- An intake lane: counters and status at their reset values; the work under way stays. -/
def Lane.warm (l : Lane) : Lane :=
  { ({} : Lane) with cur := l.cur, todo := l.todo, fetchSlot := l.fetchSlot, raw := l.raw, made := l.made, image := l.image, text := l.text
                     images := l.images, late := l.late, refused := l.refused, passed := l.passed, windows := l.windows
                     shuffled := l.shuffled, stalls := l.stalls }

/-- What WARM_RESTART keeps and resets (R543). The select registers that its table does not name, ERR_LOG_SEL and EVC_TGT_STACK_SEL, return
to 0 (DESIGN CHOICE, log entry 81). -/
def State.warmState (s : State) : State :=
  let flushed := (List.range 20).foldl (fun v t => (v.flush t).modTgt t fun g => { g with threshold := 0, full := 0, claims := 0, stackSel := 0 }) s.evc
  { s with
    glb := { s.glb with reject := 0, rejOffset := 0, rejMaster := 0, padOverlap := 0, resetCause := 6, warmCount := min 255 (s.glb.warmCount + 1) }
    beat := { s.beat with srcHold := false, glitch := 0, reject := 0, breach := false, breaches := 0, periodMin := 0xFFFFFFFFFFFFFFFF }
    qps := tabMap {} Qp.warm s.qps
    jrn := { s.jrn with abandoned := 0, scanInvalid := false }
    work := { s.work with
      disps := tabMap {} Disp.warm s.work.disps, cores := tabMap {} Core.warm s.work.cores, weirHeld := 0
      streams := tabMap {} (fun st => { st with armOverrun := false, armOverruns := 0 }) s.work.streams
      weirs := tabMap {} (fun w => { w with closes := 0 }) s.work.weirs
      units := tabMap {} Units.warm s.work.units, lanes := tabMap {} Lane.warm s.work.lanes
      trc := { s.work.trc with stall := 0, released := 0 } }
    mem := { s.mem with chans := tabMap {} Chan.warm s.mem.chans, routers := tabMap {} Router.warm s.mem.routers
                        hbmc := tabMap {} HbmCtl.warm s.mem.hbmc }
    evc := { flushed with voteFix := 0, posts := 0, src := tabMap {} (fun x => { x with lostCount := 0 }) flushed.src }
    err := { s.err with double := false, transients := 0, lasting := 0, rerun := 0, maxPause := 0, logLost := 0, logSel := 0 }
    pci := { s.pci with unmapped := 0, retrains := 0, cplTimeouts := 0 }
    chain := { s.chain with conflict := false, over_ := false, crcErr := 0, mgmtDrop := 0, splices := 0, tokens := 0 }
    pair := { s.pair with verErr := false, cfgErr := false, roleErr := false, retries := 0, takeovers := 0, msgs := 0 }
    sec := { s.sec with sigFail := 0 }
    pwr := { s.pwr with vinWarn := false, thermSeen := false, result := 0, steps := 0 } }

/-- Whether a DMA channel's descriptor has begun and not ended; the failed one of a HALTED channel has ended (R400). -/
def Chan.begun (c : Chan) : Bool := c.state != .halted && c.job.any fun j => j.started

/-- WARM_RESTART: once every descriptor that has begun is complete, the units restart, begun batches rerun, and the command completes
(R78, R470, R543). -/
def execWarmRestart (seq t : Nat) (s : State) : Host.Outcome State Fault Refusal :=
  let s := s.at_ t
  .next (if s.mem.chans.any fun c => c.2.begun then s
    else s.begin seq opWarm fun _ s =>
      let s1 := (List.range 16).foldl (fun t k => t.restartStages k) s
      (s1.rerunAll.2.warmState).finish seq stOk 0)

end Sys2Proof.Machine
end

