-- ==== Sys2Proof/Machine/Power.lean ====
section
/-! DEFINITION. Input power, clock, capping, thermal control and power domains (chapter 18: R510 to R521; R402 to R404, R56). -/

namespace Sys2Proof.Machine

/-- INPUT_VOLTAGE_FAULT: below 44 V for 100 us, or above 62 V for 1 us: a running module stops (R510, R513). -/
def execInputVoltageFault (mv held t : Nat) (s : State) : Host.Outcome State Fault Refusal :=
  let s := s.at_ t
  .next (if s.pwr.running && ((decide (mv < 44000) && decide (100000 ≤ held)) || (decide (62000 < mv) && decide (1000 ≤ held))) then s.powerStop
  else s)

/-- Whether a voltage lies in a warning band (R510). -/
def inWarnBand (mv : Nat) : Bool := (decide (44000 ≤ mv) && decide (mv < 48000)) || (decide (60000 < mv) && decide (mv ≤ 62000))

/-- INPUT_VOLTAGE_WARN (R510). -/
def execInputVoltageWarn (mv : Nat) (s : State) : Host.Outcome State Fault Refusal :=
  .next (if s.pwr.running && inWarnBand mv then (s.modPwr fun p => { p with vinWarn := true }).postEvent 0x614 else s)

/-- The average input power of the last 10 ms in mW, over its samples. -/
def Pwr.avg10 (p : Pwr) : Nat := (p.samples.map fun x => x.2).foldl (· + ·) 0 / max 1 p.samples.length

/-- The cap in force: the last value written to PWR_CAP, applied as 300 W to 720 W (R28). -/
def Pwr.capW (p : Pwr) : Nat := max 300 (min 720 p.cap)

/-- A new sample (R518, R523): the last 10 ms are kept, with the instants that conditions began. -/
def Pwr.sample (p : Pwr) (now mv mw die hbm : Nat) : Pwr :=
  let p1 := { p with samples := (now, mw) :: p.samples.filter fun x => decide (now < x.1 + 10000000), mv10 := mv / 10
                     tempDie := die, tempHbm := hbm }
  let avg := p1.avg10
  let since := fun (c : Bool) (o : Option Nat) => if c then some (o.getD now) else none
  { p1 with
    watts := avg / 1000
    aboveAt := since (decide (p.capW * 1000 < mw)) p.aboveAt
    belowAt := since (decide (avg + 20000 ≤ p.capW * 1000)) p.belowAt
    coolAt := since (decide (die < 90) && decide (hbm < 90)) p.coolAt }

/-- Whether a condition that began at `o` has held for `d` ns. -/
def heldFor (o : Option Nat) (now d : Nat) : Bool := o.any fun x => decide (x + d ≤ now)

/-- The cap demand's next step (R518); `over_` says that the projected 100 ms average exceeds the cap (log entry 47). -/
def Pwr.nextCap (p : Pwr) (now : Nat) (over_ : Bool) : Nat :=
  if over_ || heldFor p.aboveAt now 1000000 then min 12 (p.capStep + 1)
  else if heldFor p.belowAt now 1000000 then p.capStep - 1
  else p.capStep

/-- The thermal demand's next step (R518). -/
def Pwr.nextTherm (p : Pwr) (now : Nat) : Nat :=
  if 95 ≤ p.tempDie || 95 ≤ p.tempHbm then min 12 (p.thermStep + 1)
  else if heldFor p.coolAt now 10000000 then p.thermStep - 1
  else p.thermStep

/-- Decides at most one step of each demand, at least 50 us after the last decision (R518). -/
def Pwr.decide_ (p : Pwr) (now : Nat) (over_ : Bool) : Pwr :=
  if p.decided.isSome || (p.stepAt != 0 && decide (now < p.stepAt + 50000)) then p
  else
    let c := p.nextCap now over_
    let th := p.nextTherm now
    if c == p.capStep && th == p.thermStep then p
    else { p with capStep := c, thermStep := th, stepAt := now, decided := if max c th == p.step then none else some (max c th) }

/-- Issue gating (R520): above 800 W, or above the cap for 9 ms until the power falls to the cap. -/
def Pwr.gate (p : Pwr) (now mw : Nat) : Pwr :=
  let hold := heldFor p.aboveAt now 9000000 || (p.holding && decide (p.capW * 1000 < mw))
  { p with holding := hold, gating := decide (800000 < mw) || hold }

/-- POWER_SAMPLE: the 1 us measurement: input voltage (mV) and power (mW), the hottest die and HBM sensors, and whether the
projected 100 ms average exceeds the cap (R518, R520, R521). -/
def execPowerSample (mv mw : Nat) (die hbm : Fin 256) (proj : Bool) (t : Nat) (s : State) : Host.Outcome State Fault Refusal :=
  let s := s.at_ t
  .next (if !s.pwr.running then s
  else
    let hot := 95 ≤ die.val || 95 ≤ hbm.val
    let was := 95 ≤ s.pwr.tempDie || 95 ≤ s.pwr.tempHbm
    let s1 := s.modPwr fun p => ((p.sample s.now mv mw die.val hbm.val).decide_ s.now proj).gate s.now mw
    if hot && !was then (s1.modPwr fun p => { p with thermSeen := true }).postEvent 0x612 else s1)

/-- CLOCK_STEP: a decided step takes effect at a cycle boundary of all clusters (R518, R521);
it waits while the power controller is under test (R469). -/
def execClockStep (t : Nat) (s : State) : Host.Outcome State Fault Refusal :=
  let s := s.at_ t
  .next (match s.pwr.decided with
  | none => s
  | some n => if s.isFenced 20 0 then s else ((s.modPwr fun p => { p with step := min 12 n, decided := none, steps := sat32 p.steps 1 }).postEvent 0x610).floorCheck)

/-- THERMAL_STOP: a die (0), HBM (1) or regulator (2) sensor at its stop limit: event, flash, stop, latch (R519). -/
def execThermalStop (cls : Fin 3) (temp t : Nat) (s : State) : Host.Outcome State Fault Refusal :=
  let s := s.at_ t
  .next (if s.pwr.running && decide ((if cls.val == 2 then 125 else 105) ≤ temp) then
    let s1 := (s.postEvent 0x613).modMgt fun m => { m with thermal := some (cls.val, temp) }
    s1.powerStop.modPwr fun p => { p with latched := true }
  else s)

/-- A write of PWR_CAP: it reads back as written (R9) and is applied clamped (`Pwr.capW`); the stretches that count against it begin anew
(R28, R521). -/
def State.setCap (s : State) (w : Nat) : State :=
  s.modPwr fun p => { p with cap := w, capAt := s.now, aboveAt := none, belowAt := none }

/-- PWR_CAP_WRITE. -/
def execPwrCapWrite (w : Fin 1024) (t : Nat) (s : State) : Host.Outcome State Fault Refusal := .next ((s.at_ t).setCap w.val)

/-- The end of a domain request (R516). -/
def State.endRequest (s : State) (result : Nat) : State :=
  (s.modPwr fun p => { p with request := none, result := result }).postEvent 0x615

/-- A write of the IDLE fields of PWR_DOMAIN_CTL (R539). -/
def State.domainFields (s : State) (d : Nat) (down force : Bool) : State :=
  s.modPwr fun p => { p with ctlDomain := d, ctlOff := down, ctlForce := force }

/-- A write of PWR_DOMAIN_CTL with GO (R514, R516): a dropped one counts once (R539). -/
def State.domainGo (s : State) (m d : Nat) (down force : Bool) : State :=
  if s.pwr.request.isSome then s.reject 0x200020 m
  else
    let s1 := s.domainFields d down force
    if s.err.state != 0 || decide (33 < d) || (decide (26 ≤ d) && s.work.graph.isSome) then s1.reject 0x200020 m
    else if s.domOff d == down then s1.endRequest 2
    else s1.modPwr fun p => { p with request := some (d, down, force, s.now) }

/-- DOMAIN_POWER_DOWN: GO with OFF 1. -/
def execDomainPowerDown (d : Fin 64) (force : Bool) (m : Master) (t : Nat) (s : State) : Host.Outcome State Fault Refusal :=
  .next ((s.at_ t).domainGo m.val d.val true force)

/-- DOMAIN_POWER_UP: GO with OFF 0. -/
def execDomainPowerUp (d : Fin 64) (m : Master) (t : Nat) (s : State) : Host.Outcome State Fault Refusal :=
  .next ((s.at_ t).domainGo m.val d.val false false)

/-- Whether a channel runs a transfer that touches a domain, or has bursts of one in flight (R402). -/
def State.chanTouches (s : State) (c d : Nat) : Bool :=
  (s.chan c).job.any fun j => j.started && (j.failed.isNone || !j.flight.isEmpty) && s.descTouches j.desc fun x => x == d

/-- Running tasks whose store traffic touches a cluster's domain (R404). -/
def State.tasksIn (s : State) (d : Nat) : List TaskRec :=
  if d < 16 then
    (List.range 16).flatMap fun k => ((s.disp k).slots.filter fun (p : Nat × TaskRec) =>
      p.2.state == .running && (k == d || s.work.graph.any fun g => s.reaches g k p.2 d)).map fun p => p.2
  else []

/-- Whether the device's own traffic touches a domain: tasks, or lanes that land a batch in a cluster or belong to the domain (R404). -/
def State.ownTraffic (s : State) (d : Nat) : Bool :=
  if d < 16 then !(s.tasksIn d).isEmpty || s.work.graph.any fun g => s.work.streams.any fun p =>
    s.landsIn g p.1 d && p.2.batches.any fun b => b.intake != b.intakeDone
  else if d < 24 then s.work.streams.any fun p => p.2.batches.any fun b => bitOf b.intake (d - 16) && !bitOf b.intakeDone (d - 16)
  else false

/-- Whether transfers that touch a domain are still in flight (R402, R404). -/
def State.domainBusy (s : State) (d : Nat) : Bool := ((List.range 64).any fun c => s.chanTouches c d) || s.ownTraffic d

/-- Descriptors that wait and touch a domain end with ST_DOMAIN_OFF as it goes off; those that wait because of it alone start when the request is
withdrawn (R402, R403). -/
def State.endWaiters (s : State) (d : Nat) (off : Bool) : State :=
  (List.range 64).foldl (fun t c =>
    match (t.chan c).state, (t.chan c).job with
    | .waitTrig, some j =>
      if t.descTouches j.desc fun x => x == d then
        (if off then t.modChan c fun x => x.refuseJob j stDomainOff
         else if j.desc.trig != 0 && !j.fired then t
         else (t.modChan c fun x => { x with state := .run }).startDesc c j.desc.op)
      else t
    | _, _ => t) s

/-- A cluster's state as its domain goes off: stores, cores, units and dispatcher are gone, and with them what was captured of their
registers (R514, R530). -/
def State.clusterGone (s : State) (k : Nat) : State :=
  let gone := fun a : Nat => decide (0x400000 + k * 0x100000 ≤ a ∧ a < 0x500000 + k * 0x100000) &&
    !decide (0x460000 + k * 0x100000 ≤ a ∧ a < 0x470000 + k * 0x100000)
  { s with capture := s.capture.filter fun (c : Nat × Option Word) => !gone c.1 }.modWork fun w => { w with
    disps := tset {} k {} w.disps, stores := tset [] k [] w.stores, units := tset {} k {} w.units
    cores := (List.range 32).foldl (fun t n => tset {} (32 * k + n) {} t) w.cores
    engines := w.engines.filter fun (p : Nat × Engine) => !(decide (1024 * k ≤ p.1) && decide (p.1 < 1024 * (k + 1))) }

/-- A lane's state as its domain goes off (R514, R530). -/
def State.laneGone (s : State) (i : Nat) : State :=
  { s with capture := s.capture.filter fun (c : Nat × Option Word) => decide (c.1 < 0x2000000 + i * 0x10000 ∨ 0x2010000 + i * 0x10000 ≤ c.1) }.modWork fun w => { w with
    lanes := tset {} i {} w.lanes }

/-- The domain goes off (R402, R514, R516): waiting descriptors end, the configuration follows, begun batches that used a
cluster or lane rerun, and the request ends. -/
def State.domainDown (s : State) (d : Nat) : State :=
  let s1 := (s.endWaiters d true).modPwr fun p => { p with off := withBit p.off d true }
  let used := (decide (d < 16) && s.clusters.contains d) || (decide (16 ≤ d) && decide (d < 24))
  let s2 := if used then s1.rerunAll.2 else s1
  let s3 := if d < 16 then s2.clusterGone d else if d < 24 then s2.laneGone (d - 16) else s2
  let s4 := if d == 24 || d == 25 then s3.portChange (d - 24) 0 0 else s3
  s4.refitted.endRequest 0

/-- DOMAIN_DRAIN_COMPLETE: nothing that touches the domain is in flight any more (R402, R516). -/
def execDomainDrainComplete (t : Nat) (s : State) : Host.Outcome State Fault Refusal :=
  let s := s.at_ t
  .next (match s.pwr.request with
  | some (d, true, _, _) => if s.domainBusy d then s else s.domainDown d
  | _ => s)

/-- The undefined contents of a range (R403): each byte takes a free value (log entry 21). -/
def freeBytes (g a n : Nat) : Bytes := (List.range n).map fun i => Config.freeByte g (a + i)

/-- The destinations of the transfers that a forced power-down of domain `d` cuts off: none for the bus, else the target and the offset; the
length. -/
def State.cutRanges (s : State) (d : Nat) : List (Option DevTarget × Nat × Nat) :=
  (List.range 64).filterMap fun c => match (s.chan c).job with
    | some j =>
      if !s.chanTouches c d || j.desc.op == 2 then none
      else if j.desc.dstSp == 0 then some (none, j.desc.dst, j.desc.len)
      else (s.devTarget j.desc.dst j.desc.len).map fun x => (some x.1, x.2, j.desc.len)
    | none => none

/-- A range whose contents are undefined (R403); a module that may not output writes nothing outside (R450). -/
def State.undefine (s : State) (r : Option DevTarget × Nat × Nat) : State :=
  let s1 := { s with free := s.free + 1 }
  let bs := freeBytes s.free r.2.1 r.2.2
  match r.1 with
  | some t => s1.putTarget t r.2.1 bs
  | none => if s.mayOutput then s1.modMem fun m => { m with bus := writeBytes m.bus r.2.1 bs } else s1

/-- A transfer cut off by a forced power-down (R403): no burst is left, and it ends with ST_DOMAIN_OFF; a configuration that waited for its
bursts is in force (R13). -/
def State.cutTransfer (s : State) (c d : Nat) : State :=
  match (s.chan c).job with
  | some j =>
    if !s.chanTouches c d then s
    else
      (s.modChan c fun x => (x.failJob j 6 (if j.readsRange then j.desc.src + j.oldest else j.desc.dst + j.oldest) (!j.readsRange)).settleCfg).handedOver
  | none => s

/-- The batches whose tasks touch a cluster being forced off carry ST_DOMAIN_OFF (R404). -/
def State.markForced (s : State) (d : Nat) : State :=
  (s.tasksIn d).foldl (fun t r => match r.batch with
    | some b => t.modBatch r.stream b fun x => { x with domainOff := true }
    | none => t) s

/-- DOMAIN_FORCE_TIMEOUT: 50 us after acceptance with a touching transfer in flight: FORCE takes the domain off, otherwise the
request is withdrawn and what waited starts (R403, R404, R516). -/
def execDomainForceTimeout (t : Nat) (s : State) : Host.Outcome State Fault Refusal :=
  let s := s.at_ t
  .next (match s.pwr.request with
  | some (d, true, force, at0) =>
    if s.now < at0 + 50000 || !s.domainBusy d then s
    else if force then
      (s.cutRanges d).foldl State.undefine ((((List.range 64).foldl (fun t c => t.cutTransfer c d) s).markForced d).domainDown d)
    else
      let s1 := s.endRequest 1
      s1.endWaiters d false
  | _ => s)

/-- The units of a domain that its boot self-test can fail, by kind and index. -/
def domainUnit (d kind index : Nat) : Bool :=
  if d < 16 then (kind == 1 && index / 32 == d) || (decide (2 ≤ kind) && decide (kind ≤ 8) && unitCluster kind index == d)
  else if d < 24 then kind == 12 && index == d - 16
  else if d < 26 then kind == 17 && index / 8 == d - 24
  else false

/-- DOMAIN_POWER_UP_COMPLETE: the units of the domain have been tested; `bad` lists those that failed (R516, R517, R533). -/
def execDomainPowerUpComplete (bad : List (Nat × Nat)) (t : Nat) (s : State) : Host.Outcome State Fault Refusal :=
  let s := s.at_ t
  .next (match s.pwr.request with
  | some (d, false, _, _) =>
    let s1 := s.modPwr fun p => { p with off := withBit p.off d false }
    let s2 := (bad.filter fun u => domainUnit d u.1 u.2).foldl (fun t u =>
      let t1 := t.bootRemoval u.1 u.2
      { t1 with fit := fitWithout t1.fit u.1 u.2
                err := { t1.err with removed := if t1.err.removed.contains u then t1.err.removed else t1.err.removed ++ [u] } }) s1
    let s3 := if d == 24 || d == 25 then { s2 with present := { s2.present with rolog := withPort s2.present.rolog s2.fit.rolog (d - 24) 8 } } else s2
    s3.refitted.endRequest 0
  | _ => s)

end Sys2Proof.Machine
end

