-- ==== Sys2Proof/Machine/Manage.lean ====
section
/-! DEFINITION. Management over MCTP and PLDM (chapter 18: R522 to R525; R536). -/

namespace Sys2Proof.Machine

/-- Whether the endpoint answers: not in TAMPER, where only identity and re-provisioning are (R495); requests wait while a Millwright core is
under test (R469). -/
def State.answers (s : State) : Bool := !s.sec.tamper && !(s.err.fenced.any fun f => f.1 == 18)

/-- Whether a Millwright core is under test: management requests wait (R469). -/
def State.mgtWaits (s : State) : Bool := s.err.fenced.any fun f => f.1 == 18

/-- MCTP_SET_EID: the EID assigned last (R522). -/
def execMctpSetEid (eid : Fin 256) (s : State) : Host.Outcome State Fault Refusal :=
  .next (if s.mgtWaits then s else s.modMgt fun m => { m with eid := eid.val })

/-- PLDM_SENSOR_REFRESH: the sensors of R523; those that the block derives follow its state, the others are given. -/
def execPldmSensorRefresh (vals : List (Fin 87 × Nat)) (s : State) : Host.Outcome State Fault Refusal :=
  .next (if s.mgtWaits then s else s.modMgt fun m =>
    let t := vals.foldl (fun t v => if 4 ≤ v.1.val && v.1.val ≤ 84 then tset 0 v.1.val v.2 t else t) m.sensors
    { m with sensors := tset 0 86 s.uptime (tset 0 85 s.err.grade (tset 0 3 (clockMhz s.pwr.step) (tset 0 2 s.pwr.watts (tset 0 1 (s.pwr.mv10 * 10) t)))) })

/-- SET_EVENT_RECEIVER (R523). -/
def execSetEventReceiver (eid : Fin 256) (s : State) : Host.Outcome State Fault Refusal :=
  .next (if s.answers then s.modMgt fun m => { m with receiver := some eid.val } else s)

/-- Whether the MGI agreement of this boot has been made (R536). -/
def State.mgiAgreed (s : State) : Bool := s.glb.mgiAgreed != 0

/-- VENDOR_RECORD_READ: a record held in flash by its NUM; before the MGI agreement the answer is ST_VERSION (R523, R536). A NUM
that flash does not hold is answered with ST_LIMIT (log entry 48). -/
def execVendorRecordRead (num : Nat) (s : State) : Host.Outcome State Fault Refusal :=
  .next (if !s.answers then s
  else if !s.mgiAgreed then s.emit (.mctp (leBytes 1 stVersion))
  else match s.err.flash.find? fun r => r.num == num with
  | some r => s.emit (.mctp r.encode)
  | none => s.emit (.mctp (leBytes 1 stLimit)))

/-- MGI_NEGOTIATE: the first vendor-defined message of a boot agrees the version (R61, R536). -/
def execMgiNegotiate (range : Fin 4294967296) (s : State) : Host.Outcome State Fault Refusal :=
  .next (if !s.answers then s
  else if s.mgt.mgiDone then s.emit (.mctp (if s.mgiAgreed then leBytes 2 s.glb.mgiAgreed else leBytes 1 stVersion))
  else
    let s1 := s.modMgt fun m => { m with mgiDone := true }
    match agree mgiSupport range.val with
    | some v => (s1.modGlb fun g => { g with mgiAgreed := v.2 }).emit (.mctp (leBytes 2 v.2))
    | none => s1.emit (.mctp (leBytes 1 stVersion)))

/-- The slot that an update writes: not the committed one (R524). -/
def Mgt.target (m : Mgt) : Nat := 1 - m.committed

/-- REQUEST_UPDATE (R524). ALREADY_IN_UPDATE_MODE is completion code 0x81 of PLDM Type 5 (log entry 48). -/
def execRequestUpdate (s : State) : Host.Outcome State Fault Refusal :=
  .next (if !s.answers then s
  else if s.mgt.updating then s.emit (.mctp (leBytes 1 0x81))
  else ((s.modMgt fun m => { m with updating := true, verified := [] }).postEvent 0x616).emit (.mctp (leBytes 1 0)))

/-- A byte string with new bytes at an offset; a gap reads as zero. -/
def splice (b : Bytes) (off : Nat) (data : Bytes) : Bytes :=
  b.take off ++ List.replicate (off - b.length) 0#8 ++ data ++ b.drop (off + data.length)

/-- COMPONENT_DATA_WRITE: data for an image, at an offset of the update slot; offset 0 begins it anew (R524). -/
def execComponentDataWrite (ty : Fin 5) (off : Nat) (data : Bytes) (s : State) : Host.Outcome State Fault Refusal :=
  .next (if !s.answers || !s.mgt.updating || ty.val == 0 then s
  else s.modMgt fun m =>
    let old := if off == 0 then [] else m.image m.target ty.val
    { m with images := tset [] (8 * m.target + ty.val) (splice old off data) m.images, verified := m.verified.filter fun x => x != ty.val })

/-- VERIFY_COMPLETE: the written component is judged under R493; `sigs` says whether both signatures verify (R524; log entry
46). -/
def execVerifyComplete (ty : Fin 5) (sigs : Bool) (s : State) : Host.Outcome State Fault Refusal :=
  .next (if !s.answers || !s.mgt.updating || ty.val == 0 then s
  else if s.sec.imageOk (s.mgt.image s.mgt.target ty.val) ty.val sigs then
    (s.modMgt fun m => { m with verified := if m.verified.contains ty.val then m.verified else m.verified ++ [ty.val] }).emit (.mctp (leBytes 1 0))
  else (s.modMgt fun m => { m with verified := m.verified.filter fun x => x != ty.val }).emit (.mctp (leBytes 1 1)))

/-- ACTIVATE_FIRMWARE: the updated slot is marked for trial at the next cold boot; the update ends (R524). Without a verified
component nothing is marked. -/
def execActivateFirmware (s : State) : Host.Outcome State Fault Refusal :=
  .next (if !s.answers || !s.mgt.updating || s.mgt.verified.isEmpty then s
  else (s.modMgt fun m => { m with updating := false, trialSlot := some m.target, trialBoots := 0 }).postEvent 0x616)

/-- The images that run from a slot: type, digest, VERSION and SVN (R496: one of another slot may run beside them). -/
def State.runningFrom (s : State) (slot : Nat) : List (Nat × Bytes × Nat × Nat) :=
  s.sec.images.filter fun i => i.2.1 == sha384 (s.mgt.image slot i.1)

/-- TRIAL_COMMIT: 600 s after stage 3 of a trial boot without FAILED or TAMPER, the slot is committed and the SVN counters of its
running images are raised (R497, R525). -/
def execTrialCommit (t : Nat) (s : State) : Host.Outcome State Fault Refusal :=
  let s := s.at_ t
  .next (if s.mgt.trial && (s.mgt.stage3At.any fun x => decide (x + 600000000000 ≤ s.now)) && s.err.state != 2 && !s.sec.tamper then
    let s1 := s.modMgt fun m => { m with committed := m.active, trial := false, trialSlot := none, trialBoots := 0, stage3At := none }
    s1.modSec fun x => { x with svn := (s.runningFrom s.mgt.active).foldl (fun t i => tmod 0 i.1 (max i.2.2.2) t) x.svn }
  else s)

end Sys2Proof.Machine
end

