-- ==== Sys2Proof/Machine/PciSpace.lean ====
section
/-! DEFINITION. The part of the PCIe function that the host reaches beside BAR0 and BAR2: the MSI-X table and PBA in BAR4 (R426), and the
configuration fields that the function's work reads (R100, R425, R426). The model puts both behind BAR0 in one map of offsets (DESIGN
CHOICE, log entry 133). -/

namespace Sys2Proof.Machine

/-- The map's offsets: BAR0 has 64 MiB, BAR4 64 KiB (R426). -/
def bar4Base : Nat := 0x04000000
def cfgBase : Nat := 0x05000000

/-- Whether the function may send a message on a vector: MSI-X enabled, the function and the vector not masked (R422; log entry 10). -/
def State.msixOpen (s : State) (v : Nat) : Bool := s.pci.msixEn && !s.pci.msixHold && !tget true s.pci.msixMask v

/-- The pending vectors that may be sent are sent, in number order (R102, R422). -/
def State.releasePending (s : State) : State :=
  ((s.pci.msixPend.filter fun p => p.2 && s.msixOpen p.1).map fun p => p.1).foldl (fun t v =>
    (t.modPci fun p => { p with msixPend := tset false v false p.msixPend }).sendMsix v) s

/-- A 4-byte read of BAR4: the MSI-X table, 16 bytes an entry, and the PBA at 0x8000 (R426). -/
def State.bar4Read (s : State) (o : Nat) : Nat :=
  let v := o / 16
  if o < 0x8000 then
    (match o % 16 / 4 with
    | 0 => tget 0 s.pci.msixAddr v % 2 ^ 32
    | 1 => tget 0 s.pci.msixAddr v / 2 ^ 32
    | 2 => tget 0 s.pci.msixData v
    | _ => b2n (tget true s.pci.msixMask v))
  else if o < 0x8100 then (List.range 32).foldl (fun w i => withBit w i (tget false s.pci.msixPend (8 * (o - 0x8000) + i))) 0
  else 0

/-- A 4-byte write of BAR4. The PBA is read-only; a vector that is unmasked while it is pending is sent (R102, R422, R426). -/
def State.bar4Write (s : State) (o w : Nat) : State :=
  let v := o / 16
  if 0x8000 ≤ o then s
  else match o % 16 / 4 with
  | 0 => s.modPci fun p => { p with msixAddr := tmod 0 v (fun a => a / 2 ^ 32 * 2 ^ 32 + w) p.msixAddr }
  | 1 => s.modPci fun p => { p with msixAddr := tmod 0 v (fun a => a % 2 ^ 32 + w * 2 ^ 32) p.msixAddr }
  | 2 => s.modPci fun p => { p with msixData := tset 0 v w p.msixData }
  | _ => (s.modPci fun p => { p with msixMask := tset true v (bitOf w 0) p.msixMask }).releasePending

/-- A 4-byte read of the configuration fields: 0x0 PME_En (bit 8) and PME_Status (bit 15); 0x4 MSI-X Enable (bit 31) and Function Mask
(bit 30); 0x8 BAR2's size code (bits 13:8); 0xC Enable Relaxed Ordering (bit 4), payload size (7:5), read request size (14:12); 0x10 the
completion timeout range (3:0) and its disable bit (4). -/
def State.cfgRead (s : State) (o : Nat) : Nat :=
  let p := s.pci
  match o with
  | 0x0 => 256 * b2n p.pmeEn + 32768 * b2n p.pmeStatus
  | 0x4 => 2 ^ 31 * b2n p.msixEn + 2 ^ 30 * b2n p.msixHold
  | 0x8 => 256 * (p.bar2Log2 - 20)
  | 0xC => 16 * b2n p.relaxed + 32 * p.payload + 4096 * p.readReq
  | 0x10 => p.cplRange + 16 * b2n p.cplOff
  | _ => 0

/-- A 4-byte write of the configuration fields. BAR2 takes a size from 256 MiB to 512 GiB, the payload 128 to 512 bytes, a read request 128 to
4,096 bytes; other codes leave the field (R425, R426). -/
def State.cfgWrite (s : State) (o w : Nat) : State :=
  match o with
  | 0x0 => s.modPci fun p => { p with pmeEn := bitOf w 8, pmeStatus := p.pmeStatus && !bitOf w 15 }
  | 0x4 => (s.modPci fun p => { p with msixEn := bitOf w 31, msixHold := bitOf w 30 }).releasePending
  | 0x8 =>
    let n := 20 + bitsOf w 13 8
    if 28 ≤ n && n ≤ 39 then s.modPci fun p => { p with bar2Log2 := n } else s
  | 0xC => s.modPci fun p => { p with
      relaxed := bitOf w 4, payload := if bitsOf w 7 5 ≤ 2 then bitsOf w 7 5 else p.payload
      readReq := if bitsOf w 14 12 ≤ 5 then bitsOf w 14 12 else p.readReq }
  | 0x10 => s.modPci fun p => { p with cplRange := bitsOf w 3 0, cplOff := bitOf w 4 }
  | _ => s

end Sys2Proof.Machine
end

