-- ==== Sys2Proof/Machine/Security.lean ====
section
/-! DEFINITION. The security processor's requests and records (chapter 17: R491, R492, R495, R499 to R507). Whether a
signature verifies is an operand (log entry 46). -/

namespace Sys2Proof.Machine

/-- Owner slot `i` is occupied. -/
def Sec.owner (x : Sec) (i : Nat) : Bytes := if i == 0 then x.owner0 else x.owner1
def Sec.occupied (x : Sec) (i : Nat) : Bool := !(x.owner i).isEmpty

/-- Block 6 of R499 as bytes: owner key hashes, OWNER_EPOCH, GRAPH_POLICY, HBM_ENC, debug level, IDE state (log entry 49). -/
def Sec.stateBytes (x : Sec) : Bytes :=
  x.owner0 ++ x.owner1 ++ leBytes 8 x.ownerEpoch ++ leBytes 1 (b2n x.graphPolicy) ++ leBytes 1 (b2n x.hbmEnc) ++ leBytes 1 x.debug ++
    leBytes 1 (b2n x.ide)

/-- The configuration-present registers as words (chapter 19). -/
def State.presentWords (s : State) : List Nat :=
  [s.present.clusters + 65536 * s.clusterCount, s.coreCount, s.pchCount + 512 * (s.pchCount * 1152), s.pcieCount + 256 * s.rologCount + 65536 * s.present.lanes] ++
    (List.range 16).map fun k => bitsOf s.present.cores (32 * k + 31) (32 * k)

/-- A measurement block (R499, R500). -/
def State.measurement (s : State) (i : Nat) : Bytes :=
  match i with
  | 1 => Config.romDigest
  | 6 => sha384 s.sec.stateBytes
  | 7 => (s.work.graph.map fun g => g.digest).getD (List.replicate 48 0#8)
  | 8 => leBytes 4 s.err.grade ++ s.presentWords.flatMap (leBytes 4)
  | _ =>
    match s.sec.images.find? fun x => x.1 + 1 == i with
    | some (_, d, v, n) => d ++ leBytes 4 v ++ leBytes 4 n
    | none => []

/-- Whether security requests are answered: they wait too while the security processor is under test (R469). -/
def State.secAnswers (s : State) : Bool := s.answers && !s.isFenced 19 0

/-- GET_MEASUREMENTS: one block; block 0xF0 is a signature over the nonce and blocks 1 to 8, given as an operand (R499). A boot with FULL
debug has no Alias key to sign it with (R506). -/
def execGetMeasurements (i : Fin 256) (sig : Bytes) (s : State) : Host.Outcome State Fault Refusal :=
  .next (if !s.secAnswers then s
  else if i.val == 0xF0 then (if s.sec.debug == 2 then s else s.emit (.mctp sig))
  else if 1 ≤ i.val && i.val ≤ 8 then s.emit (.mctp (s.measurement i.val))
  else s)

/-- A challenge of 64 bytes: MODULE_ID, DEBUG_NONCE, OWNER_EPOCH, the level, zeros (R505; log entry 49). -/
def Sec.challengeBytes (x : Sec) (level : Nat) : Bytes :=
  leBytes 8 x.deviceId ++ leBytes 8 x.debugNonce ++ leBytes 8 x.ownerEpoch ++ leBytes 1 level ++ List.replicate 39 0#8

/-- DEBUG_CHALLENGE for level 1 OWNER or 2 FULL: the nonce rises (R505). -/
def execDebugChallenge (level : Fin 3) (s : State) : Host.Outcome State Fault Refusal :=
  .next (if !s.secAnswers || level.val == 0 then s
  else
    let s1 := s.modSec fun x => { x with debugNonce := x.debugNonce + 1, challenge := some level.val }
    s1.emit (.mctp (s1.sec.challengeBytes level.val)))

/-- DEBUG_UNLOCK: a token over the latest challenge, signed by an owner slot, and for FULL also by root keys (R505, R506). -/
def execDebugUnlock (nonce : Nat) (slot : Fin 2) (ownerSig rootSig : Bool) (s : State) : Host.Outcome State Fault Refusal :=
  .next (match s.sec.challenge with
  | none => s
  | some l =>
    if !s.secAnswers || nonce != s.sec.debugNonce || !ownerSig || !s.sec.occupied slot.val || (l == 2 && !rootSig) then s
    else if l == 2 then s.modSec fun x => { x with fullPending := true }
    else s.modSec fun x => { x with debug := max x.debug 1 })

/-- OWNER_RECORD: installs or replaces (96 bytes of key hashes) or clears a slot (R501). `signer`: the occupied slot whose keys
sign it, if any. -/
def execOwnerRecord (slot : Fin 2) (keys : Bytes) (signer : Option (Fin 2)) (rootSig : Bool) (s : State) :
    Host.Outcome State Fault Refusal :=
  let x := s.sec
  let empty := !x.occupied 0 && !x.occupied 1
  let auth := if empty then !x.claimed || signer.any fun k => x.occupied k.val else signer.any fun k => x.occupied k.val
  let clears := keys.isEmpty && !x.occupied (1 - slot.val)
  .next (if !s.secAnswers || !auth || (keys.length != 96 && keys.length != 0) || (clears && !rootSig) then s
  else s.modSec fun x => { x with
    owner0 := if slot.val == 0 then keys else x.owner0, owner1 := if slot.val == 1 then keys else x.owner1
    ownerEpoch := x.ownerEpoch + 1, claimed := true })

/-- POLICY_RECORD, signed by an owner slot: GRAPH_POLICY holds from the next LOAD_GRAPH, HBM_ENC from the next cold boot (R502). -/
def execPolicyRecord (required enc : Bool) (signer : Fin 2) (sig : Bool) (s : State) : Host.Outcome State Fault Refusal :=
  .next (if !s.secAnswers || !sig || !s.sec.occupied signer.val then s
  else s.modSec fun x => { x with graphPolicy := required, hbmEncPolicy := enc })

/-- REVOCATION_RECORD, signed by root keys: sets a slot's revocation bit unless no unrevoked slot of the algorithm would be left
(R492). -/
def execRevocationRecord (ml : Bool) (slot : Fin 4) (sig : Bool) (s : State) : Host.Outcome State Fault Refusal :=
  let old := if ml then s.sec.revokedMl else s.sec.revokedEd
  let new := withBit old slot.val true
  .next (if !s.secAnswers || !sig || new == 15 then s
  else s.modSec fun x => if ml then { x with revokedMl := new } else { x with revokedEd := new })

/-- REPROVISION_RECORD, signed by root keys: a module in TAMPER leaves it and its boot goes on (R495; log entry 49); the request waits while a processor is under test (R469). -/
def execReprovisionRecord (sig : Bool) (s : State) : Host.Outcome State Fault Refusal :=
  .next (if s.mgtWaits || s.isFenced 19 0 then s else if s.sec.tamper && sig then s.modSec fun x => { x with tamper := false } else s)

/-- IDE_KEY_PROGRAM over a secured SPDM session keys the one selective stream (R507). -/
def execIdeKeyProgram (secured : Bool) (s : State) : Host.Outcome State Fault Refusal :=
  .next (if s.secAnswers && secured then s.modSec fun x => { x with ide := true } else s)

end Sys2Proof.Machine
end

