-- ==== Sys2Proof/Machine/Tables.lean ====
section
/-! DEFINITION. ATTACH_TABLE and DETACH_TABLE (R73, R126, R127, R265, R266, R515, R541). -/

namespace Sys2Proof.Machine

/-- The second word of an extent list entry (chapter 03): length, ASPACE, and bits that must be 0. -/
def extBad (s : State) (b : Bytes) : Bool :=
  let w := fieldAt b 8 8
  bitsOf w 63 50 != 0 || decide (2 ≤ bitsOf w 49 48) || bitsOf w 47 0 == 0 || decide (0x10000000000 < bitsOf w 47 0) ||
    (bitsOf w 49 48 == 1 && !s.hbmOk (fieldAt b 0 8) (bitsOf w 47 0))

def parseExt (b : Bytes) : Extent := { addr := fieldAt b 0 8, len := bitsOf (fieldAt b 8 8) 47 0, space := spaceOf (bitsOf (fieldAt b 8 8) 49 48) }

/-- Whether a range of a space touches a stack that is off (R515). -/
def State.rangeOff (s : State) (sp : Space) (a n : Nat) : Bool := sp == .hbm && s.touchesOff a n

/-- Bytes of all extents. -/
def extTotal (exts : List Extent) : Nat := exts.foldl (fun n x => n + x.len) 0

/-- A column of a blocked table from its descriptor (R126). -/
def parseTCol (d : Bytes) : TCol :=
  { ty := fieldAt d 0 1, nullable := bitOf (fieldAt d 1 1) 0, param := fieldAt d 2 1, off := fieldAt d 8 8, idx := fieldAt d 16 8
    len := fieldAt d 24 8 }

/-- Check 1 of R127 on a descriptor. -/
def descBad (d : Bytes) : Bool :=
  let c := parseTCol d
  crc32c (d.take 4 ++ d.drop 8) != fieldAt d 4 4 || decide (2 ≤ fieldAt d 1 1) || fieldAt d 3 1 != 0 || !isType c.ty ||
    (c.ty == 0x42 && !isType c.param) || (c.ty != 0x30 && c.ty != 0x42 && c.param != 0) || (!isVar c.ty && c.idx != 0)

/-- The byte ranges of a column: its data, and the span index of a variable-width one. -/
def TCol.ranges (c : TCol) (rows : Nat) : List (Nat × Nat) :=
  (c.off, c.len) :: if isVar c.ty then [(c.idx, 8 * ceilDiv rows 8192)] else []

/-- The checks of R127 in order, on the header, the descriptors and the extents' total. -/
def blockedCheck (h : Bytes) (ds : List Bytes) (total : Nat) : Nat :=
  let cols := ds.map parseTCol
  let rows := fieldAt h 8 8
  let lay := (0, 64 + 32 * fieldAt h 6 2) :: cols.flatMap fun c => c.ranges rows
  if h.take 4 != [0x51#8, 0x42#8, 0x4C#8, 0x1A#8] || fieldAt h 24 36 != 0 || crc32c (h.take 60) != fieldAt h 60 4 || ds.any descBad then stBadDescriptor
  else if fieldAt h 4 2 != 1 then stVersion
  else if cols.any fun c => c.off % 0x400000 != 0 || c.idx % 64 != 0 then stMisaligned
  else if !(decide (1 ≤ cols.length) && decide (cols.length ≤ 1024)) || rows == 0 || decide (0x10000000000 < rows) ||
    cols.any fun c => (c.ty == 0x30 && decide (18 < c.param)) || (c.ty == 0x42 && (laneTy c.param).isNone) ||
      (!isVar c.ty && c.len != ceilDiv rows 8192 * spanBytes c.ty c.nullable) then stLimit
  else if fieldAt h 16 8 != total || lay.any (fun r => decide (total < r.1 + r.2)) || anyOverlap lay then stBadDescriptor
  else stOk

/-- The effects of reading a range of a table's bytes. -/
def State.extEffect (s : State) (exts : List Extent) (o n : Nat) : State :=
  (extPieces exts o n).foldl (fun t p => t.readEffect p.1 p.2.1 p.2.2) s

/-- A blocked table (R126, R127): status, and the table. -/
def State.attachBlocked (s : State) (e : BusEnv) (exts : List Extent) : Nat × Table :=
  let total := extTotal exts
  let rd := extRead (s.peek e) exts
  if total < 64 then (stBadDescriptor, {})
  else match rd 0 64 with
  | none => (stBusError, {})
  | some h =>
    let n := fieldAt h 6 2
    if total < 64 + 32 * n then (stBadDescriptor, {})
    else match rd 64 (32 * n) with
    | none => (stBusError, {})
    | some d =>
      let ds := recs d 0 32 n
      (blockedCheck h ds total, { format := 3, extents := exts, rows := fieldAt h 8 8, cols := ds.map parseTCol })

/-- The scan of CSV text: open quote, whether a record starts here, records, position, offsets of every 8,192nd record (R266). -/
structure Scan where
  quote : Bool := false
  fresh : Bool := true
  recs  : Nat := 0
  pos   : Nat := 0
  offs  : List Nat := []
  deriving DecidableEq, Repr

def Scan.byte (x : Scan) (b : Byte) : Scan :=
  let y := if x.fresh then { x with recs := x.recs + 1, offs := if x.recs % 8192 == 0 then x.offs ++ [x.pos] else x.offs } else x
  { y with quote := y.quote != (b == 0x22#8), fresh := b == 0x0A#8 && !y.quote, pos := y.pos + 1 }

/-- The text of a CSV table's extents (R266): raw, or what a Zstandard extent decompresses to. Answers none in `bad` for an extent that is
neither. -/
def csvText : List Bytes → List (Option Bytes) → Option Bytes
  | [], _ => some []
  | x :: xs, ts =>
    if fieldAt x 0 4 == 0xFD2FB528 then
      (ts.head?.getD none).bind fun t => (csvText xs (ts.drop 1)).map fun r => t ++ r
    else (csvText xs ts).map fun r => x ++ r

/-- The element type that a source type converts to, with its scale; none outside the supported subset (R267). -/
def srcElem : SrcTy → Option (Nat × Nat)
  | .pq .boolean .none => some (0x01, 0)
  | .pq .int32 .none => some (0x06, 0)
  | .pq .int64 .none => some (0x08, 0)
  | .pq .int32 (.int b sg) => if decide (b ≤ 32) then intCode b sg else none
  | .pq .int64 (.int b sg) => intCode b sg
  | .pq (.fixed n) .float16 => if n == 2 then some (0x10, 0) else none
  | .pq .float .none => some (0x12, 0)
  | .pq .double .none => some (0x13, 0)
  | .pq .int32 (.decimal p sc) => if decide (p ≤ 18) then some (0x30, sc) else none
  | .pq .int64 (.decimal p sc) => if decide (p ≤ 18) then some (0x30, sc) else none
  | .pq (.fixed n) (.decimal p sc) => if decide (p ≤ 18) && decide (1 ≤ n) && decide (n ≤ 8) then some (0x30, sc) else none
  | .pq .int32 .date => some (0x31, 0)
  | .pq .int64 (.timestamp u utc) => if utc && (u.val == 1 || u.val == 2) then some (0x32, 0) else none
  | .pq .byteArray .string => some (0x40, 0)
  | .pq .byteArray .none => some (0x41, 0)
  | .ar .bool => some (0x01, 0)
  | .ar (.int b sg) => intCode b sg
  | .ar (.floating b) => if b == 16 then some (0x10, 0) else if b == 32 then some (0x12, 0) else if b == 64 then some (0x13, 0) else none
  | .ar (.decimal128 p sc) => if decide (p ≤ 18) then some (0x30, sc) else none
  | .ar (.date day) => if day then some (0x31, 0) else none
  | .ar (.timestamp _) => some (0x32, 0)
  | .ar .utf8 => some (0x40, 0)
  | .ar .binary => some (0x41, 0)
  | _ => none
where
  /-- The code of an integer type of 8, 16, 32 or 64 bits (R104). -/
  intCode (b : Nat) (sg : Bool) : Option (Nat × Nat) :=
    (match b with | 8 => some 2 | 16 => some 4 | 32 => some 6 | 64 => some 8 | _ => none).map fun c => (if sg then c else c + 1, 0)

/-- The column that a file's column gives: element type, NULLABLE, scale or LIST element (R267). -/
def srcCol (c : SrcCol) : Option TCol :=
  (srcElem c.ty).bind fun t => match c.list with
    | none => some { ty := t.1, nullable := c.optional, param := t.2 }
    | some nulls =>
      if isVar t.1 || (match c.ty with | .ar _ => nulls | .pq _ _ => false) then none
      else some { ty := 0x42, nullable := c.optional, param := t.1 }

/-- Whether a column lies within the supported subset of its format: 0 Parquet, 1 Arrow IPC (R265, R267). -/
def srcSupported (fmt : Nat) (c : SrcCol) : Bool :=
  (srcCol c).isSome && !c.nested && match c.ty with
    | .pq p _ => fmt == 0 && c.codec != .other && c.encs.all fun e =>
        e != .other && (e != .deltaBinaryPacked || p == .int32 || p == .int64)
    | .ar _ => fmt == 1 && (c.codec == .uncompressed || c.codec == .zstd) && !c.dict

/-- Checks 2 to 4 of R265, and the table. -/
def fileCheck (fmt : Nat) (exts : List Extent) (x : FileIn) (footer rows : Nat) (offs : List Nat) : Nat × Table :=
  let t : Table := { format := fmt, extents := exts, rows := rows
                     cols := if fmt == 2 then x.schema.map fun c => { ty := c.1, nullable := c.2.1, param := c.2.2 } else x.src.filterMap srcCol
                     footer := footer, group := if fmt == 2 then 0 else x.group, offsets := offs, header := fmt == 2 && x.header
                     delim := x.delim.toNat }
  let n := if fmt == 2 then x.schema.length else x.src.length
  let st := if fmt == 1 && !x.aligned then stMisaligned
    else if decide (67108864 < footer) || n == 0 || decide (1024 < n) ||
      (fmt != 2 && (x.groups == 0 || decide (1048576 < x.groups))) || rows == 0 || decide (0x10000000000 < rows) then stLimit
    else if fmt != 2 && !x.src.all (srcSupported fmt) then stBadDescriptor
    else stOk
  (st, t)

/-- The magic of an Arrow IPC file. -/
def arrowMagic : Bytes := [0x41#8, 0x52#8, 0x52#8, 0x4F#8, 0x57#8, 0x31#8]
def parMagic : Bytes := [0x50#8, 0x41#8, 0x52#8, 0x31#8]

/-- A table of FORMAT 0 or 1: magics and footer length from its bytes, the rest from what the decoder finds (R265). -/
def State.attachFile (s : State) (e : BusEnv) (fmt : Nat) (exts : List Extent) (x : FileIn) : Nat × Table :=
  let total := extTotal exts
  let rd := extRead (s.peek e) exts
  let min := if fmt == 0 then 12 else 18
  if total < min then (stBadDescriptor, {})
  else match rd 0 8, rd (total - 10) 10 with
  | some a, some z =>
    let foot := if fmt == 0 then fieldAt z 2 4 else fieldAt z 0 4
    let bad := if fmt == 0 then a.take 4 != parMagic || z.drop 6 != parMagic || decide (total < foot + 12)
      else a != arrowMagic ++ [0#8, 0#8] || z.drop 4 != arrowMagic || decide (total < foot + 18)
    if bad then (stBadDescriptor, {})
    else if (rd (total - foot - if fmt == 0 then 8 else 10) foot).isNone then (stBusError, {})
    else if !x.parses then (stBadDescriptor, {})
    else if fmt == 1 && !x.v5 then (stVersion, {})
    else fileCheck fmt exts x foot x.rows []
  | _, _ => (stBusError, {})

/-- A CSV table: the whole text is read and scanned (R265, R266). -/
def State.attachCsv (s : State) (e : BusEnv) (exts : List Extent) (x : FileIn) : Nat × Table :=
  match exts.mapM fun y => s.peek e y.space y.addr y.len with
  | none => (stBusError, {})
  | some parts =>
    match csvText parts x.texts with
    | none => (stBadDescriptor, {})
    | some text =>
      let z := text.foldl Scan.byte {}
      if z.quote then (stBadDescriptor, {})
      else fileCheck 2 exts x 0 (z.recs - b2n x.header) z.offs

/-- ATTACH_TABLE (R73, R127, R265, R515, R541). It waits while its list or an extent lies on a bus that may not be read (R102). -/
def execAttachTable (seq : Nat) (e : BusEnv) (x : FileIn) (s : State) : Host.Outcome State Fault Refusal :=
  let s0 := s.env e
  .next (s0.begin seq opAttach fun c s =>
    let id := c.entry.p 0 % 65536
    let fmt := bitsOf (c.entry.p 0) 23 16
    let sp := spaceOf c.entry.aspace
    let n := 16 * c.entry.len0
    if sp == .bus && !s.inD0 then s0
    else if s.work.tables.any fun p => p.1 == id then s.finish seq stBusy 0
    else if s.rangeOff sp c.entry.addr0 n then s.finish seq stDomainOff 0
    else match s.peek e sp c.entry.addr0 n with
    | none => (s.readEffect sp c.entry.addr0 n).finish seq stBusError 0
    | some b =>
      let s1 := s.readEffect sp c.entry.addr0 n
      let es := recs b 0 16 c.entry.len0
      let exts := es.map parseExt
      if !s.inD0 && exts.any fun y => y.space == .bus then s0
      else if es.any (extBad s) then s1.finish seq stBadDescriptor 0
      else if exts.any fun y => s.rangeOff y.space y.addr y.len then s1.finish seq stDomainOff 0
      else
        let r := match fmt with
          | 3 => s1.attachBlocked e exts
          | 2 => s1.attachCsv e exts x
          | _ => s1.attachFile e fmt exts x
        let s2 := s1.extEffect exts 0 (if fmt == 3 then 64 + 32 * r.2.cols.length else if fmt == 2 then extTotal exts else 8)
        if r.1 != stOk then s2.finish seq r.1 0
        else (s2.modWork fun w => { w with tables := tset {} id { r.2 with entry := some c.entry } w.tables }).finish seq stOk id)

/-- Whether an open stream reads an attached table (R73). -/
def State.tableRead (s : State) (id : Nat) : Bool :=
  match s.work.graph with
  | none => false
  | some g => (List.range 64).any fun n => (s.stream n).inUse && (g.tablesRead n (s.stream n).src).contains id

/-- DETACH_TABLE (R73); of a table that is not attached ST_BAD_DESCRIPTOR (log entry 30). -/
def execDetachTable (seq : Nat) (s : State) : Host.Outcome State Fault Refusal :=
  .next (s.begin seq opDetach fun c s =>
    let id := c.entry.p 0
    if !(s.work.tables.any fun p => p.1 == id) then s.finish seq stBadDescriptor 0
    else if s.tableRead id then s.finish seq stBusy 0
    else (s.modWork fun w => { w with tables := w.tables.filter fun p => p.1 != id }).finish seq stOk 0)

end Sys2Proof.Machine
end

