-- ==== Sys2Proof/Machine/RegMap.lean ====
section
/-! DEFINITION. What every register of BAR0 reads as (chapter 19: R526 to R530, and the register tables of the chapters). A block lists
its plain registers, its read-only 64-bit pairs by the offset of _LO, and its RC registers with what puts a value into them. -/

namespace Sys2Proof.Machine

/-- The registers of one block. `los` are actions of a read of a pair's _LO register. -/
structure Block where
  regs  : List (Nat × (State → Nat)) := []
  pairs : List (Nat × (State → Nat)) := []
  rcs   : List (Nat × (State → Nat) × (Nat → State → State)) := []
  los   : List (Nat × (Nat → State → State)) := []

/-- A number as a register holds it. -/
def w32 (n : Nat) : Nat := n % 2 ^ 32

/-- Fields of a register: position and value. -/
def fields (l : List (Nat × Nat)) : Nat := l.foldl (fun v f => v + f.2 * 2 ^ f.1) 0

/-- A flag at a bit. -/
def fl (bit : Nat) (b : Bool) : Nat × Nat := (bit, b2n b)

/-- The two registers of a writable pair: the held _LO half and the _HI half in force (R8). -/
def rwPair (o : Nat) (f : State → Pair) : List (Nat × (State → Nat)) :=
  [(o, fun s => (f s).lo.toNat), (o + 4, fun s => (f s).val.toNat / 2 ^ 32)]

/-- Bytes [4w + 3:4w] of a string. -/
def wordAt (b : Bytes) (w : Nat) : Nat := fieldAt b (4 * w) 4

def State.coresMask (s : State) (k : Nat) : Nat :=
  if s.clusterIn k then s.present.cores / 2 ^ (32 * k) % 2 ^ 32 else 0

/-- The global registers (chapter 19). -/
def glbBlock : Block where
  regs := [(0x000, fun _ => 0x51B17720),
    (0x004, fun s => fields [fl 0 s.glb.ready, fl 1 s.attached, fl 2 s.work.graph.isSome, fl 3 (s.err.state == 1), fl 4 (s.err.state == 2),
      (8, ((List.range 64).filter s.opened).length), (16, ((List.range 64).filter fun q => (s.qp q).enable).length)]),
    (0x010, fun s => s.glb.fwVersion), (0x014, fun s => s.glb.resetCause + s.glb.warmCount * 256),
    (0x01C, fun _ => 0x40404040), (0x020, fun _ => 4096 + 1024 * 65536), (0x024, fun _ => 2048 + 0xF * 65536),
    (0x034, fun s => s.glb.rejOffset + s.glb.rejMaster * 2 ^ 26),
    (0x040, fun s => s.present.clusters % 65536 + countBits 16 s.present.clusters * 65536), (0x044, State.coreCount),
    (0x048, fun s => s.pchCount + s.pchCount * 1152 * 512),
    (0x04C, fun s => countBits 16 s.present.pcie + countBits 16 s.present.rolog * 256 + s.present.lanes * 65536),
    (0x0C0, fun _ => hqfSupport), (0x0C4, fun _ => qxgSupport), (0x0C8, fun _ => rlpSupport), (0x0CC, fun _ => mgiSupport),
    (0x0D0, fun s => s.glb.hqfOffer), (0x0D4, fun s => s.glb.qxgOffer), (0x0DC, fun s => b2n s.glb.done + s.glb.status * 256),
    (0x0E0, fun s => s.glb.hqfAgreed), (0x0E4, fun s => s.glb.qxgAgreed), (0x0E8, fun s => s.glb.mgiAgreed)] ++
    (List.range 16).map fun k => (0x080 + 4 * k, fun s => s.coresMask k)
  pairs := [(0x008, fun s => s.sec.deviceId), (0x028, fun s => encPos s.pos)]
  rcs := [(0x030, fun s => s.glb.reject, fun n s => s.modGlb fun g => { g with reject := n }),
    (0x038, fun s => s.glb.padOverlap, fun n s => s.modGlb fun g => { g with padOverlap := n })]

/-- Tailrace: its own registers and those of a flow (chapter 12). -/
def trcBlock : Block where
  regs := [(0x0, fun s => b2n s.work.trc.busy + (s.work.flows.map fun f => f.2.held.length).sum * 2)]
  pairs := [(0x8, fun s => s.work.trc.released)]
  rcs := [(0x4, fun s => s.work.trc.stall, fun n s => s.modWork fun w => { w with trc := { w.trc with stall := n } })]

def flowBlock (f : Nat) : Block where
  regs := [(0x8, fun s => (s.flow f).held.length)]
  pairs := [(0x0, fun s => (s.flow f).next)]

/-- WEIR_PENDING: the participants that owe arrivals; of a STREAM_END instance those that hold records of a closing stream (R354). -/
def State.weirPending (s : State) (i : Nat) : Nat :=
  match s.work.graph.bind fun g => g.weirRec i with
  | some r =>
    (if r.action == 0 then (s.weir i).owes r else if (s.stream r.stream).phase == .closing then s.endOwes r else []).foldl (fun m k => m + 2 ^ k) 0
  | none => 0

def weirBlock (i : Nat) : Block where
  regs := [(0x0, fun s => s.weirPending i), (0xC, fun s => (s.weir i).closes)]
  pairs := [(0x4, fun s => (s.weir i).gen)]

def weirHeldBlock : Block where
  rcs := [(0x0, fun s => s.work.weirHeld, fun n s => s.modWork fun w => { w with weirHeld := n })]

def strmBlock (n : Nat) : Block where
  regs := rwPair 0x00 (fun s => (s.stream n).stOrigin) ++ rwPair 0x08 (fun s => (s.stream n).stFrom) ++
    [(0x10, fun s => b2n (s.stream n).armed.isSome), (0x14, fun s => fields [fl 0 (s.stream n).armOverrun, fl 1 (s.stream n).busy])]
  rcs := [(0x18, fun s => (s.stream n).armOverruns, fun v s => s.modStream n fun x => { x with armOverruns := v })]

/-- The PCIe registers (chapter 15). -/
def pciBlock : Block where
  regs := [(0x0, fun s => fields [(0, if s.pci.linkUp then s.pci.rate else 0), (4, s.pci.width),
      (16, match s.pci.dstate with | .d0 => 0 | _ => 3)]),
    (0x4, fun s => s.pci.lanes)]
  rcs := [(0x8, fun s => s.pci.unmapped, fun n s => s.modPci fun p => { p with unmapped := n }),
    (0xC, fun s => s.pci.retrains, fun n s => s.modPci fun p => { p with retrains := n }),
    (0x10, fun s => s.pci.cplTimeouts, fun n s => s.modPci fun p => { p with cplTimeouts := n })]

/-- The 64 bytes shown by ERR_LOG_DATA; none selected reads as 0. -/
def Err.shown (e : Err) : Bytes := (e.log[e.logSel]?.map ErrRec.encode).getD []

/-- The error registers (chapter 16). -/
def errBlock : Block where
  regs := [(0x000, fun s => fields [(0, s.err.state), fl 2 s.err.reboot, fl 3 s.err.double, fl 4 s.err.duplexTrc, fl 5 s.evc.duplex]),
    (0x004, fun s => s.err.grade), (0x010, fun s => s.err.logSel), (0x02C, fun s => s.err.injKind + s.err.injIndex * 256)] ++
    (List.range 16).map fun w => (0x100 + 4 * w, fun s => wordAt s.err.shown w)
  pairs := [(0x008, fun s => s.err.lastNum)]
  rcs := [(0x014, fun s => s.err.transients, fun n s => s.modErr fun e => { e with transients := n }),
    (0x018, fun s => s.err.lasting, fun n s => s.modErr fun e => { e with lasting := n }),
    (0x01C, fun s => s.err.rerun, fun n s => s.modErr fun e => { e with rerun := n }),
    (0x020, fun s => s.err.maxPause, fun n s => s.modErr fun e => { e with maxPause := n }),
    (0x024, fun s => s.err.logLost, fun n s => s.modErr fun e => { e with logLost := n })]

/-- NOTICE_EN as it reads: 0 under HQF 1.0 (QP_CFG). -/
def State.shownNotice (s : State) (q : Nat) : Bool := (s.qp q).noticeEn && s.glb.hqfAgreed != 0x0100

/-- A queue pair's registers, and the journal's (chapter 03). -/
def qpBlock (q : Nat) : Block where
  regs := [(0x00, fun s => b2n (s.qp q).enable),
    (0x04, fun s => (s.qp q).sqLog2 + (s.qp q).cqLog2 * 16 + b2n (s.shownNotice q) * 256)] ++
    rwPair 0x08 (fun s => (s.qp q).sqBase) ++ rwPair 0x10 (fun s => (s.qp q).cqBase) ++
    (if q % 8 == 0 then rwPair 0x18 (fun s => (s.group (q / 8)).addr) else []) ++
    [(0x20, fun s => (s.qp q).vector), (0x24, fun s => (s.qp q).modTime + (s.qp q).modCount * 65536),
     (0x28, fun s => fields [fl 0 (s.qp q).enable, fl 1 (s.qp q).err, (8, (s.qp q).errStatus), fl 16 (s.qp q).irqHeld]),
     (0x2C, fun s => (s.qp q).sqHead % 65536), (0x30, fun s => (s.qp q).cqTail % 65536), (0x34, fun s => s.outstanding q)]
  rcs := [(0x38, fun s => (s.qp q).dupCount, fun n s => s.modQp q fun x => { x with dupCount := n })]

def jrnBlock : Block where
  regs := rwPair 0x000 (fun s => s.jrn.base) ++
    [(0x008, fun s => s.jrn.sizeLog2 + b2n s.jrn.scan * 256),
     (0x00C, fun s => fields [fl 0 s.jrn.ready, fl 1 s.jrn.stalled, fl 2 s.jrn.scanInvalid])]
  pairs := [(0x010, fun s => s.jrn.tail), (0x018, fun s => s.jrn.retire)]
  rcs := [(0x020, fun s => s.jrn.abandoned, fun n s => s.modJrn fun j => { j with abandoned := n })]

/-- The event controller's registers (chapter 14). -/
def evcBlock : Block where
  regs := [(0x0, fun s => fields (fl 20 (!s.evc.held.isEmpty) :: (List.range 20).map fun t => fl t (s.evc.target t).frozen))]
  pairs := [(0x10, fun s => s.evc.posts)]
  rcs := [(0x8, fun s => s.evc.voteFix, fun n s => s.modEvc fun e => { e with voteFix := n })]

def srcCode : SrcState → Nat
  | .idle => 0 | .pending => 1 | .claimed => 2 | .hostWait => 3

/-- STACK_INFO of a target: entry INDEX from the bottom. -/
def EvTgt.shown (g : EvTgt) : Nat :=
  match g.stack.reverse[g.stackSel]? with
  | some e => fields [(0, e.source), (16, e.prio), fl 24 e.started, (31, 1)]
  | none => 0

def tgtBlock (t : Nat) : Block where
  regs := [(0x00, fun s => (s.evc.target t).threshold),
    (0x04, fun s => let g := s.evc.target t
      fields [(0, g.level), (8, g.stack.length), fl 16 g.frozen, fl 17 (g.phase != .running)]),
    (0x08, fun s => match (s.evc.target t).stack with | e :: _ => e.source + 2 ^ 31 | [] => 0),
    (0x14, fun s => (s.evc.target t).stackSel), (0x18, fun s => (s.evc.target t).shown),
    (0x1C, fun s => (s.evc.target t).faultNamed + (s.evc.target t).faultTop * 65536)]
  pairs := [(0x28, fun s => (s.evc.target t).claims)]
  rcs := [(0x20, fun s => (s.evc.target t).full, fun n s => s.modEvc fun v => v.modTgt t fun g => { g with full := n })]

def hostPendBlock (w : Nat) : Block where
  regs := [(0x0, fun s => fields ((List.range 32).map fun i => fl i (s.evc.source (32 * w + i)).hostPend))]

def EvSrc.cfg (e : EvSrc) : Nat := fields [(0, e.prio), (8, e.target), fl 15 e.hostEn, (16, e.vector), fl 31 e.mask]

def srcBlock (n : Nat) : Block where
  regs := [(0x0, fun s => (s.evc.source n).cfg),
    (0x4, fun s => let e := s.evc.source n; fields [(0, srcCode e.state), fl 2 e.hostPend, fl 3 e.lost])]

def srcLostBlock (n : Nat) : Block where
  rcs := [(0x0, fun s => (s.evc.source n).lostCount, fun v s => s.modEvc fun e => e.modSrc n fun x => { x with lostCount := min 0xFF v })]

/-- A DMA channel's registers (chapter 13). -/
def chCode : ChState → Nat
  | .idle => 0 | .fetch => 1 | .run => 2 | .waitTrig => 3 | .parked => 4 | .halted => 5

def ChCfg.code (g : ChCfg) : Nat := fields [(0, g.burst), fl 3 g.edge, (4, g.retry), fl 7 g.haltCrc, (8, g.space), (10, g.batch)]

def chBlock (c : Nat) : Block where
  regs := [(0x004, fun s => let x := s.chan c
      fields [(0, chCode x.state), fl 3 x.armed.isSome, fl 4 x.armOverrun, fl 5 (!hostOwned c), (8, x.lastStatus)])] ++
    rwPair 0x008 (fun s => (s.chan c).head) ++
    [(0x010, fun s => b2n (s.chan c).armed.isSome), (0x018, fun s => (s.chan c).stCfg.code), (0x01C, fun s => b2n (s.chan c).pending.isSome),
     (0x020, fun s => (s.chan c).prio + (s.chan c).weight * 16), (0x024, fun s => (s.chan c).trigSrc + (s.chan c).trigCount * 65536),
     (0x040, fun s => (s.chan c).errInfo)]
  pairs := [(0x030, fun s => (s.chan c).cur), (0x038, fun s => (s.chan c).tail), (0x048, fun s => (s.chan c).errAddr),
    (0x068, fun s => (s.chan c).bytes), (0x070, fun s => (s.chan c).descs)]
  rcs := [(0x050, fun s => (s.chan c).retries, fun n s => s.modChan c fun x => { x with retries := n }),
    (0x054, fun s => (s.chan c).crcFail, fun n s => s.modChan c fun x => { x with crcFail := n }),
    (0x058, fun s => (s.chan c).armOverruns, fun n s => s.modChan c fun x => { x with armOverruns := n }),
    (0x05C, fun s => (s.chan c).trigLost, fun n s => s.modChan c fun x => { x with trigLost := n }),
    (0x060, fun s => (s.chan c).edgeBursts, fun n s => s.modChan c fun x => { x with edgeBursts := n })]

/-- ACTIVE_SRC. -/
def srcNo : Option BeatSrc → Nat
  | some .chain => 1
  | some .page => 2
  | _ => 0

/-- The period estimate in whole ns. -/
def Beat.periodNs (b : Beat) : Nat := b.pest.floor.toNat

/-- The beat, chain and pair registers (chapters 02, 15). A read of RLG_PERIOD_MIN_LO sets the pair to all ones. -/
def rlgBlock : Block where
  regs := [(0x000, fun s => fields [(0, s.beat.srcCfg), fl 2 s.beat.outEn, (4, s.beat.holdBeats)]),
    (0x004, fun s => fields [(0, lockCode s.beat.lock), (4, srcNo s.beat.active), fl 8 s.beat.breach, fl 9 s.beat.srcHold]),
    (0x010, fun s => phaseNow s.beat s.now)] ++ rwPair 0x040 (fun s => s.beat.page) ++
    [(0x100, fun s => fields [fl 0 s.chain.en, fl 1 s.chain.master, (8, s.chain.skew)]),
     (0x104, fun s => fields [fl 0 s.chain.inserted, fl 1 s.chain.ring, (8, s.chain.position), (16, s.chain.ringSize), fl 24 s.chain.conflict,
       fl 25 s.chain.over_]),
     (0x110, fun s => s.chain.splices), (0x200, fun s => s.pair.role),
     (0x208, fun s => fields [(0, s.pair.state.code), (4, s.pair.roleNow), (8, s.pair.portsUp), fl 16 s.pair.verErr, fl 17 s.pair.cfgErr,
       fl 18 s.pair.roleErr]),
     (0x20C, fun s => s.pair.offer), (0x210, fun s => s.pair.agreed)] ++ rwPair 0x218 (fun s => s.pair.lease) ++
    [(0x22C, fun s => s.pair.takeovers),
     (0x230, fun s => (if s.pair.roleNow == 2 then s.pair.undone.length
       else (s.qps.map fun q => (q.2.queue.filter fun e => e.annNum != 0).length).sum) % 65536)]
  pairs := [(0x008, fun s => s.pos / 65536), (0x018, fun s => s.beat.periodNs), (0x020, fun s => s.beat.periodMin),
    (0x118, fun s => s.chain.tokens), (0x220, fun s => s.pair.peerId), (0x238, fun s => s.pair.msgs)]
  rcs := [(0x028, fun s => s.beat.glitch, fun n s => s.modBeat fun b => { b with glitch := n }),
    (0x02C, fun s => s.beat.reject, fun n s => s.modBeat fun b => { b with reject := n }),
    (0x030, fun s => s.beat.breaches, fun n s => s.modBeat fun b => { b with breaches := n }),
    (0x108, fun s => s.chain.crcErr, fun n s => s.modChain fun c => { c with crcErr := n }),
    (0x10C, fun s => s.chain.mgmtDrop, fun n s => s.modChain fun c => { c with mgmtDrop := n }),
    (0x228, fun s => s.pair.retries, fun n s => s.modPair fun p => { p with retries := n })]
  los := [(0x020, fun n s => s.modBeat fun b => { b with periodMin := if n == 0 then 0xFFFFFFFFFFFFFFFF else n })]

/-- The power, management and security registers (chapters 17, 18). -/
def pwrBlock : Block where
  regs := [(0x00, fun s => let p := s.pwr
      fields [fl 0 (p.capStep != 0), fl 1 (p.thermStep != 0), fl 2 p.belowFloor, fl 3 p.vinWarn, fl 4 p.thermSeen,
        fl 5 (p.belowFloor || p.vinWarn || p.thermSeen), fl 6 p.request.isSome, (8, p.result)]),
    (0x04, fun s => s.pwr.cap), (0x08, fun s => s.pwr.step + clockMhz s.pwr.step * 65536), (0x0C, State.floorMhz),
    (0x14, fun s => s.pwr.mv10 % 65536 + s.pwr.watts % 4096 * 65536), (0x18, fun s => s.pwr.tempDie + s.pwr.tempHbm * 256),
    (0x20, fun s => fields [(0, s.pwr.ctlDomain), fl 8 s.pwr.ctlOff, fl 9 s.pwr.ctlForce])]
  pairs := [(0x28, fun s => 0x3FFFFFFFF - s.pwr.off % 2 ^ 34)]
  rcs := [(0x10, fun s => s.pwr.steps, fun n s => s.modPwr fun p => { p with steps := n })]

def mgtBlock : Block where
  regs := [(0x0, fun s => fields [(0, s.mgt.stage), fl 3 s.mgt.trial, fl 4 s.mgt.updating]), (0x4, fun s => s.mgt.eid), (0x8, State.uptime)]

def secBlock : Block where
  regs := [(0x00, fun s => let x := s.sec
      fields [(0, x.bootSlot), fl 1 (x.occupied 0), fl 2 (x.occupied 1), (3, x.debug), fl 5 x.graphPolicy, fl 6 x.hbmEnc, fl 7 x.ide, fl 8 x.tamper]),
    (0x18, fun s => s.sec.revokedEd + s.sec.revokedMl * 16)] ++
    (List.range 4).map fun i => (4 + 4 * i, fun s => tget 0 s.sec.svn (i + 1) % 65536)
  pairs := [(0x20, fun s => s.sec.deviceId)]
  rcs := [(0x14, fun s => s.sec.sigFail, fun n s => s.modSec fun x => { x with sigFail := n })]

/-- The record that a unit of a cluster runs. -/
def State.running (s : State) (k u : Nat) : Option TaskRec :=
  (tget [] (s.disp k).unitQ u).head?.bind fun i =>
    let r := (s.disp k).task i
    if r.state == .running then some r else none

/-- The banks that Sage's running task works on. -/
def State.sageBusy (s : State) (k : Nat) : Nat :=
  match s.work.graph, s.running k 3 with
  | some g, some r =>
    (match g.tpl r.tpl with
    | some t => let p := (g.params t).headD 0; if t.op == 3 then 2 ^ (p % 8) else p % 256
    | none => 0)
  | _, _ => 0

/-- WAIT_BARRIER: the layer task at the head of Millstone's queue waits on a Weir instance (R321). -/
def State.waitsBarrier (s : State) (k : Nat) : Bool :=
  match s.work.graph, (tget [] (s.disp k).unitQ 0).head? with
  | some g, some i => (let r := (s.disp k).task i; r.state != .running && !s.barrierOpen g r)
  | _, _ => false

/-- The units' registers of cluster `k` (chapters 06, 07, 08, 11). -/
def qrnBlock (k : Nat) : Block :=
  let q := fun s : State => (s.units k).quern
  let rc := fun (o : Nat) (f : Quern → Nat) (g : Quern → Nat → Quern) =>
    (o, (fun s => f (q s)), fun (n : Nat) (s : State) => s.modQuern k fun x => g x n)
  { regs := [(0x00, fun s => fields [fl 0 (s.running k 1).isSome, fl 1 (q s).limitHit, fl 2 (s.spillsOn k)])]
    pairs := [(0x28, fun s => (q s).limitKey), (0x30, fun s => (q s).chunks)]
    rcs := [rc 0x04 (·.nullKeys) fun x n => { x with nullKeys := n }, rc 0x08 (·.buildDup) fun x n => { x with buildDup := n },
      rc 0x0C (·.voidSkipped) fun x n => { x with voidSkipped := n }, rc 0x10 (·.spillBlocks) fun x n => { x with spillBlocks := n },
      rc 0x14 (·.asofNomatch) fun x n => { x with asofNomatch := n }, rc 0x18 (·.asofTies) fun x n => { x with asofTies := n },
      rc 0x1C (·.rangeErr) fun x n => { x with rangeErr := n }, rc 0x20 (·.nanInputs) fun x n => { x with nanInputs := n }] }

def srlBlock (k : Nat) : Block :=
  let q := fun s : State => (s.units k).sorrel
  let g := fun s : State => (s.units k).gth
  let rc := fun (o : Nat) (f : Sorrel → Nat) (h : Sorrel → Nat → Sorrel) =>
    (o, (fun s => f (q s)), fun (n : Nat) (s : State) => s.modSorrel k fun x => h x n)
  let rg := fun (o : Nat) (f : Gth → Nat) (h : Gth → Nat → Gth) =>
    (o, (fun s => f (g s)), fun (n : Nat) (s : State) => s.modGth k fun x => h x n)
  { regs := [(0x000, fun s => b2n (s.running k 2).isSome), (0x100, fun s => b2n (s.running k 4).isSome)]
    pairs := [(0x018, fun s => (q s).selections), (0x118, fun s => (g s).rowsRead), (0x120, fun s => (g s).coalesced)]
    rcs := [rc 0x004 (·.nanSeen) fun x n => { x with nanSeen := n }, rc 0x008 (·.dupMerged) fun x n => { x with dupMerged := n },
      rc 0x00C (·.dupMismatch) fun x n => { x with dupMismatch := n }, rc 0x010 (·.tieAtK) fun x n => { x with tieAtK := n },
      rc 0x014 (·.short) fun x n => { x with short := n }, rg 0x104 (·.oor) fun x n => { x with oor := n },
      rg 0x108 (·.nullIndex) fun x n => { x with nullIndex := n }, rg 0x10C (·.dropped) fun x n => { x with dropped := n },
      rg 0x110 (·.windowSplit) fun x n => { x with windowSplit := n }] }

def sageBlock (k : Nat) : Block :=
  let q := fun s : State => (s.units k).sage
  let rc := fun (o : Nat) (f : Sage → Nat) (g : Sage → Nat → Sage) =>
    (o, (fun s => f (q s)), fun (n : Nat) (s : State) => s.modSage k fun x => g x n)
  { regs := [(0x000, fun s => fields [(0, s.sageBusy k), fl 8 (q s).wrErr, fl 9 (q s).modeErr]), (0x040, fun s => (q s).wr.target),
      (0x044, fun s => (q s).wr.ctl), (0x088, fun s => (q s).wr.resLo), (0x08C, fun s => (q s).wr.res / 2 ^ 32),
      (0x090, fun s => b2n (q s).pending.isSome)] ++
      ((List.range 16).map fun i => (0x048 + 4 * i, fun s => tget 0 (q s).wr.key i)) ++
      (List.range 8).flatMap fun b => [(0x100 + 0x10 * b, fun s => (s.bank k b).stCfg), (0x104 + 0x10 * b, fun s => b2n (s.bank k b).pending.isSome),
        (0x108 + 0x10 * b, fun s => fields [(0, (s.bank k b).mode), (2, (s.bank k b).width), (16, (s.bank k b).validCount)])]
    pairs := [(0x030, fun s => (q s).searches)]
    rcs := [rc 0x004 (·.falseHit) fun x n => { x with falseHit := n }, rc 0x008 (·.eccCorr) fun x n => { x with eccCorr := n },
      rc 0x00C (·.eccUncorr) fun x n => { x with eccUncorr := n }, rc 0x010 (·.scrubFix) fun x n => { x with scrubFix := n },
      rc 0x014 (·.nullKeys) fun x n => { x with nullKeys := n }, rc 0x018 (·.keyLong) fun x n => { x with keyLong := n },
      rc 0x01C (·.bankOff) fun x n => { x with bankOff := n }, rc 0x020 (·.rptOverflow) fun x n => { x with rptOverflow := n },
      rc 0x024 (·.wrReject) fun x n => { x with wrReject := n }, rc 0x028 (·.multi) fun x n => { x with multi := n }] }

def mlsBlock (k : Nat) : Block :=
  let q := fun s : State => (s.units k).mls
  let rc := fun (o : Nat) (f : Mls → Nat) (g : Mls → Nat → Mls) =>
    (o, (fun s => f (q s)), fun (n : Nat) (s : State) => s.modMls k fun x => g x n)
  { regs := [(0x00, fun s => fields [fl 0 (s.running k 0).isSome, fl 1 (s.waitsBarrier k), (8, (q s).layer), (16, (q s).kernel)]),
      (0x04, fun s => (q s).arith), (0x08, fun s => (q s).flagEn)]
    pairs := [(0x20, fun s => (q s).macs), (0x28, fun s => (q s).busyCycles)]
    rcs := [rc 0x0C (·.bagDropped) fun x n => { x with bagDropped := n }, rc 0x10 (·.bagMismatch) fun x n => { x with bagMismatch := n },
      rc 0x14 (·.emptyBag) fun x n => { x with emptyBag := n }, rc 0x18 (·.emptyAttn) fun x n => { x with emptyAttn := n }] }

def taskCode : TaskState → Nat
  | .free => 0 | .delayed => 1 | .waiting => 2 | .ready => 3 | .prefetched => 4 | .running => 5

/-- A cluster's dispatcher, its router, and a core (chapters 12, 13, 05). -/
def dspBlock (k : Nat) : Block :=
  let rc := fun (o : Nat) (f : Disp → Nat) (g : Disp → Nat → Disp) =>
    (o, (fun s => f (s.disp k)), fun (n : Nat) (s : State) => s.modDisp k fun x => g x n)
  { regs := [(0x00, fun s => (s.disp k).slots.length + ((s.disp k).frames.filter fun f => f.2.used).length * 65536),
      (0x04, fun s => (s.disp k).stCfg), (0x08, fun s => b2n (s.disp k).pending.isSome), (0x40, fun s => (s.disp k).taskSel),
      (0x44, fun s => let r := (s.disp k).task (s.disp k).taskSel
        fields [(0, taskCode r.state), (3, r.prio), (6, r.frame), (12, r.tpl % 65536)])]
    pairs := [(0x20, fun s => (s.disp k).dispatched)]
    rcs := [rc 0x0C (·.flagDup) fun x n => { x with flagDup := n }, rc 0x10 (·.flagStray) fun x n => { x with flagStray := n },
      rc 0x14 (·.slotStall) fun x n => { x with slotStall := n }, rc 0x18 (·.discarded) fun x n => { x with discarded := n }] }

def sharesWord (l : List Nat) (i : Nat) : Nat := leNat ((List.range 4).map fun j => BitVec.ofNat 8 (l[4 * i + j]?.getD 0))

def netBlock (k : Nat) : Block where
  regs := [(0x00, fun s => (s.router k).linkUp + b2n (s.router k).qosErr * 16), (0x04, fun s => sharesWord (s.router k).stShares 0),
    (0x08, fun s => sharesWord (s.router k).stShares 1), (0x0C, fun s => b2n (s.router k).pending.isSome)]
  pairs := [(0x18, fun s => (s.router k).flits)]
  rcs := [(0x10, fun s => (s.router k).retry, fun n s => s.modRouter k fun r => { r with retry := n }),
    (0x14, fun s => (s.router k).stall, fun n s => s.modRouter k fun r => { r with stall := n })]

def coreBlock (c : Nat) : Block where
  regs := [(0x00, fun s => fields [fl 0 (s.core c).ctx.isSome, fl 1 (s.core c).faulted, (16, (s.core c).lastProg % 4096)]),
    (0x04, fun s => (s.core c).arith), (0x08, fun s => (s.core c).flagEn), (0x0C, fun s => (s.core c).faultInfo),
    (0x10, fun s => (s.core c).faultAddr), (0x20, fun s => (s.core c).h0.state + (s.core c).h1.state * 4 + (s.core c).next * 16)]
  pairs := [(0x18, fun s => (s.core c).words), (0x28, fun s => (s.core c).fills)]
  rcs := [(0x14, fun s => (s.core c).faultCount, fun n s => s.modCore c fun x => { x with faultCount := n })]

/-- An intake lane (chapters 09, 10). -/
def laneBlock (i : Nat) : Block :=
  let q := fun s : State => s.lane i
  let rc := fun (o : Nat) (f : Lane → Nat) (g : Lane → Nat → Lane) =>
    (o, (fun s => f (q s)), fun (n : Nat) (s : State) => s.modLane i fun x => g x n)
  { regs := [(0x000, fun s => fields [fl 0 ((s.laneBatch i).isSome || !(s.laneStalls i).isEmpty), fl 1 (!(s.laneStalls i).isEmpty)]),
      (0x020, fun s => (q s).lastReason + (q s).lastStream * 256), (0x100, fun s => (q s).dict * 256), (0x140, fun _ => 0),
      (0x14C, fun s => (q s).lastError),
      (0x180, fun s => fields [fl 0 (!(q s).images.isEmpty), fl 1 ((q s).images.head?.any fun x => x.staged)])]
    pairs := [(0x028, fun s => (q s).lastRow), (0x030, fun s => (q s).bytesIn), (0x038, fun s => (q s).bytesOut), (0x040, fun s => (q s).samples),
      (0x048, fun s => (q s).shufSteps), (0x110, fun s => (q s).tokens), (0x150, fun s => (q s).pixels), (0x190, fun s => (q s).lovSamples)]
    rcs := [rc 0x004 (·.voidCorrupt) fun x n => { x with voidCorrupt := n }, rc 0x008 (·.voidLimit) fun x n => { x with voidLimit := n },
      rc 0x00C (·.voidBudget) fun x n => { x with voidBudget := n }, rc 0x010 (·.voidSource) fun x n => { x with voidSource := n },
      rc 0x014 (·.utf8Fixed) fun x n => { x with utf8Fixed := n }, rc 0x018 (·.patience) fun x n => { x with patience := n },
      (0x01C, (fun s => s.stallCount i), fun n s => (s.noteStalls i).modLane i fun x => { x with shufStall := n }), rc 0x104 (·.truncated) fun x n => { x with truncated := n },
      rc 0x108 (·.fallback) fun x n => { x with fallback := n }, rc 0x144 (·.unsupported) fun x n => { x with unsupported := n },
      rc 0x148 (·.jpgCorrupt) fun x n => { x with jpgCorrupt := n }, rc 0x184 (·.badGeom) fun x n => { x with badGeom := n },
      rc 0x188 (·.border) fun x n => { x with border := n }, rc 0x18C (·.staged) fun x n => { x with staged := n }] }

/-- An HBM controller (chapter 13). -/
def hbmBlock (i : Nat) : Block where
  regs := [(0x00, fun s => fields [fl 0 (s.hbmCtl i).trained, fl 1 (s.hbmCtl i).scrubbing]),
    (0x04, fun s => fields ((List.range 32).map fun c => fl c (bitOf s.present.pchans (8 * c + i)))),
    (0x18, fun s => (s.hbmCtl i).period), (0x1C, fun s => (s.hbmCtl i).passes)]
  pairs := [(0x10, fun s => (s.hbmCtl i).errAddr), (0x20, fun s => (s.hbmCtl i).rdBytes), (0x28, fun s => (s.hbmCtl i).wrBytes)]
  rcs := [(0x08, fun s => (s.hbmCtl i).corr, fun n s => s.modHbmCtl i fun x => { x with corr := n }),
    (0x0C, fun s => (s.hbmCtl i).uncorr, fun n s => s.modHbmCtl i fun x => { x with uncorr := n })]

/-- A register block by name and unit number (R526 to R529). -/
inductive BlockId where
  | glb | trc | weirHeld | pci | err | jrn | evc | rlg | pwr | mgt | sec
  | flow (f : Nat) | weir (w : Nat) | strm (n : Nat) | qp (q : Nat) | tgt (t : Nat) | hostPend (w : Nat) | src (n : Nat) | srcLost (n : Nat)
  | ch (c : Nat) | qrn (k : Nat) | srl (k : Nat) | sage (k : Nat) | mls (k : Nat) | dsp (k : Nat) | net (k : Nat) | core (c : Nat)
  | lane (i : Nat) | hbm (i : Nat)
  deriving DecidableEq, Repr

/-- The registers of a block. -/
def BlockId.block : BlockId → Block
  | .glb => glbBlock | .trc => trcBlock | .weirHeld => weirHeldBlock | .pci => pciBlock | .err => errBlock | .jrn => jrnBlock
  | .evc => evcBlock | .rlg => rlgBlock | .pwr => pwrBlock | .mgt => mgtBlock | .sec => secBlock
  | .flow f => flowBlock f | .weir w => weirBlock w | .strm n => strmBlock n | .qp q => qpBlock q | .tgt t => tgtBlock t
  | .hostPend w => hostPendBlock w | .src n => srcBlock n | .srcLost n => srcLostBlock n | .ch c => chBlock c | .qrn k => qrnBlock k
  | .srl k => srlBlock k | .sage k => sageBlock k | .mls k => mlsBlock k | .dsp k => dspBlock k | .net k => netBlock k
  | .core c => coreBlock c | .lane i => laneBlock i | .hbm i => hbmBlock i

/-- A block of a run of equal blocks: base, stride, count. -/
def run (mk : Nat → BlockId) (base stride count off : Nat) : Option (BlockId × Nat) :=
  if base ≤ off ∧ off < base + stride * count then some (mk ((off - base) / stride), (off - base) % stride) else none

/-- The block of cluster `k` at an offset in its space (R528). -/
def clusterAt (k o : Nat) : Option (BlockId × Nat) :=
  if 0x80000 ≤ o then run (fun n => .core (32 * k + n)) 0x80000 0x4000 32 o
  else
    let b := o / 0x10000
    let r := o % 0x10000
    (match b with
    | 1 => some (.qrn k, r) | 2 => some (.srl k, r) | 3 => some (.sage k, r) | 4 => some (.mls k, r) | 5 => some (.dsp k, r)
    | 6 => some (.net k, r) | _ => none)

/-- The block at a BAR0 offset, and the offset in it (R526, R527, R528; chapter 14 for the event controller). -/
def blockAt (off : Nat) : Option (BlockId × Nat) :=
  if off < 0x4000 then some (.glb, off)
  else if off < 0x8000 then some (.trc, off - 0x4000)
  else if off < 0xC000 then run .flow 0x8000 0x10 1024 off
  else if off < 0xC400 then run .weir 0xC000 0x10 64 off
  else if off < 0xD000 then some (.weirHeld, off - 0xC400)
  else if off < 0xE000 then run .strm 0xD000 0x20 64 off
  else if off < 0xF000 then some (.pci, off - 0xE000)
  else if off < 0x10000 then some (.err, off - 0xF000)
  else if off < 0x14000 then run .qp 0x10000 0x100 64 off
  else if off < 0x40000 then some (.jrn, off - 0x14000)
  else if off < 0x41000 then some (.evc, off - 0x40000)
  else if off < 0x42000 then run .tgt 0x41000 0x40 20 off
  else if off < 0x50000 then run .hostPend 0x42000 4 128 off
  else if off < 0x58000 then run .src 0x50000 8 4096 off
  else if off < 0x80000 then run .srcLost 0x58000 4 4096 off
  else if off < 0x100000 then run .ch 0x80000 0x400 64 off
  else if off < 0x200000 then some (.rlg, off - 0x100000)
  else if off < 0x204000 then some (.pwr, off - 0x200000)
  else if off < 0x208000 then some (.mgt, off - 0x204000)
  else if off < 0x400000 then some (.sec, off - 0x208000)
  else if off < 0x1400000 then clusterAt ((off - 0x400000) / 0x100000) ((off - 0x400000) % 0x100000)
  else if off < 0x3000000 then run .lane 0x2000000 0x10000 8 off
  else run .hbm 0x3000000 0x10000 8 off

/-- Whether the registers of a block can be reached: those of a cluster, core or lane out of service, or whose domain is off, cannot;
routers, HBM controllers and reserved channels stay (R530). -/
def State.reachable (s : State) : BlockId → Bool
  | .qrn k => s.clusterIn k | .srl k => s.clusterIn k | .sage k => s.clusterIn k | .mls k => s.clusterIn k | .dsp k => s.clusterIn k
  | .core c => s.coreIn c
  | .lane i => s.laneIn i
  | _ => true

/-- The reachable block at an offset. -/
def State.blockOf (s : State) (off : Nat) : Option (BlockId × Nat) := (blockAt off).filter fun b => s.reachable b.1

/-- The present value of a register of a block; an offset without a register reads 0 (R427). -/
def Block.value (b : Block) (o : Nat) (s : State) : Nat :=
  match b.regs.lookup o, b.rcs.lookup o, b.pairs.lookup o with
  | some f, _, _ => w32 (f s)
  | _, some f, _ => w32 (f.1 s)
  | _, _, some f => w32 (f s)
  | none, none, none => if 4 ≤ o then (match b.pairs.lookup (o - 4) with | some f => w32 (f s / 2 ^ 32) | none => 0) else 0

/-- The value of the register at an offset, with nothing cleared or captured (R77). -/
def State.regPeek (s : State) (off : Nat) : Nat :=
  match s.blockOf off with
  | some b => b.1.block.value b.2 s
  | none => 0

/-- A read of a 4-byte register (R7, R9, R531): the _LO half of a read-only pair captures _HI, the next read of _HI takes the capture; an
RC field is left at the `inc` counted in the cycle of the read. Past BAR0 lie BAR4 and the configuration fields (R426). -/
def State.regRead (s : State) (off inc : Nat) : Nat × State :=
  if cfgBase ≤ off then (s.cfgRead (off - cfgBase), s)
  else if bar4Base ≤ off then (s.bar4Read (off - bar4Base), s)
  else match tget none s.capture off, s.blockOf off with
  | some h, some _ => (h.toNat, { s with capture := tset none off none s.capture })
  | _, none => (0, s)
  | none, some b =>
    let k := b.1.block
    let v := k.value b.2 s
    let s1 := match k.pairs.lookup b.2 with
      | some f => { s with capture := tset none (off + 4) (some (BitVec.ofNat 32 (f s / 2 ^ 32))) s.capture }
      | none => s
    let s2 := match k.los.lookup b.2 with | some g => g inc s1 | none => s1
    (v, match k.rcs.lookup b.2 with | some g => g.2 inc s2 | none => s2)

end Sys2Proof.Machine
end

