-- ==== Sys2Proof/Machine/RegWrite.lean ====
section
/-! DEFINITION. What a write of every register does (chapters 00 and 19: R5, R8 to R12, R539; the register tables of the chapters). -/

namespace Sys2Proof.Machine

/-- Judges the IDLE fields of one write (R539): `differs` says that a written field differs from its present value. While the block is
busy such a write is dropped and counted once; otherwise the fields take their new values. -/
def State.idleWrite (s : State) (busy differs : Bool) (off m : Nat) (f : State → State) : State :=
  if !busy then f s else if differs then s.reject off m else s

/-- The held half of a writable pair, and the whole pair once _HI is written (R8). -/
def Pair.setLo (p : Pair) (v : Nat) : Pair := { p with lo := BitVec.ofNat 32 v }
def Pair.setHi (p : Pair) (v : Nat) : Pair := { p with val := BitVec.ofNat 64 (v * 2 ^ 32 + p.lo.toNat) }

/-- A written address with its low bits reserved (R5). -/
def alignTo (n v : Nat) : Nat := v - v % n

/-- Writes one half of an IDLE pair. -/
def State.pairWrite (s : State) (busy : Bool) (off m : Nat) (hi : Bool) (v : Nat) (p : Pair) (f : Pair → State → State) : State :=
  if hi then s.idleWrite busy (v != p.val.toNat / 2 ^ 32) off m (f (p.setHi v))
  else s.idleWrite busy (v != p.lo.toNat) off m (f (p.setLo v))

/-- The global registers (R63, R535, R537). -/
def State.glbWrite (s : State) (m off o v : Nat) : State :=
  match o with
  | 0x018 => s.resetCtl m v
  | 0x0D0 => if m != 0 then s.reject off m else s.idleWrite s.anyQp (v != s.glb.hqfOffer) off m fun s => s.modGlb fun g => { g with hqfOffer := v }
  | 0x0D4 => if m != 0 then s.reject off m else s.idleWrite s.anyQp (v != s.glb.qxgOffer) off m fun s => s.modGlb fun g => { g with qxgOffer := v }
  | 0x0D8 => if m != 0 then s.reject off m else if bitOf v 0 then s.attachGo m else s
  | _ => s

/-- A stream's registers (R358 to R360). -/
def State.strmWrite (s : State) (n m o v : Nat) : State :=
  match o with
  | 0x00 => s.modStream n fun x => { x with stOrigin := x.stOrigin.setLo v }
  | 0x04 => s.modStream n fun x => { x with stOrigin := x.stOrigin.setHi v }
  | 0x08 => s.modStream n fun x => { x with stFrom := x.stFrom.setLo v }
  | 0x0C => s.modStream n fun x => { x with stFrom := x.stFrom.setHi v }
  | 0x10 => if bitOf v 0 then s.strmArm n m else s
  | 0x14 => if bitOf v 0 then s.modStream n fun x => { x with armOverrun := false } else s
  | _ => s

/-- The error registers (R481, R489). -/
def State.errWrite (s : State) (m o v : Nat) : State :=
  match o with
  | 0x000 => if bitOf v 3 then s.modErr fun e => { e with double := false } else s
  | 0x010 => s.modErr fun e => { e with logSel := v % 256 }
  | 0x028 => if bitOf v 0 then s.mapoutClear m else s
  | 0x02C =>
    if bitOf v 31 then s.errInject m (v % 32) (bitsOf v 23 8)
    else s.modErr fun e => { e with injKind := v % 32, injIndex := bitsOf v 23 8 }
  | _ => s

/-- A queue pair's registers (chapter 03). QP_MOD: a TIME of 0 stops the timer (R98); a new nonzero TIME keeps a running deadline, and a
lower COUNT acts at the next signalling entry (DEDUCED, log entry 84). -/
def State.qpWrite (s : State) (q m off o v : Nat) : State :=
  let x := s.qp q
  let busy := x.enable || s.outstanding q != 0
  match o with
  | 0x00 => if bitOf v 0 then s.qpEnable q m else s.qpDisable q m
  | 0x04 =>
    s.idleWrite busy (v % 512 != x.sqLog2 + x.cqLog2 * 16 + b2n (s.shownNotice q) * 256) off m fun s =>
      s.modQp q fun x => { x with sqLog2 := v % 16, cqLog2 := bitsOf v 7 4, noticeEn := bitOf v 8 }
  | 0x08 => s.pairWrite busy off m false (alignTo 4096 v) x.sqBase fun p s => s.modQp q fun x => { x with sqBase := p }
  | 0x0C => s.pairWrite busy off m true v x.sqBase fun p s => s.modQp q fun x => { x with sqBase := p }
  | 0x10 => s.pairWrite busy off m false (alignTo 4096 v) x.cqBase fun p s => s.modQp q fun x => { x with cqBase := p }
  | 0x14 => s.pairWrite busy off m true v x.cqBase fun p s => s.modQp q fun x => { x with cqBase := p }
  | 0x18 =>
    if q % 8 != 0 then s
    else s.pairWrite (!(s.groupQps (q / 8)).isEmpty) off m false (alignTo 64 v) (s.group (q / 8)).addr fun p s => s.modGroup (q / 8) fun d => { d with addr := p }
  | 0x1C =>
    if q % 8 != 0 then s
    else s.pairWrite (!(s.groupQps (q / 8)).isEmpty) off m true v (s.group (q / 8)).addr fun p s => s.modGroup (q / 8) fun d => { d with addr := p }
  | 0x20 => s.modQp q fun x => { x with vector := v % 2048 }
  | 0x24 => s.modQp q fun x => { x with
      modTime := v % 65536, modCount := bitsOf v 27 16, timer := if v % 65536 == 0 then none else x.timer }
  | _ => s

/-- The journal's registers (R89, R539, R540): the IDLE fields are judged first, then GO triggers its action. -/
def State.jrnWrite (s : State) (m off o v : Nat) : State :=
  match o with
  | 0x000 => s.pairWrite s.anyQp off m false (alignTo 4096 v) s.jrn.base fun p s => s.modJrn fun j => { j with base := p }
  | 0x004 => s.pairWrite s.anyQp off m true v s.jrn.base fun p s => s.modJrn fun j => { j with base := p }
  | 0x008 =>
    let s1 := s.idleWrite s.anyQp (v % 32 != s.jrn.sizeLog2 || bitOf v 8 != s.jrn.scan) off m fun s =>
      s.modJrn fun j => { j with sizeLog2 := v % 32, scan := bitOf v 8 }
    if bitOf v 31 then s1.journalGo else s1
  | _ => s

/-- HOST_PEND bits written as 1 are cleared (R406, R423). -/
def State.ackPend (s : State) (w v : Nat) : State :=
  s.modEvc fun e => (setBits 32 v).foldl (fun e i => if (e.source (32 * w + i)).hostPend then e.modSrc (32 * w + i) EvSrc.ack else e) e

/-- A target's registers (R414, R417, R420). -/
def State.tgtWrite (s : State) (t m off o v : Nat) : State :=
  match o with
  | 0x00 => s.modEvc fun e => e.modTgt t fun g => { g with threshold := v % 64 }
  | 0x0C => s.tgtComplete t (v % 4096) m off
  | 0x10 => if bitOf v 0 then s.tgtFlush t m else s
  | 0x14 => s.modEvc fun e => e.modTgt t fun g => { g with stackSel := v % 16 }
  | _ => s

/-- A source's registers: the IDLE fields while the source is not IDLE are dropped, MASK is taken all the same (R410, R539); the
configuration of the stack-fault sources is read-only (R419). -/
def State.srcWrite (s : State) (n m off o v : Nat) : State :=
  let x := s.evc.source n
  match o with
  | 0x0 =>
    if isStackFaultSrc n then s
    else
      let w := { x with prio := v % 64, target := bitsOf v 12 8, hostEn := bitOf v 15, vector := bitsOf v 26 16, mask := bitOf v 31 }
      let s1 := s.modEvc fun e => e.modSrc n fun y => { y with mask := w.mask }
      s1.idleWrite (x.state != .idle) (w.cfg % 2 ^ 31 != x.cfg % 2 ^ 31) off m fun s =>
        s.modEvc fun e => e.modSrc n fun y => { y with prio := w.prio, target := w.target, hostEn := w.hostEn, vector := w.vector }
  | 0x4 =>
    s.modEvc fun e => e.modSrc n fun y =>
      let y1 := if bitOf v 2 && y.hostPend then y.ack else y
      if bitOf v 3 then { y1 with lost := false } else y1
  | _ => s

/-- CH_CFG as written. -/
def parseChCfg (v : Nat) : ChCfg :=
  { burst := v % 8, edge := bitOf v 3, retry := bitsOf v 6 4, haltCrc := bitOf v 7, space := bitsOf v 9 8, batch := bitsOf v 11 10 }

/-- A channel's registers (R381, R387, R389, R400, R401). Those of a reserved channel are the firmware's: a write is dropped and
counted (R381). A write of CH_CTL with ABORT and RESUME both 1 aborts first (DESIGN CHOICE, log entry 79). -/
def State.chWrite (s : State) (c m off o v : Nat) : State :=
  let x := s.chan c
  if !hostOwned c && [0x000, 0x008, 0x00C, 0x010, 0x014, 0x018, 0x01C, 0x020, 0x024].contains o then s.reject off m
  else match o with
  | 0x000 =>
    let s1 := if bitOf v 0 then s.chAbort c m else s
    if bitOf v 1 then (if bitOf v 2 then s1.chResumeSkip c m else s1.chResume c m) else s1
  | 0x004 => if bitOf v 4 then s.modChan c fun x => { x with armOverrun := false } else s
  | 0x008 => s.modChan c fun x => { x with head := x.head.setLo (alignTo 64 v) }
  | 0x00C => s.modChan c fun x => { x with head := x.head.setHi v }
  | 0x010 => if bitOf v 0 then s.chArm c m else s
  | 0x014 => s.chRepoke c m
  | 0x018 => s.modChan c fun x => { x with stCfg := parseChCfg v }
  | 0x01C => if bitOf v 0 then s.modChan c fun x => { x with pending := some x.stCfg }.settleCfg else s
  | 0x020 => s.modChan c fun x => { x with prio := v % 4, weight := bitsOf v 7 4 }
  | 0x024 =>
    s.idleWrite (x.state != .idle && x.state != .parked && x.state != .halted) (v % 4096 != x.trigSrc) off m fun s =>
      s.modChan c fun x => { x with trigSrc := v % 4096 }
  | _ => s

/-- Whether the pair is in a state in which its IDLE fields are busy: the states of ROLE's row, taken for OFFER and LEASE too (DESIGN CHOICE,
log entry 79). -/
def State.pairBusy (s : State) : Bool := s.pair.state == .syncing || s.pair.state == .paired || s.pair.state == .suspect

/-- The beat, chain and pair registers (R39, R40, R434, R437, R438, R448, R456, R464): a module that becomes master has position 0. -/
def State.rlgWrite (s : State) (m off o v : Nat) : State :=
  match o with
  | 0x000 => s.modBeat fun b => { b with srcCfg := v % 4, outEn := bitOf v 2, holdBeats := bitsOf v 7 4 }
  | 0x004 => if bitOf v 8 then s.modBeat fun b => { b with breach := false } else s
  | 0x040 => s.modBeat fun b => { b with page := b.page.setLo (alignTo 64 v) }
  | 0x044 => s.modBeat fun b => { b with page := b.page.setHi v, pageSet := true }
  | 0x048 => if bitOf v 0 then s.rebase m else s
  | 0x100 =>
    let s1 := s.modChain fun c => { c with en := bitOf v 0, master := bitOf v 1, skew := bitsOf v 17 8 }
    if bitOf v 1 && !s.chain.master then s1.takePosition 0 else s1
  | 0x104 => s.modChain fun c => { c with conflict := c.conflict && !bitOf v 24, over_ := c.over_ && !bitOf v 25 }
  | 0x200 =>
    s.idleWrite s.pairBusy (v % 4 != s.pair.role) off m fun s => if v % 4 == s.pair.role then s else s.setRole (v % 4)
  | 0x204 =>
    let s1 := if bitOf v 0 then s.handover else s
    if bitOf v 1 then s1.leave else s1
  | 0x208 => s.modPair fun p => { p with verErr := p.verErr && !bitOf v 16, cfgErr := p.cfgErr && !bitOf v 17, roleErr := p.roleErr && !bitOf v 18 }
  | 0x20C => s.idleWrite s.pairBusy (v != s.pair.offer) off m fun s => s.modPair fun p => { p with offer := v }
  | 0x218 => s.pairWrite s.pairBusy off m false (alignTo 64 v) s.pair.lease fun p s => s.modPair fun x => { x with lease := p }
  | 0x21C => s.pairWrite s.pairBusy off m true v s.pair.lease fun p s => s.modPair fun x => { x with lease := p }
  | _ => s

/-- The power registers (R28, R514). -/
def State.pwrWrite (s : State) (m off o v : Nat) : State :=
  match o with
  | 0x00 => s.modPwr fun p => { p with vinWarn := p.vinWarn && !bitOf v 3, thermSeen := p.thermSeen && !bitOf v 4 }
  | 0x04 => s.setCap (v % 1024)
  | 0x20 =>
    let d := v % 64
    let p := s.pwr
    if bitOf v 31 then s.domainGo m d (bitOf v 8) (bitOf v 9)
    else s.idleWrite p.request.isSome (d != p.ctlDomain || bitOf v 8 != p.ctlOff || bitOf v 9 != p.ctlForce) off m fun s =>
      s.domainFields d (bitOf v 8) (bitOf v 9)
  | _ => s

/-- Sage's registers: the write group, the bank configurations and their commits (R10, R253, R255). -/
def State.sageWrite (s : State) (k o v : Nat) : State :=
  match o with
  | 0x000 => s.modSage k fun q => { q with wrErr := q.wrErr && !bitOf v 8, modeErr := q.modeErr && !bitOf v 9 }
  | 0x040 => s.modSage k fun q => { q with wr := { q.wr with target := v % 8 + bitsOf v 15 4 * 16 } }
  | 0x044 => s.modSage k fun q => { q with wr := { q.wr with ctl := v % 8 + bitsOf v 15 8 * 256 } }
  | 0x088 => s.modSage k fun q => { q with wr := { q.wr with resLo := v } }
  | 0x08C => s.modSage k fun q => { q with wr := { q.wr with res := v * 2 ^ 32 + q.wr.resLo } }
  | 0x090 => if bitOf v 0 then s.modSage k fun q => { q with pending := some (q.commits + 1, q.wr), commits := q.commits + 1 } else s
  | _ =>
    if 0x048 ≤ o ∧ o < 0x088 then s.modSage k fun q => { q with wr := { q.wr with key := tset 0 ((o - 0x048) / 4) v q.wr.key } }
    else if 0x100 ≤ o ∧ o < 0x180 then
      let b := (o - 0x100) / 0x10
      (match (o - 0x100) % 0x10 with
      | 0x0 => s.modBank k b fun x => { x with stCfg := v % 16 }
      | 0x4 =>
        if bitOf v 0 then
          let n := (s.units k).sage.commits + 1
          (s.modSage k fun q => { q with commits := n }).modBank k b fun x => { x with pending := some (n, x.stCfg) }
        else s
      | _ => s)
    else s

/-- The flags that a mask clears. -/
def clearBits (a v : Nat) : Nat := a - Nat.land a v

/-- The registers of a cluster's other units and of a core. Clearing CORE_ARITH_FLAGS bits clears them in the core's engines too. -/
def State.mlsWrite (s : State) (k o v : Nat) : State :=
  match o with
  | 0x04 => s.modMls k fun q => { q with arith := clearBits q.arith (v % 64) }
  | 0x08 => s.modMls k fun q => { q with flagEn := v % 64 }
  | _ => s

def State.dspWrite (s : State) (k o v : Nat) : State :=
  match o with
  | 0x04 => s.modDisp k fun d => { d with stCfg := v % 8192 }
  | 0x08 => if bitOf v 0 then s.modDisp k fun d => { d with pending := some d.stCfg } else s
  | 0x40 => s.modDisp k fun d => { d with taskSel := v % 4096 }
  | _ => s

/-- Four of the eight shares replaced by the bytes of a word. -/
def putShares (l : List Nat) (i v : Nat) : List Nat :=
  (List.range 8).map fun j => if j / 4 == i then v / 256 ^ (j % 4) % 256 else l[j]?.getD 0

def State.netWrite (s : State) (k o v : Nat) : State :=
  match o with
  | 0x00 => if bitOf v 4 then s.modRouter k fun r => { r with qosErr := false } else s
  | 0x04 => s.modRouter k fun r => { r with stShares := putShares r.stShares 0 v }
  | 0x08 => s.modRouter k fun r => { r with stShares := putShares r.stShares 1 v }
  | 0x0C => if bitOf v 0 then s.modRouter k fun r => { r with pending := some r.stShares } else s
  | _ => s

def State.coreWrite (s : State) (c o v : Nat) : State :=
  match o with
  | 0x04 =>
    (s.modCore c fun x => { x with arith := clearBits x.arith (v % 64) }).modWork fun w => { w with
      engines := (List.range 32).foldl (fun t e => tmod {} (32 * c + e) (fun g => { g with flags := clearBits g.flags (v % 64) }) t) w.engines }
  | 0x08 => s.modCore c fun x => { x with flagEn := v % 64 }
  | _ => s

/-- The write of one block's register. -/
def State.blockWrite (s : State) (m off v : Nat) : BlockId × Nat → State
  | (.glb, o) => s.glbWrite m off o v
  | (.strm n, o) => s.strmWrite n m o v
  | (.err, o) => s.errWrite m o v
  | (.qp q, o) => s.qpWrite q m off o v
  | (.jrn, o) => s.jrnWrite m off o v
  | (.evc, o) => if o == 4 then s.postEvent (0xF00 + v % 256) else s
  | (.tgt t, o) => s.tgtWrite t m off o v
  | (.hostPend w, _) => s.ackPend w v
  | (.src n, o) => s.srcWrite n m off o v
  | (.ch c, o) => s.chWrite c m off o v
  | (.rlg, o) => s.rlgWrite m off o v
  | (.pwr, o) => s.pwrWrite m off o v
  | (.sage k, o) => s.sageWrite k o v
  | (.mls k, o) => s.mlsWrite k o v
  | (.dsp k, o) => s.dspWrite k o v
  | (.net k, o) => s.netWrite k o v
  | (.core c, o) => s.coreWrite c o v
  | (.hbm i, o) => if o == 0x18 then s.modHbmCtl i fun x => { x with period := v % 256 } else s
  | _ => s

/-- A write of a 4-byte register by a master: an offset without a register ignores it (R427). Past BAR0 lie BAR4 and the configuration
fields, which the host alone writes (R426). -/
def State.regWrite (s : State) (m off v : Nat) : State :=
  if bar4Base ≤ off then
    (if m != 0 then s else if cfgBase ≤ off then s.cfgWrite (off - cfgBase) (w32 v) else s.bar4Write (off - bar4Base) (w32 v))
  else match s.blockOf off with
  | some b => s.blockWrite m off (w32 v) b
  | none => s

/-- Whether an access has a size and alignment that BAR0 accepts (R427). -/
def bar0Size (off len : Nat) : Bool := (len == 4 && off % 4 == 0) || (len == 8 && off % 8 == 0)

/-- An access of another size or alignment: counted, logged, posted (R427). -/
def State.badAccess (s : State) (off : Nat) (rd : Bool) : State := if rd then (s.unmapped 1).emit (.unsupported off) else s.unmapped 1

/-- A read of 4 or 8 bytes; 8 bytes read _LO, then _HI (R427). The data is returned. -/
def State.access (s : State) (off len inc : Nat) : State :=
  if !bar0Size off len then s.badAccess off true
  else
    let a := s.regRead off inc
    if len == 4 then a.2.emit (.data (leBytes 4 a.1))
    else
      let b := a.2.regRead (off + 4) 0
      b.2.emit (.data (leBytes 4 a.1 ++ leBytes 4 b.1))

/-- A write of 4 or 8 bytes; 8 bytes write _LO, then _HI (R427). -/
def State.barWrite (s : State) (m off data len : Nat) : State :=
  if !bar0Size off len then s.badAccess off false
  else if len == 4 then s.regWrite m off data
  else (s.regWrite m off data).regWrite m (off + 4) (data / 2 ^ 32)

/-- REGISTER_WRITE (R9, R539, R427). -/
def execRegisterWrite (m : Master) (off data len : Nat) (s : State) : Host.Outcome State Fault Refusal := .next (s.barWrite m.val off data len)

/-- RC_READ: a register read; `inc` events are counted in the cycle in which the read of an RC field returns (R9, R531). -/
def execRcRead (off len inc : Nat) (s : State) : Host.Outcome State Fault Refusal := .next (s.access off len inc)

/-- LO_READ_CAPTURE: a 4-byte read of a _LO register (R7). -/
def execLoReadCapture (off : Nat) (s : State) : Host.Outcome State Fault Refusal := .next (s.access off 4 0)

/-- Whether a block's offset is a *_COMMIT register. -/
def isCommit : BlockId × Nat → Bool
  | (.ch _, o) => o == 0x01C
  | (.dsp _, o) => o == 0x08
  | (.net _, o) => o == 0x0C
  | (.sage _, o) => o == 0x090 || (decide (0x100 ≤ o) && decide (o < 0x180) && o % 0x10 == 4)
  | _ => false

/-- COMMIT_WRITE: a write of a *_COMMIT register (R10, R11, R12). -/
def execCommitWrite (m : Master) (off data : Nat) (s : State) : Host.Outcome State Fault Refusal :=
  .next (match s.blockOf off with
    | some b => if isCommit b then s.barWrite m.val off data 4 else s
    | none => s)

/-- UNMAPPED_BAR0_READ: a read of a size or alignment that BAR0 does not accept (R427). -/
def execUnmappedBar0Read (off len : Nat) (s : State) : Host.Outcome State Fault Refusal :=
  .next (if bar0Size off len then s else s.badAccess off true)

/-- PENDING_COPY_ADOPT: a channel at a burst boundary, with no burst in flight, or a dispatcher between two placements, adopts its
pending copy (R10, R13). -/
def execPendingCopyAdopt (chan : Bool) (n : Fin 64) (s : State) : Host.Outcome State Fault Refusal :=
  .next (if chan then s.modChan n.val Chan.settleCfg
    else if n.val < 16 then s.modDisp n.val Disp.adopt else s)

/-- The stream block of QUERY KIND 1 (R77). EPOCH is that of the next batch to begin, the first that has not begun (R96). -/
def Stream.queryBytes (x : Stream) : Bytes :=
  leBytes 1 (match x.phase with | .open_ => 1 | .closing => 2 | _ => 0) ++ leBytes 7 0 ++ leBytes 8 x.firstUnbegun ++ leBytes 8 x.released ++
    leBytes 8 x.runLimit ++ leBytes 4 (x.epochOf x.firstUnbegun) ++ leBytes 4 x.late ++ leBytes 8 x.voidRows ++ leBytes 16 0

/-- The block that a QUERY asks for (R77). -/
def State.queryBlock (s : State) (e : SubEntry) : Option Bytes :=
  match e.p 0 % 256 with
  | 0 => some ((List.range 64).flatMap fun w => leBytes 4 (s.regPeek (4 * w)))
  | 1 => some (s.stream (e.p 1 % 64)).queryBytes
  | 2 => some (match s.work.graph with
    | some g => leBytes 8 g.id ++ leBytes 2 g.variant ++ leBytes 2 g.major ++ leBytes 2 g.minor ++ leBytes 2 0
    | none => leBytes 16 0)
  | _ => none

/-- Writes a command's result block: a failing write ends with ST_BUS_ERROR, one that touches a stack that is off with ST_DOMAIN_OFF
(R77, R399, R515). -/
def State.putResult (s : State) (e : BusEnv) (c : Cmd) (bs : Bytes) : State :=
  let sp := spaceOf c.entry.aspace
  if s.rangeOff sp c.entry.addr0 bs.length then s.finish c.seq stDomainOff 0
  else if sp == .bus && envFails e c.entry.addr0 bs.length then s.finish c.seq stBusError 0
  else (if sp == .bus then s.busWrite c.entry.addr0 bs else s.devWrite c.entry.addr0 bs).finish c.seq stOk bs.length

/-- QUERY (R77). It waits while the block may not write host memory (R102). -/
def execQuery (seq : Nat) (e : BusEnv) (s : State) : Host.Outcome State Fault Refusal :=
  let s := s.env e
  .next (if !s.writeOpen then s
  else s.begin seq opQuery fun c s =>
    match s.queryBlock c.entry with
    | some bs => if c.entry.len0 < bs.length then s.finish seq stLimit 0 else s.putResult e c bs
    | none => s.finish seq stLimit 0)

end Sys2Proof.Machine
end

