-- ==== Sys2Proof/Machine/Words.lean ====
section
/-! DEFINITION. The stream-program words of R157: what each does to its engine, and the commands that issue them. -/

namespace Sys2Proof.Machine

/-- The normalisation that a word of opcode `op` computes, being the next word of an engine (R206, R207). -/
def State.normAt (s : State) (id : EngineId) (op : Nat) : Option Norm :=
  (s.core (coreNo id)).ctx.bind fun cx => s.work.graph.bind fun g =>
    (g.decls.norms.find? fun d => d.1 == cx.prog && d.2.1 == (s.engine (engineNo id)).word && normOp d.2.2.kind == op).map fun d => d.2.2

/-- The parameters of a normalisation as binary64 codes: constants, or those that a table stage has fitted (R206, R208). -/
def State.normParams (s : State) (n : Norm) : List Nat :=
  match n.fit with
  | none => n.params
  | some (t, m) =>
    let b := s.builtOf t
    let x := b.fit.getD { mu := 0, sigma := 0, lo := 0, hi := 0 }
    match n.kind with
    | .zscore => [x.mu, x.sigma]
    | .quantile => (b.sketch.map fun w =>
        let c := parseCol w.1
        (b.knots 0 (m - 1) (m - 1)).map fun k => ((laneTy c.ty).map fun t => value64 t c.param k.bits).getD 0).getD []
    | _ => [x.lo, x.hi]

/-- Whether an input is one that NAN_MODE decides: a NaN, or below -1 under LOG1P that is not SIGNED (R206, R207). -/
def normOdd (n : Norm) (fm : FpFmt) (x : Nat) : Bool :=
  fm.isNan x || (n.kind == .log1p && !n.flag && (match fm.decode x with | .inf neg => neg | .fin neg a d => neg && decide (d < a) | .nan => true))

/-- The lanes of a word that NAN_MODE decides. -/
def normOddLanes (n : Norm) (f : Fields) (e : Engine) : Nat :=
  match laneTy f.ty.val with
  | some ⟨z, .flt fm⟩ => ((List.range (32 / z)).filter fun i => e.on f.mask.val i && (e.src z f.va.val i).any (normOdd n fm)).length
  | _ => 0

/-- FMA(x, r, c) of ZSCORE and MINMAX (R206): r is 1 ÷ `d` in the working type, and c is -`m` × r in FP64, then in the working type; +0 where `d`
is 0. -/
def normScale (t : LTy) (fm : FpFmt) (f : Fields) (m : Nat) (d : Rat) (x : Nat) : LaneRes :=
  if d == 0 then (some 0, 0)
  else
    let r := (fm.round 0 false 0 false d.den d.num.natAbs).1
    let p := fp64.encode 0 (fMul (fp64.decode m).negate (fm.decode r)).1
    laneFma t { f with sub := 0 } x r (fm.encode 0 (fp64.decode p.1)).1

/-- QUANTILE of R206: 0 at or below the first knot, 1 at or above the last, between them (j + (x - q_j) ÷ (q_(j+1) - q_j)) ÷ (N - 1) in FP64. -/
def normQuantile (fm : FpFmt) (qs : List Rat) (x : FVal) : Nat :=
  let below := match x with | .inf neg => neg | v => decide (ratOf v ≤ qs.headD 0)
  let beyond := match x with | .inf neg => !neg | v => decide (qs.getLastD 0 ≤ ratOf v)
  let out := fun v : Rat => (fm.encode 0 (fp64.decode (fp64Of v))).1
  if below then 0
  else if beyond then out 1
  else
    let j := (qs.filter fun q => decide (q ≤ ratOf x)).length - 1
    let a := qs.getD j 0
    out (((j : Rat) + (ratOf x - a) / (qs.getD (j + 1) 0 - a)) / ((qs.length - 1 : Nat) : Rat))

/-- A present value under a normalisation with parameters `ps` (R206, R207). -/
def normLane (n : Norm) (ps : List Nat) (t : LTy) (fm : FpFmt) (f : Fields) (x : Nat) : LaneRes :=
  let q := fun i => ratOf (fp64.decode (ps.getD i 0))
  let code := fun i => (fm.encode 0 (fp64.decode (ps.getD i 0))).1
  if normOdd n fm x then
    ((match n.nanMode with | 0 => none | 1 => some (if n.kind == .clip then code 0 else fm.nanCode) | _ => some (n.fill % 2 ^ (8 * t.size))), 0)
  else match n.kind with
  | .zscore => normScale t fm f (ps.getD 0 0) (q 1) x
  | .minmax =>
    let y := normScale t fm f (ps.getD 0 0) (q 1 - q 0) x
    if n.flag then (y.1.map fun v => laneMinMax t false (laneMinMax t true v 0) (fm.encode 0 (.fin false 1 1)).1, y.2) else y
  | .log1p =>
    if n.flag && (fm.decode x).neg then
      let y := laneApprox .log1p t f (Nat.xor x fm.signBit)
      (y.1.map fun v => Nat.xor v fm.signBit, y.2)
    else laneApprox .log1p t f x
  | .clip => (some (laneMinMax t false (laneMinMax t true x (code 0)) (code 1)), 0)
  | .quantile => (some (normQuantile fm (ps.map fun p => ratOf (fp64.decode p)) (fm.decode x)), 0)

/-- A word's effect as a normalisation of VA, lane by lane; a null stays null (R206, R207). -/
def normed (n : Norm) (ps : List Nat) (f : Fields) (e : Engine) : Engine :=
  forTypes .flt f e fun t => match t.kind with
    | .flt fm => e.map1 f t.size (normLane n ps t fm f)
    | _ => e

/-- Issues a word that may compute a normalisation, which a floating-point one does; each input that NAN_MODE decides is counted (R206, R207). -/
def State.issueNorm (s : State) (op : Nat) (id : EngineId) (f : Fields) (body : Engine → Engine) : State :=
  match (s.normAt id op).filter fun _ => isFltTy f.ty.val with
  | none => s.issue op id f body
  | some n =>
    if !s.issues id op f then s
    else (s.issue op id f (normed n (s.normParams n) f)).modQuern id.cluster.val fun q =>
      { q with nanInputs := sat32 q.nanInputs (normOddLanes n f (s.engine (engineNo id))) }

/-- LOOP opens a loop of IMM iterations; LEND ends one (R154, R156). These two place the next word. -/
def State.issueLoop (s : State) (id : EngineId) (f : Fields) : State :=
  let e := s.engine (engineNo id)
  if !s.issues id 0x01 f then s
  else
    let e1 := { e with loops := (e.word + 1, f.imm.val) :: e.loops }
    (s.modEngine (engineNo id) fun _ => nextWord (s.core (coreNo id)).ctx e1 (e.word + 1)).coreFlags (coreNo id) 0

/-- LEND: back to the word after LOOP while iterations remain. -/
def State.issueLend (s : State) (id : EngineId) (f : Fields) : State :=
  let e := s.engine (engineNo id)
  if !s.issues id 0x02 f then s
  else
    let cx := (s.core (coreNo id)).ctx
    let e1 := match e.loops with
      | (w, n) :: r => if n > 1 then nextWord cx { e with loops := (w, n - 1) :: r } w
                       else nextWord cx { e with loops := r } (e.word + 1)
      | [] => nextWord cx e (e.word + 1)
    (s.modEngine (engineNo id) fun _ => e1).coreFlags (coreNo id) 0

/-- LOOP. -/
def execLoop (e : EngineId) (f : Fields) (s : State) : Host.Outcome State Fault Refusal := .next (s.issueLoop e f)

/-- LEND. -/
def execLend (e : EngineId) (f : Fields) (s : State) : Host.Outcome State Fault Refusal := .next (s.issueLend e f)

/-- LD: in line, narrow and packed streams (R153, R137, R159). -/
def execLd (e : EngineId) (f : Fields) (s : State) : Host.Outcome State Fault Refusal :=
  .next (s.issueAccess 0x10 e f [0, 1, 3] fun cx d t g m => loadWord cx d f t g m)

/-- ST: in line, narrow and packed streams (R153, R137, R159). -/
def execSt (e : EngineId) (f : Fields) (s : State) : Host.Outcome State Fault Refusal :=
  .next (s.issueAccess 0x11 e f [0, 1, 3] fun cx d t g m => storeWord cx d f t g m)

/-- LDV: in bitmap streams (R153, R137, R159). -/
def execLdv (e : EngineId) (f : Fields) (s : State) : Host.Outcome State Fault Refusal :=
  .next (s.issueAccess 0x12 e f [2] fun cx _ t g m => loadValid cx f t g m)

/-- STV: in bitmap streams (R153, R137, R159). -/
def execStv (e : EngineId) (f : Fields) (s : State) : Host.Outcome State Fault Refusal :=
  .next (s.issueAccess 0x13 e f [2] fun cx _ t g m => storeValid cx f t g m)

/-- NOP does nothing (R157). -/
def wordNop (_f : Fields) (e : Engine) : Engine :=
  e

/-- NOP does nothing (R157). -/
def execNop (e : EngineId) (f : Fields) (s : State) : Host.Outcome State Fault Refusal := .next (s.issue 0x00 e f (wordNop f))

/-- ADD: VA + VB (R143, R145, R148). -/
def wordAdd (f : Fields) (e : Engine) : Engine :=
  forTypes .arith f e fun t => e.map2 f t.size (laneAdd t f false)

/-- ADD: VA + VB (R143, R145, R148). -/
def execAdd (e : EngineId) (f : Fields) (s : State) : Host.Outcome State Fault Refusal := .next (s.issue 0x20 e f (wordAdd f))

/-- SUB: VA - VB (R143, R145, R148). -/
def wordSub (f : Fields) (e : Engine) : Engine :=
  forTypes .arith f e fun t => e.map2 f t.size (laneAdd t f true)

/-- SUB: VA - VB (R143, R145, R148). -/
def execSub (e : EngineId) (f : Fields) (s : State) : Host.Outcome State Fault Refusal := .next (s.issue 0x21 e f (wordSub f))

/-- MUL: VA × VB (R143, R145, R148). -/
def wordMul (f : Fields) (e : Engine) : Engine :=
  forTypes .arith f e fun t => e.map2 f t.size (laneMul t f)

/-- MUL: VA × VB (R143, R145, R148). -/
def execMul (e : EngineId) (f : Fields) (s : State) : Host.Outcome State Fault Refusal := .next (s.issue 0x22 e f (wordMul f))

/-- MULH: upper half of the product (R145). -/
def wordMulh (f : Fields) (e : Engine) : Engine :=
  forTypes .int f e fun t => e.map2 f t.size (laneMulh t)

/-- MULH: upper half of the product (R145). -/
def execMulh (e : EngineId) (f : Fields) (s : State) : Host.Outcome State Fault Refusal := .next (s.issue 0x23 e f (wordMulh f))

/-- FMA: VA × VB ± VC with one rounding (R138, R143). -/
def wordFma (f : Fields) (e : Engine) : Engine :=
  forTypes .flt f e fun t => e.map3 f t.size (laneFma t f)

/-- FMA: VA × VB ± VC with one rounding (R138, R143). -/
def execFma (e : EngineId) (f : Fields) (s : State) : Host.Outcome State Fault Refusal := .next (s.issueNorm 0x24 e f (wordFma f))

/-- DIV (R143, R146, R148). -/
def wordDiv (f : Fields) (e : Engine) : Engine :=
  forTypes .arith f e fun t => e.map2 f t.size (laneDiv t f)

/-- DIV (R143, R146, R148). -/
def execDiv (e : EngineId) (f : Fields) (s : State) : Host.Outcome State Fault Refusal := .next (s.issue 0x25 e f (wordDiv f))

/-- DIVF: floor quotient (R146). -/
def wordDivf (f : Fields) (e : Engine) : Engine :=
  forTypes .int f e fun t => e.map2 f t.size (laneDivInt t f divFloor false)

/-- DIVF: floor quotient (R146). -/
def execDivf (e : EngineId) (f : Fields) (s : State) : Host.Outcome State Fault Refusal := .next (s.issue 0x26 e f (wordDivf f))

/-- REM: remainder with the sign of the dividend (R146). -/
def wordRem (f : Fields) (e : Engine) : Engine :=
  forTypes .int f e fun t => e.map2 f t.size (laneDivInt t f divTrunc true)

/-- REM: remainder with the sign of the dividend (R146). -/
def execRem (e : EngineId) (f : Fields) (s : State) : Host.Outcome State Fault Refusal := .next (s.issue 0x27 e f (wordRem f))

/-- MODF: remainder with the sign of the divisor (R146). -/
def wordModf (f : Fields) (e : Engine) : Engine :=
  forTypes .int f e fun t => e.map2 f t.size (laneDivInt t f divFloor true)

/-- MODF: remainder with the sign of the divisor (R146). -/
def execModf (e : EngineId) (f : Fields) (s : State) : Host.Outcome State Fault Refusal := .next (s.issue 0x28 e f (wordModf f))

/-- MIN (R143). -/
def wordMin (f : Fields) (e : Engine) : Engine :=
  forTypes .arith f e fun t => e.map2 f t.size fun a b => okPick t f (laneMinMax t false a b)

/-- MIN (R143). -/
def execMin (e : EngineId) (f : Fields) (s : State) : Host.Outcome State Fault Refusal := .next (s.issue 0x29 e f (wordMin f))

/-- MAX (R143). -/
def wordMax (f : Fields) (e : Engine) : Engine :=
  forTypes .arith f e fun t => e.map2 f t.size fun a b => okPick t f (laneMinMax t true a b)

/-- MAX (R143). -/
def execMax (e : EngineId) (f : Fields) (s : State) : Host.Outcome State Fault Refusal := .next (s.issue 0x2A e f (wordMax f))

/-- ABS (R143, R145). -/
def wordAbs (f : Fields) (e : Engine) : Engine :=
  forTypes .arith f e fun t => e.map1 f t.size (laneAbs t f)

/-- ABS (R143, R145). -/
def execAbs (e : EngineId) (f : Fields) (s : State) : Host.Outcome State Fault Refusal := .next (s.issue 0x2B e f (wordAbs f))

/-- NEG (R143, R145). -/
def wordNeg (f : Fields) (e : Engine) : Engine :=
  forTypes .arith f e fun t => e.map1 f t.size (laneNeg t f)

/-- NEG (R143, R145). -/
def execNeg (e : EngineId) (f : Fields) (s : State) : Host.Outcome State Fault Refusal := .next (s.issue 0x2C e f (wordNeg f))

/-- CLAMP: MIN(MAX(VA, VB), VC) (R143). -/
def wordClamp (f : Fields) (e : Engine) : Engine :=
  forTypes .arith f e fun t => e.map3 f t.size fun a b c => okPick t f (laneMinMax t false (laneMinMax t true a b) c)

/-- CLAMP: MIN(MAX(VA, VB), VC) (R143). -/
def execClamp (e : EngineId) (f : Fields) (s : State) : Host.Outcome State Fault Refusal := .next (s.issueNorm 0x2D e f (wordClamp f))

/-- SQRT (R143). -/
def wordSqrt (f : Fields) (e : Engine) : Engine :=
  forTypes .flt f e fun t => e.map1 f t.size (laneSqrt t f)

/-- SQRT (R143). -/
def execSqrt (e : EngineId) (f : Fields) (s : State) : Host.Outcome State Fault Refusal := .next (s.issue 0x2E e f (wordSqrt f))

/-- MOV: VA with its validity; bit patterns unchanged (R107, R157). -/
def wordMov (f : Fields) (e : Engine) : Engine :=
  forTypes .fixed f e fun t => e.writeLanes f t.size fun i => (e.src t.size f.va.val i, 0)

/-- MOV: VA with its validity; bit patterns unchanged (R107, R157); where declared, a QUANTILE normalisation (R206). -/
def execMov (e : EngineId) (f : Fields) (s : State) : Host.Outcome State Fault Refusal := .next (s.issueNorm 0x2F e f (wordMov f))

/-- MOVI: the immediate as valid lanes (R157). -/
def wordMovi (f : Fields) (e : Engine) : Engine :=
  forTypes .fixed f e fun t => e.writeLanes f t.size fun _ => (some (laneImm t f.imm.val), 0)

/-- MOVI: the immediate as valid lanes (R157). -/
def execMovi (e : EngineId) (f : Fields) (s : State) : Host.Outcome State Fault Refusal := .next (s.issue 0x30 e f (wordMovi f))

/-- EXP (R144). -/
def wordExp (f : Fields) (e : Engine) : Engine :=
  forTypes .flt f e fun t => e.map1 f t.size (laneApprox .exp t f)

/-- EXP (R144). -/
def execExp (e : EngineId) (f : Fields) (s : State) : Host.Outcome State Fault Refusal := .next (s.issue 0x38 e f (wordExp f))

/-- LOG (R144). -/
def wordLog (f : Fields) (e : Engine) : Engine :=
  forTypes .flt f e fun t => e.map1 f t.size (laneApprox .log t f)

/-- LOG (R144). -/
def execLog (e : EngineId) (f : Fields) (s : State) : Host.Outcome State Fault Refusal := .next (s.issue 0x39 e f (wordLog f))

/-- LOG1P (R144). -/
def wordLog1p (f : Fields) (e : Engine) : Engine :=
  forTypes .flt f e fun t => e.map1 f t.size (laneApprox .log1p t f)

/-- LOG1P (R144). -/
def execLog1p (e : EngineId) (f : Fields) (s : State) : Host.Outcome State Fault Refusal := .next (s.issueNorm 0x3A e f (wordLog1p f))

/-- TANH (R144). -/
def wordTanh (f : Fields) (e : Engine) : Engine :=
  forTypes .flt f e fun t => e.map1 f t.size (laneApprox .tanh t f)

/-- TANH (R144). -/
def execTanh (e : EngineId) (f : Fields) (s : State) : Host.Outcome State Fault Refusal := .next (s.issue 0x3B e f (wordTanh f))

/-- SIGM (R144). -/
def wordSigm (f : Fields) (e : Engine) : Engine :=
  forTypes .flt f e fun t => e.map1 f t.size (laneApprox .sigm t f)

/-- SIGM (R144). -/
def execSigm (e : EngineId) (f : Fields) (s : State) : Host.Outcome State Fault Refusal := .next (s.issue 0x3C e f (wordSigm f))

/-- ERF (R144). -/
def wordErf (f : Fields) (e : Engine) : Engine :=
  forTypes .flt f e fun t => e.map1 f t.size (laneApprox .erf t f)

/-- ERF (R144). -/
def execErf (e : EngineId) (f : Fields) (s : State) : Host.Outcome State Fault Refusal := .next (s.issue 0x3D e f (wordErf f))

/-- RSQRT (R144). -/
def wordRsqrt (f : Fields) (e : Engine) : Engine :=
  forTypes .flt f e fun t => e.map1 f t.size (laneApprox .rsqrt t f)

/-- RSQRT (R144). -/
def execRsqrt (e : EngineId) (f : Fields) (s : State) : Host.Outcome State Fault Refusal := .next (s.issue 0x3E e f (wordRsqrt f))

/-- RCP (R144). -/
def wordRcp (f : Fields) (e : Engine) : Engine :=
  forTypes .flt f e fun t => e.map1 f t.size (laneApprox .rcp t f)

/-- RCP (R144). -/
def execRcp (e : EngineId) (f : Fields) (s : State) : Host.Outcome State Fault Refusal := .next (s.issue 0x3F e f (wordRcp f))

/-- CMP: K[VD] bits from VA cond VB, 0 where a source is invalid (R143, R157). -/
def wordCmp (f : Fields) (e : Engine) : Engine :=
  forTypes .fixedNotFp8 f e fun t => e.writeMask f t.size fun i =>
    match e.src t.size f.va.val i, e.src t.size f.vb.val i with
    | some a, some b => laneCmp t f.sub.val a b
    | _, _ => false

/-- CMP: K[VD] bits from VA cond VB, 0 where a source is invalid (R143, R157). -/
def execCmp (e : EngineId) (f : Fields) (s : State) : Host.Outcome State Fault Refusal := .next (s.issue 0x40 e f (wordCmp f))

/-- CLASS: K[VD] bits where the class of VA lies in IMM, 0 where VA is invalid (R136, R157). -/
def wordClassF (f : Fields) (e : Engine) : Engine :=
  forTypes .flt f e fun t => e.writeMask f t.size fun i =>
    match t.kind, e.src t.size f.va.val i with
    | .flt fm, some a => bitOf f.imm.val (laneClass fm a)
    | _, _ => false

/-- CLASS: K[VD] bits where the class of VA lies in IMM, 0 where VA is invalid (R136, R157). -/
def execClassF (e : EngineId) (f : Fields) (s : State) : Host.Outcome State Fault Refusal := .next (s.issue 0x41 e f (wordClassF f))

/-- SEL: VA or VB under K[VC], with the chosen validity (R157). -/
def wordSel (f : Fields) (e : Engine) : Engine :=
  forTypes .fixed f e fun t => e.writeLanes f t.size fun i =>
    (if bitOf (e.kreg (f.vc.val % 8)).toNat i then e.src t.size f.va.val i else e.src t.size f.vb.val i, 0)

/-- SEL: VA or VB under K[VC], with the chosen validity (R157). -/
def execSel (e : EngineId) (f : Fields) (s : State) : Host.Outcome State Fault Refusal := .next (s.issue 0x42 e f (wordSel f))

/-- ISVAL: K[VD] from the validity of VA (R157). -/
def wordIsval (f : Fields) (e : Engine) : Engine :=
  forTypes .fixed f e fun t => e.writeMask f t.size fun i => e.isValid f.va.val i

/-- ISVAL: K[VD] from the validity of VA (R157). -/
def execIsval (e : EngineId) (f : Fields) (s : State) : Host.Outcome State Fault Refusal := .next (s.issue 0x43 e f (wordIsval f))

/-- COAL: VA where valid, else VB (R157). -/
def wordCoal (f : Fields) (e : Engine) : Engine :=
  forTypes .fixed f e fun t => e.writeLanes f t.size fun i =>
    (if e.isValid f.va.val i then e.src t.size f.va.val i else e.src t.size f.vb.val i, 0)

/-- COAL: VA where valid, else VB (R157). -/
def execCoal (e : EngineId) (f : Fields) (s : State) : Host.Outcome State Fault Refusal := .next (s.issue 0x44 e f (wordCoal f))

/-- KOP: K[VD] from K[VA] and K[VB] (R157). -/
def wordKop (f : Fields) (e : Engine) : Engine :=
  let a := e.kreg (f.va.val % 8)
  let b := e.kreg (f.vb.val % 8)
  let r := match f.sub.val with
    | 0 => a &&& b
    | 1 => a ||| b
    | 2 => a ^^^ b
    | 3 => a &&& ~~~b
    | _ => ~~~a
  e.setK (f.vd.val % 8) r.toNat

/-- KOP: K[VD] from K[VA] and K[VB] (R157). -/
def execKop (e : EngineId) (f : Fields) (s : State) : Host.Outcome State Fault Refusal := .next (s.issue 0x45 e f (wordKop f))

/-- SETV: validity of VD ANDed with K[VA]; lanes made invalid become zero (R157). -/
def wordSetv (f : Fields) (e : Engine) : Engine :=
  forTypes .fixed f e fun t => e.writeLanes f t.size fun i =>
    (if bitOf (e.kreg (f.va.val % 8)).toNat i then e.src t.size f.vd.val i else none, 0)

/-- SETV: validity of VD ANDed with K[VA]; lanes made invalid become zero (R157). -/
def execSetv (e : EngineId) (f : Fields) (s : State) : Host.Outcome State Fault Refusal := .next (s.issue 0x46 e f (wordSetv f))

/-- VMRK: zero lanes of VD take IMM[7:0]; nonzero lanes keep (R117, R157). -/
def wordVmrk (f : Fields) (e : Engine) : Engine :=
  forTypes .u8 f e fun t => e.writeLanes f t.size fun i =>
    ((e.src t.size f.vd.val i).map fun v => if v == 0 then f.imm.val % 256 else v, 0)

/-- VMRK: zero lanes of VD take IMM[7:0]; nonzero lanes keep (R117, R157). -/
def execVmrk (e : EngineId) (f : Fields) (s : State) : Host.Outcome State Fault Refusal := .next (s.issue 0x47 e f (wordVmrk f))

/-- KFIRST: the first IMM lanes of K[VD] (R157). -/
def wordKfirst (f : Fields) (e : Engine) : Engine :=
  e.setK (f.vd.val % 8) (2 ^ min 32 f.imm.val - 1)

/-- KFIRST: the first IMM lanes of K[VD] (R157). -/
def execKfirst (e : EngineId) (f : Fields) (s : State) : Host.Outcome State Fault Refusal := .next (s.issue 0x48 e f (wordKfirst f))

/-- AND, bitwise (R105, R147, R157). -/
def wordAnd (f : Fields) (e : Engine) : Engine :=
  forTypes .intBool f e fun t => e.map2 f t.size fun a b => (some (Nat.land (bitOperand t a) (bitOperand t b)), 0)

/-- AND, bitwise (R105, R147, R157). -/
def execAnd (e : EngineId) (f : Fields) (s : State) : Host.Outcome State Fault Refusal := .next (s.issue 0x50 e f (wordAnd f))

/-- OR, bitwise (R105, R147, R157). -/
def wordOr (f : Fields) (e : Engine) : Engine :=
  forTypes .intBool f e fun t => e.map2 f t.size fun a b => (some (Nat.lor (bitOperand t a) (bitOperand t b)), 0)

/-- OR, bitwise (R105, R147, R157). -/
def execOr (e : EngineId) (f : Fields) (s : State) : Host.Outcome State Fault Refusal := .next (s.issue 0x51 e f (wordOr f))

/-- XOR, bitwise (R105, R147, R157). -/
def wordXor (f : Fields) (e : Engine) : Engine :=
  forTypes .intBool f e fun t => e.map2 f t.size fun a b => (some (Nat.xor (bitOperand t a) (bitOperand t b)), 0)

/-- XOR, bitwise (R105, R147, R157). -/
def execXor (e : EngineId) (f : Fields) (s : State) : Host.Outcome State Fault Refusal := .next (s.issue 0x52 e f (wordXor f))

/-- ANDN, bitwise (R105, R147, R157). -/
def wordAndn (f : Fields) (e : Engine) : Engine :=
  forTypes .intBool f e fun t => e.map2 f t.size fun a b => (some (Nat.land (bitOperand t a) (laneNot t b)), 0)

/-- ANDN, bitwise (R105, R147, R157). -/
def execAndn (e : EngineId) (f : Fields) (s : State) : Host.Outcome State Fault Refusal := .next (s.issue 0x53 e f (wordAndn f))

/-- NOT, bitwise (R105, R147, R157). -/
def wordNot (f : Fields) (e : Engine) : Engine :=
  forTypes .intBool f e fun t => e.map1 f t.size fun a => (some (laneNot t a), 0)

/-- NOT, bitwise (R105, R147, R157). -/
def execNot (e : EngineId) (f : Fields) (s : State) : Host.Outcome State Fault Refusal := .next (s.issue 0x54 e f (wordNot f))

/-- SHL (R147). -/
def wordShl (f : Fields) (e : Engine) : Engine :=
  forTypes .int f e fun _ => e.shiftWord f 0

/-- SHL (R147). -/
def execShl (e : EngineId) (f : Fields) (s : State) : Host.Outcome State Fault Refusal := .next (s.issue 0x55 e f (wordShl f))

/-- SHR (R147). -/
def wordShr (f : Fields) (e : Engine) : Engine :=
  forTypes .int f e fun _ => e.shiftWord f 1

/-- SHR (R147). -/
def execShr (e : EngineId) (f : Fields) (s : State) : Host.Outcome State Fault Refusal := .next (s.issue 0x56 e f (wordShr f))

/-- SAR (R147). -/
def wordSar (f : Fields) (e : Engine) : Engine :=
  forTypes .int f e fun _ => e.shiftWord f 2

/-- SAR (R147). -/
def execSar (e : EngineId) (f : Fields) (s : State) : Host.Outcome State Fault Refusal := .next (s.issue 0x57 e f (wordSar f))

/-- ROTL (R147). -/
def wordRotl (f : Fields) (e : Engine) : Engine :=
  forTypes .int f e fun _ => e.shiftWord f 3

/-- ROTL (R147). -/
def execRotl (e : EngineId) (f : Fields) (s : State) : Host.Outcome State Fault Refusal := .next (s.issue 0x58 e f (wordRotl f))

/-- POPC: set bits of VA (R157). -/
def wordPopc (f : Fields) (e : Engine) : Engine :=
  forTypes .int f e fun t => e.map1 f t.size fun a => (some (popCount (8 * t.size) a), 0)

/-- POPC: set bits of VA (R157). -/
def execPopc (e : EngineId) (f : Fields) (s : State) : Host.Outcome State Fault Refusal := .next (s.issue 0x59 e f (wordPopc f))

/-- CLZ: leading zeros; 8s for 0 (R147). -/
def wordClz (f : Fields) (e : Engine) : Engine :=
  forTypes .int f e fun t => e.map1 f t.size fun a => (some (leadZeros (8 * t.size) a), 0)

/-- CLZ: leading zeros; 8s for 0 (R147). -/
def execClz (e : EngineId) (f : Fields) (s : State) : Host.Outcome State Fault Refusal := .next (s.issue 0x5A e f (wordClz f))

/-- CTZ: trailing zeros; 8s for 0 (R147). -/
def wordCtz (f : Fields) (e : Engine) : Engine :=
  forTypes .int f e fun t => e.map1 f t.size fun a => (some (trailZeros (8 * t.size) a), 0)

/-- CTZ: trailing zeros; 8s for 0 (R147). -/
def execCtz (e : EngineId) (f : Fields) (s : State) : Host.Outcome State Fault Refusal := .next (s.issue 0x5B e f (wordCtz f))

/-- FOLD: the key fold of each lane, inverted when SUB bit 0 is set (R118, R119, R121). -/
def wordFold (f : Fields) (e : Engine) : Engine :=
  forTypes .intFlt f e fun t => e.map1 f t.size fun a =>
    ((foldKey t a).map fun k => if f.sub.val % 2 == 1 then 2 ^ (8 * t.size) - 1 - k else k, 0)

/-- FOLD: the key fold of each lane, inverted when SUB bit 0 is set (R118, R119, R121). -/
def execFold (e : EngineId) (f : Fields) (s : State) : Host.Outcome State Fault Refusal := .next (s.issue 0x63 e f (wordFold f))

/-- BFIND: lane 0 takes the lowest i with byte i of VA equal to IMM[7:0], or 32 (R157). -/
def wordBfind (f : Fields) (e : Engine) : Engine :=
  forTypes .u8 f e fun _ => 
    let idx := (List.range 32).filter fun i => e.on f.mask.val i
    let ok := idx.all fun i => e.isValid f.va.val i
    let r := (idx.find? fun i => laneOf 1 (e.reg f.va.val) i == f.imm.val % 256).getD 32
    e.writeLane0 f 1 (if ok then some r else none, 0)

/-- BFIND: lane 0 takes the lowest i with byte i of VA equal to IMM[7:0], or 32 (R157). -/
def execBfind (e : EngineId) (f : Fields) (s : State) : Host.Outcome State Fault Refusal := .next (s.issue 0x70 e f (wordBfind f))

/-- BDIFF: lane 0 takes the lowest i where bytes i of VA and VB differ, or 32 (R157). -/
def wordBdiff (f : Fields) (e : Engine) : Engine :=
  forTypes .u8 f e fun _ => 
    let idx := (List.range 32).filter fun i => e.on f.mask.val i
    let ok := idx.all fun i => e.isValid f.va.val i && e.isValid f.vb.val i
    let r := (idx.find? fun i => laneOf 1 (e.reg f.va.val) i != laneOf 1 (e.reg f.vb.val) i).getD 32
    e.writeLane0 f 1 (if ok then some r else none, 0)

/-- BDIFF: lane 0 takes the lowest i where bytes i of VA and VB differ, or 32 (R157). -/
def execBdiff (e : EngineId) (f : Fields) (s : State) : Host.Outcome State Fault Refusal := .next (s.issue 0x71 e f (wordBdiff f))

/-- UTF8V: lane 0 takes the continuation bytes still owed after VA, or 0xFF when VA breaks UTF-8 (R157); the answer to a
VB that owes more than 3 is unstated (log entry 117). -/
def wordUtf8v (f : Fields) (e : Engine) : Engine :=
  forTypes .u8 f e fun _ => 
    let idx := (List.range 32).filter fun i => e.on f.mask.val i
    let ok := (idx.all fun i => e.isValid f.va.val i) && e.isValid f.vb.val 0
    let owed := laneOf 1 (e.reg f.vb.val) 0
    let st := (idx.map fun i => laneOf 1 (e.reg f.va.val) i).foldl utf8Step (if owed ≤ 3 then some (owed, 0x80, 0xBF) else none)
    let r := match st with
      | some (n, _, _) => n
      | none => if owed ≤ 3 then 0xFF else Config.unstated 13 owed (e.reg f.va.val).toNat % 256
    e.writeLane0 f 1 (if ok then some r else none, 0)

/-- UTF8V: lane 0 takes the continuation bytes still owed after VA, or 0xFF when VA breaks UTF-8 (R157). -/
def execUtf8v (e : EngineId) (f : Fields) (s : State) : Host.Outcome State Fault Refusal := .next (s.issue 0x72 e f (wordUtf8v f))

/-- BLOWR: upper-case ASCII letters to lower case (R157). -/
def wordBlowr (f : Fields) (e : Engine) : Engine :=
  forTypes .u8 f e fun _ => e.map1 f 1 fun a => (some (if 0x41 ≤ a ∧ a ≤ 0x5A then a + 0x20 else a), 0)

/-- BLOWR: upper-case ASCII letters to lower case (R157). -/
def execBlowr (e : EngineId) (f : Fields) (s : State) : Host.Outcome State Fault Refusal := .next (s.issue 0x73 e f (wordBlowr f))

/-- BCLS: K[VD] bits where the byte lies in a class of IMM (R157). -/
def wordBcls (f : Fields) (e : Engine) : Engine :=
  forTypes .u8 f e fun _ => e.writeMask f 1 fun i =>
    match e.src 1 f.va.val i with
    | some a => Nat.land (byteClass a) f.imm.val % 64 != 0
    | none => false

/-- BCLS: K[VD] bits where the byte lies in a class of IMM (R157). -/
def execBcls (e : EngineId) (f : Fields) (s : State) : Host.Outcome State Fault Refusal := .next (s.issue 0x74 e f (wordBcls f))

/-- XSR: VA XOR (VA >> IMM[5:0]) (R157). -/
def wordXsr (f : Fields) (e : Engine) : Engine :=
  forTypes .u32u64 f e fun t => e.map1 f t.size fun a => (some (Nat.xor a (a / 2 ^ (f.imm.val % 64))), 0)

/-- XSR: VA XOR (VA >> IMM[5:0]) (R157). -/
def execXsr (e : EngineId) (f : Fields) (s : State) : Host.Outcome State Fault Refusal := .next (s.issue 0x80 e f (wordXsr f))

/-- CRC: the state in VB lane 0 updated with the first IMM[5:0] bytes of VA (R157). -/
def wordCrc (f : Fields) (e : Engine) : Engine :=
  forTypes .u32u64 f e fun t => 
    let n := min 32 (f.imm.val % 64)
    let ok := ((List.range n).all fun i => e.isValid f.va.val (i / t.size)) && e.isValid f.vb.val 0
    let bs : Bytes := (List.range n).map fun i => BitVec.ofNat 8 (laneOf 1 (e.reg f.va.val) i)
    let st := laneOf t.size (e.reg f.vb.val) 0
    e.writeLane0 f t.size (if ok then some (if f.sub.val == 0 then crc32cRun st bs else crc64Run st bs) else none, 0)

/-- CRC: the state in VB lane 0 updated with the first IMM[5:0] bytes of VA (R157). -/
def execCrc (e : EngineId) (f : Fields) (s : State) : Host.Outcome State Fault Refusal := .next (s.issue 0x81 e f (wordCrc f))

/-- XXR: the xxHash64 round on VB and VA (R157). -/
def wordXxr (f : Fields) (e : Engine) : Engine :=
  forTypes .u64 f e fun _ => e.map2 f 8 fun a b => (some (xxRound b a), 0)

/-- XXR: the xxHash64 round on VB and VA (R157). -/
def execXxr (e : EngineId) (f : Fields) (s : State) : Host.Outcome State Fault Refusal := .next (s.issue 0x82 e f (wordXxr f))

/-- SIPR: one SipRound on lanes 0 to 3 of VA (R157). -/
def wordSipr (f : Fields) (e : Engine) : Engine :=
  forTypes .u64 f e fun _ => 
    let ok := (List.range 4).all fun i => e.isValid f.va.val i
    let r := sipRound ((List.range 4).map fun i => laneOf 8 (e.reg f.va.val) i)
    e.writeLanes f 8 fun i => (if ok then some (r.getD i 0) else none, 0)

/-- SIPR: one SipRound on lanes 0 to 3 of VA (R157). -/
def execSipr (e : EngineId) (f : Fields) (s : State) : Host.Outcome State Fault Refusal := .next (s.issue 0x83 e f (wordSipr f))

/-- RSUM: sum of the contributing lanes (R158). -/
def wordRsum (f : Fields) (e : Engine) : Engine :=
  forTypes .arith f e fun t => e.reduceTo f t.size (sumLanes t t f (e.contrib f t.size))

/-- RSUM: sum of the contributing lanes (R158). -/
def execRsum (e : EngineId) (f : Fields) (s : State) : Host.Outcome State Fault Refusal := .next (s.issue 0x90 e f (wordRsum f))

/-- RSUMW: sum into the wider type (R157, R158). -/
def wordRsumw (f : Fields) (e : Engine) : Engine :=
  forTypes .widen f e fun t => match widerTy t with
    | some r => e.reduceTo f r.size (sumLanes t r f (e.contrib f t.size))
    | none => e

/-- RSUMW: sum into the wider type (R157, R158). -/
def execRsumw (e : EngineId) (f : Fields) (s : State) : Host.Outcome State Fault Refusal := .next (s.issue 0x91 e f (wordRsumw f))

/-- A reduction's pick under the range rule of MIN and MAX (R148). -/
def pickRes (t : LTy) (f : Fields) (r : LaneRes) : LaneRes :=
  match r.1 with
  | some a => okPick t f a
  | none => r

/-- RMIN: by the MIN and MAX rules over the contributing lanes (R158). -/
def wordRmin (f : Fields) (e : Engine) : Engine :=
  forTypes .arith f e fun t => e.reduceTo f t.size
    (pickRes t f (treeReduce (fun a b => (laneMinMax t false a b, 0)) 5 (e.contrib f t.size) 0))

/-- RMIN: by the MIN and MAX rules over the contributing lanes (R158). -/
def execRmin (e : EngineId) (f : Fields) (s : State) : Host.Outcome State Fault Refusal := .next (s.issue 0x92 e f (wordRmin f))

/-- RMAX: by the MIN and MAX rules over the contributing lanes (R158). -/
def wordRmax (f : Fields) (e : Engine) : Engine :=
  forTypes .arith f e fun t => e.reduceTo f t.size
    (pickRes t f (treeReduce (fun a b => (laneMinMax t true a b, 0)) 5 (e.contrib f t.size) 0))

/-- RMAX: by the MIN and MAX rules over the contributing lanes (R158). -/
def execRmax (e : EngineId) (f : Fields) (s : State) : Host.Outcome State Fault Refusal := .next (s.issue 0x93 e f (wordRmax f))

/-- RCNT: count of the contributing lanes, as UINT32, always valid (R158). -/
def wordRcnt (f : Fields) (e : Engine) : Engine :=
  forTypes .fixed f e fun t => e.reduceTo f 4 (some ((e.contrib f t.size).filterMap id).length, 0)

/-- RCNT: count of the contributing lanes, as UINT32, always valid (R158). -/
def execRcnt (e : EngineId) (f : Fields) (s : State) : Host.Outcome State Fault Refusal := .next (s.issue 0x94 e f (wordRcnt f))

/-- RAND: bitwise over the contributing lanes (R158). -/
def wordRand (f : Fields) (e : Engine) : Engine :=
  forTypes .intBool f e fun t => e.reduceTo f t.size
    (treeReduce (fun a b => (Nat.land a b, 0)) 5 ((e.contrib f t.size).map fun o => o.map (bitOperand t)) 0)

/-- RAND: bitwise over the contributing lanes (R158). -/
def execRand (e : EngineId) (f : Fields) (s : State) : Host.Outcome State Fault Refusal := .next (s.issue 0x95 e f (wordRand f))

/-- ROR: bitwise over the contributing lanes (R158). -/
def wordRor (f : Fields) (e : Engine) : Engine :=
  forTypes .intBool f e fun t => e.reduceTo f t.size
    (treeReduce (fun a b => (Nat.lor a b, 0)) 5 ((e.contrib f t.size).map fun o => o.map (bitOperand t)) 0)

/-- ROR: bitwise over the contributing lanes (R158). -/
def execRor (e : EngineId) (f : Fields) (s : State) : Host.Outcome State Fault Refusal := .next (s.issue 0x96 e f (wordRor f))

/-- PERM: lane i takes VA lane (VB lane i mod L) (R157). -/
def wordPerm (f : Fields) (e : Engine) : Engine :=
  forTypes .fixed f e fun t => e.writeLanes f t.size fun i =>
    match e.src t.size f.vb.val i with
    | some j => (e.src t.size f.va.val (j % (32 / t.size)), 0)
    | none => (none, 0)

/-- PERM: lane i takes VA lane (VB lane i mod L) (R157). -/
def execPerm (e : EngineId) (f : Fields) (s : State) : Host.Outcome State Fault Refusal := .next (s.issue 0xA0 e f (wordPerm f))

/-- CPRS: the lanes of VA with K[VC] set, packed from lane 0; the rest zero and invalid (R157). -/
def wordCprs (f : Fields) (e : Engine) : Engine :=
  forTypes .fixed f e fun t => 
    let idx := (List.range (32 / t.size)).filter fun i => bitOf (e.kreg (f.vc.val % 8)).toNat i
    e.writeLanes f t.size fun i => match idx[i]? with
      | some j => (e.src t.size f.va.val j, 0)
      | none => (none, 0)

/-- CPRS: the lanes of VA with K[VC] set, packed from lane 0; the rest zero and invalid (R157). -/
def execCprs (e : EngineId) (f : Fields) (s : State) : Host.Outcome State Fault Refusal := .next (s.issue 0xA1 e f (wordCprs f))

/-- ALGN: lanes IMM to IMM + L - 1 of VA followed by VB (R157). -/
def wordAlgn (f : Fields) (e : Engine) : Engine :=
  forTypes .fixed f e fun t => 
    let l := 32 / t.size
    e.writeLanes f t.size fun i =>
      let j := f.imm.val + i
      (if j < l then e.src t.size f.va.val j else if j < 2 * l then e.src t.size f.vb.val (j - l) else none, 0)

/-- ALGN: lanes IMM to IMM + L - 1 of VA followed by VB (R157). -/
def execAlgn (e : EngineId) (f : Fields) (s : State) : Host.Outcome State Fault Refusal := .next (s.issue 0xA2 e f (wordAlgn f))

end Sys2Proof.Machine
end

