-- ==== Sys2Proof/Machine/Dispatch.lean ====
section
/-! DEFINITION. One arm per command. -/

namespace Sys2Proof.Machine

def exec (i : Instr) (s : State) : Host.Outcome State Fault Refusal :=
  match i with
  | .registerWrite m off data len => Sys2Proof.Machine.execRegisterWrite m off data len s
  | .rcRead off len inc => Sys2Proof.Machine.execRcRead off len inc s
  | .loReadCapture off => Sys2Proof.Machine.execLoReadCapture off s
  | .commitWrite m off data => Sys2Proof.Machine.execCommitWrite m off data s
  | .pendingCopyAdopt chan n => Sys2Proof.Machine.execPendingCopyAdopt chan n s
  | .netShareApply k => Sys2Proof.Machine.execNetShareApply k s
  | .beatInFrame bits t => Sys2Proof.Machine.execBeatInFrame bits t s
  | .beatPagePoll t => Sys2Proof.Machine.execBeatPagePoll t s
  | .beatPageReadComplete line issued t => Sys2Proof.Machine.execBeatPageReadComplete line issued t s
  | .beatPhaseEndHold t => Sys2Proof.Machine.execBeatPhaseEndHold t s
  | .beatHoldTimeoutLost t => Sys2Proof.Machine.execBeatHoldTimeoutLost t s
  | .rebase m => Sys2Proof.Machine.execRebase m s
  | .beatSrcSelect src => Sys2Proof.Machine.execBeatSrcSelect src s
  | .dispatcherTick t => Sys2Proof.Machine.execDispatcherTick t s
  | .strmArm st m => Sys2Proof.Machine.execStrmArm st m s
  | .glbAttachGo m => Sys2Proof.Machine.execGlbAttachGo m s
  | .attachAgreementComplete t => Sys2Proof.Machine.execAttachAgreementComplete t s
  | .doorbellPoll g t => Sys2Proof.Machine.execDoorbellPoll g t s
  | .doorbellReadComplete g line t => Sys2Proof.Machine.execDoorbellReadComplete g line t s
  | .submissionEntryArrive q e t => Sys2Proof.Machine.execSubmissionEntryArrive q e t s
  | .acceptanceRecordComplete seq ok t => Sys2Proof.Machine.execAcceptanceRecordComplete seq ok t s
  | .journalWriteRetry t => Sys2Proof.Machine.execJournalWriteRetry t s
  | .attachTable seq e x => Sys2Proof.Machine.execAttachTable seq e x s
  | .detachTable seq => Sys2Proof.Machine.execDetachTable seq s
  | .loadGraph seq e verified sage toks decls => Sys2Proof.Machine.execLoadGraph seq e verified sage toks decls s
  | .unloadGraph seq => Sys2Proof.Machine.execUnloadGraph seq s
  | .openStream seq e src => Sys2Proof.Machine.execOpenStream seq e src s
  | .closeStream seq => Sys2Proof.Machine.execCloseStream seq s
  | .setEpoch seq => Sys2Proof.Machine.execSetEpoch seq s
  | .run seq => Sys2Proof.Machine.execRun seq s
  | .cancel seq => Sys2Proof.Machine.execCancel seq s
  | .fence seq => Sys2Proof.Machine.execFence seq s
  | .query seq e => Sys2Proof.Machine.execQuery seq e s
  | .warmRestart seq t => Sys2Proof.Machine.execWarmRestart seq t s
  | .commandComplete seq t => Sys2Proof.Machine.execCommandComplete seq t s
  | .completionEntryWrite q t => Sys2Proof.Machine.execCompletionEntryWrite q t s
  | .moderationTimerExpire q t => Sys2Proof.Machine.execModerationTimerExpire q t s
  | .journalGo m t => Sys2Proof.Machine.execJournalGo m t s
  | .journalWalkComplete e t => Sys2Proof.Machine.execJournalWalkComplete e t s
  | .journalControlLineTimer t => Sys2Proof.Machine.execJournalControlLineTimer t s
  | .qpEnable q m => Sys2Proof.Machine.execQpEnable q m s
  | .qpDisable q m => Sys2Proof.Machine.execQpDisable q m s
  | .batchRecordWrite st t => Sys2Proof.Machine.execBatchRecordWrite st t s
  | .nop e f => Sys2Proof.Machine.execNop e f s
  | .loop e f => Sys2Proof.Machine.execLoop e f s
  | .lend e f => Sys2Proof.Machine.execLend e f s
  | .ld e f => Sys2Proof.Machine.execLd e f s
  | .st e f => Sys2Proof.Machine.execSt e f s
  | .ldv e f => Sys2Proof.Machine.execLdv e f s
  | .stv e f => Sys2Proof.Machine.execStv e f s
  | .add e f => Sys2Proof.Machine.execAdd e f s
  | .sub e f => Sys2Proof.Machine.execSub e f s
  | .mul e f => Sys2Proof.Machine.execMul e f s
  | .mulh e f => Sys2Proof.Machine.execMulh e f s
  | .fma e f => Sys2Proof.Machine.execFma e f s
  | .div e f => Sys2Proof.Machine.execDiv e f s
  | .divf e f => Sys2Proof.Machine.execDivf e f s
  | .rem e f => Sys2Proof.Machine.execRem e f s
  | .modf e f => Sys2Proof.Machine.execModf e f s
  | .min e f => Sys2Proof.Machine.execMin e f s
  | .max e f => Sys2Proof.Machine.execMax e f s
  | .abs e f => Sys2Proof.Machine.execAbs e f s
  | .neg e f => Sys2Proof.Machine.execNeg e f s
  | .clamp e f => Sys2Proof.Machine.execClamp e f s
  | .sqrt e f => Sys2Proof.Machine.execSqrt e f s
  | .mov e f => Sys2Proof.Machine.execMov e f s
  | .movi e f => Sys2Proof.Machine.execMovi e f s
  | .exp e f => Sys2Proof.Machine.execExp e f s
  | .log e f => Sys2Proof.Machine.execLog e f s
  | .log1p e f => Sys2Proof.Machine.execLog1p e f s
  | .tanh e f => Sys2Proof.Machine.execTanh e f s
  | .sigm e f => Sys2Proof.Machine.execSigm e f s
  | .erf e f => Sys2Proof.Machine.execErf e f s
  | .rsqrt e f => Sys2Proof.Machine.execRsqrt e f s
  | .rcp e f => Sys2Proof.Machine.execRcp e f s
  | .cmp e f => Sys2Proof.Machine.execCmp e f s
  | .classF e f => Sys2Proof.Machine.execClassF e f s
  | .sel e f => Sys2Proof.Machine.execSel e f s
  | .isval e f => Sys2Proof.Machine.execIsval e f s
  | .coal e f => Sys2Proof.Machine.execCoal e f s
  | .kop e f => Sys2Proof.Machine.execKop e f s
  | .setv e f => Sys2Proof.Machine.execSetv e f s
  | .vmrk e f => Sys2Proof.Machine.execVmrk e f s
  | .kfirst e f => Sys2Proof.Machine.execKfirst e f s
  | .and e f => Sys2Proof.Machine.execAnd e f s
  | .or e f => Sys2Proof.Machine.execOr e f s
  | .xor e f => Sys2Proof.Machine.execXor e f s
  | .andn e f => Sys2Proof.Machine.execAndn e f s
  | .not e f => Sys2Proof.Machine.execNot e f s
  | .shl e f => Sys2Proof.Machine.execShl e f s
  | .shr e f => Sys2Proof.Machine.execShr e f s
  | .sar e f => Sys2Proof.Machine.execSar e f s
  | .rotl e f => Sys2Proof.Machine.execRotl e f s
  | .popc e f => Sys2Proof.Machine.execPopc e f s
  | .clz e f => Sys2Proof.Machine.execClz e f s
  | .ctz e f => Sys2Proof.Machine.execCtz e f s
  | .cvt e f => Sys2Proof.Machine.execCvt e f s
  | .qmx e f => Sys2Proof.Machine.execQmx e f s
  | .dqmx e f => Sys2Proof.Machine.execDqmx e f s
  | .fold e f => Sys2Proof.Machine.execFold e f s
  | .bfind e f => Sys2Proof.Machine.execBfind e f s
  | .bdiff e f => Sys2Proof.Machine.execBdiff e f s
  | .utf8v e f => Sys2Proof.Machine.execUtf8v e f s
  | .blowr e f => Sys2Proof.Machine.execBlowr e f s
  | .bcls e f => Sys2Proof.Machine.execBcls e f s
  | .xsr e f => Sys2Proof.Machine.execXsr e f s
  | .crc e f => Sys2Proof.Machine.execCrc e f s
  | .xxr e f => Sys2Proof.Machine.execXxr e f s
  | .sipr e f => Sys2Proof.Machine.execSipr e f s
  | .rsum e f => Sys2Proof.Machine.execRsum e f s
  | .rsumw e f => Sys2Proof.Machine.execRsumw e f s
  | .rmin e f => Sys2Proof.Machine.execRmin e f s
  | .rmax e f => Sys2Proof.Machine.execRmax e f s
  | .rcnt e f => Sys2Proof.Machine.execRcnt e f s
  | .rand e f => Sys2Proof.Machine.execRand e f s
  | .ror e f => Sys2Proof.Machine.execRor e f s
  | .perm e f => Sys2Proof.Machine.execPerm e f s
  | .cprs e f => Sys2Proof.Machine.execCprs e f s
  | .algn e f => Sys2Proof.Machine.execAlgn e f s
  | .partition k slot rs => Sys2Proof.Machine.execPartition k slot rs s
  | .hashBucket k slot rs => Sys2Proof.Machine.execHashBucket k slot rs s
  | .joinBuild k slot e => Sys2Proof.Machine.execJoinBuild k slot e s
  | .joinProbe k slot rs => Sys2Proof.Machine.execJoinProbe k slot rs s
  | .asofIndex k slot e => Sys2Proof.Machine.execAsofIndex k slot e s
  | .asofProbe k slot rs => Sys2Proof.Machine.execAsofProbe k slot rs s
  | .windowIndex k slot e => Sys2Proof.Machine.execWindowIndex k slot e s
  | .windowProbe k slot rs => Sys2Proof.Machine.execWindowProbe k slot rs s
  | .groupBy k slot rs => Sys2Proof.Machine.execGroupBy k slot rs s
  | .rankSketch k slot rs parts => Sys2Proof.Machine.execRankSketch k slot rs parts s
  | .approxDistinct k slot rs => Sys2Proof.Machine.execApproxDistinct k slot rs s
  | .featureCross k slot rs => Sys2Proof.Machine.execFeatureCross k slot rs s
  | .compact k slot rs => Sys2Proof.Machine.execCompact k slot rs s
  | .topk k slot rs parts e => Sys2Proof.Machine.execTopk k slot rs parts e s
  | .lookup k slot rs ups => Sys2Proof.Machine.execLookup k slot rs ups s
  | .scan k slot rs => Sys2Proof.Machine.execScan k slot rs s
  | .sageBuild k slot e => Sys2Proof.Machine.execSageBuild k slot e s
  | .gather k slot rs e => Sys2Proof.Machine.execGather k slot rs e s
  | .scatter k slot rs e => Sys2Proof.Machine.execScatter k slot rs e s
  | .scatterAdd k slot rs e => Sys2Proof.Machine.execScatterAdd k slot rs e s
  | .gemm k slot rs => Sys2Proof.Machine.execGemm k slot rs s
  | .embedBag k slot rs e => Sys2Proof.Machine.execEmbedBag k slot rs e s
  | .interact k slot rs => Sys2Proof.Machine.execInteract k slot rs s
  | .attnScore k slot rs => Sys2Proof.Machine.execAttnScore k slot rs s
  | .attnValue k slot rs => Sys2Proof.Machine.execAttnValue k slot rs s
  | .sageEntryWriteApply k => Sys2Proof.Machine.execSageEntryWriteApply k s
  | .sageBankReconfigApply k b => Sys2Proof.Machine.execSageBankReconfigApply k b s
  | .sageEntryReloadComplete k b => Sys2Proof.Machine.execSageEntryReloadComplete k b s
  | .sageMatchRowScrub k b ups => Sys2Proof.Machine.execSageMatchRowScrub k b ups s
  | .intakeBatchBegin lane n b nImage nText => Sys2Proof.Machine.execIntakeBatchBegin lane n b nImage nText s
  | .intakeFetchComplete lane n into off len u e => Sys2Proof.Machine.execIntakeFetchComplete lane n into off len u e s
  | .intakeHeaderCheck lane n into h u => Sys2Proof.Machine.execIntakeHeaderCheck lane n into h u s
  | .intakePageDecode lane n into ds pg e => Sys2Proof.Machine.execIntakePageDecode lane n into ds pg e s
  | .tokenise lane n b p d v dst => Sys2Proof.Machine.execTokenise lane n b p d v dst s
  | .jpegDecode lane n b p v => Sys2Proof.Machine.execJpegDecode lane n b p v s
  | .sampleAbandon lane n b p x => Sys2Proof.Machine.execSampleAbandon lane n b p x s
  | .lovageImage lane n b slot d present mesh lens dst => Sys2Proof.Machine.execLovageImage lane n b slot d present mesh lens dst s
  | .shuffleSlotsComputed lane n b => Sys2Proof.Machine.execShuffleSlotsComputed lane n b s
  | .batchInstantiate k => Sys2Proof.Machine.execBatchInstantiate k s
  | .taskReady k => Sys2Proof.Machine.execTaskReady k s
  | .taskPlace k => Sys2Proof.Machine.execTaskPlace k s
  | .hopperFillComplete c h => Sys2Proof.Machine.execHopperFillComplete c h s
  | .taskStart seat => Sys2Proof.Machine.execTaskStart seat s
  | .taskComplete k slot => Sys2Proof.Machine.execTaskComplete k slot s
  | .flagPulse mask st batch flag => Sys2Proof.Machine.execFlagPulse mask st batch flag s
  | .weirArrival w k gen => Sys2Proof.Machine.execWeirArrival w k gen s
  | .segmentHandoff k slot => Sys2Proof.Machine.execSegmentHandoff k slot s
  | .segmentRelease f e vote => Sys2Proof.Machine.execSegmentRelease f e vote s
  | .chArm c m => Sys2Proof.Machine.execChArm c m s
  | .chRepoke c m => Sys2Proof.Machine.execChRepoke c m s
  | .chAbort c m => Sys2Proof.Machine.execChAbort c m s
  | .chResume c m => Sys2Proof.Machine.execChResume c m s
  | .chResumeSkip c m => Sys2Proof.Machine.execChResumeSkip c m s
  | .descriptorFetchComplete c e => Sys2Proof.Machine.execDescriptorFetchComplete c e s
  | .linkRereadComplete c e => Sys2Proof.Machine.execLinkRereadComplete c e s
  | .dmaCopy c => Sys2Proof.Machine.execDmaCopy c s
  | .dmaFill c => Sys2Proof.Machine.execDmaFill c s
  | .dmaCrc c => Sys2Proof.Machine.execDmaCrc c s
  | .dmaTriggerFire c t => Sys2Proof.Machine.execDmaTriggerFire c t s
  | .burstIssue e => Sys2Proof.Machine.execBurstIssue e s
  | .burstRetry c e t => Sys2Proof.Machine.execBurstRetry c e t s
  | .completionReadReturn c ok t => Sys2Proof.Machine.execCompletionReadReturn c ok t s
  | .descriptorComplete c e t => Sys2Proof.Machine.execDescriptorComplete c e t s
  | .hbmPatrolScrub c e => Sys2Proof.Machine.execHbmPatrolScrub c e s
  | .netenFlitReceive k port cls tq f crcOk cyc => Sys2Proof.Machine.execNetenFlitReceive k port cls tq f crcOk cyc s
  | .bar2Read off len e => Sys2Proof.Machine.execBar2Read off len e s
  | .bar2Write off data => Sys2Proof.Machine.execBar2Write off data s
  | .domainPowerDown d force m t => Sys2Proof.Machine.execDomainPowerDown d force m t s
  | .domainPowerUp d m t => Sys2Proof.Machine.execDomainPowerUp d m t s
  | .domainPowerUpComplete bad t => Sys2Proof.Machine.execDomainPowerUpComplete bad t s
  | .domainDrainComplete t => Sys2Proof.Machine.execDomainDrainComplete t s
  | .domainForceTimeout t => Sys2Proof.Machine.execDomainForceTimeout t s
  | .eventPost src vote => Sys2Proof.Machine.execEventPost src vote s
  | .eventClaim t vote => Sys2Proof.Machine.execEventClaim t vote s
  | .handlerEntry t => Sys2Proof.Machine.execHandlerEntry t s
  | .evcTgtComplete t m src => Sys2Proof.Machine.execEvcTgtComplete t m src s
  | .exitEnd t => Sys2Proof.Machine.execExitEnd t s
  | .evcTgtFlush t m => Sys2Proof.Machine.execEvcTgtFlush t m s
  | .evcSwPost p => Sys2Proof.Machine.execEvcSwPost p s
  | .hostPendAck src => Sys2Proof.Machine.execHostPendAck src s
  | .thresholdWrite t v => Sys2Proof.Machine.execThresholdWrite t v s
  | .perstAssert t => Sys2Proof.Machine.execPerstAssert t s
  | .perstDeassert t => Sys2Proof.Machine.execPerstDeassert t s
  | .pcieLinkTrained rate width => Sys2Proof.Machine.execPcieLinkTrained rate width s
  | .pcieLinkDown t => Sys2Proof.Machine.execPcieLinkDown t s
  | .flr t => Sys2Proof.Machine.execFlr t s
  | .dstateChange d0 t => Sys2Proof.Machine.execDstateChange d0 t s
  | .d3coldEntry t => Sys2Proof.Machine.execD3coldEntry t s
  | .pcieCompletionTimeout => Sys2Proof.Machine.execPcieCompletionTimeout s
  | .chainBeatToken tok t => Sys2Proof.Machine.execChainBeatToken tok t s
  | .chainEnumToken tok => Sys2Proof.Machine.execChainEnumToken tok s
  | .chainMgmtToken tok => Sys2Proof.Machine.execChainMgmtToken tok s
  | .chainUnknownToken tok => Sys2Proof.Machine.execChainUnknownToken tok s
  | .spliceWindowEnd t => Sys2Proof.Machine.execSpliceWindowEnd t s
  | .chainSplice t => Sys2Proof.Machine.execChainSplice t s
  | .chainBeatAbsent t => Sys2Proof.Machine.execChainBeatAbsent t s
  | .pairHello msg t => Sys2Proof.Machine.execPairHello msg t s
  | .pairHeartbeat msg t => Sys2Proof.Machine.execPairHeartbeat msg t s
  | .pairAccept msg t => Sys2Proof.Machine.execPairAccept msg t s
  | .pairAnnounce msg t => Sys2Proof.Machine.execPairAnnounce msg t s
  | .pairDone msg t => Sys2Proof.Machine.execPairDone msg t s
  | .pairBeat msg t => Sys2Proof.Machine.execPairBeat msg t s
  | .pairFence msg t => Sys2Proof.Machine.execPairFence msg t s
  | .pairSyncData msg t => Sys2Proof.Machine.execPairSyncData msg t s
  | .pairSyncReady msg t => Sys2Proof.Machine.execPairSyncReady msg t s
  | .pairSyncJoin msg t => Sys2Proof.Machine.execPairSyncJoin msg t s
  | .heartbeatTimer t => Sys2Proof.Machine.execHeartbeatTimer t s
  | .peerLossTimeout t => Sys2Proof.Machine.execPeerLossTimeout t s
  | .pairPortStateChange p lanes latency => Sys2Proof.Machine.execPairPortStateChange p lanes latency s
  | .leaseCycle e t => Sys2Proof.Machine.execLeaseCycle e t s
  | .leaseCycleComplete ok t => Sys2Proof.Machine.execLeaseCycleComplete ok t s
  | .leaseBoundExpire t => Sys2Proof.Machine.execLeaseBoundExpire t s
  | .suspectLeaseRead e t => Sys2Proof.Machine.execSuspectLeaseRead e t s
  | .leaseClaimReread e t => Sys2Proof.Machine.execLeaseClaimReread e t s
  | .handover m => Sys2Proof.Machine.execHandover m s
  | .leave m => Sys2Proof.Machine.execLeave m s
  | .detectedError kind index cause detail t => Sys2Proof.Machine.execDetectedError kind index cause detail t s
  | .selfTestComplete pass spare testUs t => Sys2Proof.Machine.execSelfTestComplete pass spare testUs t s
  | .recoveryResume t => Sys2Proof.Machine.execRecoveryResume t s
  | .errInject m kind index t => Sys2Proof.Machine.execErrInject m kind index t s
  | .errMapoutClear m => Sys2Proof.Machine.execErrMapoutClear m s
  | .bootStageComplete good intact found t => Sys2Proof.Machine.execBootStageComplete good intact found t s
  | .getMeasurements x sig => Sys2Proof.Machine.execGetMeasurements x sig s
  | .debugChallenge level => Sys2Proof.Machine.execDebugChallenge level s
  | .debugUnlock nonce slot ownerSig rootSig => Sys2Proof.Machine.execDebugUnlock nonce slot ownerSig rootSig s
  | .ownerRecord slot keys signer rootSig => Sys2Proof.Machine.execOwnerRecord slot keys signer rootSig s
  | .policyRecord required enc signer sig => Sys2Proof.Machine.execPolicyRecord required enc signer sig s
  | .revocationRecord ml slot sig => Sys2Proof.Machine.execRevocationRecord ml slot sig s
  | .reprovisionRecord sig => Sys2Proof.Machine.execReprovisionRecord sig s
  | .ideKeyProgram secured => Sys2Proof.Machine.execIdeKeyProgram secured s
  | .powerInputStart low t => Sys2Proof.Machine.execPowerInputStart low t s
  | .inputVoltageFault mv held t => Sys2Proof.Machine.execInputVoltageFault mv held t s
  | .inputVoltageWarn mv => Sys2Proof.Machine.execInputVoltageWarn mv s
  | .powerSample mv mw die hbm proj t => Sys2Proof.Machine.execPowerSample mv mw die hbm proj t s
  | .clockStep t => Sys2Proof.Machine.execClockStep t s
  | .thermalStop cls temp t => Sys2Proof.Machine.execThermalStop cls temp t s
  | .pwrCapWrite w t => Sys2Proof.Machine.execPwrCapWrite w t s
  | .mctpSetEid eid => Sys2Proof.Machine.execMctpSetEid eid s
  | .pldmSensorRefresh vals => Sys2Proof.Machine.execPldmSensorRefresh vals s
  | .setEventReceiver eid => Sys2Proof.Machine.execSetEventReceiver eid s
  | .vendorRecordRead num => Sys2Proof.Machine.execVendorRecordRead num s
  | .mgiNegotiate range => Sys2Proof.Machine.execMgiNegotiate range s
  | .requestUpdate => Sys2Proof.Machine.execRequestUpdate s
  | .verifyComplete ty sigs => Sys2Proof.Machine.execVerifyComplete ty sigs s
  | .activateFirmware => Sys2Proof.Machine.execActivateFirmware s
  | .trialCommit t => Sys2Proof.Machine.execTrialCommit t s
  | .softReset m key t => Sys2Proof.Machine.execSoftReset m key t s
  | .coldReset m key t => Sys2Proof.Machine.execColdReset m key t s
  | .journalUpdateComplete seq ok t => Sys2Proof.Machine.execJournalUpdateComplete seq ok t s
  | .burstResponse c fail t => Sys2Proof.Machine.execBurstResponse c fail t s
  | .unmappedBar0Read off len => Sys2Proof.Machine.execUnmappedBar0Read off len s
  | .railsInTolerance t => Sys2Proof.Machine.execRailsInTolerance t s
  | .componentDataWrite ty off data => Sys2Proof.Machine.execComponentDataWrite ty off data s

end Sys2Proof.Machine
end

