-- ==== Sys2Proof/WellFormed.lean ====
section
/-! DEFINITION. Which commands are well formed: operands inside the widths and lengths that the spec gives them and that
their Lean types do not hold already. No meaning depends on it. -/

namespace Sys2Proof

/-- An offset of BAR0, 64 MiB (R426), or of the map behind it: BAR4, 64 KiB, and the configuration fields (log entry 133). -/
def offIn (o : Nat) : Bool :=
  decide (o < 2 ^ 26) || (decide (0x04000000 ≤ o) && decide (o < 0x04010000)) || (decide (0x05000000 ≤ o) && decide (o < 0x05000014))

/-- The data of a write of `len` bytes. -/
def valueFits (v len : Nat) : Bool := decide (v < 256 ^ len)

/-- A line read from the bus has 64 bytes (R66, R36). -/
def lineOk (l : Option Bytes) : Bool := l.all fun b => b.length == 64

/-- A chain token without its comma: TYPE, HOPS, LEN, LEN payload bytes of at most 72, CHECK (R435). -/
def tokenOk (b : Bytes) : Bool := decide (b.length ≤ 79) && b.length == 7 + ((b[2]?).getD 0).toNat

/-- A message of the pair link: a header of 16 bytes, a payload of a multiple of 8 bytes up to 4,096, CHECK and 4 zero bytes
(R445). -/
def messageOk (b : Bytes) : Bool := decide (24 ≤ b.length) && decide (b.length ≤ 4120) && b.length % 8 == 0

/-- Stores and failing ranges lie in the 64-bit bus space; HBM words of 8 bytes in the 288 GiB of device addresses (R362, R363). -/
def BusEnv.wf (e : BusEnv) : Bool :=
  e.stores.all (fun w => decide (w.1 + w.2.length ≤ 2 ^ 64)) && e.bad.all (fun r => decide (r.1 + r.2 ≤ 2 ^ 64)) &&
    e.flips.all (fun f => decide (f.1 < 36 * 2 ^ 30))

/-- Declared names and words lie within their widths: 4,096 programs and bodies of 1,024 words, words of 64 bits, 64 phases; LOAD_GRAPH checks the values
(R152, R181 to R183, R206). -/
def OpDecls.wf (d : OpDecls) : Bool :=
  d.norms.all (fun n => decide (n.1 < 4096) && decide (n.2.1 < 1024) && decide (n.2.2.fill < 2 ^ 64) && n.2.2.params.all fun p => decide (p < 2 ^ 64)) && d.masks.all (fun m => decide (m.2 < 2 ^ 64)) &&
    d.buckets.all (fun b => decide (b.2.nullBucket < 2 ^ 32) && b.2.consts.all fun p => decide (p < 2 ^ 64)) &&
    d.phases.all fun p => decide (p.1 < 2 ^ 16) && decide (p.2 < 64)

/-- A task covers batch rows of at least one layer row each. -/
def Rows.wf (r : Rows) : Bool := decide (0 < r.per)

/-- An upset of a Sage bank names one of 8 banks of 4,096 rows (R241). -/
def SageUpset.wf (u : SageUpset) : Bool :=
  decide (u.bank < 8) && decide (u.addr < 4096) && decide (u.row < 2 ^ 521) && decide (u.parity < 2 ^ 33) && u.words.all fun w => decide (w < 10)

/-- Where an image of the graph goes: variant, image, one of 16 clusters, one of 8 banks (R241, R252). -/
def placeOk (p : Nat × Nat × Nat × Nat) : Bool := decide (p.2.2.1 < 16) && decide (p.2.2.2 < 8)

/-- A TOKENISE declaration names a stream; LOAD_GRAPH checks the values (R288). -/
def TokDecl.wf (d : TokDecl) : Bool := decide (d.stream < 64)

/-- An IMAGE_PREP declaration names a stream and holds FP32 values; LOAD_GRAPH checks the values (R297). -/
def PrepDecl.wf (d : PrepDecl) : Bool :=
  decide (d.stream < 64) && (d.mean ++ d.std ++ d.pad ++ d.mesh.getD [] ++ d.lens.getD []).all fun x => decide (x < 2 ^ 32)

/-- A budgeted sample is what its declaration says. -/
def Sample.wf : Sample → Bool
  | .text d _ => d.wf
  | .image _ => true

/-- Columns of a destination are TABLE words of 64 bits. -/
def Dest.wf (d : Dest) : Bool := d.cols.all fun w => decide (w < 2 ^ 64)

/-- A file's row count covers its largest group. -/
def FileIn.wf (x : FileIn) : Bool := decide (x.group ≤ x.rows)

/-- Which commands are well formed. -/
def Instr.wf : Instr → Bool
  | .registerWrite _ off data len => offIn off && valueFits data len
  | .rcRead off _ _ => offIn off
  | .loReadCapture off => offIn off
  | .commitWrite _ off data => offIn off && valueFits data 4
  | .pendingCopyAdopt .. => true
  | .netShareApply .. => true
  | .beatInFrame bits _ => decide (bits < 2 ^ 128)
  | .beatPagePoll .. => true
  | .beatPageReadComplete line issued t => lineOk line && decide (issued ≤ t)
  | .beatPhaseEndHold .. => true
  | .beatHoldTimeoutLost .. => true
  | .rebase .. => true
  | .beatSrcSelect .. => true
  | .dispatcherTick .. => true
  | .strmArm .. => true
  | .glbAttachGo .. => true
  | .attachAgreementComplete .. => true
  | .doorbellPoll .. => true
  | .doorbellReadComplete _ line _ => lineOk line
  | .submissionEntryArrive _ e _ => e.wf
  | .acceptanceRecordComplete .. => true
  | .journalWriteRetry .. => true
  | .attachTable _ e x => e.wf && x.wf
  | .detachTable .. => true
  | .loadGraph _ e _ sage toks decls => e.wf && sage.all (fun p => placeOk p) && toks.all (fun d => d.wf) && decls.preps.all (fun d => d.wf) && decls.ops.wf
  | .unloadGraph .. => true
  | .openStream _ e src => e.wf && decide (src < 2 ^ 64)
  | .closeStream .. => true
  | .setEpoch .. => true
  | .run .. => true
  | .cancel .. => true
  | .fence .. => true
  | .query _ e => e.wf
  | .warmRestart .. => true
  | .commandComplete .. => true
  | .completionEntryWrite .. => true
  | .moderationTimerExpire .. => true
  | .journalGo .. => true
  | .journalWalkComplete e _ => e.wf
  | .journalControlLineTimer .. => true
  | .qpEnable .. => true
  | .qpDisable .. => true
  | .batchRecordWrite .. => true
  | .nop .. => true
  | .loop .. => true
  | .lend .. => true
  | .ld .. => true
  | .st .. => true
  | .ldv .. => true
  | .stv .. => true
  | .add .. => true
  | .sub .. => true
  | .mul .. => true
  | .mulh .. => true
  | .fma .. => true
  | .div .. => true
  | .divf .. => true
  | .rem .. => true
  | .modf .. => true
  | .min .. => true
  | .max .. => true
  | .abs .. => true
  | .neg .. => true
  | .clamp .. => true
  | .sqrt .. => true
  | .mov .. => true
  | .movi .. => true
  | .exp .. => true
  | .log .. => true
  | .log1p .. => true
  | .tanh .. => true
  | .sigm .. => true
  | .erf .. => true
  | .rsqrt .. => true
  | .rcp .. => true
  | .cmp .. => true
  | .classF .. => true
  | .sel .. => true
  | .isval .. => true
  | .coal .. => true
  | .kop .. => true
  | .setv .. => true
  | .vmrk .. => true
  | .kfirst .. => true
  | .and .. => true
  | .or .. => true
  | .xor .. => true
  | .andn .. => true
  | .not .. => true
  | .shl .. => true
  | .shr .. => true
  | .sar .. => true
  | .rotl .. => true
  | .popc .. => true
  | .clz .. => true
  | .ctz .. => true
  | .cvt .. => true
  | .qmx .. => true
  | .dqmx .. => true
  | .fold .. => true
  | .bfind .. => true
  | .bdiff .. => true
  | .utf8v .. => true
  | .blowr .. => true
  | .bcls .. => true
  | .xsr .. => true
  | .crc .. => true
  | .xxr .. => true
  | .sipr .. => true
  | .rsum .. => true
  | .rsumw .. => true
  | .rmin .. => true
  | .rmax .. => true
  | .rcnt .. => true
  | .rand .. => true
  | .ror .. => true
  | .perm .. => true
  | .cprs .. => true
  | .algn .. => true
  | .partition _ _ rs => rs.wf
  | .hashBucket _ _ rs => rs.wf
  | .joinBuild _ _ e => e.wf
  | .joinProbe _ _ rs => rs.wf
  | .asofIndex _ _ e => e.wf
  | .asofProbe _ _ rs => rs.wf
  | .windowIndex _ _ e => e.wf
  | .windowProbe _ _ rs => rs.wf
  | .groupBy _ _ rs => rs.rows.wf
  | .rankSketch _ _ rs _ => rs.wf
  | .approxDistinct _ _ rs => rs.wf
  | .featureCross _ _ rs => rs.wf
  | .compact _ _ rs => rs.wf
  | .topk _ _ rs _ e => rs.wf && e.wf
  | .lookup _ _ rs ups => rs.wf && ups.all (fun u => u.wf)
  | .scan _ _ rs => rs.wf
  | .sageBuild _ _ e => e.wf
  | .gather _ _ rs e => rs.wf && e.wf
  | .scatter _ _ rs e => rs.wf && e.wf
  | .scatterAdd _ _ rs e => rs.wf && e.wf
  | .gemm _ _ rs => rs.wf
  | .embedBag _ _ rs e => rs.wf && e.wf
  | .interact _ _ rs => rs.wf
  | .attnScore _ _ rs => rs.wf
  | .attnValue _ _ rs => rs.wf
  | .sageEntryWriteApply .. => true
  | .sageBankReconfigApply .. => true
  | .sageEntryReloadComplete .. => true
  | .sageMatchRowScrub _ _ ups => ups.all (fun u => u.wf)
  | .intakeBatchBegin .. => true
  | .intakeFetchComplete _ _ _ _ _ u e => e.wf && u.dests.all (fun d => d.wf)
  | .intakeHeaderCheck _ _ _ _ u => u.dests.all (fun d => d.wf)
  | .intakePageDecode _ _ _ ds _ e => e.wf && ds.all (fun d => d.wf)
  | .tokenise _ _ _ _ d _ dst => d.wf && dst.wf
  | .jpegDecode .. => true
  | .sampleAbandon _ _ _ _ x => x.wf
  | .lovageImage _ _ _ _ d _ _ _ dst => d.wf && dst.wf
  | .shuffleSlotsComputed .. => true
  | .batchInstantiate .. => true
  | .taskReady .. => true
  | .taskPlace .. => true
  | .hopperFillComplete .. => true
  | .taskStart .. => true
  | .taskComplete .. => true
  | .flagPulse .. => true
  | .weirArrival .. => true
  | .segmentHandoff .. => true
  | .segmentRelease _ e _ => e.wf
  | .chArm .. => true
  | .chRepoke .. => true
  | .chAbort .. => true
  | .chResume .. => true
  | .chResumeSkip .. => true
  | .descriptorFetchComplete _ e => e.wf
  | .linkRereadComplete _ e => e.wf
  | .dmaCopy .. => true
  | .dmaFill .. => true
  | .dmaCrc .. => true
  | .dmaTriggerFire .. => true
  | .burstIssue e => e.wf
  | .burstRetry _ e _ => e.wf
  | .completionReadReturn .. => true
  | .descriptorComplete _ e _ => e.wf
  | .hbmPatrolScrub _ e => e.wf
  | .netenFlitReceive .. => true
  | .bar2Read _ len e => decide (0 < len) && e.wf
  | .bar2Write _ data => !data.isEmpty
  | .domainPowerDown .. => true
  | .domainPowerUp .. => true
  | .domainPowerUpComplete .. => true
  | .domainDrainComplete .. => true
  | .domainForceTimeout .. => true
  | .eventPost .. => true
  | .eventClaim .. => true
  | .handlerEntry .. => true
  | .evcTgtComplete .. => true
  | .exitEnd .. => true
  | .evcTgtFlush .. => true
  | .evcSwPost .. => true
  | .hostPendAck .. => true
  | .thresholdWrite .. => true
  | .perstAssert .. => true
  | .perstDeassert .. => true
  | .pcieLinkTrained .. => true
  | .pcieLinkDown .. => true
  | .flr .. => true
  | .dstateChange .. => true
  | .d3coldEntry .. => true
  | .pcieCompletionTimeout => true
  | .chainBeatToken tok _ => tokenOk tok
  | .chainEnumToken tok => tokenOk tok
  | .chainMgmtToken tok => tokenOk tok
  | .chainUnknownToken tok => tokenOk tok
  | .spliceWindowEnd .. => true
  | .chainSplice .. => true
  | .chainBeatAbsent .. => true
  | .pairHello msg _ => messageOk msg
  | .pairHeartbeat msg _ => messageOk msg
  | .pairAccept msg _ => messageOk msg
  | .pairAnnounce msg _ => messageOk msg
  | .pairDone msg _ => messageOk msg
  | .pairBeat msg _ => messageOk msg
  | .pairFence msg _ => messageOk msg
  | .pairSyncData msg _ => messageOk msg
  | .pairSyncReady msg _ => messageOk msg
  | .pairSyncJoin msg _ => messageOk msg
  | .heartbeatTimer .. => true
  | .peerLossTimeout .. => true
  | .pairPortStateChange .. => true
  | .leaseCycle e _ => e.wf
  | .leaseCycleComplete .. => true
  | .leaseBoundExpire .. => true
  | .suspectLeaseRead e _ => e.wf
  | .leaseClaimReread e _ => e.wf
  | .handover .. => true
  | .leave .. => true
  | .detectedError _ _ _ detail _ => decide (detail < 2 ^ 64)
  | .selfTestComplete .. => true
  | .recoveryResume .. => true
  | .errInject .. => true
  | .errMapoutClear .. => true
  | .bootStageComplete .. => true
  | .getMeasurements .. => true
  | .debugChallenge .. => true
  | .debugUnlock .. => true
  | .ownerRecord _ keys _ _ => (keys.isEmpty || keys.length == 96)
  | .policyRecord .. => true
  | .revocationRecord .. => true
  | .reprovisionRecord .. => true
  | .ideKeyProgram .. => true
  | .powerInputStart .. => true
  | .inputVoltageFault .. => true
  | .inputVoltageWarn .. => true
  | .powerSample .. => true
  | .clockStep .. => true
  | .thermalStop .. => true
  | .pwrCapWrite .. => true
  | .mctpSetEid .. => true
  | .pldmSensorRefresh .. => true
  | .setEventReceiver .. => true
  | .vendorRecordRead .. => true
  | .mgiNegotiate .. => true
  | .requestUpdate => true
  | .verifyComplete .. => true
  | .activateFirmware => true
  | .trialCommit .. => true
  | .softReset .. => true
  | .coldReset .. => true
  | .journalUpdateComplete .. => true
  | .burstResponse .. => true
  | .unmappedBar0Read off _ => offIn off
  | .railsInTolerance .. => true
  | .componentDataWrite .. => true

end Sys2Proof
end

