-- ==== Sys2Proof/Certificates/Slice0/Obligations.lean ====
section
/-! DEFINITION. The statements for the provers: each says in its docstring which rules of the spec it formalises, or that it
is the model's own. Auxiliary definitions of the statements come first. -/

open Sys2Proof Sys2Proof.Machine

/-- A state in which a new beat changes no graph phase and no variant: what an accepted beat does to the graph is then nothing. -/
def QuietGraph (s : State) : Prop := ∀ g, s.work.graph = some g → g.switchDue = false ∧ g.phases ≤ 1

/-- A delivery at instant `t` with number `n` that the loop accepts: at least 50 us after the last accepted edge, number above the
last accepted one (R33, R37). -/
def GoodDelivery (s : State) (t n : Nat) : Prop :=
  (∀ e, s.beat.edge = some e → e + 50000 ≤ t) ∧ (∀ m, s.beat.lastNum = some m → m < n)

/-- What an accepted beat with number `n` and instant `t` from source `src` leaves in the phase loop. -/
def BeatTaken (u : State) (src : BeatSrc) (n t : Nat) (hold : Bool) : Prop :=
  u.beat.lastNum = some n ∧ u.beat.posBeat = n ∧ u.beat.posPhase = 0 ∧ u.beat.edge = some t ∧ u.beat.active = some src ∧
    u.beat.srcHold = hold ∧ u.beat.numRejects = 0

/-- A DMA channel has no burst in flight: it stands at a burst boundary. -/
def NoBurst (x : Chan) : Prop := ∀ j, x.job = some j → j.flight = []

/-- The conditions on which the next entry of a submission ring is taken (R84, R87, R102). -/
def RingOpen (s : State) (q : Nat) : Prop :=
  (s.qp q).enable = true ∧ (s.qp q).err = false ∧ (s.qp q).sqHead ≠ (s.qp q).sqTail ∧ s.mayAccept = true ∧ s.polls = true

/-- Command `seq` is accepted with entry `c.entry`, may begin, and passes the checks of R69. -/
def Begins (s : State) (seq op : Nat) (c : Cmd) : Prop :=
  s.cmd seq = some c ∧ c.entry.opcode = op ∧ s.mayBegin c = true ∧ s.entryCheck c.entry = 0

/-- Command `seq` has its status and result decided. -/
def Decided (u : State) (seq status result : Nat) : Prop := ∃ d, u.cmd seq = some d ∧ d.phase = .finished status result

/-- No stream is open, being opened or closing. -/
def AllClosed (s : State) : Prop := ∀ p ∈ s.work.streams, p.2.phase = .closed

/-- The state in which a command that begins runs its own checks. -/
def Begun (s : State) (seq : Nat) : State := s.modCmd seq fun x => { x with phase := .executing }

/-- Command `c` is the word that its engine issues next: the next one of the running program's body, on an engine that is not stopped, with
nothing that withholds issue (R156, R467, R520). -/
def NextWord (c : Instr) (s : State) : Prop := ∃ op id f, wordParts c = some (op, id, f) ∧ s.issues id op f = true

/-- Command `c`, where it is the next word, completes with `P`. -/
def Ends (c : Instr) (s : State) (P : State → Prop) : Prop := NextWord c s → ∃ u, exec c s = .next u ∧ P u

/-- Lane `i` is executed under the word's MASK. -/
def LaneOn (s : State) (id : EngineId) (f : Fields) (i : Nat) : Prop := (s.engine (engineNo id)).on f.mask.val i = true

/-- Lane `i` of register `j`, or none when it is invalid. -/
def laneIn (s : State) (id : EngineId) (sz j i : Nat) : Option Nat := (s.engine (engineNo id)).src sz j i

/-- Command `c`, where it is the next word, completes; afterwards lane `i` of register `vd` holds `r` (none: invalid and zero) and flags `fl` are set. -/
def Takes (c : Instr) (s : State) (id : EngineId) (vd sz i : Nat) (r : Option Nat) (fl : Nat) : Prop :=
  Ends c s fun u => (u.engine (engineNo id)).lane sz vd i = (r.isSome, r.getD 0) ∧ Nat.land (u.engine (engineNo id)).flags fl = fl

/-- Command `c`, where it is the next word, completes and leaves bit `i` of mask register `k` as `b`; K0 ignores the write. -/
def TakesBit (c : Instr) (s : State) (id : EngineId) (k i : Nat) (b : Bool) : Prop :=
  Ends c s fun u => if k = 0 then (u.engine (engineNo id)).k = (s.engine (engineNo id)).k else bitOf (tget 0 (u.engine (engineNo id)).k k).toNat i = b

/-- An exact integer result in a type, wrapped or, under SAT, clamped with SAT raised (R145). -/
def fitted (t : LTy) (sat : Bool) (z : Int) : Nat × Nat :=
  if sat && (decide (z < tyMin t) || decide (tyMax t < z)) then (wrapN (8 * t.size) (if z < tyMin t then tyMin t else tyMax t), 32)
  else (wrapN (8 * t.size) z, 0)

/-- A stream-program word as a command: its opcode, and whether LOAD_GRAPH admits its TYPE for that opcode. -/
def WordCmd (c : Instr) (id : EngineId) (f : Fields) (op : Nat) : Prop :=
  wordParts c = some (op, id, f) ∧ (wordForm op).any (fun w => w.ts.has f.ty.val) = true

/-- The opcodes whose words write VD lane by lane under MASK. -/
def laneOps : List Nat :=
  [0x20, 0x21, 0x22, 0x23, 0x24, 0x25, 0x26, 0x27, 0x28, 0x29, 0x2A, 0x2B, 0x2C, 0x2D, 0x2E, 0x2F, 0x30, 0x38, 0x39, 0x3A, 0x3B, 0x3C, 0x3D,
   0x3E, 0x3F, 0x42, 0x44, 0x46, 0x47, 0x50, 0x51, 0x52, 0x53, 0x54, 0x55, 0x56, 0x57, 0x58, 0x59, 0x5A, 0x5B, 0x63, 0x73, 0x80, 0x82, 0x83,
   0xA0, 0xA1, 0xA2]

/-- The program that engine `id`'s core runs is `cx`. -/
def Runs (s : State) (id : EngineId) (cx : ProgCtx) : Prop := (s.core (coreNo id)).ctx = some cx

/-- The values of the contributing lanes of a reduction: valid and unmasked, by lane index (R158). -/
def contributing (s : State) (id : EngineId) (f : Fields) (sz : Nat) : List Nat :=
  (List.range (32 / sz)).filterMap fun i => if (s.engine (engineNo id)).on f.mask.val i then laneIn s id sz f.va.val i else none

/-- An address stream of the running program in a mode, its cursor at a whole byte. -/
def StreamAt (s : State) (id : EngineId) (cx : ProgCtx) (f : Fields) (d : StreamDesc) (a : Nat) : Prop :=
  Runs s id cx ∧ cx.descs[f.va.val % 8]? = some d ∧ (s.engine (engineNo id)).cur (f.va.val % 8) = 8 * (a : Int)

/-- Cluster `k` has exactly one record in state `x`: that of slot `i`. -/
def OnlyRecord (s : State) (k i : Nat) (x : TaskState) : Prop :=
  ((s.disp k).task i).state = x ∧ (s.disp k).slots.filter (fun p => p.2.state == x) = [(i, (s.disp k).task i)]

/-- The template and the placement entry of a slot's record in the loaded graph. -/
def RecordOf (s : State) (g : Graph) (k i : Nat) (t : Tpl) (p : Place) : Prop :=
  s.work.graph = some g ∧ g.tpl ((s.disp k).task i).tpl = some t ∧ g.tables.places[((s.disp k).task i).place]? = some p

/-- The cluster takes work, and so does its physical core `c`. -/
def CoreServes (s : State) (k c : Nat) : Prop := s.clusterWorks k = true ∧ s.coreWorks c = true ∧ c / 32 = k

/-- The task in a slot has ended with a status. -/
def TaskEnded (u : State) (k slot fail : Nat) : Prop := ((u.disp k).task slot).ended = true ∧ ((u.disp k).task slot).fail = fail

/-- The cells that an operator gives its output column: fill values on void rows, nulls on masked-out ones. -/
def colCells (s : State) (j : Job2) (rs : Rows) (f : Nat → Cell) : List Cell :=
  (rowList rs).map fun p => if j.absent s p then {} else f p.1

/-- Cluster `k`'s store is as before, but for the cells written as column `c` of its slot. -/
def ColumnIn (s u : State) (k : Nat) (c : ColW) (cells : List Cell) : Prop :=
  ∀ r, s.slotRec k c.slot = some r → u.cstore k = (putColumn (s.cstore k) (r.off + c.off) c.ty c.nullable c.param cells).1

/-- The task of a slot and the store of its cluster are all that change of dispatchers and stores. -/
def OnlyTask (s u : State) (k slot : Nat) : Prop :=
  (∀ i, i ≠ k → u.disp i = s.disp i ∧ u.cstore i = s.cstore i) ∧ ∀ i, i ≠ slot → (u.disp k).task i = (s.disp k).task i

/-- A task ran: its work has ended and touched no other task and no other cluster; where it has no derived table of its own it did not fail, and
its output column holds the cells. -/
def RanInto (s u : State) (j : Job2) (k slot : Nat) (c : ColW) (cells : List Cell) : Prop :=
  ∃ f, TaskEnded u k slot f ∧ OnlyTask s u k slot ∧ (j.derived = none → f = 0 ∧ ColumnIn s u k c cells)

/-- The rows that a table stage takes into a build: not void, no null key part. -/
def buildable (rows : List (Nat × Bool × List Cell × List Cell)) : List (Nat × Bool × List Cell × List Cell) :=
  rows.filter fun x => !x.2.1 && !keyNull x.2.2.1

/-- The index that the rows of a table make: rows with a key and a time. -/
def indexed (salt : Nat) (key : List ColW) (ty : Nat) (rows : List (Nat × Bool × List Cell × List Cell)) : List BuildRow :=
  (rows.filter fun x => !x.2.1 && !(keyNull x.2.2.1 || !(x.2.2.2.headD {}).valid)).map fun x =>
    { row := x.1, hash := keyHash salt key x.2.2.1, key := x.2.2.1, payload := x.2.2.2.drop 1, time := timeOf ty (x.2.2.2.headD {}) }

/-- What an index build on a table comes to: the index, a run longer than MAX_RUN, or an area that is too small. -/
def IndexBuilt (s u : State) (j : Job2) (k slot maxRun : Nat) (key : List ColW) (tm : ColW) (esize : Nat) (rows : List (Nat × Bool × List Cell × List Cell)) : Prop :=
  let ins := indexed j.t.salt key tm.ty rows
  match overRun key maxRun ins with
  | some r => TaskEnded u k slot 0x12 ∧ (u.units k).quern.limitHit = true ∧ (u.units k).quern.limitKey = r.hash ∧ u.builtOf j.tpl = s.builtOf j.tpl
  | none => if ins.length * esize ≤ j.g.areaLen 4 j.tpl then TaskEnded u k slot 0 ∧ u.builtOf j.tpl = { rows := ins } else TaskEnded u k slot 0x12

/-- What the tasks of a template have brought to a shared result once task `p` of job `j` brings its part (log entry 91). -/
def shared (s : State) (j : Job2) (p : InPart) : List InPart := (s.putPart j p).partsOf j

/-- Task `p` of job `j` has not brought its part yet, and its part will be taken. -/
def Fresh (s : State) (j : Job2) (p : InPart) : Prop := (s.partsOf j).all (fun q => !(q.place == p.place && q.slot == p.slot)) = true ∧ p ∈ shared s j p

/-- What the other tasks of a template have brought when part `p` comes. -/
def others (s : State) (j : Job2) (p : InPart) : List InPart := (s.broughtTo j).filter fun q => q.place != p.place

/-- The groups of no cluster outgrow its store while part `p` comes. -/
def NoSpill (s : State) (j : Job2) (p : InPart) : Prop := ∀ c ∈ List.range 16, j.clusterBlocks (others s j p) c = 0 ∧ j.clusterBlocks (others s j p ++ [p]) c = 0

/-- The blocks that part `p` makes its cluster spill, and the bytes that all clusters then hold in the area. -/
def newBlocks (s : State) (j : Job2) (p : InPart) : Nat := j.clusterBlocks (others s j p ++ [p]) j.k - j.clusterBlocks (others s j p) j.k
def spilledBytes (s : State) (j : Job2) (p : InPart) : Nat := 0x10000 * (((List.range 16).map fun c => j.clusterBlocks (others s j p) c).sum + newBlocks s j p)

/-- A part of a template's result waits for the parts of the other tasks: the task goes on, its part is kept, its cluster's store is as it was. -/
def Waits (s u : State) (j : Job2) (p : InPart) : Prop := u.partsOf j = shared s j p ∧ (u.disp j.k).task j.slot = (s.disp j.k).task j.slot ∧ u.cstore j.k = s.cstore j.k

/-- What a task brings to a group-by. -/
def groupPart (s : State) (j : Job2) (rs : Rows) (parts : List Nat) : InPart :=
  { place := j.r.place, k := j.k, slot := j.slot, first := rs.first, count := rs.count, parts := parts
    rows := ((rowList rs).filter fun p => !j.absent s p).map fun p => (p.2, s.keyCells j.k j.groupDecl.key p.1, s.keyCells j.k j.groupDecl.vals p.1) }

/-- What a task brings to a rank sketch of column `c`. -/
def sketchPart (s : State) (j : Job2) (c : ColW) (rs : Rows) (parts : List Nat) : InPart :=
  { place := j.r.place, k := j.k, slot := j.slot, first := rs.first, count := rs.count, parts := parts
    rows := (rowList rs).map fun p => (p.2, [], [if j.absent s p then ({} : Cell) else s.slotCell j.k c p.1]) }

/-- What a task brings to a distinct count: its keys without a null part. -/
def distinctPart (s : State) (j : Job2) (key : List ColW) (rs : Rows) : InPart :=
  { place := j.r.place, k := j.k, slot := j.slot, first := rs.first, count := rs.count
    rows := (((rowList rs).filter fun p => !j.absent s p).map fun p => (p.2, s.keyCells j.k key p.1, ([] : List Cell))).filter fun r => !keyNull r.2.1 }

/-- A selection `x` with capacity `cap` and result bytes `bs` ends the tasks of its template: all that brought a part, Sorrel counts it, and a
template of one task writes the result region. -/
def Selected (s u : State) (j : Job2) (p : InPart) (res : ColW) (x : Selection) (bs : Bytes) (cap : Nat) (top : Bool) : Prop :=
  (∀ q ∈ shared s j p, TaskEnded u q.k q.slot 0) ∧ (u.units j.k).sorrel = (s.units j.k).sorrel.count x cap top ∧
  (shared s j p = [p] → OnlyTask s u j.k j.slot ∧ u.cstore j.k = (s.putRegion j.k res.slot res.off bs).cstore j.k)

/-- Every entry of a bank is sound: the match row passes parity and equals its stored copy, which needs no correction. -/
def Sound (b : SageBank) : Prop := ∀ p ∈ b.entries, p.2.parityOk = true ∧ p.2.stored = p.2.row ∧ p.2.ecc = []

/-- No word of HBM is poisoned. -/
def Clean (s : State) : Prop := ∀ a n, s.poisonAt a n = false

/-- The task of a job belongs to an instantiated batch, or to a table stage. -/
def OfBatch (s : State) (j : Job2) : Prop := ∀ b, j.r.batch = some b → ((s.stream j.r.stream).batch b).isSome = true

/-- A layer of operation `op` ran in a slot: its task has ended, its kernel and layer are the last ones, its products are counted. -/
def LayerRan (s u : State) (k slot : Nat) (t : Tpl) (macs : Nat) : Prop :=
  TaskEnded u k slot 0 ∧ OnlyTask s u k slot ∧ (u.units k).mls.layer = t.layer ∧ (u.units k).mls.kernel = t.kernel ∧
    (u.units k).mls.macs = ((s.units k).mls.macs + macs) % 2 ^ 64

/-- Lane `i` works, on batch `b` of stream `n` of the loaded graph. -/
def LaneOnBatch (s : State) (g : Graph) (i n b : Nat) : Prop := s.work.graph = some g ∧ s.laneBatch i = some (n, b) ∧ s.laneRuns i = true

/-- A lane may begin a batch: instantiated everywhere, due to start, next in order, not begun, no other in work, no domain going off. -/
def LaneMayBegin (s : State) (i n b : Nat) (x : Batch) : Prop :=
  s.laneWorks i = true ∧ s.allInst n b = true ∧ x.start ≤ s.pos ∧ bitOf x.intake i = false ∧ s.laneBatch i = none ∧ s.isNextFor i n b x.start = true ∧
    (s.stream n).stop = none ∧ s.pwr.request = none

/-- Row slot `r` of a batch is void by `reason`, and the lane owes it no more. -/
def VoidedBy (u : State) (i n b r reason : Nat) : Prop := u.voidOf n (some b) r = reason ∧ r ∉ (u.lane i).todo

/-- Lovage may work on row slot `slot` by declaration `d`: the row is decoded and not void, and the oldest image of the lane is its own. -/
def LovageMay (s : State) (g : Graph) (i n b slot : Nat) (d : PrepDecl) (m : Img) (rest : List Img) : Prop :=
  s.work.graph = some g ∧ s.rowDone g i n b slot = true ∧ d ∈ g.imagesOf n ∧ (slot, true, (g.imagesOf n).idxOf d) ∉ (s.lane i).made ∧
    (s.lane i).pendingSample (g.budgetCols n 1) 1 (slot, (g.budgetCols n 1).idxOf d.col) = false ∧ s.voidOf n (some b) slot = 0 ∧
    ((s.lane i).value slot d.col).valid = true ∧ (s.lane i).images = m :: rest ∧ m.slot = slot ∧ m.col = d.col

/-- What a post does at event source `n`: an idle source becomes PENDING, or HOST_WAIT with the host route alone; an active one loses the post. -/
def Posted (s u : State) (n : Nat) : Prop :=
  let e := s.evc.source n
  let x := u.evc.source n
  u.evc.posts = (s.evc.posts + 1) % 2 ^ 64 ∧
  (e.state = .idle → x.lost = e.lost ∧ (e.route = true → x.state = .pending) ∧ (e.route = false → e.hostEn = true → x.state = .hostWait) ∧
    (e.route = false → e.hostEn = false → x.state = .idle) ∧ (e.hostEn = true → x.hostPend = true)) ∧
  (e.state ≠ .idle → x.state = e.state ∧ x.lost = true ∧ x.lostCount = min 0xFF (e.lostCount + 1)) ∧
  ∀ m, m ≠ n → u.evc.source m = s.evc.source m

/-- The reset of R89 with its cause: all device state is cleared; host memory, flash, the waiting commands and the FAILED state stay. -/
def Cleared (s u : State) (cause : Nat) : Prop :=
  u.cmds = [] ∧ u.qps = [] ∧ u.groups = [] ∧ u.jrn = ({} : State).jrn ∧ u.beat = ({} : State).beat ∧ u.work = ({} : State).work ∧ u.mem.chans = [] ∧
    u.mem.routers = [] ∧ u.evc.src = [] ∧ u.evc.tgt = [] ∧ u.glb.resetCause = cause ∧ u.glb.warmCount = s.glb.warmCount ∧ u.mem.bus = s.mem.bus ∧
    u.err.flash = s.err.flash ∧ u.err.removed = s.err.removed ∧ (s.err.state = 2 → u.err.state = 2) ∧ u.pair.state = .off ∧ u.pending = s.pending

/-- A cold boot has begun, or the power is off: as the reset, but WARM_COUNT is cleared, the log in flash and its removals stay, FAILED ends. -/
def ColdCleared (s u : State) (cause : Nat) : Prop :=
  u.cmds = [] ∧ u.qps = [] ∧ u.work = ({} : State).work ∧ u.glb.resetCause = cause ∧ u.glb.warmCount = 0 ∧ u.glb.ready = false ∧ u.mem.bus = s.mem.bus ∧
    u.err.flash = s.err.flash ∧ u.err.removed = s.err.removed ∧ u.err.state = 0 ∧ u.present = {} ∧ u.sec.tamper = false ∧ u.pci.linkUp = false ∧ u.pending = s.pending

/-- A valid message of type `ty` that a module of a pair with a port up is to judge by its SEQ; it asks for nothing again. -/
def Arrives (s : State) (msg : Bytes) (ty : Nat) (m : PairMsg) : Prop :=
  parsePair msg = some m ∧ m.ty = ty ∧ s.pair.state ≠ .off ∧ s.pair.portsUp ≠ 0 ∧ bitOf m.flags 0 = false

/-- The next message in order. -/
def InOrder (s : State) (msg : Bytes) (ty : Nat) (m : PairMsg) : Prop := Arrives s msg ty m ∧ m.seq = s.pair.rxSeq + 1

/-- For every command c and state s with c at the front of its queue, step of s is exec of c on s with the rest of the queue.
(Rests on 00_scope.md, 19_register_map.md.) -/
def Obligations.StepRunsFrontCommand : Prop :=
  ∀ (c : Instr) (r : List Instr) (s : State), s.pending = c :: r → step s = exec c { s with pending := r }

/-- For every state, step answers a next state: no command faults and none is refused. On an empty queue a step changes
nothing while no router holds a flit, and never anything but the routers and the fabric cycle (the model's choice, log entry
5). (Rests on 00_scope.md, 19_register_map.md, 13_memory_and_movers.md R376.) -/
def Obligations.EveryStepAnswers : Prop :=
  (∀ s : State, ∃ t, step s = .next t) ∧
  (∀ s : State, s.pending = [] → (∀ p ∈ s.mem.routers, ∀ h ∈ p.2.held, h.2 = []) → step s = .next s) ∧
  (∀ s : State, s.pending = [] → ∃ t, step s = .next t ∧ t = { s with mem := { s.mem with routers := t.mem.routers, netCyc := t.mem.netCyc } })

/-- A BEAT_IN frame whose SYNC and CHECK verify, and a host beat page record that verifies with an age of at most 1,000,000
ns and a new number, arriving at least 50 us after the last accepted edge with a number above the last accepted one, while
its source is selected, becomes the last accepted beat: the position is its number with phase 0, its instant the last edge
(for a frame the first transition, for a record the time of the read less AGE_NS), its source active, its HOLD bit SRC_HOLD
(0 for a record), and the run of number rejections ends. The record is read in D0 by a poll that is outstanding. No variant
switch is due and the graph has one phase. (Rests on 02_beat_schedule_graphs.md R33, R34, R36, R37, R43.) -/
def Obligations.AcceptedBeatSetsPosition : Prop :=
  (∀ (s : State) (bits t : Nat), s.beat.srcCfg = 0 → s.followsPrimary = false → QuietGraph s → frameOk bits = true →
    GoodDelivery s t (bitsOf bits 79 16) →
    ∃ u, exec (.beatInFrame bits t) s = .next u ∧ BeatTaken u .beatIn (bitsOf bits 79 16) t (bitOf bits 80)) ∧
  (∀ (s : State) (l : Bytes) (issued t : Nat), s.beat.srcCfg = 2 → s.followsPrimary = false → QuietGraph s → s.inD0 = true → issued ∈ s.beat.pageReads →
    l.length = 64 → fieldAt l 60 4 = crc32c (l.take 60) → s.beat.pageLast ≠ some (fieldAt l 0 8) → fieldAt l 8 4 ≤ 1000000 →
    GoodDelivery s (issued - fieldAt l 8 4) (fieldAt l 0 8) →
    ∃ u, exec (.beatPageReadComplete (some l) issued t) s = .next u ∧
      BeatTaken u .page (fieldAt l 0 8) (issued - fieldAt l 8 4) false ∧ u.beat.pageLast = some (fieldAt l 0 8))

/-- With BEAT_IN selected and BEAT_OUT off: a frame whose SYNC or CHECK fails contributes no edge and increments
RLG_BEAT_REJECT only; a good frame less than 50 us after the last accepted edge is ignored and increments RLG_BEAT_GLITCH
only; a good frame at the right spacing with a number not above the last accepted one increments RLG_BEAT_REJECT, leaves
edge, number, position and estimate as they are, and the fourth in a row makes the lock state MISMATCH. (Rests on
02_beat_schedule_graphs.md R33, R34, R37.) -/
def Obligations.UnacceptedFramesOnlyCount : Prop :=
  ∀ (s : State) (bits t : Nat), s.beat.srcCfg = 0 → s.followsPrimary = false → s.beat.outEn = false →
    (frameOk bits = false → ∃ u, exec (.beatInFrame bits t) s = .next u ∧
      u.beat = { s.beat with reject := sat32 s.beat.reject 1 }) ∧
    (∀ e, frameOk bits = true → s.beat.edge = some e → t < e + 50000 → ∃ u, exec (.beatInFrame bits t) s = .next u ∧
      u.beat = { s.beat with glitch := sat32 s.beat.glitch 1 }) ∧
    (∀ e n, frameOk bits = true → s.beat.edge = some e → e + 50000 ≤ t → s.beat.lastNum = some n → bitsOf bits 79 16 ≤ n →
      ∃ u, exec (.beatInFrame bits t) s = .next u ∧ u.beat.reject = sat32 s.beat.reject 1 ∧
        u.beat.numRejects = s.beat.numRejects + 1 ∧ u.beat.glitch = s.beat.glitch ∧ u.beat.edge = s.beat.edge ∧
        u.beat.lastNum = s.beat.lastNum ∧ u.beat.posBeat = s.beat.posBeat ∧ u.beat.pest = s.beat.pest ∧
        (3 ≤ s.beat.numRejects → u.beat.lock = .mismatch) ∧ (s.beat.numRejects < 3 → u.beat.lock = s.beat.lock))

/-- In D0, with the page selected or automatic selection and the page address written, the page is read as one 64-byte line
at its address, whether or not earlier reads have returned, and again 1 us later. A LOCKED loop whose phase reaches 0xFFFF
without an edge goes to HOLD and keeps the phase; a HOLD of HOLD_BEATS periods since the last accepted edge goes to LOST;
outside HOLD that timeout does nothing. (Rests on 02_beat_schedule_graphs.md R36, 02_beat_schedule_graphs.md lock-state
table.) -/
def Obligations.PagePollAndLockTimeouts : Prop :=
  ∀ (s : State) (t : Nat), s.now ≤ t →
    ((s.beat.srcCfg = 2 ∨ s.beat.srcCfg = 3) → s.pci.dstate = .d0 → s.beat.pageSet = true →
      s.beat.pageNext ≤ t → ∃ u, exec (.beatPagePoll t) s = .next u ∧ u.beat = { s.beat with pageReads := s.beat.pageReads ++ [t], pageNext := t + 1000 } ∧
        u.out = .busRead s.beat.page.val.toNat 64 :: s.out) ∧
    (s.beat.lock = .locked → phaseNow s.beat t = 0xFFFF → ∃ u, exec (.beatPhaseEndHold t) s = .next u ∧
      u.beat = { s.beat with lock := .hold, posPhase := 0xFFFF }) ∧
    (∀ e, s.beat.lock = .hold → s.beat.edge = some e → e ≤ t →
      (s.beat.holds : Int) * s.beat.pest ≤ (((t - e : Nat) : Int) : Rat) →
      ∃ u, exec (.beatHoldTimeoutLost t) s = .next u ∧ u.beat = { s.beat with lock := .lost }) ∧
    (s.beat.lock ≠ .hold → exec (.beatHoldTimeoutLost t) s = .next (s.at_ t))

/-- REBASE while no stream is open clears the last accepted beat number and puts the loop in ACQUIRING, keeping estimate and
beat number; while a stream is open it is dropped, counted and recorded. A write of RLG_BEAT_CFG.SRC changes the selection at
once and nothing else, so position and period estimate are kept. (Rests on 02_beat_schedule_graphs.md R39, R40.) -/
def Obligations.RebaseAndSourceSelect : Prop :=
  (∀ (s : State) (m : Master), (∀ p ∈ s.work.streams, p.2.phase = .closed) → ∃ u, exec (.rebase m) s = .next u ∧
    u.beat.lastNum = none ∧ u.beat.lock = .acquiring ∧ u.beat.pest = s.beat.pest ∧ u.beat.posBeat = s.beat.posBeat ∧
    u.glb.reject = s.glb.reject) ∧
  (∀ (s : State) (m : Master) (k : Nat) (x : Stream), (k, x) ∈ s.work.streams → x.phase ≠ .closed →
    exec (.rebase m) s = .next (s.reject 0x100048 m.val)) ∧
  (∀ (s : State) (src : Fin 4), exec (.beatSrcSelect src) s = .next { s with beat := { s.beat with srcCfg := src.val } })

/-- For the staged origin of a stream, the head address of a host channel and the address of the host beat page: a 4-byte
write of the _LO register holds the value (reserved low bits of an address as 0) and leaves the 64-bit value in force alone;
a write of _HI makes the held half and the written half the pair's value. Writing the page's _HI also marks the page address
as written. (Rests on 00_scope.md R8, 02_beat_schedule_graphs.md R36.) -/
def Obligations.HeldLowHalfThenHighHalf : Prop :=
  ∀ (m : Master) (n c v : Nat) (s : State), n < 64 → c < 56 → v < 2 ^ 32 →
    (∃ u, exec (.registerWrite m (0xD000 + 0x20 * n) v 4) s = .next u ∧
      (u.stream n).stOrigin = { (s.stream n).stOrigin with lo := BitVec.ofNat 32 v }) ∧
    (∃ u, exec (.registerWrite m (0xD004 + 0x20 * n) v 4) s = .next u ∧
      (u.stream n).stOrigin.val = BitVec.ofNat 64 (v * 2 ^ 32 + (s.stream n).stOrigin.lo.toNat)) ∧
    (∃ u, exec (.registerWrite m (0x80008 + 0x400 * c) v 4) s = .next u ∧
      (u.chan c).head = { (s.chan c).head with lo := BitVec.ofNat 32 (v - v % 64) }) ∧
    (∃ u, exec (.registerWrite m (0x8000C + 0x400 * c) v 4) s = .next u ∧
      (u.chan c).head.val = BitVec.ofNat 64 (v * 2 ^ 32 + (s.chan c).head.lo.toNat)) ∧
    (∃ u, exec (.registerWrite m 0x100040 v 4) s = .next u ∧ u.beat = { s.beat with page := { s.beat.page with lo := BitVec.ofNat 32 (v - v % 64) } }) ∧
    (∃ u, exec (.registerWrite m 0x100044 v 4) s = .next u ∧ u.beat.pageSet = true ∧
      u.beat.page.val = BitVec.ofNat 64 (v * 2 ^ 32 + s.beat.page.lo.toNat))

/-- A read of TRC_FLOW_NEXT_LO of any flow returns the low 32 bits and captures the high 32 bits at that instant; the next
read of _HI returns the captured value, whatever the pair holds by then, and uses the capture up. (Rests on 00_scope.md R7,
12_dispatch_and_flows.md.) -/
def Obligations.ReadCapturesHighHalf : Prop :=
  ∀ (s : State) (f : Fin 1024), tget none s.capture (0x8000 + 0x10 * f.val) = none → (s.flow f.val).next < 2 ^ 64 →
    ∃ u, exec (.loReadCapture (0x8000 + 0x10 * f.val)) s = .next u ∧
      u.out = .data (leBytes 4 ((s.flow f.val).next % 2 ^ 32)) :: s.out ∧
      u.capture = tset none (0x8004 + 0x10 * f.val) (some (BitVec.ofNat 32 ((s.flow f.val).next / 2 ^ 32))) s.capture ∧
      (∀ t : State, t.capture = u.capture → ∃ w, exec (.rcRead (0x8004 + 0x10 * f.val) 4 0) t = .next w ∧
        w.out = .data (leBytes 4 ((s.flow f.val).next / 2 ^ 32)) :: t.out ∧
        tget none w.capture (0x8004 + 0x10 * f.val) = none ∧ w.work = t.work)

/-- A read of GLB_WRITE_REJECT or GLB_PAD_OVERLAP returns the value from before the read, and leaves the counter at the
number of events of the cycle in which the read returned (0 where there were none). (Rests on 00_scope.md R9,
19_register_map.md R531.) -/
def Obligations.CounterReadClearsToEventsOfItsCycle : Prop :=
  ∀ (s : State) (inc : Nat), tget none s.capture 0x30 = none → tget none s.capture 0x38 = none →
    s.glb.reject < 2 ^ 32 → s.glb.padOverlap < 2 ^ 32 →
    (∃ u, exec (.rcRead 0x30 4 inc) s = .next u ∧ u.glb = { s.glb with reject := inc } ∧
      u.out = .data (leBytes 4 s.glb.reject) :: s.out) ∧
    (∃ u, exec (.rcRead 0x38 4 inc) s = .next u ∧ u.glb = { s.glb with padOverlap := inc } ∧
      u.out = .data (leBytes 4 s.glb.padOverlap) :: s.out)

/-- A write of 1 to the commit bit of CH_COMMIT of a host channel, DSP_COMMIT of a cluster in service or NET_COMMIT makes the
whole staged group the pending copy, replacing an earlier one that has not been adopted. Adoption puts the pending copy in
force and clears it; a channel adopts it with no burst in flight, at the commit itself if none is then. A later write of the
staged CH_CFG does not alter the pending copy. (Rests on 00_scope.md R10, R11, R13, 13_memory_and_movers.md.) -/
def Obligations.CommitSnapshotsStagedGroup : Prop :=
  (∀ (m : Master) (c v : Nat) (s : State), c < 56 → v % 2 = 1 → ∃ u, exec (.commitWrite m (0x8001C + 0x400 * c) v) s = .next u ∧
    (NoBurst (s.chan c) → u.chan c = { s.chan c with cfg := (s.chan c).stCfg, pending := none }) ∧
    (¬ NoBurst (s.chan c) → u.chan c = { s.chan c with pending := some (s.chan c).stCfg })) ∧
  (∀ (m : Master) (k v : Nat) (s : State), k < 16 → s.clusterIn k = true → v % 2 = 1 →
    ∃ u, exec (.commitWrite m (0x450008 + 0x100000 * k) v) s = .next u ∧ u.disp k = { s.disp k with pending := some (s.disp k).stCfg }) ∧
  (∀ (m : Master) (k v : Nat) (s : State), k < 16 → v % 2 = 1 → ∃ u, exec (.commitWrite m (0x46000C + 0x100000 * k) v) s = .next u ∧
    u.router k = { s.router k with pending := some (s.router k).stShares }) ∧
  (∀ (n : Fin 64) (p : ChCfg) (s : State), (s.chan n.val).pending = some p → ∃ u, exec (.pendingCopyAdopt true n) s = .next u ∧
    (NoBurst (s.chan n.val) → u.chan n.val = { s.chan n.val with cfg := p, pending := none }) ∧
    (¬ NoBurst (s.chan n.val) → u.chan n.val = s.chan n.val)) ∧
  (∀ (n : Fin 64) (p : Nat) (s : State), n.val < 16 → (s.disp n.val).pending = some p → ∃ u, exec (.pendingCopyAdopt false n) s = .next u ∧
    u.disp n.val = { s.disp n.val with levelEn := p % 256, lookahead := p / 256 % 32, pending := none }) ∧
  (∀ (c v m : Nat) (s : State), (s.chWrite c m (0x80018 + 0x400 * c) 0x018 v).chan c =
    if c < 56 then { s.chan c with stCfg := parseChCfg v } else s.chan c)

/-- An aligned 4-byte write at an offset of BAR0 that no block covers changes nothing, and a read of it returns 0. A read or
write of a size or alignment that BAR0 does not accept reaches no register: it is counted in PCI_UNMAPPED, and a read
completes with Unsupported Request. (Rests on 15_links_and_pairing.md R427, 19_register_map.md R529.) -/
def Obligations.AccessesWithoutARegister : Prop :=
  (∀ (s : State) (m : Master) (off v : Nat), off % 4 = 0 → off < bar4Base → blockAt off = none →
    exec (.registerWrite m off v 4) s = .next s ∧
    (tget none s.capture off = none → ∃ u, exec (.rcRead off 4 0) s = .next u ∧ u = { s with out := .data (leBytes 4 0) :: s.out })) ∧
  (∀ (s : State) (off len : Nat), bar0Size off len = false → ∃ u, exec (.unmappedBar0Read off len) s = .next u ∧
    u.pci.unmapped = sat32 s.pci.unmapped 1 ∧ .unsupported off ∈ u.out ∧ u.work = s.work ∧ u.qps = s.qps) ∧
  (∀ (s : State) (m : Master) (off len v : Nat), bar0Size off len = false → ∃ u, exec (.registerWrite m off v len) s = .next u ∧
    u.pci.unmapped = sat32 s.pci.unmapped 1 ∧ u.work = s.work ∧ u.qps = s.qps ∧ u.glb = s.glb)

/-- A write of an attach register by a master other than the host, and a write of the QoS register of a reserved channel, is
dropped: the state changes only in GLB_WRITE_REJECT, which counts it once up to 0xFFFF_FFFF, and in GLB_WRITE_REJECT_INFO,
which holds its offset and master. (Rests on 19_register_map.md R532, R535, 13_memory_and_movers.md R381.) -/
def Obligations.DroppedWritesAreCounted : Prop :=
  (∀ (s : State) (m : Master) (v : Nat), m.val ≠ 0 → v < 2 ^ 32 →
    exec (.registerWrite m 0xD0 v 4) s = .next (s.reject 0xD0 m.val) ∧ exec (.registerWrite m 0xD4 v 4) s = .next (s.reject 0xD4 m.val) ∧
    exec (.registerWrite m 0xD8 v 4) s = .next (s.reject 0xD8 m.val)) ∧
  (∀ (s : State) (c : Nat) (m : Master) (v : Nat), 56 ≤ c → c < 64 → v < 2 ^ 32 →
    exec (.registerWrite m (0x80020 + 0x400 * c) v 4) s = .next (s.reject (0x80020 + 0x400 * c) m.val)) ∧
  (∀ (s : State) (o m : Nat), (s.reject o m).glb.reject = min 0xFFFFFFFF (s.glb.reject + 1) ∧ (s.reject o m).glb.rejOffset = o ∧
    (s.reject o m).glb.rejMaster = m)

/-- With lo the higher of the two minimum versions and hi the lower of the two maximum versions of each format (offers of the
last GO against 1.0 to 1.1 for HQF and 1.0 to 1.2 for QXG): when lo is at most hi for both, the agreed HQF version is hi and
the agreed QXG range lo to hi; otherwise GLB_ATTACH_STATUS carries ST_VERSION and no queue pair can be enabled. (States R61.)
-/
def Obligations.AttachAgreesByRangeOverlap : Prop :=
  ∀ (s : State) (t : Nat), s.glb.attachBusy = true →
    let loH := max 0x0100 (s.glb.goHqf % 65536)
    let hiH := min 0x0101 (s.glb.goHqf / 65536 % 65536)
    let loQ := max 0x0100 (s.glb.goQxg % 65536)
    let hiQ := min 0x0102 (s.glb.goQxg / 65536 % 65536)
    (loH ≤ hiH → loQ ≤ hiQ → ∃ u, exec (.attachAgreementComplete t) s = .next u ∧
      u.glb = { s.glb with attachBusy := false, done := true, status := 0, hqfAgreed := hiH, qxgAgreed := loQ + hiQ * 65536 }) ∧
    (hiH < loH ∨ hiQ < loQ → ∃ u, exec (.attachAgreementComplete t) s = .next u ∧ u.glb.done = true ∧ u.glb.status = 0x30 ∧
      ∀ (q : Fin 64) (m : Master), (u.qp q.val).enable = false → ∃ w, exec (.qpEnable q m) u = .next w ∧ (w.qp q.val).enable = false)

/-- GO by the host while no queue pair is enabled starts an agreement of the offers; by another master or with one enabled it
is dropped. A queue pair is enabled only when attached with ST_OK and with the journal ready: its ring indices start at 0 and
its phase bit at 1; otherwise the write is dropped. It is disabled only with no command outstanding; its window and error are
then cleared. (Rests on 03_host_queues.md R61, R63, R79, R93, 19_register_map.md R535.) -/
def Obligations.AttachGoAndQueueEnable : Prop :=
  (∀ (s : State) (m : Master), (∀ p ∈ s.qps, p.2.enable = false) → m = 0 → ∃ u, exec (.glbAttachGo m) s = .next u ∧
    u.glb = { s.glb with attachBusy := true, goHqf := s.glb.hqfOffer, goQxg := s.glb.qxgOffer, done := false }) ∧
  (∀ (s : State) (m : Master), (m ≠ 0 ∨ ∃ p ∈ s.qps, p.2.enable = true) → exec (.glbAttachGo m) s = .next (s.reject 0xD8 m.val)) ∧
  (∀ (s : State) (q : Fin 64) (m : Master), (s.qp q.val).enable = false → s.glb.done = true → s.glb.status = 0 → s.jrn.ready = true →
    ∃ u, exec (.qpEnable q m) s = .next u ∧ (u.qp q.val).enable = true ∧ (u.qp q.val).sqHead = 0 ∧ (u.qp q.val).cqTail = 0 ∧
      (u.qp q.val).phase = true ∧ (∀ p, p ≠ q.val → u.qp p = s.qp p)) ∧
  (∀ (s : State) (q : Fin 64) (m : Master), (s.qp q.val).enable = false → (s.glb.done = false ∨ s.glb.status ≠ 0 ∨ s.jrn.ready = false) →
    exec (.qpEnable q m) s = .next (s.reject (0x10000 + q.val * 0x100) m.val)) ∧
  (∀ (s : State) (q : Fin 64) (m : Master), (s.qp q.val).enable = true → (∀ c ∈ s.cmds, c.qp ≠ q.val) →
    ∃ u, exec (.qpDisable q m) s = .next u ∧ (u.qp q.val).enable = false ∧ (u.qp q.val).window = [] ∧ (u.qp q.val).err = false) ∧
  (∀ (s : State) (q : Fin 64) (m : Master) (c : Cmd), (s.qp q.val).enable = true → c ∈ s.cmds → c.qp = q.val →
    exec (.qpDisable q m) s = .next (s.reject (0x10000 + q.val * 0x100) m.val))

/-- In D0, while at least one queue pair of a group is enabled, the group's line is read as one 64-byte read when its
interval has passed; with none enabled it is not read. A line that returns gives each enabled queue pair its SQ_TAIL and
CQ_HEAD, puts one whose tail lies outside its ring into error, and leaves disabled queue pairs untouched. (Rests on
03_host_queues.md R65, R66, R67.) -/
def Obligations.DoorbellLinesArePolledAndTaken : Prop :=
  (∀ (s : State) (g : Fin 8) (t q : Nat), s.now ≤ t → s.inD0 = true → s.shadows = false → s.glb.ready = true → q / 8 = g.val →
    (s.qp q).enable = true → (s.group g.val).busy = false → (s.group g.val).nextPoll ≤ t →
    ∃ u, exec (.doorbellPoll g t) s = .next u ∧ (u.group g.val).busy = true ∧ u.out = .busRead (s.group g.val).addr.val.toNat 64 :: s.out) ∧
  (∀ (s : State) (g : Fin 8) (t : Nat), (∀ q, q / 8 = g.val → (s.qp q).enable = false) → exec (.doorbellPoll g t) s = .next (s.at_ t)) ∧
  (∀ (s : State) (g : Fin 8) (l : Bytes) (t : Nat), (s.group g.val).busy = true → ∃ u, exec (.doorbellReadComplete g (some l) t) s = .next u ∧
    (u.group g.val).busy = false ∧
    (∀ q, q / 8 = g.val → (s.qp q).enable = false → u.qp q = s.qp q) ∧
    (∀ q, q / 8 = g.val → (s.qp q).enable = true → (s.qp q).err = false → fieldAt l (4 * (q % 8)) 2 < (s.qp q).sqSize →
      fieldAt l (0x20 + 4 * (q % 8)) 2 < (s.qp q).cqSize →
      (u.qp q).sqTail = fieldAt l (4 * (q % 8)) 2 ∧ (u.qp q).cqHead = fieldAt l (0x20 + 4 * (q % 8)) 2 ∧ (u.qp q).err = false) ∧
    (∀ q, q / 8 = g.val → (s.qp q).enable = true → (s.qp q).sqSize ≤ fieldAt l (4 * (q % 8)) 2 → (u.qp q).err = true))

/-- The entry at the ring's head, read from the queue pair's base, becomes a command with the next journal sequence number,
which rises by one, the write of its acceptance record to that number's journal slot is issued, and its id joins the window
(at this point by the model's choice, log entry 84); an entry whose id is in the window is counted as a duplicate and takes
no sequence number. In both cases the head advances by one slot modulo the ring size. (Rests on 03_host_queues.md R84, R91,
R92.) -/
def Obligations.EntriesAcceptedInRingOrder : Prop :=
  ∀ (s : State) (q : Fin 64) (e : BusEnv) (t : Nat), RingOpen s q.val →
    let a := (s.qp q.val).sqBase.val.toNat + 128 * (s.qp q.val).sqHead
    let en := parseEntry (readBytes (s.env e).mem.bus a 128)
    let head := ((s.qp q.val).sqHead + 1) % (s.qp q.val).sqSize
    envFails e a 128 = false →
    ((∀ w ∈ (s.qp q.val).window, w.id ≠ en.id) → ∃ u, exec (.submissionEntryArrive q e t) s = .next u ∧
      (∃ n, u.cmds = s.cmds ++ [{ qp := q.val, seq := s.jrn.tail, entry := en, sqHead := head, pos := 0, phase := .accepting, count := 0
                                  target := none, accSeq := n }]) ∧
      u.jrn.tail = s.jrn.tail + 1 ∧ (u.qp q.val).sqHead = head ∧ (∃ w ∈ (u.qp q.val).window, w.id = en.id) ∧
      u.jrn.accesses = s.jrn.accesses ++ [{ kind := .accept s.jrn.tail, addr := s.jrn.recAddr s.jrn.tail, waitUs := 0, until_ := none }]) ∧
    (∀ w ∈ (s.qp q.val).window, w.id = en.id → ∃ u, exec (.submissionEntryArrive q e t) s = .next u ∧ u.cmds = s.cmds ∧ u.jrn = s.jrn ∧
      (u.qp q.val).sqHead = head ∧ (u.qp q.val).dupCount = sat32 (s.qp q.val).dupCount 1)

/-- When the acceptance record of a command is written, no access of the journal waits and no earlier command is still being
accepted, the command becomes accepted and the record with STATE ACCEPTED is on the bus at the journal slot it was issued to.
When the write fails the command stays as it is and the journal stalls; the waits grow 1, 2, 4, ... to 1,024 us, and an
access whose wait has passed is issued again. (Rests on 03_host_queues.md R84, 03_host_queues.md R540.) -/
def Obligations.AcceptanceWaitsForItsRecord : Prop :=
  (∀ (s : State) (seq t : Nat) (c : Cmd) (a : JAccess), s.cmd seq = some c → s.jrn.access (.accept seq) = some a → s.pairAcked c.accSeq = true →
    (s.at_ t).writeOpen = true → (s.at_ t).mayOutput = true → s.err.state ≠ 2 → (∀ x ∈ s.jrn.accesses, x.until_ = none) →
    (∀ x ∈ s.cmds, x.phase = .accepting → seq ≤ x.seq) →
    ∃ u, exec (.acceptanceRecordComplete seq true t) s = .next u ∧ (∃ d, u.cmd seq = some d ∧ d.phase = .accepted ∧ d.entry = c.entry) ∧
      u.out = .busWrite a.addr (jrnRecord c.entry.id seq (s.at_ t).pos c.qp c.entry.opcode 1 0) :: s.out ∧
      u.jrn.access (.accept seq) = none) ∧
  (∀ (s : State) (seq t : Nat) (c : Cmd) (a : JAccess), s.cmd seq = some c → s.jrn.access (.accept seq) = some a → s.pairAcked c.accSeq = true →
    (s.at_ t).writeEnds = true → ∃ u, exec (.acceptanceRecordComplete seq false t) s = .next u ∧ u.cmds = s.cmds ∧ u.jrn.stalled = true ∧
      u.out = s.out) ∧
  (∀ (s : State) (t : Nat), ∃ u, exec (.journalWriteRetry t) s = .next u ∧ u.jrn.accesses.length = s.jrn.accesses.length ∧
    (∀ a ∈ u.jrn.accesses, ∀ x, a.until_ = some x → max s.now t < x)) ∧
  nextWait 0 = 1 ∧ (∀ k : Nat, k < 10 → nextWait (2 ^ k) = 2 ^ (k + 1)) ∧ nextWait 1024 = 1024

/-- When a command completes that waits for no other and whose completion no former primary has announced, the update of its
journal record with STATE and FINAL_STATUS is issued to its journal slot and its completion entry queued behind it; the head
of a completion queue that waits for a record update is not written; when the update completes, STATE COMPLETED and the
status are on the bus at the record, and the entry waits no longer. (States R85.) -/
def Obligations.RecordUpdatedBeforeCompletionEntry : Prop :=
  (∀ (s : State) (seq t st r : Nat) (c : Cmd), s.cmd seq = some c → c.phase = .finished st r → s.completesAfter c = false → seq < 2 ^ 64 →
    s.shadows = false → s.pair.early.contains (c.qp, c.entry.id, 0, r) = false → ∃ u, exec (.commandComplete seq t) s = .next u ∧ (∀ x ∈ u.cmds, x.seq ≠ seq) ∧
      (∃ a ∈ u.jrn.accesses, a.kind = .update seq st ∧ a.addr = s.jrn.recAddr seq + 0x1A) ∧
      ∃ e ∈ (u.qp c.qp).queue, e.cmdId = c.entry.id ∧ e.status = st ∧ e.result = r ∧ e.gate = some seq) ∧
  (∀ (s : State) (q : Fin 64) (t n : Nat) (e : CEntry) (es : List CEntry), (s.qp q.val).queue = e :: es → e.gate = some n → e.kind ≠ 2 →
    exec (.completionEntryWrite q t) s = .next (s.at_ t)) ∧
  (∀ (s : State) (seq t f a : Nat), s.jrn.accesses = [{ kind := .update seq f, addr := a, waitUs := 0, until_ := none }] →
    (s.at_ t).writeOpen = true → (s.at_ t).mayOutput = true → (∀ p ∈ s.qps, ∀ e ∈ p.2.queue, s.pairAcked e.ann = true) →
    ∃ u, exec (.journalUpdateComplete (some seq) true t) s = .next u ∧
      .busWrite a (leBytes 1 2 ++ leBytes 1 f) ∈ u.out ∧
      ∀ q, ∀ e ∈ (u.qp q).queue, e.gate ≠ some seq)

/-- The oldest waiting entry of a queue pair, once its record is updated and a slot is free, is written as one 32-byte write
at the ring's base plus 32 times the tail; its last byte is the phase bit. The tail advances modulo the ring size and the
phase bit inverts at each wrap. An entry that a takeover writes again goes to its own slot with its own phase and moves no
tail; while the ring is full nothing else is written. The head shown passes no entry still being accepted. A notice that
waits while HQF 1.0 is agreed is not written. A batch record written after its due position carries ST_LATE where no status
before it applies. (Rests on 03_host_queues.md R62, R68, R79, R80, 02_beat_schedule_graphs.md R48.) -/
def Obligations.CompletionEntriesGoToTheRing : Prop :=
  (∀ (s : State) (q : Fin 64) (t : Nat) (e : CEntry) (es : List CEntry), (s.qp q.val).queue = e :: es → e.kind ≠ 1 →
    (s.at_ t).entryReady q.val e = true → (s.at_ t).mayOutput = true → (e.kind = 2 → s.hqf11 = true) →
    ∃ u, exec (.completionEntryWrite q t) s = .next u ∧ (u.qp q.val).queue = es ∧
      (e.slot = none →
        .busWrite ((s.qp q.val).cqBase.val.toNat + 32 * (s.qp q.val).cqTail)
          ((s.headed q.val (e.final (s.at_ t).pos)).bytes (s.at_ t).pos (s.shownHead q.val) (s.qp q.val).phase) ∈ u.out ∧
        (u.qp q.val).cqTail = ((s.qp q.val).cqTail + 1) % (s.qp q.val).cqSize ∧
        (u.qp q.val).phase = (if ((s.qp q.val).cqTail + 1) % (s.qp q.val).cqSize = 0 then !(s.qp q.val).phase else (s.qp q.val).phase)) ∧
      (∀ n ph, e.slot = some (n, ph) →
        .busWrite ((s.qp q.val).cqBase.val.toNat + 32 * n) ((e.final (s.at_ t).pos).bytes (s.at_ t).pos (s.shownHead q.val) ph) ∈ u.out ∧
        (u.qp q.val).cqTail = (s.qp q.val).cqTail ∧ (u.qp q.val).phase = (s.qp q.val).phase)) ∧
  (∀ (s : State) (q : Fin 64) (t : Nat), ((s.qp q.val).cqTail + 1) % (s.qp q.val).cqSize = (s.qp q.val).cqHead →
    (∀ e ∈ (s.qp q.val).queue, e.slot = none) →
    (s.hqf11 = true ∨ ∀ e ∈ (s.qp q.val).queue, e.kind ≠ 2) → exec (.completionEntryWrite q t) s = .next (s.at_ t)) ∧
  (∀ (s : State) (q : Fin 64) (t : Nat) (e : CEntry) (es : List CEntry), (s.qp q.val).queue = e :: es → e.kind = 2 → s.hqf11 = false →
    exec (.completionEntryWrite q t) s = .next ((s.at_ t).modQp q.val fun x => { x with queue := es })) ∧
  (∀ (e : CEntry) (pos head : Nat) (ph : Bool), (e.bytes pos head ph).length = 32 ∧ (e.bytes pos head ph)[31]? = some (if ph then 1 else 0)) ∧
  (∀ (e : CEntry) (pos : Nat), (e.final pos).status = (if e.status = 0 ∧ (∃ d, e.due = some d ∧ d < pos) then 0x03 else e.status))

/-- When the moderation timer of a queue pair with unsignalled entries expires, its MSI-X message is sent in D0 and the count
starts anew; a masked vector's message is left pending; outside D0 the condition is held and no message goes out. (Rests on
03_host_queues.md R98, R100, R101, 14_event_controller.md R422.) -/
def Obligations.ModerationTimerRaisesOrHolds : Prop :=
  ∀ (s : State) (q : Fin 64) (t x : Nat), (s.qp q.val).timer = some x → x ≤ max s.now t → (s.qp q.val).unsig ≠ 0 →
    (s.pci.dstate = .d0 → (s.at_ t).mayOutput = true → s.msixOpen (s.qp q.val).vector = true →
      ∃ u, exec (.moderationTimerExpire q t) s = .next u ∧ u.out = .msix (s.qp q.val).vector :: s.out ∧ (u.qp q.val).unsig = 0 ∧
        (u.qp q.val).timer = none) ∧
    (s.pci.dstate = .d0 → (s.at_ t).mayOutput = true → s.msixOpen (s.qp q.val).vector = false →
      ∃ u, exec (.moderationTimerExpire q t) s = .next u ∧ u.out = s.out ∧ tget false u.pci.msixPend (s.qp q.val).vector = true) ∧
    (s.pci.dstate ≠ .d0 → ∃ u, exec (.moderationTimerExpire q t) s = .next u ∧ (u.qp q.val).irqHeld = true ∧
      (u.qp q.val).unsig = (s.qp q.val).unsig ∧ (∀ v, .msix v ∈ u.out → .msix v ∈ s.out))

/-- GO adopts base and size, clears READY, starts the walk at the adopted base and loses no abandoned command that is still
to be reported; while a queue pair is enabled a changed size is dropped and counted, and GO acts all the same. A walk without
SCAN ends with READY set, abandons nothing, and the sequence starts at 1. With 2^SIZE_LOG2 records between retire point and
next SEQ no further command is accepted. The control line is rewritten at the latest 1 ms after the retire point has moved.
(Rests on 03_host_queues.md R86, R87, R89, R90, 00_scope.md R9, R539.) -/
def Obligations.JournalAdoptedWalkedAndRewritten : Prop :=
  (∀ (s : State) (m : Master) (t : Nat), s.pair.roleNow ≠ 2 → ∃ u, exec (.journalGo m t) s = .next u ∧
    u.jrn.ready = false ∧ u.jrn.walking = true ∧ u.jrn.actBase = s.jrn.base.val.toNat ∧ u.jrn.actLog2 = clampLog 10 20 s.jrn.sizeLog2 ∧
    (∃ l, u.jrn.accesses = l ++ [{ kind := .walk, addr := s.jrn.base.val.toNat, waitUs := 0, until_ := none }] ∧ ∀ a ∈ l, a ∈ s.jrn.accesses) ∧
    u.jrn.owed = s.jrn.owed) ∧
  (∀ (s : State) (v : Nat), (∃ p ∈ s.qps, p.2.enable = true) → v < 2 ^ 31 → v % 32 ≠ s.jrn.sizeLog2 →
    exec (.registerWrite 0 0x14008 v 4) s = .next (s.reject 0x14008 0) ∧
    exec (.registerWrite 0 0x14008 (v + 2 ^ 31) 4) s = .next (s.reject 0x14008 0).journalGo) ∧
  (∀ (s : State) (t : Nat) (a : JAccess), s.jrn.access .walk = some a → (s.at_ t).writeOpen = true → s.pairAcked a.ann = true → s.jrn.scan = false →
    ∃ u, exec (.journalWalkComplete ⟨[], [], []⟩ t) s = .next u ∧ u.jrn.ready = true ∧ u.jrn.walking = false ∧ u.jrn.tail = 1 ∧
      u.jrn.retire = 1 ∧ u.jrn.scanInvalid = false ∧ u.jrn.owed = s.jrn.owed) ∧
  (∀ (s : State) (t : Nat), s.jrn.sinceCtl ≠ 0 → s.jrn.ctlAt + 1000000 ≤ t → s.shadows = false → (∀ a ∈ s.jrn.accesses, a.kind ≠ .control) →
    ∃ u, exec (.journalControlLineTimer t) s = .next u ∧
      u.jrn.accesses = s.jrn.accesses ++ [{ kind := .control, addr := s.jrn.actBase, waitUs := 0, until_ := none }]) ∧
  (∀ (s : State), s.jrn.ready = true → s.jrn.retire + 2 ^ s.jrn.actLog2 ≤ s.jrn.tail → s.mayAccept = false)

/-- A command with ORDERED begins only after every command accepted earlier on its queue pair has completed, and a setup
command only after every setup command accepted earlier on any queue pair has ended: until then no command of the command
table changes anything. (States R70, R72.) -/
def Obligations.CommandsWaitTheirTurn : Prop :=
  ∀ (s : State) (seq : Nat) (c d : Cmd), s.cmd seq = some c → d ∈ s.cmds → d.seq < seq → c.seq = seq →
    ((c.entry.ordered = true ∧ d.qp = c.qp) ∨
      (1 ≤ c.entry.opcode ∧ c.entry.opcode ≤ 6 ∧ 1 ≤ d.entry.opcode ∧ d.entry.opcode ≤ 6 ∧ ∀ st r, d.phase ≠ .finished st r)) →
    exec (.detachTable seq) s = .next s ∧ exec (.unloadGraph seq) s = .next s ∧ exec (.closeStream seq) s = .next s ∧
    exec (.setEpoch seq) s = .next s ∧ exec (.run seq) s = .next s ∧ exec (.cancel seq) s = .next s ∧ exec (.fence seq) s = .next s ∧
    (∀ x : FileIn, exec (.attachTable seq ⟨[], [], []⟩ x) s = .next s) ∧
    (∀ v sage toks decls, exec (.loadGraph seq ⟨[], [], []⟩ v sage toks decls) s = .next s) ∧
    (∀ src, exec (.openStream seq ⟨[], [], []⟩ src) s = .next s) ∧ exec (.query seq ⟨[], [], []⟩) s = .next s ∧
    (∀ t, exec (.warmRestart seq t) s = .next (s.at_ t))

/-- UNLOAD_GRAPH with no open stream unloads the graph and answers its id; with a stream open it answers ST_BUSY and changes
nothing. DETACH_TABLE of a table that no open stream reads removes that table alone; of one that a stream reads it answers
ST_BUSY. (Rests on 03_host_queues.md R73, 02_beat_schedule_graphs.md R59.) -/
def Obligations.UnloadAndDetach : Prop :=
  (∀ (s : State) (seq : Nat) (c : Cmd) (g : Graph), Begins s seq 4 c → s.work.graph = some g →
    (AllClosed s → ∃ u, exec (.unloadGraph seq) s = .next u ∧ u.work.graph = none ∧ Decided u seq 0 g.id ∧ u.work.tables = s.work.tables) ∧
    (¬ AllClosed s → ∃ u, exec (.unloadGraph seq) s = .next u ∧ u.work = s.work ∧ Decided u seq 0x13 0)) ∧
  (∀ (s : State) (seq : Nat) (c : Cmd), Begins s seq 2 c →
    ((∃ x, (c.entry.p 0, x) ∈ s.work.tables) → s.tableRead (c.entry.p 0) = false → ∃ u, exec (.detachTable seq) s = .next u ∧
      Decided u seq 0 0 ∧ (∀ x, (c.entry.p 0, x) ∉ u.work.tables) ∧
      (∀ i, i ≠ c.entry.p 0 → tget {} u.work.tables i = tget {} s.work.tables i)) ∧
    ((∃ x, (c.entry.p 0, x) ∈ s.work.tables) → s.tableRead (c.entry.p 0) = true → ∃ u, exec (.detachTable seq) s = .next u ∧
      Decided u seq 0x13 0 ∧ u.work = s.work))

/-- A RUN on an open stream extends its run limit by BATCHES and stays outstanding up to that limit, and touches no other
stream; on a stream that is not open, a closing one among them, it answers ST_BAD_DESCRIPTOR, and so does SET_EPOCH.
SET_EPOCH for a batch from the first not begun on adds (or replaces) the mark of that batch and keeps the others; for one
below it answers ST_LIMIT. (Rests on 03_host_queues.md R73, R74, 09_intake_and_shuffle.md R282.) -/
def Obligations.RunsAndEpochsExtendAStream : Prop :=
  (∀ (s : State) (seq : Nat) (c : Cmd), Begins s seq 8 c → (s.stream c.entry.stream).phase = .open_ → (s.stream c.entry.stream).stop = none →
    ∃ u, exec (.run seq) s = .next u ∧ (u.stream c.entry.stream).runLimit = (s.stream c.entry.stream).runLimit + c.entry.p 0 ∧
      (u.stream c.entry.stream).runs = (s.stream c.entry.stream).runs ++
        [{ seq := seq, last := (s.stream c.entry.stream).runLimit + c.entry.p 0, count := 0, cancelled := false }] ∧
      (∃ d, u.cmd seq = some d ∧ d.phase = .executing) ∧ ∀ n, n ≠ c.entry.stream → u.stream n = s.stream n) ∧
  (∀ (s : State) (seq : Nat) (c : Cmd), Begins s seq 8 c → (s.stream c.entry.stream).phase ≠ .open_ →
    ∃ u, exec (.run seq) s = .next u ∧ Decided u seq 0x10 0 ∧ u.work = s.work) ∧
  (∀ (s : State) (seq : Nat) (c : Cmd), Begins s seq 7 c → (s.stream c.entry.stream).phase = .open_ →
    ((s.stream c.entry.stream).firstUnbegun ≤ c.entry.p 1 → ∃ u, exec (.setEpoch seq) s = .next u ∧ Decided u seq 0 0 ∧
      (u.stream c.entry.stream).marks = setMark (c.entry.p 1) (c.entry.p 0) (s.stream c.entry.stream).marks) ∧
    (c.entry.p 1 < (s.stream c.entry.stream).firstUnbegun → ∃ u, exec (.setEpoch seq) s = .next u ∧ Decided u seq 0x12 0 ∧ u.work = s.work)) ∧
  (∀ (s : State) (seq : Nat) (c : Cmd), Begins s seq 7 c → (s.stream c.entry.stream).phase ≠ .open_ →
    ∃ u, exec (.setEpoch seq) s = .next u ∧ Decided u seq 0x10 0 ∧ u.work = s.work) ∧
  (∀ (f e : Nat) (l : List (Nat × Nat)), (f, e) ∈ setMark f e l ∧ ∀ m ∈ l, m.1 ≠ f → m ∈ setMark f e l)

/-- CLOSE_STREAM of an open stream takes it out of the open state, empties its armed slot and lets no batch from the first
that has not begun on run; of a stream that is not open it answers ST_BAD_DESCRIPTOR. CANCEL without a target completes with
ST_OK and RESULT 0; of a command that has not begun it ends that command with ST_CANCELLED and itself with ST_OK and the in-
flight bit. FENCE completes when every command accepted before it, on its queue pair or on all, has completed, and until then
does nothing. (Rests on 03_host_queues.md R76, R94, R95, R97.) -/
def Obligations.CloseCancelAndFence : Prop :=
  (∀ (s : State) (seq : Nat) (c : Cmd), Begins s seq 6 c → (s.stream c.entry.stream).phase = .open_ →
    ∃ u, exec (.closeStream seq) s = .next u ∧ (u.stream c.entry.stream).phase ≠ .open_ ∧ (u.stream c.entry.stream).armed = none ∧
      (u.stream c.entry.stream).runLimit ≤ (s.stream c.entry.stream).firstUnbegun) ∧
  (∀ (s : State) (seq : Nat) (c : Cmd), Begins s seq 6 c → (s.stream c.entry.stream).phase ≠ .open_ →
    ∃ u, exec (.closeStream seq) s = .next u ∧ Decided u seq 0x10 0) ∧
  (∀ (s : State) (seq : Nat) (c : Cmd), Begins s seq 9 c → s.cancelTarget c = none →
    ∃ u, exec (.cancel seq) s = .next u ∧ Decided u seq 0 0 ∧ u.work = s.work) ∧
  (∀ (s : State) (seq : Nat) (c x : Cmd), Begins s seq 9 c → s.cancelTarget c = some x → x.phase = .accepted → x.seq ≠ seq →
    ∃ u, exec (.cancel seq) s = .next u ∧ Decided u x.seq 0x02 0 ∧ Decided u seq 0 (2 ^ 63) ∧ u.work = s.work) ∧
  (∀ (s : State) (seq : Nat) (c : Cmd), Begins s seq 10 c →
    (∀ d ∈ s.cmds, d.seq < seq → c.entry.p 0 % 2 = 0 ∧ d.qp ≠ c.qp) → ∃ u, exec (.fence seq) s = .next u ∧ Decided u seq 0 0 ∧ u.work = s.work) ∧
  (∀ (s : State) (seq : Nat) (c d : Cmd), s.cmd seq = some c → d ∈ s.cmds → d.seq < seq → (c.entry.p 0 % 2 = 1 ∨ d.qp = c.qp) →
    exec (.fence seq) s = .next s)

/-- QUERY of a KIND that has a block, with room for it, writes the block at the operand's address and answers its length;
with too little room, or of an unknown KIND, it answers ST_LIMIT and writes nothing. WARM_RESTART with no DMA descriptor
begun and not ended completes with ST_OK and keeps the journal's sequence counter, retire point and accesses, the duplicate
windows and HBM. ATTACH_TABLE of an attached id, where it may read its list, answers ST_BUSY. (Rests on 03_host_queues.md
R77, R78, R88, R541, 16_reliability.md R543.) -/
def Obligations.QueryWarmRestartAndAttach : Prop :=
  (∀ (s : State) (seq : Nat) (c : Cmd) (bs : Bytes), Begins s seq 11 c → s.writeOpen = true → s.mayOutput = true → c.entry.aspace = 0 →
    (s.modCmd seq fun x => { x with phase := .executing }).queryBlock c.entry = some bs → bs.length ≤ c.entry.len0 →
    ∃ u, exec (.query seq ⟨[], [], []⟩) s = .next u ∧ Decided u seq 0 bs.length ∧ u.out = .busWrite c.entry.addr0 bs :: s.out ∧ u.work = s.work) ∧
  (∀ (s : State) (seq : Nat) (c : Cmd), Begins s seq 11 c → s.writeOpen = true →
    (∀ bs, (s.modCmd seq fun x => { x with phase := .executing }).queryBlock c.entry = some bs → c.entry.len0 < bs.length) →
    ∃ u, exec (.query seq ⟨[], [], []⟩) s = .next u ∧ Decided u seq 0x12 0 ∧ u.out = s.out) ∧
  (∀ (s : State) (seq t : Nat) (c : Cmd), Begins (s.at_ t) seq 12 c → (∀ p ∈ s.mem.chans, p.2.begun = false) →
    ∃ u, exec (.warmRestart seq t) s = .next u ∧ Decided u seq 0 0 ∧ u.jrn.tail = s.jrn.tail ∧ u.jrn.retire = s.jrn.retire ∧
      u.jrn.completed = s.jrn.completed ∧ u.jrn.accesses = s.jrn.accesses ∧ u.mem.hbm = s.mem.hbm ∧
      ∀ q, (u.qp q).window = (s.qp q).window) ∧
  (∀ (s : State) (seq : Nat) (e : BusEnv) (x : FileIn) (c : Cmd), Begins (s.env e) seq 1 c → (c.entry.aspace = 0 → s.inD0 = true) →
    (∃ y, (c.entry.p 0 % 65536, y) ∈ s.work.tables) →
    ∃ u, exec (.attachTable seq e x) s = .next u ∧ Decided u seq 0x13 0 ∧ u.work = s.work)

/-- With a graph loaded, LOAD_GRAPH (in D0, of an image in host memory) answers ST_BUSY; when the image cannot be read,
ST_BUS_ERROR; an image with a bad magic, header size or total answers ST_BAD_DESCRIPTOR; any failing check leaves no graph.
An image that passes is loaded with ST_OK, its GRAPH_ID, and the chosen variant as RESULT, whose configuration the device
reports. (Rests on 02_beat_schedule_graphs.md R31, R55, R58, 03_host_queues.md R73.) -/
def Obligations.GraphLoadsOrAnswersItsFirstFailure : Prop :=
  ∀ (s : State) (seq : Nat) (e : BusEnv) (v : Bool) (sage : List (Nat × Nat × Nat × Nat)) (toks : List TokDecl) (preps : List PrepDecl)
    (ops : OpDecls) (c : Cmd),
    Begins (s.env e) seq 3 c → c.entry.aspace = 0 → s.inD0 = true → seq < 2 ^ 64 → s.anyStackOff = false →
    (s.work.graph ≠ none → ∃ u, exec (.loadGraph seq e v sage toks ⟨preps, ops⟩) s = .next u ∧ Decided u seq 0x13 0 ∧ u.work = s.work) ∧
    (s.work.graph = none → envFails e c.entry.addr0 c.entry.len0 = true →
      ∃ u, exec (.loadGraph seq e v sage toks ⟨preps, ops⟩) s = .next u ∧ Decided u seq 0x20 0 ∧ u.work = s.work) ∧
    (s.work.graph = none → envFails e c.entry.addr0 c.entry.len0 = false →
      let img := readBytes (s.env e).mem.bus c.entry.addr0 c.entry.len0
      let k := (Begun (s.env e) seq).checkImage img c sage toks preps ops v
      (headBad (parseHead img) img.length = true → ∃ u, exec (.loadGraph seq e v sage toks ⟨preps, ops⟩) s = .next u ∧ Decided u seq 0x10 0 ∧
        u.work.graph = none) ∧
      (∀ st r, k = (st, r, none) → ∃ u, exec (.loadGraph seq e v sage toks ⟨preps, ops⟩) s = .next u ∧ u.work.graph = none ∧
        ∃ r', Decided u seq st r') ∧
      (∀ r g, k = (0, r, some g) → ∃ u, exec (.loadGraph seq e v sage toks ⟨preps, ops⟩) s = .next u ∧ u.work.graph = some g ∧ Decided u seq 0 r ∧
        g.id = fieldAt img 24 8 ∧ g.variant = r ∧ (Begun (s.env e) seq).fits (g.cfgOf r) = true))

/-- In D0, OPEN_STREAM of a stream number the graph does not have answers ST_BAD_DESCRIPTOR, of one in use ST_BUSY, and with
an unreadable slot ring ST_BUS_ERROR. When ring, outputs, source and limits pass and the stream needs no table stage, it
answers ST_OK and the stream is open with batch 0 next, run limit 0, no stop unless a program fault of the graph forbids
every further batch, the given origin, seed, epoch, slots and slot size, and its source's rows. (Rests on 03_host_queues.md
R71, R73, R74, 04_types_and_layout.md R116, 09_intake_and_shuffle.md R282.) -/
def Obligations.OpenedStreamStartsAtBatchZero : Prop :=
  ∀ (s : State) (seq src : Nat) (e : BusEnv) (c : Cmd) (g : Graph), Begins (s.env e) seq 5 c → s.inD0 = true → s.work.graph = some g →
    let n := c.entry.stream
    (g.streams ≤ n → ∃ u, exec (.openStream seq e src) s = .next u ∧ Decided u seq 0x10 0 ∧ u.work = s.work) ∧
    (n < g.streams → (s.stream n).phase ≠ .closed → ∃ u, exec (.openStream seq e src) s = .next u ∧ Decided u seq 0x13 0 ∧ u.work = s.work) ∧
    (n < g.streams → (s.stream n).phase = .closed → envFails e (c.entry.p 3) (16 * c.entry.p 4) = true →
      ∃ u, exec (.openStream seq e src) s = .next u ∧ Decided u seq 0x20 0 ∧ (u.stream n).phase = .closed) ∧
    (n < g.streams → (s.stream n).phase = .closed → envFails e (c.entry.p 3) (16 * c.entry.p 4) = false → s.fits g.cfg = true →
      let ring := recs (readBytes (s.env e).mem.bus (c.entry.p 3) (16 * c.entry.p 4)) 0 16 (c.entry.p 4)
      (∀ r ∈ ring, ringBad s (c.entry.p 5) r = false ∧ fieldAt r 0 8 % 4096 = 0) → outBeyond g n (c.entry.p 5) = false →
      srcBad s g n src = false → srcLimit s g n src = false → g.stagesFor n src = [] → bitOf src 12 = false →
      (tget {} s.work.tables (src % 4096)).format = 3 → (tget {} s.work.tables (src % 4096)).rows ≠ 0 →
      (∀ k < 16, ∀ x ∈ (s.disp k).slots, x.2.stream = n → x.2.batch ≠ none) →
      ∃ u, exec (.openStream seq e src) s = .next u ∧ Decided u seq 0 0 ∧ (u.stream n).phase = .open_ ∧ (u.stream n).batches = [] ∧ (u.stream n).firstUnbegun = 0 ∧
        (u.stream n).runLimit = 0 ∧ (u.stream n).released = 0 ∧ (u.stream n).anchors = [(c.entry.p 0, 0)] ∧ (u.stream n).seed = c.entry.p 1 ∧
        (u.stream n).marks = [(0, c.entry.p 2)] ∧ (u.stream n).slotBytes = c.entry.p 5 ∧ (u.stream n).slots = ring.map parseRing ∧
        (u.stream n).rows = (tget {} s.work.tables (src % 4096)).rows ∧ (g.faulted = false → (u.stream n).stop = none))

/-- ATTACH_TABLE of a FORMAT 3 table with a free id and its extent list in host memory, in D0: an unreadable list answers
ST_BUS_ERROR, a malformed extent ST_BAD_DESCRIPTOR, both without effect on the tables; when the extents lie on the bus and
the header and descriptors pass, it answers ST_OK with the id, that id reads as the table, and no other id changes. (Rests on
03_host_queues.md R541, 04_types_and_layout.md R127.) -/
def Obligations.BlockedTableAttaches : Prop :=
  ∀ (s : State) (seq : Nat) (e : BusEnv) (x : FileIn) (c : Cmd), Begins (s.env e) seq 1 c → c.entry.aspace = 0 → s.inD0 = true →
    bitsOf (c.entry.p 0) 23 16 = 3 → (∀ y, (c.entry.p 0 % 65536, y) ∉ s.work.tables) →
    (envFails e c.entry.addr0 (16 * c.entry.len0) = true → ∃ u, exec (.attachTable seq e x) s = .next u ∧ Decided u seq 0x20 0 ∧ u.work = s.work) ∧
    (envFails e c.entry.addr0 (16 * c.entry.len0) = false →
      let es := recs (readBytes (s.env e).mem.bus c.entry.addr0 (16 * c.entry.len0)) 0 16 c.entry.len0
      ((∃ b ∈ es, extBad s b = true) → ∃ u, exec (.attachTable seq e x) s = .next u ∧ Decided u seq 0x10 0 ∧ u.work = s.work) ∧
      (∀ t, (∀ b ∈ es, extBad s b = false) → (∀ y ∈ es.map parseExt, y.space = .bus) → (s.env e).attachBlocked e (es.map parseExt) = (0, t) →
        ∃ u, exec (.attachTable seq e x) s = .next u ∧ Decided u seq 0 (c.entry.p 0 % 65536) ∧
          tget {} u.work.tables (c.entry.p 0 % 65536) = { t with entry := some c.entry } ∧
          ∀ i, i ≠ c.entry.p 0 % 65536 → tget {} u.work.tables i = tget {} s.work.tables i))

/-- For the next word of a program, every integer type (DATE32 and TS_US as INT32 and INT64), every executed lane and all
operands: ADD, SUB, MUL, NEG and ABS give the exact result modulo 2^(8s) when SAT is 0, and under SAT the result clamped to
the type's range with the SAT flag raised where it was outside; MULH gives the upper 8s bits of the exact product, signed or
unsigned by TYPE. (States R145.) -/
def Obligations.IntegerLanesWrapOrClamp : Prop :=
  ∀ (s : State) (id : EngineId) (f : Fields) (t : LTy) (i a : Nat), isIntTy f.ty.val = true → laneTy f.ty.val = some t →
    i < 32 / t.size → LaneOn s id f i → laneIn s id t.size f.va.val i = some a →
    Takes (.neg id f) s id f.vd.val t.size i (some (fitted t f.sat (-laneInt t a)).1) (fitted t f.sat (-laneInt t a)).2 ∧
    Takes (.abs id f) s id f.vd.val t.size i (some (fitted t f.sat (laneInt t a).natAbs).1) (fitted t f.sat (laneInt t a).natAbs).2 ∧
    ∀ b, laneIn s id t.size f.vb.val i = some b →
      Takes (.add id f) s id f.vd.val t.size i (some (fitted t f.sat (laneInt t a + laneInt t b)).1) (fitted t f.sat (laneInt t a + laneInt t b)).2 ∧
      Takes (.sub id f) s id f.vd.val t.size i (some (fitted t f.sat (laneInt t a - laneInt t b)).1) (fitted t f.sat (laneInt t a - laneInt t b)).2 ∧
      Takes (.mul id f) s id f.vd.val t.size i (some (fitted t f.sat (laneInt t a * laneInt t b)).1) (fitted t f.sat (laneInt t a * laneInt t b)).2 ∧
      Takes (.mulh id f) s id f.vd.val t.size i (some (wrapN (8 * t.size) (laneInt t a * laneInt t b / 2 ^ (8 * t.size)))) 0

/-- For the next word of a program, every integer type, executed lane and operands: DIV truncates toward zero and REM is a -
b x DIV(a, b); DIVF rounds toward minus infinity and MODF is a - b x DIVF(a, b). A division by 0 makes the lane invalid and
raises DZ. Signed minimum divided by -1 gives the minimum with OF when SAT is 0, the maximum with SAT when SAT is 1, and 0
under REM and MODF. (States R146.) -/
def Obligations.DivisionLanes : Prop :=
  ∀ (s : State) (id : EngineId) (f : Fields) (t : LTy) (i a b : Nat), isIntTy f.ty.val = true → laneTy f.ty.val = some t →
    i < 32 / t.size → LaneOn s id f i → laneIn s id t.size f.va.val i = some a → laneIn s id t.size f.vb.val i = some b →
    let x := laneInt t a
    let y := laneInt t b
    let n := 8 * t.size
    (y = 0 → Takes (.div id f) s id f.vd.val t.size i none 2 ∧ Takes (.rem id f) s id f.vd.val t.size i none 2 ∧
      Takes (.divf id f) s id f.vd.val t.size i none 2 ∧ Takes (.modf id f) s id f.vd.val t.size i none 2) ∧
    (t.kind.signed = true → x = tyMin t → y = -1 →
      (f.sat = false → Takes (.div id f) s id f.vd.val t.size i (some (wrapN n (tyMin t))) 4 ∧
        Takes (.divf id f) s id f.vd.val t.size i (some (wrapN n (tyMin t))) 4) ∧
      (f.sat = true → Takes (.div id f) s id f.vd.val t.size i (some (wrapN n (tyMax t))) 32 ∧
        Takes (.divf id f) s id f.vd.val t.size i (some (wrapN n (tyMax t))) 32) ∧
      Takes (.rem id f) s id f.vd.val t.size i (some 0) 0 ∧ Takes (.modf id f) s id f.vd.val t.size i (some 0) 0) ∧
    (y ≠ 0 → ¬ (t.kind.signed = true ∧ x = tyMin t ∧ y = -1) →
      Takes (.div id f) s id f.vd.val t.size i (some (wrapN n (x.tdiv y))) 0 ∧
      Takes (.rem id f) s id f.vd.val t.size i (some (wrapN n (x - y * x.tdiv y))) 0 ∧
      Takes (.divf id f) s id f.vd.val t.size i (some (wrapN n (x.fdiv y))) 0 ∧
      Takes (.modf id f) s id f.vd.val t.size i (some (wrapN n (x - y * x.fdiv y))) 0)

/-- For the next word of a program, every integer type, executed lane and operands: SHL, SHR, SAR and ROTL by the count taken
from the VB lane, or from IMM[5:0] when SUB bit 0 is 1, modulo 8s, SHR filling with zeros and SAR with the sign; CLZ, CTZ (8s
for 0) and POPC count bits; AND, OR, XOR, ANDN and NOT act bit by bit. On BOOL the bitwise words first read every operand as
0 or 1 and answer 0 or 1. (States R147.) -/
def Obligations.ShiftAndBitLanes : Prop :=
  (∀ (s : State) (id : EngineId) (f : Fields) (t : LTy) (i a c : Nat), isIntTy f.ty.val = true → laneTy f.ty.val = some t →
    i < 32 / t.size → LaneOn s id f i → laneIn s id t.size f.va.val i = some a →
    (f.sub.val % 2 = 1 ∧ c = f.imm.val % 64 % (8 * t.size) ∨
      f.sub.val % 2 = 0 ∧ ∃ b, laneIn s id t.size f.vb.val i = some b ∧ c = b % (8 * t.size)) →
    Takes (.shl id f) s id f.vd.val t.size i (some (a * 2 ^ c % 2 ^ (8 * t.size))) 0 ∧
    Takes (.shr id f) s id f.vd.val t.size i (some (a / 2 ^ c)) 0 ∧
    Takes (.sar id f) s id f.vd.val t.size i (some (wrapN (8 * t.size) (sInt (8 * t.size) a / 2 ^ c))) 0 ∧
    Takes (.rotl id f) s id f.vd.val t.size i (some ((a * 2 ^ c + a / 2 ^ (8 * t.size - c)) % 2 ^ (8 * t.size))) 0) ∧
  (∀ (s : State) (id : EngineId) (f : Fields) (t : LTy) (i a : Nat), isIntTy f.ty.val = true → laneTy f.ty.val = some t →
    i < 32 / t.size → LaneOn s id f i → laneIn s id t.size f.va.val i = some a →
    (a = 0 → Takes (.clz id f) s id f.vd.val t.size i (some (8 * t.size)) 0 ∧ Takes (.ctz id f) s id f.vd.val t.size i (some (8 * t.size)) 0) ∧
    (∀ h m, a = 2 ^ h + m → m < 2 ^ h → Takes (.clz id f) s id f.vd.val t.size i (some (8 * t.size - 1 - h)) 0) ∧
    (∀ h m, a = 2 ^ h * (2 * m + 1) → Takes (.ctz id f) s id f.vd.val t.size i (some h) 0) ∧
    Takes (.popc id f) s id f.vd.val t.size i (some ((List.range (8 * t.size)).filter fun j => a.testBit j).length) 0 ∧
    Takes (.not id f) s id f.vd.val t.size i (some (2 ^ (8 * t.size) - 1 - a)) 0 ∧
    ∀ b, laneIn s id t.size f.vb.val i = some b →
      Takes (.and id f) s id f.vd.val t.size i (some (a &&& b)) 0 ∧ Takes (.or id f) s id f.vd.val t.size i (some (a ||| b)) 0 ∧
      Takes (.xor id f) s id f.vd.val t.size i (some (a ^^^ b)) 0 ∧
      Takes (.andn id f) s id f.vd.val t.size i (some (a &&& (2 ^ (8 * t.size) - 1 - b))) 0) ∧
  (∀ (s : State) (id : EngineId) (f : Fields) (i a : Nat), f.ty.val = 1 → i < 32 → LaneOn s id f i →
    laneIn s id 1 f.va.val i = some a →
    Takes (.not id f) s id f.vd.val 1 i (some (b2n (a == 0))) 0 ∧
    ∀ b, laneIn s id 1 f.vb.val i = some b →
      Takes (.and id f) s id f.vd.val 1 i (some (b2n (a != 0 && b != 0))) 0 ∧ Takes (.or id f) s id f.vd.val 1 i (some (b2n (a != 0 || b != 0))) 0 ∧
      Takes (.xor id f) s id f.vd.val 1 i (some (b2n ((a != 0) != (b != 0)))) 0 ∧
      Takes (.andn id f) s id f.vd.val 1 i (some (b2n (a != 0 && b == 0))) 0)

/-- For the next word of a program on FP16, BF16, FP32 and FP64, in every executed lane: an arithmetic word with a NaN
operand gives the canonical NaN; ABS and NEG clear and invert the sign bit whatever the operand; MIN, MAX and CLAMP pass over
a NaN and order -0 below +0; 0 / 0 is a NaN with INV; SQRT, TANH, ERF and LOG1P keep -0; the reciprocals and the logarithm of
-0 give minus infinity with DZ; minus infinity gives +0 under EXP and SIGM, -0 under RCP, and a NaN with INV under SQRT,
RSQRT, LOG and LOG1P. Every one of these words completes with a valid lane. Where FMA, LOG1P, CLAMP or MOV computes a
normalisation, a NaN lane instead becomes null under NAN_MODE NULL and FILL under FILL, and the lanes that NAN_MODE decides
are counted in QRN_NAN_INPUTS; a ZSCORE with standard deviation 0 gives +0. (Rests on 05_engine_arithmetic.md R142, R143,
R144, 06_relational_operators.md R207.) -/
def Obligations.FloatingPointLanes : Prop :=
  (∀ (s : State) (id : EngineId) (f : Fields) (t : LTy) (fm : FpFmt) (i a : Nat), isFltTy f.ty.val = true →
    laneTy f.ty.val = some t → t.kind = .flt fm → i < 32 / t.size → LaneOn s id f i → laneIn s id t.size f.va.val i = some a →
    let one_ := fun c r fl => Takes c s id f.vd.val t.size i (some r) fl
    (∀ c ∈ [Instr.sqrt id f, .exp id f, .log id f, .log1p id f, .tanh id f, .sigm id f, .erf id f, .rsqrt id f, .rcp id f],
      c ≠ .log1p id f ∨ s.normAt id 0x3A = none → (fm.isNan a = true → one_ c fm.nanCode 0) ∧ Ends c s fun u => (u.engine (engineNo id)).isValid f.vd.val i = true) ∧
    one_ (.abs id f) (a % fm.signBit) 0 ∧ one_ (.neg id f) (a ^^^ fm.signBit) 0 ∧
    (a = fm.signBit → one_ (.sqrt id f) fm.signBit 0 ∧ one_ (.tanh id f) fm.signBit 0 ∧ one_ (.erf id f) fm.signBit 0 ∧
      (s.normAt id 0x3A = none → one_ (.log1p id f) fm.signBit 0) ∧
      one_ (.rcp id f) (fm.infCode true) 2 ∧ one_ (.rsqrt id f) (fm.infCode true) 2 ∧ one_ (.log id f) (fm.infCode true) 2) ∧
    (a = fm.infCode true → one_ (.exp id f) 0 0 ∧ one_ (.sigm id f) 0 0 ∧ one_ (.rcp id f) fm.signBit 0 ∧ one_ (.log id f) fm.nanCode 1 ∧
      one_ (.sqrt id f) fm.nanCode 1 ∧ one_ (.rsqrt id f) fm.nanCode 1 ∧ (s.normAt id 0x3A = none → one_ (.log1p id f) fm.nanCode 1))) ∧
  (∀ (s : State) (id : EngineId) (f : Fields) (t : LTy) (fm : FpFmt) (i a b : Nat), isFltTy f.ty.val = true →
    laneTy f.ty.val = some t → t.kind = .flt fm → i < 32 / t.size → LaneOn s id f i → laneIn s id t.size f.va.val i = some a →
    laneIn s id t.size f.vb.val i = some b →
    let two := fun c r fl => Takes c s id f.vd.val t.size i (some r) fl
    (fm.isNan a = true ∨ fm.isNan b = true → ∀ c ∈ [Instr.add id f, .sub id f, .mul id f, .div id f], two c fm.nanCode 0) ∧
    (fm.isNan a = true → fm.isNan b = false → two (.min id f) b 0 ∧ two (.max id f) b 0) ∧
    (fm.isNan a = false → fm.isNan b = true → two (.min id f) a 0 ∧ two (.max id f) a 0) ∧
    (a = 0 ∧ b = fm.signBit ∨ a = fm.signBit ∧ b = 0 → two (.min id f) fm.signBit 0 ∧ two (.max id f) 0 0) ∧
    ((fm.decode a).isZero = true ∧ (fm.decode b).isZero = true → two (.div id f) fm.nanCode 1) ∧
    (∀ c, laneIn s id t.size f.vc.val i = some c →
      (s.normAt id 0x24 = none → (fm.isNan a = true ∨ fm.isNan b = true ∨ fm.isNan c = true → two (.fma id f) fm.nanCode 0) ∧
        Ends (.fma id f) s fun u => (u.engine (engineNo id)).isValid f.vd.val i = true) ∧
      (s.normAt id 0x2D = none → fm.isNan a = false → fm.isNan b = true → fm.isNan c = true → two (.clamp id f) a 0))) ∧
  (∀ (s : State) (id : EngineId) (f : Fields) (t : LTy) (fm : FpFmt) (i a : Nat) (n : Norm), isFltTy f.ty.val = true →
    laneTy f.ty.val = some t → t.kind = .flt fm → i < 32 / t.size → LaneOn s id f i → laneIn s id t.size f.va.val i = some a →
    (fm.isNan a = true → ∀ c ∈ [(Instr.fma id f, 0x24), (.log1p id f, 0x3A), (.clamp id f, 0x2D), (.mov id f, 0x2F)], s.normAt id c.2 = some n →
      (n.nanMode = 0 → Takes c.1 s id f.vd.val t.size i none 0) ∧
      (n.nanMode = 2 → Takes c.1 s id f.vd.val t.size i (some (n.fill % 2 ^ (8 * t.size))) 0) ∧
      Ends c.1 s fun u => (u.units id.cluster.val).quern.nanInputs =
        sat32 (s.units id.cluster.val).quern.nanInputs (normOddLanes n f (s.engine (engineNo id)))) ∧
    (fm.isNan a = false → s.normAt id 0x24 = some n → n.kind = .zscore → ratOf (fp64.decode ((s.normParams n).getD 1 0)) = 0 →
      Takes (.fma id f) s id f.vd.val t.size i (some 0) 0))

/-- For the next word of a program, in every executed lane of every fixed-width type: MOV (unless it computes a QUANTILE
normalisation), MOVI of an immediate that the type holds, SEL, COAL, SETV, VMRK, PERM, CPRS and ALGN place the lane that the
operation table names, with its validity. CMP, CLASS, ISVAL and BCLS write the bit of K[VD] (comparison, NaN class, validity,
digit class among their cases), KOP combines two mask registers, KFIRST sets the first IMM lanes; a write of K0 is ignored.
(Rests on 05_engine_arithmetic.md R133, R136, R143, R157.) -/
def Obligations.SelectingLanes : Prop :=
  (∀ (s : State) (id : EngineId) (f : Fields) (t : LTy) (i : Nat), laneTy f.ty.val = some t → i < 32 / t.size → LaneOn s id f i →
    let e := s.engine (engineNo id)
    let r := fun c x => Takes c s id f.vd.val t.size i x 0
    let a := laneIn s id t.size f.va.val i
    let b := laneIn s id t.size f.vb.val i
    ((isFltTy f.ty.val = true → s.normAt id 0x2F = none) → r (.mov id f) a) ∧
    (t.kind = .uint → f.imm.val < 2 ^ (8 * t.size) → r (.movi id f) (some f.imm.val)) ∧
    (t.kind = .sint → (t.size = 1 → -128 ≤ sInt 16 f.imm.val ∧ sInt 16 f.imm.val ≤ 127) → r (.movi id f) (some (wrapN (8 * t.size) (sInt 16 f.imm.val)))) ∧
    (Ends (.movi id f) s fun u => (u.engine (engineNo id)).isValid f.vd.val i = true) ∧
    r (.sel id f) (if bitOf (e.kreg (f.vc.val % 8)).toNat i then a else b) ∧
    r (.coal id f) (a.or b) ∧
    r (.setv id f) (if bitOf (e.kreg (f.va.val % 8)).toNat i then laneIn s id t.size f.vd.val i else none) ∧
    (f.ty.val = 3 → r (.vmrk id f) ((laneIn s id 1 f.vd.val i).map fun v => if v = 0 then f.imm.val % 256 else v)) ∧
    (∀ j, b = some j → r (.perm id f) (laneIn s id t.size f.va.val (j % (32 / t.size)))) ∧ (b = none → r (.perm id f) none) ∧
    r (.cprs id f) ((((List.range (32 / t.size)).filter fun j => bitOf (e.kreg (f.vc.val % 8)).toNat j)[i]?).bind fun j => laneIn s id t.size f.va.val j) ∧
    (f.imm.val + i < 32 / t.size → r (.algn id f) (laneIn s id t.size f.va.val (f.imm.val + i))) ∧
    (32 / t.size ≤ f.imm.val + i → f.imm.val + i < 2 * (32 / t.size) → r (.algn id f) (laneIn s id t.size f.vb.val (f.imm.val + i - 32 / t.size)))) ∧
  (∀ (s : State) (id : EngineId) (f : Fields) (t : LTy) (i : Nat), laneTy f.ty.val = some t → i < 32 / t.size → LaneOn s id f i →
    TakesBit (.isval id f) s id (f.vd.val % 8) i (laneIn s id t.size f.va.val i).isSome ∧
    (isIntTy f.ty.val = true → ∀ a b, laneIn s id t.size f.va.val i = some a → laneIn s id t.size f.vb.val i = some b →
      TakesBit (.cmp id f) s id (f.vd.val % 8) i (match f.sub.val with
        | 0 => decide (laneInt t a = laneInt t b) | 1 => decide (laneInt t a ≠ laneInt t b) | 2 => decide (laneInt t a < laneInt t b)
        | 3 => decide (laneInt t a ≤ laneInt t b) | 4 => decide (laneInt t b < laneInt t a) | _ => decide (laneInt t b ≤ laneInt t a))) ∧
    (isFltTy f.ty.val = true → ∀ a b fm, t.kind = .flt fm → laneIn s id t.size f.va.val i = some a → laneIn s id t.size f.vb.val i = some b →
      (fm.isNan a = true ∨ fm.isNan b = true → TakesBit (.cmp id f) s id (f.vd.val % 8) i (decide (f.sub.val = 1))) ∧
      (fm.isNan a = true → TakesBit (.classF id f) s id (f.vd.val % 8) i (bitOf f.imm.val 8)) ∧
      (a = fm.signBit → TakesBit (.classF id f) s id (f.vd.val % 8) i (bitOf f.imm.val 3))) ∧
    (f.ty.val = 3 → ∀ a, laneIn s id 1 f.va.val i = some a → 0x30 ≤ a → a ≤ 0x39 →
      TakesBit (.bcls id f) s id (f.vd.val % 8) i (bitOf f.imm.val 0))) ∧
  (∀ (s : State) (id : EngineId) (f : Fields) (i : Nat), i < 32 →
    TakesBit (.kfirst id f) s id (f.vd.val % 8) i (decide (i < f.imm.val)) ∧
    let a := bitOf ((s.engine (engineNo id)).kreg (f.va.val % 8)).toNat i
    let b := bitOf ((s.engine (engineNo id)).kreg (f.vb.val % 8)).toNat i
    TakesBit (.kop id f) s id (f.vd.val % 8) i (match f.sub.val with
      | 0 => a && b | 1 => a || b | 2 => a != b | 3 => a && !b | _ => !a))

/-- For every word that writes VD lane by lane, with a TYPE that it accepts, where it is the next word of its program: a
masked-off lane of VD keeps data and validity, or becomes zero and invalid under MZ; an executed lane that becomes invalid
holds zero bits; an invalid VA lane makes the result lane invalid unless the word chooses or moves lanes. Every other data
register, every mask register, every other engine, every core store, cluster store and HBM stay as they are, and no flag that
is set clears. (Rests on 05_engine_arithmetic.md R133, R135, R136, R142.) -/
def Obligations.MaskedLanesAndInvalidSources : Prop :=
  ∀ (s : State) (id : EngineId) (c : Instr) (f : Fields) (op : Nat) (t : LTy) (i : Nat), WordCmd c id f op → op ∈ laneOps →
    laneTy f.ty.val = some t → i < 32 / t.size →
    ((s.engine (engineNo id)).on f.mask.val i = false → Ends c s fun u => (u.engine (engineNo id)).lane t.size f.vd.val i =
      if f.mz then (false, 0) else (s.engine (engineNo id)).lane t.size f.vd.val i) ∧
    (Ends c s fun u => ((u.engine (engineNo id)).isValid f.vd.val i = false → LaneOn s id f i → laneOf t.size ((u.engine (engineNo id)).reg f.vd.val) i = 0)) ∧
    (laneIn s id t.size f.va.val i = none → LaneOn s id f i →
      op ∉ [0x30, 0x42, 0x44, 0x46, 0x47, 0x83, 0xA0, 0xA1, 0xA2] → Takes c s id f.vd.val t.size i none 0) ∧
    (Ends c s fun u => (∀ j, j ≠ f.vd.val → (u.engine (engineNo id)).reg j = (s.engine (engineNo id)).reg j ∧
        tget 0 (u.engine (engineNo id)).valid j = tget 0 (s.engine (engineNo id)).valid j) ∧
      (u.engine (engineNo id)).k = (s.engine (engineNo id)).k ∧ (∀ n, n ≠ engineNo id → u.engine n = s.engine n) ∧
      u.mem.hbm = s.mem.hbm ∧ u.mem.bus = s.mem.bus ∧ u.work.stores = s.work.stores ∧ (∀ k, (u.core k).store = (s.core k).store) ∧
      (∀ b, bitOf (s.engine (engineNo id)).flags b = true → bitOf (u.engine (engineNo id)).flags b = true))

/-- For the next word of a running program: NOP and LOOP go on to the next word, LOOP opening a loop of IMM iterations; LEND
goes back to the word after its LOOP while iterations remain and past the loop otherwise; each is counted as issued and
changes no register. At the end of the body the engine goes on to its next tile (its number plus ENGINES) if the task has it:
every cursor at BASE + t x TILE_STEP, registers, validity words and masks as they were, words counted from 0; otherwise it
has run its tiles. A word that is not the next one of the body changes nothing (the model's choice, log entry 104). (Rests on
05_engine_arithmetic.md R152, R154, R156.) -/
def Obligations.ProgramOrderLoopsAndTiles : Prop :=
  ∀ (s : State) (id : EngineId) (cx : ProgCtx) (f : Fields), Runs s id cx →
    let e := s.engine (engineNo id)
    let ends := fun (c : Instr) (w : Nat) (l : List (Nat × Nat)) => Ends c s fun u =>
      let g := u.engine (engineNo id)
      g.v = e.v ∧ g.valid = e.valid ∧ g.k = e.k ∧ g.word = w ∧ g.loops = l ∧ g.issue = e.issue + 1 ∧ g.tile = e.tile ∧ g.cursor = e.cursor
    (e.word + 1 < cx.body.length → ends (.nop id f) (e.word + 1) e.loops ∧ ends (.loop id f) (e.word + 1) ((e.word + 1, f.imm.val) :: e.loops)) ∧
    (∀ w n r, e.loops = (w, n) :: r → 1 < n → w < cx.body.length → ends (.lend id f) w ((w, n - 1) :: r)) ∧
    (∀ w n r, e.loops = (w, n) :: r → n ≤ 1 → e.word + 1 < cx.body.length → ends (.lend id f) (e.word + 1) r) ∧
    (cx.body.length ≤ e.word + 1 → e.tile + cx.engines < cx.tiles → Ends (.nop id f) s fun u =>
      let g := u.engine (engineNo id)
      g.v = e.v ∧ g.valid = e.valid ∧ g.k = e.k ∧ g.word = 0 ∧ g.issue = 0 ∧ g.tile = e.tile + cx.engines ∧
      ∀ j d, cx.descs[j]? = some d → g.cur j = ((d.base : Int) + ((e.tile + cx.engines : Nat) : Int) * d.step) * 8) ∧
    (cx.body.length ≤ e.word + 1 → cx.tiles ≤ e.tile + cx.engines → Ends (.nop id f) s fun u =>
      (u.engine (engineNo id)).word = e.word + 1 ∧ (u.engine (engineNo id)).tile = e.tile) ∧
    (∀ c op, wordParts c = some (op, id, f) → s.issues id op f = false → exec c s = .next s)

/-- For the next word of a program: in line mode LD fills each executed lane of VD, valid, from the 32 bytes at the cursor
and ST writes the executed lanes of VD there (an invalid lane as zeros), no other byte of the core store and no other core's
store changing; the cursor advances by STRIDE. LDV takes the validity of each executed lane from the bitmap stream and zeroes
the lanes it makes invalid; STV writes the validity bits. A line access that would reach beyond the core store moves nothing:
the engine stops, FAULTED is set, the fault counted and, if none was held, its address recorded. (Rests on
05_engine_arithmetic.md R137, R153, R159.) -/
def Obligations.StreamAccesses : Prop :=
  (∀ (s : State) (id : EngineId) (cx : ProgCtx) (f : Fields) (t : LTy) (d : StreamDesc) (a i : Nat), StreamAt s id cx f d a → d.mode = 0 →
    laneTy f.ty.val = some t → a + 32 ≤ 0x60000 → i < 32 / t.size →
    let e := s.engine (engineNo id)
    let m := (s.core (coreNo id)).store
    (LaneOn s id f i → Ends (.ld id f) s fun u =>
      (u.engine (engineNo id)).lane t.size f.vd.val i = (true, progLoad cx m (a + i * t.size) t.size) ∧ (u.core (coreNo id)).store = m) ∧
    (Ends (.st id f) s fun u =>
      (LaneOn s id f i → progLoad cx (u.core (coreNo id)).store (a + i * t.size) t.size = (laneIn s id t.size f.vd.val i).getD 0) ∧
      (e.on f.mask.val i = false → progLoad cx (u.core (coreNo id)).store (a + i * t.size) t.size = progLoad cx m (a + i * t.size) t.size) ∧
      (∀ x, x < 0x60000 → (x < a ∨ a + 32 ≤ x) → progRead cx (u.core (coreNo id)).store x = progRead cx m x) ∧
      (u.engine (engineNo id)).v = e.v ∧ (u.engine (engineNo id)).valid = e.valid ∧ ∀ n, n ≠ coreNo id → (u.core n).store = (s.core n).store) ∧
    (e.word + 1 < cx.body.length → ∀ c ∈ [Instr.ld id f, .st id f], Ends c s fun u =>
      (u.engine (engineNo id)).cur (f.va.val % 8) = 8 * ((a : Int) + d.stride))) ∧
  (∀ (s : State) (id : EngineId) (cx : ProgCtx) (f : Fields) (t : LTy) (d : StreamDesc) (a i : Nat), StreamAt s id cx f d a → d.mode = 2 →
    laneTy f.ty.val = some t → a + 4 ≤ 0x60000 → i < 32 / t.size → LaneOn s id f i →
    let e := s.engine (engineNo id)
    let m := (s.core (coreNo id)).store
    (Ends (.ldv id f) s fun u => (u.engine (engineNo id)).lane t.size f.vd.val i =
      (if bitOf (progRead cx m (a + i / 8)) (i % 8) then (true, laneOf t.size (e.reg f.vd.val) i) else (false, 0))) ∧
    (Ends (.stv id f) s fun u => bitOf (progRead cx (u.core (coreNo id)).store (a + i / 8)) (i % 8) = e.isValid f.vd.val i)) ∧
  (∀ (s : State) (id : EngineId) (cx : ProgCtx) (f : Fields) (t : LTy) (d : StreamDesc) (a : Nat), StreamAt s id cx f d a → d.mode = 0 →
    laneTy f.ty.val = some t → 0x60000 < a + 32 → a < 2 ^ 32 - 32 → Ends (.ld id f) s fun u =>
      (u.engine (engineNo id)).stopped = true ∧ (u.engine (engineNo id)).v = (s.engine (engineNo id)).v ∧ (u.core (coreNo id)).faulted = true ∧
      (u.core (coreNo id)).store = (s.core (coreNo id)).store ∧ (u.core (coreNo id)).faultCount = sat32 (s.core (coreNo id)).faultCount 1 ∧
      ((s.core (coreNo id)).faultInfo = 0 → (u.core (coreNo id)).faultAddr = max a 0x60000))

/-- For the next word of a program, over the contributing lanes (valid and unmasked): RCNT gives their count, always valid;
RSUM their sum, wrapped or clamped by SAT; RSUMW their exact sum in the wider type; RMIN and RMAX the least and the greatest;
RAND and ROR their bitwise combination. With no contributing lane every other reduction gives an invalid lane 0. Every other
lane of VD becomes zero and invalid. (Rests on 05_engine_arithmetic.md R157, R158.) -/
def Obligations.ReductionWords : Prop :=
  ∀ (s : State) (id : EngineId) (f : Fields) (t : LTy), isIntTy f.ty.val = true → laneTy f.ty.val = some t →
    let cs := contributing s id f t.size
    let r := fun c sz x fl => Takes c s id f.vd.val sz 0 x fl
    r (.rcnt id f) 4 (some cs.length) 0 ∧
    (cs = [] → ∀ c ∈ [Instr.rsum id f, .rmin id f, .rmax id f, .rand id f, .ror id f], r c t.size none 0) ∧
    (cs ≠ [] → r (.rsum id f) t.size (some (fitted t f.sat (cs.map (laneInt t)).sum).1) (fitted t f.sat (cs.map (laneInt t)).sum).2 ∧
      (∃ m ∈ cs, (∀ x ∈ cs, laneInt t m ≤ laneInt t x) ∧ r (.rmin id f) t.size (some m) 0) ∧
      (∃ m ∈ cs, (∀ x ∈ cs, laneInt t x ≤ laneInt t m) ∧ r (.rmax id f) t.size (some m) 0) ∧
      (∃ m, (∀ b, b < 8 * t.size → (m.testBit b = true ↔ ∀ x ∈ cs, x.testBit b = true)) ∧ r (.rand id f) t.size (some m) 0) ∧
      (∃ m, (∀ b, b < 8 * t.size → (m.testBit b = true ↔ ∃ x ∈ cs, x.testBit b = true)) ∧ r (.ror id f) t.size (some m) 0) ∧
      (TypeSet.widen.has f.ty.val = true → ∃ w, widerTy t = some w ∧ r (.rsumw id f) w.size (some (wrapN (8 * w.size) (cs.map (laneInt t)).sum)) 0)) ∧
    (∀ c ∈ [Instr.rsum id f, .rmin id f, .rmax id f, .rand id f, .ror id f], ∀ i, 0 < i → i < 32 / t.size →
      Ends c s fun u => (u.engine (engineNo id)).lane t.size f.vd.val i = (false, 0))

/-- For the next word of a program: CVT between integer types converts the L_w lanes of the part that SUB selects, keeping
the low 8s bits or, under SAT, clamping with SAT raised, and leaves the lanes outside the part unchanged. FOLD keeps an
unsigned value, inverts the sign bit of a signed one, and inverts every bit under SUB bit 0. QMX of a block that holds a NaN
gives scale 0xFF, zero elements and INV; of a block of zeros (invalid lanes read as +0) scale 127 and zero elements; VD and
VB are all valid. DQMX with a scale of 0xFF gives canonical NaNs in the executed lanes. (Rests on 05_engine_arithmetic.md
R149, R150, 04_types_and_layout.md R108, R118.) -/
def Obligations.ConvertingWords : Prop :=
  (∀ (s : State) (id : EngineId) (f : Fields) (ts td : LTy) (i j a : Nat),
    isIntTy (f.imm.val % 256) = true → isIntTy f.ty.val = true → laneTy (f.imm.val % 256) = some ts → laneTy f.ty.val = some td →
    f.imm.val % 256 ≠ 0x31 → f.imm.val % 256 ≠ 0x32 → i < 32 / max ts.size td.size →
    let p := f.sub.val % 4 * (32 / max ts.size td.size)
    j = (if ts.size < td.size then p + i else i) → laneIn s id ts.size f.va.val j = some a → j < 32 / ts.size →
    let k := if ts.size > td.size then p + i else i
    k < 32 / td.size → LaneOn s id f k →
    Takes (.cvt id f) s id f.vd.val td.size k (some (fitted td f.sat (laneInt ts a)).1) (fitted td f.sat (laneInt ts a)).2 ∧
    ∀ l, l < 32 / td.size → (l < k - i ∨ k - i + 32 / max ts.size td.size ≤ l) →
      Ends (.cvt id f) s fun u => (u.engine (engineNo id)).lane td.size f.vd.val l = (s.engine (engineNo id)).lane td.size f.vd.val l) ∧
  (∀ (s : State) (id : EngineId) (f : Fields) (t : LTy) (i a : Nat), laneTy f.ty.val = some t → i < 32 / t.size → LaneOn s id f i →
    laneIn s id t.size f.va.val i = some a →
    (t.kind = .uint → isIntTy f.ty.val = true → Takes (.fold id f) s id f.vd.val t.size i (some (if f.sub.val % 2 = 1 then 2 ^ (8 * t.size) - 1 - a else a)) 0) ∧
    (t.kind = .sint → isIntTy f.ty.val = true → Takes (.fold id f) s id f.vd.val t.size i
      (some (if f.sub.val % 2 = 1 then 2 ^ (8 * t.size) - 1 - (a ^^^ 2 ^ (8 * t.size - 1)) else a ^^^ 2 ^ (8 * t.size - 1))) 0)) ∧
  (∀ (s : State) (id : EngineId) (f : Fields) (t : LTy) (fm : FpFmt), TypeSet.qmx.has f.ty.val = true → laneTy f.ty.val = some t →
    t.kind = .flt fm → f.sub.val % 8 < 6 → f.vd ≠ f.vb →
    let vals := (List.range 32).map fun k => laneIn s id t.size (f.va.val + k / (32 / t.size)) (k % (32 / t.size))
    let ends := fun scale inv => Ends (.qmx id f) s fun u => (u.engine (engineNo id)).reg f.vd.val = 0 ∧
      (u.engine (engineNo id)).reg f.vb.val = BitVec.ofNat 256 scale ∧ tget 0 (u.engine (engineNo id)).valid f.vd.val = BitVec.allOnes 32 ∧
      tget 0 (u.engine (engineNo id)).valid f.vb.val = BitVec.allOnes 32 ∧ Nat.land (u.engine (engineNo id)).flags inv = inv
    ((∃ a, some a ∈ vals ∧ fm.isNan a = true) → ends 0xFF 1) ∧ ((∀ x ∈ vals, x = none ∨ x = some 0) → ends 127 0)) ∧
  (∀ (s : State) (id : EngineId) (f : Fields) (t : LTy) (fm : FpFmt) (k : Nat), TypeSet.dqmx.has f.ty.val = true →
    laneTy f.ty.val = some t → t.kind = .flt fm → f.sub.val % 8 < 6 → k < 32 → f.vd.val + k / (32 / t.size) < 32 → LaneOn s id f (k % (32 / t.size)) →
    laneOf 1 ((s.engine (engineNo id)).reg f.vb.val) 0 = 0xFF → tget 0 (s.engine (engineNo id)).valid f.vb.val = BitVec.allOnes 32 →
    tget 0 (s.engine (engineNo id)).valid f.va.val = BitVec.allOnes 32 →
    Ends (.dqmx id f) s fun u => (u.engine (engineNo id)).lane t.size (f.vd.val + k / (32 / t.size)) (k % (32 / t.size)) = (true, fm.nanCode))

/-- For the next word of a program: BLOWR lowers ASCII letters and keeps other bytes. BFIND and BDIFF put into lane 0 the
lowest index of a byte equal to IMM[7:0], or of a differing byte, or 32, and keep the other lanes; UTF8V answers the
continuation bytes still owed, or 0xFF for a byte that cannot lead. XSR is VA xor VA shifted right; XXR the xxHash64 round;
SIPR one SipRound over lanes 0 to 3; CRC with SUB 0 the reflected CRC-32C step of a byte, without inversion. (Rests on
05_engine_arithmetic.md R157.) -/
def Obligations.ByteAndHashWords : Prop :=
  (∀ (s : State) (id : EngineId) (f : Fields), f.ty.val = 3 → f.mask.val = 0 →
    let e := s.engine (engineNo id)
    let a := fun i => laneOf 1 (e.reg f.va.val) i
    let b := fun i => laneOf 1 (e.reg f.vb.val) i
    let r := fun c x => Takes c s id f.vd.val 1 0 (some x) 0
    (∀ i a, i < 32 → laneIn s id 1 f.va.val i = some a →
      Takes (.blowr id f) s id f.vd.val 1 i (some (if 0x41 ≤ a ∧ a ≤ 0x5A then a + 0x20 else a)) 0) ∧
    ((∀ i, i < 32 → e.isValid f.va.val i = true) →
      (∀ n, n < 32 → a n = f.imm.val % 256 → (∀ i, i < n → a i ≠ f.imm.val % 256) → r (.bfind id f) n) ∧
      ((∀ i, i < 32 → a i ≠ f.imm.val % 256) → r (.bfind id f) 32) ∧
      (e.isValid f.vb.val 0 = true → b 0 = 0 → (∀ i, i < 32 → a i < 0x80) → r (.utf8v id f) 0) ∧
      (e.isValid f.vb.val 0 = true → b 0 = 0 → (∀ i, i < 31 → a i < 0x80) → 0xE1 ≤ a 31 → a 31 ≤ 0xEC → r (.utf8v id f) 2) ∧
      (e.isValid f.vb.val 0 = true → b 0 = 0 → 0x80 ≤ a 0 → a 0 ≤ 0xC1 → r (.utf8v id f) 0xFF) ∧
      ((∀ i, i < 32 → e.isValid f.vb.val i = true) →
        (∀ n, n < 32 → a n ≠ b n → (∀ i, i < n → a i = b i) → r (.bdiff id f) n) ∧ ((∀ i, i < 32 → a i = b i) → r (.bdiff id f) 32))) ∧
    (∀ c ∈ [Instr.bfind id f, .bdiff id f, .utf8v id f], ∀ i, 0 < i → i < 32 → Ends c s fun u =>
      (u.engine (engineNo id)).lane 1 f.vd.val i = e.lane 1 f.vd.val i)) ∧
  (∀ (s : State) (id : EngineId) (f : Fields) (t : LTy) (i a : Nat), (f.ty.val = 7 ∨ f.ty.val = 9) → laneTy f.ty.val = some t →
    i < 32 / t.size → LaneOn s id f i → laneIn s id t.size f.va.val i = some a →
    Takes (.xsr id f) s id f.vd.val t.size i (some (a ^^^ a / 2 ^ (f.imm.val % 64))) 0) ∧
  (∀ (s : State) (id : EngineId) (f : Fields) (i a b : Nat), f.ty.val = 9 → i < 4 → LaneOn s id f i →
    laneIn s id 8 f.va.val i = some a → laneIn s id 8 f.vb.val i = some b →
    Takes (.xxr id f) s id f.vd.val 8 i (some (let x := (b + a * 14029467366897019727) % 2 ^ 64
      ((x * 2 ^ 31 + x / 2 ^ 33) % 2 ^ 64) * 11400714785074694791 % 2 ^ 64)) 0) ∧
  (∀ (s : State) (id : EngineId) (f : Fields) (v0 v1 v2 v3 : Nat), f.ty.val = 9 → f.mask.val = 0 →
    laneIn s id 8 f.va.val 0 = some v0 → laneIn s id 8 f.va.val 1 = some v1 → laneIn s id 8 f.va.val 2 = some v2 → laneIn s id 8 f.va.val 3 = some v3 →
    ∃ w0 w1 w2 w3, (∀ p ∈ [(0, w0), (1, w1), (2, w2), (3, w3)], Takes (.sipr id f) s id f.vd.val 8 p.1 (some p.2) 0) ∧
      let rot := fun x n => (x * 2 ^ n + x / 2 ^ (64 - n)) % 2 ^ 64
      let x1 := rot v1 13 ^^^ (v0 + v1) % 2 ^ 64
      let x3 := rot v3 16 ^^^ (v2 + v3) % 2 ^ 64
      w0 = (rot ((v0 + v1) % 2 ^ 64) 32 + x3) % 2 ^ 64 ∧ w3 = rot x3 21 ^^^ w0 ∧
      w1 = rot x1 17 ^^^ ((v2 + v3) % 2 ^ 64 + x1) % 2 ^ 64 ∧ w2 = rot (((v2 + v3) % 2 ^ 64 + x1) % 2 ^ 64) 32) ∧
  (∀ (s : State) (id : EngineId) (f : Fields) (n : Nat), f.ty.val = 7 → f.mask.val = 0 → f.sub.val = 0 → n = f.imm.val % 64 → n ≤ 32 →
    (∀ i, i < n → (s.engine (engineNo id)).isValid f.va.val (i / 4) = true) → ∀ st, laneIn s id 4 f.vb.val 0 = some st →
    (n = 0 → Takes (.crc id f) s id f.vd.val 4 0 (some st) 0) ∧
    (∀ b, laneOf 1 ((s.engine (engineNo id)).reg f.va.val) 0 = b → n = 1 →
      Takes (.crc id f) s id f.vd.val 4 0 (some ((List.range 8).foldl (fun x _ => if x % 2 = 1 then x / 2 ^^^ 0x82F63B78 else x / 2) (st ^^^ b))) 0))

/-- For every word command of the operation table with every value of every field, the 64-bit body word that encodes it
decodes back to it; and every 64-bit word that decodes to a command is that command's encoding: no bit of the layout is
dropped and no two words share a command. (Rests on 05_engine_arithmetic.md R154, R157.) -/
def Obligations.BodyWordsEncodeAndDecode : Prop :=
  (∀ (e : EngineId) (f : Fields) (op : Nat) (c : Instr), wordOf op e f = some c → ∃ w, encodeStreamWord c = some w ∧ w < 2 ^ 64 ∧
    decodeStreamWord e w = some c) ∧
  (∀ (e : EngineId) (w : Nat) (c : Instr), w < 2 ^ 64 → decodeStreamWord e w = some c → encodeStreamWord c = some w) ∧
  (∀ (c : Instr) (op : Nat) (e : EngineId) (f : Fields), wordParts c = some (op, e, f) → wordOf op e f = some c)

/-- STRM_ARM of a stream that is not open is dropped and counted, of one with a full armed slot recorded as an overrun, of
one with begun work put into the armed slot. At a tick the first 32 delayed records whose start has come become WAITING, the
others stay; a later cycle of the dispatcher releases the next 32. A stream with nothing begun adopts the descriptor at once.
A waiting record whose start has come and whose flags are all set becomes READY at the tail of its level, and otherwise waits
on. A READY core record of a level that the configuration in force, a pending one adopted first, enables goes to its core:
its Hopper entry fills with its slot and its prefetch source, the program's 384 KiB unchanged. A completed fill makes the
entry filled and is counted. (Rests on 12_dispatch_and_flows.md R327, R340, R342, R343, R344, R345, R346, R359, R360,
02_beat_schedule_graphs.md R47.) -/
def Obligations.RecordsAreReleasedReadyAndPlaced : Prop :=
  (∀ (s : State) (n : Fin 64) (m : Master), let st := s.stream n.val
    (st.phase = .closed ∨ st.phase = .opening → exec (.strmArm n m) s = .next (s.reject (0xD010 + n.val * 0x20) m.val)) ∧
    (st.phase = .open_ → st.armed.isSome = true → ∃ u, exec (.strmArm n m) s = .next u ∧
      u.stream n.val = { st with armOverrun := true, armOverruns := sat32 st.armOverruns 1 }) ∧
    (st.phase = .open_ → st.armed = none → st.busy = true → ∃ u, exec (.strmArm n m) s = .next u ∧
      u.stream n.val = { st with armed := some (st.stOrigin.val.toNat, st.stFrom.val.toNat) }) ∧
    (∀ c, st.phase = .open_ → st.armed = none → st.busy = false → s.cadence n.val = some c → ∃ u, exec (.strmArm n m) s = .next u ∧
      (u.stream n.val).anchors = (st.stOrigin.val.toNat, st.stFrom.val.toNat) :: st.anchors ∧ (u.stream n.val).armed = none)) ∧
  (∀ (s : State) (t k i : Nat), k < 16 → s.clusterWorks k = true → (∀ n, (s.stream n).armed = none) → i ∈ (s.disp k).delay →
    let due := ((s.disp k).delay.filter fun j => decide ((s.disp k).startAt j ≤ (s.at_ t).pos / 64 * 64)).take 32
    ∃ u, exec (.dispatcherTick t) s = .next u ∧ u.now = max s.now t ∧
      (i ∈ due → ((u.disp k).task i).state = .waiting ∧ i ∉ (u.disp k).delay) ∧
      (i ∉ due → (u.disp k).task i = (s.disp k).task i ∧ i ∈ (u.disp k).delay) ∧ (u.disp k).due = (s.at_ t).pos / 64 * 64) ∧
  (∀ (s : State) (g : Graph) (k : Fin 16) (i : Nat), s.work.graph = some g → s.clusterWorks k.val = true →
    (∀ p ∈ (s.disp k.val).slots, p.2.state ≠ .waiting) →
    i ∈ ((s.disp k.val).delay.filter fun j => decide ((s.disp k.val).startAt j ≤ (s.disp k.val).due)).take 32 →
    ∃ u, exec (.taskReady k) s = .next u ∧ ((u.disp k.val).task i).state = .waiting ∧ i ∉ (u.disp k.val).delay) ∧
  (∀ (s : State) (g : Graph) (k : Fin 16) (i : Nat) (t : Tpl) (p : Place), RecordOf s g k.val i t p → s.clusterWorks k.val = true →
    OnlyRecord s k.val i .waiting → (∀ j ∈ (s.disp k.val).delay, (s.disp k.val).due < (s.disp k.val).startAt j) → let d := s.disp k.val
    let fl := (tget ({} : Frame) d.frames (d.task i).frame).flags / 2 ^ (64 * t.waitGroup)
    (d.startAt i ≤ s.pos → Nat.land fl t.waitMask = t.waitMask → ∃ u, exec (.taskReady k) s = .next u ∧
      ((u.disp k.val).task i).state = .ready ∧ tget [] (u.disp k.val).ready (d.task i).prio = tget [] d.ready (d.task i).prio ++ [i]) ∧
    (s.pos < d.startAt i ∨ Nat.land fl t.waitMask ≠ t.waitMask → ∃ u, exec (.taskReady k) s = .next u ∧ (u.disp k.val).slots = d.slots ∧
      (u.disp k.val).ready = d.ready)) ∧
  (∀ (s : State) (g : Graph) (k : Fin 16) (i c e : Nat) (t : Tpl) (p : Place), RecordOf s g k.val i t p → s.clusterWorks k.val = true →
    t.kind = 1 → (s.disp k.val).ready = [(((s.disp k.val).task i).prio, [i])] →
    ((s.disp k.val).task i).prio < 8 → bitOf (s.disp k.val).adopt.levelEn ((s.disp k.val).task i).prio = true → s.placeFor g k.val i = some c →
    (s.core c).freeEntry = some e →
    ∃ u, exec (.taskPlace k) s = .next u ∧ ((u.disp k.val).task i).state = .prefetched ∧ ((u.disp k.val).task i).seat = c ∧
      ((u.core c).hop e).state = 1 ∧ ((u.core c).hop e).slot = i ∧
      readBytes (u.core c).store (0x60000 + 0x10000 * e) p.pfLen = readBytes (s.cstore k.val) p.pfSrc p.pfLen ∧
      ∀ a, a < 0x60000 → readByte (u.core c).store a = readByte (s.core c).store a) ∧
  (∀ (s : State) (c : CoreId) (i : Fin 2), let x := s.core (cidx c)
    ((x.hop i.val).state = 1 → ∃ u, exec (.hopperFillComplete c i) s = .next u ∧ ((u.core (cidx c)).hop i.val).state = 2 ∧
      (u.core (cidx c)).fills = (x.fills + 1) % 2 ^ 64 ∧ (u.core (cidx c)).store = x.store) ∧
    ((x.hop i.val).state ≠ 1 → exec (.hopperFillComplete c i) s = .next s))

/-- The dispatcher instantiates its qualifying batch: a clear frame, the start and due positions of its anchor, and for every
placement entry of the stream a record, WAITING or DELAYED by its start; with none it does nothing. A core without a task
starts its next filled entry when the record may start (start reached, batch instantiated everywhere and not stopped, its
phase in place): it is counted, its engines' state is 0 and the batch is begun; otherwise nothing happens. A unit starts the
READY record at the head of its queue alike, a layer task once the barrier before it has closed. A task that has ended
completes: without a flow it sets its SET_MASK flags and frees its slot; with one its segment is handed off, and beyond the
window it waits and a stall is counted; one that a program fault stopped has no effect but its free slot. One that has not
ended does not complete. (Rests on 05_engine_arithmetic.md R133, R160, 12_dispatch_and_flows.md R321, R328, R335, R336, R341,
R345, R350, R355, 02_beat_schedule_graphs.md R48, R75.) -/
def Obligations.TasksInstantiateStartAndComplete : Prop :=
  (∀ (s : State) (g : Graph) (k : Fin 16) (l : Nat), s.work.graph = some g → s.logicalOf k.val = some l → s.clusterWorks k.val = true →
    let s1 := s.modDisp k.val Disp.adopt
    (s1.bestBatch g k.val l = none → exec (.batchInstantiate k) s = .next s1) ∧
    (∀ n b, s1.bestBatch g k.val l = some (n, b) → ∃ c f u, s.cadence n = some c ∧ (s.disp k.val).freeFrame = some f ∧ exec (.batchInstantiate k) s = .next u ∧
      (tget ({} : Frame) (u.disp k.val).frames f) = { used := true, stream := n, batch := some b, flags := 0 } ∧
      (∃ x, (u.stream n).batch b = some x ∧ x.start = (s.stream n).startNow c b ∧ bitOf x.insts k.val = true ∧
        ((s.stream n).batch b = none → x.due = (s.stream n).dueOf c b ∧ x.begun = false) ∧
        ∀ p ∈ g.placesOf l n false, ∃ i, let r := (u.disp k.val).task i
          r.tpl = p.2.tpl ∧ r.place = p.1 ∧ r.stream = n ∧ r.batch = some b ∧ r.frame = f ∧ r.start = recStart x.start p.2.start ∧
            r.state = (if r.start ≤ s.pos then .waiting else .delayed)) ∧
      ∀ j, j ≠ k.val → u.disp j = s.disp j)) ∧
  (∀ (s : State) (g : Graph) (c : CoreId) (t : Tpl) (p : Place), let k := c.cluster.val
    let x := s.core (cidx c)
    let h := x.hop x.next
    let go := s.mayStart ((s.disp k).task h.slot) && g.tplInPhase ((s.disp k).task h.slot).tpl g.phase
    RecordOf s g k h.slot t p → CoreServes s k (cidx c) → h.state = 2 → x.ctx = none → x.next < 2 →
    (go = true → ∃ u, exec (.taskStart (.core c)) s = .next u ∧ ((u.disp k).task h.slot).state = .running ∧
      ((u.core (cidx c)).hop x.next).state = 3 ∧ (u.core (cidx c)).next = 1 - x.next ∧ (u.core (cidx c)).ctx.isSome = true ∧
      (u.disp k).dispatched = ((s.disp k).dispatched + 1) % 2 ^ 64 ∧
      (∀ e j, e < 32 → (u.engine (32 * cidx c + e)).reg j = 0 ∧ (u.engine (32 * cidx c + e)).stopped = false ∧ (u.engine (32 * cidx c + e)).flags = 0) ∧
      ∀ b, ((s.disp k).task h.slot).batch = some b → ∃ y, (u.stream ((s.disp k).task h.slot).stream).batch b = some y ∧ y.begun = true) ∧
    (go = false → exec (.taskStart (.core c)) s = .next s)) ∧
  (∀ (s : State) (g : Graph) (k : Fin 16) (u : Fin 5), s.work.graph = some g → s.clusterWorks k.val = true →
    (tget [] (s.disp k.val).unitQ u.val = [] → exec (.taskStart (.unit k u)) s = .next s) ∧
    (∀ i q, tget [] (s.disp k.val).unitQ u.val = i :: q → let r := (s.disp k.val).task i
      r.state = .ready → s.unitWorks k.val u.val = true → s.mayStart r = true → s.barrierOpen g r = true →
      g.tplInPhase r.tpl g.phase = true → s.gatherWaits g r = false → s.holdsTask g k.val r = false →
      (u = 0 → g.swapWait = false ∧ g.switchWait = false) → ∃ v, exec (.taskStart (.unit k u)) s = .next v ∧
        ((v.disp k.val).task i).state = .running ∧ ((v.disp k.val).task i).tpl = r.tpl ∧ ((v.disp k.val).task i).batch = r.batch ∧
        (v.disp k.val).unitQ = (s.disp k.val).unitQ ∧ (v.disp k.val).dispatched = ((s.disp k.val).dispatched + 1) % 2 ^ 64 ∧
        (∀ j, j ≠ i → (v.disp k.val).task j = (s.disp k.val).task j) ∧ ∀ b, r.batch = some b → ∃ y, (v.stream r.stream).batch b = some y ∧ y.begun = true)) ∧
  (∀ (s : State) (g : Graph) (k : Fin 16) (i : Fin 4096) (t : Tpl) (p : Place), RecordOf s g k.val i.val t p →
    let r := (s.disp k.val).task i.val
    let f := s.flow t.flow
    let halted := t.kind = 1 ∧ s.coreFaulted r.seat = true
    r.state = .running → r.handing = false → s.err.state ≠ 2 → s.taskEnded g k.val r = true →
    (halted → ∃ u, exec (.taskComplete k i) s = .next u ∧ ((u.disp k.val).task i.val).state = .free ∧ (u.disp k.val).frames = (s.disp k.val).frames ∧ u.work.flows = s.work.flows) ∧
    (¬ halted → t.flow = 0xFFFF ∨ r.batch = none → ∃ u, exec (.taskComplete k i) s = .next u ∧ ((u.disp k.val).task i.val).state = .free ∧ u.work.flows = s.work.flows) ∧
    (¬ halted → ∀ b, t.flow = 0xFFFF → t.weir = 0xFF → r.batch = some b →
      (∀ n, (s.stream n).runs = [] ∧ (s.stream n).stop = none ∧ (s.stream n).phase = .open_) → s.cmds = [] →
      ∃ u, exec (.taskComplete k i) s = .next u ∧ (tget ({} : Frame) (u.disp k.val).frames r.frame).flags =
        Nat.lor (tget ({} : Frame) (s.disp k.val).frames r.frame).flags (t.setMask * 2 ^ (64 * t.setGroup))) ∧
    (¬ halted → ∀ b fr, t.flow ≠ 0xFFFF → r.batch = some b → g.flowRec t.flow = some fr → let q := segSeq fr b p.seg
      (f.next + fr.window ≤ q → ∃ u, exec (.taskComplete k i) s = .next u ∧ ((u.disp k.val).task i.val).state = .running ∧
        ((u.disp k.val).task i.val).handing = true ∧ u.work.trc.stall = sat32 s.work.trc.stall 1 ∧ u.work.flows = s.work.flows) ∧
      (q < f.next + fr.window → ∃ u, exec (.taskComplete k i) s = .next u ∧ ((u.disp k.val).task i.val).state = .free ∧
        (f.next ≤ q → t.weir = 0xFF → (u.flow t.flow).held = f.held ++ [{ seq := q, batch := b, seg := p.seg, bytes := s.segmentBytes k.val t.outSlot }])))) ∧
  (∀ (s : State) (g : Graph) (k : Fin 16) (i : Fin 4096), s.work.graph = some g → s.taskEnded g k.val ((s.disp k.val).task i.val) = false →
    exec (.taskComplete k i) s = .next s)

/-- A pulse sets its flag in the frame of the batch on every cluster of its mask, counting a flag that was set already and a
batch without a frame, and touches no other cluster. An arrival for an earlier generation of a Weir instance has no effect,
for a later one is held and counted; the last arrival of the current one closes it: its flag set on every participant, the
generation advanced to the next batch instantiated. A producer whose segment lies beyond the window waits; within it the
segment is held. Tailrace releases only the next segment of a flow, after the intake of its batch, writing all of it, its
void rows, bitmaps and padding settled, and nothing else into the output slot. A batch next in order whose segments are all
released gets its record, and none before. (Rests on 12_dispatch_and_flows.md R339, R351, R352, R355, R356, R357,
03_host_queues.md R80, R81.) -/
def Obligations.FlagsBarriersAndFlows : Prop :=
  (∀ (s : State) (mask : Fin 65536) (st : Fin 64) (b : Nat) (flag : Fin 1024), ∃ u, exec (.flagPulse mask st b flag) s = .next u ∧ ∀ k, k < 16 →
    (bitOf mask.val k = false → u.disp k = s.disp k) ∧
    (s.clusterIn k = false → u.disp k = s.disp k) ∧
    (bitOf mask.val k = true → s.clusterIn k = true → (s.disp k).frameOf st.val (some b) = none → (u.disp k).flagStray = sat32 (s.disp k).flagStray 1 ∧ (u.disp k).frames = (s.disp k).frames) ∧
    (∀ f, bitOf mask.val k = true → s.clusterIn k = true → (s.disp k).frameOf st.val (some b) = some f → (tget ({} : Frame) (u.disp k).frames f).flags =
        Nat.lor (tget ({} : Frame) (s.disp k).frames f).flags (2 ^ flag.val) ∧
      (bitOf (tget ({} : Frame) (s.disp k).frames f).flags flag.val = true → (u.disp k).flagDup = sat32 (s.disp k).flagDup 1))) ∧
  (∀ (s : State) (g : Graph) (i : Fin 64) (k : Fin 16) (b : Nat) (r : WeirRec), s.work.graph = some g → g.weirRec i.val = some r → r.action = 0 →
    r.arrivals ≠ 0 → (s.weir i.val).closed.contains b = false → let w := s.weir i.val
    (b < w.gen → exec (.weirArrival i k b) s = .next s) ∧
    (w.gen < b → ∃ u, exec (.weirArrival i k b) s = .next u ∧ u.weir i.val = { w with heldQ := w.heldQ ++ [(b, k.val)] } ∧
      u.work.weirHeld = sat32 s.work.weirHeld 1 ∧ u.work.disps = s.work.disps) ∧
    (b = w.gen → ({ w with arrived := tmod 0 k.val (· + 1) w.arrived }.owes r) ≠ [] → ∃ u, exec (.weirArrival i k b) s = .next u ∧
      u.weir i.val = { w with arrived := tmod 0 k.val (· + 1) w.arrived } ∧ u.work.disps = s.work.disps) ∧
    (b = w.gen → ({ w with arrived := tmod 0 k.val (· + 1) w.arrived }.owes r) = [] → w.heldQ = [] → g.swapDue ≠ some i.val →
      ∃ u, exec (.weirArrival i k b) s = .next u ∧ (u.weir i.val).arrived = [] ∧ (u.weir i.val).heldQ = [] ∧
        (u.weir i.val).closes = (w.closes + 1) % 2 ^ 32 ∧ b < (u.weir i.val).gen ∧
        (∀ y ∈ (s.stream r.stream).batches, b < y.num → w.closed.contains y.num = false → (u.weir i.val).gen ≤ y.num) ∧
        ∀ l p f, l < 16 → bitOf r.parts l = true → s.clusters[l]? = some p → r.flag < 1024 → (s.disp p).frameOf r.stream (some b) = some f →
          bitOf (tget ({} : Frame) (u.disp p).frames f).flags r.flag = true)) ∧
  (∀ (s : State) (g : Graph) (k : Fin 16) (i : Fin 4096) (t : Tpl) (p : Place) (fr : FlowRec) (b : Nat), RecordOf s g k.val i.val t p →
    ((s.disp k.val).task i.val).batch = some b → ((s.disp k.val).task i.val).handing = true → g.flowRec t.flow = some fr →
    let q := segSeq fr b p.seg
    ((s.flow t.flow).next + fr.window ≤ q → exec (.segmentHandoff k i) s = .next s) ∧
    ((s.flow t.flow).next ≤ q → q < (s.flow t.flow).next + fr.window → ∃ u, exec (.segmentHandoff k i) s = .next u ∧
      (u.flow t.flow).held = (s.flow t.flow).held ++ [{ seq := q, batch := b, seg := p.seg, bytes := s.segmentBytes k.val t.outSlot }] ∧
      (u.flow t.flow).next = (s.flow t.flow).next)) ∧
  (∀ (s : State) (g : Graph) (f : Fin 1024) (r : FlowRec), s.work.graph = some g → g.flowRec f.val = some r →
    ((s.flow f.val).held.find? (fun h => h.seq == (s.flow f.val).next) = none → exec (.segmentRelease f ⟨[], [], []⟩ none) s = .next s) ∧
    (∀ h base x, (s.flow f.val).held.find? (fun h => h.seq == (s.flow f.val).next) = some h → (s.stream r.stream).outSlot h.batch = some (base, .hbm) →
      s.mayRelease .hbm = true → (s.stream r.stream).stop = none → s.shadows = false → s.pair.doneEarly.contains (r.stream, h.batch) = false → (s.stream r.stream).batch h.batch = some x →
      let bs := segmentOut (g.streamOuts r.stream) (g.batchRows r.stream) x.voids x.valid (r.segOff h.seg) h.bytes
      let a := base + r.segOff h.seg
      (s.intakeOver g r.stream h.batch = false → exec (.segmentRelease f ⟨[], [], []⟩ none) s = .next s) ∧
      (s.intakeOver g r.stream h.batch = true → s.hbmOk a bs.length = true →
        ∃ u, exec (.segmentRelease f ⟨[], [], []⟩ none) s = .next u ∧
          ((s.stream r.stream).phase ≠ .closing → (u.flow f.val).next = (s.flow f.val).next + 1) ∧
          readBytes u.mem.hbm a bs.length = bs ∧ (∀ y, (y < a ∨ a + bs.length ≤ y) → readByte u.mem.hbm y = readByte s.mem.hbm y) ∧
          u.work.trc.released = (s.work.trc.released + 1) % 2 ^ 64))) ∧
  (∀ (s : State) (g : Graph) (n : Fin 64) (b : Batch) (rr : RunRef) (c : Cmd), s.work.graph = some g → (s.stream n.val).batches = [b] → b.recorded = false →
    s.err.state = 0 → (s.stream n.val).stop = none → s.shadows = false → s.mirrors = false → s.pair.early = [] → s.pair.doneEarly = [] →
    s.reannounces n.val b.num = false → (s.stream n.val).nextInOrder b.num = true → (s.stream n.val).runOf b.num = some rr → s.cmd rr.seq = some c →
    (s.batchDone g n.val b = false → exec (.batchRecordWrite n 0) s = .next s) ∧
    (s.batchDone g n.val b = true → ∃ u e, exec (.batchRecordWrite n 0) s = .next u ∧ (u.qp c.qp).queue = (s.qp c.qp).queue ++ [e] ∧ e.kind = 1 ∧
      e.stream = n.val ∧ e.result = b.num ∧ e.cmdId = c.entry.id ∧ e.due = some b.due ∧
      e.status = (if b.domainOff then 0x21 else if b.busError then 0x20 else 0) ∧
      (u.stream n.val).batches = [{ b with recorded := true }]))

/-- A running task of a Quern operator does its work and ends. PARTITION, HASH_BUCKET and FEATURE_CROSS write their value for
each row into the output column, a fill value for a void row, and touch no other task or cluster. JOIN_BUILD keeps the rows
without null key part (the first of each key under MATCH FIRST), or fails with ST_LIMIT above its declared maxima; JOIN_PROBE
writes the payload of its match, or the SEMI or ANTI flag. An index build keeps the rows with key and time, or fails with the
hash of the run that is too long in QRN_LIMIT_KEY; ASOF_PROBE and WINDOW_PROBE read it. A hash bucket lies below N, a range
bucket is the count of boundaries below; a null key gives a null or the null bucket. An as-of match is the latest row at or
before (strictly before) the probe within the tolerance, ties by row. (Rests on 06_relational_operators.md R179, R180, R181,
R182, R186, R189, R191, R192, R195, R197, R200, R212.) -/
def Obligations.QuernRunsItsTasks : Prop :=
  (∀ (s : State) (k : Fin 16) (slot : Fin 4096) (rs : Rows) (j : Job2),
    (s.unitJob k.val slot.val 1 1 = some j → j.g.decls.buckets = [] → let key := takeCols (j.ps.drop 2)
      ∃ u, exec (.partition k slot rs) s = .next u ∧ RanInto s u j k slot (parseCol (key.2.headD 0))
        (colCells s j rs fun i => u32Cell (partitionRow (j.p 0) (j.p 1) j.t.salt key.1 (takeList (key.2.drop 1)).1 (s.keyCells k key.1 i)))) ∧
    (s.unitJob k.val slot.val 1 2 = some j → let key := takeCols (j.ps.drop 4)
      ∃ u, exec (.hashBucket k slot rs) s = .next u ∧ RanInto s u j k slot (parseCol (key.2.headD 0))
        (colCells s j rs fun i => (hashBucketRow (j.p 0) (j.p 1) (j.p 2) (j.p 3) j.t.salt key.1 (s.keyCells k key.1 i)).1)) ∧
    (s.unitJob k.val slot.val 1 12 = some j → let key := takeCols (j.ps.drop 2)
      ∃ u, exec (.featureCross k slot rs) s = .next u ∧ RanInto s u j k slot (parseCol (key.2.headD 0))
        (colCells s j rs fun i => if j.p 1 = 0 ∧ keyNull (s.keyCells k key.1 i) = true then {}
          else u32Cell (reduceTo (keyHash j.t.salt key.1 (s.keyCells k key.1 i)) (j.p 0)))) ∧
    (s.unitJob k.val slot.val 1 4 = some j → j.t.stage = false → let key := takeCols (j.ps.drop 3)
      let outs := (takeCols key.2).1
      let first := fun i => ((s.builtOf (j.p 2)).hits key.1 (s.keyCells k key.1 i)).head?
      let pay := fun i => ((first i).map fun r : BuildRow => r.payload).getD []
      ∃ u, exec (.joinProbe k slot rs) s = .next u ∧ TaskEnded u k slot 0 ∧ u.cstore k = (s.putOuts j outs rs ((rowList rs).map fun p =>
        if j.absent s p = true then [] else if j.p 0 < 2 then pay p.1
        else (List.range (outs.length - 1)).map (fun c => (pay p.1).getD c {}) ++ [boolCell (if j.p 0 = 2 then (first p.1).isSome else (first p.1).isNone)])).cstore k) ∧
    (s.unitJob k.val slot.val 1 6 = some j → ∃ u f, exec (.asofProbe k slot rs) s = .next u ∧ TaskEnded u k slot f ∧ (j.t.stage = false → f = 0)) ∧
    (s.unitJob k.val slot.val 1 8 = some j → j.derived = none → let key := takeCols (j.ps.drop 2)
      let tm := parseCol (key.2.headD 0)
      let ws := takeList (key.2.drop 1)
      let ag := takeList ws.2
      ∃ u, exec (.windowProbe k slot rs) s = .next u ∧ TaskEnded u k slot 0 ∧ u.cstore k = (s.putOuts j (takeCols ag.2).1 rs ((rowList rs).map fun p =>
        if j.absent s p = true ∨ (s.slotCell k tm p.1).valid = false ∨ keyNull (s.keyCells k key.1 p.1) = true then []
        else (windowRow (j.p 0 == 1) ws.1 (ag.1.map parseAgg) (j.g.indexVals (j.p 1)) ((s.builtOf (j.p 1)).hits key.1 (s.keyCells k key.1 p.1))
          (timeOf tm.ty (s.slotCell k tm p.1))).map fun x => x.1)).cstore k)) ∧
  (∀ (s : State) (k : Fin 16) (slot : Fin 4096) (e : BusEnv) (j : Job2) (rows : List (Nat × Bool × List Cell × List Cell)), let s0 := s.env e
    (s0.unitJob k.val slot.val 1 3 = some j → s0.tableReady j.r.stream (j.p 3) = true → j.p 1 ≤ 0x800000 → let key := takeCols (j.ps.drop 4)
      let pay := (takeCols key.2).1
      (s0.viewTable e j.g j.r.stream (j.p 3)).stageRows key.1 pay = some rows →
      s0.poisonedIn ((s0.viewTable e j.g j.r.stream (j.p 3)).pieces ((key.1 ++ pay).map fun c => c.off)) = false →
      let first := fun x : Nat × Bool × List Cell × List Cell => j.p 2 = 1 → ∀ y ∈ buildable rows, y.1 < x.1 → keySame key.1 y.2.2.1 x.2.2.1 = false
      let size := ((buildable rows).map fun x => 32 + payloadBytes pay x.2.2.2).sum
      ∃ u, exec (.joinBuild k slot e) s = .next u ∧
        ((buildable rows).length ≤ j.p 0 → size ≤ j.p 1 → TaskEnded u k slot 0 ∧ ∀ r : BuildRow, r ∈ (u.builtOf j.tpl).rows ↔ ∃ x ∈ buildable rows, first x ∧
          r = { row := x.1, hash := keyHash j.t.salt key.1 x.2.2.1, key := x.2.2.1, payload := x.2.2.2, time := 0 }) ∧
        (j.p 0 < (buildable rows).length ∨ j.p 1 < size → TaskEnded u k slot 0x12)) ∧
    (s0.unitJob k.val slot.val 1 5 = some j → s0.tableReady j.r.stream (j.p 1) = true → let key := takeCols (j.ps.drop 2)
      let tm := parseCol (key.2.headD 0)
      (s0.viewTable e j.g j.r.stream (j.p 1)).stageRows key.1 (tm :: (takeCols (key.2.drop 1)).1) = some rows →
      s0.poisonedIn ((s0.viewTable e j.g j.r.stream (j.p 1)).pieces ((key.1 ++ tm :: (takeCols (key.2.drop 1)).1).map fun c => c.off)) = false →
      ∃ u, exec (.asofIndex k slot e) s = .next u ∧ IndexBuilt s u j k slot (j.p 0) key.1 tm 16 rows) ∧
    (s0.unitJob k.val slot.val 1 7 = some j → s0.tableReady j.r.stream (j.p 1) = true → let key := takeCols (j.ps.drop 2)
      let tm := parseCol (key.2.headD 0)
      let vals := takeCols (key.2.drop 1)
      (s0.viewTable e j.g j.r.stream (j.p 1)).stageRows key.1 (tm :: vals.1) = some rows →
      s0.poisonedIn ((s0.viewTable e j.g j.r.stream (j.p 1)).pieces ((key.1 ++ tm :: vals.1).map fun c => c.off)) = false →
      ∃ u, exec (.windowIndex k slot e) s = .next u ∧ IndexBuilt s u j k slot (j.p 0) key.1 tm (indexRowBytes ((takeList vals.2).1.map parseAgg)) rows)) ∧
  (∀ (salt nb n nanMode : Nat) (parts : List ColW) (xs : List Cell), nanMode ≠ 1 →
    (keyNull xs = true → (hashBucketRow n 0 nb nanMode salt parts xs).1 = {} ∧ (hashBucketRow n 1 nb nanMode salt parts xs).1 = u32Cell nb) ∧
    (keyNull xs = false → ∀ m, (hashBucketRow n m nb nanMode salt parts xs).1 = u32Cell (reduceTo (keyHash salt parts xs) n)) ∧
    (0 < n → reduceTo (keyHash salt parts xs) n < n)) ∧
  (∀ (d : Bucketing) (parts : List ColW) (bounds : List Nat) (xs : List Cell), d.nanNull = false →
    (keyNull xs = true → (d.nullMode = 0 → rangeBucketRow d parts bounds xs = {}) ∧ (d.nullMode = 1 → rangeBucketRow d parts bounds xs = u32Cell d.nullBucket)) ∧
    (keyNull xs = false → ∃ b, b ≤ bounds.length ∧ rangeBucketRow d parts bounds xs = u32Cell b ∧
      ((parts.zip xs).all (fun p => !cellNan p.1.ty p.2) = true → b = (bounds.filter fun w => boundaryBelow parts xs w).length))) ∧
  (∀ (strict : Bool) (tol : Nat) (hits : List BuildRow) (t : Int) (r : BuildRow) (tie : Bool), asofMatch strict tol hits t = (some r, tie) →
    r ∈ hits ∧ r.time ≤ t ∧ (strict = true → r.time < t) ∧ (tol ≠ 0xFFFFFFFFFFFFFFFF → t - r.time ≤ (tol : Int)) ∧
    ∀ x ∈ hits, (if strict then x.time < t else x.time ≤ t) → x.time ≤ r.time ∧ (x.time = r.time → x.row ≤ r.row))

/-- The tasks of a GROUP_BY, RANK_SKETCH, APPROX_DISTINCT, COMPACT or batch TOPK each bring their rows (log entry 91); with
the last part the result of all is computed. GROUP_BY fails a stage whose GROUP_SPILL area is too small; it writes one row
per group in key order, or in the BROADCAST form each row's group aggregates, and fails with ST_LIMIT above MAX_GROUPS.
RANK_SKETCH writes its quantiles, APPROX_DISTINCT its estimate. COMPACT and TOPK write their result region and count it: of
rows that are not void, entries valid, no NaN and past the threshold are eligible; a non-zero identity survives once; TOPK
takes at most K entries in rank order; its TABLE scope waits until the table is decoded, and its tasks share one result.
(Rests on 06_relational_operators.md R202, R203, R204, R205, R209, R211, 07_gather_and_select.md R226, R227, R228, R230,
R234, R236.) -/
def Obligations.GroupsSketchesAndSelectionsRun : Prop :=
  (∀ (s : State) (k : Fin 16) (slot : Fin 4096) (rs : Rows) (parts : List Nat) (j : Job2),
    (s.unitJob k.val slot.val 1 9 = some j → let d := j.groupDecl
      let p := groupPart s j rs parts
      let gs := groupResults j.t.salt d (shared s j p)
      let all := (j.g.tplPlaces j.tpl).length ≤ (shared s j p).length
      (Fresh s j p → j.t.stage = true → j.p 1 = 0 → j.g.areaLen 5 j.tpl < spilledBytes s j p → ∃ u, exec (.groupBy k slot ⟨rs, parts⟩) s = .next u ∧ TaskEnded u k slot 0x12) ∧
      (Fresh s j p → NoSpill s j p → ∃ u, exec (.groupBy k slot ⟨rs, parts⟩) s = .next u ∧
        (¬ all → j.p 1 = 0 → TaskEnded u k slot 0 ∧ u.cstore k = s.cstore k) ∧ (¬ all → j.p 1 = 1 → Waits s u j p) ∧
        (all → j.p 0 < gs.length → TaskEnded u k slot 0x12 ∧ u.cstore k = s.cstore k) ∧
        (all → gs.length ≤ j.p 0 → j.p 1 = 0 → j.derived = none → TaskEnded u k slot 0 ∧ u.cstore k = (s.putOuts j d.outs rs
          ((sortBy (fun a b : List Cell × List (Cell × Bool) => decide (cmpKeys d.key a.1 b.1 ≤ 0)) gs).map fun g => g.1 ++ g.2.map fun x => x.1)).cstore k) ∧
        (all → gs.length ≤ j.p 0 → j.p 1 = 1 → (∀ q ∈ shared s j p, TaskEnded u q.k q.slot 0) ∧
          (shared s j p = [p] → u.cstore k = (s.putOuts j d.outs rs ((rowList rs).map fun r => if j.absent s r then []
            else ((gs.find? fun g => keySame d.key g.1 (s.keyCells k d.key r.1)).map fun g => g.2.map fun x => x.1).getD [])).cstore k)))) ∧
    (s.unitJob k.val slot.val 1 10 = some j → j.derived = none → j.g.decls.fits = [] → let c := parseCol (j.p 1)
      let qs := takeList (j.ps.drop 2)
      let ps := shared s j (sketchPart s j c rs parts)
      let sk := fillSketch (j.p 0) c ((coreRuns ps).map fun l => (l.flatMap fun r => r.2.2).filter Cell.valid)
      ∃ u, exec (.rankSketch k slot rs parts) s = .next u ∧ TaskEnded u k slot 0 ∧ OnlyTask s u k slot ∧
        u.cstore k = if ps.length < (j.g.tplPlaces j.tpl).length then s.cstore k
          else (s.putOuts j [parseCol (qs.2.headD 0)] rs (qs.1.map fun q => [sk.cellAt c (ratOf (fp64.decode q))])).cstore k) ∧
    (s.unitJob k.val slot.val 1 11 = some j → j.derived = none → let key := takeCols (j.ps.drop 1)
      let ps := shared s j (distinctPart s j key.1 rs)
      let est := hllEstimate ((ps.flatMap fun p => p.rows).foldl (fun m r => hllAdd m (keyHash j.t.salt key.1 r.2.1) (j.p 0)) ([] : Tab Nat)) (j.p 0)
      ∃ u, exec (.approxDistinct k slot rs) s = .next u ∧ TaskEnded u k slot 0 ∧ OnlyTask s u k slot ∧
        u.cstore k = if ps.length < (j.g.tplPlaces j.tpl).length then s.cstore k 
          else (s.putOuts j [parseCol (key.2.headD 0)] rs [[{ valid := true, bits := est }]]).cstore k) ∧
    (s.unitJob k.val slot.val 2 1 = some j → let c := parseCol (j.p 4)
      let p := s.selPart j c (parseCol (j.p 5)) (j.p 5 != 0) rs []
      let x := compactOf c.ty (j.p 0 == 1) (s.thresh k (j.p 1) (j.p 2) (j.p 3)) j.t.stage (selIns (coreRuns (shared s j p)).flatten)
      let cap := if j.r.batch.isSome then j.g.batchRows j.r.stream else ((shared s j p).map fun q => q.count).sum
      Fresh s j p → ∃ u, exec (.compact k slot rs) s = .next u ∧
        if (shared s j p).length < (j.g.tplPlaces j.tpl).length then Waits s u j p
        else Selected s u j p (parseCol (j.p 6)) x (x.bytes cap (tyBits c.ty / 8) 0 (j.p 5 != 0) false) cap false) ∧
    (∀ e : BusEnv, let s0 := s.env e
      s0.unitJob k.val slot.val 2 2 = some j → let c := parseCol (j.p 8)
      (j.p 2 = 0 → let p := s0.selPart j c (parseCol (j.p 9)) (j.p 9 != 0) rs parts
        let x := topk (j.p 0) (j.p 1 == 0) c.ty (s0.thresh k (j.p 3) (j.p 4) (j.p 5)) ((coreRuns (shared s0 j p)).map selIns)
        Fresh s0 j p → ∃ u, exec (.topk k slot rs parts e) s = .next u ∧
          if (shared s0 j p).length < (j.g.tplPlaces j.tpl).length then Waits s0 u j p
          else Selected s0 u j p (parseCol (j.p 10)) x (x.bytes (j.p 0) (tyBits c.ty / 8) (j.p 6) (j.p 9 != 0) true) (j.p 0) true) ∧
      (j.p 2 = 1 → ∃ u, exec (.topk k slot rs parts e) s = .next u ∧ TaskEnded u k slot 0 ∧ OnlyTask s0 u k slot) ∧
      (j.p 2 = 2 → let v := s0.viewTable e j.g j.r.stream (j.p 7)
        let id := parseCol (j.p 9)
        let ps := v.rowPieces c.off rs.first rs.count ++ if (j.p 9 != 0) = true then v.rowPieces id.off rs.first rs.count else []
        let t := s0.readPieces ps
        let r := v.selTable c id (j.p 9 != 0) rs
        let p : InPart := { place := j.r.place, k := j.k, slot := j.slot, first := rs.first, count := rs.count, parts := parts, rows := r.2 }
        let x := topk (j.p 0) (j.p 1 == 0) c.ty (s0.thresh k (j.p 3) (j.p 4) (j.p 5)) ((coreRuns (shared t j p)).map selIns)
        (s0.tableReady j.r.stream (j.p 7) = false → exec (.topk k slot rs parts e) s = .next s0) ∧
        (s0.tableReady j.r.stream (j.p 7) = true → s0.poisonedIn ps = false → ∃ u, exec (.topk k slot rs parts e) s = .next u ∧
          (r.1 ≠ 0 → TaskEnded u k slot r.1) ∧
          (r.1 = 0 → Fresh t j p → if (shared t j p).length < (j.g.tplPlaces j.tpl).length then Waits t u j p
            else Selected t u j p (parseCol (j.p 10)) x (x.bytes (j.p 0) (tyBits c.ty / 8) (j.p 6) (j.p 9 != 0) true) (j.p 0) true))))) ∧
  (∀ (parts : List ColW) (rows : List GRow), (∀ r ∈ rows, ∃ g ∈ groupsOf parts rows, r ∈ g.2) ∧
    ∀ g ∈ groupsOf parts rows, ∀ r ∈ g.2, r ∈ rows ∧ keySame parts g.1 r.2.1 = true) ∧
  (∀ (n ty : Nat) (large : Bool) (th : Option Thresh) (runs : List (List SelIn)), let x := topk n large ty th runs
    x.taken.length ≤ n ∧ x.taken.Pairwise (fun a b => rankLe large a b = true)) ∧
  (∀ es : List Entry, (dedup es).1.Pairwise fun a b => ¬ (a.ident ≠ 0 ∧ a.ident = b.ident)) ∧
  (∀ (ty : Nat) (th : Option Thresh) (xs : List SelIn) (e : Entry), e ∈ eligible ty th xs →
    ∃ x ∈ xs, x.1 = e.pos ∧ x.2.1 = .live ∧ x.2.2.1.valid = true ∧ x.2.2.1.bits = e.bits ∧ cellNan ty x.2.2.1 = false ∧ Thresh.pass th ty e.bits = true)

/-- LOOKUP searches its banks for each row in order and writes the cells; a search of a fenced or reloading bank waits, and
the task goes on from the row it stands at. An entry with an uncorrectable copy is counted and fences the bank; with a source
it makes the search wait for the reload, without one its row is void. On a sound EXACT bank every output match agrees with
the key under the mask, at most 1 + STEPS of them, and the first has the highest priority, then the lowest address, of all
that match. SCAN writes its reports in order of end offset, then pattern, each once. SAGE_BUILD writes one entry per row
without a null key part from address 0 or fails with ST_LIMIT. A pending entry write lands whole on a bank of its mode, or is
rejected and counted; a pending configuration takes effect and clears the contents if it changes mode or width, and neither
while a search waits for a reload; a scrub rewrites exactly the rows that fail parity. (Rests on
08_sage_associative_search.md R244, R245, R246, R247, R250, R251, R252, R253, R254, R255, R259.) -/
def Obligations.SageSearchesScansAndBuilds : Prop :=
  (∀ (s : State) (k : Fin 16) (slot : Fin 4096) (rs : Rows) (j : Job2), s.unitJob k.val slot.val 3 1 = some j → let key := takeCols (j.ps.drop 3)
    let ins := (rowList rs).map fun p => (j.absent s p, s.keyCells k key.1 p.1)
    let q := State.lookupRows k (j.p 1) (j.p 2) key.1 (setBits 8 (j.p 0)) (ins.drop j.r.look.rows.length) j.r.look s
    (q.2.1 = true → ∃ u f, exec (.lookup k slot rs []) s = .next u ∧ TaskEnded u k slot f ∧ (j.t.stage = false → f = 0 ∧
      ((∀ x ∈ q.1.rows, x.void_ = false) → u.cstore k = (q.2.2.putOuts j (takeCols key.2).1 rs (((rowList rs).zip q.1.rows).map fun x => x.2.cells)).cstore k))) ∧
    (q.2.1 = false → ∃ u, exec (.lookup k slot rs []) s = .next u ∧ (u.disp k).task slot = { (q.2.2.disp k).task slot with look := q.1 } ∧ u.units = q.2.2.units ∧
      u.cstore k = q.2.2.cstore k)) ∧
  (∀ (s : State) (k slot steps : Nat) (parts : List ColW) (banks : List Nat) (x : Bool × List Cell) (r : List (Bool × List Cell)) (p : LookProg),
    x.1 = false → keyNull x.2 = false → sageLong parts x.2 = false → s.searchWaits k (banks.getD (p.issued % max 1 banks.length) 0) = true →
    State.lookupRows k slot steps parts banks (x :: r) p s = (p, false, s)) ∧
  (∀ (s : State) (k b slot steps : Nat) (parts : List ColW) (xs : List Cell) (again : Bool) (a : Nat), (s.bank k b).mode = 1 →
    let f := (s.bank k b).search (sageKey parts xs) slot steps
    let x := tget ({} : SageEntry) (s.bank k b).entries a
    f.uncorr = some a → ∃ l t, s.lookupRow k b slot steps parts xs again = (l, t) ∧
      (x.source.isSome = true → l = none ∧ (t.bank k b).reload = some (a, false)) ∧ (x.source = none → l = some { cells := [], void_ := true, sent := true }) ∧
      (s.err.state = 0 → f.false_ = [] → (t.units k).sage.eccUncorr = sat32 (s.units k).sage.eccUncorr x.uncorrs ∧ t.isFenced 7 (8 * k + b) = true)) ∧
  (∀ (s : State) (k b slot steps : Nat) (parts : List ColW) (xs : List Cell), (s.bank k b).mode = 1 → Sound (s.bank k b) →
    let f := (s.bank k b).search (sageKey parts xs) slot steps
    let w := 2 ^ (128 * (s.bank k b).unitsPer)
    (s.lookupRow k b slot steps parts xs false).1 = some { cells := lookupCells f steps, sent := true } ∧
    (((s.lookupRow k b slot steps parts xs false).2).units k).sage.searches = ((s.units k).sage.searches + 1) % 2 ^ 64 ∧
    (∀ h ∈ f.hits, h.2.valid = true ∧ Nat.land (Nat.xor h.2.key (sageKey parts xs % w)) ((s.bank k b).mask slot) = 0) ∧ f.hits.length ≤ 1 + steps ∧
    (∀ p ∈ (s.bank k b).entries, p.2.row.hits (sageKey parts xs % w) ((s.bank k b).mask slot) = true →
      ∃ h, f.hits.head? = some h ∧ (p.2.row.prio < h.2.prio ∨ (p.2.row.prio = h.2.prio ∧ h.1 ≤ p.1)))) ∧
  (∀ (s : State) (k : Fin 16) (slot : Fin 4096) (rs : Rows) (j : Job2), s.unitJob k.val slot.val 3 2 = some j → j.t.stage = false →
    let t := (setBits 8 (j.p 0)).foldl (fun (t : State) b => t.sageApply k b) s
    let reps := (replicasOf ((setBits 8 (j.p 0)).map fun b => (t.imageOf j.g k b, b))).map fun l => l.map fun b => t.bank k b
    let res := scanRows reps ((rowList rs).map fun p => (j.absent t p, t.slotCell k (parseCol (j.p 2)) p.1)) 0
    ∃ u, exec (.scan k slot rs) s = .next u ∧ TaskEnded u k slot 0 ∧ OnlyTask s u k slot ∧ u.cstore k = (t.putOuts j (takeCols (j.ps.drop 3)).1 rs (res.map fun x =>
      if x.kind ≠ 2 then [] else
        [boolCell (!x.reps.isEmpty), (x.reps.head?.map fun q => u32Cell q.1).getD {}, (x.reps.head?.map fun q => u32Cell q.2).getD {},
          { valid := true, elems := (x.reps.take (j.p 1)).map fun q => q.1 + q.2 * 2 ^ 32 }, boolCell (decide (j.p 1 < x.reps.length))])).cstore k) ∧
  (∀ (bs : List SageBank) (x : Cell) (r : List (Bool × Cell)) (i : Nat), x.valid = true → (∀ b ∈ bs, b.mode = 2) →
    scanRows [bs] ((false, x) :: r) i = { kind := 2, reps := scanBanks bs x.bytes, off := false } :: scanRows [bs] r (i + 1)) ∧
  (∀ (bs : List SageBank) (val : Bytes), (scanBanks bs val).Pairwise fun a b => a.1 < b.1 ∨ (a.1 = b.1 ∧ a.2 < b.2)) ∧
  (∀ (s : State) (k : Fin 16) (slot : Fin 4096) (e : BusEnv) (j : Job2) (rows : List (Nat × Bool × List Cell × List Cell)), let s0 := s.env e
    s0.unitJob k.val slot.val 3 3 = some j → s0.tableReady j.r.stream (j.p 4) = true → (s0.bank k (j.p 0)).mode = 1 → j.p 1 ≠ 1 → j.p 3 = 0 →
    let key := (takeCols (j.ps.drop 5)).1
    (s0.viewTable e j.g j.r.stream (j.p 4)).stageRows key [] = some rows → s0.poisonedIn ((s0.viewTable e j.g j.r.stream (j.p 4)).pieces (key.map fun c => c.off)) = false →
    let ins := buildable rows
    ∃ u, exec (.sageBuild k slot e) s = .next u ∧
      ((s0.bank k (j.p 0)).capacity < ins.length → TaskEnded u k slot 0x12) ∧
      (ins.length ≤ (s0.bank k (j.p 0)).capacity → TaskEnded u k slot 0 ∧ ∀ i x, ins[i]? = some x → sageLong key x.2.2.1 = false →
        let r : SageRow := { valid := true, prio := j.p 2 % 256, result := x.1, key := sageKey key x.2.2.1 }
        tget {} (u.bank k (j.p 0)).entries i = freshEntry r (some r))) ∧
  (∀ (s : State) (k : Fin 16), (s.units k).sage.pending = none → exec (.sageEntryWriteApply k) s = .next s) ∧
  (∀ (s : State) (k : Fin 16) (n : Nat) (w : SageWr), (s.units k).sage.pending = some (n, w) → (s.bank k (w.target % 8)).pending = none → w.ctl % 4 = 0 →
    s.bankWaits k (w.target % 8) = false →
    let b := s.bank k (w.target % 8)
    let addr := w.target / 16 % 4096
    ∃ u, exec (.sageEntryWriteApply k) s = .next u ∧ (u.units k).sage.pending = none ∧
      (b.mode = 1 → addr < b.capacity → (tget {} (u.bank k (w.target % 8)).entries addr).row =
          { valid := bitOf w.ctl 2, prio := w.ctl / 256 % 256, result := w.res, key := ((List.range 16).map fun i => tget 0 w.key i * 2 ^ (32 * i)).sum % 2 ^ (128 * b.unitsPer) } ∧
        (u.units k).sage.wrReject = (s.units k).sage.wrReject ∧
        ∀ a, a ≠ addr → tget {} (u.bank k (w.target % 8)).entries a = tget {} b.entries a) ∧
      (b.mode ≠ 1 ∨ b.capacity ≤ addr → u.bank k (w.target % 8) = b ∧ (u.units k).sage.wrErr = true ∧ (u.units k).sage.wrReject = sat32 (s.units k).sage.wrReject 1)) ∧
  (∀ (s : State) (k : Fin 16) (b : Fin 8) (n m v : Nat) (w : SageWr), (s.bank k b).pending = some (m, v) →
    (s.bankWaits k b = true → exec (.sageBankReconfigApply k b) s = .next s) ∧
    (s.bankWaits k b = false → (s.units k).sage.pending = some (n, w) → w.target % 8 = b.val →
      ∃ u, exec (.sageBankReconfigApply k b) s = .next u ∧ (u.units k).sage.pending = none ∧ (u.bank k b).pending = none)) ∧
  (∀ (s : State) (k : Fin 16) (b : Fin 8), (s.units k).sage.pending = none → s.bankWaits k b = false →
    ((s.bank k b).pending = none → exec (.sageBankReconfigApply k b) s = .next s) ∧
    (∀ n v, (s.bank k b).pending = some (n, v) → v % 4 ≠ 3 → v / 4 % 4 ≠ 3 → ∃ u, exec (.sageBankReconfigApply k b) s = .next u ∧
      (u.bank k b).mode = v % 4 ∧ (u.bank k b).pending = none ∧ ((s.bank k b).width ≤ 2 → (u.bank k b).width = v / 4 % 4) ∧
      (v % 4 ≠ (s.bank k b).mode ∨ v / 4 % 4 ≠ (s.bank k b).width → (u.bank k b).entries = [] ∧ (u.bank k b).states = [] ∧ (u.bank k b).masks = []) ∧
      (v % 4 = (s.bank k b).mode → v / 4 % 4 = (s.bank k b).width → (u.bank k b).entries = (s.bank k b).entries))) ∧
  (∀ (s : State) (k : Fin 16) (b : Fin 8), ((∀ a, (s.bank k b).reload ≠ some (a, false)) → exec (.sageEntryReloadComplete k b) s = .next s) ∧
    ∀ a r, (s.bank k b).reload = some (a, false) → (tget ({} : SageEntry) (s.bank k b).entries a).source = some r → ∃ u, exec (.sageEntryReloadComplete k b) s = .next u ∧
      (u.bank k b).reload = some (a, true) ∧ (tget {} (u.bank k b).entries a).stored = r ∧ (tget {} (u.bank k b).entries a).ecc = []) ∧
  (∀ (s : State) (k : Fin 16) (b : Fin 8), ∃ u, exec (.sageMatchRowScrub k b []) s = .next u ∧
    (∀ a, (tget ({} : SageEntry) (u.bank k b).entries a).parityOk = true) ∧
    (tabSorted (s.bank k b).entries = true → ∀ a, (tget ({} : SageEntry) (s.bank k b).entries a).parityOk = true → tget {} (u.bank k b).entries a = tget {} (s.bank k b).entries a) ∧
    (∀ a, (tget ({} : SageEntry) (s.bank k b).entries a).parityOk = false → (tget {} (u.bank k b).entries a).row = (tget ({} : SageEntry) (s.bank k b).entries a).stored))

/-- A running GATHER waits until its source is decoded and readable, then, with no poisoned word in HBM, writes for each row
the cells of the row its index names, fill values for a void or null entry and past the table's rows, and makes rows with an
index out of range void in mode ERROR. SCATTER keeps for each destination the latest position and writes that source row and
nothing else; SCATTER_ADD draws its accumulation order, adds present elements and keeps the old value for an absent one; both
wait for a bus that may not be read. An index out of range is dropped, taken modulo N or clamped by INDEX_MODE. A running
layer of each operation ends (while no switch or swap waits for it), counts its products and leaves its number; a row of up
to 32 products is one group added once to +0; RELU leaves no sign; a bag follows its limits. (Rests on
07_gather_and_select.md R215, R216, R217, R218, R223, R224, R225, 11_millstone_inference.md R307, R311, R314, R315, R316,
R317, R318.) -/
def Obligations.GathersScattersAndLayersRun : Prop :=
  (∀ (s : State) (k : Fin 16) (slot : Fin 4096) (rs : Rows) (e : BusEnv) (j : Job2), let s0 := s.env e
    s0.unitJob k.val slot.val 4 1 = some j → let v := (s0.atStart j.r).viewTable e j.g j.r.stream (j.p 5)
    let ins := s0.indexIns j (j.p 0) (v.bound (j.p 2) (j.p 1)) (parseCol (j.p 6)) rs
    let outs := (takeCols (j.ps.drop 7)).1
    let cells := fun r => (List.range outs.length).mapM fun c => v.cell c r
    (j.p 2 = 0 → s0.tableReady j.r.stream (j.p 5) = false → exec (.gather k slot rs e) s = .next s0) ∧
    (j.p 2 ≠ 0 → s0.waitsTable (j.p 5) = true → exec (.gather k slot rs e) s = .next s0) ∧
    (Clean s0 → (j.p 2 = 0 → s0.tableReady j.r.stream (j.p 5) = true) → (j.p 2 ≠ 0 → s0.waitsTable (j.p 5) = false) →
      ∃ u f, exec (.gather k slot rs e) s = .next u ∧ TaskEnded u k slot f ∧ (j.t.stage = false → f = 0) ∧
      (u.units k).gth.nullIndex = sat32 (s0.units k).gth.nullIndex (ins.filter fun x => decide (x.2.2 = .null)).length ∧
      (∀ b x o, j.r.batch = some b → j.p 0 = 0 → ((s0.stream j.r.stream).batch b).isSome = true → x ∈ ins → x.2.2 = .at_ none o →
        u.voidOf j.r.stream (some b) x.2.1 ≠ 0) ∧
      (j.p 2 = 0 → j.t.stage = false → (∀ x ∈ ins, x.2.2 = .null ∨ ∃ r o, x.2.2 = .at_ (some r) o ∧ (r < v.rows → v.rowVoid (List.range outs.length) r = 0 ∧ (cells r).isSome = true)) →
        u.cstore k = (s0.putOuts j outs rs (ins.map fun x => match x.2.2 with
          | .at_ (some r) _ => if r < v.rows then (cells r).getD [] else []
          | _ => [])).cstore k))) ∧
  (∀ (s : State) (k : Fin 16) (slot : Fin 4096) (rs : Rows) (e : BusEnv) (j : Job2), let s0 := s.env e
    (s0.unitJob k.val slot.val 4 2 = some j → let v := s0.viewTable e j.g j.r.stream (j.p 5)
      let xs := applying (s0.indexIns j (j.p 0) (v.bound (j.p 2) (j.p 1)) (parseCol (j.p 6)) rs)
      (s0.waitsTable (j.p 5) = true → exec (.scatter k slot rs e) s = .next s0) ∧
      (s0.waitsTable (j.p 5) = false → Clean s0 → ∃ u, exec (.scatter k slot rs e) s = .next u ∧ TaskEnded u k slot 0 ∧
        (OfBatch s0 j → ∀ x ∈ xs, x.2.1 + 1 ≤ tget 0 ((u.scatRec j).getD []) x.2.2) ∧
        (∀ x a n, xs = [x] → v.exts = [{ addr := a, len := n, space := .hbm }] → j.p 2 = 1 → s0.scatRec j = none →
          j.p 4 * x.2.2 + j.p 3 ≤ n → j.p 4 * x.2.2 < n → (s0.slotRec k (((takeCols (j.ps.drop 7)).1.headD (parseCol 0)).slot)).isSome = true →
          readBytes u.mem.hbm (a + j.p 4 * x.2.2) (j.p 3) = s0.rawRow k ((takeCols (j.ps.drop 7)).1.headD (parseCol 0)) (j.p 4) x.1 (j.p 3) ∧
          ∀ i, (i < a + j.p 4 * x.2.2 ∨ a + j.p 4 * x.2.2 + j.p 3 ≤ i) → readByte u.mem.hbm i = readByte s0.mem.hbm i))) ∧
    (s0.unitJob k.val slot.val 4 3 = some j → (s0.waitsTable (j.p 6) = true → exec (.scatterAdd k slot rs e) s = .next s0) ∧
      (s0.waitsTable (j.p 6) = false → Clean s0 → ∃ u, exec (.scatterAdd k slot rs e) s = .next u ∧ TaskEnded u k slot 0 ∧
        (OfBatch s0 j → u.scatRec j ≠ none) ∧
        (j.p 2 = 1 → u.free = s0.free + (applying (s0.indexIns j (j.p 0) ((s0.viewTable e j.g j.r.stream (j.p 6)).bound (j.p 2) (j.p 1)) (parseCol (j.p 7)) rs)).length)))) ∧
  (∀ (mode n : Nat) (i : Int), (0 ≤ i ∧ i < n → resolveIndex mode n i = (some i.toNat, false)) ∧
    (¬ (0 ≤ i ∧ i < n) → (resolveIndex mode n i).2 = true ∧ (mode = 0 ∨ mode = 3 → (resolveIndex mode n i).1 = none) ∧
      (mode = 1 → 0 < n → (resolveIndex 1 n i).1 = some (i % (n : Int)).toNat ∧ (i % (n : Int)).toNat < n) ∧
      (mode = 2 → (resolveIndex 2 n i).1 = some (if i < 0 then 0 else n - 1)))) ∧
  (∀ (ty : Nat) (old new : Cell), (new.valid = false → scatterSum ty old new = old) ∧ (new.valid = true → old.valid = false → cellNan ty new = false → scatterSum ty old new = new)) ∧
  (∀ (s : State) (k : Fin 16) (slot : Fin 4096) (rs : Rows) (g : Graph) (t : Tpl) (r : TaskRec) (l : LayerRec),
    g.swapWait = false → g.switchWait = false →
    (s.layerJob k.val slot.val 1 = some (g, t, r, l) → ∃ u, exec (.gemm k slot rs) s = .next u ∧
      LayerRan s u k slot t (ceilDiv l.kk (layerKt l) * ceilDiv l.n 128 * (rs.count * max 1 rs.per) * layerKt l * 128)) ∧
    (s.layerJob k.val slot.val 3 = some (g, t, r, l) → ∃ u, exec (.interact k slot rs) s = .next u ∧
      LayerRan s u k slot t (rs.count * ceilDiv l.kk (layerKt l) * l.n * layerKt l * 128)) ∧
    (s.layerJob k.val slot.val 4 = some (g, t, r, l) → ∃ u, exec (.attnScore k slot rs) s = .next u ∧
      LayerRan s u k slot t (rs.count * l.heads * (ceilDiv l.kk (layerKt l) * ceilDiv l.n 128) * l.n * layerKt l * 128)) ∧
    (s.layerJob k.val slot.val 5 = some (g, t, r, l) → ∃ u, exec (.attnValue k slot rs) s = .next u ∧
      LayerRan s u k slot t (rs.count * l.heads * (ceilDiv l.n (layerKt l) * ceilDiv l.kk 128) * l.n * layerKt l * 128)) ∧
    (∀ e : BusEnv, (s.env e).layerJob k.val slot.val 2 = some (g, t, r, l) → Clean (s.env e) →
      (bitOf l.mode 5 = true → (s.env e).waitsBus ((s.env e).table l.table).extents = false) → ∃ u, exec (.embedBag k slot rs e) s = .next u ∧ TaskEnded u k slot 0 ∧
      (u.units k).mls.layer = t.layer ∧ (u.units k).mls.kernel = t.kernel)) ∧
  (∀ (a b : List FVal), a ≠ [] → a.length ≤ 32 → b.length = a.length → dot a b = accAdd 0 (groupSum (a.zip b))) ∧
  (∀ (scale : Nat) (bias : Option Nat) (a : Nat × Nat), bitOf (epilogue scale true bias none a).1 31 = false) ∧
  (∀ (l : LayerRec) (rows : Nat) (idx : Cell) (wts : Option Cell) (emb : Nat → Option (List FVal)),
    (idx.valid = false → (bagRow l rows idx wts emb).out = none ∧ (bagRow l rows idx wts emb).void_ = 0) ∧
    (idx.valid = true → l.maxBag < idx.elems.length → (bagRow l rows idx wts emb).void_ = 2) ∧
    (idx.valid = true → idx.elems = [] → wts = none → (bagRow l rows idx wts emb).out = some (List.replicate l.kk 0) ∧ (bagRow l rows idx wts emb).empty = true) ∧
    (∀ w, idx.valid = true → idx.elems.length ≤ l.maxBag → wts = some w → w.valid = true → w.elems.length ≠ idx.elems.length →
      (bagRow l rows idx wts emb).void_ = 1 ∧ (bagRow l rows idx wts emb).mismatch = true))

/-- A lane begins the batch that comes next once its slots are computed, owing exactly its own slots; every batch that
reaches its start uncomputed counts one stall. A failed fetch (in D0, of memory not held, of no refused unit) makes the rows
it covers void with VR_SOURCE_ERROR, a header past a limit with VR_OVER_LIMIT and its unit is read no more, a broken page
with VR_CORRUPT; a decoded row is written to its tiles. The next sample, within its budget, is tokenised and counted, or
decoded into the lane's image buffer; one past it is abandoned with VR_OVER_BUDGET and charged its limit, an image past its
size limits is void and no sample; a bad image or geometry makes its row void. Lovage takes the oldest decoded image of its
row. The Feistel network is a bijection below 2^(2h). (Rests on 09_intake_and_shuffle.md R270, R271, R272, R275, R276, R277,
R279, R284, R545, 10_tokens_and_images.md R287, R289, R291, R295, R302, R305.) -/
def Obligations.IntakeLanesWork : Prop :=
  (∀ (s : State) (g : Graph) (i : Fin 8) (n : Fin 64) (b j : Nat), s.work.graph = some g → s.laneNo g i = some j → s.laneWorks i = true →
    (s.stream n).phase = .open_ → (s.lane i).shuffled.contains (n.val, b) = false →
    (b < (s.stream n).released ∨ (s.stream n).released + 16 < b → exec (.shuffleSlotsComputed i n b) s = .next (s.noteStalls i)) ∧
    ((s.stream n).released ≤ b → b ≤ (s.stream n).released + 16 → ∃ u, exec (.shuffleSlotsComputed i n b) s = .next u ∧
      (n.val, b) ∈ (u.lane i).shuffled ∧ (u.lane i).shufStall = ((s.noteStalls i).lane i).shufStall ∧ ∀ m, m ≠ i.val → u.lane m = s.lane m)) ∧
  (∀ (s : State) (i : Nat), (∀ p ∈ s.laneStalls i, p ∈ ((s.noteStalls i).lane i).stalls) ∧ (∀ m, m ≠ i → (s.noteStalls i).lane m = s.lane m) ∧
    (s.newStalls i ≠ [] → ((s.noteStalls i).lane i).shufStall = sat32 (s.lane i).shufStall (s.newStalls i).length)) ∧
  (∀ (s : State) (g : Graph) (i : Fin 8) (n : Fin 64) (b j im tx : Nat) (x : Batch) (c : Cadence), s.work.graph = some g → s.laneNo g i = some j →
    (s.stream n).batch b = some x → s.cadence n = some c →
    (s.pos < x.start → exec (.intakeBatchBegin i n b im tx) s = .next (s.noteStalls i)) ∧
    (LaneMayBegin s i n b x → (s.lane i).shuffled.contains (n.val, b) = true → laneSlots g.cfg.intake j c.rows ≠ [] →
      ∃ u, exec (.intakeBatchBegin i n b im tx) s = .next u ∧ (u.lane i).cur = some (n.val, b) ∧ (u.lane i).todo = laneSlots g.cfg.intake j c.rows ∧
        (u.lane i).raw = [] ∧ (u.lane i).image = { total := im } ∧ (u.lane i).text = { total := tx }) ∧
    ((s.lane i).shuffled.contains (n.val, b) = false → exec (.intakeBatchBegin i n b im tx) s = .next (s.noteStalls i))) ∧
  (∀ (s : State) (g : Graph) (i : Fin 8) (n : Fin 64) (b off len : Nat) (x : UnitRows) (e : BusEnv), LaneOnBatch (s.env e) g i n b →
    let s0 := s.env e
    let ps := extPieces (s0.laneExts e g n (.batch b)) off len
    let t := ps.foldl (fun t p => t.readEffect p.1 p.2.1 p.2.2) s0
    let ok := (extRead (s0.peek e) (s0.laneExts e g n (.batch b)) off len).isSome
    (s0.fetchOpen i n (.batch b) off len x = false → exec (.intakeFetchComplete i n (.batch b) off len x e) s = .next s0) ∧
    (s0.inD0 = true → s0.memHeld ps = false → s0.fetchOpen i n (.batch b) off len x = true → t.laneRuns i = true →
      (ok = true → ∃ u, exec (.intakeFetchComplete i n (.batch b) off len x e) s = .next u ∧ (u.lane i).bytesIn = ((s0.lane i).bytesIn + len) % 2 ^ 64 ∧
        (u.lane i).todo = (s0.lane i).todo ∧ (u.lane i).fetchSlot = max (s0.lane i).fetchSlot (x.rows.foldl min (x.rows.headD 0))) ∧
      (ok = false → ∃ u, exec (.intakeFetchComplete i n (.batch b) off len x e) s = .next u ∧
        ∀ r ∈ x.rows, r ∈ (s0.lane i).todo → s0.voidOf n (some b) r = 0 → VoidedBy u i n b r 4))) ∧
  (∀ (s : State) (i n off len a z : Nat) (into : Into) (x : UnitRows), a < off + len → off < a + z →
    (n, into, a, z) ∈ (s.lane i).refused → s.fetchOpen i n into off len x = false) ∧
  (∀ (s : State) (g : Graph) (i : Fin 8) (n : Fin 64) (b : Nat) (h : UnitHeader) (x : UnitRows), LaneOnBatch s g i n b →
    (h.sizes.any (g.intakeRec n).exceeds = false → ∃ u, exec (.intakeHeaderCheck i n (.batch b) h x) s = .next u ∧
      u.lane i = { s.lane i with passed := (n.val, .batch b, h.off, h.len) :: (s.lane i).passed }) ∧
    (h.sizes.any (g.intakeRec n).exceeds = true → ∃ u, exec (.intakeHeaderCheck i n (.batch b) h x) s = .next u ∧
      (n.val, Into.batch b, h.off, h.len) ∈ (u.lane i).refused ∧ ∀ r ∈ x.rows, r ∈ (s.lane i).todo → s.voidOf n (some b) r = 0 → VoidedBy u i n b r 2)) ∧
  (∀ (s : State) (g : Graph) (i : Fin 8) (n : Fin 64) (b r : Nat) (d : Dest) (ds : List Declared) (fs : List RawCell) (cause : Fin 5) (e : BusEnv), LaneOnBatch (s.env e) g i n b →
    let s0 := s.env e
    let row := pageRow (g.intakeRec n) (s0.viewSource e g n).cols fs
    (s0.lane i).todo.head? = some r → s0.voidOf n (some b) r = 0 → s0.takes g n (.batch b) (.page ds [(r, fs)]) = true →
    (ds.any (g.intakeRec n).exceeds = true → ∃ u, exec (.intakePageDecode i n (.batch b) [d] (.page ds [(r, fs)]) e) s = .next u ∧ VoidedBy u i n b r 2) ∧
    (ds.any (g.intakeRec n).exceeds = false → ∃ u, exec (.intakePageDecode i n (.batch b) [d] (.page ds [(r, fs)]) e) s = .next u ∧ VoidedBy u i n b r row.1 ∧
      (row.1 = 0 → ∀ k, s0.destCluster d = some k → u.cstore k = (((s0.noteCols n b (s0.destCols [d])).putDest n b d [rowOut r row]).2).cstore k)) ∧
    (∃ u, exec (.intakePageDecode i n (.batch b) [d] (.broken cause [r]) e) s = .next u ∧ VoidedBy u i n b r 1)) ∧
  (∀ (s : State) (g : Graph) (i : Fin 8) (n : Fin 64) (b slot col : Nat) (d : TokDecl) (v : Bytes) (dst : Dest), s.work.graph = some g →
    s.sampleOpen g i n b slot col (.text d v) = true → (slot, false, (g.textsOf n).idxOf d) ∉ (s.lane i).made → let t := (tokenise g d v).1
    (s.sampleFits g i n (.text d v) = false → exec (.tokenise i n b ⟨slot, col⟩ d (some v) dst) s = .next s) ∧
    (∀ ids cut, s.sampleFits g i n (.text d v) = true → s.voidOf n (some b) slot = 0 → tokCut d t.ids = (some ids, cut) →
      ∃ u, exec (.tokenise i n b ⟨slot, col⟩ d (some v) dst) s = .next u ∧
      (u.lane i).tokens = ((s.lane i).tokens + ids.length) % 2 ^ 64 ∧ (u.lane i).samples = ((s.lane i).samples + 1) % 2 ^ 64 ∧
      (u.lane i).fallback = sat32 (s.lane i).fallback t.falls ∧ (u.lane i).text.done = (s.lane i).text.done + 1 ∧
      ∀ k, u.cstore k = (s.putTokens n b d dst slot (some ids) cut false).cstore k) ∧
    (∀ cut, s.sampleFits g i n (.text d v) = true → s.voidOf n (some b) slot = 0 → tokCut d t.ids = (none, cut) →
      ∃ u, exec (.tokenise i n b ⟨slot, col⟩ d (some v) dst) s = .next u ∧ u.voidOf n (some b) slot = 2)) ∧
  (∀ (s : State) (g : Graph) (i : Fin 8) (n : Fin 64) (b slot col : Nat) (v : Bytes), s.work.graph = some g → s.sampleOpen g i n b slot col (.image v) = true →
    s.voidOf n (some b) slot = 0 →
    ((g.intakeRec n).imageOver v = true → ∃ u, exec (.jpegDecode i n b ⟨slot, col⟩ v) s = .next u ∧ u.voidOf n (some b) slot = 2 ∧ (u.lane i).samples = (s.lane i).samples) ∧
    ((g.intakeRec n).imageOver v = false → s.sampleFits g i n (.image v) = true → ∀ m, (jpegOf v).res = .ok m → m.w * m.h ≤ 4194304 →
      ∃ u, exec (.jpegDecode i n b ⟨slot, col⟩ v) s = .next u ∧ (u.lane i).pixels = ((s.lane i).pixels + (jpegOf v).padded) % 2 ^ 64 ∧
        (u.lane i).images = (s.lane i).images ++ [{ slot := slot, col := col, left := ((g.imagesOf n).zipIdx.filter fun d => d.1.col == col).map fun d => d.2, w := m.w, h := m.h, gray := m.comps == 1, staged := false, pix := m.pixels s.free }]) ∧
    ((g.intakeRec n).imageOver v = false → s.sampleFits g i n (.image v) = true → ∀ c, (jpegOf v).res = .error c →
      ∃ u, exec (.jpegDecode i n b ⟨slot, col⟩ v) s = .next u ∧ u.voidOf n (some b) slot = 1 ∧ (u.lane i).lastError = jpgFault v)) ∧
  (∀ (s : State) (g : Graph) (i : Fin 8) (n : Fin 64) (b slot col : Nat) (x : Sample), s.work.graph = some g → s.sampleOpen g i n b slot col x = true →
    s.voidOf n (some b) slot = 0 →
    ((g.intakeRec n).sampleOver x = true → ∃ u, exec (.sampleAbandon i n b ⟨slot, col⟩ x) s = .next u ∧ u.voidOf n (some b) slot = 2 ∧ (u.lane i).samples = (s.lane i).samples) ∧
    ((g.intakeRec n).sampleOver x = false → s.sampleFits g i n x = true → exec (.sampleAbandon i n b ⟨slot, col⟩ x) s = .next s) ∧
    ((g.intakeRec n).sampleOver x = false → s.sampleFits g i n x = false → ∃ u, exec (.sampleAbandon i n b ⟨slot, col⟩ x) s = .next u ∧ u.voidOf n (some b) slot = 3 ∧
      ((u.lane i).budget (smpClass x)).used = ((s.lane i).budget (smpClass x)).used + (smpRec (g.intakeRec n) x).limit ((s.lane i).budget (smpClass x)) ∧
      (u.lane i).voidBudget = sat32 (s.lane i).voidBudget 1)) ∧
  (∀ (s : State) (g : Graph) (i : Fin 8) (n : Fin 64) (b slot : Nat) (d : PrepDecl) (dst : Dest) (m : Img) (rest : List Img), LovageMay s g i n b slot d m rest →
    let l := s.lane i
    let mesh := l.rowList slot d.meshCol
    let lens := l.rowList slot d.lensCol
    let o := (g.imagesOf n).idxOf d
    ∃ u, exec (.lovageImage i n b slot d true mesh lens dst) s = .next u ∧ (u.lane i).images = (l.imageDone slot d.col o).images ∧ (slot, true, o) ∈ (u.lane i).made ∧
    (prepBad d (prepMesh d mesh) (prepLens d lens) m.w m.h = true → u.voidOf n (some b) slot = 1 ∧ (u.lane i).badGeom = sat32 l.badGeom 1) ∧
    (prepBad d (prepMesh d mesh) (prepLens d lens) m.w m.h = false → u.voidOf n (some b) slot = 0 ∧ (u.lane i).badGeom = l.badGeom)) ∧
  (∀ (h : Nat) (rk : List Nat) (x y : Nat), h ≤ 64 → x < 4 ^ h → y < 4 ^ h → feistel x h rk < 4 ^ h ∧ (feistel x h rk = feistel y h rk → x = y))

/-- Reserved channels reject their control writes. CH_ARM starts an idle or parked channel at its head, otherwise fills the
armed slot or records an overrun; CH_REPOKE rereads the LINK of the tail; CH_ABORT idles a channel or cancels its descriptor;
CH_RESUME restarts the failed descriptor and CH_RESUME_SKIP rereads its LINK. A batched fetch yields the first descriptor and
those the links prove; a failing one halts the channel. A reread LINK continues, repeats or parks. A descriptor that fails a
check ends with its status, else waits for its trigger or starts, one with ORDER only after the earlier writes, and none
begins while WARM_RESTART waits or the engine is under test. A completed one is recorded, counted with those it covers, and
followed by its LINK; a failed write of its record is retried, then given up (log entry 100); an error halts a host-owned
channel. (Rests on 13_memory_and_movers.md R380, R381, R383, R385, R386, R387, R388, R389, R390, R393, R397, R398, R400.) -/
def Obligations.ChannelsRunTheirChains : Prop :=
  (∀ (s : State) (c : Fin 64) (m : Master), 56 ≤ c.val →
    exec (.chArm c m) s = .next (s.reject (0x80000 + c.val * 0x400 + 0x10) m.val) ∧ exec (.chRepoke c m) s = .next (s.reject (0x80000 + c.val * 0x400 + 0x14) m.val) ∧
    exec (.chAbort c m) s = .next (s.reject (0x80000 + c.val * 0x400) m.val) ∧ exec (.chResume c m) s = .next (s.reject (0x80000 + c.val * 0x400) m.val) ∧
    exec (.chResumeSkip c m) s = .next (s.reject (0x80000 + c.val * 0x400) m.val)) ∧
  (∀ (s : State) (c : Fin 64) (m : Master), c.val < 56 → let x := s.chan c
    (∃ u, exec (.chArm c m) s = .next u ∧ (∀ i, i ≠ c.val → u.chan i = s.chan i) ∧
      (x.armed.isSome = true → u.chan c = { x with armOverrun := true, armOverruns := sat32 x.armOverruns 1 }) ∧
      (x.armed = none → x.state = .idle ∨ x.state = .parked → (u.chan c).state = .fetch ∧ (u.chan c).fetching = some x.head.val.toNat ∧ (u.chan c).rereading = false) ∧
      (x.armed = none → x.state ≠ .idle → x.state ≠ .parked → u.chan c = { x with armed := some x.head.val.toNat })) ∧
    (∃ u, exec (.chRepoke c m) s = .next u ∧
      (x.state = .idle ∨ x.state = .parked → (u.chan c).state = .fetch ∧ (u.chan c).fetching = some x.tail ∧ (u.chan c).rereading = true) ∧
      (x.state = .fetch → x.rereading = true → u.chan c = x) ∧
      (x.state ≠ .idle → x.state ≠ .parked → (x.state = .fetch → x.rereading = false) → u.chan c = { x with repoke := true })) ∧
    (∃ u, exec (.chAbort c m) s = .next u ∧ (u.chan c).armed = none ∧
      (x.job = none → (u.chan c).state = .idle ∧ (u.chan c).fetching = none) ∧
      (∀ j, x.job = some j → j.failed = none → x.state = .run → (u.chan c).aborting = true ∧ (u.chan c).job = some { j with failed := some 0x02 })) ∧
    (∃ u, exec (.chResume c m) s = .next u ∧ (x.state ≠ .halted → u.chan c = x) ∧
      (∀ j, x.state = .halted → x.job = some j → (u.chan c).state = .run ∧ (u.chan c).job = some (newJob j.desc)) ∧
      (x.state = .halted → x.job = none → (u.chan c).state = .fetch ∧ (u.chan c).fetching = some x.cur ∧ (u.chan c).rereading = x.rereading)) ∧
    (∃ u, exec (.chResumeSkip c m) s = .next u ∧ (x.state ≠ .halted → u.chan c = x) ∧
      (x.state = .halted → (u.chan c).state = .fetch ∧ (u.chan c).fetching = some x.cur ∧ (u.chan c).rereading = true))) ∧
  (∀ (s : State) (c : Fin 64) (e : BusEnv) (a : Nat), let s0 := s.env e
    let x := s0.chan c
    (s0.fetchHeld x = true → exec (.descriptorFetchComplete c e) s = .next s0 ∧ exec (.linkRereadComplete c e) s = .next s0) ∧
    (x.state = .fetch → x.fetching = some a → s0.fetchHeld x = false →
    (x.rereading = false → exec (.linkRereadComplete c e) s = .next s0 ∧
      (∀ b, (s0.chainRead e x a (64 * 2 ^ x.cfg.batch)).1 = some b → ∃ u, exec (.descriptorFetchComplete c e) s = .next u ∧
        (u.chan c).state = .run ∧ (u.chan c).job = some (newJob (parseDesc a (b.take 64))) ∧ (u.chan c).cur = a ∧
        ∀ d, (u.chan c).fetched.head? = some d → d.addr = a + 64 ∧ (parseDesc a (b.take 64)).isEnd = false ∧ (parseDesc a (b.take 64)).next = a + 64) ∧
      ((s0.chainRead e x a (64 * 2 ^ x.cfg.batch)).1 = none → (s0.chainRead e x a 64).1 = none → ∃ u, exec (.descriptorFetchComplete c e) s = .next u ∧
        (u.chan c).state = .halted ∧ (u.chan c).errInfo = (if x.cfg.chain = .bus then 0x2001 else 0x2004) ∧
        (u.chan c).errAddr = a)) ∧
    (x.rereading = true → exec (.descriptorFetchComplete c e) s = .next s0 ∧
      (∀ b, (s0.chainRead e x a 8).1 = some b → ∃ u, exec (.linkRereadComplete c e) s = .next u ∧
        (leNat b % 2 = 0 → (u.chan c).state = .fetch ∧ (u.chan c).rereading = false ∧ (u.chan c).fetching = some (leNat (b.take 8) / 64 * 64)) ∧
        (leNat b % 2 = 1 → (u.chan c).tail = a ∧ (x.armed = none → (u.chan c).state = .parked) ∧
          ∀ h, x.armed = some h → (u.chan c).state = .fetch ∧ (u.chan c).rereading = false ∧ (u.chan c).fetching = some h ∧ (u.chan c).armed = none))))) ∧
  (∀ (s : State) (c : Fin 64) (j : Job) (i : Instr), ((i, j.desc.op) = (.dmaCopy c, 0) ∨ (i, j.desc.op) = (.dmaFill c, 1) ∨ (i, j.desc.op) = (.dmaCrc c, 2)) →
    (s.chan c).state = .run → (s.chan c).job = some j → j.started = false → j.failed = none →
    (s.warmWaits = true ∨ s.isFenced 13 0 = true → exec i s = .next s) ∧ (s.warmWaits = false → s.isFenced 13 0 = false →
    (s.descCheck c (s.chan c).cfg j.desc ≠ 0 → ∃ u, exec i s = .next u ∧ (u.chan c).job = some { j with failed := some (s.descCheck c (s.chan c).cfg j.desc) }) ∧
    (s.descCheck c (s.chan c).cfg j.desc = 0 → j.desc.trig ≠ 0 → j.fired = false → ∃ u, exec i s = .next u ∧ (u.chan c).state = .waitTrig) ∧
    (s.descCheck c (s.chan c).cfg j.desc = 0 → j.desc.trig = 0 → s.descTouches j.desc s.draining = false → j.desc.order = true → (s.chan c).owedDescs ≠ 0 → exec i s = .next s) ∧
    (s.descCheck c (s.chan c).cfg j.desc = 0 → j.desc.trig = 0 → s.descTouches j.desc s.draining = false → (j.desc.order = true → (s.chan c).owedDescs = 0) → ∃ u, exec i s = .next u ∧
      (u.chan c).job = some { j with started := true, crcReg := if j.desc.cont = true then (s.chan c).crcKept else if j.desc.crc64 = true then 0 else 0xFFFFFFFF }))) ∧
  (∀ (s : State) (c : Fin 64) (j : Job) (t : Nat), let s0 := s.at_ t
    (s0.chan c).state = .waitTrig → (s0.chan c).job = some j → j.fired = false → j.desc.trig = 1 →
    ((s0.chan c).trigCount = 0 → exec (.dmaTriggerFire c t) s = .next s0) ∧
    (s0.isFenced 13 0 = true → exec (.dmaTriggerFire c t) s = .next s0) ∧
    (0 < (s0.chan c).trigCount → s0.isFenced 13 0 = false → j.started = false → j.failed = none → j.desc.op ≤ 2 → ∃ u k, exec (.dmaTriggerFire c t) s = .next u ∧
      (u.chan c).trigCount = (s0.chan c).trigCount - 1 ∧ (u.chan c).job = some k ∧ k.fired = true)) ∧
  (∀ (s : State) (c : Fin 64) (j : Job) (t : Nat), let s0 := (s.at_ t).env ⟨[], [], []⟩
    let x := s0.chan c
    x.state = .run → x.job = some j → j.moved = true →
    (x.needsRead j = true ∧ j.cplDone = false ∨ s0.now < j.cplUntil → exec (.descriptorComplete c ⟨[], [], []⟩ t) s = .next s0) ∧
    ((x.needsRead j = true → j.cplDone = true) → j.cplUntil ≤ s0.now → (j.desc.hasCmp = true → j.desc.cmpSp = 0 → s0.writeOpen = true) → x.aborting = false →
      (x.fetched = [] → x.repoke = false → j.failed = none → j.desc.check = false →
      ∃ u, exec (.descriptorComplete c ⟨[], [], []⟩ t) s = .next u ∧
        (x.owes j = true → (u.chan c).descs = x.descs ∧ (u.chan c).owedDescs = x.owedDescs + 1 ∧ (u.chan c).owedBytes = x.owedBytes + j.desc.len) ∧
        (x.owes j = false → (u.chan c).lastStatus = 0 ∧ (u.chan c).descs = (x.descs + x.owedDescs + 1) % 2 ^ 64 ∧
          (u.chan c).bytes = (x.bytes + x.owedBytes + j.desc.len) % 2 ^ 64 ∧ (u.chan c).owedDescs = 0) ∧ (u.chan c).state = .fetch ∧
        (j.desc.isEnd = true → (u.chan c).rereading = true ∧ (u.chan c).fetching = some j.desc.addr) ∧
        (j.desc.isEnd = false → (u.chan c).rereading = false ∧ (u.chan c).fetching = some j.desc.next) ∧
        (j.desc.hasCmp = true → j.desc.cmpSp = 0 → j.recTries < 8 → s0.mayOutput = true → j.desc.hasPulse = false → readBytes u.mem.bus j.desc.cmp 32 = dmaRecord j 0 s0.pos false)) ∧
      (c.val < 56 → ∀ st, j.failed = some st → st ≠ 0 →
      ∃ u, exec (.descriptorComplete c ⟨[], [], []⟩ t) s = .next u ∧ (u.chan c).state = .halted ∧ (u.chan c).lastStatus = st ∧
        (u.chan c).bytes = (x.bytes + x.owedBytes) % 2 ^ 64))) ∧
  (∀ (s : State) (c : Fin 64) (e : BusEnv) (t : Nat) (j : Job), let s0 := (s.at_ t).env e
    let x := s0.chan c
    x.state = .run → x.job = some j → j.moved = true → (x.needsRead j = true → j.cplDone = true) → j.cplUntil ≤ s0.now → s0.writeOpen = true →
    j.desc.hasCmp = true → j.desc.cmpSp = 0 → envFails e j.desc.cmp 32 = true →
    (j.recTries < 8 → j.recTries < x.cfg.retries c → ∃ u k, exec (.descriptorComplete c e t) s = .next u ∧ (u.chan c).state = .run ∧ (u.chan c).descs = x.descs ∧
      (u.chan c).job = some k ∧ k.desc = j.desc ∧ k.recTries = j.recTries + 1 ∧ k.cplUntil = s0.now + 2 ^ j.recTries * 1000) ∧
    (j.recTries < 8 → x.cfg.retries c ≤ j.recTries → ∃ u k, exec (.descriptorComplete c e t) s = .next u ∧ (u.chan c).job = some k ∧ k.failed = some (j.failed.getD 0x20))) ∧
  (∀ l : List Desc, usable l <+: l)

/-- A burst never crosses 4 KiB and stays within its transfer; the engine serves the highest priority. A returned burst
writes exactly its bytes; a failing one waits 1, 2, 4, ... microseconds and is read afresh, or ends the descriptor with its
status after its retries; so does the completion read, which an ORDER descriptor makes for those before it. Outside D0 no bus
access is made, nor by an engine under test. A scrub pass corrects the single-bit words of its controller. A bad flit is
counted and replayed, a flit for its own router leaves by the local port. Shares above 64 in sum are refused whole. BAR2
reads and writes HBM bytes, poisoned ones as such, or counts an unmapped access. (Rests on 13_memory_and_movers.md R363,
R366, R369, R371, R372, R378, R379, R384, R391, R392, R395, R399.) -/
def Obligations.BurstsAndFabricMoveData : Prop :=
  (∀ (g : ChCfg) (c : Nat) (d : Desc) (off : Nat), off < d.len → let n := (burstLen g c d off).1
    0 < n ∧ off + n ≤ d.len ∧ (d.op ≠ 1 → (d.src + off) % 4096 + n ≤ 4096) ∧ (d.op ≠ 2 → (d.dst + off) % 4096 + n ≤ 4096)) ∧
  (∀ (s : State) (c : Nat), s.nextChan = some c → s.burstReady c = true ∧ ∀ d, d < 64 → s.burstReady d = true → (s.chan d).prio ≤ (s.chan c).prio) ∧
  (∀ (s : State) (e : BusEnv), let s0 := s.env e
    (s0.nextChan = none → exec (.burstIssue e) s = .next s0) ∧
    (∀ c j, s0.nextChan = some c → (s0.chan c).job = some j → j.desc.srcSp = 0 → j.desc.op ≠ 1 → let n := (burstLen (s0.chan c).cfg c j.desc j.issued).1
      ∃ u k, exec (.burstIssue e) s = .next u ∧ (u.chan c).job = some k ∧ k.issued = j.issued + n ∧ k.desc = j.desc ∧
        k.flight = j.flight ++ [{ off := j.issued, len := n, data := (s0.busRead e (j.desc.src + j.issued) n).getD [], poisoned := false, bad := (s0.busRead e (j.desc.src + j.issued) n).isNone, tries := 0, until_ := none, tq := chanTq c }] ∧
        ∀ i, i ≠ c → u.chan i = s0.chan i)) ∧
  (∀ (s : State) (c : Fin 64) (t : Nat) (j : Job) (b : Burst) (rest : List Burst), let s0 := s.at_ t
    (s0.chan c).job = some j → j.flight = b :: rest → b.until_ = none → b.poisoned = false → (j.desc.op ≠ 2 → j.desc.dstSp = 0 → s0.writeEnds = true) →
    (∀ x, b.bad = false → j.desc.op ≠ 2 → j.desc.dstSp = 1 → s0.devTarget (j.desc.dst + b.off) b.data.length = some (.hbm, x) → ∃ u, exec (.burstResponse c none t) s = .next u ∧
      readBytes u.mem.hbm x b.data.length = b.data ∧ (∀ a, (a < x ∨ x + b.data.length ≤ a) → readByte u.mem.hbm a = readByte s0.mem.hbm a) ∧
      (u.chan c).job = some { j with flight := rest, crcReg := j.crcStep b.data }) ∧
    (∀ f : Fin 7, f.val ≠ 0 → f.val ≠ 6 → b.tries < (s0.chan c).cfg.retries c → ∃ u, exec (.burstResponse c (some f) t) s = .next u ∧ u.mem.hbm = s0.mem.hbm ∧
      (u.chan c).job = some { j with flight := { b with tries := b.tries + 1, until_ := some (s0.now + 2 ^ b.tries * 1000) } :: rest }) ∧
    (b.bad = true → b.tries < (s0.chan c).cfg.retries c → ∃ u, exec (.burstResponse c none t) s = .next u ∧ u.mem.hbm = s0.mem.hbm ∧
      (u.chan c).job = some { j with flight := { b with tries := b.tries + 1, until_ := some (s0.now + 2 ^ b.tries * 1000) } :: rest }) ∧
    (∀ f : Fin 7, f.val ≠ 0 → (f.val = 6 ∨ (s0.chan c).cfg.retries c ≤ b.tries) → ∃ u k, exec (.burstResponse c (some f) t) s = .next u ∧
      (u.chan c).job = some k ∧ k.failed = some (if f.val = 6 then 0x21 else 0x20) ∧ k.flight = [])) ∧
  (∀ (s : State) (c : Fin 64) (e : BusEnv) (t w : Nat) (j : Job) (b : Burst) (rest : List Burst), let s0 := (s.at_ t).env e
    (s0.chan c).job = some j → j.flight = b :: rest → b.until_ = some w → j.desc.op = 0 → j.desc.srcSp = 0 →
    (s0.now < w → exec (.burstRetry c e t) s = .next s0) ∧
    (s0.inD0 = false ∨ s0.isFenced 13 0 = true → exec (.burstRetry c e t) s = .next s0) ∧
    (w ≤ s0.now → s0.inD0 = true → s0.isFenced 13 0 = false → ∃ u k, exec (.burstRetry c e t) s = .next u ∧ (u.chan c).job = some k ∧ (u.chan c).retries = sat32 (s0.chan c).retries 1 ∧
      k.flight = { b with data := (s0.busRead e (j.desc.src + b.off) b.len).getD [], poisoned := false, bad := (s0.busRead e (j.desc.src + b.off) b.len).isNone, until_ := none, tq := chanTq c } :: rest)) ∧
  (∀ (s : State) (c : Fin 64) (t : Nat) (j : Job), let s0 := s.at_ t
    (s0.chan c).state = .run → (s0.chan c).job = some j → j.cplUntil ≤ s0.now →
    (s0.inD0 = false ∨ s0.isFenced 13 0 = true → exec (.completionReadReturn c true t) s = .next s0) ∧
    (s0.inD0 = true → s0.isFenced 13 0 = false → (j.cplTries = 0 ∨ s0.writeOpen = true) → (s0.chan c).ordered j = true →
      ∃ u, exec (.completionReadReturn c true t) s = .next u ∧ (u.chan c).owedDescs = 0 ∧ (u.chan c).job = some { j with cplTries := 0 } ∧
        (u.chan c).descs = ((s0.chan c).descs + (s0.chan c).owedDescs) % 2 ^ 64 ∧ Out.busRead ((s0.chan c).readAt j) 4 ∈ u.out) ∧
    (s0.inD0 = true → s0.isFenced 13 0 = false → (j.cplTries = 0 ∨ s0.writeOpen = true) → j.moved = true → (s0.chan c).needsRead j = true → j.cplDone = false →
    (∃ u, exec (.completionReadReturn c true t) s = .next u ∧ (u.chan c).job = some { j with cplDone := true } ∧ Out.busRead ((s0.chan c).readAt j) 4 ∈ u.out) ∧
    (j.cplTries < (s0.chan c).cfg.retries c → ∃ u k, exec (.completionReadReturn c false t) s = .next u ∧ (u.chan c).job = some k ∧ k.cplDone = false ∧
      k.cplUntil = s0.now + 2 ^ j.cplTries * 1000) ∧
    ((s0.chan c).cfg.retries c ≤ j.cplTries → j.failed = none → ∃ u k, exec (.completionReadReturn c false t) s = .next u ∧ (u.chan c).job = some k ∧ k.failed = some 0x20))) ∧
  (∀ (s : State) (c : Fin 8) (e : BusEnv), let s0 := s.env e
    ((s0.hbmCtl c).period = 0 ∨ s0.domOff (26 + c.val) = true → exec (.hbmPatrolScrub c e) s = .next s0) ∧
    ((s0.hbmCtl c).period ≠ 0 → s0.domOff (26 + c.val) = false → ∃ u, exec (.hbmPatrolScrub c e) s = .next u ∧
      (u.hbmCtl c).passes = ((s0.hbmCtl c).passes + 1) % 2 ^ 32 ∧ u.mem.hbm = s0.mem.hbm ∧
      ∀ w, s0.stackOf (w * 8) = c.val → s0.hbmOk (w * 8) 8 = true → s0.memHeld [(.hbm, w * 8, 8)] = false → tget .good s0.mem.ecc w = .single → tget .good u.mem.ecc w = .good)) ∧
  (∀ (s : State) (k : Fin 16) (port : Fin 5) (cls : Fin 3) (tq : Fin 8) (f : FlitIn) (cyc : Nat), let r := s.router k
    let n := tget 0 r.replays port.val + 1
    let x := s.arriving k port cls tq f
    (n ≤ 16 → ∃ u, exec (.netenFlitReceive k port cls tq f false cyc) s = .next u ∧ (u.router k).retry = sat32 r.retry 1 ∧ tget 0 (u.router k).replays port.val = n ∧
      (u.router k).held = r.held) ∧
    (classDepth x.cls ≤ (tget [] r.held (3 * port + x.cls)).length → exec (.netenFlitReceive k port cls tq f true cyc) s = .next s) ∧
    (r.held = [] → r.sent = [] → s.isFenced 9 k = false → x.cls < 3 → x.dst = k.val → f.resp = 0 → ∃ u, exec (.netenFlitReceive k port cls tq f true cyc) s = .next u ∧
      (u.router k).held = [] ∧ (u.router k).flits = (r.flits + 1) % 2 ^ 64 ∧ tget [] (u.router k).sent 4 = [(cyc, x.tq)] ∧
      (x.num = x.last → (u.router k).packets = (x.cls, x.tq, tget [] r.rx x.pkt ++ x.payload) :: r.packets))) ∧
  (∀ k d : Fin 16, routePort k.val d.val = 4 ↔ k = d) ∧
  (∀ (s : State) (k : Fin 16), ((s.router k).pending = none → ∃ u, exec (.netShareApply k) s = .next u ∧ u.router k = s.router k) ∧
    ∀ p, (s.router k).pending = some p → ∃ u, exec (.netShareApply k) s = .next u ∧ (u.router k).pending = none ∧
      (p.foldl (· + ·) 0 ≤ 64 → (u.router k).shares = p) ∧ (64 < p.foldl (· + ·) 0 → (u.router k).shares = (s.router k).shares ∧ (u.router k).qosErr = true)) ∧
  (∀ (s : State) (off len : Nat) (e : BusEnv), let s0 := s.env e
    (s0.bar2Ok off len = true → s0.devHeld off len = true → exec (.bar2Read off len e) s = .next s0) ∧
    (s0.bar2Ok off len = true → s0.devHeld off len = false → off < 0x004800000000 → ∃ u, exec (.bar2Read off len e) s = .next u ∧ u.mem.hbm = s0.mem.hbm ∧
      (s0.poisonAt off len = false → Out.data (readBytes s0.mem.hbm off len) ∈ u.out) ∧ (s0.poisonAt off len = true → Out.poisoned (readBytes s0.mem.hbm off len) ∈ u.out)) ∧
    (s0.bar2Ok off len = false → ∃ u, exec (.bar2Read off len e) s = .next u ∧ u.pci.unmapped = sat32 s0.pci.unmapped 1 ∧ Out.unsupported off ∈ u.out ∧ u.mem.hbm = s0.mem.hbm)) ∧
  (∀ (s : State) (off : Nat) (bs : Bytes),
    (s.bar2Ok off bs.length = true → s.devHeld off bs.length = false → off < 0x004800000000 → ∃ u, exec (.bar2Write off bs) s = .next u ∧ readBytes u.mem.hbm off bs.length = bs ∧
      ∀ a, (a < off ∨ off + bs.length ≤ a) → readByte u.mem.hbm a = readByte s.mem.hbm a) ∧
    (s.bar2Ok off bs.length = false → ∃ u, exec (.bar2Write off bs) s = .next u ∧ u.mem.hbm = s.mem.hbm ∧ u.pci.unmapped = sat32 s.pci.unmapped 1))

/-- A post makes an idle source PENDING (or HOST_WAIT with the host route alone) and is lost at an active one, which keeps
its state. A target that runs claims its qualifying source of highest PRIO, lowest number among equals, unless its stack is
full; at the end of the entry window the handler starts or a higher source is claimed. A completion naming the top source
pops it; another freezes the stack and posts the stack-fault source; another master's is dropped. FLUSH empties the stack
back to PENDING; an acknowledgement ends HOST_WAIT; THRESHOLD removes no entry. (Rests on 14_event_controller.md R405, R406,
R407, R411, R412, R413, R414, R415, R417, R418, R420, R423.) -/
def Obligations.EventsPostClaimAndComplete : Prop :=
  (∀ (s : State) (i : Instr) (n : Nat), ((∃ x : Fin 4096, i = .eventPost x none ∧ n = x.val ∧ (n < 0x4D0 ∨ (0x500 ≤ n ∧ n < 0x53F) ∨ n = 0x600 ∨ n = 0x601 ∨
      (0x610 ≤ n ∧ n < 0x617) ∨ (0x620 ≤ n ∧ n < 0x62B) ∨ (0x630 ≤ n ∧ n < 0x644) ∨ 0xF00 ≤ n)) ∨ ∃ x : Fin 256, i = .evcSwPost x ∧ n = 0xF00 + x.val) →
    ∃ u, exec i s = .next u ∧ Posted s u n) ∧
  (∀ (s : State) (t : Fin 20), let g := s.evc.target t
    (g.frozen = true ∨ g.phase ≠ .running → ∃ u, exec (.eventClaim t none) s = .next u ∧ u.evc = s.evc) ∧
    (∀ n, g.frozen = false → g.phase = .running → s.evc.best t g.level = some n →
      (g.stack.length < 16 → ∃ u, exec (.eventClaim t none) s = .next u ∧ (u.evc.source n).state = .claimed ∧
        (u.evc.target t).stack = { source := n, prio := (s.evc.source n).prio, started := false } :: g.stack ∧ (u.evc.target t).phase = .entry ∧
        (u.evc.target t).claims = (g.claims + 1) % 2 ^ 64) ∧
      (16 ≤ g.stack.length → ∃ u, exec (.eventClaim t none) s = .next u ∧ (u.evc.target t).stack = g.stack ∧ (u.evc.target t).full = sat32 g.full 1))) ∧
  (∀ (v : Evc) (t lvl n m : Nat), tabSorted v.src = true → v.best t lvl = some n → v.qualifies t lvl n = true ∧
    (v.qualifies t lvl m = true → (v.source m).prio < (v.source n).prio ∨ ((v.source m).prio = (v.source n).prio ∧ n ≤ m))) ∧
  (∀ (s : State) (t : Fin 20) (e : StackEntry) (r : List StackEntry), (s.evc.target t).stack = e :: r → (s.evc.target t).phase = .entry →
    (s.evc.best t (s.evc.target t).level = none ∨ (s.evc.target t).frozen = true → ∃ u, exec (.handlerEntry t) s = .next u ∧
      (u.evc.target t).stack = { e with started := true } :: r ∧ (u.evc.target t).phase = .running) ∧
    (∀ n, s.evc.best t (s.evc.target t).level = some n → (s.evc.target t).frozen = false → r.length < 15 → ∃ u, exec (.handlerEntry t) s = .next u ∧
      (u.evc.target t).stack = { source := n, prio := (s.evc.source n).prio, started := false } :: e :: r)) ∧
  (∀ (s : State) (t : Fin 20) (m : Master) (n : Fin 4096), let g := s.evc.target t
    (m.val ≠ t.val + 1 → exec (.evcTgtComplete t m n) s = .next (s.reject (0x41000 + t.val * 0x40 + 0x0C) m.val)) ∧
    (m.val = t.val + 1 → g.frozen = true → exec (.evcTgtComplete t m n) s = .next s) ∧
    (∀ e r, m.val = t.val + 1 → g.frozen = false → g.stack = e :: r → e.source = n.val → ∃ u pre, exec (.evcTgtComplete t m n) s = .next u ∧
      (u.evc.source n).state = (if (s.evc.source n).hostPend = true then .hostWait else .idle) ∧ (u.evc.target t).stack = pre ++ r ∧ pre.length ≤ 1) ∧
    (∀ e r, m.val = t.val + 1 → g.frozen = false → g.stack = e :: r → e.source ≠ n.val → ∃ u, exec (.evcTgtComplete t m n) s = .next u ∧
      (u.evc.target t).frozen = true ∧ (u.evc.target t).faultNamed = n.val ∧ (u.evc.target t).faultTop = e.source ∧ (u.evc.target t).stack = g.stack ∧
      Posted s u (0x630 + t.val)) ∧
    (m.val = t.val + 1 → g.frozen = false → g.stack = [] → ∃ u, exec (.evcTgtComplete t m n) s = .next u ∧ (u.evc.target t).frozen = true ∧
      (u.evc.target t).faultTop = 0xFFF)) ∧
  (∀ (s : State) (t : Fin 20), let g := s.evc.target t
    (g.phase ≠ .exiting → ∃ u, exec (.exitEnd t) s = .next u ∧ u.evc = s.evc) ∧
    (∀ e r, g.phase = .exiting → s.evc.best t g.level = none → g.stack = e :: r → ∃ u, exec (.exitEnd t) s = .next u ∧
      (u.evc.target t).phase = .running ∧ (u.evc.target t).stack = { e with started := true } :: r)) ∧
  (∀ (s : State) (t : Fin 20) (m : Master), (m.val < 17 ∨ 20 < m.val → exec (.evcTgtFlush t m) s = .next (s.reject (0x41000 + t.val * 0x40 + 0x10) m.val)) ∧
    (17 ≤ m.val → m.val ≤ 20 → ∃ u, exec (.evcTgtFlush t m) s = .next u ∧ (u.evc.target t).stack = [] ∧ (u.evc.target t).frozen = false ∧
      ∀ e ∈ (s.evc.target t).stack, (u.evc.source e.source).state = .pending)) ∧
  (∀ (s : State) (n : Fin 4096), ∃ u, exec (.hostPendAck n) s = .next u ∧ (u.evc.source n).hostPend = false ∧
    (u.evc.source n).state = if (s.evc.source n).state = .hostWait then .idle else (s.evc.source n).state) ∧
  (∀ (s : State) (t : Fin 20) (v : Fin 64), ∃ u, exec (.thresholdWrite t v) s = .next u ∧ u.evc.target t = { s.evc.target t with threshold := v.val })

/-- PERST#, a link going down, an FLR, D3cold entry and SOFT clear all device state, set CAUSE to their own code and keep
WARM_COUNT, host memory, the error log in flash and FAILED; SOFT is dropped in a pair, and a wrong key drops either reset.
COLD clears as on power loss, WARM_COUNT included, and boots from stage 0. Deasserting PERST# with the rails good begins the
boot. A trained link shows its rate and the widest width that both sides allow, and counts a retrain if it was up. D3hot
keeps all work; back in D0 the held messages are issued, and a primary owes a lease cycle. (Rests on 03_host_queues.md R89,
R100, 15_links_and_pairing.md R422, R425, R428, R429, R431, R455, 19_register_map.md R537, R538.) -/
def Obligations.ResetsClearTheDevice : Prop :=
  (∀ (s : State) (t : Nat), let s0 := s.at_ t
    (s.pci.perst = true → exec (.perstAssert t) s = .next s0) ∧
    (s.pci.perst = false → ∃ u, exec (.perstAssert t) s = .next u ∧ Cleared s0 u (if s.pci.dstate = .d3cold then 5 else 2) ∧ u.pci.perst = true ∧
      u.glb.ready = false ∧ u.pci.linkUp = false ∧ u.pwr.running = s.pwr.running) ∧
    (s.pci.perst = false ∨ s.pwr.good = false → exec (.perstDeassert t) s = .next s0) ∧
    (s.pci.perst = true → s.pwr.good = true → ∃ u, exec (.perstDeassert t) s = .next u ∧ u.pci.perst = false ∧ u.mgt.booting = true ∧ u.mgt.stage = 0) ∧
    (s.pci.linkUp = false → exec (.pcieLinkDown t) s = .next s0) ∧
    (s.pci.linkUp = true → ∃ u, exec (.pcieLinkDown t) s = .next u ∧ Cleared s0 u 2 ∧ u.pci.linkUp = false ∧ u.pci.dstate = .d0) ∧
    (∃ u, exec (.flr t) s = .next u ∧ Cleared s0 u 3 ∧ u.glb.ready = s.glb.ready ∧ u.pci.linkUp = s.pci.linkUp) ∧
    (∃ u, exec (.d3coldEntry t) s = .next u ∧ Cleared s0 u 5 ∧ u.pci.dstate = .d3cold ∧ u.pci.linkUp = false)) ∧
  (∀ (s : State) (m : Master) (key : Fin 65536) (t : Nat), let s0 := s.at_ t
    (key.val ≠ 0x5AFE → exec (.softReset m key t) s = .next (s0.reject 0x018 m.val) ∧ exec (.coldReset m key t) s = .next (s0.reject 0x018 m.val)) ∧
    (key.val = 0x5AFE → s.pair.state ≠ .off → exec (.softReset m key t) s = .next (s0.reject 0x018 m.val)) ∧
    (key.val = 0x5AFE → s.pair.state = .off → ∃ u, exec (.softReset m key t) s = .next u ∧ Cleared s0 u 4 ∧ u.pci.linkUp = s.pci.linkUp) ∧
    (key.val = 0x5AFE → ∃ u, exec (.coldReset m key t) s = .next u ∧ ColdCleared s0 u 1 ∧ u.mgt.booting = true ∧ u.mgt.stage = 0 ∧ u.pwr.running = s.pwr.running)) ∧
  (∀ (s : State) (rate : Fin 7) (width : Fin 17),
    (rate = 0 ∨ width = 0 ∨ s.pcieCount = 0 ∨ s.pci.perst = true → exec (.pcieLinkTrained rate width) s = .next s) ∧
    (rate ≠ 0 → width ≠ 0 → s.pcieCount ≠ 0 → s.pci.perst = false → ∃ u, exec (.pcieLinkTrained rate width) s = .next u ∧
      u.pci.linkUp = true ∧ u.pci.rate = rate.val ∧ u.pci.width = widestLink (min width.val s.pcieCount) ∧
      u.pci.retrains = (if s.pci.linkUp = true then sat32 s.pci.retrains 1 else s.pci.retrains) ∧ (s.pci.dstate = .d3cold → u.pci.dstate = .d0))) ∧
  (∀ n, 0 < n → widestLink n ≤ n ∧ widestLink n ∈ [1, 2, 4, 8, 16] ∧ ∀ m ∈ [1, 2, 4, 8, 16], m ≤ n → m ≤ widestLink n) ∧
  (∀ s : State, ∃ u, exec .pcieCompletionTimeout s = .next u ∧ u.pci.cplTimeouts = sat32 s.pci.cplTimeouts 1 ∧ u.evc.posts = (s.evc.posts + 1) % 2 ^ 64) ∧
  (∀ (s : State) (t : Nat), s.pci.perst = false →
    (s.pci.dstate = .d0 → (∃ u, exec (.dstateChange false t) s = .next u ∧ u.pci.dstate = .d3hot ∧ u.cmds = s.cmds ∧ u.work = s.work) ∧
      exec (.dstateChange true t) s = .next (s.at_ t)) ∧
    (s.pci.dstate = .d3hot → ∃ u, exec (.dstateChange true t) s = .next u ∧ u.pci.dstate = .d0 ∧ u.evc.held = [] ∧ u.cmds = s.cmds ∧ u.work = s.work ∧
      (s.pair.roleNow = 1 → u.pair.needCycle = true)))

/-- A domain request is dropped while one is pending, in recovery, for a domain that does not exist, and for an HBM stack
under a graph; it ends at once where nothing changes, else waits. Drained, the domain goes off and a cluster of it loses its
store and dispatcher; after 50 us with traffic the request ends with result 1, or by FORCE goes through. Powered up, the
domain is on. Input power starts a cold boot (after a thermal stop only after a second); a voltage fault or a sensor at its
stop limit stops the module as power loss. A sample moves each demand by at most one step, at most every 50 us; a decided
step takes effect at CLOCK_STEP, unless the power controller is under test. The cap reads back as written and is applied as
300 W to 720 W. (Rests on 13_memory_and_movers.md R402, R403, 18_power_and_management.md R510, R512, R513, R514, R515, R516,
R518, R519, R520, R521, 19_register_map.md R539.) -/
def Obligations.PowerDomainsClockAndInput : Prop :=
  (∀ (s : State) (i : Instr) (d : Fin 64) (down force : Bool) (m : Master) (t : Nat), let s0 := s.at_ t
    ((i = .domainPowerDown d force m t ∧ down = true) ∨ (i = .domainPowerUp d m t ∧ down = false ∧ force = false)) →
    (s.pwr.request.isSome = true → exec i s = .next (s0.reject 0x200020 m.val)) ∧
    (s.pwr.request = none → s.err.state ≠ 0 ∨ 33 < d.val ∨ (26 ≤ d.val ∧ s.work.graph.isSome = true) → ∃ u, exec i s = .next u ∧ u.pwr.request = none ∧
      u.pwr.off = s.pwr.off ∧ u.glb.reject = sat32 s.glb.reject 1) ∧
    (s.pwr.request = none → s.err.state = 0 → d.val ≤ 33 → (26 ≤ d.val → s.work.graph = none) → s.domOff d = down → ∃ u, exec i s = .next u ∧
      u.pwr.request = none ∧ u.pwr.result = 2 ∧ u.pwr.off = s.pwr.off) ∧
    (s.pwr.request = none → s.err.state = 0 → d.val ≤ 33 → (26 ≤ d.val → s.work.graph = none) → s.domOff d ≠ down → ∃ u, exec i s = .next u ∧
      u.pwr.request = some (d.val, down, force, s0.now) ∧ u.pwr.off = s.pwr.off)) ∧
  (∀ (s : State) (t d at0 : Nat) (force : Bool), let s0 := s.at_ t
    s.pwr.request = some (d, true, force, at0) →
    (s0.domainBusy d = true → exec (.domainDrainComplete t) s = .next s0) ∧
    (s0.domainBusy d = false → ∃ u, exec (.domainDrainComplete t) s = .next u ∧ u.domOff d = true ∧ u.pwr.request = none ∧ u.pwr.result = 0 ∧
      (d < 16 → u.clusterIn d = false ∧ u.cstore d = [] ∧ u.disp d = {}) ∧ ∀ x, x ≠ d → u.domOff x = s.domOff x) ∧
    (s0.now < at0 + 50000 ∨ s0.domainBusy d = false → exec (.domainForceTimeout t) s = .next s0) ∧
    (at0 + 50000 ≤ s0.now → s0.domainBusy d = true → force = false → ∃ u, exec (.domainForceTimeout t) s = .next u ∧ u.pwr.request = none ∧ u.pwr.result = 1 ∧
      u.pwr.off = s.pwr.off) ∧
    (at0 + 50000 ≤ s0.now → s0.domainBusy d = true → force = true → ∃ u, exec (.domainForceTimeout t) s = .next u ∧ u.domOff d = true ∧ u.pwr.request = none ∧
      u.pwr.result = 0)) ∧
  (∀ (s : State) (t d at0 : Nat) (force : Bool) (bad : List (Nat × Nat)), s.pwr.request = some (d, false, force, at0) →
    ∃ u, exec (.domainPowerUpComplete bad t) s = .next u ∧ u.domOff d = false ∧ u.pwr.request = none ∧ u.pwr.result = 0 ∧ ∀ x, x ≠ d → u.domOff x = s.domOff x) ∧
  (∀ (s : State) (low t : Nat), let s0 := s.at_ t
    (s.pwr.running = true ∨ s.pwr.starting = true ∨ (s.pwr.latched = true ∧ low < 1000000000) → exec (.powerInputStart low t) s = .next s0) ∧
    (s.pwr.running = false → s.pwr.starting = false → (s.pwr.latched = true → 1000000000 ≤ low) → ∃ u, exec (.powerInputStart low t) s = .next u ∧
      ColdCleared s0 u 0 ∧ u.pwr.starting = true ∧ u.pwr.running = false) ∧
    (s.pwr.starting = true → ∃ u, exec (.railsInTolerance t) s = .next u ∧ u.pwr.running = true ∧ u.pwr.good = true ∧ u.pwr.starting = false) ∧
    (s.pwr.starting = false → exec (.railsInTolerance t) s = .next s0)) ∧
  (∀ (s : State) (mv held t : Nat), let s0 := s.at_ t
    let bad := (mv < 44000 ∧ 100000 ≤ held) ∨ (62000 < mv ∧ 1000 ≤ held)
    (s.pwr.running = true → bad → ∃ u, exec (.inputVoltageFault mv held t) s = .next u ∧ ColdCleared s0 u 0 ∧ u.pwr.running = false) ∧
    (s.pwr.running = false ∨ ¬ bad → exec (.inputVoltageFault mv held t) s = .next s0)) ∧
  (∀ (s : State) (mv : Nat), let warn := (44000 ≤ mv ∧ mv < 48000) ∨ (60000 < mv ∧ mv ≤ 62000)
    (s.pwr.running = true → warn → ∃ u, exec (.inputVoltageWarn mv) s = .next u ∧ u.pwr = { s.pwr with vinWarn := true } ∧ Posted s u 0x614) ∧
    (s.pwr.running = false ∨ ¬ warn → exec (.inputVoltageWarn mv) s = .next s)) ∧
  (∀ (s : State) (mv mw : Nat) (die hbm : Fin 256) (proj : Bool) (t : Nat), let s0 := s.at_ t
    (s.pwr.running = false → exec (.powerSample mv mw die hbm proj t) s = .next s0) ∧
    (s.pwr.running = true → ∃ u, exec (.powerSample mv mw die hbm proj t) s = .next u ∧ u.pwr.mv10 = mv / 10 ∧ u.pwr.tempDie = die.val ∧ u.pwr.tempHbm = hbm.val ∧
      u.pwr.step = s.pwr.step ∧ u.pwr.cap = s.pwr.cap ∧ (s.pwr.capStep ≤ 12 → u.pwr.capStep ≤ 12 ∧ u.pwr.capStep ≤ s.pwr.capStep + 1 ∧ s.pwr.capStep ≤ u.pwr.capStep + 1) ∧
      (s.pwr.stepAt ≠ 0 → s0.now < s.pwr.stepAt + 50000 → u.pwr.capStep = s.pwr.capStep ∧ u.pwr.thermStep = s.pwr.thermStep ∧ u.pwr.decided = s.pwr.decided) ∧
      (95 ≤ die.val → s.pwr.decided = none → s.pwr.stepAt = 0 → u.pwr.thermStep = min 12 (s.pwr.thermStep + 1)) ∧
      (800000 < mw → u.pwr.gating = true) ∧ (95 ≤ die.val → s.pwr.tempDie < 95 → s.pwr.tempHbm < 95 → u.pwr.thermSeen = true))) ∧
  (∀ (s : State) (t : Nat), (s.pwr.decided = none → exec (.clockStep t) s = .next (s.at_ t)) ∧
    (s.isFenced 20 0 = true → exec (.clockStep t) s = .next (s.at_ t)) ∧
    ∀ n, s.pwr.decided = some n → s.isFenced 20 0 = false → ∃ u, exec (.clockStep t) s = .next u ∧ u.pwr.step = min 12 n ∧ u.pwr.decided = none ∧ u.pwr.steps = sat32 s.pwr.steps 1 ∧
      (u.pwr.belowFloor = true ↔ 2400 - 100 * min 12 n < s.floorMhz)) ∧
  (∀ (s : State) (c : Fin 3) (temp t : Nat), let s0 := s.at_ t
    let limit := if c = 2 then 125 else 105
    (s.pwr.running = true → limit ≤ temp → ∃ u, exec (.thermalStop c temp t) s = .next u ∧ ColdCleared s0 u 0 ∧ u.pwr.running = false ∧ u.pwr.latched = true ∧
      u.mgt.thermal = some (c.val, temp)) ∧
    (s.pwr.running = false ∨ temp < limit → exec (.thermalStop c temp t) s = .next s0)) ∧
  (∀ (s : State) (w : Fin 1024) (t : Nat), ∃ u, exec (.pwrCapWrite w t) s = .next u ∧
    u.pwr = { s.pwr with cap := w.val, capAt := max s.now t, aboveAt := none, belowAt := none } ∧ u.pwr.capW = max 300 (min 720 w.val))

/-- The endpoint answers measurements by index, but signs none in a boot with FULL debug; no request is answered while its
processor or a management core is under test. A challenge raises the nonce; a token over the latest one, signed by an
occupied owner slot (for FULL by root too), unlocks, else nothing changes. An owner record needs an occupied slot's signature
once the module has been claimed, and root's to clear the last slot; policy and revocation need their signatures, and the
last unrevoked slot stays. Sensors follow the block. The MGI agreement is made once a boot. An update writes only the slot
that is not committed; a component is verified under every check of an image; activation marks the slot for trial; after 600
s the trial commits and no SVN counter falls. (Rests on 17_security.md R491, R492, R493, R494, R495, R499, R501, R502, R505,
R507, 18_power_and_management.md R522, R523, R524, R525, R536.) -/
def Obligations.SecurityAndManagementRequests : Prop :=
  (∀ (s : State) (x : Fin 256) (sig : Bytes), (s.secAnswers = false → exec (.getMeasurements x sig) s = .next s) ∧
    (s.secAnswers = true → x.val = 0xF0 → s.sec.debug ≠ 2 → exec (.getMeasurements x sig) s = .next (s.emit (.mctp sig))) ∧
    (x.val = 0xF0 → s.sec.debug = 2 → exec (.getMeasurements x sig) s = .next s) ∧
    (s.secAnswers = true → 1 ≤ x.val → x.val ≤ 8 → exec (.getMeasurements x sig) s = .next (s.emit (.mctp (s.measurement x.val))))) ∧
  (∀ (s : State) (l : Fin 3), s.secAnswers = true → l ≠ 0 → ∃ u, exec (.debugChallenge l) s = .next u ∧ u.sec.debugNonce = s.sec.debugNonce + 1 ∧
    u.sec.challenge = some l.val ∧ u.sec.debug = s.sec.debug) ∧
  (∀ (s : State) (n : Nat) (k : Fin 2) (a b : Bool) (l : Nat), s.sec.challenge = some l →
    (n ≠ s.sec.debugNonce ∨ a = false ∨ s.sec.occupied k = false ∨ (l = 2 ∧ b = false) ∨ s.secAnswers = false → exec (.debugUnlock n k a b) s = .next s) ∧
    (n = s.sec.debugNonce → a = true → s.sec.occupied k = true → s.secAnswers = true →
      (l ≠ 2 → ∃ u, exec (.debugUnlock n k a b) s = .next u ∧ u.sec = { s.sec with debug := max s.sec.debug 1 }) ∧
      (l = 2 → b = true → ∃ u, exec (.debugUnlock n k a b) s = .next u ∧ u.sec = { s.sec with fullPending := true }))) ∧
  (∀ (s : State) (k : Fin 2) (keys : Bytes) (w : Option (Fin 2)) (root : Bool), s.secAnswers = true →
    (keys.length ≠ 96 ∧ keys ≠ [] → exec (.ownerRecord k keys w root) s = .next s) ∧
    ((s.sec.claimed = true ∨ s.sec.occupied 0 = true ∨ s.sec.occupied 1 = true) → (∀ q, w = some q → s.sec.occupied q = false) → exec (.ownerRecord k keys w root) s = .next s) ∧
    (keys = [] → s.sec.occupied (1 - k.val) = false → root = false → exec (.ownerRecord k keys w root) s = .next s) ∧
    (keys.length = 96 → (∃ q, w = some q ∧ s.sec.occupied q = true) ∨ (s.sec.claimed = false ∧ s.sec.occupied 0 = false ∧ s.sec.occupied 1 = false) →
      ∃ u, exec (.ownerRecord k keys w root) s = .next u ∧ u.sec.owner k = keys ∧ u.sec.owner (1 - k.val) = s.sec.owner (1 - k.val) ∧
        u.sec.ownerEpoch = s.sec.ownerEpoch + 1 ∧ u.sec.claimed = true)) ∧
  (∀ (s : State) (p e : Bool) (k : Fin 2) (sig : Bool), (s.secAnswers = true → sig = true → s.sec.occupied k = true → ∃ u, exec (.policyRecord p e k sig) s = .next u ∧
      u.sec = { s.sec with graphPolicy := p, hbmEncPolicy := e }) ∧
    (sig = false ∨ s.sec.occupied k = false → exec (.policyRecord p e k sig) s = .next s)) ∧
  (∀ (s : State) (ml : Bool) (k : Fin 4) (sig : Bool), let old := if ml = true then s.sec.revokedMl else s.sec.revokedEd
    (sig = false ∨ withBit old k true = 15 → exec (.revocationRecord ml k sig) s = .next s) ∧
    (s.secAnswers = true → sig = true → withBit old k true ≠ 15 → ∃ u, exec (.revocationRecord ml k sig) s = .next u ∧
      (if ml = true then u.sec.revokedMl = withBit old k true ∧ u.sec.revokedEd = s.sec.revokedEd
        else u.sec.revokedEd = withBit old k true ∧ u.sec.revokedMl = s.sec.revokedMl) ∧ bitOf (withBit old k true) k = true)) ∧
  (∀ (s : State) (sig : Bool), (s.mgtWaits = true ∨ s.isFenced 19 0 = true → exec (.reprovisionRecord sig) s = .next s) ∧
    (s.mgtWaits = false → s.isFenced 19 0 = false → s.sec.tamper = true → sig = true → ∃ u, exec (.reprovisionRecord sig) s = .next u ∧ u.sec = { s.sec with tamper := false }) ∧
    (s.sec.tamper = false ∨ sig = false → exec (.reprovisionRecord sig) s = .next s)) ∧
  (∀ (s : State) (x : Bool), (s.secAnswers = true → x = true → ∃ u, exec (.ideKeyProgram x) s = .next u ∧ u.sec = { s.sec with ide := true }) ∧
    (x = false → exec (.ideKeyProgram x) s = .next s)) ∧
  (∀ (s : State) (x : Fin 256), (s.mgtWaits = true → exec (.mctpSetEid x) s = .next s) ∧ (s.mgtWaits = false → ∃ u, exec (.mctpSetEid x) s = .next u ∧ u.mgt = { s.mgt with eid := x.val }) ∧
    (s.answers = true → ∃ u, exec (.setEventReceiver x) s = .next u ∧ u.mgt = { s.mgt with receiver := some x.val })) ∧
  (∀ (s : State) (l : List (Fin 87 × Nat)), (s.mgtWaits = true → exec (.pldmSensorRefresh l) s = .next s) ∧ (s.mgtWaits = false → ∃ u, exec (.pldmSensorRefresh l) s = .next u ∧ tget 0 u.mgt.sensors 2 = s.pwr.watts ∧
    tget 0 u.mgt.sensors 3 = clockMhz s.pwr.step ∧ tget 0 u.mgt.sensors 85 = s.err.grade ∧ tget 0 u.mgt.sensors 86 = s.uptime ∧
    ∀ i v, l = [(i, v)] → 4 ≤ i.val → i.val ≤ 84 → tget 0 u.mgt.sensors i = v)) ∧
  (∀ (s : State) (n : Nat), s.answers = true →
    (s.mgiAgreed = false → exec (.vendorRecordRead n) s = .next (s.emit (.mctp (leBytes 1 0x30)))) ∧
    (∀ r, s.mgiAgreed = true → s.err.flash.find? (fun r => r.num == n) = some r → exec (.vendorRecordRead n) s = .next (s.emit (.mctp r.encode)))) ∧
  (∀ (s : State) (x : Fin 4294967296), s.answers = true → s.mgt.mgiDone = false →
    (∀ v, agree mgiSupport x.val = some v → ∃ u, exec (.mgiNegotiate x) s = .next u ∧ u.glb.mgiAgreed = v.2 ∧ u.mgt.mgiDone = true) ∧
    (agree mgiSupport x.val = none → ∃ u, exec (.mgiNegotiate x) s = .next u ∧ u.glb.mgiAgreed = s.glb.mgiAgreed ∧ u.mgt.mgiDone = true ∧ Out.mctp (leBytes 1 0x30) ∈ u.out)) ∧
  (∀ s : State, s.answers = true → (s.mgt.updating = false → ∃ u, exec .requestUpdate s = .next u ∧ u.mgt = { s.mgt with updating := true, verified := [] } ∧ Posted s u 0x616) ∧
    (s.mgt.updating = true → ∃ u, exec .requestUpdate s = .next u ∧ u.mgt = s.mgt)) ∧
  (∀ (s : State) (ty : Fin 5) (data : Bytes) (off : Nat) (sigs : Bool), s.answers = true → s.mgt.updating = true → ty ≠ 0 → let k := 1 - s.mgt.committed
    (∃ u, exec (.componentDataWrite ty off data) s = .next u ∧ ((u.mgt.image k ty).drop off).take data.length = data ∧ ty.val ∉ u.mgt.verified ∧
      ∀ a b, b < 8 → (a, b) ≠ (k, ty.val) → u.mgt.image a b = s.mgt.image a b) ∧
    (s.sec.imageOk (s.mgt.image k ty) ty sigs = true → ∃ u, exec (.verifyComplete ty sigs) s = .next u ∧ ty.val ∈ u.mgt.verified ∧ u.mgt.images = s.mgt.images) ∧
    (s.sec.imageOk (s.mgt.image k ty) ty sigs = false → ∃ u, exec (.verifyComplete ty sigs) s = .next u ∧ ty.val ∉ u.mgt.verified)) ∧
  (∀ s : State, s.answers = true → s.mgt.updating = true → s.mgt.verified ≠ [] → ∃ u, exec .activateFirmware s = .next u ∧
    u.mgt = { s.mgt with updating := false, trialSlot := some (1 - s.mgt.committed), trialBoots := 0 } ∧ Posted s u 0x616) ∧
  (∀ (s : State) (t x : Nat), s.mgt.trial = true → s.mgt.stage3At = some x → s.err.state ≠ 2 → s.sec.tamper = false →
    (max s.now t < x + 600000000000 → exec (.trialCommit t) s = .next (s.at_ t)) ∧
    (x + 600000000000 ≤ max s.now t → ∃ u, exec (.trialCommit t) s = .next u ∧ u.mgt.committed = s.mgt.active ∧ u.mgt.trial = false ∧ u.mgt.trialSlot = none ∧
      ∀ i, tget 0 s.sec.svn i ≤ tget 0 u.sec.svn i ∧ ∀ d v n, (i, d, v, n) ∈ s.runningFrom s.mgt.active → n ≤ tget 0 u.sec.svn i)) ∧
  (∀ (x : Sec) (b : Bytes) (ty : Nat) (sigs : Bool), x.imageOk b ty sigs = true → sigs = true ∧ (parseManifest b).ty = ty ∧ tget 0 x.svn ty ≤ (parseManifest b).svn ∧
    bitOf x.revokedEd (parseManifest b).ed = false ∧ bitOf x.revokedMl (parseManifest b).ml = false ∧ b.length = 5504 + (parseManifest b).length)

/-- Every token is counted; one whose CHECK fails counts as an error and goes no further. A repeating module sends a BEAT on
with HOPS + 1 and takes its beat instant less hops, lag and skew; takes its POSITION from ENUM and sends COUNT + 1, or at 64
sets OVER; takes, repeats or drops a MGMT token by DEST and SRC. A MGMT token waits while a window's ENUM is still to come; a
token of another LEN or TYPE is repeated. A master removes its own tokens and sets CONFLICT at a lower MASTER_ID. Splicing
happens within 2 us of a window's start; at 20 us the master, at POSITION 0, sends ENUM. A lease cycle writes COUNT + 1 over
its own MODULE_ID, else FENCED, as at the bound of 100 us and at HANDOVER once issued writes are complete; in SUSPECT an
advancing COUNT detaches, 150 us of one value claims the lease, and a reread of its own identity takes over. (Rests on
15_links_and_pairing.md R435, R436, R437, R438, R439, R440, R441, R455, R456, R457, R458, R464.) -/
def Obligations.ChainTokensAndLeaseWork : Prop :=
  (∀ (s : State) (i : Instr) (tok : Bytes) (t : Nat), (i = .chainBeatToken tok t ∨ i = .chainEnumToken tok ∨ i = .chainMgmtToken tok ∨ i = .chainUnknownToken tok) →
    parseToken tok = none → ∃ u, exec i s = .next u ∧
      u.chain = { s.chain with tokens := (s.chain.tokens + 1) % 2 ^ 64, crcErr := sat32 s.chain.crcErr 1 } ∧ u.out = s.out ∧ u.beat = s.beat) ∧
  (∀ (s : State) (tok pl : Bytes) (t hops : Nat), parseToken tok = some (1, hops, pl) → pl.length = 20 → let id := fieldAt pl 8 4
    (s.chain.master = true → id = s.chainId → ∃ u, exec (.chainBeatToken tok t) s = .next u ∧ u.out = s.out ∧ u.beat = s.beat ∧
      u.chain.window = some (t + 112)) ∧
    (s.chain.master = true → id < s.chainId → ∃ u, exec (.chainBeatToken tok t) s = .next u ∧ u.chain.conflict = true) ∧
    (s.chain.master = false → s.chain.inserted = true → ∃ u, exec (.chainBeatToken tok t) s = .next u ∧ u.chain.window = some (t + 112) ∧ u.chain.enumDue = true ∧
      Out.chain (chainToken 1 (hops + 1) pl) ∈ u.out) ∧
    (s.chain.noPos = true → ∃ u, exec (.chainBeatToken tok t) s = .next u ∧ u.beat = s.beat) ∧
    (s.chain.noPos = false → (s.chain.master = true → id ≠ s.chainId) → s.beat.srcCfg = 1 → s.followsPrimary = false → QuietGraph s →
      GoodDelivery s (t - (hops - 1) * 200 - fieldAt pl 16 4 - s.chain.skew) (fieldAt pl 0 8) → ∃ u, exec (.chainBeatToken tok t) s = .next u ∧
      BeatTaken u .chain (fieldAt pl 0 8) (t - (hops - 1) * 200 - fieldAt pl 16 4 - s.chain.skew) (bitOf (fieldAt pl 12 2) 0))) ∧
  (∀ (s : State) (tok pl : Bytes) (hops : Nat), parseToken tok = some (2, hops, pl) → pl.length = 8 → let id := fieldAt pl 0 4
    let n := fieldAt pl 4 1
    (s.chain.master = true → id = s.chainId → ∃ u, exec (.chainEnumToken tok) s = .next u ∧ u.chain.ring = true ∧ u.chain.ringSize = n ∧ u.out = s.out) ∧
    (s.chain.master = true → id < s.chainId → ∃ u, exec (.chainEnumToken tok) s = .next u ∧ u.chain.conflict = true ∧ u.chain.ring = s.chain.ring) ∧
    (s.chain.master = false → s.chain.inserted = true → n < 64 → ∃ u, exec (.chainEnumToken tok) s = .next u ∧ u.chain.position = n ∧ u.chain.noPos = false ∧
      Out.chain (chainToken 2 hops (leBytes 4 id ++ leBytes 1 (n + 1) ++ pl.drop 5)) ∈ u.out ∧
      u.chain.enumDue = false ∧ u.chain.mgmtHeld = [] ∧ (∀ b ∈ s.chain.mgmtHeld, Out.chain b ∈ u.out) ∧ (s.chain.position ≠ n → Posted s u 0x624)) ∧
    (s.chain.master = false → s.chain.inserted = true → 64 ≤ n → ∃ u, exec (.chainEnumToken tok) s = .next u ∧ u.chain.over_ = true ∧ u.chain.noPos = true ∧
      u.chain.position = s.chain.position ∧ Out.chain (chainToken 2 hops pl) ∈ u.out)) ∧
  (∀ (s : State) (tok pl : Bytes) (hops : Nat), parseToken tok = some (3, hops, pl) → 5 ≤ pl.length → s.chain.inserted = true →
    let dest := fieldAt pl 0 1
    let src := fieldAt pl 1 1
    let me := s.chain.position
    ∃ u, exec (.chainMgmtToken tok) s = .next u ∧
      (dest = me ∨ dest = 0xFF → u.chain.inbox = pl :: s.chain.inbox ∧ Posted s u 0x626) ∧ (dest ≠ me → dest ≠ 0xFF → u.chain.inbox = s.chain.inbox) ∧
      (dest = me ∨ src = me → ∀ b, Out.chain b ∈ u.out ↔ Out.chain b ∈ s.out) ∧ (dest ≠ me → src ≠ me → s.chain.enumDue = false → Out.chain (chainToken 3 hops pl) ∈ u.out) ∧
      (dest ≠ me → src ≠ me → s.chain.enumDue = true → u.chain.mgmtHeld = s.chain.mgmtHeld ++ [chainToken 3 hops pl] ∧ ∀ b, Out.chain b ∈ u.out ↔ Out.chain b ∈ s.out) ∧
      u.chain.mgmtDrop = if dest ≠ me ∧ dest ≠ 0xFF ∧ src = me then sat32 s.chain.mgmtDrop 1 else s.chain.mgmtDrop) ∧
  (∀ (s : State) (i : Instr) (tok pl : Bytes) (ty hops t : Nat), (i = .chainBeatToken tok t ∨ i = .chainEnumToken tok ∨ i = .chainMgmtToken tok ∨ i = .chainUnknownToken tok) →
    parseToken tok = some (ty, hops, pl) → (ty = 0 ∨ 3 < ty ∨ (ty = 1 ∧ pl.length ≠ 20) ∨ (ty = 2 ∧ pl.length ≠ 8) ∨ (ty = 3 ∧ pl.length < 5 ∧ s.chain.enumDue = false)) →
    (s.chain.master = false → s.chain.inserted = true → ∃ u, exec i s = .next u ∧ u.out = .chain (chainToken ty (if ty = 1 then hops + 1 else hops) pl) :: s.out) ∧
    (s.chain.master = true → ∃ u, exec i s = .next u ∧ u.out = s.out)) ∧
  (∀ (s : State) (t : Nat), let s0 := s.at_ t
    (s.chain.window = none → exec (.spliceWindowEnd t) s = .next s0 ∧ exec (.chainSplice t) s = .next s0) ∧
    (∀ w, s.chain.window = some w →
      (w + 20000 ≤ s0.now → s.chain.master = true → s.chain.conflict = false → ∃ u, exec (.spliceWindowEnd t) s = .next u ∧
        u.chain.window = none ∧ u.chain.position = 0 ∧ u.chain.noPos = false ∧ u.chain.enumDue = false ∧ u.chain.mgmtHeld = [] ∧
        (s.chain.inserted = true → Out.chain (chainToken 2 0 (leBytes 4 s.chainId ++ leBytes 1 1 ++ leBytes 3 0)) ∈ u.out) ∧
        (s.chain.position ≠ 0 → Posted s u 0x624)) ∧
      (w + 20000 ≤ s0.now → s.chain.master = false ∨ s.chain.conflict = true → ∃ u, exec (.spliceWindowEnd t) s = .next u ∧
        u.chain = { s.chain with window := none } ∧ u.out = s.out) ∧
      (s0.now < w + 20000 → exec (.spliceWindowEnd t) s = .next s0) ∧
      (w ≤ s0.now → s0.now ≤ w + 2000 → ∃ u, exec (.chainSplice t) s = .next u ∧ (u.chain.inserted = true ↔ s.chain.en = true ∧ s.glb.ready = true) ∧
        (u.chain.inserted ≠ s.chain.inserted → Posted s u 0x624)) ∧
      (s0.now < w ∨ w + 2000 < s0.now → exec (.chainSplice t) s = .next s0)) ∧
    (s.chain.en = true → s.glb.ready = true → s.chain.lastBeat + 1000000000 ≤ s0.now → ∃ u, exec (.chainBeatAbsent t) s = .next u ∧ u.chain.inserted = true) ∧
    (s.chain.en = false ∨ s.glb.ready = false ∨ s0.now < s.chain.lastBeat + 1000000000 → exec (.chainBeatAbsent t) s = .next s0)) ∧
  (∀ (s : State) (e : BusEnv) (t : Nat), let s0 := (s.at_ t).env e
    (s.holdsLease = false ∨ s.inD0 = false ∨ s.pair.cycling = true → exec (.leaseCycle e t) s = .next s0) ∧
    (s.holdsLease = true → s.inD0 = true → s.pair.cycling = false → s.pair.leaseNext ≤ s0.now ∨ s.pair.needCycle = true →
      (s0.leaseOver = true → ∃ u, exec (.leaseCycle e t) s = .next u ∧ u.pair.state = .fenced) ∧
      (∀ n, s0.leaseOver = false → s0.readLease e = some (n, s.sec.deviceId) → ∃ u, exec (.leaseCycle e t) s = .next u ∧ u.pair.cycling = true ∧ u.pair.leaseNext = s0.now + 50000 ∧
        u.pair.state = s.pair.state ∧ u.pair.leaseCount = (n + 1) % 2 ^ 64 ∧
        u.out = .busWrite s.pair.lease.val.toNat (leaseLine ((n + 1) % 2 ^ 64) s.sec.deviceId s0.pos) :: s.out) ∧
      ((∀ n, s0.readLease e ≠ some (n, s.sec.deviceId)) → ∃ u, exec (.leaseCycle e t) s = .next u ∧ u.pair.state = .fenced)) ∧
    (s.pair.state ≠ .suspect ∨ s.inD0 = false → exec (.suspectLeaseRead e t) s = .next s0 ∧ exec (.leaseClaimReread e t) s = .next s0) ∧
    (s.pair.state = .suspect → s.inD0 = true → s.pair.claimAt = none → s.pair.leaseNext ≤ s0.now →
      (s0.readLease e = none → ∃ u, exec (.suspectLeaseRead e t) s = .next u ∧ u.pair.state = .detached) ∧
      (∀ n id, s0.readLease e = some (n, id) →
        (s.pair.staleAt = none → ∃ u, exec (.suspectLeaseRead e t) s = .next u ∧ u.pair.state = .suspect ∧ u.pair.staleAt = some (s0.now, n, id)) ∧
        (∀ a m x, s.pair.staleAt = some (a, m, x) →
          (m < n → ∃ u, exec (.suspectLeaseRead e t) s = .next u ∧ u.pair.state = .detached) ∧
          (n < m ∨ (n = m ∧ id ≠ x) → ∃ u, exec (.suspectLeaseRead e t) s = .next u ∧ u.pair.state = .suspect ∧ u.pair.staleAt = some (s0.now, n, id)) ∧
          (n = m → id = x → a + 150000 ≤ s0.now → ∃ u, exec (.suspectLeaseRead e t) s = .next u ∧ u.pair.state = .suspect ∧ u.pair.claimAt = some s0.now ∧
            u.out = .busWrite s.pair.lease.val.toNat (leaseLine ((n + 1) % 2 ^ 64) s.sec.deviceId s0.pos) :: s.out) ∧
          (n = m → id = x → s0.now < a + 150000 → ∃ u, exec (.suspectLeaseRead e t) s = .next u ∧ u.pair.claimAt = none ∧ u.pair.staleAt = s.pair.staleAt ∧ u.out = s.out)))) ∧
    (∀ c, s.pair.state = .suspect → s.inD0 = true → s.pair.claimAt = some c → c + 60000 ≤ s0.now →
      (∀ n, s0.readLease e = some (n, s.sec.deviceId) → ∃ u, exec (.leaseClaimReread e t) s = .next u ∧ u.pair.roleNow = 1 ∧ u.pair.state = .solo ∧
        u.pair.takeovers = (s.pair.takeovers + 1) % 2 ^ 32 ∧ u.pair.undone = []) ∧
      ((∀ n, s0.readLease e ≠ some (n, s.sec.deviceId)) → ∃ u, exec (.leaseClaimReread e t) s = .next u ∧ u.pair.state = .detached ∧ u.pair.roleNow = s.pair.roleNow))) ∧
  (∀ (s : State) (t : Nat), let s0 := s.at_ t
    (s.holdsLease = true → s.pair.cycling = true → (s0.leaseOver = true → ∀ ok, ∃ u, exec (.leaseCycleComplete ok t) s = .next u ∧ u.pair.state = .fenced) ∧
      (s0.leaseOver = false → ∃ u, exec (.leaseCycleComplete true t) s = .next u ∧
        u.pair = { s.pair with cycling := false, leaseAt := s0.now, needCycle := false }) ∧
      ∃ u, exec (.leaseCycleComplete false t) s = .next u ∧ u.pair.state = .fenced) ∧
    (∀ ok, s.holdsLease = false ∨ s.pair.cycling = false → exec (.leaseCycleComplete ok t) s = .next s0) ∧
    (s.holdsLease = true → s.inD0 = true → s.pair.leaseAt + 100000 ≤ s0.now → ∃ u, exec (.leaseBoundExpire t) s = .next u ∧ u.pair.state = .fenced) ∧
    (s.holdsLease = false ∨ s.inD0 = false ∨ s0.now < s.pair.leaseAt + 100000 → exec (.leaseBoundExpire t) s = .next s0)) ∧
  (∀ (s : State) (m : Master), (s.holdsLease = true → s.issuedWrites = false → ∃ u, exec (.handover m) s = .next u ∧ u.pair.state = .fenced) ∧
    (s.holdsLease = true → s.issuedWrites = true → ∃ u, exec (.handover m) s = .next u ∧ u.pair = { s.pair with handing := true } ∧ u.out = s.out) ∧
    (s.holdsLease = false → exec (.handover m) s = .next s) ∧
    (s.pair.roleNow = 2 → s.pair.state ≠ .off → ∃ u, exec (.leave m) s = .next u ∧ u.pair.state = .detached ∧ u.pair.kept = [] ∧ u.pair.undone = [] ∧
      u.cmds = [] ∧ u.work.graph = none) ∧
    (s.pair.roleNow ≠ 2 ∨ s.pair.state = .off → exec (.leave m) s = .next s))

/-- A message that does not verify, or a copy, changes nothing; a gap is answered with NAK; the next message in order is
counted and takes effect. HELLO forms the pair when roles differ, digests match and ranges overlap, else sets its error bit
in DOWN. A differing HEARTBEAT digest sets CFG_ERR. ACCEPT adds the command, window id and record; ANNOUNCE is kept until
DONE covers it; BEAT sets position and lock state; FENCE makes a PAIRED secondary SUSPECT. SYNC_DATA brings image, setup
entries, windows and records; SYNC_READY is answered with the join batches, at which the secondary starts; the pair is PAIRED
when SYNC_JOIN is acknowledged and the batches below are recorded. HEARTBEAT goes out after 1 us of silence, but from no
DETACHED module (log entry 101); after 10 us the peer is lost. A port's state follows its lanes. A joining secondary that
loses its peer or gets a FENCE detaches (log entry 43). (Rests on 15_links_and_pairing.md R443, R445, R446, R447, R448, R449,
R451, R452, R453, R457, R461, R462.) -/
def Obligations.PairMessagesWork : Prop :=
  (∀ (s : State) (msg : Bytes) (t ty : Nat) (i : Instr), (i, ty) ∈ [(Instr.pairAccept msg t, 3), (.pairAnnounce msg t, 4), (.pairDone msg t, 5), (.pairBeat msg t, 6),
      (.pairFence msg t, 7), (.pairSyncData msg t, 8), (.pairSyncReady msg t, 9), (.pairSyncJoin msg t, 10)] →
    (parsePair msg = none ∨ s.pair.state = .off ∨ s.pair.portsUp = 0 → exec i s = .next (s.at_ t)) ∧
    (∀ m, Arrives s msg ty m → m.seq ≠ 0 → m.seq ≤ s.pair.rxSeq ∨ s.pair.rxSeq + 1 < m.seq → ∃ u, exec i s = .next u ∧ u.pair.rxSeq = s.pair.rxSeq ∧
      u.pair.msgs = s.pair.msgs ∧ (s.pair.state ≠ .syncing ∨ s.pair.roleNow ≠ 1 → u.pair.state = s.pair.state) ∧ u.cmds = s.cmds ∧ u.work = s.work ∧ u.beat = s.beat ∧
      (s.pair.rxSeq + 1 < m.seq → s.pair.state ≠ .detached → ∃ p, Out.pair (pairMsg 2 1 s.pair.rxSeq 0 p) ∈ u.out)) ∧
    (∀ m, InOrder s msg ty m → ∃ u, exec i s = .next u ∧ u.pair.rxSeq = m.seq ∧ u.pair.msgs = (s.pair.msgs + 1) % 2 ^ 64)) ∧
  (∀ (s : State) (msg : Bytes) (t : Nat) (m : PairMsg), s.pair.state = .down → s.pair.portsUp ≠ 0 → parsePair msg = some m → m.ty = 1 → m.pl.length = 24 → m.seq ≠ 0 →
    let role := fieldAt m.pl 4 1
    let roleBad := role = s.pair.roleNow ∨ role = 0 ∨ 2 < role
    ∃ u, exec (.pairHello msg t) s = .next u ∧ u.pair.helloSeen = true ∧ u.pair.peerId = fieldAt m.pl 8 8 ∧
      (∀ v, ¬ roleBad → fieldAt m.pl 16 8 = s.cfgDigest → agree s.pair.offer (fieldAt m.pl 0 4) = some v → u.pair.state = .syncing ∧ u.pair.agreed = v.2) ∧
      (roleBad → u.pair.state = .down ∧ u.pair.roleErr = true) ∧ (fieldAt m.pl 16 8 ≠ s.cfgDigest → u.pair.state = .down ∧ u.pair.cfgErr = true) ∧
      (agree s.pair.offer (fieldAt m.pl 0 4) = none → u.pair.state = .down ∧ u.pair.verErr = true)) ∧
  (∀ (s : State) (msg : Bytes) (t : Nat) (m : PairMsg), Arrives s msg 2 m → m.seq = 0 → m.pl.length = 24 → ∃ u, exec (.pairHeartbeat msg t) s = .next u ∧
    u.pair.lastRx = max s.now t ∧ (fieldAt m.pl 16 8 = s.cfgDigest → u.pair.cfgErr = s.pair.cfgErr ∧
      (s.pair.state ≠ .syncing ∨ s.pair.roleNow ≠ 1 → u.pair.state = s.pair.state) ∧
      (s.pair.state = .syncing → s.pair.roleNow = 1 → s.pair.readySent = true → u.pair.txAck = max s.pair.txAck (fullAck s.pair.txSeq m.ack) ∧
        (s.pair.joinSeq ≤ u.pair.txAck → (∀ j ∈ s.pair.joins, j.2 ≤ (s.stream j.1).released ∨ (s.stream j.1).phase = .closed) → u.pair.state = .paired) ∧
        (u.pair.txAck < s.pair.joinSeq → u.pair.state = .syncing))) ∧
    (fieldAt m.pl 16 8 ≠ s.cfgDigest → u.pair.cfgErr = true ∧ (s.pair.state = .syncing ∨ s.pair.state = .paired →
      (s.pair.roleNow = 2 → u.pair.state = .detached) ∧ (s.pair.roleNow = 1 → u.pair.state = .solo)))) ∧
  (∀ (s : State) (msg : Bytes) (t : Nat) (m : PairMsg), InOrder s msg 3 m → s.mirroring = true → m.pl.length = 144 → ∃ u c, exec (.pairAccept msg t) s = .next u ∧
    u.cmds = s.cmds ++ [c] ∧ c.seq = fieldAt m.pl 0 8 ∧ c.qp = fieldAt m.pl 8 1 ∧ c.entry = parseEntry (m.pl.drop 16) ∧ u.jrn.tail = fieldAt m.pl 0 8 + 1 ∧
    (u.qp c.qp).sqHead = fieldAt m.pl 14 2 ∧ (u.qp c.qp).window.head? = some { id := c.entry.id, outcome := none }) ∧
  (∀ (s : State) (msg : Bytes) (t : Nat) (m : PairMsg), InOrder s msg 4 m → s.mirroring = true → 64 ≤ m.pl.length → let a := parseAnnounce m.pl
    ∃ u, exec (.pairAnnounce msg t) s = .next u ∧ u.pair.undone = s.pair.undone ++ [a] ∧ (u.qp a.queue).cqTail = (a.slot + 1) % (s.qp a.queue).cqSize) ∧
  (∀ (s : State) (msg : Bytes) (t : Nat) (m : PairMsg), InOrder s msg 5 m → s.mirroring = true → m.pl.length = 8 → ∃ u, exec (.pairDone msg t) s = .next u ∧
    u.pair.undone = s.pair.undone.filter fun a => decide (fieldAt m.pl 0 8 < a.ann)) ∧
  (∀ (s : State) (msg : Bytes) (t : Nat) (m : PairMsg), InOrder s msg 6 m → s.followsPrimary = true → QuietGraph s → m.pl.length = 24 →
    ∃ u, exec (.pairBeat msg t) s = .next u ∧ u.beat.posBeat = fieldAt m.pl 0 8 ∧ u.beat.posPhase = 0 ∧ u.beat.edge = some (t - fieldAt m.pl 8 4 - s.pair.latency) ∧
      u.beat.lock = lockOf (fieldAt m.pl 12 1) ∧ u.beat.pest = ((fieldAt m.pl 16 8 : Nat) : Int)) ∧
  (∀ (s : State) (msg : Bytes) (t : Nat) (m : PairMsg), InOrder s msg 7 m → ∃ u, exec (.pairFence msg t) s = .next u ∧
    (s.pair.roleNow = 2 → s.pair.state = .paired → u.pair.state = .suspect) ∧ (s.pair.roleNow = 2 → s.pair.state = .syncing → u.pair.state = .detached) ∧
    (s.pair.roleNow ≠ 2 → s.pair.state ≠ .syncing → u.pair.state = s.pair.state)) ∧
  (∀ (s : State) (msg : Bytes) (t : Nat) (m : PairMsg), InOrder s msg 8 m → s.pair.state = .syncing → s.pair.roleNow = 2 → 16 ≤ m.pl.length →
    let off := fieldAt m.pl 8 8
    let data := m.pl.drop 16
    ∃ u, exec (.pairSyncData msg t) s = .next u ∧
      (fieldAt m.pl 0 1 = 1 → u.pair.syncImage = s.pair.syncImage.take off ++ data ∧ u.cmds = s.cmds) ∧
      (fieldAt m.pl 0 1 = 2 → ∃ c, u.cmds = s.cmds ++ [c] ∧ c.qp = off % 256 ∧ c.entry = parseEntry data ∧ setupSeq ≤ c.seq) ∧
      (fieldAt m.pl 0 1 = 2 → fieldAt data 8 1 = opRun → tget 0 u.pair.written (fieldAt data 10 1) = off / 256) ∧
      (fieldAt m.pl 0 1 = 3 → (u.qp off).window = ((s.qp off).window ++ parseWindow data).take 65536) ∧
      (fieldAt m.pl 0 1 = 4 → u.jrn.tail = (if data = [] then off else off + 1) ∧ (data = [] → u.pair.syncEnd = true))) ∧
  (∀ (s : State) (msg : Bytes) (t : Nat) (m : PairMsg), InOrder s msg 9 m → s.pair.state = .syncing → s.pair.roleNow = 1 → s.pair.readySent = false →
    ∃ u, exec (.pairSyncReady msg t) s = .next u ∧ u.pair.readySent = true ∧ u.pair.joins = s.openStreams.map (fun n => (n, (s.at_ t).joinBatch n)) ∧
      u.pair.state = .syncing ∧ u.pair.joinSeq = s.pair.txSeq + 1 ∧ u.pair.txSeq = s.pair.txSeq + 1) ∧
  (∀ (s : State) (msg : Bytes) (t : Nat) (m : PairMsg), InOrder s msg 10 m → s.pair.state = .syncing → s.pair.roleNow = 2 → ∃ u, exec (.pairSyncJoin msg t) s = .next u ∧
    u.pair.joinSeen = true ∧ (fieldAt m.pl 0 2 = 1 → let n := fieldAt m.pl 8 1
      let b := fieldAt m.pl 16 8
      (b ≠ 0 → (u.stream n).released = b) ∧ (b = 0 → (u.stream n).released = (s.stream n).released) ∧
      (s.pair.readySent = true → tget 0 s.pair.written n < b → (s.stream n).phase ≠ .closed → u.pair.state = .syncing)) ∧
    (fieldAt m.pl 0 2 = 0 → s.pair.readySent = true → s.pair.syncEnd = true → u.pair.state = .paired)) ∧
  (∀ (s : State) (t : Nat), let s0 := s.at_ t
    (s.pair.state = .off ∨ s0.now < s.pair.lastTx + 1000 → exec (.heartbeatTimer t) s = .next s0) ∧
    (s.pair.state = .detached → exec (.heartbeatTimer t) s = .next s0) ∧
    (s.pair.state ≠ .off → s.pair.state ≠ .detached → s.pair.lastTx + 1000 ≤ s0.now → s.pair.portsUp ≠ 0 → ∃ u p, exec (.heartbeatTimer t) s = .next u ∧ u.pair.lastTx = s0.now ∧
      (s.pair.state = .down → s.pair.helloSeen = false → u.out = .pair (pairMsg 1 0 s.pair.rxSeq (s.pair.txSeq + 1) p) :: s.out) ∧
      (s.pair.state ≠ .down ∨ s.pair.helloSeen = true → u.out = .pair (pairMsg 2 0 s.pair.rxSeq 0 p) :: s.out)) ∧
    (s0.now < s.pair.lastRx + 10000 → exec (.peerLossTimeout t) s = .next s0) ∧
    (s.pair.lastRx + 10000 ≤ s0.now → ∃ u, exec (.peerLossTimeout t) s = .next u ∧
      (s.pair.state = .paired ∨ s.pair.state = .syncing → s.pair.roleNow = 1 → u.pair.state = .solo) ∧
      (s.pair.state = .paired → s.pair.roleNow = 2 → u.pair.state = .suspect) ∧ (s.pair.state = .syncing → s.pair.roleNow = 2 → u.pair.state = .detached) ∧
      (s.pair.state ≠ .paired → s.pair.state ≠ .syncing → u = s0))) ∧
  (∀ (s : State) (p : Fin 2) (n : Fin 3) (l : Nat), ∃ u, exec (.pairPortStateChange p n l) s = .next u ∧
    (bitOf u.pair.portsUp p = true ↔ n ≠ 0 ∧ s.domOff (24 + p) = false) ∧ bitOf u.pair.portsUp (1 - p.val) = bitOf s.pair.portsUp (1 - p.val) ∧
    (n ≠ 0 → s.domOff (24 + p) = false → u.pair.latency = l) ∧
    ∀ i, i < 8 → bitOf u.present.rolog (8 * p + i) = true → n ≠ 0 ∧ s.domOff (24 + p) = false ∧ bitOf s.fit.rolog (8 * p + i) = true)

/-- A detected error of a unit in service opens a record with the next number, fences the unit, pauses Tailrace and begins
recovery; a second one sets DOUBLE, and in the unit under recovery, or in a copy of a duplex, the device is FAILED, its
commands ended. A passed self-test is a transient, unless it is the third; a failed one is lasting: it fails the device for
the kinds that do, replaces an HBM row or advises a reboot, else removes core, cluster or lane. Resume ends the pause, or
begins the next recovery, and writes ST_FAULT_RECOVERED. An injected error needs SERVICE and a unit in service and is outcome
7. MAPOUT_CLEAR erases the records, but is dropped under a graph. Boot verifies the images of each stage, keeps removed units
out, and shows the grade at its end. (Rests on 16_reliability.md R467, R468, R469, R472, R473, R475, R477, R479, R480, R481,
R489, 17_security.md R496.) -/
def Obligations.ErrorsRecoverAndBoot : Prop :=
  (∀ (s : State) (i : Instr) (kind index cause detail t : Nat),
    ((∃ (k : Fin 21) (c : Fin 9), i = .detectedError k index c detail t ∧ kind = k.val ∧ cause = c.val ∧ c.val ≠ 0) ∨
      (∃ (m : Master) (k : Fin 32) (x : Fin 65536), i = .errInject m k x t ∧ kind = k.val ∧ index = x.val ∧ cause = 9 ∧ detail = 0 ∧ s.err.state = 0)) →
    s.unitServes kind index = true → s.err.state ≠ 2 → ∃ u r, exec i s = .next u ∧ u.err.log.head? = some r ∧ u.err.lastNum = s.err.lastNum + 1 ∧
      r.num = s.err.lastNum + 1 ∧ r.kind = kind ∧ r.index = index ∧ r.cause = cause ∧ r.detail = detail ∧ r.source = errSource kind index ∧
      u.work.trc.paused = true ∧ (kind, index) ∈ u.err.fenced ∧
      (s.err.state = 0 → kind ≠ 14 → kind ≠ 15 → u.err.state = 1 ∧ u.err.double = s.err.double ∧ (s.err.log.length < 256 → kind ≠ 18 → Posted s u (errSource kind index))) ∧
      (s.err.state = 1 → u.err.double = true) ∧
      (∀ x, s.err.state = 1 → s.err.recovering.head? = some x → x.kind = kind → x.index = index → u.err.state = 2 ∧ r.outcome = 6) ∧
      ((kind = 14 ∧ s.err.duplexTrc = true) ∨ (kind = 15 ∧ s.evc.duplex = true) → u.err.state = 2) ∧
      (u.err.state = 2 → s.pair.state = .off → ∀ c ∈ u.cmds, c.phase ≠ .accepted ∧ c.phase ≠ .executing)) ∧
  (∀ (s : State) (k : Fin 21) (c : Fin 9) (index detail t : Nat), c = 0 ∨ s.unitServes k index = false ∨ s.err.state = 2 →
    exec (.detectedError k index c detail t) s = .next (s.at_ t)) ∧
  (∀ (s : State) (m : Master) (k : Fin 32) (x : Fin 65536) (t : Nat), s.err.state ≠ 0 ∨ s.unitServes k x = false → ∃ u, exec (.errInject m k x t) s = .next u ∧
    u.glb.reject = sat32 s.glb.reject 1 ∧ u.err = { s.err with injKind := k.val, injIndex := x.val } ∧ u.work = s.work) ∧
  (∀ (s : State) (pass spare : Bool) (us t : Nat), (s.err.recovering = [] → exec (.selfTestComplete pass spare us t) s = .next (s.at_ t)) ∧
    ∀ r rest, s.err.recovering = r :: rest → (r.decided = true → exec (.selfTestComplete pass spare us t) s = .next (s.at_ t)) ∧
      (r.decided = false → s.err.state ≠ 2 → ∃ u, exec (.selfTestComplete pass spare us t) s = .next u ∧ (r.kind, r.index) ∉ u.err.fenced ∧
        let third := 2 ≤ s.transientsOf r.kind r.index (s.seenAt r)
        let fatal := r.kind ∈ [9, 11, 12, 13, 18, 19, 20]
        let outcome := fun n => ∀ x, s.err.log.find? (fun y => y.num == r.num) = some x → ∃ y, u.err.log.find? (fun y => y.num == r.num) = some y ∧ y.outcome = n
        (pass = true → r.injected = true → outcome 7 ∧ u.err.history = s.err.history) ∧
        (pass = true → r.injected = false → u.err.history = s.err.history ++ [(r.kind, r.index, s.seenAt r)]) ∧
        (pass = true → r.injected = false → ¬ third → r.kind ≠ 14 → r.kind ≠ 15 → outcome 1) ∧
        (pass = true → r.injected = false → ¬ third → r.kind = 14 ∨ r.kind = 15 → outcome 4) ∧
        ((pass = false ∨ (r.injected = false ∧ third)) → fatal → outcome 6 ∧ u.err.state = 2 ∧ u.err.recovering = []) ∧
        (pass = true → r.injected = false → third → ¬ fatal → r.kind ≠ 10 → outcome 3 ∧ (r.kind, r.index) ∈ u.err.removed) ∧
        (pass = true → r.injected = false → third → r.kind = 10 → outcome (if spare then 5 else 3)) ∧
        (pass = false → ¬ fatal → r.kind ≠ 10 → outcome 2 ∧ (r.kind, r.index) ∈ u.err.removed ∧ (r.kind = 1 → u.coreIn r.index = false) ∧
          (r.kind = 2 → u.clusterIn r.index = false)) ∧
        (pass = false → r.kind = 10 → spare = true → outcome 5 ∧ u.err.removed = s.err.removed) ∧
        (pass = false → r.kind = 10 → spare = false → outcome 2 ∧ u.err.reboot = true ∧ (10, r.index) ∈ u.err.removed ∧ u.present = s.present) ∧
        (pass = true → u.err.state = s.err.state ∨ fatal) ∧ (¬ fatal → u.err.recovering = { r with decided := true } :: rest))) ∧
  (∀ (s : State) (t : Nat), let s0 := s.at_ t
    (s.err.recovering = [] → exec (.recoveryResume t) s = .next s0) ∧
    ∀ r rest, s.err.recovering = r :: rest → (r.decided = false → exec (.recoveryResume t) s = .next s0) ∧
      (r.decided = true → ∃ u, exec (.recoveryResume t) s = .next u ∧ u.err.maxPause = max s.err.maxPause ((s0.now - r.start) / 1000) ∧
        (rest = [] → u.err.state = 0 ∧ u.err.recovering = [] ∧ u.work.trc.paused = false) ∧
        (∀ x xs, rest = x :: xs → u.err.state = 1 ∧ u.err.recovering = { x with start := s0.now } :: xs ∧ u.work.trc.paused = s.work.trc.paused) ∧
        (∀ q, q < 64 → s.hqf11 = true → s.pair.state = .off → s.pair.roleNow = 0 → (s.qp q).enable = true → (s.qp q).noticeEn = true →
          (u.qp q).queue = (s.qp q).queue ++ [noticeEntry stFaultRecovered r.num]))) ∧
  (∀ (s : State) (m : Master), (s.work.graph.isSome = true → exec (.errMapoutClear m) s = .next (s.reject 0xF028 m.val)) ∧
    (s.work.graph = none → ∃ u, exec (.errMapoutClear m) s = .next u ∧ u.fit = s.fit ∧ u.present = s.present ∧
      u.err = { s.err with removed := [], reboot := false })) ∧
  (∀ (s : State) (good : List (Nat × Nat)) (intact : Bool) (found : Present) (t : Nat), let s0 := s.at_ t
    (s.mgt.booting = false → exec (.bootStageComplete good intact found t) s = .next s0) ∧
    (s.mgt.booting = true → s.mgt.stage = 0 → (s.pickImage 1 good = none → exec (.bootStageComplete good intact found t) s = .next s0) ∧
      ∀ k, s.pickImage 1 good = some k → ∃ u, exec (.bootStageComplete good intact found t) s = .next u ∧ u.mgt.stage = 1 ∧ u.sec.bootSlot = k ∧ u.mgt.booting = true) ∧
    (s.mgt.booting = true → s.mgt.stage = 1 → (intact = false → ∃ u, exec (.bootStageComplete good intact found t) s = .next u ∧ u.mgt.stage = 1 ∧ u.sec = { s.sec with tamper := true }) ∧
      (intact = true → s.sec.tamper = true → exec (.bootStageComplete good intact found t) s = .next s0) ∧
      (intact = true → s.sec.tamper = false → ∃ u, exec (.bootStageComplete good intact found t) s = .next u ∧ u.sec.deviceId = (if s.sec.debug = 2 then 0 else Config.moduleId) ∧
        u.mgt.stage = if (s.pickImage 2 good).isSome = true ∧ (s.pickImage 3 good).isSome = true ∧ (s.pickImage 4 good).isSome = true then 2 else 1)) ∧
    (s.mgt.booting = true → s.mgt.stage = 2 → ∃ u, exec (.bootStageComplete good intact found t) s = .next u ∧ u.mgt.stage = 3 ∧ u.err.removed = s.err.removed ∧
      (s.mgt.cold = true → u.err.cached = found) ∧ (s.mgt.cold = false → u.err.cached = s.err.cached) ∧ (∀ c, (1, c) ∈ s.err.removed → u.coreIn c = false) ∧
      (∀ k, (2, k) ∈ s.err.removed → u.clusterIn k = false)) ∧
    (s.mgt.booting = true → 3 ≤ s.mgt.stage → ∃ u, exec (.bootStageComplete good intact found t) s = .next u ∧ u.mgt.stage = 4 ∧ u.mgt.booting = false ∧ u.mgt.cold = false ∧
      u.glb.ready = true ∧ u.err.grade = u.gradeNow ∧ u.pci.frs = true))

/-- The registers of the tables with their reset values: identity, capabilities, supported ranges, beat configuration with
automatic selection and HOLD_BEATS 4, chain enabled, RLP offer, cap 720 W, clock 2.4 GHz, floor 1,200 MHz, every domain on,
grade 7, scrub period 24 hours, moderation count 1 of every queue pair, CH_CFG of every channel; no error, no pair, no graph,
no command, no event source configured, and both memories in canonical form (the invariant of MemoriesStayCanonical). (Rests
on 02_beat_schedule_graphs.md register tables, 13_memory_and_movers.md register tables, 15_links_and_pairing.md register
tables, 16_reliability.md register tables, 18_power_and_management.md register tables, 19_register_map.md register tables.)
-/
def Obligations.RegistersAtReset : Prop :=
  (∀ e ∈ [(0x000, 0x51B17720), (0x004, 0), (0x010, 0), (0x014, 0), (0x01C, 0x40404040), (0x020, 0x04001000), (0x024, 0x000F0800), (0x030, 0), (0x0C0, 0x01010100),
      (0x0C4, 0x01020100), (0x0C8, 0x01010100), (0x0CC, 0x01000100), (0x0D0, 0), (0x0D4, 0), (0x0DC, 0), (0xE000, 0), (0xE004, 0xFFFF), (0xF000, 0), (0xF004, 7),
      (0x100000, 0x43), (0x100004, 0), (0x100020, 0xFFFFFFFF), (0x100024, 0xFFFFFFFF), (0x100100, 1), (0x100104, 0), (0x100200, 0), (0x100208, 0), (0x10020C, 0x01010100),
      (0x200000, 0), (0x200004, 720), (0x200008, 2400 * 65536), (0x20000C, 1200), (0x200028, 0xFFFFFFFF), (0x20002C, 3), (0x204000, 0), (0x208000, 0),
      (0x3000018, 24)], State.reset.regPeek e.1 = e.2) ∧
  (∀ q, q < 64 → State.reset.regPeek (0x10000 + 0x100 * q) = 0 ∧ State.reset.regPeek (0x10024 + 0x100 * q) = 0x10000) ∧
  (∀ c, c < 64 → State.reset.regPeek (0x80018 + 0x400 * c) = 0xC33) ∧
  State.reset.err.state = 0 ∧ State.reset.pair.state = .off ∧ State.reset.work.graph = none ∧ State.reset.cmds = [] ∧ State.reset.evc.src = [] ∧
  memWf State.reset.mem.bus = true ∧ memWf State.reset.mem.hbm = true ∧ State.reset.pending = [] ∧ State.reset.out = []

/-- For every state, if step answers a next state: host memory and HBM keep the canonical form (addresses strictly rising, no
entry equal to what an unlisted address reads as), so that equal memories are equal data, and the queue has lost exactly its
front command. (Rests on 00_scope.md, 13_memory_and_movers.md R371, 19_register_map.md.) -/
def Obligations.MemoriesStayCanonical : Prop :=
  ∀ s t : State, step s = .next t →
    (memWf s.mem.bus = true → memWf t.mem.bus = true) ∧ (memWf s.mem.hbm = true → memWf t.mem.hbm = true) ∧ t.pending = s.pending.tail
end

