-- ==== Sys2Proof/Laws/State.lean ====
section
/-! SUPPORT. What each update of one part of the state leaves in every field: one lemma per field per update, so that no
later proof unfolds a record update. -/

namespace Sys2Proof.Machine

variable (s : State)

@[simp] theorem State.at_now (t : Nat) : (s.at_ t).now = max s.now t := rfl
@[simp] theorem State.at_free (t : Nat) : (s.at_ t).free = s.free := rfl
@[simp] theorem State.at_glb (t : Nat) : (s.at_ t).glb = s.glb := rfl
@[simp] theorem State.at_beat (t : Nat) : (s.at_ t).beat = s.beat := rfl
@[simp] theorem State.at_qps (t : Nat) : (s.at_ t).qps = s.qps := rfl
@[simp] theorem State.at_groups (t : Nat) : (s.at_ t).groups = s.groups := rfl
@[simp] theorem State.at_jrn (t : Nat) : (s.at_ t).jrn = s.jrn := rfl
@[simp] theorem State.at_cmds (t : Nat) : (s.at_ t).cmds = s.cmds := rfl
@[simp] theorem State.at_work (t : Nat) : (s.at_ t).work = s.work := rfl
@[simp] theorem State.at_mem (t : Nat) : (s.at_ t).mem = s.mem := rfl
@[simp] theorem State.at_evc (t : Nat) : (s.at_ t).evc = s.evc := rfl
@[simp] theorem State.at_err (t : Nat) : (s.at_ t).err = s.err := rfl
@[simp] theorem State.at_pci (t : Nat) : (s.at_ t).pci = s.pci := rfl
@[simp] theorem State.at_chain (t : Nat) : (s.at_ t).chain = s.chain := rfl
@[simp] theorem State.at_pair (t : Nat) : (s.at_ t).pair = s.pair := rfl
@[simp] theorem State.at_sec (t : Nat) : (s.at_ t).sec = s.sec := rfl
@[simp] theorem State.at_pwr (t : Nat) : (s.at_ t).pwr = s.pwr := rfl
@[simp] theorem State.at_mgt (t : Nat) : (s.at_ t).mgt = s.mgt := rfl
@[simp] theorem State.at_present (t : Nat) : (s.at_ t).present = s.present := rfl
@[simp] theorem State.at_fit (t : Nat) : (s.at_ t).fit = s.fit := rfl
@[simp] theorem State.at_capture (t : Nat) : (s.at_ t).capture = s.capture := rfl
@[simp] theorem State.at_out (t : Nat) : (s.at_ t).out = s.out := rfl
@[simp] theorem State.at_pending (t : Nat) : (s.at_ t).pending = s.pending := rfl

@[simp] theorem State.emit_now (o : Out) : (s.emit o).now = s.now := rfl
@[simp] theorem State.emit_free (o : Out) : (s.emit o).free = s.free := rfl
@[simp] theorem State.emit_glb (o : Out) : (s.emit o).glb = s.glb := rfl
@[simp] theorem State.emit_beat (o : Out) : (s.emit o).beat = s.beat := rfl
@[simp] theorem State.emit_qps (o : Out) : (s.emit o).qps = s.qps := rfl
@[simp] theorem State.emit_groups (o : Out) : (s.emit o).groups = s.groups := rfl
@[simp] theorem State.emit_jrn (o : Out) : (s.emit o).jrn = s.jrn := rfl
@[simp] theorem State.emit_cmds (o : Out) : (s.emit o).cmds = s.cmds := rfl
@[simp] theorem State.emit_work (o : Out) : (s.emit o).work = s.work := rfl
@[simp] theorem State.emit_mem (o : Out) : (s.emit o).mem = s.mem := rfl
@[simp] theorem State.emit_evc (o : Out) : (s.emit o).evc = s.evc := rfl
@[simp] theorem State.emit_err (o : Out) : (s.emit o).err = s.err := rfl
@[simp] theorem State.emit_pci (o : Out) : (s.emit o).pci = s.pci := rfl
@[simp] theorem State.emit_chain (o : Out) : (s.emit o).chain = s.chain := rfl
@[simp] theorem State.emit_pair (o : Out) : (s.emit o).pair = s.pair := rfl
@[simp] theorem State.emit_sec (o : Out) : (s.emit o).sec = s.sec := rfl
@[simp] theorem State.emit_pwr (o : Out) : (s.emit o).pwr = s.pwr := rfl
@[simp] theorem State.emit_mgt (o : Out) : (s.emit o).mgt = s.mgt := rfl
@[simp] theorem State.emit_present (o : Out) : (s.emit o).present = s.present := rfl
@[simp] theorem State.emit_fit (o : Out) : (s.emit o).fit = s.fit := rfl
@[simp] theorem State.emit_capture (o : Out) : (s.emit o).capture = s.capture := rfl
@[simp] theorem State.emit_out (o : Out) : (s.emit o).out = o :: s.out := rfl
@[simp] theorem State.emit_pending (o : Out) : (s.emit o).pending = s.pending := rfl

@[simp] theorem State.modQp_now (q : Nat) (f : Qp → Qp) : (s.modQp q f).now = s.now := rfl
@[simp] theorem State.modQp_free (q : Nat) (f : Qp → Qp) : (s.modQp q f).free = s.free := rfl
@[simp] theorem State.modQp_glb (q : Nat) (f : Qp → Qp) : (s.modQp q f).glb = s.glb := rfl
@[simp] theorem State.modQp_beat (q : Nat) (f : Qp → Qp) : (s.modQp q f).beat = s.beat := rfl
@[simp] theorem State.modQp_qps (q : Nat) (f : Qp → Qp) : (s.modQp q f).qps = tmod {} q f s.qps := rfl
@[simp] theorem State.modQp_groups (q : Nat) (f : Qp → Qp) : (s.modQp q f).groups = s.groups := rfl
@[simp] theorem State.modQp_jrn (q : Nat) (f : Qp → Qp) : (s.modQp q f).jrn = s.jrn := rfl
@[simp] theorem State.modQp_cmds (q : Nat) (f : Qp → Qp) : (s.modQp q f).cmds = s.cmds := rfl
@[simp] theorem State.modQp_work (q : Nat) (f : Qp → Qp) : (s.modQp q f).work = s.work := rfl
@[simp] theorem State.modQp_mem (q : Nat) (f : Qp → Qp) : (s.modQp q f).mem = s.mem := rfl
@[simp] theorem State.modQp_evc (q : Nat) (f : Qp → Qp) : (s.modQp q f).evc = s.evc := rfl
@[simp] theorem State.modQp_err (q : Nat) (f : Qp → Qp) : (s.modQp q f).err = s.err := rfl
@[simp] theorem State.modQp_pci (q : Nat) (f : Qp → Qp) : (s.modQp q f).pci = s.pci := rfl
@[simp] theorem State.modQp_chain (q : Nat) (f : Qp → Qp) : (s.modQp q f).chain = s.chain := rfl
@[simp] theorem State.modQp_pair (q : Nat) (f : Qp → Qp) : (s.modQp q f).pair = s.pair := rfl
@[simp] theorem State.modQp_sec (q : Nat) (f : Qp → Qp) : (s.modQp q f).sec = s.sec := rfl
@[simp] theorem State.modQp_pwr (q : Nat) (f : Qp → Qp) : (s.modQp q f).pwr = s.pwr := rfl
@[simp] theorem State.modQp_mgt (q : Nat) (f : Qp → Qp) : (s.modQp q f).mgt = s.mgt := rfl
@[simp] theorem State.modQp_present (q : Nat) (f : Qp → Qp) : (s.modQp q f).present = s.present := rfl
@[simp] theorem State.modQp_fit (q : Nat) (f : Qp → Qp) : (s.modQp q f).fit = s.fit := rfl
@[simp] theorem State.modQp_capture (q : Nat) (f : Qp → Qp) : (s.modQp q f).capture = s.capture := rfl
@[simp] theorem State.modQp_out (q : Nat) (f : Qp → Qp) : (s.modQp q f).out = s.out := rfl
@[simp] theorem State.modQp_pending (q : Nat) (f : Qp → Qp) : (s.modQp q f).pending = s.pending := rfl

@[simp] theorem State.modGroup_now (g : Nat) (f : DbGroup → DbGroup) : (s.modGroup g f).now = s.now := rfl
@[simp] theorem State.modGroup_free (g : Nat) (f : DbGroup → DbGroup) : (s.modGroup g f).free = s.free := rfl
@[simp] theorem State.modGroup_glb (g : Nat) (f : DbGroup → DbGroup) : (s.modGroup g f).glb = s.glb := rfl
@[simp] theorem State.modGroup_beat (g : Nat) (f : DbGroup → DbGroup) : (s.modGroup g f).beat = s.beat := rfl
@[simp] theorem State.modGroup_qps (g : Nat) (f : DbGroup → DbGroup) : (s.modGroup g f).qps = s.qps := rfl
@[simp] theorem State.modGroup_groups (g : Nat) (f : DbGroup → DbGroup) : (s.modGroup g f).groups = tmod {} g f s.groups := rfl
@[simp] theorem State.modGroup_jrn (g : Nat) (f : DbGroup → DbGroup) : (s.modGroup g f).jrn = s.jrn := rfl
@[simp] theorem State.modGroup_cmds (g : Nat) (f : DbGroup → DbGroup) : (s.modGroup g f).cmds = s.cmds := rfl
@[simp] theorem State.modGroup_work (g : Nat) (f : DbGroup → DbGroup) : (s.modGroup g f).work = s.work := rfl
@[simp] theorem State.modGroup_mem (g : Nat) (f : DbGroup → DbGroup) : (s.modGroup g f).mem = s.mem := rfl
@[simp] theorem State.modGroup_evc (g : Nat) (f : DbGroup → DbGroup) : (s.modGroup g f).evc = s.evc := rfl
@[simp] theorem State.modGroup_err (g : Nat) (f : DbGroup → DbGroup) : (s.modGroup g f).err = s.err := rfl
@[simp] theorem State.modGroup_pci (g : Nat) (f : DbGroup → DbGroup) : (s.modGroup g f).pci = s.pci := rfl
@[simp] theorem State.modGroup_chain (g : Nat) (f : DbGroup → DbGroup) : (s.modGroup g f).chain = s.chain := rfl
@[simp] theorem State.modGroup_pair (g : Nat) (f : DbGroup → DbGroup) : (s.modGroup g f).pair = s.pair := rfl
@[simp] theorem State.modGroup_sec (g : Nat) (f : DbGroup → DbGroup) : (s.modGroup g f).sec = s.sec := rfl
@[simp] theorem State.modGroup_pwr (g : Nat) (f : DbGroup → DbGroup) : (s.modGroup g f).pwr = s.pwr := rfl
@[simp] theorem State.modGroup_mgt (g : Nat) (f : DbGroup → DbGroup) : (s.modGroup g f).mgt = s.mgt := rfl
@[simp] theorem State.modGroup_present (g : Nat) (f : DbGroup → DbGroup) : (s.modGroup g f).present = s.present := rfl
@[simp] theorem State.modGroup_fit (g : Nat) (f : DbGroup → DbGroup) : (s.modGroup g f).fit = s.fit := rfl
@[simp] theorem State.modGroup_capture (g : Nat) (f : DbGroup → DbGroup) : (s.modGroup g f).capture = s.capture := rfl
@[simp] theorem State.modGroup_out (g : Nat) (f : DbGroup → DbGroup) : (s.modGroup g f).out = s.out := rfl
@[simp] theorem State.modGroup_pending (g : Nat) (f : DbGroup → DbGroup) : (s.modGroup g f).pending = s.pending := rfl

@[simp] theorem State.modWork_now (f : Work → Work) : (s.modWork f).now = s.now := rfl
@[simp] theorem State.modWork_free (f : Work → Work) : (s.modWork f).free = s.free := rfl
@[simp] theorem State.modWork_glb (f : Work → Work) : (s.modWork f).glb = s.glb := rfl
@[simp] theorem State.modWork_beat (f : Work → Work) : (s.modWork f).beat = s.beat := rfl
@[simp] theorem State.modWork_qps (f : Work → Work) : (s.modWork f).qps = s.qps := rfl
@[simp] theorem State.modWork_groups (f : Work → Work) : (s.modWork f).groups = s.groups := rfl
@[simp] theorem State.modWork_jrn (f : Work → Work) : (s.modWork f).jrn = s.jrn := rfl
@[simp] theorem State.modWork_cmds (f : Work → Work) : (s.modWork f).cmds = s.cmds := rfl
@[simp] theorem State.modWork_work (f : Work → Work) : (s.modWork f).work = f s.work := rfl
@[simp] theorem State.modWork_mem (f : Work → Work) : (s.modWork f).mem = s.mem := rfl
@[simp] theorem State.modWork_evc (f : Work → Work) : (s.modWork f).evc = s.evc := rfl
@[simp] theorem State.modWork_err (f : Work → Work) : (s.modWork f).err = s.err := rfl
@[simp] theorem State.modWork_pci (f : Work → Work) : (s.modWork f).pci = s.pci := rfl
@[simp] theorem State.modWork_chain (f : Work → Work) : (s.modWork f).chain = s.chain := rfl
@[simp] theorem State.modWork_pair (f : Work → Work) : (s.modWork f).pair = s.pair := rfl
@[simp] theorem State.modWork_sec (f : Work → Work) : (s.modWork f).sec = s.sec := rfl
@[simp] theorem State.modWork_pwr (f : Work → Work) : (s.modWork f).pwr = s.pwr := rfl
@[simp] theorem State.modWork_mgt (f : Work → Work) : (s.modWork f).mgt = s.mgt := rfl
@[simp] theorem State.modWork_present (f : Work → Work) : (s.modWork f).present = s.present := rfl
@[simp] theorem State.modWork_fit (f : Work → Work) : (s.modWork f).fit = s.fit := rfl
@[simp] theorem State.modWork_capture (f : Work → Work) : (s.modWork f).capture = s.capture := rfl
@[simp] theorem State.modWork_out (f : Work → Work) : (s.modWork f).out = s.out := rfl
@[simp] theorem State.modWork_pending (f : Work → Work) : (s.modWork f).pending = s.pending := rfl

@[simp] theorem State.modMem_now (f : Mem → Mem) : (s.modMem f).now = s.now := rfl
@[simp] theorem State.modMem_free (f : Mem → Mem) : (s.modMem f).free = s.free := rfl
@[simp] theorem State.modMem_glb (f : Mem → Mem) : (s.modMem f).glb = s.glb := rfl
@[simp] theorem State.modMem_beat (f : Mem → Mem) : (s.modMem f).beat = s.beat := rfl
@[simp] theorem State.modMem_qps (f : Mem → Mem) : (s.modMem f).qps = s.qps := rfl
@[simp] theorem State.modMem_groups (f : Mem → Mem) : (s.modMem f).groups = s.groups := rfl
@[simp] theorem State.modMem_jrn (f : Mem → Mem) : (s.modMem f).jrn = s.jrn := rfl
@[simp] theorem State.modMem_cmds (f : Mem → Mem) : (s.modMem f).cmds = s.cmds := rfl
@[simp] theorem State.modMem_work (f : Mem → Mem) : (s.modMem f).work = s.work := rfl
@[simp] theorem State.modMem_mem (f : Mem → Mem) : (s.modMem f).mem = f s.mem := rfl
@[simp] theorem State.modMem_evc (f : Mem → Mem) : (s.modMem f).evc = s.evc := rfl
@[simp] theorem State.modMem_err (f : Mem → Mem) : (s.modMem f).err = s.err := rfl
@[simp] theorem State.modMem_pci (f : Mem → Mem) : (s.modMem f).pci = s.pci := rfl
@[simp] theorem State.modMem_chain (f : Mem → Mem) : (s.modMem f).chain = s.chain := rfl
@[simp] theorem State.modMem_pair (f : Mem → Mem) : (s.modMem f).pair = s.pair := rfl
@[simp] theorem State.modMem_sec (f : Mem → Mem) : (s.modMem f).sec = s.sec := rfl
@[simp] theorem State.modMem_pwr (f : Mem → Mem) : (s.modMem f).pwr = s.pwr := rfl
@[simp] theorem State.modMem_mgt (f : Mem → Mem) : (s.modMem f).mgt = s.mgt := rfl
@[simp] theorem State.modMem_present (f : Mem → Mem) : (s.modMem f).present = s.present := rfl
@[simp] theorem State.modMem_fit (f : Mem → Mem) : (s.modMem f).fit = s.fit := rfl
@[simp] theorem State.modMem_capture (f : Mem → Mem) : (s.modMem f).capture = s.capture := rfl
@[simp] theorem State.modMem_out (f : Mem → Mem) : (s.modMem f).out = s.out := rfl
@[simp] theorem State.modMem_pending (f : Mem → Mem) : (s.modMem f).pending = s.pending := rfl

@[simp] theorem State.modEvc_now (f : Evc → Evc) : (s.modEvc f).now = s.now := rfl
@[simp] theorem State.modEvc_free (f : Evc → Evc) : (s.modEvc f).free = s.free := rfl
@[simp] theorem State.modEvc_glb (f : Evc → Evc) : (s.modEvc f).glb = s.glb := rfl
@[simp] theorem State.modEvc_beat (f : Evc → Evc) : (s.modEvc f).beat = s.beat := rfl
@[simp] theorem State.modEvc_qps (f : Evc → Evc) : (s.modEvc f).qps = s.qps := rfl
@[simp] theorem State.modEvc_groups (f : Evc → Evc) : (s.modEvc f).groups = s.groups := rfl
@[simp] theorem State.modEvc_jrn (f : Evc → Evc) : (s.modEvc f).jrn = s.jrn := rfl
@[simp] theorem State.modEvc_cmds (f : Evc → Evc) : (s.modEvc f).cmds = s.cmds := rfl
@[simp] theorem State.modEvc_work (f : Evc → Evc) : (s.modEvc f).work = s.work := rfl
@[simp] theorem State.modEvc_mem (f : Evc → Evc) : (s.modEvc f).mem = s.mem := rfl
@[simp] theorem State.modEvc_evc (f : Evc → Evc) : (s.modEvc f).evc = f s.evc := rfl
@[simp] theorem State.modEvc_err (f : Evc → Evc) : (s.modEvc f).err = s.err := rfl
@[simp] theorem State.modEvc_pci (f : Evc → Evc) : (s.modEvc f).pci = s.pci := rfl
@[simp] theorem State.modEvc_chain (f : Evc → Evc) : (s.modEvc f).chain = s.chain := rfl
@[simp] theorem State.modEvc_pair (f : Evc → Evc) : (s.modEvc f).pair = s.pair := rfl
@[simp] theorem State.modEvc_sec (f : Evc → Evc) : (s.modEvc f).sec = s.sec := rfl
@[simp] theorem State.modEvc_pwr (f : Evc → Evc) : (s.modEvc f).pwr = s.pwr := rfl
@[simp] theorem State.modEvc_mgt (f : Evc → Evc) : (s.modEvc f).mgt = s.mgt := rfl
@[simp] theorem State.modEvc_present (f : Evc → Evc) : (s.modEvc f).present = s.present := rfl
@[simp] theorem State.modEvc_fit (f : Evc → Evc) : (s.modEvc f).fit = s.fit := rfl
@[simp] theorem State.modEvc_capture (f : Evc → Evc) : (s.modEvc f).capture = s.capture := rfl
@[simp] theorem State.modEvc_out (f : Evc → Evc) : (s.modEvc f).out = s.out := rfl
@[simp] theorem State.modEvc_pending (f : Evc → Evc) : (s.modEvc f).pending = s.pending := rfl

@[simp] theorem State.modGlb_now (f : Glb → Glb) : (s.modGlb f).now = s.now := rfl
@[simp] theorem State.modGlb_free (f : Glb → Glb) : (s.modGlb f).free = s.free := rfl
@[simp] theorem State.modGlb_glb (f : Glb → Glb) : (s.modGlb f).glb = f s.glb := rfl
@[simp] theorem State.modGlb_beat (f : Glb → Glb) : (s.modGlb f).beat = s.beat := rfl
@[simp] theorem State.modGlb_qps (f : Glb → Glb) : (s.modGlb f).qps = s.qps := rfl
@[simp] theorem State.modGlb_groups (f : Glb → Glb) : (s.modGlb f).groups = s.groups := rfl
@[simp] theorem State.modGlb_jrn (f : Glb → Glb) : (s.modGlb f).jrn = s.jrn := rfl
@[simp] theorem State.modGlb_cmds (f : Glb → Glb) : (s.modGlb f).cmds = s.cmds := rfl
@[simp] theorem State.modGlb_work (f : Glb → Glb) : (s.modGlb f).work = s.work := rfl
@[simp] theorem State.modGlb_mem (f : Glb → Glb) : (s.modGlb f).mem = s.mem := rfl
@[simp] theorem State.modGlb_evc (f : Glb → Glb) : (s.modGlb f).evc = s.evc := rfl
@[simp] theorem State.modGlb_err (f : Glb → Glb) : (s.modGlb f).err = s.err := rfl
@[simp] theorem State.modGlb_pci (f : Glb → Glb) : (s.modGlb f).pci = s.pci := rfl
@[simp] theorem State.modGlb_chain (f : Glb → Glb) : (s.modGlb f).chain = s.chain := rfl
@[simp] theorem State.modGlb_pair (f : Glb → Glb) : (s.modGlb f).pair = s.pair := rfl
@[simp] theorem State.modGlb_sec (f : Glb → Glb) : (s.modGlb f).sec = s.sec := rfl
@[simp] theorem State.modGlb_pwr (f : Glb → Glb) : (s.modGlb f).pwr = s.pwr := rfl
@[simp] theorem State.modGlb_mgt (f : Glb → Glb) : (s.modGlb f).mgt = s.mgt := rfl
@[simp] theorem State.modGlb_present (f : Glb → Glb) : (s.modGlb f).present = s.present := rfl
@[simp] theorem State.modGlb_fit (f : Glb → Glb) : (s.modGlb f).fit = s.fit := rfl
@[simp] theorem State.modGlb_capture (f : Glb → Glb) : (s.modGlb f).capture = s.capture := rfl
@[simp] theorem State.modGlb_out (f : Glb → Glb) : (s.modGlb f).out = s.out := rfl
@[simp] theorem State.modGlb_pending (f : Glb → Glb) : (s.modGlb f).pending = s.pending := rfl

@[simp] theorem State.modBeat_now (f : Beat → Beat) : (s.modBeat f).now = s.now := rfl
@[simp] theorem State.modBeat_free (f : Beat → Beat) : (s.modBeat f).free = s.free := rfl
@[simp] theorem State.modBeat_glb (f : Beat → Beat) : (s.modBeat f).glb = s.glb := rfl
@[simp] theorem State.modBeat_beat (f : Beat → Beat) : (s.modBeat f).beat = f s.beat := rfl
@[simp] theorem State.modBeat_qps (f : Beat → Beat) : (s.modBeat f).qps = s.qps := rfl
@[simp] theorem State.modBeat_groups (f : Beat → Beat) : (s.modBeat f).groups = s.groups := rfl
@[simp] theorem State.modBeat_jrn (f : Beat → Beat) : (s.modBeat f).jrn = s.jrn := rfl
@[simp] theorem State.modBeat_cmds (f : Beat → Beat) : (s.modBeat f).cmds = s.cmds := rfl
@[simp] theorem State.modBeat_work (f : Beat → Beat) : (s.modBeat f).work = s.work := rfl
@[simp] theorem State.modBeat_mem (f : Beat → Beat) : (s.modBeat f).mem = s.mem := rfl
@[simp] theorem State.modBeat_evc (f : Beat → Beat) : (s.modBeat f).evc = s.evc := rfl
@[simp] theorem State.modBeat_err (f : Beat → Beat) : (s.modBeat f).err = s.err := rfl
@[simp] theorem State.modBeat_pci (f : Beat → Beat) : (s.modBeat f).pci = s.pci := rfl
@[simp] theorem State.modBeat_chain (f : Beat → Beat) : (s.modBeat f).chain = s.chain := rfl
@[simp] theorem State.modBeat_pair (f : Beat → Beat) : (s.modBeat f).pair = s.pair := rfl
@[simp] theorem State.modBeat_sec (f : Beat → Beat) : (s.modBeat f).sec = s.sec := rfl
@[simp] theorem State.modBeat_pwr (f : Beat → Beat) : (s.modBeat f).pwr = s.pwr := rfl
@[simp] theorem State.modBeat_mgt (f : Beat → Beat) : (s.modBeat f).mgt = s.mgt := rfl
@[simp] theorem State.modBeat_present (f : Beat → Beat) : (s.modBeat f).present = s.present := rfl
@[simp] theorem State.modBeat_fit (f : Beat → Beat) : (s.modBeat f).fit = s.fit := rfl
@[simp] theorem State.modBeat_capture (f : Beat → Beat) : (s.modBeat f).capture = s.capture := rfl
@[simp] theorem State.modBeat_out (f : Beat → Beat) : (s.modBeat f).out = s.out := rfl
@[simp] theorem State.modBeat_pending (f : Beat → Beat) : (s.modBeat f).pending = s.pending := rfl

@[simp] theorem State.modJrn_now (f : Journal → Journal) : (s.modJrn f).now = s.now := rfl
@[simp] theorem State.modJrn_free (f : Journal → Journal) : (s.modJrn f).free = s.free := rfl
@[simp] theorem State.modJrn_glb (f : Journal → Journal) : (s.modJrn f).glb = s.glb := rfl
@[simp] theorem State.modJrn_beat (f : Journal → Journal) : (s.modJrn f).beat = s.beat := rfl
@[simp] theorem State.modJrn_qps (f : Journal → Journal) : (s.modJrn f).qps = s.qps := rfl
@[simp] theorem State.modJrn_groups (f : Journal → Journal) : (s.modJrn f).groups = s.groups := rfl
@[simp] theorem State.modJrn_jrn (f : Journal → Journal) : (s.modJrn f).jrn = f s.jrn := rfl
@[simp] theorem State.modJrn_cmds (f : Journal → Journal) : (s.modJrn f).cmds = s.cmds := rfl
@[simp] theorem State.modJrn_work (f : Journal → Journal) : (s.modJrn f).work = s.work := rfl
@[simp] theorem State.modJrn_mem (f : Journal → Journal) : (s.modJrn f).mem = s.mem := rfl
@[simp] theorem State.modJrn_evc (f : Journal → Journal) : (s.modJrn f).evc = s.evc := rfl
@[simp] theorem State.modJrn_err (f : Journal → Journal) : (s.modJrn f).err = s.err := rfl
@[simp] theorem State.modJrn_pci (f : Journal → Journal) : (s.modJrn f).pci = s.pci := rfl
@[simp] theorem State.modJrn_chain (f : Journal → Journal) : (s.modJrn f).chain = s.chain := rfl
@[simp] theorem State.modJrn_pair (f : Journal → Journal) : (s.modJrn f).pair = s.pair := rfl
@[simp] theorem State.modJrn_sec (f : Journal → Journal) : (s.modJrn f).sec = s.sec := rfl
@[simp] theorem State.modJrn_pwr (f : Journal → Journal) : (s.modJrn f).pwr = s.pwr := rfl
@[simp] theorem State.modJrn_mgt (f : Journal → Journal) : (s.modJrn f).mgt = s.mgt := rfl
@[simp] theorem State.modJrn_present (f : Journal → Journal) : (s.modJrn f).present = s.present := rfl
@[simp] theorem State.modJrn_fit (f : Journal → Journal) : (s.modJrn f).fit = s.fit := rfl
@[simp] theorem State.modJrn_capture (f : Journal → Journal) : (s.modJrn f).capture = s.capture := rfl
@[simp] theorem State.modJrn_out (f : Journal → Journal) : (s.modJrn f).out = s.out := rfl
@[simp] theorem State.modJrn_pending (f : Journal → Journal) : (s.modJrn f).pending = s.pending := rfl

@[simp] theorem State.modErr_now (f : Err → Err) : (s.modErr f).now = s.now := rfl
@[simp] theorem State.modErr_free (f : Err → Err) : (s.modErr f).free = s.free := rfl
@[simp] theorem State.modErr_glb (f : Err → Err) : (s.modErr f).glb = s.glb := rfl
@[simp] theorem State.modErr_beat (f : Err → Err) : (s.modErr f).beat = s.beat := rfl
@[simp] theorem State.modErr_qps (f : Err → Err) : (s.modErr f).qps = s.qps := rfl
@[simp] theorem State.modErr_groups (f : Err → Err) : (s.modErr f).groups = s.groups := rfl
@[simp] theorem State.modErr_jrn (f : Err → Err) : (s.modErr f).jrn = s.jrn := rfl
@[simp] theorem State.modErr_cmds (f : Err → Err) : (s.modErr f).cmds = s.cmds := rfl
@[simp] theorem State.modErr_work (f : Err → Err) : (s.modErr f).work = s.work := rfl
@[simp] theorem State.modErr_mem (f : Err → Err) : (s.modErr f).mem = s.mem := rfl
@[simp] theorem State.modErr_evc (f : Err → Err) : (s.modErr f).evc = s.evc := rfl
@[simp] theorem State.modErr_err (f : Err → Err) : (s.modErr f).err = f s.err := rfl
@[simp] theorem State.modErr_pci (f : Err → Err) : (s.modErr f).pci = s.pci := rfl
@[simp] theorem State.modErr_chain (f : Err → Err) : (s.modErr f).chain = s.chain := rfl
@[simp] theorem State.modErr_pair (f : Err → Err) : (s.modErr f).pair = s.pair := rfl
@[simp] theorem State.modErr_sec (f : Err → Err) : (s.modErr f).sec = s.sec := rfl
@[simp] theorem State.modErr_pwr (f : Err → Err) : (s.modErr f).pwr = s.pwr := rfl
@[simp] theorem State.modErr_mgt (f : Err → Err) : (s.modErr f).mgt = s.mgt := rfl
@[simp] theorem State.modErr_present (f : Err → Err) : (s.modErr f).present = s.present := rfl
@[simp] theorem State.modErr_fit (f : Err → Err) : (s.modErr f).fit = s.fit := rfl
@[simp] theorem State.modErr_capture (f : Err → Err) : (s.modErr f).capture = s.capture := rfl
@[simp] theorem State.modErr_out (f : Err → Err) : (s.modErr f).out = s.out := rfl
@[simp] theorem State.modErr_pending (f : Err → Err) : (s.modErr f).pending = s.pending := rfl

@[simp] theorem State.modPci_now (f : Pci → Pci) : (s.modPci f).now = s.now := rfl
@[simp] theorem State.modPci_free (f : Pci → Pci) : (s.modPci f).free = s.free := rfl
@[simp] theorem State.modPci_glb (f : Pci → Pci) : (s.modPci f).glb = s.glb := rfl
@[simp] theorem State.modPci_beat (f : Pci → Pci) : (s.modPci f).beat = s.beat := rfl
@[simp] theorem State.modPci_qps (f : Pci → Pci) : (s.modPci f).qps = s.qps := rfl
@[simp] theorem State.modPci_groups (f : Pci → Pci) : (s.modPci f).groups = s.groups := rfl
@[simp] theorem State.modPci_jrn (f : Pci → Pci) : (s.modPci f).jrn = s.jrn := rfl
@[simp] theorem State.modPci_cmds (f : Pci → Pci) : (s.modPci f).cmds = s.cmds := rfl
@[simp] theorem State.modPci_work (f : Pci → Pci) : (s.modPci f).work = s.work := rfl
@[simp] theorem State.modPci_mem (f : Pci → Pci) : (s.modPci f).mem = s.mem := rfl
@[simp] theorem State.modPci_evc (f : Pci → Pci) : (s.modPci f).evc = s.evc := rfl
@[simp] theorem State.modPci_err (f : Pci → Pci) : (s.modPci f).err = s.err := rfl
@[simp] theorem State.modPci_pci (f : Pci → Pci) : (s.modPci f).pci = f s.pci := rfl
@[simp] theorem State.modPci_chain (f : Pci → Pci) : (s.modPci f).chain = s.chain := rfl
@[simp] theorem State.modPci_pair (f : Pci → Pci) : (s.modPci f).pair = s.pair := rfl
@[simp] theorem State.modPci_sec (f : Pci → Pci) : (s.modPci f).sec = s.sec := rfl
@[simp] theorem State.modPci_pwr (f : Pci → Pci) : (s.modPci f).pwr = s.pwr := rfl
@[simp] theorem State.modPci_mgt (f : Pci → Pci) : (s.modPci f).mgt = s.mgt := rfl
@[simp] theorem State.modPci_present (f : Pci → Pci) : (s.modPci f).present = s.present := rfl
@[simp] theorem State.modPci_fit (f : Pci → Pci) : (s.modPci f).fit = s.fit := rfl
@[simp] theorem State.modPci_capture (f : Pci → Pci) : (s.modPci f).capture = s.capture := rfl
@[simp] theorem State.modPci_out (f : Pci → Pci) : (s.modPci f).out = s.out := rfl
@[simp] theorem State.modPci_pending (f : Pci → Pci) : (s.modPci f).pending = s.pending := rfl

@[simp] theorem State.modChain_now (f : Chain → Chain) : (s.modChain f).now = s.now := rfl
@[simp] theorem State.modChain_free (f : Chain → Chain) : (s.modChain f).free = s.free := rfl
@[simp] theorem State.modChain_glb (f : Chain → Chain) : (s.modChain f).glb = s.glb := rfl
@[simp] theorem State.modChain_beat (f : Chain → Chain) : (s.modChain f).beat = s.beat := rfl
@[simp] theorem State.modChain_qps (f : Chain → Chain) : (s.modChain f).qps = s.qps := rfl
@[simp] theorem State.modChain_groups (f : Chain → Chain) : (s.modChain f).groups = s.groups := rfl
@[simp] theorem State.modChain_jrn (f : Chain → Chain) : (s.modChain f).jrn = s.jrn := rfl
@[simp] theorem State.modChain_cmds (f : Chain → Chain) : (s.modChain f).cmds = s.cmds := rfl
@[simp] theorem State.modChain_work (f : Chain → Chain) : (s.modChain f).work = s.work := rfl
@[simp] theorem State.modChain_mem (f : Chain → Chain) : (s.modChain f).mem = s.mem := rfl
@[simp] theorem State.modChain_evc (f : Chain → Chain) : (s.modChain f).evc = s.evc := rfl
@[simp] theorem State.modChain_err (f : Chain → Chain) : (s.modChain f).err = s.err := rfl
@[simp] theorem State.modChain_pci (f : Chain → Chain) : (s.modChain f).pci = s.pci := rfl
@[simp] theorem State.modChain_chain (f : Chain → Chain) : (s.modChain f).chain = f s.chain := rfl
@[simp] theorem State.modChain_pair (f : Chain → Chain) : (s.modChain f).pair = s.pair := rfl
@[simp] theorem State.modChain_sec (f : Chain → Chain) : (s.modChain f).sec = s.sec := rfl
@[simp] theorem State.modChain_pwr (f : Chain → Chain) : (s.modChain f).pwr = s.pwr := rfl
@[simp] theorem State.modChain_mgt (f : Chain → Chain) : (s.modChain f).mgt = s.mgt := rfl
@[simp] theorem State.modChain_present (f : Chain → Chain) : (s.modChain f).present = s.present := rfl
@[simp] theorem State.modChain_fit (f : Chain → Chain) : (s.modChain f).fit = s.fit := rfl
@[simp] theorem State.modChain_capture (f : Chain → Chain) : (s.modChain f).capture = s.capture := rfl
@[simp] theorem State.modChain_out (f : Chain → Chain) : (s.modChain f).out = s.out := rfl
@[simp] theorem State.modChain_pending (f : Chain → Chain) : (s.modChain f).pending = s.pending := rfl

@[simp] theorem State.modPair_now (f : Pair2 → Pair2) : (s.modPair f).now = s.now := rfl
@[simp] theorem State.modPair_free (f : Pair2 → Pair2) : (s.modPair f).free = s.free := rfl
@[simp] theorem State.modPair_glb (f : Pair2 → Pair2) : (s.modPair f).glb = s.glb := rfl
@[simp] theorem State.modPair_beat (f : Pair2 → Pair2) : (s.modPair f).beat = s.beat := rfl
@[simp] theorem State.modPair_qps (f : Pair2 → Pair2) : (s.modPair f).qps = s.qps := rfl
@[simp] theorem State.modPair_groups (f : Pair2 → Pair2) : (s.modPair f).groups = s.groups := rfl
@[simp] theorem State.modPair_jrn (f : Pair2 → Pair2) : (s.modPair f).jrn = s.jrn := rfl
@[simp] theorem State.modPair_cmds (f : Pair2 → Pair2) : (s.modPair f).cmds = s.cmds := rfl
@[simp] theorem State.modPair_work (f : Pair2 → Pair2) : (s.modPair f).work = s.work := rfl
@[simp] theorem State.modPair_mem (f : Pair2 → Pair2) : (s.modPair f).mem = s.mem := rfl
@[simp] theorem State.modPair_evc (f : Pair2 → Pair2) : (s.modPair f).evc = s.evc := rfl
@[simp] theorem State.modPair_err (f : Pair2 → Pair2) : (s.modPair f).err = s.err := rfl
@[simp] theorem State.modPair_pci (f : Pair2 → Pair2) : (s.modPair f).pci = s.pci := rfl
@[simp] theorem State.modPair_chain (f : Pair2 → Pair2) : (s.modPair f).chain = s.chain := rfl
@[simp] theorem State.modPair_pair (f : Pair2 → Pair2) : (s.modPair f).pair = f s.pair := rfl
@[simp] theorem State.modPair_sec (f : Pair2 → Pair2) : (s.modPair f).sec = s.sec := rfl
@[simp] theorem State.modPair_pwr (f : Pair2 → Pair2) : (s.modPair f).pwr = s.pwr := rfl
@[simp] theorem State.modPair_mgt (f : Pair2 → Pair2) : (s.modPair f).mgt = s.mgt := rfl
@[simp] theorem State.modPair_present (f : Pair2 → Pair2) : (s.modPair f).present = s.present := rfl
@[simp] theorem State.modPair_fit (f : Pair2 → Pair2) : (s.modPair f).fit = s.fit := rfl
@[simp] theorem State.modPair_capture (f : Pair2 → Pair2) : (s.modPair f).capture = s.capture := rfl
@[simp] theorem State.modPair_out (f : Pair2 → Pair2) : (s.modPair f).out = s.out := rfl
@[simp] theorem State.modPair_pending (f : Pair2 → Pair2) : (s.modPair f).pending = s.pending := rfl

@[simp] theorem State.modSec_now (f : Sec → Sec) : (s.modSec f).now = s.now := rfl
@[simp] theorem State.modSec_free (f : Sec → Sec) : (s.modSec f).free = s.free := rfl
@[simp] theorem State.modSec_glb (f : Sec → Sec) : (s.modSec f).glb = s.glb := rfl
@[simp] theorem State.modSec_beat (f : Sec → Sec) : (s.modSec f).beat = s.beat := rfl
@[simp] theorem State.modSec_qps (f : Sec → Sec) : (s.modSec f).qps = s.qps := rfl
@[simp] theorem State.modSec_groups (f : Sec → Sec) : (s.modSec f).groups = s.groups := rfl
@[simp] theorem State.modSec_jrn (f : Sec → Sec) : (s.modSec f).jrn = s.jrn := rfl
@[simp] theorem State.modSec_cmds (f : Sec → Sec) : (s.modSec f).cmds = s.cmds := rfl
@[simp] theorem State.modSec_work (f : Sec → Sec) : (s.modSec f).work = s.work := rfl
@[simp] theorem State.modSec_mem (f : Sec → Sec) : (s.modSec f).mem = s.mem := rfl
@[simp] theorem State.modSec_evc (f : Sec → Sec) : (s.modSec f).evc = s.evc := rfl
@[simp] theorem State.modSec_err (f : Sec → Sec) : (s.modSec f).err = s.err := rfl
@[simp] theorem State.modSec_pci (f : Sec → Sec) : (s.modSec f).pci = s.pci := rfl
@[simp] theorem State.modSec_chain (f : Sec → Sec) : (s.modSec f).chain = s.chain := rfl
@[simp] theorem State.modSec_pair (f : Sec → Sec) : (s.modSec f).pair = s.pair := rfl
@[simp] theorem State.modSec_sec (f : Sec → Sec) : (s.modSec f).sec = f s.sec := rfl
@[simp] theorem State.modSec_pwr (f : Sec → Sec) : (s.modSec f).pwr = s.pwr := rfl
@[simp] theorem State.modSec_mgt (f : Sec → Sec) : (s.modSec f).mgt = s.mgt := rfl
@[simp] theorem State.modSec_present (f : Sec → Sec) : (s.modSec f).present = s.present := rfl
@[simp] theorem State.modSec_fit (f : Sec → Sec) : (s.modSec f).fit = s.fit := rfl
@[simp] theorem State.modSec_capture (f : Sec → Sec) : (s.modSec f).capture = s.capture := rfl
@[simp] theorem State.modSec_out (f : Sec → Sec) : (s.modSec f).out = s.out := rfl
@[simp] theorem State.modSec_pending (f : Sec → Sec) : (s.modSec f).pending = s.pending := rfl

@[simp] theorem State.modPwr_now (f : Pwr → Pwr) : (s.modPwr f).now = s.now := rfl
@[simp] theorem State.modPwr_free (f : Pwr → Pwr) : (s.modPwr f).free = s.free := rfl
@[simp] theorem State.modPwr_glb (f : Pwr → Pwr) : (s.modPwr f).glb = s.glb := rfl
@[simp] theorem State.modPwr_beat (f : Pwr → Pwr) : (s.modPwr f).beat = s.beat := rfl
@[simp] theorem State.modPwr_qps (f : Pwr → Pwr) : (s.modPwr f).qps = s.qps := rfl
@[simp] theorem State.modPwr_groups (f : Pwr → Pwr) : (s.modPwr f).groups = s.groups := rfl
@[simp] theorem State.modPwr_jrn (f : Pwr → Pwr) : (s.modPwr f).jrn = s.jrn := rfl
@[simp] theorem State.modPwr_cmds (f : Pwr → Pwr) : (s.modPwr f).cmds = s.cmds := rfl
@[simp] theorem State.modPwr_work (f : Pwr → Pwr) : (s.modPwr f).work = s.work := rfl
@[simp] theorem State.modPwr_mem (f : Pwr → Pwr) : (s.modPwr f).mem = s.mem := rfl
@[simp] theorem State.modPwr_evc (f : Pwr → Pwr) : (s.modPwr f).evc = s.evc := rfl
@[simp] theorem State.modPwr_err (f : Pwr → Pwr) : (s.modPwr f).err = s.err := rfl
@[simp] theorem State.modPwr_pci (f : Pwr → Pwr) : (s.modPwr f).pci = s.pci := rfl
@[simp] theorem State.modPwr_chain (f : Pwr → Pwr) : (s.modPwr f).chain = s.chain := rfl
@[simp] theorem State.modPwr_pair (f : Pwr → Pwr) : (s.modPwr f).pair = s.pair := rfl
@[simp] theorem State.modPwr_sec (f : Pwr → Pwr) : (s.modPwr f).sec = s.sec := rfl
@[simp] theorem State.modPwr_pwr (f : Pwr → Pwr) : (s.modPwr f).pwr = f s.pwr := rfl
@[simp] theorem State.modPwr_mgt (f : Pwr → Pwr) : (s.modPwr f).mgt = s.mgt := rfl
@[simp] theorem State.modPwr_present (f : Pwr → Pwr) : (s.modPwr f).present = s.present := rfl
@[simp] theorem State.modPwr_fit (f : Pwr → Pwr) : (s.modPwr f).fit = s.fit := rfl
@[simp] theorem State.modPwr_capture (f : Pwr → Pwr) : (s.modPwr f).capture = s.capture := rfl
@[simp] theorem State.modPwr_out (f : Pwr → Pwr) : (s.modPwr f).out = s.out := rfl
@[simp] theorem State.modPwr_pending (f : Pwr → Pwr) : (s.modPwr f).pending = s.pending := rfl

@[simp] theorem State.modMgt_now (f : Mgt → Mgt) : (s.modMgt f).now = s.now := rfl
@[simp] theorem State.modMgt_free (f : Mgt → Mgt) : (s.modMgt f).free = s.free := rfl
@[simp] theorem State.modMgt_glb (f : Mgt → Mgt) : (s.modMgt f).glb = s.glb := rfl
@[simp] theorem State.modMgt_beat (f : Mgt → Mgt) : (s.modMgt f).beat = s.beat := rfl
@[simp] theorem State.modMgt_qps (f : Mgt → Mgt) : (s.modMgt f).qps = s.qps := rfl
@[simp] theorem State.modMgt_groups (f : Mgt → Mgt) : (s.modMgt f).groups = s.groups := rfl
@[simp] theorem State.modMgt_jrn (f : Mgt → Mgt) : (s.modMgt f).jrn = s.jrn := rfl
@[simp] theorem State.modMgt_cmds (f : Mgt → Mgt) : (s.modMgt f).cmds = s.cmds := rfl
@[simp] theorem State.modMgt_work (f : Mgt → Mgt) : (s.modMgt f).work = s.work := rfl
@[simp] theorem State.modMgt_mem (f : Mgt → Mgt) : (s.modMgt f).mem = s.mem := rfl
@[simp] theorem State.modMgt_evc (f : Mgt → Mgt) : (s.modMgt f).evc = s.evc := rfl
@[simp] theorem State.modMgt_err (f : Mgt → Mgt) : (s.modMgt f).err = s.err := rfl
@[simp] theorem State.modMgt_pci (f : Mgt → Mgt) : (s.modMgt f).pci = s.pci := rfl
@[simp] theorem State.modMgt_chain (f : Mgt → Mgt) : (s.modMgt f).chain = s.chain := rfl
@[simp] theorem State.modMgt_pair (f : Mgt → Mgt) : (s.modMgt f).pair = s.pair := rfl
@[simp] theorem State.modMgt_sec (f : Mgt → Mgt) : (s.modMgt f).sec = s.sec := rfl
@[simp] theorem State.modMgt_pwr (f : Mgt → Mgt) : (s.modMgt f).pwr = s.pwr := rfl
@[simp] theorem State.modMgt_mgt (f : Mgt → Mgt) : (s.modMgt f).mgt = f s.mgt := rfl
@[simp] theorem State.modMgt_present (f : Mgt → Mgt) : (s.modMgt f).present = s.present := rfl
@[simp] theorem State.modMgt_fit (f : Mgt → Mgt) : (s.modMgt f).fit = s.fit := rfl
@[simp] theorem State.modMgt_capture (f : Mgt → Mgt) : (s.modMgt f).capture = s.capture := rfl
@[simp] theorem State.modMgt_out (f : Mgt → Mgt) : (s.modMgt f).out = s.out := rfl
@[simp] theorem State.modMgt_pending (f : Mgt → Mgt) : (s.modMgt f).pending = s.pending := rfl

@[simp] theorem State.modStream_now (n : Nat) (f : Stream → Stream) : (s.modStream n f).now = s.now := rfl
@[simp] theorem State.modStream_free (n : Nat) (f : Stream → Stream) : (s.modStream n f).free = s.free := rfl
@[simp] theorem State.modStream_glb (n : Nat) (f : Stream → Stream) : (s.modStream n f).glb = s.glb := rfl
@[simp] theorem State.modStream_beat (n : Nat) (f : Stream → Stream) : (s.modStream n f).beat = s.beat := rfl
@[simp] theorem State.modStream_qps (n : Nat) (f : Stream → Stream) : (s.modStream n f).qps = s.qps := rfl
@[simp] theorem State.modStream_groups (n : Nat) (f : Stream → Stream) : (s.modStream n f).groups = s.groups := rfl
@[simp] theorem State.modStream_jrn (n : Nat) (f : Stream → Stream) : (s.modStream n f).jrn = s.jrn := rfl
@[simp] theorem State.modStream_cmds (n : Nat) (f : Stream → Stream) : (s.modStream n f).cmds = s.cmds := rfl
@[simp] theorem State.modStream_work (n : Nat) (f : Stream → Stream) : (s.modStream n f).work = { s.work with streams := tmod {} n f s.work.streams } := rfl
@[simp] theorem State.modStream_mem (n : Nat) (f : Stream → Stream) : (s.modStream n f).mem = s.mem := rfl
@[simp] theorem State.modStream_evc (n : Nat) (f : Stream → Stream) : (s.modStream n f).evc = s.evc := rfl
@[simp] theorem State.modStream_err (n : Nat) (f : Stream → Stream) : (s.modStream n f).err = s.err := rfl
@[simp] theorem State.modStream_pci (n : Nat) (f : Stream → Stream) : (s.modStream n f).pci = s.pci := rfl
@[simp] theorem State.modStream_chain (n : Nat) (f : Stream → Stream) : (s.modStream n f).chain = s.chain := rfl
@[simp] theorem State.modStream_pair (n : Nat) (f : Stream → Stream) : (s.modStream n f).pair = s.pair := rfl
@[simp] theorem State.modStream_sec (n : Nat) (f : Stream → Stream) : (s.modStream n f).sec = s.sec := rfl
@[simp] theorem State.modStream_pwr (n : Nat) (f : Stream → Stream) : (s.modStream n f).pwr = s.pwr := rfl
@[simp] theorem State.modStream_mgt (n : Nat) (f : Stream → Stream) : (s.modStream n f).mgt = s.mgt := rfl
@[simp] theorem State.modStream_present (n : Nat) (f : Stream → Stream) : (s.modStream n f).present = s.present := rfl
@[simp] theorem State.modStream_fit (n : Nat) (f : Stream → Stream) : (s.modStream n f).fit = s.fit := rfl
@[simp] theorem State.modStream_capture (n : Nat) (f : Stream → Stream) : (s.modStream n f).capture = s.capture := rfl
@[simp] theorem State.modStream_out (n : Nat) (f : Stream → Stream) : (s.modStream n f).out = s.out := rfl
@[simp] theorem State.modStream_pending (n : Nat) (f : Stream → Stream) : (s.modStream n f).pending = s.pending := rfl

@[simp] theorem State.modDisp_now (n : Nat) (f : Disp → Disp) : (s.modDisp n f).now = s.now := rfl
@[simp] theorem State.modDisp_free (n : Nat) (f : Disp → Disp) : (s.modDisp n f).free = s.free := rfl
@[simp] theorem State.modDisp_glb (n : Nat) (f : Disp → Disp) : (s.modDisp n f).glb = s.glb := rfl
@[simp] theorem State.modDisp_beat (n : Nat) (f : Disp → Disp) : (s.modDisp n f).beat = s.beat := rfl
@[simp] theorem State.modDisp_qps (n : Nat) (f : Disp → Disp) : (s.modDisp n f).qps = s.qps := rfl
@[simp] theorem State.modDisp_groups (n : Nat) (f : Disp → Disp) : (s.modDisp n f).groups = s.groups := rfl
@[simp] theorem State.modDisp_jrn (n : Nat) (f : Disp → Disp) : (s.modDisp n f).jrn = s.jrn := rfl
@[simp] theorem State.modDisp_cmds (n : Nat) (f : Disp → Disp) : (s.modDisp n f).cmds = s.cmds := rfl
@[simp] theorem State.modDisp_work (n : Nat) (f : Disp → Disp) : (s.modDisp n f).work = { s.work with disps := tmod {} n f s.work.disps } := rfl
@[simp] theorem State.modDisp_mem (n : Nat) (f : Disp → Disp) : (s.modDisp n f).mem = s.mem := rfl
@[simp] theorem State.modDisp_evc (n : Nat) (f : Disp → Disp) : (s.modDisp n f).evc = s.evc := rfl
@[simp] theorem State.modDisp_err (n : Nat) (f : Disp → Disp) : (s.modDisp n f).err = s.err := rfl
@[simp] theorem State.modDisp_pci (n : Nat) (f : Disp → Disp) : (s.modDisp n f).pci = s.pci := rfl
@[simp] theorem State.modDisp_chain (n : Nat) (f : Disp → Disp) : (s.modDisp n f).chain = s.chain := rfl
@[simp] theorem State.modDisp_pair (n : Nat) (f : Disp → Disp) : (s.modDisp n f).pair = s.pair := rfl
@[simp] theorem State.modDisp_sec (n : Nat) (f : Disp → Disp) : (s.modDisp n f).sec = s.sec := rfl
@[simp] theorem State.modDisp_pwr (n : Nat) (f : Disp → Disp) : (s.modDisp n f).pwr = s.pwr := rfl
@[simp] theorem State.modDisp_mgt (n : Nat) (f : Disp → Disp) : (s.modDisp n f).mgt = s.mgt := rfl
@[simp] theorem State.modDisp_present (n : Nat) (f : Disp → Disp) : (s.modDisp n f).present = s.present := rfl
@[simp] theorem State.modDisp_fit (n : Nat) (f : Disp → Disp) : (s.modDisp n f).fit = s.fit := rfl
@[simp] theorem State.modDisp_capture (n : Nat) (f : Disp → Disp) : (s.modDisp n f).capture = s.capture := rfl
@[simp] theorem State.modDisp_out (n : Nat) (f : Disp → Disp) : (s.modDisp n f).out = s.out := rfl
@[simp] theorem State.modDisp_pending (n : Nat) (f : Disp → Disp) : (s.modDisp n f).pending = s.pending := rfl

@[simp] theorem State.modCore_now (n : Nat) (f : Core → Core) : (s.modCore n f).now = s.now := rfl
@[simp] theorem State.modCore_free (n : Nat) (f : Core → Core) : (s.modCore n f).free = s.free := rfl
@[simp] theorem State.modCore_glb (n : Nat) (f : Core → Core) : (s.modCore n f).glb = s.glb := rfl
@[simp] theorem State.modCore_beat (n : Nat) (f : Core → Core) : (s.modCore n f).beat = s.beat := rfl
@[simp] theorem State.modCore_qps (n : Nat) (f : Core → Core) : (s.modCore n f).qps = s.qps := rfl
@[simp] theorem State.modCore_groups (n : Nat) (f : Core → Core) : (s.modCore n f).groups = s.groups := rfl
@[simp] theorem State.modCore_jrn (n : Nat) (f : Core → Core) : (s.modCore n f).jrn = s.jrn := rfl
@[simp] theorem State.modCore_cmds (n : Nat) (f : Core → Core) : (s.modCore n f).cmds = s.cmds := rfl
@[simp] theorem State.modCore_work (n : Nat) (f : Core → Core) : (s.modCore n f).work = { s.work with cores := tmod {} n f s.work.cores } := rfl
@[simp] theorem State.modCore_mem (n : Nat) (f : Core → Core) : (s.modCore n f).mem = s.mem := rfl
@[simp] theorem State.modCore_evc (n : Nat) (f : Core → Core) : (s.modCore n f).evc = s.evc := rfl
@[simp] theorem State.modCore_err (n : Nat) (f : Core → Core) : (s.modCore n f).err = s.err := rfl
@[simp] theorem State.modCore_pci (n : Nat) (f : Core → Core) : (s.modCore n f).pci = s.pci := rfl
@[simp] theorem State.modCore_chain (n : Nat) (f : Core → Core) : (s.modCore n f).chain = s.chain := rfl
@[simp] theorem State.modCore_pair (n : Nat) (f : Core → Core) : (s.modCore n f).pair = s.pair := rfl
@[simp] theorem State.modCore_sec (n : Nat) (f : Core → Core) : (s.modCore n f).sec = s.sec := rfl
@[simp] theorem State.modCore_pwr (n : Nat) (f : Core → Core) : (s.modCore n f).pwr = s.pwr := rfl
@[simp] theorem State.modCore_mgt (n : Nat) (f : Core → Core) : (s.modCore n f).mgt = s.mgt := rfl
@[simp] theorem State.modCore_present (n : Nat) (f : Core → Core) : (s.modCore n f).present = s.present := rfl
@[simp] theorem State.modCore_fit (n : Nat) (f : Core → Core) : (s.modCore n f).fit = s.fit := rfl
@[simp] theorem State.modCore_capture (n : Nat) (f : Core → Core) : (s.modCore n f).capture = s.capture := rfl
@[simp] theorem State.modCore_out (n : Nat) (f : Core → Core) : (s.modCore n f).out = s.out := rfl
@[simp] theorem State.modCore_pending (n : Nat) (f : Core → Core) : (s.modCore n f).pending = s.pending := rfl

@[simp] theorem State.modEngine_now (n : Nat) (f : Engine → Engine) : (s.modEngine n f).now = s.now := rfl
@[simp] theorem State.modEngine_free (n : Nat) (f : Engine → Engine) : (s.modEngine n f).free = s.free := rfl
@[simp] theorem State.modEngine_glb (n : Nat) (f : Engine → Engine) : (s.modEngine n f).glb = s.glb := rfl
@[simp] theorem State.modEngine_beat (n : Nat) (f : Engine → Engine) : (s.modEngine n f).beat = s.beat := rfl
@[simp] theorem State.modEngine_qps (n : Nat) (f : Engine → Engine) : (s.modEngine n f).qps = s.qps := rfl
@[simp] theorem State.modEngine_groups (n : Nat) (f : Engine → Engine) : (s.modEngine n f).groups = s.groups := rfl
@[simp] theorem State.modEngine_jrn (n : Nat) (f : Engine → Engine) : (s.modEngine n f).jrn = s.jrn := rfl
@[simp] theorem State.modEngine_cmds (n : Nat) (f : Engine → Engine) : (s.modEngine n f).cmds = s.cmds := rfl
@[simp] theorem State.modEngine_work (n : Nat) (f : Engine → Engine) : (s.modEngine n f).work = { s.work with engines := tmod {} n f s.work.engines } := rfl
@[simp] theorem State.modEngine_mem (n : Nat) (f : Engine → Engine) : (s.modEngine n f).mem = s.mem := rfl
@[simp] theorem State.modEngine_evc (n : Nat) (f : Engine → Engine) : (s.modEngine n f).evc = s.evc := rfl
@[simp] theorem State.modEngine_err (n : Nat) (f : Engine → Engine) : (s.modEngine n f).err = s.err := rfl
@[simp] theorem State.modEngine_pci (n : Nat) (f : Engine → Engine) : (s.modEngine n f).pci = s.pci := rfl
@[simp] theorem State.modEngine_chain (n : Nat) (f : Engine → Engine) : (s.modEngine n f).chain = s.chain := rfl
@[simp] theorem State.modEngine_pair (n : Nat) (f : Engine → Engine) : (s.modEngine n f).pair = s.pair := rfl
@[simp] theorem State.modEngine_sec (n : Nat) (f : Engine → Engine) : (s.modEngine n f).sec = s.sec := rfl
@[simp] theorem State.modEngine_pwr (n : Nat) (f : Engine → Engine) : (s.modEngine n f).pwr = s.pwr := rfl
@[simp] theorem State.modEngine_mgt (n : Nat) (f : Engine → Engine) : (s.modEngine n f).mgt = s.mgt := rfl
@[simp] theorem State.modEngine_present (n : Nat) (f : Engine → Engine) : (s.modEngine n f).present = s.present := rfl
@[simp] theorem State.modEngine_fit (n : Nat) (f : Engine → Engine) : (s.modEngine n f).fit = s.fit := rfl
@[simp] theorem State.modEngine_capture (n : Nat) (f : Engine → Engine) : (s.modEngine n f).capture = s.capture := rfl
@[simp] theorem State.modEngine_out (n : Nat) (f : Engine → Engine) : (s.modEngine n f).out = s.out := rfl
@[simp] theorem State.modEngine_pending (n : Nat) (f : Engine → Engine) : (s.modEngine n f).pending = s.pending := rfl

@[simp] theorem State.modChan_now (n : Nat) (f : Chan → Chan) : (s.modChan n f).now = s.now := rfl
@[simp] theorem State.modChan_free (n : Nat) (f : Chan → Chan) : (s.modChan n f).free = s.free := rfl
@[simp] theorem State.modChan_glb (n : Nat) (f : Chan → Chan) : (s.modChan n f).glb = s.glb := rfl
@[simp] theorem State.modChan_beat (n : Nat) (f : Chan → Chan) : (s.modChan n f).beat = s.beat := rfl
@[simp] theorem State.modChan_qps (n : Nat) (f : Chan → Chan) : (s.modChan n f).qps = s.qps := rfl
@[simp] theorem State.modChan_groups (n : Nat) (f : Chan → Chan) : (s.modChan n f).groups = s.groups := rfl
@[simp] theorem State.modChan_jrn (n : Nat) (f : Chan → Chan) : (s.modChan n f).jrn = s.jrn := rfl
@[simp] theorem State.modChan_cmds (n : Nat) (f : Chan → Chan) : (s.modChan n f).cmds = s.cmds := rfl
@[simp] theorem State.modChan_work (n : Nat) (f : Chan → Chan) : (s.modChan n f).work = s.work := rfl
@[simp] theorem State.modChan_mem (n : Nat) (f : Chan → Chan) : (s.modChan n f).mem = { s.mem with chans := tmod {} n f s.mem.chans } := rfl
@[simp] theorem State.modChan_evc (n : Nat) (f : Chan → Chan) : (s.modChan n f).evc = s.evc := rfl
@[simp] theorem State.modChan_err (n : Nat) (f : Chan → Chan) : (s.modChan n f).err = s.err := rfl
@[simp] theorem State.modChan_pci (n : Nat) (f : Chan → Chan) : (s.modChan n f).pci = s.pci := rfl
@[simp] theorem State.modChan_chain (n : Nat) (f : Chan → Chan) : (s.modChan n f).chain = s.chain := rfl
@[simp] theorem State.modChan_pair (n : Nat) (f : Chan → Chan) : (s.modChan n f).pair = s.pair := rfl
@[simp] theorem State.modChan_sec (n : Nat) (f : Chan → Chan) : (s.modChan n f).sec = s.sec := rfl
@[simp] theorem State.modChan_pwr (n : Nat) (f : Chan → Chan) : (s.modChan n f).pwr = s.pwr := rfl
@[simp] theorem State.modChan_mgt (n : Nat) (f : Chan → Chan) : (s.modChan n f).mgt = s.mgt := rfl
@[simp] theorem State.modChan_present (n : Nat) (f : Chan → Chan) : (s.modChan n f).present = s.present := rfl
@[simp] theorem State.modChan_fit (n : Nat) (f : Chan → Chan) : (s.modChan n f).fit = s.fit := rfl
@[simp] theorem State.modChan_capture (n : Nat) (f : Chan → Chan) : (s.modChan n f).capture = s.capture := rfl
@[simp] theorem State.modChan_out (n : Nat) (f : Chan → Chan) : (s.modChan n f).out = s.out := rfl
@[simp] theorem State.modChan_pending (n : Nat) (f : Chan → Chan) : (s.modChan n f).pending = s.pending := rfl

@[simp] theorem State.modHbmCtl_now (n : Nat) (f : HbmCtl → HbmCtl) : (s.modHbmCtl n f).now = s.now := rfl
@[simp] theorem State.modHbmCtl_free (n : Nat) (f : HbmCtl → HbmCtl) : (s.modHbmCtl n f).free = s.free := rfl
@[simp] theorem State.modHbmCtl_glb (n : Nat) (f : HbmCtl → HbmCtl) : (s.modHbmCtl n f).glb = s.glb := rfl
@[simp] theorem State.modHbmCtl_beat (n : Nat) (f : HbmCtl → HbmCtl) : (s.modHbmCtl n f).beat = s.beat := rfl
@[simp] theorem State.modHbmCtl_qps (n : Nat) (f : HbmCtl → HbmCtl) : (s.modHbmCtl n f).qps = s.qps := rfl
@[simp] theorem State.modHbmCtl_groups (n : Nat) (f : HbmCtl → HbmCtl) : (s.modHbmCtl n f).groups = s.groups := rfl
@[simp] theorem State.modHbmCtl_jrn (n : Nat) (f : HbmCtl → HbmCtl) : (s.modHbmCtl n f).jrn = s.jrn := rfl
@[simp] theorem State.modHbmCtl_cmds (n : Nat) (f : HbmCtl → HbmCtl) : (s.modHbmCtl n f).cmds = s.cmds := rfl
@[simp] theorem State.modHbmCtl_work (n : Nat) (f : HbmCtl → HbmCtl) : (s.modHbmCtl n f).work = s.work := rfl
@[simp] theorem State.modHbmCtl_mem (n : Nat) (f : HbmCtl → HbmCtl) : (s.modHbmCtl n f).mem = { s.mem with hbmc := tmod {} n f s.mem.hbmc } := rfl
@[simp] theorem State.modHbmCtl_evc (n : Nat) (f : HbmCtl → HbmCtl) : (s.modHbmCtl n f).evc = s.evc := rfl
@[simp] theorem State.modHbmCtl_err (n : Nat) (f : HbmCtl → HbmCtl) : (s.modHbmCtl n f).err = s.err := rfl
@[simp] theorem State.modHbmCtl_pci (n : Nat) (f : HbmCtl → HbmCtl) : (s.modHbmCtl n f).pci = s.pci := rfl
@[simp] theorem State.modHbmCtl_chain (n : Nat) (f : HbmCtl → HbmCtl) : (s.modHbmCtl n f).chain = s.chain := rfl
@[simp] theorem State.modHbmCtl_pair (n : Nat) (f : HbmCtl → HbmCtl) : (s.modHbmCtl n f).pair = s.pair := rfl
@[simp] theorem State.modHbmCtl_sec (n : Nat) (f : HbmCtl → HbmCtl) : (s.modHbmCtl n f).sec = s.sec := rfl
@[simp] theorem State.modHbmCtl_pwr (n : Nat) (f : HbmCtl → HbmCtl) : (s.modHbmCtl n f).pwr = s.pwr := rfl
@[simp] theorem State.modHbmCtl_mgt (n : Nat) (f : HbmCtl → HbmCtl) : (s.modHbmCtl n f).mgt = s.mgt := rfl
@[simp] theorem State.modHbmCtl_present (n : Nat) (f : HbmCtl → HbmCtl) : (s.modHbmCtl n f).present = s.present := rfl
@[simp] theorem State.modHbmCtl_fit (n : Nat) (f : HbmCtl → HbmCtl) : (s.modHbmCtl n f).fit = s.fit := rfl
@[simp] theorem State.modHbmCtl_capture (n : Nat) (f : HbmCtl → HbmCtl) : (s.modHbmCtl n f).capture = s.capture := rfl
@[simp] theorem State.modHbmCtl_out (n : Nat) (f : HbmCtl → HbmCtl) : (s.modHbmCtl n f).out = s.out := rfl
@[simp] theorem State.modHbmCtl_pending (n : Nat) (f : HbmCtl → HbmCtl) : (s.modHbmCtl n f).pending = s.pending := rfl

@[simp] theorem State.modRouter_now (n : Nat) (f : Router → Router) : (s.modRouter n f).now = s.now := rfl
@[simp] theorem State.modRouter_free (n : Nat) (f : Router → Router) : (s.modRouter n f).free = s.free := rfl
@[simp] theorem State.modRouter_glb (n : Nat) (f : Router → Router) : (s.modRouter n f).glb = s.glb := rfl
@[simp] theorem State.modRouter_beat (n : Nat) (f : Router → Router) : (s.modRouter n f).beat = s.beat := rfl
@[simp] theorem State.modRouter_qps (n : Nat) (f : Router → Router) : (s.modRouter n f).qps = s.qps := rfl
@[simp] theorem State.modRouter_groups (n : Nat) (f : Router → Router) : (s.modRouter n f).groups = s.groups := rfl
@[simp] theorem State.modRouter_jrn (n : Nat) (f : Router → Router) : (s.modRouter n f).jrn = s.jrn := rfl
@[simp] theorem State.modRouter_cmds (n : Nat) (f : Router → Router) : (s.modRouter n f).cmds = s.cmds := rfl
@[simp] theorem State.modRouter_work (n : Nat) (f : Router → Router) : (s.modRouter n f).work = s.work := rfl
@[simp] theorem State.modRouter_mem (n : Nat) (f : Router → Router) : (s.modRouter n f).mem = { s.mem with routers := tmod {} n f s.mem.routers } := rfl
@[simp] theorem State.modRouter_evc (n : Nat) (f : Router → Router) : (s.modRouter n f).evc = s.evc := rfl
@[simp] theorem State.modRouter_err (n : Nat) (f : Router → Router) : (s.modRouter n f).err = s.err := rfl
@[simp] theorem State.modRouter_pci (n : Nat) (f : Router → Router) : (s.modRouter n f).pci = s.pci := rfl
@[simp] theorem State.modRouter_chain (n : Nat) (f : Router → Router) : (s.modRouter n f).chain = s.chain := rfl
@[simp] theorem State.modRouter_pair (n : Nat) (f : Router → Router) : (s.modRouter n f).pair = s.pair := rfl
@[simp] theorem State.modRouter_sec (n : Nat) (f : Router → Router) : (s.modRouter n f).sec = s.sec := rfl
@[simp] theorem State.modRouter_pwr (n : Nat) (f : Router → Router) : (s.modRouter n f).pwr = s.pwr := rfl
@[simp] theorem State.modRouter_mgt (n : Nat) (f : Router → Router) : (s.modRouter n f).mgt = s.mgt := rfl
@[simp] theorem State.modRouter_present (n : Nat) (f : Router → Router) : (s.modRouter n f).present = s.present := rfl
@[simp] theorem State.modRouter_fit (n : Nat) (f : Router → Router) : (s.modRouter n f).fit = s.fit := rfl
@[simp] theorem State.modRouter_capture (n : Nat) (f : Router → Router) : (s.modRouter n f).capture = s.capture := rfl
@[simp] theorem State.modRouter_out (n : Nat) (f : Router → Router) : (s.modRouter n f).out = s.out := rfl
@[simp] theorem State.modRouter_pending (n : Nat) (f : Router → Router) : (s.modRouter n f).pending = s.pending := rfl

@[simp] theorem State.modStore_now (k : Nat) (f : Tab Byte → Tab Byte) : (s.modStore k f).now = s.now := rfl
@[simp] theorem State.modStore_free (k : Nat) (f : Tab Byte → Tab Byte) : (s.modStore k f).free = s.free := rfl
@[simp] theorem State.modStore_glb (k : Nat) (f : Tab Byte → Tab Byte) : (s.modStore k f).glb = s.glb := rfl
@[simp] theorem State.modStore_beat (k : Nat) (f : Tab Byte → Tab Byte) : (s.modStore k f).beat = s.beat := rfl
@[simp] theorem State.modStore_qps (k : Nat) (f : Tab Byte → Tab Byte) : (s.modStore k f).qps = s.qps := rfl
@[simp] theorem State.modStore_groups (k : Nat) (f : Tab Byte → Tab Byte) : (s.modStore k f).groups = s.groups := rfl
@[simp] theorem State.modStore_jrn (k : Nat) (f : Tab Byte → Tab Byte) : (s.modStore k f).jrn = s.jrn := rfl
@[simp] theorem State.modStore_cmds (k : Nat) (f : Tab Byte → Tab Byte) : (s.modStore k f).cmds = s.cmds := rfl
@[simp] theorem State.modStore_work (k : Nat) (f : Tab Byte → Tab Byte) : (s.modStore k f).work = { s.work with stores := tmod [] k f s.work.stores } := rfl
@[simp] theorem State.modStore_mem (k : Nat) (f : Tab Byte → Tab Byte) : (s.modStore k f).mem = s.mem := rfl
@[simp] theorem State.modStore_evc (k : Nat) (f : Tab Byte → Tab Byte) : (s.modStore k f).evc = s.evc := rfl
@[simp] theorem State.modStore_err (k : Nat) (f : Tab Byte → Tab Byte) : (s.modStore k f).err = s.err := rfl
@[simp] theorem State.modStore_pci (k : Nat) (f : Tab Byte → Tab Byte) : (s.modStore k f).pci = s.pci := rfl
@[simp] theorem State.modStore_chain (k : Nat) (f : Tab Byte → Tab Byte) : (s.modStore k f).chain = s.chain := rfl
@[simp] theorem State.modStore_pair (k : Nat) (f : Tab Byte → Tab Byte) : (s.modStore k f).pair = s.pair := rfl
@[simp] theorem State.modStore_sec (k : Nat) (f : Tab Byte → Tab Byte) : (s.modStore k f).sec = s.sec := rfl
@[simp] theorem State.modStore_pwr (k : Nat) (f : Tab Byte → Tab Byte) : (s.modStore k f).pwr = s.pwr := rfl
@[simp] theorem State.modStore_mgt (k : Nat) (f : Tab Byte → Tab Byte) : (s.modStore k f).mgt = s.mgt := rfl
@[simp] theorem State.modStore_present (k : Nat) (f : Tab Byte → Tab Byte) : (s.modStore k f).present = s.present := rfl
@[simp] theorem State.modStore_fit (k : Nat) (f : Tab Byte → Tab Byte) : (s.modStore k f).fit = s.fit := rfl
@[simp] theorem State.modStore_capture (k : Nat) (f : Tab Byte → Tab Byte) : (s.modStore k f).capture = s.capture := rfl
@[simp] theorem State.modStore_out (k : Nat) (f : Tab Byte → Tab Byte) : (s.modStore k f).out = s.out := rfl
@[simp] theorem State.modStore_pending (k : Nat) (f : Tab Byte → Tab Byte) : (s.modStore k f).pending = s.pending := rfl

@[simp] theorem State.reject_now (o m : Nat) : (s.reject o m).now = s.now := rfl
@[simp] theorem State.reject_free (o m : Nat) : (s.reject o m).free = s.free := rfl
@[simp] theorem State.reject_glb (o m : Nat) : (s.reject o m).glb = { s.glb with reject := sat32 s.glb.reject 1, rejOffset := o, rejMaster := m } := rfl
@[simp] theorem State.reject_beat (o m : Nat) : (s.reject o m).beat = s.beat := rfl
@[simp] theorem State.reject_qps (o m : Nat) : (s.reject o m).qps = s.qps := rfl
@[simp] theorem State.reject_groups (o m : Nat) : (s.reject o m).groups = s.groups := rfl
@[simp] theorem State.reject_jrn (o m : Nat) : (s.reject o m).jrn = s.jrn := rfl
@[simp] theorem State.reject_cmds (o m : Nat) : (s.reject o m).cmds = s.cmds := rfl
@[simp] theorem State.reject_work (o m : Nat) : (s.reject o m).work = s.work := rfl
@[simp] theorem State.reject_mem (o m : Nat) : (s.reject o m).mem = s.mem := rfl
@[simp] theorem State.reject_evc (o m : Nat) : (s.reject o m).evc = s.evc := rfl
@[simp] theorem State.reject_err (o m : Nat) : (s.reject o m).err = s.err := rfl
@[simp] theorem State.reject_pci (o m : Nat) : (s.reject o m).pci = s.pci := rfl
@[simp] theorem State.reject_chain (o m : Nat) : (s.reject o m).chain = s.chain := rfl
@[simp] theorem State.reject_pair (o m : Nat) : (s.reject o m).pair = s.pair := rfl
@[simp] theorem State.reject_sec (o m : Nat) : (s.reject o m).sec = s.sec := rfl
@[simp] theorem State.reject_pwr (o m : Nat) : (s.reject o m).pwr = s.pwr := rfl
@[simp] theorem State.reject_mgt (o m : Nat) : (s.reject o m).mgt = s.mgt := rfl
@[simp] theorem State.reject_present (o m : Nat) : (s.reject o m).present = s.present := rfl
@[simp] theorem State.reject_fit (o m : Nat) : (s.reject o m).fit = s.fit := rfl
@[simp] theorem State.reject_capture (o m : Nat) : (s.reject o m).capture = s.capture := rfl
@[simp] theorem State.reject_out (o m : Nat) : (s.reject o m).out = s.out := rfl
@[simp] theorem State.reject_pending (o m : Nat) : (s.reject o m).pending = s.pending := rfl

@[simp] theorem State.rawWrite_now (a : Nat) (bs : Bytes) : (s.rawWrite a bs).now = s.now := rfl
@[simp] theorem State.rawWrite_free (a : Nat) (bs : Bytes) : (s.rawWrite a bs).free = s.free := rfl
@[simp] theorem State.rawWrite_glb (a : Nat) (bs : Bytes) : (s.rawWrite a bs).glb = s.glb := rfl
@[simp] theorem State.rawWrite_beat (a : Nat) (bs : Bytes) : (s.rawWrite a bs).beat = s.beat := rfl
@[simp] theorem State.rawWrite_qps (a : Nat) (bs : Bytes) : (s.rawWrite a bs).qps = s.qps := rfl
@[simp] theorem State.rawWrite_groups (a : Nat) (bs : Bytes) : (s.rawWrite a bs).groups = s.groups := rfl
@[simp] theorem State.rawWrite_jrn (a : Nat) (bs : Bytes) : (s.rawWrite a bs).jrn = s.jrn := rfl
@[simp] theorem State.rawWrite_cmds (a : Nat) (bs : Bytes) : (s.rawWrite a bs).cmds = s.cmds := rfl
@[simp] theorem State.rawWrite_work (a : Nat) (bs : Bytes) : (s.rawWrite a bs).work = s.work := rfl
@[simp] theorem State.rawWrite_mem (a : Nat) (bs : Bytes) : (s.rawWrite a bs).mem = { s.mem with bus := writeBytes s.mem.bus a bs } := rfl
@[simp] theorem State.rawWrite_evc (a : Nat) (bs : Bytes) : (s.rawWrite a bs).evc = s.evc := rfl
@[simp] theorem State.rawWrite_err (a : Nat) (bs : Bytes) : (s.rawWrite a bs).err = s.err := rfl
@[simp] theorem State.rawWrite_pci (a : Nat) (bs : Bytes) : (s.rawWrite a bs).pci = s.pci := rfl
@[simp] theorem State.rawWrite_chain (a : Nat) (bs : Bytes) : (s.rawWrite a bs).chain = s.chain := rfl
@[simp] theorem State.rawWrite_pair (a : Nat) (bs : Bytes) : (s.rawWrite a bs).pair = s.pair := rfl
@[simp] theorem State.rawWrite_sec (a : Nat) (bs : Bytes) : (s.rawWrite a bs).sec = s.sec := rfl
@[simp] theorem State.rawWrite_pwr (a : Nat) (bs : Bytes) : (s.rawWrite a bs).pwr = s.pwr := rfl
@[simp] theorem State.rawWrite_mgt (a : Nat) (bs : Bytes) : (s.rawWrite a bs).mgt = s.mgt := rfl
@[simp] theorem State.rawWrite_present (a : Nat) (bs : Bytes) : (s.rawWrite a bs).present = s.present := rfl
@[simp] theorem State.rawWrite_fit (a : Nat) (bs : Bytes) : (s.rawWrite a bs).fit = s.fit := rfl
@[simp] theorem State.rawWrite_capture (a : Nat) (bs : Bytes) : (s.rawWrite a bs).capture = s.capture := rfl
@[simp] theorem State.rawWrite_out (a : Nat) (bs : Bytes) : (s.rawWrite a bs).out = .busWrite a bs :: s.out := rfl
@[simp] theorem State.rawWrite_pending (a : Nat) (bs : Bytes) : (s.rawWrite a bs).pending = s.pending := rfl

end Sys2Proof.Machine
end

