-- ==== Sys2Proof/Laws/Tab.lean ====
section
/-! SUPPORT. The laws of sparse tables and byte memories: a read after a write, and that every write keeps the canonical form. -/

namespace Sys2Proof.Machine

variable {α : Type}

theorem tget_tput_same (d : α) (k : Nat) (v : α) (t : Tab α) : tget d (tput k v t) k = v := by
  induction t with
  | nil => simp [tput, tget]
  | cons e r ih =>
    obtain ⟨j, w⟩ := e
    simp only [tput]
    split
    · simp [tget]
    · split
      · simp [tget]
      · simp [tget, *]

theorem tget_tput_ne (d : α) {k i : Nat} (v : α) (t : Tab α) (h : i ≠ k) : tget d (tput k v t) i = tget d t i := by
  induction t with
  | nil => simp [tput, tget, h]
  | cons e r ih =>
    obtain ⟨j, w⟩ := e
    simp only [tput]
    split
    · simp [tget, h]
    · split
      · subst_vars; simp [tget, h]
      · simp [tget, ih]

theorem tget_filter_same (d : α) (k : Nat) (t : Tab α) : tget d (t.filter fun e => decide (e.1 ≠ k)) k = d := by
  induction t with
  | nil => simp [tget]
  | cons e r ih =>
    obtain ⟨j, w⟩ := e
    by_cases h : j = k
    · simpa [List.filter_cons, h] using ih
    · have h' : ¬k = j := fun x => h x.symm
      simpa [List.filter_cons, h, tget, h'] using ih

theorem tget_filter_ne (d : α) {k i : Nat} (t : Tab α) (h : i ≠ k) :
    tget d (t.filter fun e => decide (e.1 ≠ k)) i = tget d t i := by
  induction t with
  | nil => simp [tget]
  | cons e r ih =>
    obtain ⟨j, w⟩ := e
    by_cases hj : j = k
    · subst hj; simpa [List.filter_cons, tget, h] using ih
    · simp only [ne_eq, decide_not] at ih
      simp [hj, tget, ih]

/-- A key reads as what was written to it last. -/
@[simp] theorem tget_tset_same [DecidableEq α] (d : α) (k : Nat) (v : α) (t : Tab α) : tget d (tset d k v t) k = v := by
  unfold tset
  split
  · subst_vars; exact tget_filter_same _ k t
  · exact tget_tput_same d k v t

/-- A write leaves every other key alone. -/
theorem tget_tset_ne [DecidableEq α] (d : α) {k i : Nat} (v : α) (t : Tab α) (h : i ≠ k) : tget d (tset d k v t) i = tget d t i := by
  unfold tset
  split
  · exact tget_filter_ne d t h
  · exact tget_tput_ne d v t h

@[simp] theorem tget_tmod_same [DecidableEq α] (d : α) (k : Nat) (f : α → α) (t : Tab α) : tget d (tmod d k f t) k = f (tget d t k) := by
  simp [tmod]

theorem tget_tmod_ne [DecidableEq α] (d : α) {k i : Nat} (f : α → α) (t : Tab α) (h : i ≠ k) : tget d (tmod d k f t) i = tget d t i :=
  tget_tset_ne d _ t h

@[simp] theorem tget_nil (d : α) (k : Nat) : tget d [] k = d := rfl

theorem tabAbove_filter (p : Nat × α → Bool) (t : Tab α) : ∀ a b, a ≤ b → tabAbove b t = true → tabAbove a (t.filter p) = true := by
  induction t with
  | nil => intro a b _ _; rfl
  | cons e r ih =>
    obtain ⟨j, w⟩ := e
    intro a b hab h
    simp only [tabAbove, Bool.and_eq_true, decide_eq_true_eq] at h
    rw [List.filter_cons]
    split
    · simp only [tabAbove, Bool.and_eq_true, decide_eq_true_eq]
      exact ⟨by omega, ih j j (le_refl j) h.2⟩
    · exact ih a j (by omega) h.2

/-- Filtering keeps a table sorted. -/
theorem tabSorted_filter (p : Nat × α → Bool) (t : Tab α) (h : tabSorted t = true) : tabSorted (t.filter p) = true := by
  induction t with
  | nil => rfl
  | cons e r ih =>
    obtain ⟨j, w⟩ := e
    simp only [tabSorted] at h
    rw [List.filter_cons]
    split
    · simpa [tabSorted] using tabAbove_filter p r j j (le_refl j) h
    · cases r with
      | nil => rfl
      | cons e' r' =>
        obtain ⟨j', w'⟩ := e'
        simp only [tabAbove, Bool.and_eq_true] at h
        exact ih (by simpa [tabSorted] using h.2)

theorem tabAbove_tput (k : Nat) (v : α) (t : Tab α) : ∀ b, b < k → tabAbove b t = true → tabAbove b (tput k v t) = true := by
  induction t with
  | nil => intro b h _; simp [tput, tabAbove, h]
  | cons e r ih =>
    obtain ⟨j, w⟩ := e
    intro b hb h
    simp only [tabAbove, Bool.and_eq_true, decide_eq_true_eq] at h
    simp only [tput]
    split
    · simp [tabAbove, *]
    · split
      · subst_vars; simp [tabAbove, hb, h.2]
      · simp only [tabAbove, Bool.and_eq_true, decide_eq_true_eq]
        exact ⟨h.1, ih j (by omega) h.2⟩

theorem tabSorted_tput (k : Nat) (v : α) (t : Tab α) (h : tabSorted t = true) : tabSorted (tput k v t) = true := by
  cases t with
  | nil => rfl
  | cons e r =>
    obtain ⟨j, w⟩ := e
    simp only [tabSorted] at h
    simp only [tput]
    split
    · simp [tabSorted, tabAbove, *]
    · split
      · subst_vars; simpa [tabSorted] using h
      · simpa [tabSorted] using tabAbove_tput k v r j (by omega) h

theorem mem_tput {k : Nat} {v : α} {t : Tab α} {e : Nat × α} (h : e ∈ tput k v t) : e = (k, v) ∨ e ∈ t := by
  induction t with
  | nil => simpa [tput] using h
  | cons x r ih =>
    obtain ⟨j, w⟩ := x
    simp only [tput] at h
    split at h
    · simpa using h
    · split at h
      · simp only [List.mem_cons] at h ⊢; tauto
      · simp only [List.mem_cons] at h ⊢
        rcases h with h | h
        · exact Or.inr (Or.inl h)
        · rcases ih h with h | h <;> tauto

/-- A write keeps the canonical form. -/
theorem tabWf_tset [DecidableEq α] (d : α) (k : Nat) (v : α) (t : Tab α) (h : tabWf d t = true) : tabWf d (tset d k v t) = true := by
  simp only [tabWf, Bool.and_eq_true, tabNoDefault, List.all_eq_true, decide_eq_true_eq] at h ⊢
  unfold tset
  split
  · exact ⟨tabSorted_filter _ t h.1, fun e he => h.2 e (List.mem_of_mem_filter he)⟩
  · refine ⟨tabSorted_tput k v t h.1, fun e he => ?_⟩
    rcases mem_tput he with rfl | he
    · assumption
    · exact h.2 e he

/-- A change of one key keeps the canonical form. -/
theorem tabWf_tmod [DecidableEq α] (d : α) (k : Nat) (f : α → α) (t : Tab α) (h : tabWf d t = true) : tabWf d (tmod d k f t) = true :=
  tabWf_tset d k _ t h

@[simp] theorem readByte_writeByte_same (m : Tab Byte) (a : Nat) (v : Byte) : readByte (writeByte m a v) a = v :=
  tget_tset_same _ _ _ _

theorem readByte_writeByte_ne (m : Tab Byte) {a b : Nat} (v : Byte) (h : b ≠ a) : readByte (writeByte m a v) b = readByte m b :=
  tget_tset_ne _ _ _ h

/-- A store of bytes keeps the canonical form of a memory. -/
theorem memWf_writeBytes (bs : Bytes) : ∀ (m : Tab Byte) (a : Nat), memWf m = true → memWf (writeBytes m a bs) = true := by
  induction bs with
  | nil => intro m a h; exact h
  | cons b r ih => intro m a h; exact ih _ _ (tabWf_tset _ _ _ _ h)

/-- A store of bytes leaves every byte outside its range alone. -/
theorem readByte_writeBytes_outside (bs : Bytes) : ∀ (m : Tab Byte) (a b : Nat), (b < a ∨ a + bs.length ≤ b) →
    readByte (writeBytes m a bs) b = readByte m b := by
  induction bs with
  | nil => intro m a b _; rfl
  | cons x r ih =>
    intro m a b h
    simp only [List.length_cons] at h
    rw [writeBytes, ih _ _ _ (by omega)]
    exact readByte_writeByte_ne m x (by omega)

/-- A byte of a stored range reads as stored. -/
theorem readByte_writeBytes_inside (bs : Bytes) : ∀ (m : Tab Byte) (a i : Nat) (h : i < bs.length),
    readByte (writeBytes m a bs) (a + i) = bs[i] := by
  induction bs with
  | nil => intro m a i h; simp at h
  | cons x r ih =>
    intro m a i h
    cases i with
    | zero =>
      rw [writeBytes]
      simp only [Nat.add_zero, List.getElem_cons_zero]
      rw [readByte_writeBytes_outside r _ _ _ (by omega)]
      simp
    | succ i =>
      have := ih (writeByte m a x) (a + 1) i (by simpa using h)
      rw [writeBytes]
      simpa [Nat.add_assoc, Nat.add_comm 1 i] using this

/-- Clearing a range keeps the canonical form of a memory. -/
theorem memWf_clearRange (m : Tab Byte) (a n : Nat) (h : memWf m = true) : memWf (clearRange m a n) = true := by
  simp only [memWf, tabWf, Bool.and_eq_true, tabNoDefault, List.all_eq_true, decide_eq_true_eq] at h ⊢
  exact ⟨tabSorted_filter _ m h.1, fun e he => h.2 e (List.mem_of_mem_filter he)⟩

end Sys2Proof.Machine
end

