-- ==== Sys2Proof/Laws/Ops.lean ====
section
/-! SUPPORT. What each shared operation over the state leaves alone: one lemma per field it does not touch. -/

namespace Sys2Proof.Machine

variable (s : State)

@[simp] theorem State.choose2_now (n : Nat) : ((s.choose n).2).now = s.now := rfl
@[simp] theorem State.choose2_glb (n : Nat) : ((s.choose n).2).glb = s.glb := rfl
@[simp] theorem State.choose2_beat (n : Nat) : ((s.choose n).2).beat = s.beat := rfl
@[simp] theorem State.choose2_qps (n : Nat) : ((s.choose n).2).qps = s.qps := rfl
@[simp] theorem State.choose2_groups (n : Nat) : ((s.choose n).2).groups = s.groups := rfl
@[simp] theorem State.choose2_jrn (n : Nat) : ((s.choose n).2).jrn = s.jrn := rfl
@[simp] theorem State.choose2_cmds (n : Nat) : ((s.choose n).2).cmds = s.cmds := rfl
@[simp] theorem State.choose2_work (n : Nat) : ((s.choose n).2).work = s.work := rfl
@[simp] theorem State.choose2_mem (n : Nat) : ((s.choose n).2).mem = s.mem := rfl
@[simp] theorem State.choose2_evc (n : Nat) : ((s.choose n).2).evc = s.evc := rfl
@[simp] theorem State.choose2_err (n : Nat) : ((s.choose n).2).err = s.err := rfl
@[simp] theorem State.choose2_pci (n : Nat) : ((s.choose n).2).pci = s.pci := rfl
@[simp] theorem State.choose2_chain (n : Nat) : ((s.choose n).2).chain = s.chain := rfl
@[simp] theorem State.choose2_pair (n : Nat) : ((s.choose n).2).pair = s.pair := rfl
@[simp] theorem State.choose2_sec (n : Nat) : ((s.choose n).2).sec = s.sec := rfl
@[simp] theorem State.choose2_pwr (n : Nat) : ((s.choose n).2).pwr = s.pwr := rfl
@[simp] theorem State.choose2_mgt (n : Nat) : ((s.choose n).2).mgt = s.mgt := rfl
@[simp] theorem State.choose2_present (n : Nat) : ((s.choose n).2).present = s.present := rfl
@[simp] theorem State.choose2_fit (n : Nat) : ((s.choose n).2).fit = s.fit := rfl
@[simp] theorem State.choose2_capture (n : Nat) : ((s.choose n).2).capture = s.capture := rfl
@[simp] theorem State.choose2_out (n : Nat) : ((s.choose n).2).out = s.out := rfl
@[simp] theorem State.choose2_pending (n : Nat) : ((s.choose n).2).pending = s.pending := rfl

@[simp] theorem State.sendPme_now  : (s.sendPme).now = s.now := by
  simp only [State.sendPme]; split <;> simp
@[simp] theorem State.sendPme_free  : (s.sendPme).free = s.free := by
  simp only [State.sendPme]; split <;> simp
@[simp] theorem State.sendPme_glb  : (s.sendPme).glb = s.glb := by
  simp only [State.sendPme]; split <;> simp
@[simp] theorem State.sendPme_beat  : (s.sendPme).beat = s.beat := by
  simp only [State.sendPme]; split <;> simp
@[simp] theorem State.sendPme_qps  : (s.sendPme).qps = s.qps := by
  simp only [State.sendPme]; split <;> simp
@[simp] theorem State.sendPme_groups  : (s.sendPme).groups = s.groups := by
  simp only [State.sendPme]; split <;> simp
@[simp] theorem State.sendPme_jrn  : (s.sendPme).jrn = s.jrn := by
  simp only [State.sendPme]; split <;> simp
@[simp] theorem State.sendPme_cmds  : (s.sendPme).cmds = s.cmds := by
  simp only [State.sendPme]; split <;> simp
@[simp] theorem State.sendPme_work  : (s.sendPme).work = s.work := by
  simp only [State.sendPme]; split <;> simp
@[simp] theorem State.sendPme_mem  : (s.sendPme).mem = s.mem := by
  simp only [State.sendPme]; split <;> simp
@[simp] theorem State.sendPme_evc  : (s.sendPme).evc = s.evc := by
  simp only [State.sendPme]; split <;> simp
@[simp] theorem State.sendPme_err  : (s.sendPme).err = s.err := by
  simp only [State.sendPme]; split <;> simp
@[simp] theorem State.sendPme_chain  : (s.sendPme).chain = s.chain := by
  simp only [State.sendPme]; split <;> simp
@[simp] theorem State.sendPme_pair  : (s.sendPme).pair = s.pair := by
  simp only [State.sendPme]; split <;> simp
@[simp] theorem State.sendPme_sec  : (s.sendPme).sec = s.sec := by
  simp only [State.sendPme]; split <;> simp
@[simp] theorem State.sendPme_pwr  : (s.sendPme).pwr = s.pwr := by
  simp only [State.sendPme]; split <;> simp
@[simp] theorem State.sendPme_mgt  : (s.sendPme).mgt = s.mgt := by
  simp only [State.sendPme]; split <;> simp
@[simp] theorem State.sendPme_present  : (s.sendPme).present = s.present := by
  simp only [State.sendPme]; split <;> simp
@[simp] theorem State.sendPme_fit  : (s.sendPme).fit = s.fit := by
  simp only [State.sendPme]; split <;> simp
@[simp] theorem State.sendPme_capture  : (s.sendPme).capture = s.capture := by
  simp only [State.sendPme]; split <;> simp
@[simp] theorem State.sendPme_pending  : (s.sendPme).pending = s.pending := by
  simp only [State.sendPme]; split <;> simp

@[simp] theorem State.sendMsix_now (v : Nat) : (s.sendMsix v).now = s.now := by
  simp only [State.sendMsix]; split
  · rfl
  · split <;> simp
@[simp] theorem State.sendMsix_free (v : Nat) : (s.sendMsix v).free = s.free := by
  simp only [State.sendMsix]; split
  · rfl
  · split <;> simp
@[simp] theorem State.sendMsix_glb (v : Nat) : (s.sendMsix v).glb = s.glb := by
  simp only [State.sendMsix]; split
  · rfl
  · split <;> simp
@[simp] theorem State.sendMsix_beat (v : Nat) : (s.sendMsix v).beat = s.beat := by
  simp only [State.sendMsix]; split
  · rfl
  · split <;> simp
@[simp] theorem State.sendMsix_qps (v : Nat) : (s.sendMsix v).qps = s.qps := by
  simp only [State.sendMsix]; split
  · rfl
  · split <;> simp
@[simp] theorem State.sendMsix_groups (v : Nat) : (s.sendMsix v).groups = s.groups := by
  simp only [State.sendMsix]; split
  · rfl
  · split <;> simp
@[simp] theorem State.sendMsix_jrn (v : Nat) : (s.sendMsix v).jrn = s.jrn := by
  simp only [State.sendMsix]; split
  · rfl
  · split <;> simp
@[simp] theorem State.sendMsix_cmds (v : Nat) : (s.sendMsix v).cmds = s.cmds := by
  simp only [State.sendMsix]; split
  · rfl
  · split <;> simp
@[simp] theorem State.sendMsix_work (v : Nat) : (s.sendMsix v).work = s.work := by
  simp only [State.sendMsix]; split
  · rfl
  · split <;> simp
@[simp] theorem State.sendMsix_mem (v : Nat) : (s.sendMsix v).mem = s.mem := by
  simp only [State.sendMsix]; split
  · rfl
  · split <;> simp
@[simp] theorem State.sendMsix_evc (v : Nat) : (s.sendMsix v).evc = s.evc := by
  simp only [State.sendMsix]; split
  · rfl
  · split <;> simp
@[simp] theorem State.sendMsix_err (v : Nat) : (s.sendMsix v).err = s.err := by
  simp only [State.sendMsix]; split
  · rfl
  · split <;> simp
@[simp] theorem State.sendMsix_chain (v : Nat) : (s.sendMsix v).chain = s.chain := by
  simp only [State.sendMsix]; split
  · rfl
  · split <;> simp
@[simp] theorem State.sendMsix_pair (v : Nat) : (s.sendMsix v).pair = s.pair := by
  simp only [State.sendMsix]; split
  · rfl
  · split <;> simp
@[simp] theorem State.sendMsix_sec (v : Nat) : (s.sendMsix v).sec = s.sec := by
  simp only [State.sendMsix]; split
  · rfl
  · split <;> simp
@[simp] theorem State.sendMsix_pwr (v : Nat) : (s.sendMsix v).pwr = s.pwr := by
  simp only [State.sendMsix]; split
  · rfl
  · split <;> simp
@[simp] theorem State.sendMsix_mgt (v : Nat) : (s.sendMsix v).mgt = s.mgt := by
  simp only [State.sendMsix]; split
  · rfl
  · split <;> simp
@[simp] theorem State.sendMsix_present (v : Nat) : (s.sendMsix v).present = s.present := by
  simp only [State.sendMsix]; split
  · rfl
  · split <;> simp
@[simp] theorem State.sendMsix_fit (v : Nat) : (s.sendMsix v).fit = s.fit := by
  simp only [State.sendMsix]; split
  · rfl
  · split <;> simp
@[simp] theorem State.sendMsix_capture (v : Nat) : (s.sendMsix v).capture = s.capture := by
  simp only [State.sendMsix]; split
  · rfl
  · split <;> simp
@[simp] theorem State.sendMsix_pending (v : Nat) : (s.sendMsix v).pending = s.pending := by
  simp only [State.sendMsix]; split
  · rfl
  · split <;> simp

@[simp] theorem State.eventMessage_now (v : Nat) : (s.eventMessage v).now = s.now := by
  simp only [State.eventMessage]; split <;> simp
@[simp] theorem State.eventMessage_free (v : Nat) : (s.eventMessage v).free = s.free := by
  simp only [State.eventMessage]; split <;> simp
@[simp] theorem State.eventMessage_glb (v : Nat) : (s.eventMessage v).glb = s.glb := by
  simp only [State.eventMessage]; split <;> simp
@[simp] theorem State.eventMessage_beat (v : Nat) : (s.eventMessage v).beat = s.beat := by
  simp only [State.eventMessage]; split <;> simp
@[simp] theorem State.eventMessage_qps (v : Nat) : (s.eventMessage v).qps = s.qps := by
  simp only [State.eventMessage]; split <;> simp
@[simp] theorem State.eventMessage_groups (v : Nat) : (s.eventMessage v).groups = s.groups := by
  simp only [State.eventMessage]; split <;> simp
@[simp] theorem State.eventMessage_jrn (v : Nat) : (s.eventMessage v).jrn = s.jrn := by
  simp only [State.eventMessage]; split <;> simp
@[simp] theorem State.eventMessage_cmds (v : Nat) : (s.eventMessage v).cmds = s.cmds := by
  simp only [State.eventMessage]; split <;> simp
@[simp] theorem State.eventMessage_work (v : Nat) : (s.eventMessage v).work = s.work := by
  simp only [State.eventMessage]; split <;> simp
@[simp] theorem State.eventMessage_mem (v : Nat) : (s.eventMessage v).mem = s.mem := by
  simp only [State.eventMessage]; split <;> simp
@[simp] theorem State.eventMessage_err (v : Nat) : (s.eventMessage v).err = s.err := by
  simp only [State.eventMessage]; split <;> simp
@[simp] theorem State.eventMessage_chain (v : Nat) : (s.eventMessage v).chain = s.chain := by
  simp only [State.eventMessage]; split <;> simp
@[simp] theorem State.eventMessage_pair (v : Nat) : (s.eventMessage v).pair = s.pair := by
  simp only [State.eventMessage]; split <;> simp
@[simp] theorem State.eventMessage_sec (v : Nat) : (s.eventMessage v).sec = s.sec := by
  simp only [State.eventMessage]; split <;> simp
@[simp] theorem State.eventMessage_pwr (v : Nat) : (s.eventMessage v).pwr = s.pwr := by
  simp only [State.eventMessage]; split <;> simp
@[simp] theorem State.eventMessage_mgt (v : Nat) : (s.eventMessage v).mgt = s.mgt := by
  simp only [State.eventMessage]; split <;> simp
@[simp] theorem State.eventMessage_present (v : Nat) : (s.eventMessage v).present = s.present := by
  simp only [State.eventMessage]; split <;> simp
@[simp] theorem State.eventMessage_fit (v : Nat) : (s.eventMessage v).fit = s.fit := by
  simp only [State.eventMessage]; split <;> simp
@[simp] theorem State.eventMessage_capture (v : Nat) : (s.eventMessage v).capture = s.capture := by
  simp only [State.eventMessage]; split <;> simp
@[simp] theorem State.eventMessage_pending (v : Nat) : (s.eventMessage v).pending = s.pending := by
  simp only [State.eventMessage]; split <;> simp

@[simp] theorem State.postEvent_now (n : Nat) : (s.postEvent n).now = s.now := by
  simp only [State.postEvent]; split <;> simp
@[simp] theorem State.postEvent_free (n : Nat) : (s.postEvent n).free = s.free := by
  simp only [State.postEvent]; split <;> simp
@[simp] theorem State.postEvent_glb (n : Nat) : (s.postEvent n).glb = s.glb := by
  simp only [State.postEvent]; split <;> simp
@[simp] theorem State.postEvent_beat (n : Nat) : (s.postEvent n).beat = s.beat := by
  simp only [State.postEvent]; split <;> simp
@[simp] theorem State.postEvent_qps (n : Nat) : (s.postEvent n).qps = s.qps := by
  simp only [State.postEvent]; split <;> simp
@[simp] theorem State.postEvent_groups (n : Nat) : (s.postEvent n).groups = s.groups := by
  simp only [State.postEvent]; split <;> simp
@[simp] theorem State.postEvent_jrn (n : Nat) : (s.postEvent n).jrn = s.jrn := by
  simp only [State.postEvent]; split <;> simp
@[simp] theorem State.postEvent_cmds (n : Nat) : (s.postEvent n).cmds = s.cmds := by
  simp only [State.postEvent]; split <;> simp
@[simp] theorem State.postEvent_work (n : Nat) : (s.postEvent n).work = s.work := by
  simp only [State.postEvent]; split <;> simp
@[simp] theorem State.postEvent_err (n : Nat) : (s.postEvent n).err = s.err := by
  simp only [State.postEvent]; split <;> simp
@[simp] theorem State.postEvent_chain (n : Nat) : (s.postEvent n).chain = s.chain := by
  simp only [State.postEvent]; split <;> simp
@[simp] theorem State.postEvent_pair (n : Nat) : (s.postEvent n).pair = s.pair := by
  simp only [State.postEvent]; split <;> simp
@[simp] theorem State.postEvent_sec (n : Nat) : (s.postEvent n).sec = s.sec := by
  simp only [State.postEvent]; split <;> simp
@[simp] theorem State.postEvent_pwr (n : Nat) : (s.postEvent n).pwr = s.pwr := by
  simp only [State.postEvent]; split <;> simp
@[simp] theorem State.postEvent_mgt (n : Nat) : (s.postEvent n).mgt = s.mgt := by
  simp only [State.postEvent]; split <;> simp
@[simp] theorem State.postEvent_present (n : Nat) : (s.postEvent n).present = s.present := by
  simp only [State.postEvent]; split <;> simp
@[simp] theorem State.postEvent_fit (n : Nat) : (s.postEvent n).fit = s.fit := by
  simp only [State.postEvent]; split <;> simp
@[simp] theorem State.postEvent_capture (n : Nat) : (s.postEvent n).capture = s.capture := by
  simp only [State.postEvent]; split <;> simp
@[simp] theorem State.postEvent_pending (n : Nat) : (s.postEvent n).pending = s.pending := by
  simp only [State.postEvent]; split <;> simp

@[simp] theorem State.setLock_now (l : Lock) : (s.setLock l).now = s.now := by
  simp only [State.setLock]; split <;> simp
@[simp] theorem State.setLock_free (l : Lock) : (s.setLock l).free = s.free := by
  simp only [State.setLock]; split <;> simp
@[simp] theorem State.setLock_glb (l : Lock) : (s.setLock l).glb = s.glb := by
  simp only [State.setLock]; split <;> simp
@[simp] theorem State.setLock_qps (l : Lock) : (s.setLock l).qps = s.qps := by
  simp only [State.setLock]; split <;> simp
@[simp] theorem State.setLock_groups (l : Lock) : (s.setLock l).groups = s.groups := by
  simp only [State.setLock]; split <;> simp
@[simp] theorem State.setLock_jrn (l : Lock) : (s.setLock l).jrn = s.jrn := by
  simp only [State.setLock]; split <;> simp
@[simp] theorem State.setLock_cmds (l : Lock) : (s.setLock l).cmds = s.cmds := by
  simp only [State.setLock]; split <;> simp
@[simp] theorem State.setLock_work (l : Lock) : (s.setLock l).work = s.work := by
  simp only [State.setLock]; split <;> simp
@[simp] theorem State.setLock_err (l : Lock) : (s.setLock l).err = s.err := by
  simp only [State.setLock]; split <;> simp
@[simp] theorem State.setLock_chain (l : Lock) : (s.setLock l).chain = s.chain := by
  simp only [State.setLock]; split <;> simp
@[simp] theorem State.setLock_pair (l : Lock) : (s.setLock l).pair = s.pair := by
  simp only [State.setLock]; split <;> simp
@[simp] theorem State.setLock_sec (l : Lock) : (s.setLock l).sec = s.sec := by
  simp only [State.setLock]; split <;> simp
@[simp] theorem State.setLock_pwr (l : Lock) : (s.setLock l).pwr = s.pwr := by
  simp only [State.setLock]; split <;> simp
@[simp] theorem State.setLock_mgt (l : Lock) : (s.setLock l).mgt = s.mgt := by
  simp only [State.setLock]; split <;> simp
@[simp] theorem State.setLock_present (l : Lock) : (s.setLock l).present = s.present := by
  simp only [State.setLock]; split <;> simp
@[simp] theorem State.setLock_fit (l : Lock) : (s.setLock l).fit = s.fit := by
  simp only [State.setLock]; split <;> simp
@[simp] theorem State.setLock_capture (l : Lock) : (s.setLock l).capture = s.capture := by
  simp only [State.setLock]; split <;> simp
@[simp] theorem State.setLock_pending (l : Lock) : (s.setLock l).pending = s.pending := by
  simp only [State.setLock]; split <;> simp

@[simp] theorem State.busWrite_now (a : Nat) (bs : Bytes) : (s.busWrite a bs).now = s.now := by
  simp only [State.busWrite]; split <;> simp
@[simp] theorem State.busWrite_free (a : Nat) (bs : Bytes) : (s.busWrite a bs).free = s.free := by
  simp only [State.busWrite]; split <;> simp
@[simp] theorem State.busWrite_glb (a : Nat) (bs : Bytes) : (s.busWrite a bs).glb = s.glb := by
  simp only [State.busWrite]; split <;> simp
@[simp] theorem State.busWrite_beat (a : Nat) (bs : Bytes) : (s.busWrite a bs).beat = s.beat := by
  simp only [State.busWrite]; split <;> simp
@[simp] theorem State.busWrite_qps (a : Nat) (bs : Bytes) : (s.busWrite a bs).qps = s.qps := by
  simp only [State.busWrite]; split <;> simp
@[simp] theorem State.busWrite_groups (a : Nat) (bs : Bytes) : (s.busWrite a bs).groups = s.groups := by
  simp only [State.busWrite]; split <;> simp
@[simp] theorem State.busWrite_jrn (a : Nat) (bs : Bytes) : (s.busWrite a bs).jrn = s.jrn := by
  simp only [State.busWrite]; split <;> simp
@[simp] theorem State.busWrite_cmds (a : Nat) (bs : Bytes) : (s.busWrite a bs).cmds = s.cmds := by
  simp only [State.busWrite]; split <;> simp
@[simp] theorem State.busWrite_work (a : Nat) (bs : Bytes) : (s.busWrite a bs).work = s.work := by
  simp only [State.busWrite]; split <;> simp
@[simp] theorem State.busWrite_evc (a : Nat) (bs : Bytes) : (s.busWrite a bs).evc = s.evc := by
  simp only [State.busWrite]; split <;> simp
@[simp] theorem State.busWrite_err (a : Nat) (bs : Bytes) : (s.busWrite a bs).err = s.err := by
  simp only [State.busWrite]; split <;> simp
@[simp] theorem State.busWrite_pci (a : Nat) (bs : Bytes) : (s.busWrite a bs).pci = s.pci := by
  simp only [State.busWrite]; split <;> simp
@[simp] theorem State.busWrite_chain (a : Nat) (bs : Bytes) : (s.busWrite a bs).chain = s.chain := by
  simp only [State.busWrite]; split <;> simp
@[simp] theorem State.busWrite_pair (a : Nat) (bs : Bytes) : (s.busWrite a bs).pair = s.pair := by
  simp only [State.busWrite]; split <;> simp
@[simp] theorem State.busWrite_sec (a : Nat) (bs : Bytes) : (s.busWrite a bs).sec = s.sec := by
  simp only [State.busWrite]; split <;> simp
@[simp] theorem State.busWrite_pwr (a : Nat) (bs : Bytes) : (s.busWrite a bs).pwr = s.pwr := by
  simp only [State.busWrite]; split <;> simp
@[simp] theorem State.busWrite_mgt (a : Nat) (bs : Bytes) : (s.busWrite a bs).mgt = s.mgt := by
  simp only [State.busWrite]; split <;> simp
@[simp] theorem State.busWrite_present (a : Nat) (bs : Bytes) : (s.busWrite a bs).present = s.present := by
  simp only [State.busWrite]; split <;> simp
@[simp] theorem State.busWrite_fit (a : Nat) (bs : Bytes) : (s.busWrite a bs).fit = s.fit := by
  simp only [State.busWrite]; split <;> simp
@[simp] theorem State.busWrite_capture (a : Nat) (bs : Bytes) : (s.busWrite a bs).capture = s.capture := by
  simp only [State.busWrite]; split <;> simp
@[simp] theorem State.busWrite_pending (a : Nat) (bs : Bytes) : (s.busWrite a bs).pending = s.pending := by
  simp only [State.busWrite]; split <;> simp

@[simp] theorem State.env_now (e : BusEnv) : (s.env e).now = s.now := rfl
@[simp] theorem State.env_free (e : BusEnv) : (s.env e).free = s.free := rfl
@[simp] theorem State.env_glb (e : BusEnv) : (s.env e).glb = s.glb := rfl
@[simp] theorem State.env_beat (e : BusEnv) : (s.env e).beat = s.beat := rfl
@[simp] theorem State.env_qps (e : BusEnv) : (s.env e).qps = s.qps := rfl
@[simp] theorem State.env_groups (e : BusEnv) : (s.env e).groups = s.groups := rfl
@[simp] theorem State.env_jrn (e : BusEnv) : (s.env e).jrn = s.jrn := rfl
@[simp] theorem State.env_cmds (e : BusEnv) : (s.env e).cmds = s.cmds := rfl
@[simp] theorem State.env_work (e : BusEnv) : (s.env e).work = s.work := rfl
@[simp] theorem State.env_evc (e : BusEnv) : (s.env e).evc = s.evc := rfl
@[simp] theorem State.env_err (e : BusEnv) : (s.env e).err = s.err := rfl
@[simp] theorem State.env_pci (e : BusEnv) : (s.env e).pci = s.pci := rfl
@[simp] theorem State.env_chain (e : BusEnv) : (s.env e).chain = s.chain := rfl
@[simp] theorem State.env_pair (e : BusEnv) : (s.env e).pair = s.pair := rfl
@[simp] theorem State.env_sec (e : BusEnv) : (s.env e).sec = s.sec := rfl
@[simp] theorem State.env_pwr (e : BusEnv) : (s.env e).pwr = s.pwr := rfl
@[simp] theorem State.env_mgt (e : BusEnv) : (s.env e).mgt = s.mgt := rfl
@[simp] theorem State.env_present (e : BusEnv) : (s.env e).present = s.present := rfl
@[simp] theorem State.env_fit (e : BusEnv) : (s.env e).fit = s.fit := rfl
@[simp] theorem State.env_capture (e : BusEnv) : (s.env e).capture = s.capture := rfl
@[simp] theorem State.env_out (e : BusEnv) : (s.env e).out = s.out := rfl
@[simp] theorem State.env_pending (e : BusEnv) : (s.env e).pending = s.pending := rfl

@[simp] theorem State.setPair_now (p : PairState) : (s.setPair p).now = s.now := by
  simp only [State.setPair]; split <;> simp
@[simp] theorem State.setPair_free (p : PairState) : (s.setPair p).free = s.free := by
  simp only [State.setPair]; split <;> simp
@[simp] theorem State.setPair_glb (p : PairState) : (s.setPair p).glb = s.glb := by
  simp only [State.setPair]; split <;> simp
@[simp] theorem State.setPair_beat (p : PairState) : (s.setPair p).beat = s.beat := by
  simp only [State.setPair]; split <;> simp
@[simp] theorem State.setPair_qps (p : PairState) : (s.setPair p).qps = s.qps := by
  simp only [State.setPair]; split <;> simp
@[simp] theorem State.setPair_groups (p : PairState) : (s.setPair p).groups = s.groups := by
  simp only [State.setPair]; split <;> simp
@[simp] theorem State.setPair_jrn (p : PairState) : (s.setPair p).jrn = s.jrn := by
  simp only [State.setPair]; split <;> simp
@[simp] theorem State.setPair_cmds (p : PairState) : (s.setPair p).cmds = s.cmds := by
  simp only [State.setPair]; split <;> simp
@[simp] theorem State.setPair_work (p : PairState) : (s.setPair p).work = s.work := by
  simp only [State.setPair]; split <;> simp
@[simp] theorem State.setPair_err (p : PairState) : (s.setPair p).err = s.err := by
  simp only [State.setPair]; split <;> simp
@[simp] theorem State.setPair_chain (p : PairState) : (s.setPair p).chain = s.chain := by
  simp only [State.setPair]; split <;> simp
@[simp] theorem State.setPair_sec (p : PairState) : (s.setPair p).sec = s.sec := by
  simp only [State.setPair]; split <;> simp
@[simp] theorem State.setPair_pwr (p : PairState) : (s.setPair p).pwr = s.pwr := by
  simp only [State.setPair]; split <;> simp
@[simp] theorem State.setPair_mgt (p : PairState) : (s.setPair p).mgt = s.mgt := by
  simp only [State.setPair]; split <;> simp
@[simp] theorem State.setPair_present (p : PairState) : (s.setPair p).present = s.present := by
  simp only [State.setPair]; split <;> simp
@[simp] theorem State.setPair_fit (p : PairState) : (s.setPair p).fit = s.fit := by
  simp only [State.setPair]; split <;> simp
@[simp] theorem State.setPair_capture (p : PairState) : (s.setPair p).capture = s.capture := by
  simp only [State.setPair]; split <;> simp
@[simp] theorem State.setPair_pending (p : PairState) : (s.setPair p).pending = s.pending := by
  simp only [State.setPair]; split <;> simp

@[simp] theorem State.pairSend_now (ty : Nat) (b : Bytes) : (s.pairSend ty b).now = s.now := by
  simp only [State.pairSend]; split
  · rfl
  · split <;> simp
@[simp] theorem State.pairSend_free (ty : Nat) (b : Bytes) : (s.pairSend ty b).free = s.free := by
  simp only [State.pairSend]; split
  · rfl
  · split <;> simp
@[simp] theorem State.pairSend_glb (ty : Nat) (b : Bytes) : (s.pairSend ty b).glb = s.glb := by
  simp only [State.pairSend]; split
  · rfl
  · split <;> simp
@[simp] theorem State.pairSend_beat (ty : Nat) (b : Bytes) : (s.pairSend ty b).beat = s.beat := by
  simp only [State.pairSend]; split
  · rfl
  · split <;> simp
@[simp] theorem State.pairSend_qps (ty : Nat) (b : Bytes) : (s.pairSend ty b).qps = s.qps := by
  simp only [State.pairSend]; split
  · rfl
  · split <;> simp
@[simp] theorem State.pairSend_groups (ty : Nat) (b : Bytes) : (s.pairSend ty b).groups = s.groups := by
  simp only [State.pairSend]; split
  · rfl
  · split <;> simp
@[simp] theorem State.pairSend_jrn (ty : Nat) (b : Bytes) : (s.pairSend ty b).jrn = s.jrn := by
  simp only [State.pairSend]; split
  · rfl
  · split <;> simp
@[simp] theorem State.pairSend_cmds (ty : Nat) (b : Bytes) : (s.pairSend ty b).cmds = s.cmds := by
  simp only [State.pairSend]; split
  · rfl
  · split <;> simp
@[simp] theorem State.pairSend_work (ty : Nat) (b : Bytes) : (s.pairSend ty b).work = s.work := by
  simp only [State.pairSend]; split
  · rfl
  · split <;> simp
@[simp] theorem State.pairSend_mem (ty : Nat) (b : Bytes) : (s.pairSend ty b).mem = s.mem := by
  simp only [State.pairSend]; split
  · rfl
  · split <;> simp
@[simp] theorem State.pairSend_evc (ty : Nat) (b : Bytes) : (s.pairSend ty b).evc = s.evc := by
  simp only [State.pairSend]; split
  · rfl
  · split <;> simp
@[simp] theorem State.pairSend_err (ty : Nat) (b : Bytes) : (s.pairSend ty b).err = s.err := by
  simp only [State.pairSend]; split
  · rfl
  · split <;> simp
@[simp] theorem State.pairSend_pci (ty : Nat) (b : Bytes) : (s.pairSend ty b).pci = s.pci := by
  simp only [State.pairSend]; split
  · rfl
  · split <;> simp
@[simp] theorem State.pairSend_chain (ty : Nat) (b : Bytes) : (s.pairSend ty b).chain = s.chain := by
  simp only [State.pairSend]; split
  · rfl
  · split <;> simp
@[simp] theorem State.pairSend_sec (ty : Nat) (b : Bytes) : (s.pairSend ty b).sec = s.sec := by
  simp only [State.pairSend]; split
  · rfl
  · split <;> simp
@[simp] theorem State.pairSend_pwr (ty : Nat) (b : Bytes) : (s.pairSend ty b).pwr = s.pwr := by
  simp only [State.pairSend]; split
  · rfl
  · split <;> simp
@[simp] theorem State.pairSend_mgt (ty : Nat) (b : Bytes) : (s.pairSend ty b).mgt = s.mgt := by
  simp only [State.pairSend]; split
  · rfl
  · split <;> simp
@[simp] theorem State.pairSend_present (ty : Nat) (b : Bytes) : (s.pairSend ty b).present = s.present := by
  simp only [State.pairSend]; split
  · rfl
  · split <;> simp
@[simp] theorem State.pairSend_fit (ty : Nat) (b : Bytes) : (s.pairSend ty b).fit = s.fit := by
  simp only [State.pairSend]; split
  · rfl
  · split <;> simp
@[simp] theorem State.pairSend_capture (ty : Nat) (b : Bytes) : (s.pairSend ty b).capture = s.capture := by
  simp only [State.pairSend]; split
  · rfl
  · split <;> simp
@[simp] theorem State.pairSend_pending (ty : Nat) (b : Bytes) : (s.pairSend ty b).pending = s.pending := by
  simp only [State.pairSend]; split
  · rfl
  · split <;> simp

@[simp] theorem State.pairFence_now (r : Nat) : (s.pairFence r).now = s.now := by
  simp [State.pairFence]
@[simp] theorem State.pairFence_free (r : Nat) : (s.pairFence r).free = s.free := by
  simp [State.pairFence]
@[simp] theorem State.pairFence_glb (r : Nat) : (s.pairFence r).glb = s.glb := by
  simp [State.pairFence]
@[simp] theorem State.pairFence_beat (r : Nat) : (s.pairFence r).beat = s.beat := by
  simp [State.pairFence]
@[simp] theorem State.pairFence_qps (r : Nat) : (s.pairFence r).qps = s.qps := by
  simp [State.pairFence]
@[simp] theorem State.pairFence_groups (r : Nat) : (s.pairFence r).groups = s.groups := by
  simp [State.pairFence]
@[simp] theorem State.pairFence_jrn (r : Nat) : (s.pairFence r).jrn = s.jrn := by
  simp [State.pairFence]
@[simp] theorem State.pairFence_cmds (r : Nat) : (s.pairFence r).cmds = s.cmds := by
  simp [State.pairFence]
@[simp] theorem State.pairFence_work (r : Nat) : (s.pairFence r).work = s.work := by
  simp [State.pairFence]
@[simp] theorem State.pairFence_err (r : Nat) : (s.pairFence r).err = s.err := by
  simp [State.pairFence]
@[simp] theorem State.pairFence_chain (r : Nat) : (s.pairFence r).chain = s.chain := by
  simp [State.pairFence]
@[simp] theorem State.pairFence_sec (r : Nat) : (s.pairFence r).sec = s.sec := by
  simp [State.pairFence]
@[simp] theorem State.pairFence_pwr (r : Nat) : (s.pairFence r).pwr = s.pwr := by
  simp [State.pairFence]
@[simp] theorem State.pairFence_mgt (r : Nat) : (s.pairFence r).mgt = s.mgt := by
  simp [State.pairFence]
@[simp] theorem State.pairFence_present (r : Nat) : (s.pairFence r).present = s.present := by
  simp [State.pairFence]
@[simp] theorem State.pairFence_fit (r : Nat) : (s.pairFence r).fit = s.fit := by
  simp [State.pairFence]
@[simp] theorem State.pairFence_capture (r : Nat) : (s.pairFence r).capture = s.capture := by
  simp [State.pairFence]
@[simp] theorem State.pairFence_pending (r : Nat) : (s.pairFence r).pending = s.pending := by
  simp [State.pairFence]

@[simp] theorem State.handedOver_now  : (s.handedOver).now = s.now := by
  simp only [State.handedOver]; split <;> simp
@[simp] theorem State.handedOver_free  : (s.handedOver).free = s.free := by
  simp only [State.handedOver]; split <;> simp
@[simp] theorem State.handedOver_glb  : (s.handedOver).glb = s.glb := by
  simp only [State.handedOver]; split <;> simp
@[simp] theorem State.handedOver_beat  : (s.handedOver).beat = s.beat := by
  simp only [State.handedOver]; split <;> simp
@[simp] theorem State.handedOver_qps  : (s.handedOver).qps = s.qps := by
  simp only [State.handedOver]; split <;> simp
@[simp] theorem State.handedOver_groups  : (s.handedOver).groups = s.groups := by
  simp only [State.handedOver]; split <;> simp
@[simp] theorem State.handedOver_jrn  : (s.handedOver).jrn = s.jrn := by
  simp only [State.handedOver]; split <;> simp
@[simp] theorem State.handedOver_cmds  : (s.handedOver).cmds = s.cmds := by
  simp only [State.handedOver]; split <;> simp
@[simp] theorem State.handedOver_work  : (s.handedOver).work = s.work := by
  simp only [State.handedOver]; split <;> simp
@[simp] theorem State.handedOver_err  : (s.handedOver).err = s.err := by
  simp only [State.handedOver]; split <;> simp
@[simp] theorem State.handedOver_chain  : (s.handedOver).chain = s.chain := by
  simp only [State.handedOver]; split <;> simp
@[simp] theorem State.handedOver_sec  : (s.handedOver).sec = s.sec := by
  simp only [State.handedOver]; split <;> simp
@[simp] theorem State.handedOver_pwr  : (s.handedOver).pwr = s.pwr := by
  simp only [State.handedOver]; split <;> simp
@[simp] theorem State.handedOver_mgt  : (s.handedOver).mgt = s.mgt := by
  simp only [State.handedOver]; split <;> simp
@[simp] theorem State.handedOver_present  : (s.handedOver).present = s.present := by
  simp only [State.handedOver]; split <;> simp
@[simp] theorem State.handedOver_fit  : (s.handedOver).fit = s.fit := by
  simp only [State.handedOver]; split <;> simp
@[simp] theorem State.handedOver_capture  : (s.handedOver).capture = s.capture := by
  simp only [State.handedOver]; split <;> simp
@[simp] theorem State.handedOver_pending  : (s.handedOver).pending = s.pending := by
  simp only [State.handedOver]; split <;> simp

@[simp] theorem State.voteFixed_now  : (s.voteFixed).now = s.now := by
  simp only [State.voteFixed]; split <;> simp
@[simp] theorem State.voteFixed_free  : (s.voteFixed).free = s.free := by
  simp only [State.voteFixed]; split <;> simp
@[simp] theorem State.voteFixed_glb  : (s.voteFixed).glb = s.glb := by
  simp only [State.voteFixed]; split <;> simp
@[simp] theorem State.voteFixed_beat  : (s.voteFixed).beat = s.beat := by
  simp only [State.voteFixed]; split <;> simp
@[simp] theorem State.voteFixed_qps  : (s.voteFixed).qps = s.qps := by
  simp only [State.voteFixed]; split <;> simp
@[simp] theorem State.voteFixed_groups  : (s.voteFixed).groups = s.groups := by
  simp only [State.voteFixed]; split <;> simp
@[simp] theorem State.voteFixed_jrn  : (s.voteFixed).jrn = s.jrn := by
  simp only [State.voteFixed]; split <;> simp
@[simp] theorem State.voteFixed_cmds  : (s.voteFixed).cmds = s.cmds := by
  simp only [State.voteFixed]; split <;> simp
@[simp] theorem State.voteFixed_work  : (s.voteFixed).work = s.work := by
  simp only [State.voteFixed]; split <;> simp
@[simp] theorem State.voteFixed_mem  : (s.voteFixed).mem = s.mem := by
  simp only [State.voteFixed]; split <;> simp
@[simp] theorem State.voteFixed_err  : (s.voteFixed).err = s.err := by
  simp only [State.voteFixed]; split <;> simp
@[simp] theorem State.voteFixed_pci  : (s.voteFixed).pci = s.pci := by
  simp only [State.voteFixed]; split <;> simp
@[simp] theorem State.voteFixed_chain  : (s.voteFixed).chain = s.chain := by
  simp only [State.voteFixed]; split <;> simp
@[simp] theorem State.voteFixed_pair  : (s.voteFixed).pair = s.pair := by
  simp only [State.voteFixed]; split <;> simp
@[simp] theorem State.voteFixed_sec  : (s.voteFixed).sec = s.sec := by
  simp only [State.voteFixed]; split <;> simp
@[simp] theorem State.voteFixed_pwr  : (s.voteFixed).pwr = s.pwr := by
  simp only [State.voteFixed]; split <;> simp
@[simp] theorem State.voteFixed_mgt  : (s.voteFixed).mgt = s.mgt := by
  simp only [State.voteFixed]; split <;> simp
@[simp] theorem State.voteFixed_present  : (s.voteFixed).present = s.present := by
  simp only [State.voteFixed]; split <;> simp
@[simp] theorem State.voteFixed_fit  : (s.voteFixed).fit = s.fit := by
  simp only [State.voteFixed]; split <;> simp
@[simp] theorem State.voteFixed_capture  : (s.voteFixed).capture = s.capture := by
  simp only [State.voteFixed]; split <;> simp
@[simp] theorem State.voteFixed_out  : (s.voteFixed).out = s.out := by
  simp only [State.voteFixed]; split <;> simp
@[simp] theorem State.voteFixed_pending  : (s.voteFixed).pending = s.pending := by
  simp only [State.voteFixed]; split <;> simp

@[simp] theorem State.dropShadow_now  : (s.dropShadow).now = s.now := rfl
@[simp] theorem State.dropShadow_free  : (s.dropShadow).free = s.free := rfl
@[simp] theorem State.dropShadow_glb  : (s.dropShadow).glb = s.glb := rfl
@[simp] theorem State.dropShadow_beat  : (s.dropShadow).beat = s.beat := rfl
@[simp] theorem State.dropShadow_qps  : (s.dropShadow).qps = s.qps := rfl
@[simp] theorem State.dropShadow_groups  : (s.dropShadow).groups = s.groups := rfl
@[simp] theorem State.dropShadow_jrn  : (s.dropShadow).jrn = s.jrn := rfl
@[simp] theorem State.dropShadow_mem  : (s.dropShadow).mem = s.mem := rfl
@[simp] theorem State.dropShadow_evc  : (s.dropShadow).evc = s.evc := rfl
@[simp] theorem State.dropShadow_err  : (s.dropShadow).err = s.err := rfl
@[simp] theorem State.dropShadow_pci  : (s.dropShadow).pci = s.pci := rfl
@[simp] theorem State.dropShadow_chain  : (s.dropShadow).chain = s.chain := rfl
@[simp] theorem State.dropShadow_pair  : (s.dropShadow).pair = s.pair := rfl
@[simp] theorem State.dropShadow_sec  : (s.dropShadow).sec = s.sec := rfl
@[simp] theorem State.dropShadow_pwr  : (s.dropShadow).pwr = s.pwr := rfl
@[simp] theorem State.dropShadow_mgt  : (s.dropShadow).mgt = s.mgt := rfl
@[simp] theorem State.dropShadow_present  : (s.dropShadow).present = s.present := rfl
@[simp] theorem State.dropShadow_fit  : (s.dropShadow).fit = s.fit := rfl
@[simp] theorem State.dropShadow_capture  : (s.dropShadow).capture = s.capture := rfl
@[simp] theorem State.dropShadow_out  : (s.dropShadow).out = s.out := rfl
@[simp] theorem State.dropShadow_pending  : (s.dropShadow).pending = s.pending := rfl

@[simp] theorem State.pairLeave_now  : (s.pairLeave).now = s.now := by
  simp [State.pairLeave]
@[simp] theorem State.pairLeave_free  : (s.pairLeave).free = s.free := by
  simp [State.pairLeave]
@[simp] theorem State.pairLeave_glb  : (s.pairLeave).glb = s.glb := by
  simp [State.pairLeave]
@[simp] theorem State.pairLeave_beat  : (s.pairLeave).beat = s.beat := by
  simp [State.pairLeave]
@[simp] theorem State.pairLeave_qps  : (s.pairLeave).qps = s.qps := by
  simp [State.pairLeave]
@[simp] theorem State.pairLeave_groups  : (s.pairLeave).groups = s.groups := by
  simp [State.pairLeave]
@[simp] theorem State.pairLeave_jrn  : (s.pairLeave).jrn = s.jrn := by
  simp [State.pairLeave]
@[simp] theorem State.pairLeave_err  : (s.pairLeave).err = s.err := by
  simp [State.pairLeave]
@[simp] theorem State.pairLeave_chain  : (s.pairLeave).chain = s.chain := by
  simp [State.pairLeave]
@[simp] theorem State.pairLeave_sec  : (s.pairLeave).sec = s.sec := by
  simp [State.pairLeave]
@[simp] theorem State.pairLeave_pwr  : (s.pairLeave).pwr = s.pwr := by
  simp [State.pairLeave]
@[simp] theorem State.pairLeave_mgt  : (s.pairLeave).mgt = s.mgt := by
  simp [State.pairLeave]
@[simp] theorem State.pairLeave_present  : (s.pairLeave).present = s.present := by
  simp [State.pairLeave]
@[simp] theorem State.pairLeave_fit  : (s.pairLeave).fit = s.fit := by
  simp [State.pairLeave]
@[simp] theorem State.pairLeave_capture  : (s.pairLeave).capture = s.capture := by
  simp [State.pairLeave]
@[simp] theorem State.pairLeave_pending  : (s.pairLeave).pending = s.pending := by
  simp [State.pairLeave]

@[simp] theorem State.pushRecord_now (r : ErrRec) : (s.pushRecord r).now = s.now := by
  simp only [State.pushRecord]; split <;> simp
@[simp] theorem State.pushRecord_free (r : ErrRec) : (s.pushRecord r).free = s.free := by
  simp only [State.pushRecord]; split <;> simp
@[simp] theorem State.pushRecord_glb (r : ErrRec) : (s.pushRecord r).glb = s.glb := by
  simp only [State.pushRecord]; split <;> simp
@[simp] theorem State.pushRecord_beat (r : ErrRec) : (s.pushRecord r).beat = s.beat := by
  simp only [State.pushRecord]; split <;> simp
@[simp] theorem State.pushRecord_qps (r : ErrRec) : (s.pushRecord r).qps = s.qps := by
  simp only [State.pushRecord]; split <;> simp
@[simp] theorem State.pushRecord_groups (r : ErrRec) : (s.pushRecord r).groups = s.groups := by
  simp only [State.pushRecord]; split <;> simp
@[simp] theorem State.pushRecord_jrn (r : ErrRec) : (s.pushRecord r).jrn = s.jrn := by
  simp only [State.pushRecord]; split <;> simp
@[simp] theorem State.pushRecord_cmds (r : ErrRec) : (s.pushRecord r).cmds = s.cmds := by
  simp only [State.pushRecord]; split <;> simp
@[simp] theorem State.pushRecord_work (r : ErrRec) : (s.pushRecord r).work = s.work := by
  simp only [State.pushRecord]; split <;> simp
@[simp] theorem State.pushRecord_chain (r : ErrRec) : (s.pushRecord r).chain = s.chain := by
  simp only [State.pushRecord]; split <;> simp
@[simp] theorem State.pushRecord_pair (r : ErrRec) : (s.pushRecord r).pair = s.pair := by
  simp only [State.pushRecord]; split <;> simp
@[simp] theorem State.pushRecord_sec (r : ErrRec) : (s.pushRecord r).sec = s.sec := by
  simp only [State.pushRecord]; split <;> simp
@[simp] theorem State.pushRecord_pwr (r : ErrRec) : (s.pushRecord r).pwr = s.pwr := by
  simp only [State.pushRecord]; split <;> simp
@[simp] theorem State.pushRecord_mgt (r : ErrRec) : (s.pushRecord r).mgt = s.mgt := by
  simp only [State.pushRecord]; split <;> simp
@[simp] theorem State.pushRecord_present (r : ErrRec) : (s.pushRecord r).present = s.present := by
  simp only [State.pushRecord]; split <;> simp
@[simp] theorem State.pushRecord_fit (r : ErrRec) : (s.pushRecord r).fit = s.fit := by
  simp only [State.pushRecord]; split <;> simp
@[simp] theorem State.pushRecord_capture (r : ErrRec) : (s.pushRecord r).capture = s.capture := by
  simp only [State.pushRecord]; split <;> simp
@[simp] theorem State.pushRecord_pending (r : ErrRec) : (s.pushRecord r).pending = s.pending := by
  simp only [State.pushRecord]; split <;> simp

@[simp] theorem State.setOutcome_now (n : Nat) (f : ErrRec → ErrRec) : (s.setOutcome n f).now = s.now := by
  simp only [State.setOutcome]; split
  · rfl
  · split <;> simp
@[simp] theorem State.setOutcome_free (n : Nat) (f : ErrRec → ErrRec) : (s.setOutcome n f).free = s.free := by
  simp only [State.setOutcome]; split
  · rfl
  · split <;> simp
@[simp] theorem State.setOutcome_glb (n : Nat) (f : ErrRec → ErrRec) : (s.setOutcome n f).glb = s.glb := by
  simp only [State.setOutcome]; split
  · rfl
  · split <;> simp
@[simp] theorem State.setOutcome_beat (n : Nat) (f : ErrRec → ErrRec) : (s.setOutcome n f).beat = s.beat := by
  simp only [State.setOutcome]; split
  · rfl
  · split <;> simp
@[simp] theorem State.setOutcome_qps (n : Nat) (f : ErrRec → ErrRec) : (s.setOutcome n f).qps = s.qps := by
  simp only [State.setOutcome]; split
  · rfl
  · split <;> simp
@[simp] theorem State.setOutcome_groups (n : Nat) (f : ErrRec → ErrRec) : (s.setOutcome n f).groups = s.groups := by
  simp only [State.setOutcome]; split
  · rfl
  · split <;> simp
@[simp] theorem State.setOutcome_jrn (n : Nat) (f : ErrRec → ErrRec) : (s.setOutcome n f).jrn = s.jrn := by
  simp only [State.setOutcome]; split
  · rfl
  · split <;> simp
@[simp] theorem State.setOutcome_cmds (n : Nat) (f : ErrRec → ErrRec) : (s.setOutcome n f).cmds = s.cmds := by
  simp only [State.setOutcome]; split
  · rfl
  · split <;> simp
@[simp] theorem State.setOutcome_work (n : Nat) (f : ErrRec → ErrRec) : (s.setOutcome n f).work = s.work := by
  simp only [State.setOutcome]; split
  · rfl
  · split <;> simp
@[simp] theorem State.setOutcome_mem (n : Nat) (f : ErrRec → ErrRec) : (s.setOutcome n f).mem = s.mem := by
  simp only [State.setOutcome]; split
  · rfl
  · split <;> simp
@[simp] theorem State.setOutcome_evc (n : Nat) (f : ErrRec → ErrRec) : (s.setOutcome n f).evc = s.evc := by
  simp only [State.setOutcome]; split
  · rfl
  · split <;> simp
@[simp] theorem State.setOutcome_pci (n : Nat) (f : ErrRec → ErrRec) : (s.setOutcome n f).pci = s.pci := by
  simp only [State.setOutcome]; split
  · rfl
  · split <;> simp
@[simp] theorem State.setOutcome_chain (n : Nat) (f : ErrRec → ErrRec) : (s.setOutcome n f).chain = s.chain := by
  simp only [State.setOutcome]; split
  · rfl
  · split <;> simp
@[simp] theorem State.setOutcome_pair (n : Nat) (f : ErrRec → ErrRec) : (s.setOutcome n f).pair = s.pair := by
  simp only [State.setOutcome]; split
  · rfl
  · split <;> simp
@[simp] theorem State.setOutcome_sec (n : Nat) (f : ErrRec → ErrRec) : (s.setOutcome n f).sec = s.sec := by
  simp only [State.setOutcome]; split
  · rfl
  · split <;> simp
@[simp] theorem State.setOutcome_pwr (n : Nat) (f : ErrRec → ErrRec) : (s.setOutcome n f).pwr = s.pwr := by
  simp only [State.setOutcome]; split
  · rfl
  · split <;> simp
@[simp] theorem State.setOutcome_mgt (n : Nat) (f : ErrRec → ErrRec) : (s.setOutcome n f).mgt = s.mgt := by
  simp only [State.setOutcome]; split
  · rfl
  · split <;> simp
@[simp] theorem State.setOutcome_present (n : Nat) (f : ErrRec → ErrRec) : (s.setOutcome n f).present = s.present := by
  simp only [State.setOutcome]; split
  · rfl
  · split <;> simp
@[simp] theorem State.setOutcome_fit (n : Nat) (f : ErrRec → ErrRec) : (s.setOutcome n f).fit = s.fit := by
  simp only [State.setOutcome]; split
  · rfl
  · split <;> simp
@[simp] theorem State.setOutcome_capture (n : Nat) (f : ErrRec → ErrRec) : (s.setOutcome n f).capture = s.capture := by
  simp only [State.setOutcome]; split
  · rfl
  · split <;> simp
@[simp] theorem State.setOutcome_pending (n : Nat) (f : ErrRec → ErrRec) : (s.setOutcome n f).pending = s.pending := by
  simp only [State.setOutcome]; split
  · rfl
  · split <;> simp

@[simp] theorem State.enterFailed_now (n : Nat) : (s.enterFailed n).now = s.now := by
  simp only [State.enterFailed]; split
  · rfl
  · split
    · simp
    · split <;> simp
@[simp] theorem State.enterFailed_free (n : Nat) : (s.enterFailed n).free = s.free := by
  simp only [State.enterFailed]; split
  · rfl
  · split
    · simp
    · split <;> simp
@[simp] theorem State.enterFailed_glb (n : Nat) : (s.enterFailed n).glb = s.glb := by
  simp only [State.enterFailed]; split
  · rfl
  · split
    · simp
    · split <;> simp
@[simp] theorem State.enterFailed_beat (n : Nat) : (s.enterFailed n).beat = s.beat := by
  simp only [State.enterFailed]; split
  · rfl
  · split
    · simp
    · split <;> simp
@[simp] theorem State.enterFailed_qps (n : Nat) : (s.enterFailed n).qps = s.qps := by
  simp only [State.enterFailed]; split
  · rfl
  · split
    · simp
    · split <;> simp
@[simp] theorem State.enterFailed_groups (n : Nat) : (s.enterFailed n).groups = s.groups := by
  simp only [State.enterFailed]; split
  · rfl
  · split
    · simp
    · split <;> simp
@[simp] theorem State.enterFailed_jrn (n : Nat) : (s.enterFailed n).jrn = s.jrn := by
  simp only [State.enterFailed]; split
  · rfl
  · split
    · simp
    · split <;> simp
@[simp] theorem State.enterFailed_chain (n : Nat) : (s.enterFailed n).chain = s.chain := by
  simp only [State.enterFailed]; split
  · rfl
  · split
    · simp
    · split <;> simp
@[simp] theorem State.enterFailed_sec (n : Nat) : (s.enterFailed n).sec = s.sec := by
  simp only [State.enterFailed]; split
  · rfl
  · split
    · simp
    · split <;> simp
@[simp] theorem State.enterFailed_pwr (n : Nat) : (s.enterFailed n).pwr = s.pwr := by
  simp only [State.enterFailed]; split
  · rfl
  · split
    · simp
    · split <;> simp
@[simp] theorem State.enterFailed_mgt (n : Nat) : (s.enterFailed n).mgt = s.mgt := by
  simp only [State.enterFailed]; split
  · rfl
  · split
    · simp
    · split <;> simp
@[simp] theorem State.enterFailed_present (n : Nat) : (s.enterFailed n).present = s.present := by
  simp only [State.enterFailed]; split
  · rfl
  · split
    · simp
    · split <;> simp
@[simp] theorem State.enterFailed_fit (n : Nat) : (s.enterFailed n).fit = s.fit := by
  simp only [State.enterFailed]; split
  · rfl
  · split
    · simp
    · split <;> simp
@[simp] theorem State.enterFailed_capture (n : Nat) : (s.enterFailed n).capture = s.capture := by
  simp only [State.enterFailed]; split
  · rfl
  · split
    · simp
    · split <;> simp
@[simp] theorem State.enterFailed_pending (n : Nat) : (s.enterFailed n).pending = s.pending := by
  simp only [State.enterFailed]; split
  · rfl
  · split
    · simp
    · split <;> simp

@[simp] theorem State.detectError_now (k i c d : Nat) (j : Bool) : (s.detectError k i c d j).now = s.now := by
  simp only [State.detectError]; split
  · rfl
  · split <;> split <;> simp
@[simp] theorem State.detectError_free (k i c d : Nat) (j : Bool) : (s.detectError k i c d j).free = s.free := by
  simp only [State.detectError]; split
  · rfl
  · split <;> split <;> simp
@[simp] theorem State.detectError_glb (k i c d : Nat) (j : Bool) : (s.detectError k i c d j).glb = s.glb := by
  simp only [State.detectError]; split
  · rfl
  · split <;> split <;> simp
@[simp] theorem State.detectError_beat (k i c d : Nat) (j : Bool) : (s.detectError k i c d j).beat = s.beat := by
  simp only [State.detectError]; split
  · rfl
  · split <;> split <;> simp
@[simp] theorem State.detectError_qps (k i c d : Nat) (j : Bool) : (s.detectError k i c d j).qps = s.qps := by
  simp only [State.detectError]; split
  · rfl
  · split <;> split <;> simp
@[simp] theorem State.detectError_groups (k i c d : Nat) (j : Bool) : (s.detectError k i c d j).groups = s.groups := by
  simp only [State.detectError]; split
  · rfl
  · split <;> split <;> simp
@[simp] theorem State.detectError_jrn (k i c d : Nat) (j : Bool) : (s.detectError k i c d j).jrn = s.jrn := by
  simp only [State.detectError]; split
  · rfl
  · split <;> split <;> simp
@[simp] theorem State.detectError_chain (k i c d : Nat) (j : Bool) : (s.detectError k i c d j).chain = s.chain := by
  simp only [State.detectError]; split
  · rfl
  · split <;> split <;> simp
@[simp] theorem State.detectError_sec (k i c d : Nat) (j : Bool) : (s.detectError k i c d j).sec = s.sec := by
  simp only [State.detectError]; split
  · rfl
  · split <;> split <;> simp
@[simp] theorem State.detectError_pwr (k i c d : Nat) (j : Bool) : (s.detectError k i c d j).pwr = s.pwr := by
  simp only [State.detectError]; split
  · rfl
  · split <;> split <;> simp
@[simp] theorem State.detectError_mgt (k i c d : Nat) (j : Bool) : (s.detectError k i c d j).mgt = s.mgt := by
  simp only [State.detectError]; split
  · rfl
  · split <;> split <;> simp
@[simp] theorem State.detectError_present (k i c d : Nat) (j : Bool) : (s.detectError k i c d j).present = s.present := by
  simp only [State.detectError]; split
  · rfl
  · split <;> split <;> simp
@[simp] theorem State.detectError_fit (k i c d : Nat) (j : Bool) : (s.detectError k i c d j).fit = s.fit := by
  simp only [State.detectError]; split
  · rfl
  · split <;> split <;> simp
@[simp] theorem State.detectError_capture (k i c d : Nat) (j : Bool) : (s.detectError k i c d j).capture = s.capture := by
  simp only [State.detectError]; split
  · rfl
  · split <;> split <;> simp
@[simp] theorem State.detectError_pending (k i c d : Nat) (j : Bool) : (s.detectError k i c d j).pending = s.pending := by
  simp only [State.detectError]; split
  · rfl
  · split <;> split <;> simp

end Sys2Proof.Machine
end

