-- ==== Sys2Proof/Laws/Lanes.lean ====
section
/-! SUPPORT. The laws of the engine's registers: what a lane reads after a write, what a written word leaves alone, and what one
issued word does to the rest of the state. -/

namespace Sys2Proof.Machine

theorem pow256_mul (s i : Nat) : (2 : Nat) ^ (8 * s * (i + 1)) = 2 ^ (8 * s) * 2 ^ (8 * s * i) := by
  rw [← pow_add]; congr 1; ring

theorem joinLanes_lt (s : Nat) (l : List Nat) : joinLanes s l < 2 ^ (8 * s * l.length) := by
  induction l with
  | nil => simp [joinLanes]
  | cons v vs ih =>
    simp only [joinLanes, List.length_cons, pow256_mul]
    have h : v % 2 ^ (8 * s) < 2 ^ (8 * s) := Nat.mod_lt _ (by positivity)
    calc v % 2 ^ (8 * s) + 2 ^ (8 * s) * joinLanes s vs < 2 ^ (8 * s) + 2 ^ (8 * s) * joinLanes s vs := by omega
      _ = 2 ^ (8 * s) * (joinLanes s vs + 1) := by ring
      _ ≤ 2 ^ (8 * s) * 2 ^ (8 * s * vs.length) := Nat.mul_le_mul_left _ ih

theorem joinLanes_get (s : Nat) (l : List Nat) : ∀ i, i < l.length → joinLanes s l / 2 ^ (8 * s * i) % 2 ^ (8 * s) = l.getD i 0 % 2 ^ (8 * s) := by
  induction l with
  | nil => intro i h; simp at h
  | cons v vs ih =>
    intro i h
    cases i with
    | zero => simp [joinLanes]
    | succ i =>
      rw [pow256_mul, ← Nat.div_div_eq_div_mul]
      have h1 : joinLanes s (v :: vs) / 2 ^ (8 * s) = joinLanes s vs := by
        simp only [joinLanes]
        rw [Nat.add_mul_div_left _ _ (by positivity), Nat.div_eq_of_lt (Nat.mod_lt _ (by positivity)), Nat.zero_add]
      rw [h1, ih i (by simpa using h)]
      rfl

theorem joinBits_lt (l : List Bool) : joinBits l < 2 ^ l.length := by
  induction l with
  | nil => simp [joinBits]
  | cons b bs ih =>
    simp only [joinBits, List.length_cons, pow_succ]
    cases b <;> simp [b2n] <;> omega

theorem joinBits_get (l : List Bool) : ∀ i, bitOf (joinBits l) i = l.getD i false := by
  induction l with
  | nil => intro i; simp [joinBits, bitOf]
  | cons b bs ih =>
    intro i
    cases i with
    | zero => cases b <;> simp [joinBits, bitOf, b2n, Nat.add_mod]
    | succ i =>
      have h1 : joinBits (b :: bs) / 2 = joinBits bs := by
        cases b <;> simp [joinBits, b2n] <;> omega
      have h2 : bitOf (joinBits (b :: bs)) (i + 1) = bitOf (joinBits (b :: bs) / 2) i := by
        simp only [bitOf]; rw [pow_succ', ← Nat.div_div_eq_div_mul]
      rw [h2, h1, ih i]; rfl

/-- A lane of a register built of lanes that fill it at most. -/
theorem laneOf_join (s : Nat) (l : List Nat) (i : Nat) (h : i < l.length) (hs : 8 * s * l.length ≤ 256) :
    laneOf s (BitVec.ofNat 256 (joinLanes s l)) i = l.getD i 0 % 2 ^ (8 * s) := by
  have h1 : joinLanes s l < 2 ^ 256 := lt_of_lt_of_le (joinLanes_lt s l) (Nat.pow_le_pow_right (by omega) hs)
  simp only [laneOf, BitVec.toNat_ofNat, Nat.mod_eq_of_lt h1]
  exact joinLanes_get s l i h

/-- A bit of a mask or validity word built of at most 32 bits. -/
theorem bitOf_join (l : List Bool) (i : Nat) (hs : l.length ≤ 32) : bitOf (BitVec.ofNat 32 (joinBits l)).toNat i = l.getD i false := by
  have h1 : joinBits l < 2 ^ 32 := lt_of_lt_of_le (joinBits_lt l) (Nat.pow_le_pow_right (by omega) hs)
  simp only [BitVec.toNat_ofNat, Nat.mod_eq_of_lt h1]
  exact joinBits_get l i

section regs

variable (e : Engine) (f : Fields) (s : Nat)

@[simp] theorem Engine.setReg_reg_same (j d v : Nat) : (e.setReg j d v).reg j = BitVec.ofNat 256 d := by simp [Engine.setReg, Engine.reg]
theorem Engine.setReg_reg_ne {j k : Nat} (d v : Nat) (h : k ≠ j) : (e.setReg j d v).reg k = e.reg k :=
  tget_tset_ne _ _ _ h
@[simp] theorem Engine.setReg_valid_same (j d v : Nat) : tget 0 (e.setReg j d v).valid j = BitVec.ofNat 32 v := by simp [Engine.setReg]
theorem Engine.setReg_valid_ne {j k : Nat} (d v : Nat) (h : k ≠ j) : tget 0 (e.setReg j d v).valid k = tget 0 e.valid k :=
  tget_tset_ne _ _ _ h
@[simp] theorem Engine.raise_reg (fl j : Nat) : (e.raise fl).reg j = e.reg j := rfl
@[simp] theorem Engine.raise_valid (fl : Nat) : (e.raise fl).valid = e.valid := rfl
@[simp] theorem Engine.raise_k (fl : Nat) : (e.raise fl).k = e.k := rfl
@[simp] theorem Engine.setReg_k (j d v : Nat) : (e.setReg j d v).k = e.k := rfl
@[simp] theorem Engine.setReg_loops (j d v : Nat) : (e.setReg j d v).loops = e.loops := rfl
@[simp] theorem Engine.setReg_cursor (j d v : Nat) : (e.setReg j d v).cursor = e.cursor := rfl
@[simp] theorem Engine.setK_v (m b : Nat) : (e.setK m b).v = e.v := by unfold Engine.setK; split <;> rfl
@[simp] theorem Engine.setK_valid (m b : Nat) : (e.setK m b).valid = e.valid := by unfold Engine.setK; split <;> rfl

theorem Engine.src_lane (j i : Nat) : e.src s j i = if (e.lane s j i).1 then some (e.lane s j i).2 else none := rfl

/-- A lane of a register after all of its lanes were written: its new validity, its new data cut to the lane's width. -/
theorem Engine.lane_putLanes (j : Nat) (p : Nat → Bool × Nat) {i : Nat} (hi : i < 32 / s) :
    (e.putLanes j s p).lane s j i = ((p i).1, (p i).2 % 2 ^ (8 * s)) := by
  have hs : s * (32 / s) ≤ 32 := Nat.mul_div_le 32 s
  have hl : 32 / s ≤ 32 := Nat.div_le_self 32 s
  have h256 : 8 * s * (32 / s) ≤ 256 := by
    calc 8 * s * (32 / s) = 8 * (s * (32 / s)) := by ring
      _ ≤ 8 * 32 := Nat.mul_le_mul_left 8 hs
      _ = 256 := by norm_num
  simp only [Engine.putLanes, Engine.lane, Engine.isValid, Engine.setReg_valid_same, Engine.setReg_reg_same]
  rw [bitOf_join _ _ (by simpa using hl), laneOf_join _ _ _ (by simpa using hi) (by simpa using h256)]
  simp [List.getD_eq_getElem?_getD, List.getElem?_map, List.getElem?_range hi]

/-- A lane of VD after a word (R135, R136). -/
theorem Engine.lane_writeLanes (g : Nat → LaneRes) {i : Nat} (hi : i < 32 / s) :
    (e.writeLanes f s g).lane s f.vd.val i = ((e.masked f s g i).1, (e.masked f s g i).2 % 2 ^ (8 * s)) :=
  Engine.lane_putLanes e s f.vd.val _ hi

/-- An executed lane of VD after a word. -/
theorem Engine.src_writeLanes_on (g : Nat → LaneRes) {i : Nat} (hi : i < 32 / s) (hm : e.on f.mask.val i = true) :
    (e.writeLanes f s g).src s f.vd.val i = (g i).1.map fun v => v % 2 ^ (8 * s) := by
  rw [Engine.src_lane, Engine.lane_writeLanes e f s g hi]
  simp only [Engine.masked, hm, if_true, LaneRes.take]
  cases (g i).1 <;> simp

/-- A word that writes lanes leaves the other data registers alone. -/
theorem Engine.writeLanes_reg_ne (g : Nat → LaneRes) {j : Nat} (h : j ≠ f.vd.val) :
    (e.writeLanes f s g).reg j = e.reg j ∧ tget 0 (e.writeLanes f s g).valid j = tget 0 e.valid j := by
  simp only [Engine.writeLanes, Engine.putLanes]
  rw [Engine.raise_reg, Engine.raise_valid, Engine.setReg_reg_ne _ _ _ h, Engine.setReg_valid_ne _ _ _ h]
  exact ⟨rfl, rfl⟩

@[simp] theorem Engine.writeLanes_k (g : Nat → LaneRes) : (e.writeLanes f s g).k = e.k := rfl

/-- Every flag that a lane raises is in the union. -/
theorem land_orFlags (l : List Nat) : ∀ x ∈ l, Nat.land (orFlags l) x = x := by
  have gen : ∀ (l : List Nat) (a x : Nat), (Nat.land a x = x ∨ x ∈ l) → Nat.land (l.foldl Nat.lor a) x = x := by
    intro l
    induction l with
    | nil => intro a x h; rcases h with h | h
             · exact h
             · cases h
    | cons y ys ih =>
      intro a x h
      apply ih
      rcases h with h | h
      · left
        apply Nat.eq_of_testBit_eq; intro i
        have := congrArg (fun n => Nat.testBit n i) h
        change ((a ||| y) &&& x).testBit i = x.testBit i
        change (a &&& x).testBit i = x.testBit i at this
        simp only [Nat.testBit_and, Nat.testBit_or] at this ⊢
        revert this; cases a.testBit i <;> cases y.testBit i <;> cases x.testBit i <;> simp
      · rcases List.mem_cons.mp h with h | h
        · left; subst h
          apply Nat.eq_of_testBit_eq; intro i
          change ((a ||| x) &&& x).testBit i = x.testBit i
          simp only [Nat.testBit_and, Nat.testBit_or]
          cases a.testBit i <;> cases x.testBit i <;> rfl
        · right; exact h
  intro x h; exact gen l 0 x (Or.inr h)

end regs

section issue

variable (s : State) (id : EngineId) (op : Nat) (f : Fields)

/-- Taking an engine's flags into its core changes no engine. -/
@[simp] theorem State.coreFlags_engine (c fl n : Nat) : (s.coreFlags c fl).engine n = s.engine n := by
  simp only [State.coreFlags]; split <;> simp [State.engine]

@[simp] theorem State.modEngine_engine_same (n : Nat) (g : Engine → Engine) : (s.modEngine n g).engine n = g (s.engine n) := by
  simp [State.engine]
theorem State.modEngine_engine_ne {n m : Nat} (g : Engine → Engine) (h : m ≠ n) : (s.modEngine n g).engine m = s.engine m := by
  simp [State.engine, tget_tmod_ne _ _ _ h]
@[simp] theorem State.modCore_engine (c n : Nat) (g : Core → Core) : (s.modCore c g).engine n = s.engine n := by
  simp [State.engine]

@[simp] theorem nextWord_reg (cx : Option ProgCtx) (e : Engine) (w : Nat) : (nextWord cx e w).v = e.v := by
  unfold nextWord; dsimp only; split
  · rfl
  · split
    · rfl
    · split <;> rfl
@[simp] theorem nextWord_valid (cx : Option ProgCtx) (e : Engine) (w : Nat) : (nextWord cx e w).valid = e.valid := by
  unfold nextWord; dsimp only; split
  · rfl
  · split
    · rfl
    · split <;> rfl
@[simp] theorem nextWord_k (cx : Option ProgCtx) (e : Engine) (w : Nat) : (nextWord cx e w).k = e.k := by
  unfold nextWord; dsimp only; split
  · rfl
  · split
    · rfl
    · split <;> rfl
@[simp] theorem nextWord_flags (cx : Option ProgCtx) (e : Engine) (w : Nat) : (nextWord cx e w).flags = e.flags := by
  unfold nextWord; dsimp only; split
  · rfl
  · split
    · rfl
    · split <;> rfl
@[simp] theorem nextWord_stopped (cx : Option ProgCtx) (e : Engine) (w : Nat) : (nextWord cx e w).stopped = e.stopped := by
  unfold nextWord; dsimp only; split
  · rfl
  · split
    · rfl
    · split <;> rfl

/-- The engine after an issued word (the next word of its program, `State.issues`): the body's registers, its flags beside the earlier ones. -/
theorem State.issue_engine (body : Engine → Engine) (h : s.issues id op f = true) :
    let e := s.engine (engineNo id)
    let e1 := body { e with flags := 0 }
    (s.issue op id f body).engine (engineNo id) =
      nextWord (s.core (coreNo id)).ctx { e1 with flags := Nat.lor e.flags e1.flags } (e.word + 1) := by
  simp [State.issue, h]

/-- An issued word changes one engine, its core's flags and word count, and what a post of the core's flag event changes. -/
theorem State.issue_frame (body : Engine → Engine) :
    (∀ n, n ≠ engineNo id → (s.issue op id f body).engine n = s.engine n) ∧
    (s.issue op id f body).mem.hbm = s.mem.hbm ∧ (s.issue op id f body).mem.bus = s.mem.bus ∧ (s.issue op id f body).work.stores = s.work.stores ∧
    (∀ c, ((s.issue op id f body).core c).store = (s.core c).store) ∧ (s.issue op id f body).pending = s.pending := by
  have hp : ∀ (t : State) (n : Nat), (t.postEvent n).mem.hbm = t.mem.hbm ∧ (t.postEvent n).mem.bus = t.mem.bus := by
    intro t n
    simp only [State.postEvent, State.eventMessage, State.sendMsix, State.sendPme]
    repeat' split
    all_goals simp
  simp only [State.issue]
  split
  · simp
  · simp only [State.coreFlags]
    refine ⟨?_, ?_, ?_, ?_, ?_, ?_⟩
    · intro n h
      split <;> simp [State.engine, tget_tmod_ne _ _ _ h]
    · split <;> simp [hp]
    · split <;> simp [hp]
    · split <;> simp
    · intro c
      have hc : ∀ (t : State) (b : Nat) (g : Core → Core), (∀ k, (g k).store = k.store) → ((t.modCore b g).core c).store = (t.core c).store := by
        intro t b g hg
        by_cases hb : c = b
        · subst hb; simp [State.core, hg]
        · simp [State.core, tget_tmod_ne _ _ _ hb]
      have hq : ∀ (t : State) (n : Nat), ((t.postEvent n).core c) = t.core c := by intro t n; simp [State.core]
      split
      · rw [hq, hc]
        · simp [State.core]
        · intro k; rfl
      · rw [hc]
        · simp [State.core]
        · intro k; rfl
    · split <;> simp

end issue

end Sys2Proof.Machine
end

