-- ==== Sys2Proof/Tests/Slice0.lean ====
section
/-! SUPPORT. Small tests of the model, the refusals of the well-formedness checks, and for every statement with hypotheses
a named witness that meets them all. -/

namespace Sys2Proof.Tests

set_option Elab.async false

open Sys2Proof Sys2Proof.Machine

/-- A small QXG image for the tests: one stream, one HASH_BUCKET template on one cluster, one variant, one output. -/
def qTpl : Bytes :=
  leBytes 4 1 ++ leBytes 12 0 ++
    (leBytes 4 (3 + 256 * 1) ++ leBytes 2 0 ++ leBytes 2 0 ++ leBytes 1 0 ++ leBytes 1 0 ++ leBytes 2 0xFFFF ++ leBytes 1 0xFF ++ leBytes 3 0 ++
      leBytes 8 0 ++ leBytes 8 1 ++ leBytes 8 5 ++ leBytes 8 80 ++ leBytes 4 56 ++ leBytes 2 2 ++ leBytes 10 0) ++
    [8, 0, 0, 0, 1, 0x0701, 0x0702].flatMap (leBytes 8)

/-- Variant 0: one cluster, one core; due tick 0, k 1, lead 1, 2 rows; two slots and the one placement entry. -/
def qVar : Bytes :=
  leBytes 1 1 ++ leBytes 1 1 ++ leBytes 2 1 ++ leBytes 2 1 ++ leBytes 1 0 ++ leBytes 1 1 ++ leBytes 24 0 ++
    (leBytes 2 0 ++ leBytes 2 0 ++ leBytes 4 1 ++ leBytes 4 1 ++ leBytes 4 2) ++
    (leBytes 4 1 ++ leBytes 2 2 ++ leBytes 10 0) ++
    (leBytes 1 0 ++ leBytes 3 1 ++ leBytes 4 0 ++ leBytes 4 64 ++ leBytes 4 0) ++ (leBytes 1 0 ++ leBytes 3 2 ++ leBytes 4 64 ++ leBytes 4 64 ++ leBytes 4 0) ++
    (leBytes 6 0 ++ leBytes 2 0xFFFF ++ leBytes 8 0 ++ leBytes 4 1 ++ leBytes 12 0)

/-- One stream intake record: SEQUENTIAL, every limit at a value in its range. -/
def qInt : Bytes :=
  leBytes 16 1 ++ (leBytes 8 0 ++ leBytes 4 8 ++ leBytes 4 1 ++ leBytes 4 1 ++ leBytes 4 1 ++ leBytes 4 0 ++ leBytes 4 0 ++ leBytes 4 1 ++ leBytes 4 1 ++
    leBytes 2 1 ++ leBytes 2 1 ++ leBytes 4 1 ++ leBytes 80 0)

/-- One VOID_REASON output. -/
def qOut : Bytes :=
  leBytes 16 1 ++ (leBytes 1 0 ++ leBytes 1 1 ++ leBytes 1 3 ++ leBytes 1 1 ++ leBytes 4 0 ++ leBytes 8 0 ++ leBytes 8 1 ++ leBytes 4 1 ++ leBytes 36 0)

/-- The image of four sections at 64-byte steps behind header and table. -/
def qImage : Bytes :=
  let ss : List (Nat × Bytes) := [(2, qTpl), (4, qVar), (5, qInt), (9, qOut)]
  let pad := fun b : Bytes => b ++ List.replicate ((64 - b.length % 64) % 64) 0#8
  let offs := (ss.foldl (fun (a : Nat × List Nat) p => (a.1 + (pad p.2).length, a.2 ++ [a.1])) (256, [])).2
  let tab := (ss.zip offs).flatMap fun p => leBytes 2 p.1.1 ++ leBytes 2 1 ++ leBytes 4 0 ++ leBytes 8 p.2 ++ leBytes 8 p.1.2.length ++
    leBytes 4 (crc32c p.1.2) ++ leBytes 4 0
  let body := ss.flatMap fun p => pad p.2
  leBytes 4 0x1A475851 ++ leBytes 2 1 ++ leBytes 2 0 ++ leBytes 4 128 ++ leBytes 4 4 ++ leBytes 8 (256 + body.length) ++ leBytes 8 77 ++
    leBytes 4 0 ++ leBytes 2 1 ++ leBytes 2 1 ++ leBytes 8 50000 ++ leBytes 2 1200 ++ leBytes 2 1 ++ leBytes 4 128 ++
    sha384 (ss.flatMap fun p => p.2) ++ leBytes 24 0 ++ tab ++ body

/-- The graph of that image. -/
def qGraph : Graph := graphOf qImage (parseHead qImage) { id := 1, opcode := 3, flags := 0, stream := 0, rsvd := 0, addr0 := 0, len0 := 0, params := [] }

/-- One cluster, one core, one pseudo-channel and the links in service. -/
def one : Present := { cores := 1, clusters := 1, pchans := 1, lanes := 1, pcie := 0xFFFF, rolog := 0 }

/-- A graph without sections. -/
def bareGraph : Graph :=
  { id := 9, major := 1, minor := 0, minPeriod := 50000, minClock := 1200, streams := 1, phases := 1, sections := [], image := []
    entry := { id := 1, opcode := 3, flags := 0, stream := 0, rsvd := 0, addr0 := 0, len0 := 0, params := [] }, variant := 0, digest := [], phase := 0, swapDue := none, switchDue := false }

/-- The task of a program of the words given, on one engine, with two tiles and one address stream of a mode. -/
def taskOf (mode : Nat) (body : List Nat) : ProgCtx :=
  { prog := 0, body := body, engines := 1, descs := [{ base := 64, step := 32, stride := 32, mode := mode, esize := 0 }]
    slot := 0, hop := 0, tileBase := 0, tiles := 2, pfDst := 0, pfLen := 0, seed := 0, epoch := 0, stream := 0, batch := 0 }

/-- Engine 0 with registers and valid lanes, about to issue the word of opcode `op` and fields `f`. -/
def eng (op : Nat) (f : Fields) (v : Tab (BitVec 256)) (ok : Tab (BitVec 32)) (k : Tab (BitVec 32)) : State :=
  { work := { cores := [(0, { ctx := some (taskOf 0 [encodeFields op f]) })], engines := [(0, { v := v, valid := ok, k := k })] } }

/-- Engine 0. -/
def e0 : EngineId := { cluster := 0, core := 0, engine := 0 }

/-- VD 1, VA 2, VB 3, VC 4 of a type under K0. -/
def fd (ty : Fin 256) : Fields :=
  { ty := ty, vd := 1, va := 2, vb := 3, vc := 4, mask := 0, mz := false, rnd := 0, sat := false, sub := 0, imm := 0 }

/-- A state that issues the parts of a command has it as its next word: the witnesses below give the former for every opcode of a statement. -/
theorem nextWord_of {c : Instr} {s : State} {op : Nat} {f : Fields} (h : wordParts c = some (op, e0, f)) (hi : s.issues e0 op f = true) :
    NextWord c s := ⟨op, e0, f, h, hi⟩

/-- The program of the tests: three words, of which word `word` has opcode `op` and fields `f`. -/
def progCx (mode word op : Nat) (f : Fields) : ProgCtx := taskOf mode ((List.replicate 3 0).set word (encodeFields op f))

/-- Engine 0 about to issue word `word` of that program, two tiles, stream 0 of a mode at byte `a`. -/
def prog (mode : Nat) (a : Int) (word : Nat) (loops : List (Nat × Nat)) (op : Nat) (f : Fields) : State :=
  { work := {
      cores := [(0, { ctx := some (progCx mode word op f) })]
      engines := [(0, { word := word, loops := loops, cursor := [(0, 8 * a)], valid := [(1, 0xFFFFFFFF)] })] } }

/-- A small graph for the dispatch tests: stream 0 with a core template without flow, and one whose segment goes to flow 0 and whose
completion arrives at Weir instance 0; a program of one NOP. -/
def tTpl (flow : Nat) (weir : Nat) : Bytes :=
  leBytes 4 (1 + 65536 * 3) ++ leBytes 2 0 ++ leBytes 2 0 ++ leBytes 2 0 ++ leBytes 2 flow ++ leBytes 1 weir ++ leBytes 3 0 ++
    leBytes 8 1 ++ leBytes 8 2 ++ leBytes 8 0 ++ leBytes 8 0 ++ leBytes 8 0 ++ leBytes 8 0

/-- Its sections. -/
def tGraph : Graph :=
  { bareGraph with sections := [
      { ty := 1, index := 0, data := leBytes 16 1 ++ leBytes 8 32 ++ leBytes 8 24 ++ leBytes 4 1 ++ leBytes 4 256 ++ leBytes 16 0 },
      { ty := 2, index := 0, data := leBytes 16 2 ++ tTpl 0xFFFF 0xFF ++ tTpl 0 0 },
      { ty := 4, index := 0, data :=
          leBytes 1 1 ++ leBytes 1 1 ++ leBytes 2 1 ++ leBytes 2 1 ++ leBytes 1 0 ++ leBytes 1 1 ++ leBytes 24 0 ++
          (leBytes 4 0 ++ leBytes 4 1 ++ leBytes 4 1 ++ leBytes 4 2) ++
          (leBytes 4 2 ++ leBytes 2 1 ++ leBytes 2 1 ++ leBytes 2 1 ++ leBytes 6 0) ++
          (leBytes 4 0 ++ leBytes 4 64 ++ leBytes 8 4) ++
          (leBytes 4 0 ++ leBytes 2 1 ++ leBytes 2 1 ++ leBytes 8 5) ++
          (leBytes 4 0 ++ leBytes 2 1 ++ leBytes 2 1 ++ leBytes 8 0 ++ leBytes 16 4) ++
          (leBytes 5 0 ++ leBytes 1 0xFF ++ leBytes 2 0xFFFF ++ leBytes 8 0 ++ leBytes 4 1 ++ leBytes 4 0 ++ leBytes 4 0x1000 ++ leBytes 4 4) ++
          (leBytes 5 1 ++ leBytes 1 0xFF ++ leBytes 2 0 ++ leBytes 8 0 ++ leBytes 4 1 ++ leBytes 12 0) }] }

/-- The placement entry of template `i`. -/
def tPlace (i : Nat) : Place :=
  if i = 0 then { tpl := 0, cluster := 0, core := 255, seg := 0xFFFF, start := 0, tileBase := 0, tiles := 1, pfSrc := 0, pfDst := 0x1000, pfLen := 4 }
  else { tpl := 1, cluster := 0, core := 255, seg := 0, start := 0, tileBase := 0, tiles := 1, pfSrc := 0, pfDst := 0, pfLen := 0 }

/-- Cluster 0 and its core 0 in service; a record of template `t` of batch 0 in slot 0, in a state; frame 0 with all flags. -/
def tState (t : Nat) (x : TaskState) : State :=
  { present := one
    work := { graph := some tGraph
              streams := [(0, { phase := .open_, runLimit := 1, slots := [(0, .hbm)], slotBytes := 64, batches := [{ (newBatch 0 0 0) with insts := 1, begun := true }] })]
              disps := [(0, { slots := [(0, { state := x, tpl := t, place := t, stream := 0, batch := some 0, prio := 3, start := 0 })]
                              frames := [(0, { used := true, stream := 0, batch := some 0, flags := 1 })]
                              delay := if x = .delayed then [0] else [], ready := if x = .ready then [(3, [0])] else [] })] } }

/-- The same with the record on core 0: filled in entry 0 (`h` 2), or running there (3). -/
def tCore (t h : Nat) (x : TaskState) : State :=
  let s := tState t x
  { s with work := { s.work with
      cores := [(0, { h0 := { state := h, slot := 0, got := 64 }
                      ctx := if h = 3 then some { taskOf 0 [] with tiles := 0 } else none })] } }

/-- A graph of one unit template with the parameter words `ps`, and a slot of 4 KiB. -/
def uGraph (unit op : Nat) (fl : Nat) (ps : List Nat) : Graph :=
  { bareGraph with sections := [
      { ty := 2, index := 0, data := leBytes 16 1 ++ (leBytes 1 3 ++ leBytes 1 unit ++ leBytes 1 0 ++ leBytes 1 fl ++ leBytes 6 0 ++
          leBytes 2 0xFFFF ++ leBytes 1 0xFF ++ leBytes 27 0 ++ leBytes 8 80 ++ leBytes 4 (8 * ps.length) ++ leBytes 2 op ++ leBytes 10 0) ++ ps.flatMap (leBytes 8) },
      { ty := 4, index := 0, data :=
          leBytes 1 1 ++ leBytes 1 1 ++ leBytes 2 1 ++ leBytes 2 1 ++ leBytes 1 0 ++ leBytes 1 1 ++ leBytes 24 0 ++
          (leBytes 4 0 ++ leBytes 4 1 ++ leBytes 4 1 ++ leBytes 4 2) ++ (leBytes 4 1 ++ leBytes 2 1 ++ leBytes 10 0) ++
          (leBytes 4 0 ++ leBytes 4 64 ++ leBytes 4 4096 ++ leBytes 4 0) ++
          (leBytes 5 0 ++ leBytes 1 0xFF ++ leBytes 2 0xFFFF ++ leBytes 8 0 ++ leBytes 4 1 ++ leBytes 12 0) }] }

/-- Its template runs in slot 0 of cluster 0 for batch 0 of stream 0, or as a table stage. -/
def uState (unit op : Nat) (fl : Nat) (ps : List Nat) : State :=
  { present := one
    work := { graph := some (uGraph unit op fl ps)
              streams := [(0, { phase := .open_, batches := [newBatch 0 0 0] })]
              tables := [(7, { rows := 0 })]
              disps := [(0, { slots := [(0, { state := .running, stream := 0, batch := if fl = 0 then some 0 else none })] })] } }

/-- The job of `uState`. -/
def uJob (unit op : Nat) (fl : Nat) (ps : List Nat) : Job2 :=
  { g := uGraph unit op fl ps, t := ((uGraph unit op fl ps).tpl 0).getD (parseTpl []), ps := ps, r := ((uState unit op fl ps).disp 0).task 0, k := 0, tpl := 0, slot := 0 }

/-- A bank in EXACT mode with two entries that match the key 5, a lower and a higher one. -/
def twoRows : SageBank :=
  let e : Nat → SageEntry := fun p => let r : SageRow := { valid := true, prio := p, result := p, key := 5 }; freshEntry r (some r)
  { mode := 1, entries := [(0, e 1), (3, e 2)] }

/-- A graph of one kernel of one layer of operation `op` (FP32 operands, K 32, N 1). -/
def mGraph (op : Nat) : Graph :=
  { uGraph 0 0 0 [] with sections := (uGraph 0 0 0 []).sections.filter (fun x => x.ty != 2) ++ [
      { ty := 2, index := 0, data := leBytes 16 1 ++ (leBytes 10 2 ++ leBytes 2 0xFFFF ++ leBytes 1 0xFF ++ leBytes 51 0) },
      { ty := 3, index := 0, data := leBytes 16 1 ++ (leBytes 8 32 ++ leBytes 8 80) ++ (leBytes 16 1 ++
          (leBytes 1 op ++ leBytes 3 0x121212 ++ leBytes 8 0 ++ leBytes 4 32 ++ leBytes 4 1 ++ leBytes 2 1 ++ leBytes 42 0)) }] }

/-- Its task runs in slot 0 of cluster 0. -/
def mState (op : Nat) : State := { uState 0 0 0 [] with work := { (uState 0 0 0 []).work with graph := some (mGraph op) } }

/-- A TOKENISE and two IMAGE_PREP declarations, the second with a mesh of no points. -/
def iTok : TokDecl := { stream := 0, col := 1, dict := 0, unit := 0, pre := 0, bos := none, eos := none, maxTokens := 4, trunc := 0, form := 1, padId := 0, str := true }
def iPrep : PrepDecl := { stream := 0, col := 0, meshCol := none, lensCol := none, outW := 1, outH := 1, gx := 1, gy := 1, mesh := none, lens := none, filter := 0, sup := 1, border := 0, colour := 2, mean := [0], std := [0x3F800000], pad := [0], outTy := 3, layout := 1, rnd := 0 }
def iBad : PrepDecl := { iPrep with mesh := some [] }

/-- A graph of one stream of 4 rows a batch and one intake lane, both sample classes budgeted, pages of at most 8 bytes. -/
def iGraph : Graph :=
  { bareGraph with toks := [iTok], preps := [iPrep, iBad], sections := [
      { ty := 4, index := 0, data :=
          leBytes 1 1 ++ leBytes 1 1 ++ leBytes 2 1 ++ leBytes 2 1 ++ leBytes 1 0 ++ leBytes 1 1 ++ leBytes 24 0 ++
          (leBytes 4 0 ++ leBytes 4 1 ++ leBytes 4 1 ++ leBytes 4 4) ++ (leBytes 4 1 ++ leBytes 2 1 ++ leBytes 10 0) ++
          (leBytes 4 0 ++ leBytes 4 64 ++ leBytes 4 4096 ++ leBytes 4 0) },
      { ty := 5, index := 0, data := leBytes 16 1 ++ (leBytes 2 0 ++ leBytes 2 6 ++ leBytes 4 1 ++ leBytes 8 0 ++ leBytes 4 8 ++ leBytes 4 8 ++ leBytes 4 64 ++
          leBytes 4 8 ++ leBytes 4 64 ++ leBytes 4 8 ++ leBytes 2 64 ++ leBytes 2 64 ++ leBytes 4 4096 ++ leBytes 16 0 ++
          (leBytes 4 100 ++ leBytes 4 1 ++ leBytes 4 100000 ++ leBytes 4 100000) ++ (leBytes 4 100 ++ leBytes 4 1 ++ leBytes 4 100000 ++ leBytes 4 100000) ++ leBytes 32 0) }] }

/-- A baseline JPEG of one block of zero coefficients: precision `prec`, width `w`, height 1, one component. -/
def iJpg (prec w : Nat) : Bytes :=
  leBytes 4 0xDBFFD8FF ++ leBytes 3 0x004300 ++ List.replicate 64 1#8 ++ leBytes 4 0x0B00C0FF ++ leBytes 4 (0x010000 + prec) ++ leBytes 5 (0x0011010100 + w) ++
    leBytes 6 0x01001400C4FF ++ leBytes 16 0 ++ leBytes 6 0x01101400C4FF ++ leBytes 16 0 ++ leBytes 10 0x003F000001010800DAFF ++ leBytes 3 0xD9FF3F

/-- Lane 0 of cluster 0 before (`intake` 0) or in (1) batch 0, whose slots are computed; it owes slot 2, and slot 0 holds a JPEG and a text. -/
def iState (intake : Nat) (v : Bytes) (imgs : List Img) (p : Budget) : State :=
  { present := one
    work := { graph := some iGraph, tables := [(0, { format := 0 })]
              streams := [(0, { phase := .open_, runLimit := 1, rows := 100, batches := [{ (newBatch 0 0 0) with insts := 1, intake := intake }] })]
              lanes := [(0, { cur := if intake = 1 then some (0, 0) else none, todo := if intake = 1 then [2] else [], images := imgs, image := p, text := { total := 1 }, shuffled := [(0, 0)]
                              raw := [(0, [{ valid := true, bytes := v }, { valid := true, bytes := [0x41] }])] })] } }

/-- A grey image of one pixel, an output in slot 0. -/
def iDest : Dest := { cluster := 0, first := 0, count := 4, cols := [0x0300] }
def iImg : Img := { slot := 0, col := 0, left := [0, 1], w := 1, h := 1, gray := true, staged := false, pix := [7] }

/-- A COPY descriptor of 64 bytes from bus address 0x1000 to HBM address 0x2000, END set. -/
def dCopy : Desc :=
  { addr := 64, link := 1, op := 0, flags := 0, spaces := 4, crc := 0, len := 64, src := 0x1000, dst := 0x2000, expect := 0, at_ := 0, cmp := 0, pulse := 0 }

/-- Channel 48 in a state, with a job. -/
def dState (x : ChState) (j : Option Job) : State :=
  { present := one, pci := { ({} : State).pci with dstate := .d0 }
    mem := { chans := [(48, { state := x, job := j, cur := 64, tail := 128 })], bus := [(0x1000, 7)] } }

/-- Source 5, in a state, routed with priority 9 to target 2. -/
def eState (x : SrcState) (g : EvTgt) : State :=
  { evc := { src := [(5, { state := x, prio := 9, target := 2, mask := false })], tgt := [(2, g)] } }

/-- A well-formed task row range, and nothing done by other bus agents. -/
def rows1 : Rows := { first := 0, count := 1, per := 1 }
def quiet : BusEnv := { stores := [], bad := [], flips := [] }

/-- A file, an upset and a destination of the smallest sizes. -/
def file1 : FileIn := { parses := true, v5 := true, aligned := true, groups := 1, group := 1, rows := 1, src := [], schema := [], texts := [], header := false, delim := 44 }
def up0 : SageUpset := { bank := 0, addr := 0, row := 0, parity := 0, words := [] }
def dest1 : Dest := { cluster := 0, first := 0, count := 1, cols := [0] }

/-- WellFormed refuses an offset outside BAR0, BAR4 and the configuration fields, a value wider than the access, a line that is not 64 bytes, a line issued later than it
returns, a frame of more than 128 bits. -/
theorem test_wf_registers : (Instr.registerWrite 0 0x04010000 0 4).wf = false ∧ (Instr.registerWrite 0 0x0400000C 0 4).wf = true ∧ (Instr.registerWrite 0 0 (2 ^ 32) 4).wf = false ∧ (Instr.registerWrite 0 0 7 4).wf = true ∧
    (Instr.rcRead 0x05000014 4 0).wf = false ∧ (Instr.commitWrite 0 0 (2 ^ 32)).wf = false ∧ (Instr.beatPageReadComplete (some [0]) 0 0).wf = false ∧
    (Instr.beatPageReadComplete none 1 0).wf = false ∧ (Instr.beatInFrame (2 ^ 128) 0).wf = false := by decide +kernel

/-- WellFormed refuses a token whose length is not the one it names, a message of a length that is no multiple of 8, and wider details
and key records of another length. -/
theorem test_wf_links : (Instr.chainEnumToken [2, 0, 8]).wf = false ∧ (Instr.chainEnumToken (chainToken 2 0 (leBytes 8 0))).wf = true ∧ (Instr.pairHello (leBytes 25 0) 0).wf = false ∧
    (Instr.pairHello (pairMsg 7 0 0 1 (leBytes 8 0)) 0).wf = true ∧ (Instr.detectedError 1 0 1 (2 ^ 64) 0).wf = false ∧ (Instr.ownerRecord 0 [1] none false).wf = false := by decide +kernel

/-- WellFormed refuses stores, failing ranges and HBM words outside their spaces, and BAR2 accesses of no byte. -/
theorem test_wf_bus : (Instr.query 0 { quiet with stores := [(2 ^ 64, [1])] }).wf = false ∧ (Instr.query 0 { quiet with bad := [(2 ^ 64, 1)] }).wf = false ∧
    (Instr.query 0 { quiet with flips := [(36 * 2 ^ 30, true)] }).wf = false ∧ (Instr.query 0 quiet).wf = true ∧ (Instr.bar2Read 0 0 quiet).wf = false ∧ (Instr.bar2Write 0 []).wf = false := by
  decide +kernel

/-- WellFormed refuses rows of no layer row, upsets and placements outside a bank or cluster, an origin and a mask of more than 64 bits, and a
phase above 63. -/
theorem test_wf_tasks : (Instr.partition 0 0 { rows1 with per := 0 }).wf = false ∧ (Instr.partition 0 0 rows1).wf = true ∧
    (Instr.lookup 0 0 rows1 [{ up0 with bank := 8 }]).wf = false ∧ (Instr.lookup 0 0 rows1 [{ up0 with addr := 4096 }]).wf = false ∧
    (Instr.lookup 0 0 rows1 [{ up0 with words := [10] }]).wf = false ∧ (Instr.loadGraph 0 quiet true [(0, 0, 16, 0)] [] {}).wf = false ∧
    (Instr.loadGraph 0 quiet true [(0, 0, 0, 8)] [] {}).wf = false ∧ (Instr.openStream 0 quiet (2 ^ 64)).wf = false ∧
    (Instr.loadGraph 0 quiet true [] [] { ops := { masks := [(0, 2 ^ 64)] } }).wf = false ∧
    (Instr.loadGraph 0 quiet true [] [] { ops := { phases := [(0, 64)] } }).wf = false := by decide +kernel

/-- WellFormed refuses a declaration of a stream above 63, constants of more than 32 bits, a destination column of more than 64 bits, and a
group larger than its file. -/
theorem test_wf_intake : (Instr.tokenise 0 0 0 ⟨0, 0⟩ { iTok with stream := 64 } none dest1).wf = false ∧ (Instr.tokenise 0 0 0 ⟨0, 0⟩ iTok none dest1).wf = true ∧
    (Instr.tokenise 0 0 0 ⟨0, 0⟩ iTok none { dest1 with cols := [2 ^ 64] }).wf = false ∧ (Instr.lovageImage 0 0 0 0 { iPrep with stream := 64 } true none none dest1).wf = false ∧
    (Instr.lovageImage 0 0 0 0 { iPrep with mesh := some [2 ^ 32] } true none none dest1).wf = false ∧ (Instr.lovageImage 0 0 0 0 { iPrep with lens := some [2 ^ 32] } true none none dest1).wf = false ∧
    (Instr.sampleAbandon 0 0 0 ⟨0, 0⟩ (.text { iTok with stream := 64 } [])).wf = false ∧ (Instr.attachTable 0 quiet { file1 with group := 2 }).wf = false := by decide +kernel

/-- The hypothesis of StepRunsFrontCommand is met. -/
theorem witness_StepRunsFrontCommand : ∃ s : State, s.pending = .activateFirmware :: [] := ⟨{ pending := [.activateFirmware] }, rfl⟩

/-- The hypotheses of EveryStepAnswers are met, for an idle fabric and for one that holds a flit. -/
theorem witness_EveryStepAnswers : (State.reset.pending = [] ∧ ∀ p ∈ State.reset.mem.routers, ∀ h ∈ p.2.held, h.2 = []) ∧
    (∃ s : State, s.pending = [] ∧ s.netBusy = [3] ∧ s.fabricTick ≠ s) :=
  ⟨⟨rfl, by decide +kernel⟩, { mem := { routers := [(3, { held := [(0, [{ out := 4, tq := 1, cls := 0, dst := 3, pkt := 0, num := 0, last := 0, payload := [] }])] })] } }, by decide +kernel⟩

/-- A frame of beat 7, bit by bit as chapter 02 lays it out. -/
def frame7 : Nat := beatFrame 7 false

/-- A verified page record of beat 9 with age 100 ns. -/
def page9 : Bytes :=
  let b := leBytes 8 9 ++ leBytes 4 100 ++ List.replicate 48 0#8
  b ++ leBytes 4 (crc32c b)

/-- The hypotheses of AcceptedBeatSetsPosition are met, for both sources. -/
theorem witness_AcceptedBeatSetsPosition :
    (∃ s : State, s.beat.srcCfg = 0 ∧ s.followsPrimary = false ∧ QuietGraph s ∧ frameOk frame7 = true ∧
      GoodDelivery s 60000 (bitsOf frame7 79 16)) ∧
    (∃ s : State, s.beat.srcCfg = 2 ∧ s.followsPrimary = false ∧ QuietGraph s ∧ s.inD0 = true ∧ 90000 ∈ s.beat.pageReads ∧ page9.length = 64 ∧
      fieldAt page9 60 4 = crc32c (page9.take 60) ∧ s.beat.pageLast ≠ some (fieldAt page9 0 8) ∧ fieldAt page9 8 4 ≤ 1000000 ∧
      GoodDelivery s (90000 - fieldAt page9 8 4) (fieldAt page9 0 8)) := by
  refine ⟨⟨{ beat := { srcCfg := 0, edge := some 10000, lastNum := some 6 } }, rfl, rfl, ?_, by decide +kernel, ?_, ?_⟩,
    ⟨{ beat := { srcCfg := 2, pageReads := [90000] } }, rfl, rfl, ?_, rfl, by decide, rfl, by decide +kernel, by decide +kernel, by decide +kernel, ?_, ?_⟩⟩
  · intro g h; cases h
  · intro e h; cases h; decide +kernel
  · intro e h; cases h; decide +kernel
  · intro g h; cases h
  · intro e h; cases h
  · intro e h; cases h

/-- The hypotheses of UnacceptedFramesOnlyCount are met, each clause by a frame of its own. -/
theorem witness_UnacceptedFramesOnlyCount : ∃ s : State, s.beat.srcCfg = 0 ∧ s.followsPrimary = false ∧ s.beat.outEn = false ∧
    frameOk 0 = false ∧ frameOk frame7 = true ∧ s.beat.edge = some 1000 ∧ 50999 < 1000 + 50000 ∧ 1000 + 50000 ≤ 51000 ∧
    s.beat.lastNum = some 7 ∧ bitsOf frame7 79 16 ≤ 7 ∧ 3 ≤ s.beat.numRejects :=
  ⟨{ beat := { srcCfg := 0, edge := some 1000, lastNum := some 7, numRejects := 3 } }, by decide +kernel⟩

/-- The hypotheses of PagePollAndLockTimeouts are met, clause by clause. -/
theorem witness_PagePollAndLockTimeouts :
    (∃ s : State, s.now ≤ 5000 ∧ s.beat.srcCfg = 3 ∧ s.pci.dstate = .d0 ∧ s.beat.pageSet = true ∧ s.beat.pageReads = [4000] ∧
      s.beat.pageNext ≤ 5000) ∧
    (∃ s : State, s.now ≤ 200000 ∧ s.beat.lock = .locked ∧ phaseNow s.beat 200000 = 0xFFFF) ∧
    (∃ s : State, s.now ≤ 400000 ∧ s.beat.lock = .hold ∧ s.beat.edge = some 0 ∧
      (s.beat.holds : Int) * s.beat.pest ≤ (((400000 - 0 : Nat) : Int) : Rat)) :=
  ⟨⟨{ beat := { pageSet := true, pageReads := [4000] } }, by decide +kernel⟩,
   ⟨{ beat := { lock := .locked, edge := some 0, pest := 100000 } }, by decide +kernel⟩,
   ⟨{ beat := { lock := .hold, edge := some 0, pest := 100000 } }, by decide +kernel⟩⟩

/-- The hypotheses of RebaseAndSourceSelect are met. -/
theorem witness_RebaseAndSourceSelect : (∀ p ∈ State.reset.work.streams, p.2.phase = .closed) ∧
    (∃ (s : State) (k : Nat) (x : Stream), (k, x) ∈ s.work.streams ∧ x.phase ≠ .closed) :=
  ⟨by decide +kernel, { work := { streams := [(3, { phase := .open_ })] } }, 3, { phase := .open_ }, by decide +kernel, by decide +kernel⟩

/-- The hypotheses of HeldLowHalfThenHighHalf are met at the boundaries. -/
theorem witness_HeldLowHalfThenHighHalf : (63 : Nat) < 64 ∧ (55 : Nat) < 56 ∧ (0xFFFFFFFF : Nat) < 2 ^ 32 := by decide

/-- The hypotheses of ReadCapturesHighHalf are met, with a NEXT that has a high half. -/
theorem witness_ReadCapturesHighHalf : ∃ s : State, tget none s.capture 0xBFF0 = none ∧ (s.flow 1023).next = 2 ^ 33 + 5 :=
  ⟨{ work := { flows := [(1023, { next := 2 ^ 33 + 5 })] } }, by decide⟩

/-- The hypotheses of CounterReadClearsToEventsOfItsCycle are met. -/
theorem witness_CounterReadClearsToEventsOfItsCycle : ∃ s : State, tget none s.capture 0x30 = none ∧ tget none s.capture 0x38 = none ∧
    s.glb.reject = 0xFFFFFFFF ∧ s.glb.padOverlap = 3 := ⟨{ glb := { reject := 0xFFFFFFFF, padOverlap := 3 } }, by decide⟩

/-- A job with a burst in flight. -/
def burning : Job :=
  { newJob (parseDesc 0 []) with flight := [{ off := 0, len := 1, data := [0], poisoned := false, bad := false, tq := 2, tries := 0, until_ := none }] }

/-- The hypotheses of CommitSnapshotsStagedGroup are met. -/
theorem witness_CommitSnapshotsStagedGroup : (∃ s : State, s.clusterIn 15 = true) ∧
    (∃ s : State, (s.chan 63).pending = some {} ∧ (s.disp 15).pending = some 0x10FF ∧ NoBurst (s.chan 63)) ∧
    (∃ s : State, ¬ NoBurst (s.chan 63) ∧ (s.chan 63).pending = some {}) :=
  ⟨⟨{ present := { clusters := 0x8000 } }, by decide⟩,
   ⟨{ mem := { chans := [(63, { pending := some {} })] }, work := { disps := [(15, { pending := some 0x10FF })] } }, by decide, by decide, fun j h => absurd (h : (none : Option Job) = some j) (Option.some_ne_none j).symm⟩,
   ⟨{ mem := { chans := [(63, { pending := some {}, job := some burning })] } }, fun h => absurd (h burning rfl) (by decide), rfl⟩⟩

/-- The hypotheses of AccessesWithoutARegister are met. -/
theorem witness_AccessesWithoutARegister : (0x3FFFFFC % 4 = 0 ∧ 0x3FFFFFC < bar4Base ∧ blockAt 0x3FFFFFC = none) ∧ tget none State.reset.capture 0x3FFFFFC = none ∧
    bar0Size 0x10002 4 = false ∧ bar0Size 0x10000 2 = false := by decide

/-- The hypotheses of DroppedWritesAreCounted are met. -/
theorem witness_DroppedWritesAreCounted : ((1 : Master).val ≠ 0) ∧ 56 ≤ 56 ∧ 63 < 64 := by decide

/-- The hypotheses of AttachAgreesByRangeOverlap are met, by an overlap of one version and by a gap of one. -/
theorem witness_AttachAgreesByRangeOverlap :
    (∃ s : State, s.glb.attachBusy = true ∧ max 0x0100 (s.glb.goHqf % 65536) ≤ min 0x0101 (s.glb.goHqf / 65536 % 65536) ∧
      max 0x0100 (s.glb.goQxg % 65536) ≤ min 0x0102 (s.glb.goQxg / 65536 % 65536)) ∧
    (∃ s : State, s.glb.attachBusy = true ∧ min 0x0101 (s.glb.goHqf / 65536 % 65536) < max 0x0100 (s.glb.goHqf % 65536) ∧
      (s.qp 0).enable = false) :=
  ⟨⟨{ glb := { attachBusy := true, goHqf := 0x01010101, goQxg := 0x01020100 } }, by decide⟩,
   ⟨{ glb := { attachBusy := true, goHqf := 0x01030102, goQxg := 0x01020100 } }, by decide⟩⟩

/-- A command for the witnesses: opcode, stream and parameters of its entry, phase. -/
def aCmd (op stream : Nat) (ps : List Nat) (ph : CmdPhase) : Cmd :=
  { qp := 0, seq := 1, sqHead := 0, pos := 0, phase := ph, count := 0, target := none, accSeq := 0
    entry := { id := 1, opcode := op, flags := 0, stream := stream, rsvd := 0, addr0 := 0, len0 := 0, params := ps } }

/-- The hypotheses of AttachGoAndQueueEnable are met, clause by clause. -/
theorem witness_AttachGoAndQueueEnable : (∀ p ∈ State.reset.qps, p.2.enable = false) ∧
    (∃ s : State, ∃ p ∈ s.qps, p.2.enable = true) ∧
    (∃ s : State, (s.qp 63).enable = false ∧ s.glb.done = true ∧ s.glb.status = 0 ∧ s.jrn.ready = true) ∧
    (∃ s : State, (s.qp 63).enable = false ∧ s.glb.done = true ∧ s.glb.status = 0x30) ∧
    (∃ s : State, (s.qp 0).enable = true ∧ ∀ c ∈ s.cmds, c.qp ≠ 0) ∧
    (∃ (s : State) (c : Cmd), (s.qp 0).enable = true ∧ c ∈ s.cmds ∧ c.qp = 0) :=
  ⟨by decide, ⟨{ qps := [(0, { enable := true })] }, (0, { enable := true }), by decide, rfl⟩,
   ⟨{ glb := { done := true }, jrn := { ready := true } }, by decide⟩, ⟨{ glb := { done := true, status := 0x30 } }, by decide⟩,
   ⟨{ qps := [(0, { enable := true })] }, by decide⟩,
   ⟨{ qps := [(0, { enable := true })], cmds := [aCmd 8 0 [1] .accepted] }, aCmd 8 0 [1] .accepted, by decide⟩⟩

/-- The hypotheses of DoorbellLinesArePolledAndTaken are met: fields at the last index of a ring of 16, and one past it. -/
theorem witness_DoorbellLinesArePolledAndTaken :
    (∃ s : State, s.now ≤ 10 ∧ s.inD0 = true ∧ s.shadows = false ∧ s.glb.ready = true ∧ (s.qp 63).enable = true ∧
      (s.group 7).busy = false ∧ (s.group 7).nextPoll ≤ 10) ∧
    (∃ (s : State) (l : Bytes), (s.group 7).busy = true ∧ (s.qp 63).enable = true ∧ (s.qp 62).enable = false ∧ (s.qp 63).err = false ∧
      fieldAt l (4 * (63 % 8)) 2 < (s.qp 63).sqSize ∧ fieldAt l (0x20 + 4 * (63 % 8)) 2 < (s.qp 63).cqSize ∧
      (s.qp 56).enable = true ∧ (s.qp 56).sqSize ≤ fieldAt l 0 2) :=
  ⟨⟨{ qps := [(63, { enable := true })], glb := { ready := true } }, by decide⟩,
   ⟨{ qps := [(56, { enable := true }), (63, { enable := true })], groups := [(7, { busy := true })] },
    leBytes 2 16 ++ leBytes 26 0 ++ leBytes 2 15 ++ leBytes 34 15, by decide⟩⟩

/-- The hypotheses of EntriesAcceptedInRingOrder are met, at the last slot of a ring, by a new id and by one in the window. -/
theorem witness_EntriesAcceptedInRingOrder : ∃ s s' : State, RingOpen s 0 ∧ (∀ w ∈ (s.qp 0).window, w.id ≠ 0) ∧ RingOpen s' 0 ∧
    (∃ w ∈ (s'.qp 0).window, w.id = (parseEntry (readBytes (s'.env ⟨[], [], []⟩).mem.bus (0 + 128 * 15) 128)).id) ∧ (s'.qp 0).sqHead = 15 :=
  ⟨{ qps := [(0, { enable := true, sqHead := 15 })], jrn := { ready := true }, glb := { ready := true } },
   { qps := [(0, { enable := true, sqHead := 15, window := [⟨0, none⟩] })], jrn := { ready := true }, glb := { ready := true } },
   ⟨by decide, by decide, by decide, by decide, by decide⟩, by decide, ⟨by decide, by decide, by decide, by decide, by decide⟩,
   ⟨⟨0, none⟩, by decide, by decide⟩, by decide⟩

/-- A state in which command 1 waits for its acceptance record. -/
def accepting1 : State := { cmds := [aCmd 8 0 [1] .accepting], jrn := { ready := true, accesses := [{ kind := .accept 1, addr := 96, waitUs := 0, until_ := none }] } }

/-- The hypotheses of AcceptanceWaitsForItsRecord are met. -/
theorem witness_AcceptanceWaitsForItsRecord : accepting1.cmd 1 = some (aCmd 8 0 [1] .accepting) ∧
    accepting1.jrn.access (.accept 1) = some { kind := .accept 1, addr := 96, waitUs := 0, until_ := none } ∧ accepting1.pairAcked 0 = true ∧
    (accepting1.at_ 5).writeOpen = true ∧ (accepting1.at_ 5).mayOutput = true ∧ accepting1.err.state ≠ 2 ∧ (∀ x ∈ accepting1.jrn.accesses, x.until_ = none) ∧
    (∀ x ∈ accepting1.cmds, x.phase = .accepting → 1 ≤ x.seq) := by decide

/-- The hypotheses of RecordUpdatedBeforeCompletionEntry are met, clause by clause. -/
theorem witness_RecordUpdatedBeforeCompletionEntry :
    (∃ (s : State) (c : Cmd), s.cmd 1 = some c ∧ c.phase = .finished 0x10 0 ∧ s.completesAfter c = false ∧ s.shadows = false ∧
      s.pair.early.contains (c.qp, c.entry.id, 0, 0) = false) ∧
    (∃ (s : State) (e : CEntry) (es : List CEntry), (s.qp 0).queue = e :: es ∧ e.gate = some 1 ∧ e.kind ≠ 2) ∧
    (∃ s : State, s.jrn.accesses = [{ kind := .update 1 0, addr := 122, waitUs := 0, until_ := none }] ∧ (s.at_ 5).writeOpen = true ∧
      (s.at_ 5).mayOutput = true ∧
      ∀ p ∈ s.qps, ∀ e ∈ p.2.queue, s.pairAcked e.ann = true) :=
  ⟨⟨{ cmds := [aCmd 8 0 [1] (.finished 0x10 0)] }, aCmd 8 0 [1] (.finished 0x10 0), by decide⟩,
   ⟨{ qps := [(0, { queue := [{ noticeEntry 0 0 with gate := some 1, kind := 0 }] })] }, { noticeEntry 0 0 with gate := some 1, kind := 0 }, [], by decide⟩,
   ⟨{ jrn := { accesses := [{ kind := .update 1 0, addr := 122, waitUs := 0, until_ := none }] } }, by decide⟩⟩

/-- The hypotheses of CompletionEntriesGoToTheRing are met: the last slot of a ring of 16, and a full ring. -/
theorem witness_CompletionEntriesGoToTheRing :
    (∃ (s : State) (e : CEntry) (es : List CEntry), (s.qp 0).queue = e :: es ∧ e.kind ≠ 1 ∧ (s.at_ 0).entryReady 0 e = true ∧ (s.at_ 0).mayOutput = true ∧
      s.hqf11 = true ∧ (s.qp 0).cqTail = 15) ∧
    (∃ (s : State) (e : CEntry) (es : List CEntry), (s.qp 0).queue = e :: es ∧ e.kind ≠ 1 ∧ (s.at_ 0).entryReady 0 e = true ∧ (s.at_ 0).mayOutput = true ∧
      s.hqf11 = true ∧ e.slot = some (3, true) ∧ ((s.qp 0).cqTail + 1) % (s.qp 0).cqSize = (s.qp 0).cqHead) ∧
    (∃ s : State, ((s.qp 0).cqTail + 1) % (s.qp 0).cqSize = (s.qp 0).cqHead ∧ (∀ e ∈ (s.qp 0).queue, e.slot = none) ∧ ∀ e ∈ (s.qp 0).queue, e.kind ≠ 2) ∧
    (∃ (s : State) (e : CEntry) (es : List CEntry), (s.qp 0).queue = e :: es ∧ e.kind = 2 ∧ s.hqf11 = false) :=
  ⟨⟨{ glb := { hqfAgreed := 0x0101 }, qps := [(0, { enable := true, cqTail := 15, cqHead := 3, queue := [noticeEntry 0 0] })] }, noticeEntry 0 0, [],
    by decide⟩,
   ⟨{ glb := { hqfAgreed := 0x0101 }, qps := [(0, { enable := true, cqTail := 15, queue := [{ noticeEntry 0 0 with slot := some (3, true) }] })] },
    { noticeEntry 0 0 with slot := some (3, true) }, [], by decide⟩,
   ⟨{ qps := [(0, { cqTail := 15 })] }, by decide⟩,
   ⟨{ glb := { hqfAgreed := 0x0100 }, qps := [(0, { queue := [noticeEntry 0 0] })] }, noticeEntry 0 0, [], by decide⟩⟩

/-- The hypotheses of ModerationTimerRaisesOrHolds are met, in D0 with the vector open and masked, and in D3hot. -/
theorem witness_ModerationTimerRaisesOrHolds :
    (∃ s : State, (s.qp 0).timer = some 7 ∧ 7 ≤ max s.now 7 ∧ (s.qp 0).unsig ≠ 0 ∧ s.pci.dstate = .d0 ∧ (s.at_ 7).mayOutput = true ∧
      s.msixOpen (s.qp 0).vector = true) ∧
    (∃ s : State, (s.qp 0).timer = some 7 ∧ (s.qp 0).unsig ≠ 0 ∧ s.pci.dstate = .d0 ∧ (s.at_ 7).mayOutput = true ∧
      s.msixOpen (s.qp 0).vector = false) ∧
    (∃ s : State, (s.qp 0).timer = some 7 ∧ (s.qp 0).unsig ≠ 0 ∧ s.pci.dstate ≠ .d0) :=
  ⟨⟨{ qps := [(0, { timer := some 7, unsig := 1 })], pci := { msixEn := true, msixMask := [(0, false)] } }, by decide⟩,
   ⟨{ qps := [(0, { timer := some 7, unsig := 1 })] }, by decide⟩,
   ⟨{ qps := [(0, { timer := some 7, unsig := 1 })], pci := { dstate := .d3hot } }, by decide⟩⟩

/-- The hypotheses of JournalAdoptedWalkedAndRewritten are met, clause by clause. -/
theorem witness_JournalAdoptedWalkedAndRewritten : State.reset.pair.roleNow ≠ 2 ∧
    (∃ s : State, (∃ p ∈ s.qps, p.2.enable = true) ∧ 0x7FFFFFFF < 2 ^ 31 ∧ 0x7FFFFFFF % 32 ≠ s.jrn.sizeLog2) ∧
    (∃ (s : State) (a : JAccess), s.jrn.access .walk = some a ∧ (s.at_ 9).writeOpen = true ∧ s.pairAcked a.ann = true ∧ s.jrn.scan = false) ∧
    (∃ s : State, s.jrn.sinceCtl ≠ 0 ∧ s.jrn.ctlAt + 1000000 ≤ 1000000 ∧ s.shadows = false ∧ ∀ a ∈ s.jrn.accesses, a.kind ≠ .control) ∧
    (∃ s : State, s.jrn.ready = true ∧ s.jrn.retire + 2 ^ s.jrn.actLog2 ≤ s.jrn.tail) :=
  ⟨by decide, ⟨{ qps := [(0, { enable := true })] }, ⟨(0, { enable := true }), by decide, rfl⟩, by decide, by decide⟩,
   ⟨{ jrn := { accesses := [{ kind := .walk, addr := 0, waitUs := 0, until_ := none }] } }, { kind := .walk, addr := 0, waitUs := 0, until_ := none }, by decide⟩,
   ⟨{ jrn := { sinceCtl := 1 } }, by decide⟩, ⟨{ jrn := { ready := true, tail := 1025 } }, by decide⟩⟩

/-- The hypotheses of CommandsWaitTheirTurn are met, by an ordered command and by a setup command. -/
theorem witness_CommandsWaitTheirTurn : ∃ (s s' : State) (c d c' d' : Cmd), s.cmd 2 = some c ∧ d ∈ s.cmds ∧ d.seq < 2 ∧ c.seq = 2 ∧
    c.entry.ordered = true ∧ d.qp = c.qp ∧ s'.cmd 2 = some c' ∧ d' ∈ s'.cmds ∧ d'.seq < 2 ∧ 1 ≤ c'.entry.opcode ∧ c'.entry.opcode ≤ 6 ∧
    1 ≤ d'.entry.opcode ∧ d'.entry.opcode ≤ 6 ∧ d'.phase = .executing := by
  let c : Cmd := { aCmd 8 0 [1] .accepted with seq := 2, entry := { (aCmd 8 0 [1] .accepted).entry with flags := 1 } }
  let c' : Cmd := { aCmd 6 0 [] .accepted with seq := 2 }
  exact ⟨{ cmds := [aCmd 8 0 [1] .executing, c] }, { cmds := [aCmd 1 0 [] .executing, c'] }, c, aCmd 8 0 [1] .executing, c',
    aCmd 1 0 [] .executing, by decide⟩

/-- The hypotheses of UnloadAndDetach are met. -/
theorem witness_UnloadAndDetach :
    (∃ s s' : State, ∃ c g, Begins s 1 4 c ∧ s.work.graph = some g ∧ AllClosed s ∧ Begins s' 1 4 c ∧ s'.work.graph = some g ∧ ¬ AllClosed s') ∧
    (∃ (s : State) (c : Cmd), Begins s 1 2 c ∧ (∃ x, (c.entry.p 0, x) ∈ s.work.tables) ∧ s.tableRead (c.entry.p 0) = false) := by
  refine ⟨⟨{ cmds := [aCmd 4 0 [] .accepted], work := { graph := some bareGraph } },
      { cmds := [aCmd 4 0 [] .accepted], work := { graph := some bareGraph, streams := [(0, { phase := .open_ })] } },
      aCmd 4 0 [] .accepted, bareGraph, ⟨by decide, by decide, by decide, by decide⟩, rfl, ?_, ⟨by decide, by decide, by decide, by decide⟩, rfl, ?_⟩,
    { cmds := [aCmd 2 0 [4095] .accepted], work := { tables := [(4095, {})] } }, aCmd 2 0 [4095] .accepted,
    ⟨by decide, by decide, by decide, by decide⟩, ⟨{}, by decide⟩, by decide⟩
  · intro p h; cases h
  · intro h; exact absurd (h (0, { phase := .open_ }) (by decide)) (by decide)

/-- The busy clause of DETACH_TABLE is met: an open stream whose source is table 5. -/
theorem witness_DetachBusy : ∃ s : State, (∃ x, (5, x) ∈ s.work.tables) ∧ s.tableRead 5 = true :=
  ⟨{ work := { graph := some bareGraph, tables := [(5, {})], streams := [(0, { phase := .open_, src := 5 })] } }, ⟨{}, by decide⟩, by decide⟩

/-- The hypotheses of RunsAndEpochsExtendAStream are met. -/
theorem witness_RunsAndEpochsExtendAStream :
    (∃ (s : State) (c : Cmd), Begins s 1 8 c ∧ (s.stream c.entry.stream).phase = .open_ ∧ (s.stream c.entry.stream).stop = none) ∧
    (∃ (s : State) (c : Cmd), Begins s 1 8 c ∧ (s.stream c.entry.stream).phase ≠ .open_) ∧
    (∃ (s : State) (c c' : Cmd), Begins s 1 7 c ∧ (s.stream c.entry.stream).phase = .open_ ∧ (s.stream c.entry.stream).firstUnbegun = c.entry.p 1 ∧
      c'.entry.p 1 + 1 = (s.stream c.entry.stream).firstUnbegun) ∧
    (∃ (s : State) (c : Cmd), Begins s 1 7 c ∧ (s.stream c.entry.stream).phase ≠ .open_) := by
  let s : List Cmd → State := fun l => { cmds := l, work := { graph := some bareGraph, streams := [(63, { phase := .open_, released := 5 })] } }
  refine ⟨⟨s [aCmd 8 63 [1] .accepted], aCmd 8 63 [1] .accepted, ⟨by decide, by decide, by decide, by decide⟩, by decide, by decide⟩,
    ⟨s [aCmd 8 62 [1] .accepted], aCmd 8 62 [1] .accepted, ⟨by decide, by decide, by decide, by decide⟩, by decide⟩,
    ⟨s [aCmd 7 63 [3, 5] .accepted], aCmd 7 63 [3, 5] .accepted, aCmd 7 63 [3, 4] .accepted, ⟨by decide, by decide, by decide, by decide⟩,
      by decide, by decide, by decide⟩,
    ⟨s [aCmd 7 62 [3, 5] .accepted], aCmd 7 62 [3, 5] .accepted, ⟨by decide, by decide, by decide, by decide⟩, by decide⟩⟩

/-- The hypotheses of CloseCancelAndFence are met, clause by clause. -/
theorem witness_CloseCancelAndFence :
    (∃ (s : State) (c : Cmd), Begins s 1 6 c ∧ (s.stream c.entry.stream).phase = .open_) ∧
    (∃ (s : State) (c : Cmd), Begins s 1 6 c ∧ (s.stream c.entry.stream).phase ≠ .open_) ∧
    (∃ (s : State) (c : Cmd), Begins s 1 9 c ∧ s.cancelTarget c = none) ∧
    (∃ (s : State) (c x : Cmd), Begins s 1 9 c ∧ s.cancelTarget c = some x ∧ x.phase = .accepted ∧ x.seq ≠ 1) ∧
    (∃ (s : State) (c : Cmd), Begins s 1 10 c ∧ ∀ d ∈ s.cmds, d.seq < 1 → c.entry.p 0 % 2 = 0 ∧ d.qp ≠ c.qp) ∧
    (∃ (s : State) (c d : Cmd), s.cmd 1 = some c ∧ d ∈ s.cmds ∧ d.seq < 1 ∧ d.qp = c.qp) := by
  let x : Cmd := { aCmd 11 0 [2] .accepted with seq := 2, entry := { (aCmd 11 0 [2] .accepted).entry with id := 7 } }
  refine ⟨⟨{ cmds := [aCmd 6 63 [] .accepted], work := { streams := [(63, { phase := .open_ })] } }, aCmd 6 63 [] .accepted,
      ⟨by decide, by decide, by decide, by decide⟩, by decide⟩,
    ⟨{ cmds := [aCmd 6 0 [] .accepted] }, aCmd 6 0 [] .accepted, ⟨by decide, by decide, by decide, by decide⟩, by decide⟩,
    ⟨{ cmds := [aCmd 9 0 [7, 0] .accepted] }, aCmd 9 0 [7, 0] .accepted, ⟨by decide, by decide, by decide, by decide⟩, by decide⟩,
    ⟨{ cmds := [aCmd 9 0 [7, 0] .accepted, x] }, aCmd 9 0 [7, 0] .accepted, x, ⟨by decide, by decide, by decide, by decide⟩, by decide, by decide,
      by decide⟩,
    ⟨{ cmds := [aCmd 10 0 [1] .accepted] }, aCmd 10 0 [1] .accepted, ⟨by decide, by decide, by decide, by decide⟩, by decide⟩,
    ⟨{ cmds := [{ aCmd 8 0 [1] .executing with seq := 0 }, aCmd 10 0 [0] .accepted] }, aCmd 10 0 [0] .accepted,
      { aCmd 8 0 [1] .executing with seq := 0 }, by decide⟩⟩

/-- The hypotheses of QueryWarmRestartAndAttach are met, clause by clause: a graph block of exactly the room given, and one byte too few. -/
theorem witness_QueryWarmRestartAndAttach :
    (∃ (s : State) (c : Cmd) (bs : Bytes), Begins s 1 11 c ∧ s.writeOpen = true ∧ s.mayOutput = true ∧ c.entry.aspace = 0 ∧
      (s.modCmd 1 fun x => { x with phase := .executing }).queryBlock c.entry = some bs ∧ bs.length = c.entry.len0) ∧
    (∃ (s : State) (c : Cmd) (bs : Bytes), Begins s 1 11 c ∧ s.writeOpen = true ∧
      (s.modCmd 1 fun x => { x with phase := .executing }).queryBlock c.entry = some bs ∧ c.entry.len0 + 1 = bs.length) ∧
    (∃ (s : State) (c : Cmd), Begins (s.at_ 5) 1 12 c ∧ ∀ p ∈ s.mem.chans, p.2.begun = false) ∧
    (∃ (s : State) (c : Cmd), Begins (s.env ⟨[], [], []⟩) 1 1 c ∧ (c.entry.aspace = 0 → s.inD0 = true) ∧ ∃ y, (c.entry.p 0 % 65536, y) ∈ s.work.tables) := by
  let q : Nat → Cmd := fun n => { aCmd 11 0 [2] .accepted with entry := { (aCmd 11 0 [2] .accepted).entry with addr0 := 4096, len0 := n } }
  let a : Cmd := { aCmd 1 0 [7] .accepted with entry := { (aCmd 1 0 [7] .accepted).entry with addr0 := 4096, len0 := 1 } }
  exact ⟨⟨{ cmds := [q 16] }, q 16, leBytes 16 0, ⟨by decide, by decide, by decide, by decide⟩, by decide, by decide, by decide, by decide, by decide⟩,
    ⟨{ cmds := [q 15] }, q 15, leBytes 16 0, ⟨by decide, by decide, by decide, by decide⟩, by decide, by decide, by decide⟩,
    ⟨{ cmds := [aCmd 12 0 [] .accepted] }, aCmd 12 0 [] .accepted, ⟨by decide, by decide, by decide, by decide⟩, by decide⟩,
    ⟨{ cmds := [a], work := { tables := [(7, {})] } }, a, ⟨by decide, by decide, by decide, by decide⟩, fun _ => rfl, ⟨{}, by decide⟩⟩⟩

/-- LOAD_GRAPH of the small image at bus address 4,096. -/
def qLoad : Cmd := { aCmd 3 0 [] .accepted with entry := { (aCmd 3 0 [] .accepted).entry with addr0 := 4096, len0 := 896 } }
def qState : State := { present := one, fit := one, cmds := [qLoad], mem := { bus := writeBytes [] 4096 qImage } }

/-- The hypotheses of GraphLoadsOrAnswersItsFirstFailure are met: a graph that loads, one loaded already, a failing read, a bad header. -/
theorem witness_GraphLoadsOrAnswersItsFirstFailure :
    (Begins (qState.env ⟨[], [], []⟩) 1 3 qLoad ∧ qLoad.entry.aspace = 0 ∧ qState.inD0 = true ∧ qState.anyStackOff = false ∧ qState.work.graph = none ∧
      envFails ⟨[], [], []⟩ 4096 896 = false) ∧
    (((Begun (qState.env ⟨[], [], []⟩) 1).checkImage (readBytes (qState.env ⟨[], [], []⟩).mem.bus 4096 896) qLoad [] [] [] {} false).1 = 0) ∧
    envFails ⟨[], [(4991, 1)], []⟩ 4096 896 = true ∧
    headBad (parseHead (List.replicate 896 0#8)) 896 = true := by
  refine ⟨⟨⟨by decide, by decide, by decide, by decide⟩, by decide, rfl, by decide, rfl, by decide⟩, by decide +kernel, by decide, by decide +kernel⟩

/-- OPEN_STREAM of stream 0 with one output slot of 4,096 bytes whose ring entry lies at bus address 8,192. -/
def qOpen : Cmd := aCmd 5 0 [10, 11, 12, 8192, 1, 4096] .accepted
def qOpenState : State :=
  { present := one, fit := one, cmds := [qOpen], mem := { bus := writeBytes [] 8192 (leBytes 8 0x10000) }
    work := { graph := some qGraph, tables := [(7, { rows := 5, entry := some qOpen.entry })] } }

/-- The hypotheses of OpenedStreamStartsAtBatchZero are met. -/
theorem witness_OpenedStreamStartsAtBatchZero :
    Begins (qOpenState.env ⟨[], [], []⟩) 1 5 qOpen ∧ qOpenState.inD0 = true ∧ qOpenState.work.graph = some qGraph ∧ 0 < qGraph.streams ∧ (qOpenState.stream 0).phase = .closed ∧
    envFails ⟨[], [], []⟩ (qOpen.entry.p 3) (16 * qOpen.entry.p 4) = false ∧ qOpenState.fits qGraph.cfg = true ∧
    (∀ r ∈ recs (readBytes (qOpenState.env ⟨[], [], []⟩).mem.bus (qOpen.entry.p 3) (16 * qOpen.entry.p 4)) 0 16 (qOpen.entry.p 4),
      ringBad qOpenState (qOpen.entry.p 5) r = false ∧ fieldAt r 0 8 % 4096 = 0) ∧
    outBeyond qGraph 0 (qOpen.entry.p 5) = false ∧ srcBad qOpenState qGraph 0 7 = false ∧ srcLimit qOpenState qGraph 0 7 = false ∧
    qGraph.stagesFor 0 7 = [] ∧ bitOf 7 12 = false ∧ (tget {} qOpenState.work.tables (7 % 4096)).format = 3 ∧
    (tget {} qOpenState.work.tables (7 % 4096)).rows ≠ 0 ∧ (∀ k < 16, ∀ x ∈ (qOpenState.disp k).slots, x.2.stream = 0 → x.2.batch ≠ none) := by
  refine ⟨⟨by decide, by decide, by decide, by decide⟩, rfl, rfl, by decide +kernel, by decide, by decide, by decide +kernel, by decide +kernel,
    by decide +kernel, by decide +kernel, by decide +kernel, by decide +kernel, by decide, by decide, by decide, ?_⟩
  intro k _ x hx; cases hx

/-- The refusing clauses: a stream in use, a stream number beyond the graph's, a failing ring read. -/
theorem witness_OpenStreamRefusals : qGraph.streams ≤ 1 ∧ envFails ⟨[], [(8207, 1)], []⟩ 8192 16 = true ∧
    ∃ s : State, (s.stream 0).phase ≠ .closed := ⟨by decide +kernel, by decide, { work := { streams := [(0, { phase := .closing })] } }, by decide⟩

/-- A blocked table of one UINT8 column and one row, by its header and descriptor; its span lies at 4 MiB. -/
def blkHead : Bytes :=
  let h := [0x51#8, 0x42#8, 0x4C#8, 0x1A#8] ++ leBytes 2 1 ++ leBytes 2 1 ++ leBytes 8 1 ++ leBytes 8 0x402000 ++ leBytes 36 0
  let d := leBytes 4 3
  let r := leBytes 8 0x400000 ++ leBytes 8 0 ++ leBytes 8 8192
  h ++ leBytes 4 (crc32c h) ++ d ++ leBytes 4 (crc32c (d ++ r)) ++ r

/-- ATTACH_TABLE of id 4095 whose one extent lies at bus address 65,536. -/
def blkCmd : Cmd := { aCmd 1 0 [0x30FFF] .accepted with entry := { (aCmd 1 0 [0x30FFF] .accepted).entry with addr0 := 4096, len0 := 1 } }
def blkState : State :=
  { cmds := [blkCmd], mem := { bus := writeBytes (writeBytes [] 4096 (leBytes 8 65536 ++ leBytes 8 0x402000)) 65536 blkHead } }
def blkList : List Bytes := recs (readBytes (blkState.env ⟨[], [], []⟩).mem.bus 4096 16) 0 16 1

/-- The hypotheses of BlockedTableAttaches are met. -/
theorem witness_BlockedTableAttaches : Begins (blkState.env ⟨[], [], []⟩) 1 1 blkCmd ∧ blkCmd.entry.aspace = 0 ∧ blkState.inD0 = true ∧
    bitsOf (blkCmd.entry.p 0) 23 16 = 3 ∧ (∀ y, (blkCmd.entry.p 0 % 65536, y) ∉ blkState.work.tables) ∧ envFails ⟨[], [], []⟩ 4096 16 = false ∧
    (∀ b ∈ blkList, extBad blkState b = false) ∧ (∀ y ∈ blkList.map parseExt, y.space = .bus) ∧
    ((blkState.env ⟨[], [], []⟩).attachBlocked ⟨[], [], []⟩ (blkList.map parseExt)).1 = 0 ∧
    envFails ⟨[], [(4111, 9)], []⟩ 4096 16 = true ∧ extBad blkState (List.replicate 16 0#8) = true := by
  refine ⟨⟨by decide, by decide, by decide, by decide⟩, by decide, rfl, by decide, ?_, by decide, by decide +kernel, by decide +kernel, by decide +kernel,
    by decide, by decide⟩
  intro y h; cases h

/-- The hypotheses of IntegerLanesWrapOrClamp are met, each word the next of its program: INT8, the last lane, -128 and 127. -/
theorem witness_IntegerLanesWrapOrClamp : ∀ op ∈ [0x20, 0x21, 0x22, 0x23, 0x2B, 0x2C], ∃ (s : State) (f : Fields), s.issues e0 op f = true ∧
    isIntTy f.ty.val = true ∧ laneTy f.ty.val = some ⟨1, .sint⟩ ∧ 31 < 32 / 1 ∧ LaneOn s e0 f 31 ∧ laneIn s e0 1 f.va.val 31 = some 128 ∧
    laneIn s e0 1 f.vb.val 31 = some 127 := by
  intro op h
  refine ⟨eng op (fd 2) [(2, 0x80#256 <<< 248), (3, 0x7F#256 <<< 248)] [(2, 0x80000000), (3, 0x80000000)] [], fd 2, ?_⟩
  revert op; unfold LaneOn; decide +kernel

/-- The hypotheses of DivisionLanes are met in each of its clauses, each word the next of its program: INT8 -128 / 0, -128 / -1 and -7 / 2. -/
theorem witness_DivisionLanes : ∀ p ∈ [((128 : Nat), (0 : Nat)), (128, 255), (249, 2)], ∀ op ∈ [0x25, 0x26, 0x27, 0x28], ∃ (s : State) (f : Fields),
    s.issues e0 op f = true ∧ isIntTy f.ty.val = true ∧ laneTy f.ty.val = some ⟨1, .sint⟩ ∧ LaneOn s e0 f 31 ∧
    laneIn s e0 1 f.va.val 31 = some p.1 ∧ laneIn s e0 1 f.vb.val 31 = some p.2 := by
  intro p h op g
  refine ⟨eng op (fd 2) [(2, BitVec.ofNat 256 p.1 <<< 248), (3, BitVec.ofNat 256 p.2 <<< 248)] [(2, 0x80000000), (3, 0x80000000)] [], fd 2, ?_⟩
  revert op; revert p; unfold LaneOn; decide +kernel

/-- The hypotheses of ShiftAndBitLanes are met, each word the next of its program: an UINT8 lane by VB and by IMM, a lane of 0, a BOOL lane. -/
theorem witness_ShiftAndBitLanes : ∀ p ∈ [((3 : Nat), (0 : Nat)), (3, 1), (1, 0)],
    ∀ op ∈ [0x50, 0x51, 0x52, 0x53, 0x54, 0x55, 0x56, 0x57, 0x58, 0x59, 0x5A, 0x5B], ∃ (s : State) (f : Fields), s.issues e0 op f = true ∧
      f.ty.val = p.1 ∧ f.sub.val = p.2 ∧ LaneOn s e0 f 31 ∧ laneIn s e0 1 f.va.val 31 = some 0x96 ∧ laneIn s e0 1 f.vb.val 31 = some 7 ∧
      laneIn s e0 1 f.va.val 30 = some 0 := by
  intro p h op g
  refine ⟨eng op { fd (Fin.ofNat 256 p.1) with sub := Fin.ofNat 16 p.2 } [(2, 0x96#256 <<< 248), (3, 0x7#256 <<< 248)]
    [(2, 0xC0000000), (3, 0xC0000000)] [], { fd (Fin.ofNat 256 p.1) with sub := Fin.ofNat 16 p.2 }, ?_⟩
  revert op; revert p; unfold LaneOn; decide +kernel

/-- The hypotheses of FloatingPointLanes are met, each word the next of its program: FP16 NaN, -0, -infinity against NaN, +0; and a NaN in each word
that computes a normalisation. -/
theorem witness_FloatingPointLanes : (∀ p ∈ [((0x7E01 : Nat), (0x3C00 : Nat)), (0x8000, 0), (0xFC00, 0x7E01), (0x3C00, 0x7E01)],
    ∀ op ∈ [0x20, 0x21, 0x22, 0x24, 0x25, 0x29, 0x2A, 0x2B, 0x2C, 0x2D, 0x2E, 0x38, 0x39, 0x3A, 0x3B, 0x3C, 0x3D, 0x3E, 0x3F], ∃ (s : State) (f : Fields),
      s.issues e0 op f = true ∧ s.normAt e0 op = none ∧ isFltTy f.ty.val = true ∧ laneTy f.ty.val = some ⟨2, .flt fp16⟩ ∧ LaneOn s e0 f 15 ∧
      laneIn s e0 2 f.va.val 15 = some p.1 ∧ laneIn s e0 2 f.vb.val 15 = some p.2 ∧ laneIn s e0 2 f.vc.val 15 = some 0x7E01) ∧
    (∀ m ∈ [(0 : Fin 3), 2], ∀ op ∈ [(0x24, NormKind.zscore), (0x2D, .clip), (0x3A, .log1p), (0x2F, .quantile)], ∃ (s : State) (f : Fields) (n : Norm),
      s.issues e0 op.1 f = true ∧ s.normAt e0 op.1 = some n ∧
      n.nanMode = m ∧ laneTy f.ty.val = some ⟨2, .flt fp16⟩ ∧ laneIn s e0 2 f.va.val 15 = some 0x7E01 ∧ laneIn s e0 2 f.va.val 14 = some 0x3C00 ∧
      fp16.isNan 0x7E01 = true ∧ fp16.isNan 0x3C00 = false ∧ ratOf (fp64.decode ((s.normParams n).getD 1 0)) = 0) := by
  refine ⟨fun p h op g => ⟨eng op (fd 0x10) [(2, BitVec.ofNat 256 p.1 <<< 240), (3, BitVec.ofNat 256 p.2 <<< 240), (4, 0x7E01#256 <<< 240)]
    [(2, 0x8000), (3, 0x8000), (4, 0x8000)] [], fd 0x10, ?_⟩, fun m h op g => ?_⟩
  · revert op; revert p; unfold LaneOn; decide +kernel
  · let n : Norm := { kind := op.2, nanMode := m, fill := 0x3C00, flag := false, params := [0, 0], fit := none }
    refine ⟨(eng op.1 (fd 0x10) [(2, 0x7E013C00#256 <<< 224)] [(2, 0xC000)] []).modWork fun w =>
      { w with graph := some { bareGraph with decls := { norms := [(0, 0, n)] } } }, fd 0x10, n, ?_⟩
    revert op; revert m; decide +kernel

/-- The hypotheses of SelectingLanes are met, each word the next of its program: a digit byte beside an invalid one, and FP16 NaN and -0. -/
theorem witness_SelectingLanes : (∀ op ∈ [0x2F, 0x30, 0x40, 0x42, 0x43, 0x44, 0x45, 0x46, 0x47, 0x48, 0x73, 0x74, 0xA0, 0xA1, 0xA2], ∃ (s : State) (f : Fields),
      s.issues e0 op f = true ∧ laneTy f.ty.val = some ⟨1, .uint⟩ ∧ f.ty.val = 3 ∧ LaneOn s e0 f 31 ∧ isIntTy f.ty.val = true ∧
      laneIn s e0 1 f.va.val 31 = some 0x39 ∧ laneIn s e0 1 f.vb.val 31 = some 255 ∧ laneIn s e0 1 f.vb.val 30 = none) ∧
    (∀ op ∈ [0x40, 0x41], ∃ (s : State) (f : Fields), s.issues e0 op f = true ∧ laneTy f.ty.val = some ⟨2, .flt fp16⟩ ∧ LaneOn s e0 f 0 ∧
      isFltTy f.ty.val = true ∧ laneIn s e0 2 f.va.val 0 = some 0x8000 ∧ laneIn s e0 2 f.vb.val 0 = some 0x7E01) := by
  refine ⟨fun op h => ⟨eng op (fd 3) [(2, 0x39#256 <<< 248), (3, 0xFF#256 <<< 248)] [(2, 0x80000000), (3, 0x80000000)] [], fd 3, ?_⟩,
    fun op h => ⟨eng op (fd 0x10) [(2, 0x8000), (3, 0x7E01)] [(2, 1), (3, 1)] [], fd 0x10, ?_⟩⟩
  · revert op; unfold LaneOn; decide +kernel
  · revert op; unfold LaneOn; decide +kernel

/-- The hypotheses of MaskedLanesAndInvalidSources are met: a masked-off lane and an executed one with an invalid source, INT64. -/
theorem witness_MaskedLanesAndInvalidSources : ∃ (s : State) (f : Fields), NextWord (.add e0 f) s ∧ WordCmd (.add e0 f) e0 f 0x20 ∧ 0x20 ∈ laneOps ∧
    laneTy f.ty.val = some ⟨8, .sint⟩ ∧ (s.engine (engineNo e0)).on f.mask.val 3 = false ∧ LaneOn s e0 f 0 ∧ laneIn s e0 8 f.va.val 0 = none :=
  ⟨eng 0x20 { fd 8 with mask := 5, mz := true } [] [] [(5, 1)], { fd 8 with mask := 5, mz := true }, nextWord_of rfl (by decide +kernel),
    by unfold LaneOn WordCmd; decide +kernel⟩

/-- The hypotheses of ProgramOrderLoopsAndTiles are met clause by clause. -/
theorem witness_ProgramOrderLoopsAndTiles : (∀ op ∈ [0, 1], Runs (prog 0 0 0 [] op (fd 3)) e0 (progCx 0 0 op (fd 3)) ∧
      (prog 0 0 0 [] op (fd 3)).issues e0 op (fd 3) = true ∧ 0 + 1 < (progCx 0 0 op (fd 3)).body.length) ∧
    (∀ n ∈ [1, 2], Runs (prog 0 0 1 [(1, n)] 2 (fd 3)) e0 (progCx 0 1 2 (fd 3)) ∧ (prog 0 0 1 [(1, n)] 2 (fd 3)).issues e0 2 (fd 3) = true ∧
      ((prog 0 0 1 [(1, n)] 2 (fd 3)).engine (engineNo e0)).loops = [(1, n)]) ∧
    (Runs (prog 0 0 2 [] 0 (fd 3)) e0 (progCx 0 2 0 (fd 3)) ∧ (prog 0 0 2 [] 0 (fd 3)).issues e0 0 (fd 3) = true ∧
      (progCx 0 2 0 (fd 3)).body.length ≤ 3 ∧ (0 : Nat) + (progCx 0 2 0 (fd 3)).engines < (progCx 0 2 0 (fd 3)).tiles) ∧
    (progCx 0 2 0 (fd 3)).tiles ≤ 1 + (progCx 0 2 0 (fd 3)).engines ∧
    (∃ c, wordParts c = some (0x20, e0, fd 3) ∧ (prog 0 0 2 [] 0 (fd 3)).issues e0 0x20 (fd 3) = false) := by
  refine ⟨?_, ?_, ?_, ?_, .add e0 (fd 3), rfl, ?_⟩ <;> (try unfold Runs) <;> decide +kernel

/-- The hypotheses of StreamAccesses are met, each word the next of its program: the last line of the core store, a bitmap at its end, and one
byte beyond. -/
theorem witness_StreamAccesses : (∀ op ∈ [0x10, 0x11], ∃ s cx d, StreamAt s e0 cx { fd 9 with va := 0 } d 0x5FFE0 ∧ d.mode = 0 ∧
      s.issues e0 op { fd 9 with va := 0 } = true ∧ LaneOn s e0 { fd 9 with va := 0 } 3) ∧
    (∀ op ∈ [0x12, 0x13], ∃ s cx d, StreamAt s e0 cx { fd 3 with va := 0 } d 0x5FFFC ∧ d.mode = 2 ∧
      s.issues e0 op { fd 3 with va := 0 } = true ∧ LaneOn s e0 { fd 3 with va := 0 } 31) ∧
    (∃ s cx d, StreamAt s e0 cx { fd 9 with va := 0 } d 0x5FFE1 ∧ d.mode = 0 ∧ s.issues e0 0x10 { fd 9 with va := 0 } = true) ∧
    laneTy 9 = some ⟨8, .uint⟩ ∧ laneTy 3 = some ⟨1, .uint⟩ := by
  let d : Nat → StreamDesc := fun m => { base := 64, step := 32, stride := 32, mode := m, esize := 0 }
  refine ⟨fun op h => ⟨prog 0 0x5FFE0 0 [] op { fd 9 with va := 0 }, progCx 0 0 op { fd 9 with va := 0 }, d 0, ?_⟩,
    fun op h => ⟨prog 2 0x5FFFC 0 [] op { fd 3 with va := 0 }, progCx 2 0 op { fd 3 with va := 0 }, d 2, ?_⟩,
    ⟨prog 0 0x5FFE1 0 [] 0x10 { fd 9 with va := 0 }, progCx 0 0 0x10 { fd 9 with va := 0 }, d 0, ?_⟩, rfl, rfl⟩
  · revert op; unfold StreamAt Runs LaneOn; decide +kernel
  · revert op; unfold StreamAt Runs LaneOn; decide +kernel
  · unfold StreamAt Runs; decide +kernel

/-- The hypotheses of ReductionWords are met, each word the next of its program: INT16 with two contributing lanes, and with none. -/
theorem witness_ReductionWords : ∀ op ∈ [0x90, 0x91, 0x92, 0x93, 0x94, 0x95, 0x96], (∃ (s : State) (f : Fields), s.issues e0 op f = true ∧
      isIntTy f.ty.val = true ∧ laneTy f.ty.val = some ⟨2, .sint⟩ ∧ TypeSet.widen.has f.ty.val = true ∧ contributing s e0 f 2 = [0x8000, 5]) ∧
    (∃ (s : State) (f : Fields), s.issues e0 op f = true ∧ isIntTy f.ty.val = true ∧ contributing s e0 f 2 = []) := by
  intro op h
  refine ⟨⟨eng op (fd 4) [(2, 0x8000 + (5#256 <<< 240))] [(2, 0x8001)] [], fd 4, ?_⟩, ⟨eng op (fd 4) [] [] [], fd 4, ?_⟩⟩
  · revert op; decide +kernel
  · revert op; decide +kernel

/-- The hypotheses of ConvertingWords are met, each word the next of its program: INT32 to INT8 into part 3, a NaN block of FP32, a scale of 0xFF. -/
theorem witness_ConvertingWords : (∃ (s : State) (f : Fields), s.issues e0 0x60 f = true ∧ isIntTy (f.imm.val % 256) = true ∧ isIntTy f.ty.val = true ∧
      laneTy (f.imm.val % 256) = some ⟨4, .sint⟩ ∧ laneTy f.ty.val = some ⟨1, .sint⟩ ∧ f.sub.val % 4 = 3 ∧ laneIn s e0 4 f.va.val 7 = some 0xFFFFFF00 ∧
      LaneOn s e0 f 31) ∧
    (∃ (s : State) (f : Fields), s.issues e0 0x61 f = true ∧ TypeSet.qmx.has f.ty.val = true ∧ laneTy f.ty.val = some ⟨4, .flt fp32⟩ ∧ f.vd ≠ f.vb ∧
      laneIn s e0 4 f.va.val 0 = some 0x7FC00001 ∧ fp32.isNan 0x7FC00001 = true) ∧
    (∃ (s : State) (f : Fields), s.issues e0 0x62 f = true ∧ TypeSet.dqmx.has f.ty.val = true ∧ laneOf 1 ((s.engine (engineNo e0)).reg f.vb.val) 0 = 0xFF ∧
      tget 0 (s.engine (engineNo e0)).valid f.vb.val = BitVec.allOnes 32 ∧ tget 0 (s.engine (engineNo e0)).valid f.va.val = BitVec.allOnes 32) ∧
    (∃ (s : State) (f : Fields), s.issues e0 0x63 f = true ∧ laneTy f.ty.val = some ⟨2, .uint⟩ ∧ LaneOn s e0 f 15 ∧ laneIn s e0 2 f.va.val 15 = some 0xFFFF) :=
  ⟨⟨eng 0x60 { fd 2 with sub := 3, imm := 6 } [(2, 0xFFFFFF00#256 <<< 224)] [(2, 0x80)] [], { fd 2 with sub := 3, imm := 6 }, by unfold LaneOn; decide +kernel⟩,
   ⟨eng 0x61 (fd 0x12) [(2, 0x7FC00001)] [(2, 1)] [], fd 0x12, by decide +kernel⟩,
   ⟨eng 0x62 (fd 0x12) [(3, 0xFF)] [(2, 0xFFFFFFFF), (3, 0xFFFFFFFF)] [], fd 0x12, by decide +kernel⟩,
   ⟨eng 0x63 (fd 5) [(2, 0xFFFF#256 <<< 240)] [(2, 0x8000)] [], fd 5, by unfold LaneOn; decide +kernel⟩⟩

/-- The hypotheses of ByteAndHashWords are met, each word the next of its program: bytes with and without a match, a lead byte last, four lanes
of a SipRound, a CRC of one byte. -/
theorem witness_ByteAndHashWords : (∀ op ∈ [0x70, 0x71, 0x72, 0x73], ∃ (s : State) (f : Fields), s.issues e0 op f = true ∧ f.ty.val = 3 ∧ f.mask.val = 0 ∧
      (∀ i, i < 32 → (s.engine (engineNo e0)).isValid f.va.val i = true ∧ (s.engine (engineNo e0)).isValid f.vb.val i = true) ∧
      laneOf 1 ((s.engine (engineNo e0)).reg f.va.val) 31 = 0xE1 ∧ (∀ i, i < 31 → laneOf 1 ((s.engine (engineNo e0)).reg f.va.val) i < 0x80)) ∧
    (∀ op ∈ [0x80, 0x82, 0x83], ∃ (s : State) (f : Fields), s.issues e0 op f = true ∧ f.ty.val = 9 ∧ f.mask.val = 0 ∧ LaneOn s e0 f 3 ∧
      laneIn s e0 8 f.va.val 3 = some 0 ∧ laneIn s e0 8 f.vb.val 3 = some 0) ∧
    (∃ (s : State) (f : Fields), s.issues e0 0x81 f = true ∧ f.ty.val = 7 ∧ f.sub.val = 0 ∧ f.imm.val % 64 = 1 ∧
      (s.engine (engineNo e0)).isValid f.va.val 0 = true ∧ laneIn s e0 4 f.vb.val 0 = some 0) := by
  let ok : Tab (BitVec 32) := [(2, 0xFFFFFFFF), (3, 0xFFFFFFFF)]
  refine ⟨fun op h => ⟨eng op (fd 3) [(2, 0xE1#256 <<< 248)] ok [], fd 3, ?_⟩, fun op h => ⟨eng op (fd 9) [] ok [], fd 9, ?_⟩,
    ⟨eng 0x81 { fd 7 with imm := 1 } [] ok [], { fd 7 with imm := 1 }, by decide +kernel⟩⟩
  · revert op; decide +kernel
  · revert op; unfold LaneOn; decide +kernel

/-- The hypotheses of BodyWordsEncodeAndDecode are met: SUB with its highest registers, written out bit by bit from R154. -/
theorem witness_BodyWordsEncodeAndDecode : ∃ c, decodeStreamWord e0 0b1111111111111111_1111_1_111_1_111_11111_11111_11111_11111_00001001_00100001 = some c ∧
    wordParts c = some (0x21, e0, { ty := 9, vd := 31, va := 31, vb := 31, vc := 31, mask := 7, mz := true, rnd := 7, sat := true, sub := 15, imm := 65535 }) :=
  ⟨_, rfl, rfl⟩

/-- The hypotheses of RecordsAreReleasedReadyAndPlaced are met, clause by clause. -/
theorem witness_RecordsAreReleasedReadyAndPlaced :
    (∃ s : State, (s.stream 63).phase = .open_ ∧ (s.stream 63).armed.isSome = true) ∧
    (∃ s : State, (s.stream 63).phase = .open_ ∧ (s.stream 63).armed = none ∧ (s.stream 63).busy = true) ∧
    (∃ s : State, ∃ c, (s.stream 0).phase = .open_ ∧ (s.stream 0).armed = none ∧ (s.stream 0).busy = false ∧ s.cadence 0 = some c) ∧
    ((tState 0 .delayed).clusterWorks 0 = true ∧ 0 ∈ ((tState 0 .delayed).disp 0).delay ∧ ((tState 0 .delayed).disp 0).startAt 0 ≤ (tState 0 .delayed).pos ∧
      0 ∈ (((tState 0 .delayed).disp 0).delay.filter fun j => decide (((tState 0 .delayed).disp 0).startAt j ≤ ((tState 0 .delayed).disp 0).due)).take 32 ∧
      ∀ p ∈ ((tState 0 .delayed).disp 0).slots, p.2.state ≠ .waiting) ∧
    (∃ t p, RecordOf (tState 0 .waiting) tGraph 0 0 t p ∧ OnlyRecord (tState 0 .waiting) 0 0 .waiting ∧ ((tState 0 .waiting).disp 0).delay = [] ∧ t.waitMask = 1) ∧
    (∃ t p, RecordOf (tState 0 .ready) tGraph 0 0 t p ∧ t.kind = 1 ∧ (tState 0 .ready).placeFor tGraph 0 0 = some 0 ∧
      ((tState 0 .ready).disp 0).ready = [(3, [0])] ∧ ((tState 0 .ready).core 0).freeEntry = some 0) ∧
    (((tCore 0 1 .prefetched).core 0).hop 0).state = 1 :=
  ⟨⟨{ work := { streams := [(63, { phase := .open_, armed := some (1, 2) })] } }, by decide +kernel⟩,
   ⟨{ work := { streams := [(63, { phase := .open_, batches := [{ (newBatch 0 0 0) with begun := true }] })] } }, by decide +kernel⟩,
   ⟨{ work := { graph := some tGraph, streams := [(0, { phase := .open_ })] } }, parseCadence (leBytes 4 0 ++ leBytes 4 1 ++ leBytes 4 1 ++ leBytes 4 2),
    by decide +kernel⟩,
   by decide +kernel,
   ⟨parseTpl (tTpl 0xFFFF 0xFF), tPlace 0, ⟨rfl, by decide +kernel, by decide +kernel⟩, ⟨by decide +kernel, by decide +kernel⟩, by decide +kernel⟩,
   ⟨parseTpl (tTpl 0xFFFF 0xFF), tPlace 0, ⟨rfl, by decide +kernel, by decide +kernel⟩, by decide +kernel⟩, by decide +kernel⟩

/-- A unit task of template `qTpl` at the head of Quern's queue on cluster 0. -/
def tUnit : State :=
  { present := one
    work := { graph := some qGraph
              streams := [(0, { phase := .open_, runLimit := 1, batches := [{ (newBatch 0 0 0) with insts := 1 }] })]
              disps := [(0, { slots := [(0, { state := .ready, tpl := 0, place := 0, stream := 0, batch := some 0, seat := 1 })]
                              frames := [(0, { used := true, stream := 0, batch := some 0, flags := 1 })]
                              unitQ := [(1, [0])] })] } }

/-- Stream 0 open with a batch to instantiate, or with none. -/
def tOpen (lim : Nat) : State := { present := one, work := { graph := some tGraph, streams := [(0, { phase := .open_, runLimit := lim })] } }

/-- The hypotheses of TasksInstantiateStartAndComplete are met, clause by clause. -/
theorem witness_TasksInstantiateStartAndComplete :
    (∀ n ∈ [(0 : Nat), 1], (tOpen n).work.graph = some tGraph ∧ (tOpen n).logicalOf 0 = some 0 ∧ (tOpen n).clusterWorks 0 = true ∧
      ((tOpen n).modDisp 0 Disp.adopt).bestBatch tGraph 0 0 = if n = 0 then none else some (0, 0)) ∧
    (∃ t p, RecordOf (tCore 0 2 .prefetched) tGraph 0 0 t p ∧ CoreServes (tCore 0 2 .prefetched) 0 0 ∧ (((tCore 0 2 .prefetched).core 0).hop 0).state = 2 ∧
      (tCore 0 2 .prefetched).mayStart (((tCore 0 2 .prefetched).disp 0).task 0) = true ∧ tGraph.tplInPhase 0 tGraph.phase = true) ∧
    (tget [] (tUnit.disp 0).unitQ 1 = [0] ∧ ((tUnit.disp 0).task 0).state = .ready ∧ tUnit.clusterWorks 0 = true ∧ tUnit.unitWorks 0 1 = true ∧
      tUnit.mayStart ((tUnit.disp 0).task 0) = true ∧ qGraph.tplInPhase 0 qGraph.phase = true ∧ tUnit.gatherWaits qGraph ((tUnit.disp 0).task 0) = false ∧
      tUnit.holdsTask qGraph 0 ((tUnit.disp 0).task 0) = false ∧ tUnit.barrierOpen qGraph ((tUnit.disp 0).task 0) = true) ∧
    (∃ t p, RecordOf (tCore 0 3 .running) tGraph 0 0 t p ∧ t.flow = 0xFFFF ∧ t.weir = 0xFF ∧
      (tCore 0 3 .running).taskEnded tGraph 0 (((tCore 0 3 .running).disp 0).task 0) = true ∧ (tCore 0 3 .running).coreFaulted 0 = false) ∧
    (∃ t p fr, RecordOf (tCore 1 3 .running) tGraph 0 0 t p ∧ tGraph.flowRec t.flow = some fr ∧ t.flow ≠ 0xFFFF ∧
      (tCore 1 3 .running).taskEnded tGraph 0 (((tCore 1 3 .running).disp 0).task 0) = true ∧ segSeq fr 0 p.seg < fr.window) := by
  refine ⟨by decide +kernel,
    ⟨parseTpl (tTpl 0xFFFF 0xFF), tPlace 0, ⟨rfl, by decide +kernel, by decide +kernel⟩, ⟨by decide +kernel, by decide +kernel, by decide⟩, by decide +kernel⟩, by decide +kernel,
    ⟨parseTpl (tTpl 0xFFFF 0xFF), tPlace 0, ⟨rfl, by decide +kernel, by decide +kernel⟩, by decide +kernel⟩,
    ⟨parseTpl (tTpl 0 0), tPlace 1, { flow := 0, stream := 0, segs := 1, window := 1, outOff := 0, segBytes := 4 }, ⟨rfl, by decide +kernel, by decide +kernel⟩, by decide +kernel⟩⟩

/-- The state in which the hypotheses of FlagsBarriersAndFlows about flows are met: a task of template 1 that hands off, a held segment, a done batch. -/
def tFlow : State :=
  let s := tState 1 .running
  { s with
    cmds := [aCmd 8 0 [1] .executing]
    work := { s.work with
      streams := [(0, { phase := .open_, runLimit := 1, slots := [(4096, .hbm)], slotBytes := 64, runs := [{ seq := 1, last := 1, count := 0, cancelled := false }]
                        batches := [{ (newBatch 0 0 0) with insts := 1, begun := true, intakeDone := 1 }] })]
      disps := [(0, { slots := [(0, { state := .running, tpl := 1, place := 1, stream := 0, batch := some 0, prio := 3, start := 0, handing := true })]
                      frames := [(0, { used := true, stream := 0, batch := some 0, flags := 32 })] })]
      flows := [(0, { next := 0, held := [{ seq := 0, batch := 0, seg := 0, bytes := [1, 2, 3, 4] }] })] } }

/-- The hypotheses of FlagsBarriersAndFlows are met, clause by clause. -/
theorem witness_FlagsBarriersAndFlows :
    ((tFlow.disp 0).frameOf 0 (some 0) = some 0 ∧ bitOf (tget ({} : Frame) (tFlow.disp 0).frames 0).flags 5 = true) ∧
    (∃ r, tGraph.weirRec 0 = some r ∧ r.action = 0 ∧ r.arrivals = 1 ∧ ({ tFlow.weir 0 with arrived := tmod 0 0 (· + 1) (tFlow.weir 0).arrived }.owes r) = [] ∧
      tFlow.clusters[0]? = some 0 ∧ (tFlow.weir 0).closed.contains 0 = false) ∧
    (∃ t p fr, RecordOf tFlow tGraph 0 0 t p ∧ tGraph.flowRec t.flow = some fr ∧ segSeq fr 0 p.seg = 0 ∧ fr.window = 1) ∧
    (∃ h, (tFlow.flow 0).held.find? (fun h => h.seq == (tFlow.flow 0).next) = some h ∧ (tFlow.stream 0).outSlot h.batch = some (4096, .hbm) ∧
      tFlow.mayRelease .hbm = true ∧ tFlow.shadows = false ∧ tFlow.pair.doneEarly.contains (0, h.batch) = false ∧ tFlow.intakeOver tGraph 0 h.batch = true ∧ tFlow.hbmOk 4096 4 = true) ∧
    (∃ s : State, ∃ b rr c, s.work.graph = some tGraph ∧ (s.stream 0).batches = [b] ∧ (s.stream 0).runOf b.num = some rr ∧ s.cmd rr.seq = some c ∧
      s.mirrors = false ∧ s.pair.early = [] ∧ s.pair.doneEarly = [] ∧ s.reannounces 0 b.num = false ∧ (s.stream 0).nextInOrder b.num = true ∧
      s.batchDone tGraph 0 b = true) := by
  refine ⟨by decide +kernel, ⟨{ inst := 0, action := 0, stream := 0, parts := 1, arrivals := 1, flag := 5 }, by decide +kernel⟩,
    ⟨parseTpl (tTpl 0 0), tPlace 1, { flow := 0, stream := 0, segs := 1, window := 1, outOff := 0, segBytes := 4 }, ⟨rfl, by decide +kernel, by decide +kernel⟩, by decide +kernel⟩,
    ⟨{ seq := 0, batch := 0, seg := 0, bytes := [1, 2, 3, 4] }, by decide +kernel⟩,
    ⟨{ tFlow with work := { tFlow.work with disps := [], flows := [(0, { next := 1 })] } }, { (newBatch 0 0 0) with insts := 1, begun := true, intakeDone := 1 },
      { seq := 1, last := 1, count := 0, cancelled := false }, aCmd 8 0 [1] .executing, by decide +kernel⟩⟩

/-- The hypotheses of QuernRunsItsTasks are met: each operator's task runs, the tables are readable, and an as-of match exists. -/
theorem witness_QuernRunsItsTasks :
    (∀ op ∈ [1, 2, 4, 6, 8, 12], (uState 1 op 0 [0, 0, 0, 0, 1, 0x0700, 0x0700, 0]).unitJob 0 0 1 op = some (uJob 1 op 0 [0, 0, 0, 0, 1, 0x0700, 0x0700, 0])) ∧
    (∀ op ∈ [3, 5, 7], let ps := [0, 7, 0, 7, 1, 0x0700, 0x0700, 0]
      ((uState 1 op 2 ps).env ⟨[], [], []⟩).unitJob 0 0 1 op = some (uJob 1 op 2 ps) ∧ ((uState 1 op 2 ps).env ⟨[], [], []⟩).tableReady 0 7 = true ∧
      ((((uState 1 op 2 ps).env ⟨[], [], []⟩).viewTable ⟨[], [], []⟩ (uGraph 1 op 2 ps) 0 7).stageRows [parseCol 0x0700] []).isSome = true ∧
      ((uState 1 op 2 ps).env ⟨[], [], []⟩).poisonedIn ((((uState 1 op 2 ps).env ⟨[], [], []⟩).viewTable ⟨[], [], []⟩ (uGraph 1 op 2 ps) 0 7).pieces [0]) = false) ∧
    (∃ r : BuildRow, asofMatch true 5 [r] 12 = (some r, false)) :=
  ⟨by decide +kernel, by decide +kernel,
    ⟨{ row := 0, hash := 0, key := [], payload := [], time := 10 }, by decide⟩⟩

/-- The hypotheses of GroupsSketchesAndSelectionsRun are met: every operator's task runs and brings the one part of its template, and entries are
eligible. -/
theorem witness_GroupsSketchesAndSelectionsRun :
    (∀ x ∈ [(1, 9), (1, 10), (1, 11), (2, 1)], ∀ m ∈ [0, 1], let ps := [1, m, 0, 0, 0x0700, 0, 0x0700, 0, 0x0700, 0, 0x0700]
      (uState x.1 x.2 0 ps).unitJob 0 0 x.1 x.2 = some (uJob x.1 x.2 0 ps) ∧ (uJob x.1 x.2 0 ps).derived = none ∧ (uJob x.1 x.2 0 ps).g.decls.fits = [] ∧
        ((uJob x.1 x.2 0 ps).g.tplPlaces 0).length = 1) ∧
    (∀ m ∈ [0, 1], let ps := [1, m, 0, 0, 0x0700, 0, 0x0700, 0, 0x0700, 0, 0x0700]
      let j := uJob 1 9 0 ps
      let p := groupPart (uState 1 9 0 ps) j { first := 0, count := 1, per := 1 } [1]
      Fresh (uState 1 9 0 ps) j p ∧ NoSpill (uState 1 9 0 ps) j p ∧ shared (uState 1 9 0 ps) j p = [p]) ∧
    (∀ m ∈ [0, 1, 2], let ps := [1, 1, m, 0, 0, 0, 0, 7, 0x0700, 0, 0x0700]
      let s0 := (uState 2 2 0 ps).env ⟨[], [], []⟩
      s0.unitJob 0 0 2 2 = some (uJob 2 2 0 ps) ∧ s0.tableReady 0 7 = true ∧
        s0.poisonedIn ((s0.viewTable ⟨[], [], []⟩ (uGraph 2 2 0 ps) 0 7).rowPieces 0 0 1) = false) ∧
    eligible 7 none [(0, .live, { valid := true, bits := 5 }, 0)] = [{ fold := 5, pos := 0, bits := 5, ident := 0 }] :=
  ⟨by decide +kernel, by unfold Fresh NoSpill; decide +kernel, by decide +kernel, by decide +kernel⟩

/-- The hypotheses of SageSearchesScansAndBuilds are met, clause by clause. -/
theorem witness_SageSearchesScansAndBuilds :
    (∀ op ∈ [1, 2], (uState 3 op 0 [1, 0, 0x0700, 0, 0, 0, 0]).unitJob 0 0 3 op = some (uJob 3 op 0 [1, 0, 0x0700, 0, 0, 0, 0])) ∧
    (∃ s : State, ∃ q : SageBank, s.bank 0 2 = q ∧ q = twoRows ∧ Sound q ∧ q.mode = 1 ∧ (q.search 5 0 1).hits.length = 2 ∧
      (q.entries.filter fun p => p.2.row.hits (5 % 2 ^ 128) (q.mask 0)).length = 2) ∧
    (let ps := [2, 0, 9, 0, 7, 1, 0x0700]
      let s := (uState 3 3 2 ps).modBank 0 2 fun _ => twoRows
      (s.env ⟨[], [], []⟩).unitJob 0 0 3 3 = some (uJob 3 3 2 ps |> fun j => { j with r := (s.disp 0).task 0 }) ∧ (s.env ⟨[], [], []⟩).tableReady 0 7 = true ∧
      (((s.env ⟨[], [], []⟩).viewTable ⟨[], [], []⟩ (uGraph 3 3 2 ps) 0 7).stageRows [parseCol 0x0700] []).isSome = true) ∧
    (∃ s : State, (s.units 0).sage.pending = some (1, { target := 2 }) ∧ (s.bank 0 2).pending = none ∧ (s.bank 0 2).mode = 1 ∧ s.bankWaits 0 2 = false) ∧
    (∃ s : State, (s.units 0).sage.pending = none ∧ (s.bank 0 2).pending = some (1, 2) ∧ (s.bank 0 2).mode = 1) ∧
    (∃ s : State, (s.bank 0 2).reload = some (3, false) ∧ (tget ({} : SageEntry) (s.bank 0 2).entries 3).source.isSome = true) := by
  refine ⟨by decide +kernel, ⟨{ work := { units := [(0, { sage := { banks := [(2, twoRows)] } })] } }, twoRows, ?_⟩, by decide +kernel,
    ⟨{ work := { units := [(0, { sage := { banks := [(2, twoRows)], pending := some (1, { target := 2 }) } })] } }, by decide +kernel⟩,
    ⟨{ work := { units := [(0, { sage := { banks := [(2, { twoRows with pending := some (1, 2) })] } })] } }, by decide +kernel⟩,
    ⟨{ work := { units := [(0, { sage := { banks := [(2, { twoRows with reload := some (3, false) })] } })] } }, by decide +kernel⟩⟩
  unfold Sound; decide +kernel

/-- The hypotheses of GathersScattersAndLayersRun are met, clause by clause. -/
theorem witness_GathersScattersAndLayersRun :
    (∀ x ∈ [(1, 0), (1, 1), (2, 1), (3, 1)], let ps := [0, 4, x.2, 4, 64, 7, 0x0700, 7, 1, 0x0700]
      ((uState 4 x.1 0 ps).env ⟨[], [], []⟩).unitJob 0 0 4 x.1 = some (uJob 4 x.1 0 ps) ∧ ((uState 4 x.1 0 ps).env ⟨[], [], []⟩).tableReady 0 7 = true ∧
      ((uState 4 x.1 0 ps).env ⟨[], [], []⟩).waitsTable 7 = false ∧ ((uState 4 x.1 0 ps).env ⟨[], [], []⟩).mem.ecc = []) ∧
    (let ps := [0, 4, 1, 4, 64, 7, 0x0700, 1, 0x0700]
      let s := { uState 4 2 0 ps with work := { (uState 4 2 0 ps).work with tables := [(7, { extents := [{ addr := 4096, len := 4096, space := .hbm }] })] } }
      applying (s.indexIns (uJob 4 2 0 ps) 0 4 (parseCol 0x0700) ⟨0, 1, 0⟩) = [(0, 0, 0)] ∧ s.scatRec (uJob 4 2 0 ps) = none ∧
      (s.viewTable ⟨[], [], []⟩ (uGraph 4 2 0 ps) 0 7).exts = [{ addr := 4096, len := 4096, space := .hbm }] ∧ (s.slotRec 0 0).isSome = true) ∧
    (∀ op ∈ [1, 2, 3, 4, 5], ((mState op).layerJob 0 0 op).isSome = true ∧ (((mState op).env ⟨[], [], []⟩).layerJob 0 0 op).isSome = true ∧
      (mGraph op).swapWait = false ∧ (mGraph op).switchWait = false) :=
  ⟨by decide +kernel, by decide +kernel, by decide +kernel⟩

/-- The hypotheses of IntakeLanesWork are met, clause by clause. -/
theorem witness_IntakeLanesWork :
    (let s := iState 0 [] [] {};
      let x : Batch := { (newBatch 0 0 0) with insts := 1 }
      s.laneNo iGraph 0 = some 0 ∧ (s.lane 0).shuffled.contains (0, 16) = false ∧ (s.stream 0).batch 0 = some x ∧ (s.cadence 0).isSome = true ∧
      LaneMayBegin s 0 0 0 x ∧ (s.lane 0).shuffled.contains (0, 0) = true ∧ laneSlots iGraph.cfg.intake 0 4 ≠ []) ∧
    (let s := iState 1 [] [] {};
      LaneOnBatch s iGraph 0 0 0 ∧ LaneOnBatch (s.env ⟨[], [], []⟩) iGraph 0 0 0 ∧ s.voidOf 0 (some 0) 2 = 0 ∧ (iGraph.intakeRec 0).exceeds (.pageComp 9) = true ∧
      s.inD0 = true ∧ s.memHeld (extPieces (s.laneExts ⟨[], [], []⟩ iGraph 0 (.batch 0)) 0 1) = false ∧ s.fetchOpen 0 0 (.batch 0) 0 1 ⟨[2], [], true⟩ = true ∧
      (extRead (s.peek ⟨[], [], []⟩) (s.laneExts ⟨[], [], []⟩ iGraph 0 (.batch 0)) 0 1).isSome = false ∧
      (extRead (s.peek ⟨[], [], []⟩) (s.laneExts ⟨[], [], []⟩ iGraph 0 (.batch 0)) 0 0).isSome = true ∧
      (s.lane 0).todo.head? = some 2 ∧ s.takes iGraph 0 (.batch 0) (.page [] [(2, [])]) = true) ∧
    (let s := iState 1 (iJpg 8 1) [] { total := 1 };
      let bad := iState 1 (iJpg 9 1) [] { total := 1 };
      let wide := iState 1 (iJpg 8 100) [] { total := 1 };
      let spent := iState 1 (iJpg 8 1) [] { total := 1, used := 100099 };
      s.sampleOpen iGraph 0 0 0 0 1 (.text iTok [0x41]) = true ∧ s.sampleFits iGraph 0 0 (.text iTok [0x41]) = true ∧ s.voidOf 0 (some 0) 0 = 0 ∧
      s.sampleOpen iGraph 0 0 0 0 0 (.image (iJpg 8 1)) = true ∧ s.sampleFits iGraph 0 0 (.image (iJpg 8 1)) = true ∧ (jpegOf (iJpg 8 1)).res.isOk = true ∧
      bad.sampleOpen iGraph 0 0 0 0 0 (.image (iJpg 9 1)) = true ∧ (jpegOf (iJpg 9 1)).res.isOk = false ∧ (iGraph.intakeRec 0).imageOver (iJpg 8 1) = false ∧
      spent.sampleOpen iGraph 0 0 0 0 0 (.image (iJpg 8 1)) = true ∧ spent.sampleFits iGraph 0 0 (.image (iJpg 8 1)) = false ∧
      wide.sampleOpen iGraph 0 0 0 0 0 (.image (iJpg 8 100)) = true ∧ (iGraph.intakeRec 0).sampleOver (.image (iJpg 8 100)) = true) ∧
    (let s := iState 1 [] [iImg] { total := 1, last := some (0, 0) };
      LovageMay s iGraph 0 0 0 0 iPrep iImg [] ∧ LovageMay s iGraph 0 0 0 0 iBad iImg [] ∧ prepBad iPrep (prepMesh iPrep none) (prepLens iPrep none) 1 1 = false ∧
      prepBad iBad (prepMesh iBad none) (prepLens iBad none) 1 1 = true) := by
  unfold LaneMayBegin LaneOnBatch LovageMay; refine ⟨by decide +kernel, by decide +kernel, by decide +kernel, by decide +kernel⟩

/-- The hypotheses of ChannelsRunTheirChains are met, clause by clause. -/
theorem witness_ChannelsRunTheirChains :
    (∃ s : State, (s.chan 48).state = .halted ∧ (s.chan 48).job = some (newJob dCopy) ∧ (s.chan 48).armed = none) ∧
    (∃ s : State, let s0 := s.env ⟨[], [], []⟩;
      (s0.chan 48).state = .fetch ∧ (s0.chan 48).fetching = some 0 ∧ (s0.chan 48).rereading = false ∧ s0.fetchHeld (s0.chan 48) = false ∧ (s0.chainRead ⟨[], [], []⟩ (s0.chan 48) 0 8).1.isSome = true ∧
      (s0.chainRead ⟨[], [(0, 1)], []⟩ (s0.chan 48) 0 64).1.isSome = false) ∧
    (let s := dState .run (some (newJob dCopy));
      (s.chan 48).state = .run ∧ s.warmWaits = false ∧ s.isFenced 13 0 = false ∧ s.descCheck 48 (s.chan 48).cfg dCopy = 0 ∧ dCopy.trig = 0 ∧ s.descTouches dCopy s.draining = false ∧
      s.descCheck 48 (s.chan 48).cfg { dCopy with len := 0 } ≠ 0) ∧
    (∃ s : State, (((s.at_ 0).chan 48).state = .waitTrig ∧ 0 < ((s.at_ 0).chan 48).trigCount ∧
      ((s.at_ 0).chan 48).job = some (newJob { dCopy with flags := 32 }) ∧ (newJob { dCopy with flags := 32 }).desc.trig = 1)) ∧
    (let j : Job := { newJob dCopy with started := true, issued := 64 };
      j.moved = true ∧ ((dState .run (some j)).chan 48).needsRead j = false ∧ (((dState .run (some j)).at_ 0).env ⟨[], [], []⟩).writeOpen = true ∧
      ((dState .run (some j)).chan 48).owes j = false ∧ (((dState .run (some j)).at_ 0).env ⟨[], [], []⟩).chan 48 = (dState .run (some j)).chan 48 ∧
      ((dState .run (some j)).chan 48).aborting = false) :=
  ⟨⟨{ mem := { chans := [(48, { state := .halted, job := some (newJob dCopy) })] } }, by decide +kernel⟩,
   ⟨{ pci := { ({} : State).pci with dstate := .d0 }, mem := { chans := [(48, { state := .fetch, fetching := some 0 })] } }, by decide +kernel⟩, by decide +kernel,
   ⟨{ mem := { chans := [(48, { state := .waitTrig, trigCount := 1, job := some (newJob { dCopy with flags := 32 }) })] } }, by decide +kernel⟩, by decide +kernel⟩

/-- The hypotheses of BurstsAndFabricMoveData are met, clause by clause. -/
theorem witness_BurstsAndFabricMoveData :
    (let j : Job := { newJob dCopy with started := true }
      let s := dState .run (some j)
      ((s.env ⟨[], [], []⟩).nextChan = some 48 ∧ ((s.env ⟨[], [], []⟩).chan 48).job = some j ∧ j.desc.srcSp = 0 ∧ j.desc.op ≠ 1) ∧
      s.bar2Ok 0x40 8 = true ∧ s.bar2Ok 0x4800000000 1 = false) ∧
    (let b : Burst := { off := 0, len := 64, data := List.replicate 64 7, poisoned := false, bad := false, tries := 0, until_ := none, tq := 3 }
      let j : Job := { newJob dCopy with started := true, issued := 64, flight := [b] }
      let s := (dState .run (some j)).at_ 0
      (s.chan 48).job = some j ∧ j.desc.dstSp = 1 ∧ s.devTarget (j.desc.dst + b.off) 64 = some (.hbm, 0x2000) ∧ 0 < (s.chan 48).cfg.retries 48) ∧
    (let d : Desc := { dCopy with spaces := 1, dst := 0x3000 }
      let j : Job := { newJob d with started := true, issued := 64 }
      ((dState .run (some j)).at_ 0).chan 48 = (dState .run (some j)).chan 48 ∧ j.moved = true ∧ ((dState .run (some j)).chan 48).needsRead j = true ∧
      ((dState .run (some j)).at_ 0).inD0 = true ∧ ((dState .run (some j)).at_ 0).isFenced 13 0 = false ∧ j.cplDone = false ∧ j.cplTries = 0 ∧
      ({ (dState .run (some j)).chan 48 with owedDescs := 1 } : Chan).ordered (newJob { d with flags := 16 }) = true ∧
      0 < ((dState .run (some j)).chan 48).cfg.retries 48) ∧
    (∃ s : State, let s0 := s.env ⟨[], [], []⟩
      (s0.hbmCtl 0).period ≠ 0 ∧ s0.domOff 26 = false ∧ s0.stackOf 0 = 0 ∧ s0.hbmOk 0 8 = true ∧ s0.memHeld [(.hbm, 0, 8)] = false ∧ tget .good s0.mem.ecc 0 = .single) ∧
    (∃ s : State, (s.router 3).pending = some [64, 0, 0, 0, 0, 0, 0, 0]) :=
  ⟨by decide +kernel, by decide +kernel, by decide +kernel, ⟨{ present := one, mem := { ecc := [(0, .single)] } }, by decide +kernel⟩,
    ⟨{ mem := { routers := [(3, { pending := some [64, 0, 0, 0, 0, 0, 0, 0] })] } }, by decide +kernel⟩⟩

/-- The hypotheses of EventsPostClaimAndComplete are met, clause by clause. -/
theorem witness_EventsPostClaimAndComplete :
    ((eState .pending {}).evc.best 2 0 = some 5 ∧ tabSorted (eState .pending {}).evc.src = true ∧ ((eState .pending {}).evc.target 2).phase = .running) ∧
    (let e : StackEntry := { source := 5, prio := 9, started := false };
      ((eState .claimed { stack := [e], phase := .entry }).evc.target 2).stack = [e] ∧ (eState .claimed { stack := [e], phase := .entry }).evc.best 2 9 = none ∧
      ((eState .claimed { stack := [e], phase := .exiting }).evc.target 2).phase = .exiting) ∧
    (let e : StackEntry := { source := 7, prio := 3, started := false };
      (eState .pending { stack := [e], phase := .entry }).evc.best 2 ((eState .pending { stack := [e], phase := .entry }).evc.target 2).level = some 5) ∧
    (3 : Master).val = (2 : Fin 20).val + 1 ∧ (17 : Master).val = 17 := by decide +kernel

/-- The hypotheses of ResetsClearTheDevice are met, clause by clause. -/
theorem witness_ResetsClearTheDevice :
    (∃ s : State, s.pci.perst = true ∧ s.pwr.good = true) ∧ (∃ s : State, s.pci.perst = false ∧ s.pci.linkUp = true ∧ s.pci.dstate = .d0 ∧ s.pair.state = .off) ∧
    (∃ s : State, s.pci.dstate = .d3hot ∧ s.pci.perst = false ∧ s.pair.roleNow = 1 ∧ s.pair.state ≠ .off) ∧ (∃ s : State, 16 ≤ s.pcieCount ∧ s.pci.perst = false) :=
  ⟨⟨{ pci := { ({} : State).pci with perst := true }, pwr := { ({} : State).pwr with good := true } }, by decide⟩,
   ⟨{ pci := { ({} : State).pci with perst := false, linkUp := true, dstate := .d0 } }, by decide⟩,
   ⟨{ pci := { ({} : State).pci with perst := false, dstate := .d3hot }, pair := { ({} : State).pair with roleNow := 1, state := .paired } }, by decide⟩,
   ⟨{ present := one, pci := { ({} : State).pci with perst := false } }, by decide +kernel⟩⟩

/-- A running module, with a domain request. -/
def pState (r : Option (Nat × Bool × Bool × Nat)) : State := { present := one, pwr := { ({} : State).pwr with running := true, request := r } }

/-- The hypotheses of PowerDomainsClockAndInput are met, clause by clause. -/
theorem witness_PowerDomainsClockAndInput :
    ((pState none).pwr.request = none ∧ (pState none).err.state = 0 ∧ (pState none).work.graph = none ∧ (pState none).domOff 33 = false) ∧
    ((pState (some (0, true, false, 0))).at_ 60000).domainBusy 0 = false ∧
    (∃ s : State, s.pwr.request = some (0, true, true, 0) ∧ (s.at_ 60000).domainBusy 0 = true ∧ 0 + 50000 ≤ (s.at_ 60000).now) ∧
    (∃ s : State, s.pwr.request = some (0, false, false, 0) ∧ s.domOff 0 = true) ∧
    (∃ s : State, s.pwr.running = false ∧ s.pwr.starting = false ∧ s.pwr.latched = true) ∧ (∃ s : State, s.pwr.starting = true) ∧
    (pState none).pwr.running = true ∧ (∃ s : State, s.pwr.decided = some 12 ∧ s.isFenced 20 0 = false) ∧ (pState none).pwr.stepAt = 0 ∧ (pState none).pwr.decided = none :=
  ⟨by decide +kernel, by decide +kernel,
   ⟨{ pState (some (0, true, true, 0)) with work := { disps := [(0, { slots := [(0, { state := .running })] })] } }, by decide +kernel⟩,
   ⟨{ pwr := { ({} : State).pwr with request := some (0, false, false, 0), off := 1 } }, by decide⟩,
   ⟨{ pwr := { ({} : State).pwr with latched := true } }, by decide⟩, ⟨{ pwr := { ({} : State).pwr with starting := true } }, by decide⟩, by decide,
   ⟨{ pwr := { ({} : State).pwr with decided := some 12 } }, by decide⟩, by decide, by decide⟩

/-- A module with a challenge and an occupied owner slot, an update and a trial under way. -/
def mgtState : State :=
  { sec := { ({} : State).sec with challenge := some 1, owner1 := List.replicate 96 1, claimed := true }
    mgt := { ({} : State).mgt with updating := true, verified := [2], trial := true, stage3At := some 0 }
    glb := { ({} : State).glb with mgiAgreed := 1 }
    err := { ({} : State).err with flash := [{ num := 1, position := 0, kind := 1, cause := 1, index := 0, outcome := 1, transients := 0, source := 0, detail := 0, testUs := 0, pauseUs := 0, rerun := 0, uptime := 0, streams := 0 }] } }

/-- The hypotheses of SecurityAndManagementRequests are met, clause by clause. -/
theorem witness_SecurityAndManagementRequests :
    mgtState.answers = true ∧ mgtState.mgtWaits = false ∧ mgtState.isFenced 19 0 = false ∧ mgtState.secAnswers = true ∧ mgtState.sec.debug ≠ 2 ∧ mgtState.sec.challenge = some 1 ∧ mgtState.sec.occupied 1 = true ∧ mgtState.sec.occupied 0 = false ∧ ({} : State).answers = true ∧
    ({} : State).sec.claimed = false ∧ ({} : State).sec.occupied 0 = false ∧ ({} : State).sec.occupied 1 = false ∧ withBit 7 3 true = 15 ∧ withBit 0 3 true ≠ 15 ∧
    (∃ s : State, s.sec.tamper = true) ∧ ({} : State).mgiAgreed = false ∧ mgtState.mgiAgreed = true ∧ (mgtState.err.flash.find? fun r => r.num == 1).isSome = true ∧
    ({} : State).mgt.mgiDone = false ∧ (agree mgiSupport (mgiSupport)).isSome = true ∧ (agree mgiSupport 0xFFFF).isSome = false ∧ mgtState.mgt.updating = true ∧ mgtState.mgt.verified ≠ [] ∧
    mgtState.mgt.trial = true ∧ mgtState.mgt.stage3At = some 0 ∧ mgtState.err.state ≠ 2 ∧ mgtState.sec.tamper = false := by
  refine ⟨by decide, by decide, by decide, by decide, by decide, by decide, by decide +kernel, by decide, by decide, by decide, by decide, by decide, by decide, by decide,
    ⟨{ sec := { ({} : State).sec with tamper := true } }, by decide⟩, by decide, by decide, by decide, by decide, by decide +kernel, by decide +kernel, by decide, by decide, by decide,
    by decide, by decide, by decide⟩

/-- A module in the chain. -/
def cState (c : Chain) : State := { chain := c }

/-- A module of a pair, in D0, with its lease line at 0x1000. -/
def lState (r : Nat) (p : PairState) (x : Pair2) : State :=
  { pci := { ({} : State).pci with perst := false }
    pair := { x with role := r, roleNow := r, state := p, lease := { ({} : Pair) with val := 0x1000 } } }

/-- A beat token of master 5: beat 9, two hops, lag 300 ns. -/
def tok9 : Bytes := chainToken 1 2 (leBytes 8 9 ++ leBytes 4 5 ++ leBytes 2 0 ++ leBytes 2 0 ++ leBytes 4 300)

/-- Another module's lease line on the bus. -/
def leaseEnv : BusEnv := { stores := [(0x1000, leaseLine 7 77 0)], bad := [], flips := [] }

/-- This module's own lease line on the bus. -/
def ownEnv : BusEnv := { stores := [(0x1000, leaseLine 7 0 0)], bad := [], flips := [] }

/-- The lease line cannot be read. -/
def noEnv : BusEnv := { stores := [], bad := [(0x1000, 64)], flips := [] }

/-- The hypotheses of ChainTokensAndLeaseWork are met, clause by clause: the tokens. -/
theorem witness_ChainTokensAndLeaseWork :
    parseToken [] = none ∧ parseToken tok9 = some (1, 2, (tok9.drop 3).take 20) ∧ ((tok9.drop 3).take 20).length = 20 ∧
    fieldAt ((tok9.drop 3).take 20) 8 4 = 5 ∧ (∃ s : State, s.chain.master = true ∧ s.chainId = 5) ∧ (∃ s : State, s.chain.master = true ∧ 5 < s.chainId) ∧
    (parseToken (chainToken 2 0 (leBytes 4 5 ++ leBytes 4 64))).isSome = true ∧ (parseToken (chainToken 2 0 (leBytes 4 5 ++ leBytes 4 63))).isSome = true ∧
    (parseToken (chainToken 3 0 [255, 1, 0, 0, 9])).isSome = true ∧ (parseToken (chainToken 9 0 [])).isSome = true ∧
    (∃ s : State, s.chain.master = false ∧ s.chain.inserted = true ∧ s.chain.noPos = false ∧ s.beat.srcCfg = 1 ∧ s.followsPrimary = false ∧
      s.beat.edge = none ∧ s.beat.lastNum = none ∧ s.work.graph = none) :=
  ⟨by decide +kernel, by decide +kernel, by decide +kernel, by decide +kernel,
   ⟨{ chain := { master := true }, sec := { ({} : State).sec with deviceId := 5 } }, by decide⟩, ⟨{ chain := { master := true }, sec := { ({} : State).sec with deviceId := 6 } }, by decide⟩,
   by decide +kernel, by decide +kernel, by decide +kernel, by decide +kernel,
   ⟨{ chain := { inserted := true }, beat := { ({} : State).beat with srcCfg := 1 } }, by decide, by decide, by decide, by decide, by decide, rfl, rfl, rfl⟩⟩

/-- The hypotheses of ChainTokensAndLeaseWork are met, clause by clause: windows and the lease. -/
theorem witness_lease_ChainTokensAndLeaseWork :
    (cState { window := some 100 }).chain.window = some 100 ∧ (cState {}).chain.window = none ∧
    (∃ s : State, s.chain.en = true ∧ s.glb.ready = true) ∧
    (let s := lState 1 .paired {}; s.holdsLease = true ∧ s.inD0 = true ∧ s.pair.cycling = false ∧ s.leaseOver = false ∧ s.pair.leaseNext ≤ 0 ∧ (s.env ownEnv).readLease ownEnv = some (7, s.sec.deviceId) ∧
      (s.env leaseEnv).readLease leaseEnv = some (7, 77) ∧ s.sec.deviceId ≠ 77) ∧ (lState 1 .off {}).holdsLease = false ∧ (lState 1 .paired { cycling := true }).pair.cycling = true ∧
    (let s := lState 2 .suspect { staleAt := some (0, 7, 77) }; s.pair.state = .suspect ∧ s.inD0 = true ∧ s.pair.claimAt = none ∧
      ((s.at_ 150000).env leaseEnv).readLease leaseEnv = some (7, 77) ∧ s.pair.staleAt = some (0, 7, 77) ∧ s.holdsLease = false) ∧
    (let s := lState 2 .suspect { claimAt := some 0 }; s.pair.claimAt = some 0 ∧ ((s.at_ 60000).env ownEnv).readLease ownEnv = some (7, s.sec.deviceId) ∧ s.pair.roleNow = 2 ∧
      s.pair.state ≠ .off ∧ ((s.at_ 60000).env noEnv).readLease noEnv = none) :=
  ⟨by decide, by decide, ⟨{ glb := { ({} : State).glb with ready := true } }, by decide⟩, by decide +kernel, by decide, by decide, by decide +kernel, by decide +kernel⟩

/-- A module of a pair with port 0 up, that has taken message 4. -/
def plState (r : Nat) (p : PairState) : State :=
  { pci := { ({} : State).pci with perst := false }, pair := { ({} : State).pair with role := r, roleNow := r, state := p, portsUp := 1, rxSeq := 4 } }

/-- Whether a message of a type, a length and a SEQ is read as such. -/
def readsAs (ty seq : Nat) (pl : Bytes) : Bool :=
  match parsePair (pairMsg ty 0 0 seq pl) with
  | some m => m.ty == ty && m.seq == seq && m.pl == pl && !bitOf m.flags 0
  | none => false

/-- The hypotheses of PairMessagesWork are met: the messages. -/
theorem witness_PairMessagesWork :
    (parsePair [] = none ∧ readsAs 3 5 (List.replicate 144 0#8) = true ∧ readsAs 4 5 (List.replicate 64 0#8) = true ∧ readsAs 5 5 (leBytes 8 1) = true ∧
    readsAs 6 5 (List.replicate 24 0#8) = true ∧ readsAs 7 5 (leBytes 8 1) = true) ∧ (readsAs 8 5 (leBytes 8 1 ++ leBytes 16 0) = true ∧ readsAs 8 5 (leBytes 8 4 ++ leBytes 8 0) = true ∧
    readsAs 9 5 (leBytes 8 0) = true ∧ readsAs 10 5 (leBytes 8 1 ++ leBytes 16 0) = true ∧ readsAs 10 5 (leBytes 8 0) = true ∧ readsAs 3 7 [] = true ∧ readsAs 3 4 [] = true ∧
    readsAs 2 0 (List.replicate 24 0#8) = true) ∧ (∃ p : Bytes, p.length = 24 ∧ fieldAt p 4 1 = 2 ∧ readsAs 1 1 p = true ∧ agree rlpSupport (fieldAt p 0 4) = some (0x0100, 0x0101)) ∧
    agree rlpSupport 0 = none :=
  ⟨by decide +kernel, by decide +kernel, ⟨leBytes 4 rlpSupport ++ leBytes 1 2 ++ leBytes 19 0, by decide +kernel⟩, by decide⟩

/-- The hypotheses of PairMessagesWork are met: the states. -/
theorem witness_states_PairMessagesWork :
    (plState 1 .down).pair.state = .down ∧ (plState 1 .down).pair.portsUp ≠ 0 ∧ (plState 1 .down).pair.roleNow = 1 ∧ (plState 2 .paired).mirroring = true ∧
    (plState 2 .syncing).followsPrimary = true ∧ (plState 2 .syncing).pair.rxSeq + 1 = 5 ∧ (plState 1 .syncing).pair.readySent = false ∧ (plState 1 .syncing).openStreams = [] ∧
    (∃ s : State, s.pair.state = .syncing ∧ s.pair.roleNow = 2 ∧ s.pair.readySent = true ∧ s.pair.syncEnd = true) ∧ (plState 1 .down).pair.lastTx + 1000 ≤ 1000 ∧
    (plState 1 .down).pair.lastRx + 10000 ≤ 10000 ∧ (plState 1 .down).domOff 24 = false ∧ (plState 1 .off).pair.state = .off :=
  ⟨by decide, by decide, by decide, by decide, by decide, by decide, by decide, by decide +kernel,
   ⟨{ pair := { ({} : State).pair with roleNow := 2, state := .syncing, readySent := true, syncEnd := true } }, by decide⟩, by decide, by decide, by decide, by decide⟩

/-- Every unit present. -/
def full : Present := { cores := 2 ^ 512 - 1, clusters := 0xFFFF, pchans := 2 ^ 256 - 1, lanes := 0xFF, pcie := 0xFFFF, rolog := 0xFFFF }

/-- A module with all units, in an error state. -/
def xState (e : Err) : State := { present := full, fit := full, err := e }

/-- A recovery of a unit of a kind. -/
def rec1 (kind : Nat) (inj dec : Bool) : Recovery := { num := 1, kind := kind, index := 0, start := 0, injected := inj, decided := dec }

/-- The hypotheses of ErrorsRecoverAndBoot are met, clause by clause. -/
theorem witness_ErrorsRecoverAndBoot :
    (xState {}).unitServes 1 0 = true ∧ (xState {}).unitServes 10 255 = true ∧ (xState {}).unitServes 14 2 = true ∧ (xState {}).unitServes 14 3 = false ∧ (xState {}).err.state = 0 ∧
    (∃ e : Err, e.state = 1 ∧ e.recovering.head? = some (rec1 1 false false)) ∧ (∃ e : Err, e.duplexTrc = true ∧ (xState e).unitServes 14 0 = true) ∧ (∃ e : Err, e.state = 2) ∧
    (∃ s : State, s.err.recovering = [rec1 10 false false] ∧ s.err.state = 1 ∧ ¬ 2 ≤ s.transientsOf 10 0 0) ∧
    (∃ s : State, s.err.recovering = [rec1 9 false false] ∧ 2 ≤ s.transientsOf 9 0 0 ∧ (9 : Nat) ∈ [9, 11, 12, 13, 18, 19, 20]) ∧
    (∃ s : State, s.err.recovering = [rec1 1 true true, rec1 2 false false]) ∧ (∃ s : State, s.hqf11 = true ∧ s.pair.state = .off ∧ s.pair.roleNow = 0 ∧ (s.qp 5).enable = true ∧ (s.qp 5).noticeEn = true) ∧
    (∃ s : State, s.work.graph.isSome = true) ∧ (∃ s : State, s.work.graph = none) ∧ (∃ s : State, s.mgt.booting = true ∧ s.mgt.stage = 0) ∧
    (∃ s : State, s.mgt.booting = true ∧ s.mgt.stage = 1 ∧ s.sec.tamper = true) ∧ (∃ s : State, s.mgt.booting = true ∧ s.mgt.stage = 2 ∧ s.mgt.cold = true ∧ (1, 7) ∈ s.err.removed) ∧
    (∃ s : State, s.mgt.booting = true ∧ s.mgt.stage = 3) :=
  ⟨by decide +kernel, by decide +kernel, by decide, by decide, by decide, ⟨{ state := 1, recovering := [rec1 1 false false] }, by decide⟩, ⟨{ duplexTrc := true }, by decide +kernel⟩, ⟨{ state := 2 }, by decide⟩,
   ⟨xState { state := 1, recovering := [rec1 10 false false] }, by decide +kernel⟩, ⟨xState { state := 1, recovering := [rec1 9 false false], history := [(9, 0, 0), (9, 0, 0)] }, by decide +kernel⟩,
   ⟨xState { state := 1, recovering := [rec1 1 true true, rec1 2 false false] }, by decide⟩,
   ⟨{ glb := { ({} : State).glb with hqfAgreed := 0x0101 }, qps := [(5, { enable := true, noticeEn := true })] }, by decide⟩, ⟨eState .idle {} |>.modWork fun w => { w with graph := some bareGraph }, by decide +kernel⟩, ⟨{}, rfl⟩,
   ⟨{ mgt := { ({} : State).mgt with booting := true, stage := 0 } }, by decide⟩, ⟨{ mgt := { ({} : State).mgt with booting := true, stage := 1 }, sec := { ({} : State).sec with tamper := true } }, by decide⟩,
   ⟨{ mgt := { ({} : State).mgt with booting := true, stage := 2, cold := true }, err := { ({} : Err) with removed := [(1, 7)] } }, by decide⟩, ⟨{ mgt := { ({} : State).mgt with booting := true, stage := 3 } }, by decide⟩⟩

/-- The hypotheses of MemoriesStayCanonical are met. -/
theorem witness_MemoriesStayCanonical : ∃ s : State, memWf s.mem.bus = true ∧ memWf s.mem.hbm = true ∧ step s = .next s :=
  ⟨{ mem := { bus := [(1, 2), (5, 1)], hbm := [(0, 9)] } }, by decide, by decide, rfl⟩

end Sys2Proof.Tests
end

section
/-! Proofs about chapter 00 (scope): register pairs, clearing counters, and staged groups. First the layer on register access: where a
block lies in BAR0, what a word access of a register in it does; then the statements. -/

namespace Sys2Proof.Machine

/-! ### Where a register lies (R526 to R528) -/

theorem run_hit (mk : Nat → BlockId) {base stride count n r off : Nat} (hn : n < count) (hr : r < stride)
    (ho : off = base + stride * n + r) : run mk base stride count off = some (mk n, r) := by
  have hle : stride * n + stride ≤ stride * count := Nat.mul_le_mul_left stride hn
  have hsub : off - base = stride * n + r := by omega
  have hdiv : (stride * n + r) / stride = n := by
    rw [Nat.mul_add_div (by omega), Nat.div_eq_of_lt hr, Nat.add_zero]
  have hmod : (stride * n + r) % stride = r := by rw [Nat.mul_add_mod, Nat.mod_eq_of_lt hr]
  rw [run, if_pos (by omega), hsub, hdiv, hmod]

theorem blockAt_flow {f r off : Nat} (hf : f < 1024) (hr : r < 0x10) (ho : off = 0x8000 + 0x10 * f + r) :
    blockAt off = some (.flow f, r) := by
  simp (disch := omega) only [blockAt, if_neg, if_pos, run_hit .flow hf hr ho]

theorem blockAt_strm {n r off : Nat} (hn : n < 64) (hr : r < 0x20) (ho : off = 0xD000 + 0x20 * n + r) :
    blockAt off = some (.strm n, r) := by
  simp (disch := omega) only [blockAt, if_neg, if_pos, run_hit .strm hn hr ho]

theorem blockAt_ch {c r off : Nat} (hc : c < 64) (hr : r < 0x400) (ho : off = 0x80000 + 0x400 * c + r) :
    blockAt off = some (.ch c, r) := by
  simp (disch := omega) only [blockAt, if_neg, if_pos, run_hit .ch hc hr ho]

theorem blockAt_cluster {k o off : Nat} (hk : k < 16) (hlt : o < 0x100000) (ho : off = 0x400000 + 0x100000 * k + o) :
    blockAt off = clusterAt k o := by
  have hdiv : (off - 0x400000) / 0x100000 = k := by omega
  have hmod : (off - 0x400000) % 0x100000 = o := by omega
  simp (disch := omega) only [blockAt, if_neg, if_pos, hdiv, hmod]

theorem State.blockOf_of_blockAt {s : State} {off : Nat} {b : BlockId × Nat} (hb : blockAt off = some b)
    (hr : s.reachable b.1 = true) : s.blockOf off = some b := by
  simp [State.blockOf, hb, hr]

/-! ### A word access of a register (R7, R9, R427, R531) -/

theorem w32_of_lt {v : Nat} (h : v < 2 ^ 32) : w32 v = v := Nat.mod_eq_of_lt h

/-- Offsets below BAR4 are those of BAR0, none of them in the configuration space. -/
theorem not_cfgBase_le {off : Nat} (h : off < bar4Base) : ¬ cfgBase ≤ off := by
  simp only [bar4Base, cfgBase] at *; omega

theorem State.regWrite_of_blockOf {s : State} {m off v : Nat} {b : BlockId × Nat} (ho : off < bar4Base)
    (hb : s.blockOf off = some b) : s.regWrite m off v = s.blockWrite m off (w32 v) b := by
  simp only [State.regWrite, if_neg (Nat.not_le.mpr ho), hb]

theorem bar0Size_word {off : Nat} (ha : off % 4 = 0) : bar0Size off 4 = true := by simp [bar0Size, ha]

theorem State.barWrite_word (s : State) (m : Nat) {off : Nat} (v : Nat) (ha : off % 4 = 0) :
    s.barWrite m off v 4 = s.regWrite m off v := by
  simp [State.barWrite, bar0Size_word ha]

/-- A word write of a register writes its block. -/
theorem exec_registerWrite_word {s : State} {off : Nat} {b : BlockId × Nat} (m : Master) (v : Nat) (ha : off % 4 = 0)
    (ho : off < bar4Base) (hb : s.blockOf off = some b) :
    exec (.registerWrite m off v 4) s = .next (s.blockWrite m.val off (w32 v) b) := by
  show Host.Outcome.next (s.barWrite m.val off v 4) = _
  rw [s.barWrite_word m.val v ha, State.regWrite_of_blockOf ho hb]

/-- A write of a commit register writes its block. -/
theorem exec_commitWrite_word {s : State} {off : Nat} {b : BlockId × Nat} (m : Master) (v : Nat) (ha : off % 4 = 0)
    (ho : off < bar4Base) (hb : s.blockOf off = some b) (hc : isCommit b = true) :
    exec (.commitWrite m off v) s = .next (s.blockWrite m.val off (w32 v) b) := by
  show execCommitWrite m off v s = _
  simp only [execCommitWrite, hb, hc, if_true]
  rw [s.barWrite_word m.val v ha, State.regWrite_of_blockOf ho hb]

/-- A word read returns the register's value and leaves the state as the read of the register does. -/
theorem exec_rcRead_word (s : State) {off : Nat} (inc : Nat) (ha : off % 4 = 0) :
    exec (.rcRead off 4 inc) s = .next ((s.regRead off inc).2.emit (.data (leBytes 4 (s.regRead off inc).1))) := by
  show Host.Outcome.next (s.access off 4 inc) = _
  simp [State.access, bar0Size_word ha]

theorem exec_loReadCapture (s : State) (off : Nat) : exec (.loReadCapture off) s = exec (.rcRead off 4 0) s := rfl

/-- A captured _HI half is what the next read of its register returns, and it is used up. -/
theorem State.regRead_captured {s : State} {off : Nat} {h : Word} {b : BlockId × Nat} (inc : Nat) (ho : off < bar4Base)
    (hc : tget none s.capture off = some h) (hb : s.blockOf off = some b) :
    s.regRead off inc = (h.toNat, { s with capture := tset none off none s.capture }) := by
  simp only [State.regRead, if_neg (not_cfgBase_le ho), if_neg (Nat.not_le.mpr ho), hc, hb]

/-- The read of a _LO register of a read-only pair without further actions captures the high half. -/
theorem State.regRead_pairLo {s : State} {off : Nat} {b : BlockId × Nat} {f : State → Nat} (inc : Nat) (ho : off < bar4Base)
    (hc : tget none s.capture off = none) (hb : s.blockOf off = some b) (hp : b.1.block.pairs.lookup b.2 = some f)
    (hl : b.1.block.los.lookup b.2 = none) (hr : b.1.block.rcs.lookup b.2 = none) :
    s.regRead off inc = (b.1.block.value b.2 s,
      { s with capture := tset none (off + 4) (some (BitVec.ofNat 32 (f s / 2 ^ 32))) s.capture }) := by
  simp only [State.regRead, if_neg (not_cfgBase_le ho), if_neg (Nat.not_le.mpr ho), hc, hb, hp, hl, hr]

/-- The read of a clearing counter leaves it at the events of the cycle of the read. -/
theorem State.regRead_rc {s : State} {off : Nat} {b : BlockId × Nat} {g : (State → Nat) × (Nat → State → State)} (inc : Nat)
    (ho : off < bar4Base) (hc : tget none s.capture off = none) (hb : s.blockOf off = some b)
    (hp : b.1.block.pairs.lookup b.2 = none) (hl : b.1.block.los.lookup b.2 = none) (hr : b.1.block.rcs.lookup b.2 = some g) :
    s.regRead off inc = (b.1.block.value b.2 s, g.2 inc s) := by
  simp only [State.regRead, if_neg (not_cfgBase_le ho), if_neg (Nat.not_le.mpr ho), hc, hb, hp, hl, hr]

theorem Block.value_pair {b : Block} {o : Nat} {f : State → Nat} (s : State) (hg : b.regs.lookup o = none)
    (hr : b.rcs.lookup o = none) (hp : b.pairs.lookup o = some f) : b.value o s = w32 (f s) := by
  simp only [Block.value, hg, hr, hp]

theorem Block.value_rc {b : Block} {o : Nat} {g : (State → Nat) × (Nat → State → State)} (s : State)
    (hg : b.regs.lookup o = none) (hr : b.rcs.lookup o = some g) : b.value o s = w32 (g.1 s) := by
  simp only [Block.value, hg, hr]

/-! ### A unit's entry after a change of it -/

@[simp] theorem State.stream_modStream (s : State) (n : Nat) (f : Stream → Stream) : (s.modStream n f).stream n = f (s.stream n) := by
  simp [State.stream, State.modStream]

@[simp] theorem State.chan_modChan (s : State) (c : Nat) (f : Chan → Chan) : (s.modChan c f).chan c = f (s.chan c) := by
  simp [State.chan, State.modChan]

@[simp] theorem State.disp_modDisp (s : State) (k : Nat) (f : Disp → Disp) : (s.modDisp k f).disp k = f (s.disp k) := by
  simp [State.disp, State.modDisp]

@[simp] theorem State.router_modRouter (s : State) (k : Nat) (f : Router → Router) : (s.modRouter k f).router k = f (s.router k) := by
  simp [State.router, State.modRouter]

@[simp] theorem State.reject_chan (s : State) (off m c : Nat) : (s.reject off m).chan c = s.chan c := rfl

/-! ### A written pair (R8) -/

/-- A word write of a stream's register. -/
theorem exec_registerWrite_strm (m : Master) {n r off v : Nat} (s : State) (hn : n < 64) (hv : v < 2 ^ 32) (hr : r < 0x20)
    (ha : r % 4 = 0) (ho : off = 0xD000 + 0x20 * n + r) :
    exec (.registerWrite m off v 4) s = .next (s.strmWrite n m.val r v) := by
  rw [exec_registerWrite_word m v (by omega) (by simp only [bar4Base]; omega)
    (State.blockOf_of_blockAt (blockAt_strm hn hr ho) rfl), w32_of_lt hv]
  rfl

/-- A word write of a channel's register. -/
theorem exec_registerWrite_ch (m : Master) {c r off v : Nat} (s : State) (hc : c < 64) (hv : v < 2 ^ 32) (hr : r < 0x400)
    (ha : r % 4 = 0) (ho : off = 0x80000 + 0x400 * c + r) :
    exec (.registerWrite m off v 4) s = .next (s.chWrite c m.val off r v) := by
  rw [exec_registerWrite_word m v (by omega) (by simp only [bar4Base]; omega)
    (State.blockOf_of_blockAt (blockAt_ch hc hr ho) rfl), w32_of_lt hv]
  rfl

theorem hostOwned_of_lt {c : Nat} (h : c < 56) : hostOwned c = true := decide_eq_true h

theorem State.chWrite_headLo (s : State) {c : Nat} (m off v : Nat) (hc : c < 56) :
    s.chWrite c m off 0x008 v = s.modChan c fun x => { x with head := x.head.setLo (alignTo 64 v) } := by
  simp [State.chWrite, hostOwned_of_lt hc]

theorem State.chWrite_headHi (s : State) {c : Nat} (m off v : Nat) (hc : c < 56) :
    s.chWrite c m off 0x00C v = s.modChan c fun x => { x with head := x.head.setHi v } := by
  simp [State.chWrite, hostOwned_of_lt hc]

/-- Settles O7: each of the six registers writes one half of its pair, by `Pair.setLo` or `Pair.setHi`. -/
theorem heldLowHalfThenHighHalf : Obligations.HeldLowHalfThenHighHalf := by
  intro m n c v s hn hc hv
  have hc' : c < 64 := by omega
  refine ⟨⟨_, exec_registerWrite_strm m (r := 0) s hn hv (by decide) rfl (by omega), ?_⟩,
    ⟨_, exec_registerWrite_strm m (r := 4) s hn hv (by decide) rfl (by omega), ?_⟩,
    ⟨_, exec_registerWrite_ch m (r := 0x008) s hc' hv (by decide) rfl (by omega), ?_⟩,
    ⟨_, exec_registerWrite_ch m (r := 0x00C) s hc' hv (by decide) rfl (by omega), ?_⟩,
    ⟨_, exec_registerWrite_word m v (b := (.rlg, 0x040)) (by decide) (by decide) (State.blockOf_of_blockAt rfl rfl), ?_⟩,
    ⟨_, exec_registerWrite_word m v (b := (.rlg, 0x044)) (by decide) (by decide) (State.blockOf_of_blockAt rfl rfl), ?_⟩⟩
  · simp [State.strmWrite, Pair.setLo]
  · simp [State.strmWrite, Pair.setHi]
  · simp [State.chWrite_headLo s m.val _ v hc, Pair.setLo, alignTo]
  · simp [State.chWrite_headHi s m.val _ v hc, Pair.setHi]
  · rw [w32_of_lt hv]; rfl
  · rw [w32_of_lt hv]; exact ⟨rfl, rfl⟩

/-! ### Captured halves and clearing counters (R7, R9) -/

/-- Settles O8: the read of _LO captures, and only the capture decides what the read of _HI returns. -/
theorem readCapturesHighHalf : Obligations.ReadCapturesHighHalf := by
  intro s f hcap hnext
  have hf := f.isLt
  have hlo : s.blockOf (0x8000 + 0x10 * f.val) = some (.flow f.val, 0) :=
    State.blockOf_of_blockAt (blockAt_flow hf (by decide) rfl) rfl
  have hread := State.regRead_pairLo 0 (by simp only [bar4Base]; omega) hcap hlo rfl rfl rfl
  rw [Block.value_pair s rfl rfl rfl, show 0x8000 + 0x10 * f.val + 4 = 0x8004 + 0x10 * f.val by omega] at hread
  refine ⟨_, (exec_loReadCapture s _).trans (exec_rcRead_word s 0 (by omega)), ?_, ?_, ?_⟩
  · rw [hread]; rfl
  · rw [hread]; rfl
  · intro t ht
    have hheld : tget none t.capture (0x8004 + 0x10 * f.val) = some (BitVec.ofNat 32 ((s.flow f.val).next / 2 ^ 32)) := by
      rw [ht, hread, State.emit_capture, tget_tset_same]
    have hhi : t.blockOf (0x8004 + 0x10 * f.val) = some (.flow f.val, 4) :=
      State.blockOf_of_blockAt (blockAt_flow hf (by decide) (by omega)) rfl
    have hval : (BitVec.ofNat 32 ((s.flow f.val).next / 2 ^ 32)).toNat = (s.flow f.val).next / 2 ^ 32 := by
      rw [BitVec.toNat_ofNat]; omega
    have hread' := State.regRead_captured 0 (by simp only [bar4Base]; omega) hheld hhi
    rw [hval] at hread'
    refine ⟨_, exec_rcRead_word t 0 (by omega), ?_, ?_, ?_⟩ <;> rw [hread'] <;> simp

/-- Settles O9: both counters are clearing registers of the global block. -/
theorem counterReadClearsToEventsOfItsCycle : Obligations.CounterReadClearsToEventsOfItsCycle := by
  intro s inc hrej hpad hrejLt hpadLt
  have hreadRej := State.regRead_rc (b := (.glb, 0x30)) inc (by decide) hrej (State.blockOf_of_blockAt rfl rfl) rfl rfl rfl
  have hreadPad := State.regRead_rc (b := (.glb, 0x38)) inc (by decide) hpad (State.blockOf_of_blockAt rfl rfl) rfl rfl rfl
  rw [Block.value_rc s rfl rfl, w32_of_lt hrejLt] at hreadRej
  rw [Block.value_rc s rfl rfl, w32_of_lt hpadLt] at hreadPad
  refine ⟨⟨_, exec_rcRead_word s inc rfl, ?_⟩, ⟨_, exec_rcRead_word s inc rfl, ?_⟩⟩
  · rw [hreadRej]; exact ⟨rfl, rfl⟩
  · rw [hreadPad]; exact ⟨rfl, rfl⟩

/-! ### Commit and adoption (R10, R11, R13) -/

theorem bitOf_zero_w32 {v : Nat} (h : v % 2 = 1) : bitOf (w32 v) 0 = true := by
  have hbit : w32 v % 2 = 1 := by simp only [w32]; omega
  simpa [bitOf] using hbit

theorem jobAll_flight_iff (x : Chan) : (x.job.all fun j => j.flight.isEmpty) = true ↔ NoBurst x := by
  cases hj : x.job <;> simp [NoBurst, hj]

/-- A channel at a burst boundary adopts its pending copy. -/
theorem Chan.settleCfg_of_noBurst {x : Chan} {p : ChCfg} (hp : x.pending = some p) (h : NoBurst x) :
    x.settleCfg = { x with cfg := p, pending := none } := by
  simp only [Chan.settleCfg, hp, (jobAll_flight_iff x).mpr h, if_true]

/-- With a burst in flight the pending copy stays. -/
theorem Chan.settleCfg_of_burst {x : Chan} (h : ¬ NoBurst x) : x.settleCfg = x := by
  unfold Chan.settleCfg
  split
  · exact if_neg (mt (jobAll_flight_iff x).mp h)
  · rfl

/-- A commit of a channel takes the copy and adopts it if it can. -/
theorem State.chWrite_commit (s : State) {c v : Nat} (m off : Nat) (hc : c < 56) (hv : bitOf v 0 = true) :
    s.chWrite c m off 0x01C v = s.modChan c fun x => { x with pending := some x.stCfg }.settleCfg := by
  simp [State.chWrite, hostOwned_of_lt hc, hv]

theorem commit_chan (m : Master) {c v : Nat} (s : State) (hc : c < 56) (hv : v % 2 = 1) :
    ∃ u, exec (.commitWrite m (0x8001C + 0x400 * c) v) s = .next u ∧
      (NoBurst (s.chan c) → u.chan c = { s.chan c with cfg := (s.chan c).stCfg, pending := none }) ∧
      (¬ NoBurst (s.chan c) → u.chan c = { s.chan c with pending := some (s.chan c).stCfg }) := by
  have hb : s.blockOf (0x8001C + 0x400 * c) = some (.ch c, 0x01C) :=
    State.blockOf_of_blockAt (blockAt_ch (by omega) (by decide) (by omega)) rfl
  refine ⟨_, exec_commitWrite_word m v (by omega) (by simp only [bar4Base]; omega) hb rfl, ?_⟩
  rw [State.blockWrite, s.chWrite_commit m.val _ hc (bitOf_zero_w32 hv), State.chan_modChan]
  -- the copy does not touch the job, so the channel's boundary is that of the channel before
  exact ⟨fun h => Chan.settleCfg_of_noBurst rfl h, fun h => Chan.settleCfg_of_burst h⟩

theorem commit_disp (m : Master) {k v : Nat} (s : State) (hk : k < 16) (hin : s.clusterIn k = true) (hv : v % 2 = 1) :
    ∃ u, exec (.commitWrite m (0x450008 + 0x100000 * k) v) s = .next u ∧
      u.disp k = { s.disp k with pending := some (s.disp k).stCfg } := by
  have hb : s.blockOf (0x450008 + 0x100000 * k) = some (.dsp k, 0x08) :=
    State.blockOf_of_blockAt (blockAt_cluster (o := 0x50008) hk (by decide) (by omega)) hin
  refine ⟨_, exec_commitWrite_word m v (by omega) (by simp only [bar4Base]; omega) hb rfl, ?_⟩
  simp [State.blockWrite, State.dspWrite, bitOf_zero_w32 hv]

theorem commit_router (m : Master) {k v : Nat} (s : State) (hk : k < 16) (hv : v % 2 = 1) :
    ∃ u, exec (.commitWrite m (0x46000C + 0x100000 * k) v) s = .next u ∧
      u.router k = { s.router k with pending := some (s.router k).stShares } := by
  have hb : s.blockOf (0x46000C + 0x100000 * k) = some (.net k, 0x0C) :=
    State.blockOf_of_blockAt (blockAt_cluster (o := 0x6000C) hk (by decide) (by omega)) rfl
  refine ⟨_, exec_commitWrite_word m v (by omega) (by simp only [bar4Base]; omega) hb rfl, ?_⟩
  simp [State.blockWrite, State.netWrite, bitOf_zero_w32 hv]

theorem exec_pendingCopyAdopt_chan (n : Fin 64) (s : State) :
    exec (.pendingCopyAdopt true n) s = .next (s.modChan n.val Chan.settleCfg) := rfl

theorem exec_pendingCopyAdopt_disp {n : Fin 64} (s : State) (hn : n.val < 16) :
    exec (.pendingCopyAdopt false n) s = .next (s.modDisp n.val Disp.adopt) := by
  show execPendingCopyAdopt false n s = _
  simp [execPendingCopyAdopt, hn]

theorem Disp.adopt_of_pending {d : Disp} {p : Nat} (hp : d.pending = some p) :
    d.adopt = { d with levelEn := p % 256, lookahead := p / 256 % 32, pending := none } := by
  simp only [Disp.adopt, hp]

/-- A write of CH_CFG changes the staged copy of a host channel alone. -/
theorem State.chWrite_cfg_chan (s : State) (c m off v : Nat) :
    (s.chWrite c m off 0x018 v).chan c = if c < 56 then { s.chan c with stCfg := parseChCfg v } else s.chan c := by
  by_cases hc : c < 56
  · simp [State.chWrite, hostOwned_of_lt hc, hc]
  · simp [State.chWrite, hostOwned, hc]

/-- Settles O10: a commit of each of the three kinds of group, the two adoptions, and the write of CH_CFG after a commit. -/
theorem commitSnapshotsStagedGroup : Obligations.CommitSnapshotsStagedGroup := by
  refine ⟨fun m c v s => commit_chan m s, fun m k v s => commit_disp m s, fun m k v s => commit_router m s, ?_, ?_, ?_⟩
  · intro n p s hp
    refine ⟨_, exec_pendingCopyAdopt_chan n s, ?_⟩
    rw [State.chan_modChan]
    exact ⟨Chan.settleCfg_of_noBurst hp, Chan.settleCfg_of_burst⟩
  · intro n p s hn hp
    refine ⟨_, exec_pendingCopyAdopt_disp s hn, ?_⟩
    rw [State.disp_modDisp, Disp.adopt_of_pending hp]
  · exact fun c v m s => s.chWrite_cfg_chan c m _ v

end Sys2Proof.Machine
end

section
/-! Proofs about chapter 01 (architecture): LOAD_GRAPH. First the layer on commands: how one begins and how its status is decided;
then what placing a graph and checking an image do; then the statement. -/

namespace Sys2Proof.Machine

/-! ### How a command begins and is decided (R69) -/

theorem State.seq_of_cmd {s : State} {seq : Nat} {c : Cmd} (h : s.cmd seq = some c) : c.seq = seq := by
  simpa using List.find?_some h

theorem State.cmd_of_cmds {s t : State} (h : t.cmds = s.cmds) (seq : Nat) : t.cmd seq = s.cmd seq := by
  rw [State.cmd, State.cmd, h]

/-- A change that keeps sequence numbers changes the command that it names. -/
theorem State.cmd_modCmd_same (s : State) (seq : Nat) (f : Cmd → Cmd) (hf : ∀ c, (f c).seq = c.seq) :
    (s.modCmd seq f).cmd seq = (s.cmd seq).map f := by
  have hseq : ((fun c : Cmd => c.seq == seq) ∘ fun c => if c.seq == seq then f c else c) = fun c => c.seq == seq := by
    funext c
    simp only [Function.comp]
    split <;> simp [hf]
  rw [State.cmd, State.modCmd, List.find?_map, hseq, ← State.cmd]
  refine Option.map_congr fun c hc => ?_
  rw [if_pos (beq_iff_eq.mpr (State.seq_of_cmd hc))]

/-- Setting a command's phase changes that command. -/
theorem State.cmd_setPhase (s : State) (seq : Nat) (p : CmdPhase) :
    (s.modCmd seq fun c => { c with phase := p }).cmd seq = (s.cmd seq).map fun c => { c with phase := p } :=
  s.cmd_modCmd_same seq _ fun _ => rfl

/-- An outstanding command that is finished has the status and the result it was given. -/
theorem decided_finish {s : State} {seq : Nat} (st r : Nat) (h : (s.cmd seq).isSome = true) : Decided (s.finish seq st r) seq st r := by
  obtain ⟨c, hc⟩ := Option.isSome_iff_exists.mp h
  exact ⟨_, by rw [State.finish, State.cmd_setPhase, hc]; rfl, rfl⟩

/-- A command that may begin and passes the checks of its entry runs its own checks. -/
theorem State.begin_of_begins {s : State} {seq op : Nat} {c : Cmd} (h : Begins s seq op c) (f : Cmd → State → State) :
    s.begin seq op f = f c (Begun s seq) := by
  obtain ⟨hcmd, hop, hmay, hchk⟩ := h
  simp [State.begin, Begun, hcmd, hop, hmay, hchk]

theorem cmd_begun_isSome {s : State} {seq op : Nat} {c : Cmd} (h : Begins s seq op c) : ((Begun s seq).cmd seq).isSome = true := by
  rw [Begun, State.cmd_setPhase, h.1]; rfl

/-! ### Placing a graph (R55, R252) -/

@[simp] theorem State.floorCheck_cmds (s : State) : s.floorCheck.cmds = s.cmds := by
  simp only [State.floorCheck]
  split <;> simp

@[simp] theorem State.floorCheck_work (s : State) : s.floorCheck.work = s.work := by
  simp only [State.floorCheck]
  split <;> simp

@[simp] theorem State.loadBanks_cmds (s : State) (g : Graph) (v : Nat) : (s.loadBanks g v).cmds = s.cmds := by
  refine List.foldlRecOn (motive := fun t : State => t.cmds = s.cmds) _ _ rfl fun t ht p _ => ?_
  split <;> exact ht

/-- Filling Sage banks leaves the loaded graph in place. -/
@[simp] theorem State.loadBanks_graph (s : State) (g : Graph) (v : Nat) : (s.loadBanks g v).work.graph = s.work.graph := by
  refine List.foldlRecOn (motive := fun t : State => t.work.graph = s.work.graph) _ _ rfl fun t ht p _ => ?_
  split <;> exact ht

@[simp] theorem State.placeGraph_cmds (s : State) (g : Graph) : (s.placeGraph g).cmds = s.cmds := by
  simp [State.placeGraph]

@[simp] theorem State.placeGraph_graph (s : State) (g : Graph) : (s.placeGraph g).work.graph = some g := by
  simp [State.placeGraph]

/-! ### The checks of an image (R55, R58) -/

theorem State.fits_of_firstFit {s : State} {g : Graph} {v : Nat} (h : s.firstFit g = some v) : s.fits (g.cfgOf v) = true :=
  List.find?_some (p := fun v => s.fits (g.cfgOf v)) h

/-- Step 2 comes first. -/
theorem State.checkImage_of_headBad (s : State) {img : Bytes} (c : Cmd) (sage : Placed) (toks : List TokDecl) (preps : List PrepDecl)
    (ops : OpDecls) (v : Bool) (h : headBad (parseHead img) img.length = true) :
    s.checkImage img c sage toks preps ops v = (stBadDescriptor, 0, none) := by
  simp only [State.checkImage, h, if_true]

/-- An image that passes gives the graph of its header under its first variant that fits. -/
theorem State.checkImage_some {s : State} {img : Bytes} {c : Cmd} {sage : Placed} {toks : List TokDecl} {preps : List PrepDecl}
    {ops : OpDecls} {v : Bool} {st r : Nat} {g : Graph} (h : s.checkImage img c sage toks preps ops v = (st, r, some g)) :
    st = stOk ∧ g.id = fieldAt img 24 8 ∧ g.variant = r ∧ s.firstFit g = some r := by
  simp only [State.checkImage] at h
  repeat' split at h
  case h_2 w hw =>
    obtain ⟨rfl, rfl, rfl⟩ : stOk = st ∧ w = r ∧ _ = g := by simpa using h
    exact ⟨rfl, rfl, rfl, hw⟩
  all_goals simp at h

/-! ### What LOAD_GRAPH answers (R58) -/

/-- What LOAD_GRAPH leaves once the checks of its image have answered. -/
def State.loadAnswer (s : State) (seq : Nat) (answer : Nat × Nat × Option Graph) : State :=
  match answer with
  | (st, r, some g) => (s.placeGraph g).finish seq st r
  | (st, r, none) => if st == stSignature then s.signatureFail seq else s.finish seq st r

/-- A LOAD_GRAPH of the host counts its failed signature and is decided. -/
theorem State.signatureFail_of_lt (s : State) {seq : Nat} (hseq : seq < 2 ^ 64) :
    s.signatureFail seq = (s.modSec fun x => { x with sigFail := sat32 x.sigFail 1 }).finish seq stSignature 0 :=
  if_neg (Nat.not_le.mpr hseq)

/-- A failing check decides its status and leaves the work as it was. -/
theorem State.loadAnswer_none {s : State} {seq : Nat} (hseq : seq < 2 ^ 64) (hcmd : (s.cmd seq).isSome = true) (st r : Nat) :
    (s.loadAnswer seq (st, r, none)).work = s.work ∧ ∃ r', Decided (s.loadAnswer seq (st, r, none)) seq st r' := by
  by_cases hst : st = stSignature
  · subst hst
    rw [State.loadAnswer, beq_self_eq_true, if_pos rfl, s.signatureFail_of_lt hseq]
    exact ⟨rfl, 0, decided_finish _ _ hcmd⟩
  · simp only [State.loadAnswer, beq_iff_eq, if_neg hst]
    exact ⟨rfl, r, decided_finish _ _ hcmd⟩

theorem State.loadAnswer_some {s : State} {seq : Nat} (hcmd : (s.cmd seq).isSome = true) (st r : Nat) (g : Graph) :
    (s.loadAnswer seq (st, r, some g)).work.graph = some g ∧ Decided (s.loadAnswer seq (st, r, some g)) seq st r :=
  ⟨s.placeGraph_graph g, decided_finish _ _ (by rwa [State.cmd_of_cmds (s.placeGraph_cmds g)])⟩

/-- An image in host memory is what a bus read of its operand gives. -/
theorem State.loadImage_bus (s : State) (e : BusEnv) {c : Cmd} (hseq : c.seq < 2 ^ 64) (hbus : c.entry.aspace = 0) :
    s.loadImage e c = s.busRead e c.entry.addr0 c.entry.len0 := by
  simp only [State.loadImage, setupSeq, if_neg (Nat.not_le.mpr hseq), State.peek, spaceOf, hbus]
  rfl

/-- A read of host memory corrects and counts nothing. -/
theorem State.readEffect_hostMem (s : State) (a n : Nat) : s.readEffect (spaceOf 0) a n = s := rfl

/-- LOAD_GRAPH of an image in host memory that begins in D0 with every stack on: the loaded graph, the read and the image's own
checks decide, in this order. -/
theorem exec_loadGraph_bus {s : State} {seq : Nat} {e : BusEnv} {c : Cmd} (v : Bool) (sage : Placed) (toks : List TokDecl)
    (decls : GraphDecls) (hbeg : Begins (s.env e) seq 3 c) (hbus : c.entry.aspace = 0) (hd0 : s.inD0 = true) (hseq : seq < 2 ^ 64)
    (hon : s.anyStackOff = false) :
    exec (.loadGraph seq e v sage toks decls) s = .next (
      let t := Begun (s.env e) seq
      if s.work.graph.isSome then t.finish seq stBusy 0
      else if envFails e c.entry.addr0 c.entry.len0 then t.finish seq stBusError 0
      else t.loadAnswer seq
        (t.checkImage (readBytes (s.env e).mem.bus c.entry.addr0 c.entry.len0) c sage toks decls.preps decls.ops v)) := by
  have hcseq : c.seq < 2 ^ 64 := State.seq_of_cmd hbeg.1 ▸ hseq
  have hd0' : (Begun (s.env e) seq).inD0 = true := hd0
  have hon' : (Begun (s.env e) seq).anyStackOff = false := hon
  show execLoadGraph seq e v sage toks decls s = _
  rw [execLoadGraph, State.begin_of_begins (op := opLoad) hbeg]
  simp only [hd0', hon', State.loadImage_bus _ e hcseq hbus, State.busRead, hbus, State.readEffect_hostMem, ite_self, Bool.not_true,
    Bool.and_false, Bool.false_and, Bool.false_eq_true, if_false]
  refine congrArg Host.Outcome.next (ite_congr rfl (fun _ => rfl) fun _ => ?_)
  cases envFails e c.entry.addr0 c.entry.len0 <;> rfl

/-- Settles O27: the loaded graph, the read, and the checks of the image decide in turn. -/
theorem graphLoadsOrAnswersItsFirstFailure : Obligations.GraphLoadsOrAnswersItsFirstFailure := by
  intro s seq e v sage toks preps ops c hbeg hbus hd0 hseq hon
  have hexec := exec_loadGraph_bus v sage toks ⟨preps, ops⟩ hbeg hbus hd0 hseq hon
  have hcmd := cmd_begun_isSome hbeg
  refine ⟨fun hg => ?_, fun hg hbad => ?_, fun hg hok => ?_⟩
  · rw [if_pos (Option.isSome_iff_ne_none.mpr hg)] at hexec
    exact ⟨_, hexec, decided_finish _ _ hcmd, rfl⟩
  · simp only [hg, Option.isSome_none, Bool.false_eq_true, if_false, hbad, if_true] at hexec
    exact ⟨_, hexec, decided_finish _ _ hcmd, rfl⟩
  · simp only [hg, Option.isSome_none, Bool.false_eq_true, if_false, hok] at hexec
    refine ⟨fun hhead => ?_, fun st r hk => ?_, fun r g hk => ?_⟩
    · rw [State.checkImage_of_headBad _ _ _ _ _ _ _ hhead] at hexec
      exact ⟨_, hexec, decided_finish _ _ hcmd, hg⟩
    · rw [hk] at hexec
      obtain ⟨hwork, hdec⟩ := State.loadAnswer_none hseq hcmd st r
      exact ⟨_, hexec, (congrArg Work.graph hwork).trans hg, hdec⟩
    · rw [hk] at hexec
      obtain ⟨hgraph, hdec⟩ := State.loadAnswer_some hcmd 0 r g
      obtain ⟨-, hid, hvar, hfit⟩ := State.checkImage_some hk
      exact ⟨_, hexec, hgraph, hdec, hid, hvar, State.fits_of_firstFit hfit⟩

end Sys2Proof.Machine
end

section
/-! Proofs about chapter 02 (beat): the phase loop and its sources. First the layer on shared operations: what a change of the lock
state, a breach and the relays leave in the beat unit; then how a delivery is judged and taken; then the statements. -/

namespace Sys2Proof.Machine

/-! ### What the shared operations leave in the beat unit -/

/-- A change of the lock state changes nothing else of the beat unit, also where the state stays the same. -/
@[simp] theorem State.setLock_beat (s : State) (l : Lock) : (s.setLock l).beat = { s.beat with lock := l } := by
  rw [State.setLock]
  split
  case isTrue h => rw [← beq_iff_eq.mp h]
  case isFalse => rw [State.postEvent_beat, State.modBeat_beat]

@[simp] theorem State.enqueue_beat (s : State) (q : Nat) (e : CEntry) (jseq jfinal : Nat) (flows : List (Nat × Nat)) :
    (s.enqueue q e jseq jfinal flows).beat = s.beat := by
  simp only [State.enqueue]
  repeat' split
  all_goals simp

@[simp] theorem State.enqueue_work (s : State) (q : Nat) (e : CEntry) (jseq jfinal : Nat) (flows : List (Nat × Nat)) :
    (s.enqueue q e jseq jfinal flows).work = s.work := by
  simp only [State.enqueue]
  repeat' split
  all_goals simp

/-- A notice leaves a part of the state that queueing an entry leaves. -/
theorem State.notice_keeps {α : Type} (part : State → α)
    (hkeep : ∀ (t : State) q e jseq jfinal flows, part (t.enqueue q e jseq jfinal flows) = part t) (s : State) (status result : Nat) :
    part (s.notice status result) = part s := by
  rw [State.notice]
  split
  · refine List.foldlRecOn (motive := fun t => part t = part s) _ _ rfl fun t ht q _ => ?_
    split
    · exact (hkeep t _ _ _ _ _).trans ht
    · exact ht
  · rfl

@[simp] theorem State.notice_beat (s : State) (status result : Nat) : (s.notice status result).beat = s.beat :=
  State.notice_keeps State.beat State.enqueue_beat s status result

@[simp] theorem State.notice_work (s : State) (status result : Nat) : (s.notice status result).work = s.work :=
  State.notice_keeps State.work State.enqueue_work s status result

@[simp] theorem State.beatOutNew_beat (s : State) (d : Delivery) : (s.beatOutNew d).beat = s.beat := by
  rw [State.beatOutNew]
  split <;> rfl

@[simp] theorem State.forwardFrame_beat (s : State) (bits t : Nat) (ok : Bool) : (s.forwardFrame bits t ok).beat = s.beat := rfl

@[simp] theorem State.chainBeat_beat (s : State) (d : Delivery) : (s.chainBeat d).beat = s.beat := by
  rw [State.chainBeat]
  split <;> rfl

@[simp] theorem State.pairBeat_beat (s : State) (d : Delivery) : (s.pairBeat d).beat = s.beat := by
  rw [State.pairBeat]
  split
  · exact s.pairSend_beat _ _
  · rfl

@[simp] theorem State.relayBeat_beat (s : State) (d : Delivery) : (s.relayBeat d).beat = s.beat := by
  rw [State.relayBeat, State.pairBeat_beat, State.chainBeat_beat]

@[simp] theorem State.followsPrimary_at (s : State) (t : Nat) : (s.at_ t).followsPrimary = s.followsPrimary := rfl

@[simp] theorem State.followsPrimary_modBeat (s : State) (f : Beat → Beat) : (s.modBeat f).followsPrimary = s.followsPrimary := rfl

@[simp] theorem State.inD0_at (s : State) (t : Nat) : (s.at_ t).inD0 = s.inD0 := rfl

@[simp] theorem State.inD0_modBeat (s : State) (f : Beat → Beat) : (s.modBeat f).inD0 = s.inD0 := rfl

/-! ### What an accepted beat does (R37, R43, R50, R53, R56) -/

/-- A breach touches the two breach fields of the beat unit alone. -/
theorem State.breach_beat (s : State) (i : Nat) :
    ∃ flag count, (s.breach i).beat = { s.beat with breach := flag, breaches := count } := by
  simp only [State.breach]
  repeat' split
  case h_1.isTrue => exact ⟨true, sat32 s.beat.breaches 1, by simp⟩
  all_goals exact ⟨s.beat.breach, s.beat.breaches, rfl⟩

/-- A breach marks batches and leaves the loaded graph. -/
@[simp] theorem State.breach_graph (s : State) (i : Nat) : (s.breach i).work.graph = s.work.graph := by
  simp only [State.breach]
  repeat' split
  case h_1.isTrue => simp
  all_goals rfl

/-- Whether a graph is quiet depends on the loaded graph alone. -/
theorem quietGraph_of_graph_eq {s u : State} (hs : QuietGraph s) (h : u.work.graph = s.work.graph) : QuietGraph u :=
  fun g hg => hs g (h ▸ hg)

theorem State.switchVariant_of_quiet {s : State} (h : QuietGraph s) : s.switchVariant = s := by
  rw [State.switchVariant]
  split
  case h_1 => rfl
  case h_2 g hg => simp [(h g hg).1]

theorem State.phaseBoundary_of_quiet {s : State} (h : QuietGraph s) : s.phaseBoundary = s := by
  rw [State.phaseBoundary]
  split
  case h_1 g hg => exact if_pos (h g hg).2
  case h_2 => rfl

/-- What is taken of a beat stands in the beat unit. -/
theorem beatTaken_of_beat_eq {s u : State} {src : BeatSrc} {n t : Nat} {hold : Bool} (hs : BeatTaken s src n t hold)
    (h : u.beat = s.beat) : BeatTaken u src n t hold := by
  rwa [BeatTaken, h]

@[simp] theorem Beat.setLast_pageLast (b : Beat) (src : BeatSrc) (x : SrcBeat) : (b.setLast src x).pageLast = b.pageLast := by
  cases src <;> rfl

/-- An accepted beat sets the position and names its source; of the page's fields it leaves the last verified number. -/
theorem State.acceptBeat_taken {s : State} (hq : QuietGraph s) (d : Delivery) :
    BeatTaken (s.acceptBeat d) d.src d.num d.at_ d.hold ∧ (s.acceptBeat d).beat.pageLast = s.beat.pageLast := by
  simp only [State.acceptBeat]
  generalize hloop : State.setLock _ _ = s2
  have htaken : BeatTaken s2 d.src d.num d.at_ d.hold ∧ s2.beat.pageLast = s.beat.pageLast := by simp [← hloop, BeatTaken]
  have hq2 : QuietGraph s2 := quietGraph_of_graph_eq hq (by simp [← hloop])
  cases hedge : s.beat.edge with
  | none => simpa [State.switchVariant_of_quiet hq2, State.phaseBoundary_of_quiet hq2] using htaken
  | some e =>
    have hq3 : QuietGraph (s2.breach (d.at_ - e)) := quietGraph_of_graph_eq hq2 (s2.breach_graph _)
    obtain ⟨flag, count, hbreach⟩ := s2.breach_beat (d.at_ - e)
    simpa [State.switchVariant_of_quiet hq3, State.phaseBoundary_of_quiet hq3, BeatTaken, hbreach] using htaken

/-! ### How a delivery is judged (R33, R37, R39) -/

/-- The value of RLG_BEAT_CFG.SRC that selects a source. -/
def BeatSrc.code : BeatSrc → Nat
  | .beatIn => 0 | .chain => 1 | .page => 2

/-- A delivery of the source that the configuration names is judged by the loop. -/
theorem Beat.fate_of_selected {b : Beat} {d : Delivery} (hsrc : b.srcCfg = d.src.code) : b.fate d = .judged (b.judge d) := by
  rw [Beat.fate]
  cases hd : d.src <;> simp [hsrc, hd, BeatSrc.code]

/-- A delivery in time with a new number is accepted. -/
theorem Beat.judge_of_good {s : State} {d : Delivery} (h : GoodDelivery s d.at_ d.num) : s.beat.judge d = .accept := by
  obtain ⟨hedge, hnum⟩ := h
  have hnew : (s.beat.lastNum.any fun n => decide (d.num ≤ n)) = false := by
    cases hlast : s.beat.lastNum with
    | none => rfl
    | some m => simp [hnum m hlast]
  cases he : s.beat.edge with
  | none => simp [Beat.judge, he, hnew]
  | some e => simp [Beat.judge, he, hnew, hedge e he]

/-- The spacing is judged before the number. -/
theorem Beat.judge_of_early {b : Beat} {d : Delivery} {e : Nat} (he : b.edge = some e) (h : d.at_ < e + 50000) :
    b.judge d = .glitch := by
  simp [Beat.judge, he, h]

theorem Beat.judge_of_old {b : Beat} {d : Delivery} {e n : Nat} (he : b.edge = some e) (h : e + 50000 ≤ d.at_)
    (hn : b.lastNum = some n) (hold : d.num ≤ n) : b.judge d = .number := by
  simp [Beat.judge, he, hn, hold, h]

section deliver
variable {s : State} {d : Delivery} (hf : s.followsPrimary = false) (hsrc : s.beat.srcCfg = d.src.code)
include hf hsrc

theorem State.deliver_accept (h : GoodDelivery s d.at_ d.num) : s.deliver d = (true, s.acceptBeat d) := by
  simp [State.deliver, hf, Beat.fate_of_selected hsrc, Beat.judge_of_good h]

theorem State.deliver_glitch (h : s.beat.judge d = .glitch) :
    s.deliver d = (false, s.modBeat fun b => { b with glitch := sat32 b.glitch 1 }) := by
  simp [State.deliver, hf, Beat.fate_of_selected hsrc, h]

theorem State.deliver_number (h : s.beat.judge d = .number) : s.deliver d = (false, s.rejectNumber) := by
  simp [State.deliver, hf, Beat.fate_of_selected hsrc, h]

end deliver

/-- The fourth number rejection in a row makes the lock state MISMATCH, and no other one changes it. -/
theorem State.rejectNumber_lock (s : State) :
    s.rejectNumber.beat.lock = if 3 ≤ s.beat.numRejects then .mismatch else s.beat.lock := by
  by_cases hrun : 3 ≤ s.beat.numRejects <;> by_cases hlock : s.beat.lock = .mismatch <;>
    simp [State.rejectNumber, hrun, hlock]

/-- A number rejection is counted and leaves the last beat, the position's beat number and the estimate. -/
theorem State.rejectNumber_counts (s : State) :
    let b := s.rejectNumber.beat
    b.reject = sat32 s.beat.reject 1 ∧ b.numRejects = s.beat.numRejects + 1 ∧ b.glitch = s.beat.glitch ∧ b.edge = s.beat.edge ∧
      b.lastNum = s.beat.lastNum ∧ b.posBeat = s.beat.posBeat ∧ b.pest = s.beat.pest := by
  simp only [State.rejectNumber]
  split <;> simp

/-! ### BEAT_IN frames (R34, R35) -/

/-- The delivery that a frame carries. -/
def frameDelivery (bits t : Nat) : Delivery := { src := .beatIn, num := bitsOf bits 79 16, at_ := t, hold := bitOf bits 80 }

/-- A frame that the loop accepts leaves the beat unit that its delivery leaves: what it sends on changes nothing there. -/
theorem exec_beatInFrame_accepted {s v : State} {bits t : Nat} (hok : frameOk bits = true)
    (hd : (s.at_ (t + 10240)).deliver (frameDelivery bits t) = (true, v)) :
    ∃ u, exec (.beatInFrame bits t) s = .next u ∧ u.beat = v.beat := by
  refine ⟨_, rfl, ?_⟩
  rw [frameDelivery] at hd
  simp only [hok, if_true, hd]
  split <;> simp

/-- With BEAT_OUT off a good frame that is not accepted does what its delivery does. -/
theorem exec_beatInFrame_unaccepted {s v : State} {bits t : Nat} (hout : s.beat.outEn = false) (hok : frameOk bits = true)
    (hd : (s.at_ (t + 10240)).deliver (frameDelivery bits t) = (false, v)) : exec (.beatInFrame bits t) s = .next v := by
  show execBeatInFrame bits t s = _
  rw [frameDelivery] at hd
  simp [execBeatInFrame, hok, hd, hout]

/-- With BEAT_OUT off and BEAT_IN selected a frame that fails a check is counted. -/
theorem exec_beatInFrame_bad {s : State} {bits : Nat} (t : Nat) (hsrc : s.beat.srcCfg = 0) (hf : s.followsPrimary = false)
    (hout : s.beat.outEn = false) (hbad : frameOk bits = false) :
    exec (.beatInFrame bits t) s = .next ((s.at_ (t + 10240)).modBeat fun b => { b with reject := sat32 b.reject 1 }) := by
  show execBeatInFrame bits t s = _
  simp [execBeatInFrame, hbad, hout, hsrc, hf]

/-- Settles O4: the checks, the spacing and the number decide in turn. -/
theorem unacceptedFramesOnlyCount : Obligations.UnacceptedFramesOnlyCount := by
  intro s bits t hsrc hf hout
  refine ⟨fun hbad => ⟨_, exec_beatInFrame_bad t hsrc hf hout hbad, rfl⟩, fun e hok he hearly => ?_,
    fun e n hok he htime hn hold => ?_⟩
  · have hd := State.deliver_glitch (s := s.at_ (t + 10240)) (d := frameDelivery bits t) hf hsrc (Beat.judge_of_early he hearly)
    exact ⟨_, exec_beatInFrame_unaccepted hout hok hd, rfl⟩
  · have hd := State.deliver_number (s := s.at_ (t + 10240)) (d := frameDelivery bits t) hf hsrc
      (Beat.judge_of_old he htime hn hold)
    obtain ⟨hrej, hrun, hgl, hedge, hlast, hpos, hpest⟩ := (s.at_ (t + 10240)).rejectNumber_counts
    have hlock := (s.at_ (t + 10240)).rejectNumber_lock
    refine ⟨_, exec_beatInFrame_unaccepted hout hok hd, hrej, hrun, hgl, hedge, hlast, hpos, hpest, fun hfour => ?_, fun hfew => ?_⟩
    · rw [hlock, State.at_beat, if_pos hfour]
    · rw [hlock, State.at_beat, if_neg (Nat.not_le.mpr hfew)]

/-! ### The host beat page (R36) -/

/-- The state in which the record of a page read is judged: the read has returned, and its number is the last verified one. -/
def State.pageRecord (s : State) (n issued t : Nat) : State :=
  ((s.at_ t).modBeat fun b => { b with pageReads := b.pageReads.erase issued }).modBeat fun b =>
    { b with pageFails := 0, pageLast := some n }

/-- The delivery that a line of the page carries. -/
def pageDelivery (l : Bytes) (issued : Nat) : Delivery :=
  { src := .page, num := fieldAt l 0 8, at_ := issued - fieldAt l 8 4, hold := false }

/-- A verified new record, young enough, that the loop accepts leaves the beat unit that its delivery leaves. -/
theorem exec_beatPageReadComplete_accepted {s v : State} {l : Bytes} {issued t : Nat} (hd0 : s.inD0 = true)
    (hread : issued ∈ s.beat.pageReads) (hlen : l.length = 64) (hcrc : fieldAt l 60 4 = crc32c (l.take 60))
    (hnew : s.beat.pageLast ≠ some (fieldAt l 0 8)) (hage : fieldAt l 8 4 ≤ 1000000)
    (hd : (s.pageRecord (fieldAt l 0 8) issued t).deliver (pageDelivery l issued) = (true, v)) :
    ∃ u, exec (.beatPageReadComplete (some l) issued t) s = .next u ∧ u.beat = v.beat := by
  have hexec : exec (.beatPageReadComplete (some l) issued t) s =
      .next ((v.beatOutNew (pageDelivery l issued)).relayBeat (pageDelivery l issued)) := by
    show execBeatPageReadComplete (some l) issued t s = _
    rw [State.pageRecord, pageDelivery] at hd
    rw [pageDelivery]
    simp [execBeatPageReadComplete, hread, hd0, hlen, hcrc, hnew, Nat.not_lt.mpr hage, hd]
  exact ⟨_, hexec, by simp⟩

/-- Settles O3: the delivery of either source is accepted, and an accepted beat sets the position. -/
theorem acceptedBeatSetsPosition : Obligations.AcceptedBeatSetsPosition := by
  refine ⟨fun s bits t hsrc hf hq hok hgood => ?_, fun s l issued t hsrc hf hq hd0 hread hlen hcrc hnew hage hgood => ?_⟩
  · have hd := State.deliver_accept (s := s.at_ (t + 10240)) (d := frameDelivery bits t) hf hsrc hgood
    obtain ⟨u, hexec, hbeat⟩ := exec_beatInFrame_accepted hok hd
    obtain ⟨htaken, -⟩ := State.acceptBeat_taken (s := s.at_ (t + 10240)) hq (frameDelivery bits t)
    exact ⟨u, hexec, beatTaken_of_beat_eq htaken hbeat⟩
  · have hd := State.deliver_accept (s := s.pageRecord (fieldAt l 0 8) issued t) (d := pageDelivery l issued) hf hsrc hgood
    obtain ⟨u, hexec, hbeat⟩ := exec_beatPageReadComplete_accepted hd0 hread hlen hcrc hnew hage hd
    obtain ⟨htaken, hlast⟩ := State.acceptBeat_taken (s := s.pageRecord (fieldAt l 0 8) issued t) hq (pageDelivery l issued)
    exact ⟨u, hexec, beatTaken_of_beat_eq htaken hbeat, by rw [hbeat, hlast]; rfl⟩

/-- A poll of a readable page that is due reads it and sets the instant of the next one. -/
theorem exec_beatPagePoll_due {s : State} {t : Nat} (ht : s.now ≤ t) (hread : s.pageReadable = true) (hdue : s.beat.pageNext ≤ t) :
    exec (.beatPagePoll t) s = .next (((s.at_ t).modBeat fun b =>
      { b with pageReads := b.pageReads ++ [t], pageNext := t + 1000 }).emit (.busRead s.beat.page.val.toNat 64)) := by
  have hread' : (s.at_ t).pageReadable = true := hread
  show execBeatPagePoll t s = _
  simp [execBeatPagePoll, hread', ht, hdue]

/-! ### The timeouts of the lock state (lock-state table) -/

theorem exec_beatPhaseEndHold_end {s : State} {t : Nat} (ht : s.now ≤ t) (hlock : s.beat.lock = .locked)
    (hend : phaseNow s.beat t = 0xFFFF) :
    exec (.beatPhaseEndHold t) s = .next (((s.at_ t).modBeat fun b => { b with posPhase := 0xFFFF }).setLock .hold) := by
  show execBeatPhaseEndHold t s = _
  simp [execBeatPhaseEndHold, ht, hlock, hend]

theorem exec_beatHoldTimeoutLost_late {s : State} {t e : Nat} (ht : s.now ≤ t) (hlock : s.beat.lock = .hold)
    (he : s.beat.edge = some e) (hlate : (s.beat.holds : Int) * s.beat.pest ≤ (((t - e : Nat) : Int) : Rat)) :
    exec (.beatHoldTimeoutLost t) s = .next ((s.at_ t).setLock .lost) := by
  show execBeatHoldTimeoutLost t s = _
  simp only [execBeatHoldTimeoutLost, State.at_beat, State.at_now, max_eq_right ht, he, hlock, hlate, beq_self_eq_true, decide_true,
    Bool.and_self, if_true]

theorem exec_beatHoldTimeoutLost_of_not_hold {s : State} (t : Nat) (hlock : s.beat.lock ≠ .hold) :
    exec (.beatHoldTimeoutLost t) s = .next (s.at_ t) := by
  show execBeatHoldTimeoutLost t s = _
  simp [execBeatHoldTimeoutLost, hlock]

/-- Settles O5: the poll, the end of the phase, and the timeout of HOLD. -/
theorem pagePollAndLockTimeouts : Obligations.PagePollAndLockTimeouts := by
  intro s t ht
  refine ⟨fun hsrc hd0 hset hdue => ?_, fun hlock hend => ?_, fun e hlock he _ hlate => ?_,
    exec_beatHoldTimeoutLost_of_not_hold t⟩
  · have hread : s.pageReadable = true := by
      obtain hsrc | hsrc := hsrc <;> simp [State.pageReadable, State.inD0, hsrc, hd0, hset]
    exact ⟨_, exec_beatPagePoll_due ht hread hdue, rfl, rfl⟩
  · exact ⟨_, exec_beatPhaseEndHold_end ht hlock hend, State.setLock_beat _ _⟩
  · exact ⟨_, exec_beatHoldTimeoutLost_late ht hlock he hlate, State.setLock_beat _ _⟩

/-! ### REBASE and the source (R39, R40) -/

theorem State.anyOpen_eq_false_iff (s : State) : s.anyOpen = false ↔ ∀ p ∈ s.work.streams, p.2.phase = .closed := by
  simp [State.anyOpen]

theorem exec_rebase_closed {s : State} (m : Master) (h : s.anyOpen = false) :
    exec (.rebase m) s = .next ((s.modBeat fun b => { b with
      posPhase := phaseNow b s.now, lastNum := none, prevIval := none, numRejects := 0
      lastIn := none, lastChain := none, lastPage := none }).setLock .acquiring) :=
  congrArg Host.Outcome.next (if_neg (Bool.eq_false_iff.mp h))

theorem exec_rebase_open {s : State} (m : Master) (h : s.anyOpen = true) : exec (.rebase m) s = .next (s.reject 0x100048 m.val) :=
  congrArg Host.Outcome.next (if_pos h)

/-- Settles O6: REBASE with every stream closed and with one that is not, and the write of SRC. -/
theorem rebaseAndSourceSelect : Obligations.RebaseAndSourceSelect := by
  refine ⟨fun s m hclosed => ?_, fun s m k x hx hphase => ?_, fun s src => rfl⟩
  · refine ⟨_, exec_rebase_closed m (s.anyOpen_eq_false_iff.mpr hclosed), ?_⟩
    simp
  · refine exec_rebase_open m (eq_true_of_ne_false fun hno => hphase ?_)
    exact s.anyOpen_eq_false_iff.mp hno (k, x) hx

end Sys2Proof.Machine
end

section
/-! Proofs about chapter 03 (host queues): attaching, enabling a queue pair, and doorbells. First the layer on queue pairs: what a change of
one leaves, and what queueing a completion entry changes; then the statements. -/

namespace Sys2Proof.Machine

/-! ### Queue pairs and doorbell groups after a change of one -/

@[simp] theorem State.qp_modQp_same (s : State) (q : Nat) (f : Qp → Qp) : (s.modQp q f).qp q = f (s.qp q) := by
  simp [State.qp]

theorem State.qp_modQp_ne (s : State) {q p : Nat} (f : Qp → Qp) (h : p ≠ q) : (s.modQp q f).qp p = s.qp p := by
  simp [State.qp, tget_tmod_ne _ _ _ h]

@[simp] theorem State.group_modGroup_same (s : State) (g : Nat) (f : DbGroup → DbGroup) : (s.modGroup g f).group g = f (s.group g) := by
  simp [State.group]

theorem State.qp_of_qps {s t : State} (h : t.qps = s.qps) (q : Nat) : t.qp q = s.qp q := by
  rw [State.qp, State.qp, h]

@[simp] theorem State.at_qp (s : State) (t q : Nat) : (s.at_ t).qp q = s.qp q := rfl

@[simp] theorem State.emit_qp (s : State) (o : Out) (q : Nat) : (s.emit o).qp q = s.qp q := rfl

@[simp] theorem State.modJrn_qp (s : State) (f : Journal → Journal) (q : Nat) : (s.modJrn f).qp q = s.qp q := rfl

@[simp] theorem State.modGroup_qp (s : State) (g : Nat) (f : DbGroup → DbGroup) (q : Nat) : (s.modGroup g f).qp q = s.qp q := rfl

/-! ### What queueing a completion entry changes (R68, R452) -/

/-- An entry goes last in the queue of its queue pair, announced or not, unless a former primary has announced it. -/
theorem State.enqueue_cases (s : State) (q : Nat) (e : CEntry) (jseq jfinal : Nat) (flows : List (Nat × Nat)) :
    (∃ (t : State) (a n : Nat), t.qps = s.qps ∧ s.enqueue q e jseq jfinal flows =
      t.modQp q fun x => { x with queue := x.queue ++ [{ e with ann := a, annNum := n }] }) ∨
    (s.pair.early.contains (q, e.cmdId, e.kind, e.result) = true ∧ (s.enqueue q e jseq jfinal flows).qps = s.qps) := by
  rw [State.enqueue]
  split
  · exact .inl ⟨_, _, _, by simp, rfl⟩
  split
  case isTrue hearly => exact .inr ⟨hearly, rfl⟩
  · exact .inl ⟨s, e.ann, e.annNum, rfl, rfl⟩

/-- Queueing an entry leaves a part of the state that sending it on the pair link and changing a queue pair leave. -/
theorem State.enqueue_keeps {α : Type} (part : State → α) (hqp : ∀ (t : State) q f, part (t.modQp q f) = part t)
    (hpair : ∀ (t : State) f, part (t.modPair f) = part t) (hsend : ∀ (t : State) ty b, part (t.pairSend ty b) = part t)
    (s : State) (q : Nat) (e : CEntry) (jseq jfinal : Nat) (flows : List (Nat × Nat)) :
    part (s.enqueue q e jseq jfinal flows) = part s := by
  simp only [State.enqueue]
  repeat' split
  all_goals simp only [hqp, hpair, hsend]

section
variable (s : State) (q : Nat) (e : CEntry) (jseq jfinal : Nat) (flows : List (Nat × Nat))

@[simp] theorem State.enqueue_glb : (s.enqueue q e jseq jfinal flows).glb = s.glb := by
  apply State.enqueue_keeps <;> simp
@[simp] theorem State.enqueue_groups : (s.enqueue q e jseq jfinal flows).groups = s.groups := by
  apply State.enqueue_keeps <;> simp
@[simp] theorem State.enqueue_jrn : (s.enqueue q e jseq jfinal flows).jrn = s.jrn := by
  apply State.enqueue_keeps <;> simp
@[simp] theorem State.enqueue_cmds : (s.enqueue q e jseq jfinal flows).cmds = s.cmds := by
  apply State.enqueue_keeps <;> simp

/-- Queueing an entry changes no other queue pair. -/
theorem State.qp_enqueue_ne {p : Nat} (h : p ≠ q) : (s.enqueue q e jseq jfinal flows).qp p = s.qp p := by
  obtain ⟨t, a, n, ht, heq⟩ | ⟨-, hqps⟩ := s.enqueue_cases q e jseq jfinal flows
  · rw [heq, State.qp_modQp_ne _ _ h, State.qp_of_qps ht]
  · exact State.qp_of_qps hqps p

/-- Queueing an entry only lengthens the queue of its queue pair. -/
theorem State.qp_enqueue_same : ∃ l, (s.enqueue q e jseq jfinal flows).qp q = { s.qp q with queue := (s.qp q).queue ++ l } := by
  obtain ⟨t, a, n, ht, heq⟩ | ⟨-, hqps⟩ := s.enqueue_cases q e jseq jfinal flows
  · exact ⟨_, by rw [heq, State.qp_modQp_same, State.qp_of_qps ht]⟩
  · exact ⟨[], by rw [State.qp_of_qps hqps, List.append_nil]⟩

end

/-- An entry that no former primary has announced waits in the queue of its queue pair. -/
theorem State.mem_queue_enqueue {s : State} {q : Nat} {e : CEntry} (h : s.pair.early.contains (q, e.cmdId, e.kind, e.result) = false)
    (jseq jfinal : Nat) (flows : List (Nat × Nat)) :
    ∃ a n, { e with ann := a, annNum := n } ∈ ((s.enqueue q e jseq jfinal flows).qp q).queue := by
  obtain ⟨t, a, n, -, heq⟩ | ⟨hearly, -⟩ := s.enqueue_cases q e jseq jfinal flows
  · exact ⟨a, n, by rw [heq, State.qp_modQp_same]; exact List.mem_append_right _ List.mem_cons_self⟩
  · exact absurd hearly (Bool.eq_false_iff.mp h)

/-- Queueing several entries for one queue pair only lengthens its queue. -/
theorem State.qp_enqueueAll {β : Type} (q : Nat) (f : State → β → State)
    (hf : ∀ t b, ∃ e jseq jfinal flows, f t b = t.enqueue q e jseq jfinal flows) (bs : List β) (s : State) :
    (∃ l, (bs.foldl f s).qp q = { s.qp q with queue := (s.qp q).queue ++ l }) ∧ ∀ p, p ≠ q → (bs.foldl f s).qp p = s.qp p := by
  induction bs generalizing s with
  | nil => exact ⟨⟨[], by simp⟩, fun _ _ => rfl⟩
  | cons b bs ih =>
    obtain ⟨e, jseq, jfinal, flows, he⟩ := hf s b
    obtain ⟨l, hl⟩ := s.qp_enqueue_same q e jseq jfinal flows
    obtain ⟨⟨l', hl'⟩, hne⟩ := ih (f s b)
    refine ⟨⟨l ++ l', ?_⟩, fun p hp => ?_⟩
    · rw [List.foldl_cons, hl', he, hl, List.append_assoc]
    · rw [List.foldl_cons, hne p hp, he, State.qp_enqueue_ne _ _ _ _ _ _ hp]

/-! ### Attaching (R61, R63, R535) -/

/-- Two ranges that overlap agree on the overlap. -/
theorem agree_of_le {mine offer : Nat} (h : max (mine % 65536) (offer % 65536) ≤ min (mine / 65536 % 65536) (offer / 65536 % 65536)) :
    agree mine offer = some (max (mine % 65536) (offer % 65536), min (mine / 65536 % 65536) (offer / 65536 % 65536)) :=
  if_pos h

theorem agree_of_lt {mine offer : Nat} (h : min (mine / 65536 % 65536) (offer / 65536 % 65536) < max (mine % 65536) (offer % 65536)) :
    agree mine offer = none :=
  if_neg (Nat.not_le.mpr h)

theorem exec_attachAgreementComplete_agreed {s : State} {h q : Nat × Nat} (t : Nat) (hbusy : s.glb.attachBusy = true)
    (hh : agree hqfSupport s.glb.goHqf = some h) (hq : agree qxgSupport s.glb.goQxg = some q) :
    exec (.attachAgreementComplete t) s = .next ((s.at_ t).modGlb fun g => { g with
      attachBusy := false, done := true, status := stOk, hqfAgreed := h.2, qxgAgreed := q.1 + q.2 * 65536 }) := by
  show execAttachAgreementComplete t s = _
  simp [execAttachAgreementComplete, hbusy, hh, hq]

theorem exec_attachAgreementComplete_failed {s : State} (t : Nat) (hbusy : s.glb.attachBusy = true)
    (hno : agree hqfSupport s.glb.goHqf = none ∨ agree qxgSupport s.glb.goQxg = none) :
    exec (.attachAgreementComplete t) s = .next ((s.at_ t).modGlb fun g => { g with
      attachBusy := false, done := true, status := stVersion, hqfAgreed := 0, qxgAgreed := 0 }) := by
  show execAttachAgreementComplete t s = _
  simp only [execAttachAgreementComplete, State.at_glb, hbusy, if_true]
  obtain hh | hq := hno
  · rw [hh]
  · rw [hq]
    cases agree hqfSupport s.glb.goHqf <;> rfl

/-- A queue pair is not enabled while the module is not attached, or its journal not ready. -/
theorem exec_qpEnable_dropped {s : State} {q : Fin 64} (m : Master) (hoff : (s.qp q.val).enable = false)
    (hno : (s.attached && s.jrn.ready) = false) : exec (.qpEnable q m) s = .next (s.reject (0x10000 + q.val * 0x100) m.val) := by
  show Host.Outcome.next (s.qpEnable q.val m.val) = _
  simp [State.qpEnable, hoff, hno, qpOffset]

/-- Settles O13: the two ranges agree on their overlap, or one of them has none. -/
theorem attachAgreesByRangeOverlap : Obligations.AttachAgreesByRangeOverlap := by
  intro s t hbusy loH hiH loQ hiQ
  refine ⟨fun hH hQ => ⟨_, exec_attachAgreementComplete_agreed t hbusy (agree_of_le hH) (agree_of_le hQ), rfl⟩, fun hno => ?_⟩
  refine ⟨_, exec_attachAgreementComplete_failed t hbusy (hno.imp agree_of_lt agree_of_lt), rfl, rfl, fun q m hoff => ?_⟩
  exact ⟨_, exec_qpEnable_dropped m hoff rfl, hoff⟩

/-! ### GO, and enabling and disabling a queue pair (R61, R63, R79, R93) -/

theorem State.anyQp_eq_false_iff (s : State) : s.anyQp = false ↔ ∀ p ∈ s.qps, p.2.enable = false := by
  simp [State.anyQp]

theorem State.anyQp_iff (s : State) : s.anyQp = true ↔ ∃ p ∈ s.qps, p.2.enable = true := by
  simp [State.anyQp]

theorem State.outstanding_eq_zero_iff (s : State) (q : Nat) : s.outstanding q = 0 ↔ ∀ c ∈ s.cmds, c.qp ≠ q := by
  simp [State.outstanding]

/-- An enabled queue pair starts with an empty ring and the phase bit 1, whatever entries wait in its queue; no other one changes. -/
theorem State.qpEnable_starts {s : State} {q : Nat} (m : Nat) (hoff : (s.qp q).enable = false) (hatt : s.attached = true)
    (hjrn : s.jrn.ready = true) :
    (∃ l, (s.qpEnable q m).qp q = { s.qp q with
      enable := true, sqHead := 0, sqTail := 0, cqHead := 0, cqTail := 0, dbTail := 0, dbHead := 0, phase := true, queue := l }) ∧
    ∀ p, p ≠ q → (s.qpEnable q m).qp p = s.qp p := by
  simp only [State.qpEnable, hoff, hatt, hjrn, Bool.and_self, Bool.not_true, Bool.false_eq_true, if_false]
  split
  case isTrue =>
    obtain ⟨⟨l, hl⟩, hne⟩ := State.qp_enqueueAll q (fun t e => t.enqueue q e 0 0 []) (fun t e => ⟨e, 0, 0, [], rfl⟩)
      ((s.jrn.owed.filter fun o => o.1 == q).map fun o => abandonedEntry o.2) (s.modQp q fun x => { x with
        enable := true, sqHead := 0, sqTail := 0, cqHead := 0, cqTail := 0, dbTail := 0, dbHead := 0, phase := true })
    rw [State.qp_modQp_same] at hl
    exact ⟨⟨_, hl⟩, fun p hp => (hne p hp).trans (State.qp_modQp_ne _ _ hp)⟩
  case isFalse =>
    exact ⟨⟨_, by rw [State.modGroup_qp, State.modJrn_qp, State.qp_modQp_same]⟩,
      fun p hp => by rw [State.modGroup_qp, State.modJrn_qp, State.qp_modQp_ne _ _ hp]⟩

theorem exec_qpDisable_enabled {s : State} {q : Fin 64} (m : Master) (hon : (s.qp q.val).enable = true) :
    exec (.qpDisable q m) s = .next (if s.outstanding q.val ≠ 0 then s.reject (0x10000 + q.val * 0x100) m.val
      else s.modQp q.val fun x => { x with enable := false, err := false, errStatus := 0, window := [], heldDups := [] }) := by
  show Host.Outcome.next (s.qpDisable q.val m.val) = _
  simp [State.qpDisable, hon, qpOffset]

theorem exec_glbAttachGo_accepted {s : State} (h : ∀ p ∈ s.qps, p.2.enable = false) : exec (.glbAttachGo 0) s =
    .next (s.modGlb fun g => { g with attachBusy := true, goHqf := g.hqfOffer, goQxg := g.qxgOffer, done := false }) := by
  show Host.Outcome.next (s.attachGo 0) = _
  simp [State.attachGo, s.anyQp_eq_false_iff.mpr h]

theorem exec_glbAttachGo_dropped {s : State} {m : Master} (h : m ≠ 0 ∨ ∃ p ∈ s.qps, p.2.enable = true) :
    exec (.glbAttachGo m) s = .next (s.reject 0xD8 m.val) := by
  show Host.Outcome.next (s.attachGo m.val) = _
  have hdrop : (m.val != 0 || s.anyQp) = true := by
    obtain hm | hq := h
    · simp [Fin.val_ne_zero_iff.mpr hm]
    · simp [s.anyQp_iff.mpr hq]
  simp only [State.attachGo, hdrop, if_true]

/-- Settles O14: GO, the enable and the disable, each where it acts and where it is dropped. -/
theorem attachGoAndQueueEnable : Obligations.AttachGoAndQueueEnable := by
  refine ⟨?_, fun s m h => exec_glbAttachGo_dropped h, ?_, ?_, ?_, ?_⟩
  · rintro s m hoff rfl
    exact ⟨_, exec_glbAttachGo_accepted hoff, rfl⟩
  · intro s q m hoff hdone hst hjrn
    have hatt : s.attached = true := by simp [State.attached, hdone, hst, stOk]
    obtain ⟨⟨l, hq⟩, hne⟩ := State.qpEnable_starts m.val hoff hatt hjrn
    exact ⟨_, rfl, by simp [hq], by simp [hq], by simp [hq], by simp [hq], hne⟩
  · intro s q m hoff hno
    refine exec_qpEnable_dropped m hoff ?_
    obtain h | h | h := hno <;> simp [State.attached, stOk, h]
  · intro s q m hon hnone
    have hout := (s.outstanding_eq_zero_iff q.val).mpr hnone
    rw [exec_qpDisable_enabled m hon, if_neg (not_not.mpr hout)]
    exact ⟨_, rfl, by simp⟩
  · intro s q m c hon hc hq
    rw [exec_qpDisable_enabled m hon, if_pos]
    exact fun h => (s.outstanding_eq_zero_iff q.val).mp h c hc hq

/-! ### Doorbells (R65 to R67) -/

theorem State.mem_groupQps {s : State} {g q : Nat} : q ∈ s.groupQps g ↔ q / 8 = g ∧ (s.qp q).enable = true := by
  simp only [State.groupQps, List.mem_filter, List.mem_map, List.mem_range, and_congr_left_iff]
  exact fun _ => ⟨by rintro ⟨j, hj, rfl⟩; omega, fun h => ⟨q % 8, by omega, by omega⟩⟩

theorem State.groupQps_nodup (s : State) (g : Nat) : (s.groupQps g).Nodup :=
  (List.nodup_range.map fun a b h => by simpa using h).filter _

theorem exec_doorbellPoll_due {s : State} {g : Fin 8} {t q : Nat} (ht : s.now ≤ t) (hpolls : s.polls = true) (hq : q / 8 = g.val)
    (hon : (s.qp q).enable = true) (hfree : (s.group g.val).busy = false) (hdue : (s.group g.val).nextPoll ≤ t) :
    exec (.doorbellPoll g t) s = .next (((s.at_ t).modGroup g.val fun d => { d with busy := true }).emit
      (.busRead (s.group g.val).addr.val.toNat 64)) := by
  have hpolls' : (s.at_ t).polls = true := hpolls
  have hmem : q ∈ (s.at_ t).groupQps g.val := State.mem_groupQps.mpr ⟨hq, hon⟩
  have hne : (s.at_ t).groupQps g.val ≠ [] := List.ne_nil_of_mem hmem
  have hfree' : ((s.at_ t).group g.val).busy = false := hfree
  have hdue' : ((s.at_ t).group g.val).nextPoll ≤ t := hdue
  show execDoorbellPoll g t s = _
  simp only [execDoorbellPoll, hpolls', List.isEmpty_eq_false_iff.mpr hne, hfree', State.at_now, max_eq_right ht, decide_eq_true hdue',
    Bool.not_false, Bool.and_self, if_true]
  rfl

theorem exec_doorbellPoll_unused {s : State} {g : Fin 8} (t : Nat) (hoff : ∀ q, q / 8 = g.val → (s.qp q).enable = false) :
    exec (.doorbellPoll g t) s = .next (s.at_ t) := by
  have hnone : (s.at_ t).groupQps g.val = [] := List.eq_nil_iff_forall_not_mem.mpr fun q hq => by
    obtain ⟨hgrp, hon⟩ := State.mem_groupQps.mp hq
    exact Bool.false_ne_true ((hoff q hgrp).symm.trans hon)
  show execDoorbellPoll g t s = _
  simp [execDoorbellPoll, hnone]

/-- A queue pair that enters error stays as it was otherwise, but for a notice in its queue. -/
theorem State.qp_qpError_same {s : State} {q : Nat} (h : (s.qp q).err = false) :
    ∃ l, (s.qpError q).qp q = { s.qp q with err := true, errStatus := stBadDescriptor, queue := l } := by
  simp only [State.qpError, h, Bool.false_eq_true, if_false]
  split
  · obtain ⟨l, hl⟩ := State.qp_enqueue_same (s.modQp q fun x => { x with err := true, errStatus := stBadDescriptor }) q
      (noticeEntry stBadDescriptor q) 0 0 []
    exact ⟨_, hl.trans (by rw [State.qp_modQp_same])⟩
  · exact ⟨_, by rw [State.qp_modQp_same]⟩

theorem State.qp_qpError_ne (s : State) {q p : Nat} (h : p ≠ q) : (s.qpError q).qp p = s.qp p := by
  simp only [State.qpError]
  split
  · rfl
  split
  · rw [State.qp_enqueue_ne _ _ _ _ _ _ h, State.qp_modQp_ne _ _ h]
  · exact State.qp_modQp_ne _ _ h

/-- The line of a group changes no queue pair but the one whose fields are taken. -/
theorem State.qp_takeDoorbell_ne (s : State) {q p : Nat} (tail head : Nat) (h : p ≠ q) :
    (s.takeDoorbell q tail head).2.qp p = s.qp p := by
  simp only [State.takeDoorbell]
  repeat' split
  all_goals simp only [State.qp_modQp_ne _ _ h, State.qp_qpError_ne _ h]

/-- Fields inside both rings are taken. -/
theorem State.qp_takeDoorbell_inside {s : State} {q tail head : Nat} (herr : (s.qp q).err = false) (htail : tail < (s.qp q).sqSize)
    (hhead : head < (s.qp q).cqSize) :
    (s.takeDoorbell q tail head).2.qp q = { s.qp q with dbTail := tail, dbHead := head, sqTail := tail, cqHead := head } := by
  have hin : (decide ((s.qp q).sqSize ≤ tail) || decide ((s.qp q).cqSize ≤ head)) = false := by
    simp [htail, hhead]
  simp only [State.takeDoorbell, herr, hin, hhead, Bool.and_false, Bool.false_eq_true, if_false, State.qp_modQp_same, Bool.not_false,
    if_true]

/-- A tail outside its ring leaves its queue pair in error. -/
theorem State.qp_takeDoorbell_outside {s : State} {q tail : Nat} (head : Nat) (htail : (s.qp q).sqSize ≤ tail) :
    ((s.takeDoorbell q tail head).2.qp q).err = true := by
  have hstop : ∀ t : State, (t.qp q).err = true →
      ((if head < (s.qp q).cqSize then t.modQp q fun x => { x with cqHead := head } else t).qp q).err = true := by
    intro t ht
    split <;> simp [ht]
  cases herr : (s.qp q).err with
  | true =>
    simp only [State.takeDoorbell, herr, Bool.not_true, Bool.false_and, Bool.false_eq_true, if_false, State.qp_modQp_same]
    exact hstop _ (by simp [herr])
  | false =>
    obtain ⟨l, hl⟩ := State.qp_qpError_same (s := s.modQp q fun x => { x with dbTail := tail, dbHead := head }) (q := q) (by simp [herr])
    simp only [State.takeDoorbell, herr, htail, decide_true, Bool.true_or, Bool.not_false, Bool.and_self, if_true, hl, Bool.not_true,
      Bool.false_eq_true, if_false]
    exact hstop _ (by rw [hl])

/-- The fields of a line are taken for several queue pairs in turn; answers whether one changed. -/
def State.takeLine (l : Bytes) (qs : List Nat) (a : Bool × State) : Bool × State :=
  qs.foldl (fun a q =>
    let x := a.2.takeDoorbell q (fieldAt l (4 * (q % 8)) 2) (fieldAt l (0x20 + 4 * (q % 8)) 2)
    (a.1 || x.1, x.2)) a

/-- Each queue pair is taken from what it was before the line, and the others stay. -/
theorem State.qp_takeLine (l : Bytes) {qs : List Nat} (hnodup : qs.Nodup) (a : Bool × State) (q : Nat) :
    (q ∉ qs → (State.takeLine l qs a).2.qp q = a.2.qp q) ∧
    (q ∈ qs → ∃ t : State, t.qp q = a.2.qp q ∧
      (State.takeLine l qs a).2.qp q = (t.takeDoorbell q (fieldAt l (4 * (q % 8)) 2) (fieldAt l (0x20 + 4 * (q % 8)) 2)).2.qp q) := by
  induction qs generalizing a with
  | nil => exact ⟨fun _ => rfl, fun h => absurd h List.not_mem_nil⟩
  | cons p qs ih =>
    obtain ⟨hp, hqs⟩ := List.nodup_cons.mp hnodup
    rw [State.takeLine, List.foldl_cons, ← State.takeLine]
    obtain ⟨hout, hin⟩ := ih hqs (a.1 || (a.2.takeDoorbell p (fieldAt l (4 * (p % 8)) 2) (fieldAt l (0x20 + 4 * (p % 8)) 2)).1,
      (a.2.takeDoorbell p (fieldAt l (4 * (p % 8)) 2) (fieldAt l (0x20 + 4 * (p % 8)) 2)).2)
    by_cases hqp : q = p
    · subst hqp
      exact ⟨fun h => absurd List.mem_cons_self h, fun _ => ⟨a.2, rfl, hout hp⟩⟩
    · have hkeep := State.qp_takeDoorbell_ne a.2 (fieldAt l (4 * (p % 8)) 2) (fieldAt l (0x20 + 4 * (p % 8)) 2) hqp
      refine ⟨fun h => (hout fun hq => h (List.mem_cons_of_mem _ hq)).trans hkeep, fun h => ?_⟩
      obtain ⟨t, ht, hu⟩ := hin ((List.mem_cons.mp h).resolve_left hqp)
      exact ⟨t, ht.trans hkeep, hu⟩

theorem exec_doorbellReadComplete_line {s : State} {g : Fin 8} (l : Bytes) (t : Nat) (hbusy : (s.group g.val).busy = true) :
    exec (.doorbellReadComplete g (some l) t) s = .next (
      let r := State.takeLine l (s.groupQps g.val) (false, s.at_ t)
      r.2.modGroup g.val fun d =>
        let i := if r.1 then 250 else min 50000 (2 * d.interval)
        { d with busy := false, interval := i, nextPoll := r.2.now + i }) := by
  have hbusy' : ((s.at_ t).group g.val).busy = true := hbusy
  show execDoorbellReadComplete g (some l) t s = _
  simp only [execDoorbellReadComplete, hbusy', Bool.not_true, Bool.false_eq_true, if_false]
  rfl

/-- Settles O15: when the line is read, and what its fields do to an enabled and to a disabled queue pair. -/
theorem doorbellLinesArePolledAndTaken : Obligations.DoorbellLinesArePolledAndTaken := by
  refine ⟨fun s g t q ht hd0 hsh hrdy hq hon hfree hdue => ?_, fun s g t hoff => exec_doorbellPoll_unused t hoff, fun s g l t hbusy => ?_⟩
  · have hpolls : s.polls = true := by simp [State.polls, hd0, hsh, hrdy]
    exact ⟨_, exec_doorbellPoll_due ht hpolls hq hon hfree hdue, by simp [State.group], rfl⟩
  · refine ⟨_, exec_doorbellReadComplete_line l t hbusy, by simp, fun q hq hoff => ?_, fun q hq hon herr htail hhead => ?_,
      fun q hq hon htail => ?_⟩
    · obtain ⟨hout, -⟩ := State.qp_takeLine l (s.groupQps_nodup g.val) (false, s.at_ t) q
      exact hout fun hmem => Bool.false_ne_true (hoff.symm.trans (State.mem_groupQps.mp hmem).2)
    all_goals
      obtain ⟨-, hin⟩ := State.qp_takeLine l (s.groupQps_nodup g.val) (false, s.at_ t) q
      obtain ⟨v, hv, hu⟩ := hin (State.mem_groupQps.mpr ⟨hq, hon⟩)
      rw [State.at_qp] at hv
      rw [State.modGroup_qp, hu]
    · rw [State.qp_takeDoorbell_inside (by rw [hv, herr]) (by rwa [hv]) (by rwa [hv])]
      exact ⟨rfl, rfl, by rw [hv, herr]⟩
    · exact State.qp_takeDoorbell_outside _ (by rwa [hv])

end Sys2Proof.Machine
end

section
/-! Proofs about chapter 03 (host queues): acceptance, the journal, and the completion of a command. First the layer on journal accesses
and on what a command that completes orders; then the statements. -/

namespace Sys2Proof.Machine

/-! ### Accepting entries (R84, R91, R92) -/

@[simp] theorem State.polls_at (s : State) (t : Nat) : (s.at_ t).polls = s.polls := rfl
@[simp] theorem State.polls_env (s : State) (e : BusEnv) : (s.env e).polls = s.polls := rfl
@[simp] theorem State.mayAccept_at (s : State) (t : Nat) : (s.at_ t).mayAccept = s.mayAccept := rfl
@[simp] theorem State.mayAccept_env (s : State) (e : BusEnv) : (s.env e).mayAccept = s.mayAccept := rfl
@[simp] theorem State.at_env_bus (s : State) (e : BusEnv) (t : Nat) : ((s.at_ t).env e).mem.bus = (s.env e).mem.bus := rfl
@[simp] theorem State.env_qp (s : State) (e : BusEnv) (q : Nat) : (s.env e).qp q = s.qp q := rfl

/-- The entry at the head of a submission ring, read after what other agents have stored. -/
def State.headEntry (s : State) (q : Nat) (e : BusEnv) : SubEntry :=
  parseEntry (readBytes (s.env e).mem.bus ((s.qp q).sqBase.val.toNat + 128 * (s.qp q).sqHead) 128)

/-- The slot behind the head of a submission ring. -/
def Qp.headNext (x : Qp) : Nat := (x.sqHead + 1) % x.sqSize

/-- The state in which the entry at the head of a ring is judged: its slot has been passed. -/
def State.pastHead (s : State) (q : Nat) (e : BusEnv) (t : Nat) : State :=
  ((s.at_ t).env e).modQp q fun x => { x with sqHead := (s.qp q).headNext }

section
variable {s : State} {q : Fin 64} {e : BusEnv} (t : Nat) (hopen : RingOpen s q.val)
  (hread : envFails e ((s.qp q.val).sqBase.val.toNat + 128 * (s.qp q.val).sqHead) 128 = false)
include hopen hread

/-- An entry with a new id at the head of an open ring is accepted. -/
theorem exec_submissionEntryArrive_new
    (hnew : (s.qp q.val).window.find? (fun w => w.id == (s.headEntry q.val e).id) = none) :
    exec (.submissionEntryArrive q e t) s =
      .next ((s.pastHead q.val e t).accept q.val (s.headEntry q.val e) (s.qp q.val).headNext) := by
  obtain ⟨hon, herr, hne, hmay, hpolls⟩ := hopen
  rw [State.headEntry] at hnew
  show execSubmissionEntryArrive q e t s = _
  simp only [execSubmissionEntryArrive, State.env_qp, State.at_qp, State.mayAccept_env, State.mayAccept_at, State.polls_env,
    State.polls_at, hon, herr, bne_iff_ne.mpr hne, hmay, hpolls, Bool.not_false, Bool.and_self, Bool.not_true, Bool.false_eq_true,
    if_false, State.busRead, hread, State.at_env_bus, hnew]
  rfl

/-- An entry whose id is in the window is a duplicate. -/
theorem exec_submissionEntryArrive_known {w : WindowId}
    (hold : (s.qp q.val).window.find? (fun w => w.id == (s.headEntry q.val e).id) = some w) :
    exec (.submissionEntryArrive q e t) s =
      .next ((s.pastHead q.val e t).duplicate q.val (s.headEntry q.val e) (s.qp q.val).headNext w) := by
  obtain ⟨hon, herr, hne, hmay, hpolls⟩ := hopen
  rw [State.headEntry] at hold
  show execSubmissionEntryArrive q e t s = _
  simp only [execSubmissionEntryArrive, State.env_qp, State.at_qp, State.mayAccept_env, State.mayAccept_at, State.polls_env,
    State.polls_at, hon, herr, bne_iff_ne.mpr hne, hmay, hpolls, Bool.not_false, Bool.and_self, Bool.not_true, Bool.false_eq_true,
    if_false, State.busRead, hread, State.at_env_bus, hold]
  rfl

end

/-- A duplicate is counted, and takes no sequence number. -/
theorem State.duplicate_counts (s : State) (q : Nat) (e : SubEntry) (head : Nat) (w : WindowId) :
    let u := s.duplicate q e head w
    u.cmds = s.cmds ∧ u.jrn = s.jrn ∧ (u.qp q).sqHead = (s.qp q).sqHead ∧ (u.qp q).dupCount = sat32 (s.qp q).dupCount 1 := by
  simp only [State.duplicate]
  split
  case h_1 o _ =>
    obtain ⟨l, hl⟩ := State.qp_enqueue_same (s.modQp q fun x => { x with dupCount := sat32 x.dupCount 1 }) q (dupEntry e.id head e.noIrq o) 0 0 []
    simp [hl]
  case h_2 => simp

/-- Where a journal access goes: a record, its STATE and FINAL_STATUS, or the control line. -/
def Journal.place (j : Journal) : JKind → Nat
  | .accept seq => j.recAddr seq
  | .update seq _ => j.recAddr seq + 0x1A
  | .control => j.actBase
  | .walk => j.actBase

/-- A module that shadows no primary issues a journal access to its place, behind the others. -/
theorem State.jIssue_of_not_shadows {s : State} (k : JKind) (h : s.shadows = false) : s.jIssue k =
    s.modJrn fun j => { j with accesses := j.accesses ++ [{ kind := k, addr := s.jrn.place k, waitUs := 0, until_ := none }] } := by
  cases k <;> simp [State.jIssue, h, Journal.place]

/-- What a new entry leaves behind, whether or not it is sent to the secondary first. -/
theorem State.accept_eq {s : State} (q : Nat) (e : SubEntry) (head : Nat) (h : s.shadows = false) : ∃ (t : State) (n : Nat),
    s.accept q e head = { (t.modQp q fun x => { x with window := ({ id := e.id, outcome := none } :: x.window).take 65536 }) with
      cmds := s.cmds ++ [{ qp := q, seq := s.jrn.tail, entry := e, sqHead := head, pos := 0, phase := .accepting, count := 0
                           target := none, accSeq := n }] } ∧
    t.qps = s.qps ∧ t.jrn = { s.jrn with tail := s.jrn.tail + 1, accesses := s.jrn.accesses ++
      [{ kind := .accept s.jrn.tail, addr := s.jrn.recAddr s.jrn.tail, waitUs := 0, until_ := none }] } := by
  have hsh : (s.modJrn fun j => { j with tail := j.tail + 1 }).shadows = false := h
  rw [State.accept, State.jIssue_of_not_shadows _ hsh]
  dsimp only
  split
  · exact ⟨_, _, by rw [State.pairSend_cmds]; rfl, by simp, by rw [State.pairSend_jrn]; rfl⟩
  · exact ⟨_, _, rfl, rfl, rfl⟩

/-- A new entry becomes a command that is being accepted, with the next sequence number and its record issued; its id joins the window. -/
theorem State.accept_issues {s : State} (q : Nat) (e : SubEntry) (head : Nat) (h : s.shadows = false) :
    let u := s.accept q e head
    (∃ n, u.cmds = s.cmds ++ [{ qp := q, seq := s.jrn.tail, entry := e, sqHead := head, pos := 0, phase := .accepting, count := 0
                                target := none, accSeq := n }]) ∧
    u.jrn.tail = s.jrn.tail + 1 ∧ (u.qp q).sqHead = (s.qp q).sqHead ∧ (∃ w ∈ (u.qp q).window, w.id = e.id) ∧
    u.jrn.accesses = s.jrn.accesses ++ [{ kind := .accept s.jrn.tail, addr := s.jrn.recAddr s.jrn.tail, waitUs := 0, until_ := none }] := by
  obtain ⟨t, n, hu, hqps, hjrn⟩ := State.accept_eq q e head h
  rw [hu]
  refine ⟨⟨n, rfl⟩, by simp [hjrn], ?_, ?_, by simp [hjrn]⟩
  all_goals simp [State.qp, hqps]

/-- Settles O16: a new id takes the next journal record, a known one is a duplicate. -/
theorem entriesAcceptedInRingOrder : Obligations.EntriesAcceptedInRingOrder := by
  intro s q e t hopen a en head hread
  refine ⟨fun hnew => ?_, fun w hw hid => ?_⟩
  · have hexec := exec_submissionEntryArrive_new t hopen hread (List.find?_eq_none.mpr fun w hw => mt beq_iff_eq.mp (hnew w hw))
    obtain ⟨-, -, -, -, hpolls⟩ := hopen
    have hsh : (s.pastHead q.val e t).shadows = false := by
      simp only [State.polls, Bool.and_eq_true, Bool.not_eq_true'] at hpolls
      exact hpolls.1.2
    obtain ⟨hcmds, htail, hhead, hwin, hacc⟩ := State.accept_issues q.val en head hsh
    exact ⟨_, hexec, hcmds, htail, hhead.trans (by simp [State.pastHead]; rfl), hwin, hacc⟩
  · obtain ⟨w', hw'⟩ : ∃ w', (s.qp q.val).window.find? (fun w => w.id == en.id) = some w' :=
      Option.isSome_iff_exists.mp (List.find?_isSome.mpr ⟨w, hw, beq_iff_eq.mpr hid⟩)
    obtain ⟨hcmds, hjrn, hhead, hdup⟩ := State.duplicate_counts (s.pastHead q.val e t) q.val en head w'
    exact ⟨_, exec_submissionEntryArrive_known t hopen hread hw', hcmds, hjrn, hhead.trans (by simp [State.pastHead]; rfl),
      hdup.trans (by simp [State.pastHead])⟩

/-! ### Writing to the bus, and journal accesses (R456, R540) -/

theorem State.busWrite_of_mayOutput {s : State} (h : s.mayOutput = true) (a : Nat) (bs : Bytes) : s.busWrite a bs = s.rawWrite a bs :=
  if_pos h

theorem State.writeEnds_of_writeOpen {s : State} (h : s.writeOpen = true) : s.writeEnds = true := by
  simp only [State.writeOpen, Bool.and_eq_true] at h
  exact h.1

/-- While writes are open no HANDOVER waits. -/
theorem State.handing_of_writeOpen {s : State} (h : s.writeOpen = true) : s.pair.handing = false := by
  simp only [State.writeOpen, Bool.and_eq_true, Bool.not_eq_true'] at h
  exact h.2

theorem State.handedOver_of_not_handing {s : State} (h : s.pair.handing = false) : s.handedOver = s := by
  simp [State.handedOver, h]

theorem nextWait_ne_zero (w : Nat) : nextWait w ≠ 0 := by
  simp only [nextWait, beq_iff_eq]
  split_ifs <;> omega

theorem Journal.mem_of_access {j : Journal} {k : JKind} {a : JAccess} (h : j.access k = some a) : a ∈ j.accesses ∧ a.kind = k := by
  have hk := List.find?_some h
  simp only [Bool.and_eq_true, decide_eq_true_eq] at hk
  exact ⟨List.mem_of_find?_eq_some h, hk.1⟩

/-- Removing the accesses of a kind leaves none. -/
theorem Journal.access_updAccess_none (j : Journal) (k : JKind) : (j.updAccess k fun _ => none).access k = none := by
  simp only [Journal.access, Journal.updAccess, List.find?_eq_none, List.mem_filterMap]
  rintro x ⟨y, -, hy⟩
  split at hy
  · cases hy
  · cases hy
    simp [*]

/-- A failed access waits, so that the journal stalls. -/
theorem Journal.stalled_of_fail {j : Journal} {k : JKind} {a : JAccess} (h : j.access k = some a) (now : Nat) :
    (j.updAccess k fun a => some (a.fail now)).stalled = true := by
  obtain ⟨hmem, hk⟩ := Journal.mem_of_access h
  simp only [Journal.stalled, Journal.updAccess, List.any_eq_true, List.mem_filterMap]
  exact ⟨a.fail now, ⟨a, hmem, if_pos hk⟩, bne_iff_ne.mpr (nextWait_ne_zero _)⟩

/-! ### The acceptance record (R84, R540) -/

section
variable {s : State} {seq : Nat} {c : Cmd} {a : JAccess} (t : Nat) (hcmd : s.cmd seq = some c)
  (hacc : s.jrn.access (.accept seq) = some a) (hack : s.pairAcked c.accSeq = true)
include hcmd hacc hack

theorem exec_acceptanceRecordComplete_written (hopen : (s.at_ t).writeOpen = true) (hout : (s.at_ t).mayOutput = true)
    (herr : s.err.state ≠ 2) (hwait : ∀ x ∈ s.jrn.accesses, x.until_ = none) (hfirst : ∀ x ∈ s.cmds, x.phase = .accepting → seq ≤ x.seq) :
    exec (.acceptanceRecordComplete seq true t) s = .next ((((s.at_ t).modJrn fun j => j.updAccess (.accept seq) fun _ => none).rawWrite a.addr
      (jrnRecord c.entry.id seq (s.at_ t).pos c.qp c.entry.opcode 1 0)).modCmd seq fun x => { x with pos := (s.at_ t).pos, phase := .accepted }) := by
  have hcmd' : (s.at_ t).cmd seq = some c := hcmd
  have hack' : (s.at_ t).pairAcked c.accSeq = true := hack
  have hends := State.writeEnds_of_writeOpen hopen
  have hnowait : (s.jrn.accesses.any fun a => a.until_.isSome) = false := by
    simpa using hwait
  have hnofirst : (s.cmds.any fun x => decide (x.phase = .accepting) && decide (x.seq < seq)) = false := by
    simpa using hfirst
  have hout' : ((s.at_ t).modJrn fun j => j.updAccess (.accept seq) fun _ => none).mayOutput = true := hout
  show execAcceptanceRecordComplete seq true t s = _
  simp only [execAcceptanceRecordComplete, hcmd', State.at_jrn, hacc, hack', hends, hnowait, State.at_cmds, hnofirst, State.at_err,
    beq_eq_false_iff_ne.mpr herr, Bool.not_true, Bool.or_self, Bool.false_eq_true, if_false, State.busWrite_of_mayOutput hout']
  rw [State.handedOver_of_not_handing]
  exact State.handing_of_writeOpen hopen

theorem exec_acceptanceRecordComplete_failed (hends : (s.at_ t).writeEnds = true) :
    exec (.acceptanceRecordComplete seq false t) s =
      .next ((s.at_ t).modJrn fun j => j.updAccess (.accept seq) fun a => some (a.fail (s.at_ t).now)) := by
  have hcmd' : (s.at_ t).cmd seq = some c := hcmd
  have hack' : (s.at_ t).pairAcked c.accSeq = true := hack
  show execAcceptanceRecordComplete seq false t s = _
  simp only [execAcceptanceRecordComplete, hcmd', State.at_jrn, hacc, hack', hends, Bool.not_true, Bool.or_self, Bool.false_eq_true,
    if_false, Bool.not_false, if_true]

end

/-- Settles O17: the record that is written, the write that fails, and the accesses issued again. -/
theorem acceptanceWaitsForItsRecord : Obligations.AcceptanceWaitsForItsRecord := by
  refine ⟨fun s seq t c a hcmd hacc hack hopen hout herr hwait hfirst => ?_, fun s seq t c a hcmd hacc hack hends => ?_, fun s t => ?_, rfl,
    fun k hk => ?_, rfl⟩
  · refine ⟨_, exec_acceptanceRecordComplete_written t hcmd hacc hack hopen hout herr hwait hfirst, ?_, rfl,
      Journal.access_updAccess_none s.jrn (.accept seq)⟩
    rw [State.cmd_modCmd_same]
    · exact ⟨_, congrArg (Option.map _) hcmd, rfl, rfl⟩
    · exact fun _ => rfl
  · exact ⟨_, exec_acceptanceRecordComplete_failed t hcmd hacc hack hends, rfl, Journal.stalled_of_fail hacc _, rfl⟩
  · refine ⟨_, rfl, List.length_map _, fun a ha x hx => ?_⟩
    obtain ⟨b, -, rfl⟩ := List.mem_map.mp ha
    split at hx
    case isTrue => cases hx
    case isFalse hlate => simpa [hx] using hlate
  · have hlt : ¬ 1024 ≤ 2 ^ k := Nat.not_le.mpr (Nat.pow_lt_pow_right (n := 10) (by decide) hk)
    have hpos : 2 ^ k ≠ 0 := by positivity
    simp only [nextWait, beq_iff_eq, hpos, if_false, hlt, pow_succ, mul_comm]

/-! ### What the end of waiting commands changes (R94, R97) -/

/-- Settling decides a CANCEL that is being executed, or does nothing. -/
theorem State.settleOne_cases (s : State) (c : Cmd) : s.settleOne c = s ∨
    (c.phase = .executing ∧ s.settleOne c = s.finish c.seq stOk (2 ^ 63 + c.count % 2 ^ 32)) := by
  simp only [State.settleOne]
  split
  case isFalse => exact .inl rfl
  case isTrue hexec =>
    split
    case isFalse => exact .inl rfl
    case isTrue =>
      split
      case h_2 => exact .inl rfl
      case h_1 =>
        split
        · exact .inr ⟨of_decide_eq_true hexec, rfl⟩
        · exact .inl rfl

/-- Settling leaves a part of the state that deciding a command leaves. -/
theorem State.settle_keeps {α : Type} (part : State → α) (hfin : ∀ (t : State) seq st r, part (t.finish seq st r) = part t) (s : State) :
    part s.settle = part s := by
  refine List.foldlRecOn (motive := fun t => part t = part s) _ _ rfl fun t ht c _ => ?_
  obtain h | ⟨-, h⟩ := t.settleOne_cases c
  · rw [h, ht]
  · rw [h, hfin, ht]

@[simp] theorem State.settle_jrn (s : State) : s.settle.jrn = s.jrn := State.settle_keeps State.jrn (fun _ _ _ _ => rfl) s
@[simp] theorem State.settle_work (s : State) : s.settle.work = s.work := State.settle_keeps State.work (fun _ _ _ _ => rfl) s
@[simp] theorem State.settle_qps (s : State) : s.settle.qps = s.qps := State.settle_keeps State.qps (fun _ _ _ _ => rfl) s
@[simp] theorem State.settle_qp (s : State) (q : Nat) : s.settle.qp q = s.qp q := State.qp_of_qps s.settle_qps q

/-- Deciding a command leaves the sequence numbers of all. -/
theorem State.finish_seqs (s : State) (seq st r : Nat) : (s.finish seq st r).cmds.map Cmd.seq = s.cmds.map Cmd.seq := by
  simp only [State.finish, State.modCmd, List.map_map]
  refine List.map_congr_left fun c _ => ?_
  simp only [Function.comp]
  split <;> rfl

@[simp] theorem State.settle_seqs (s : State) : s.settle.cmds.map Cmd.seq = s.cmds.map Cmd.seq :=
  State.settle_keeps (fun t => t.cmds.map Cmd.seq) State.finish_seqs s

/-! ### Completing a command (R85) -/

/-- The entries of the duplicates that have waited for their original. -/
def State.answerDups (s : State) (c : Cmd) (st r : Nat) : State :=
  ((s.qp c.qp).heldDups.filter fun d => d.1 == c.entry.id).foldl
    (fun t d => t.enqueue c.qp (dupEntry d.1 d.2.1 d.2.2 (st, r)) 0 0 []) s

theorem State.answerDups_keeps {α : Type} (part : State → α)
    (hkeep : ∀ (t : State) q e jseq jfinal flows, part (t.enqueue q e jseq jfinal flows) = part t) (s : State) (c : Cmd) (st r : Nat) :
    part (s.answerDups c st r) = part s :=
  List.foldlRecOn (motive := fun t => part t = part s) _ _ rfl fun t ht _ _ => (hkeep t _ _ _ _ _).trans ht

/-- The state of a host's command that completes: its update issued, its entry queued, before its duplicates are answered. -/
def State.entryQueued (s : State) (c : Cmd) (st r : Nat) : State :=
  (({ s with cmds := s.cmds.filter fun x => x.seq != c.seq } : State).jIssue (.update c.seq st)).enqueue c.qp (cmdEntry c st r) c.seq st []

theorem State.complete_host {s : State} {c : Cmd} (st r : Nat) (hseq : c.seq < 2 ^ 64) (hsh : s.shadows = false) :
    s.complete c st r = (((s.entryQueued c st r).answerDups c st r).modQp c.qp fun x => { x with
      heldDups := x.heldDups.filter fun d => d.1 != c.entry.id
      window := x.window.map fun w => if w.id == c.entry.id && w.outcome.isNone then { w with outcome := some (st, r) } else w }).settle := by
  have hset : ¬ setupSeq ≤ c.seq := Nat.not_le.mpr hseq
  simp only [State.complete, hset, if_false, hsh, Bool.false_eq_true]
  rfl

/-- A command that completes is gone; its update is issued, and its entry waits behind the update. -/
theorem State.complete_orders {s : State} {c : Cmd} {st r : Nat} (hseq : c.seq < 2 ^ 64) (hsh : s.shadows = false)
    (hnew : s.pair.early.contains (c.qp, c.entry.id, 0, r) = false) :
    let u := s.complete c st r
    (∀ x ∈ u.cmds, x.seq ≠ c.seq) ∧
    (∃ a ∈ u.jrn.accesses, a.kind = .update c.seq st ∧ a.addr = s.jrn.recAddr c.seq + 0x1A) ∧
    ∃ e ∈ (u.qp c.qp).queue, e.cmdId = c.entry.id ∧ e.status = st ∧ e.result = r ∧ e.gate = some c.seq := by
  have hsh' : ({ s with cmds := s.cmds.filter fun x => x.seq != c.seq } : State).shadows = false := hsh
  rw [State.complete_host st r hseq hsh]
  refine ⟨fun x hx => ?_, ?_, ?_⟩
  · have hmem : x.seq ∈ (s.cmds.filter fun x => x.seq != c.seq).map Cmd.seq := by
      have hx' := List.mem_map_of_mem (f := Cmd.seq) hx
      rw [State.settle_seqs, State.modQp_cmds, State.answerDups_keeps State.cmds State.enqueue_cmds, State.entryQueued,
        State.enqueue_cmds, State.jIssue_of_not_shadows _ hsh'] at hx'
      exact hx'
    obtain ⟨y, hy, hyx⟩ := List.mem_map.mp hmem
    rw [← hyx]
    simpa using (List.mem_filter.mp hy).2
  · rw [State.settle_jrn, State.modQp_jrn, State.answerDups_keeps State.jrn State.enqueue_jrn, State.entryQueued, State.enqueue_jrn,
      State.jIssue_of_not_shadows _ hsh']
    exact ⟨_, List.mem_append_right _ List.mem_cons_self, rfl, rfl⟩
  · obtain ⟨⟨l, hl⟩, -⟩ := State.qp_enqueueAll c.qp (fun t (d : Nat × Nat × Bool) => t.enqueue c.qp (dupEntry d.1 d.2.1 d.2.2 (st, r)) 0 0 [])
      (fun t d => ⟨_, _, _, _, rfl⟩) (((s.entryQueued c st r).qp c.qp).heldDups.filter fun d => d.1 == c.entry.id) (s.entryQueued c st r)
    have hearly : (({ s with cmds := s.cmds.filter fun x => x.seq != c.seq } : State).jIssue (.update c.seq st)).pair.early.contains
        (c.qp, (cmdEntry c st r).cmdId, (cmdEntry c st r).kind, (cmdEntry c st r).result) = false := by
      rw [State.jIssue_of_not_shadows _ hsh']; exact hnew
    obtain ⟨a, n, hmem⟩ := State.mem_queue_enqueue hearly c.seq st []
    refine ⟨{ cmdEntry c st r with ann := a, annNum := n }, ?_, rfl, rfl, rfl, rfl⟩
    rw [State.settle_qp, State.qp_modQp_same, State.answerDups, hl]
    exact List.mem_append_left _ hmem

/-! ### Records and entries (R85) -/

/-- A finished command that waits for no other completes. -/
theorem exec_commandComplete_finished {s : State} {seq st r : Nat} {c : Cmd} (t : Nat) (hcmd : s.cmd seq = some c)
    (hphase : c.phase = .finished st r) (hafter : s.completesAfter c = false) :
    exec (.commandComplete seq t) s = .next ((s.at_ t).complete c st r) := by
  have hcmd' : (s.at_ t).cmd seq = some c := hcmd
  have hafter' : (s.at_ t).completesAfter c = false := hafter
  have hbegun : (s.at_ t).beginUnknown seq = s.at_ t := by
    simp [State.beginUnknown, hcmd', State.mayBegin, hphase]
  show execCommandComplete seq t s = _
  simp only [execCommandComplete, hbegun, hcmd', hphase, hafter', Bool.false_eq_true, if_false]

/-- An entry that waits for its record is not written. -/
theorem State.entryReady_of_gate {s : State} {q n : Nat} {e : CEntry} (h : e.gate = some n) : s.entryReady q e = false := by
  simp [State.entryReady, h]

/-- The oldest entry is left alone while it may not be written. -/
theorem exec_completionEntryWrite_waits {s : State} {q : Fin 64} {t : Nat} {e : CEntry} {es : List CEntry}
    (hqueue : (s.qp q.val).queue = e :: es) (hkind : (e.kind == 2 && !s.hqf11) = false) (hwait : (s.at_ t).entryReady q.val e = false) :
    exec (.completionEntryWrite q t) s = .next (s.at_ t) := by
  have hkind' : (e.kind == 2 && !(s.at_ t).hqf11) = false := hkind
  show execCompletionEntryWrite q t s = _
  simp only [execCompletionEntryWrite, State.at_qp, hqueue, hkind', hwait, Bool.false_eq_true, if_false, Bool.not_false, if_true]

theorem tget_map {α : Type} {d : α} {f : α → α} (hf : f d = d) (t : Tab α) (k : Nat) :
    tget d (t.map fun p => (p.1, f p.2)) k = f (tget d t k) := by
  induction t with
  | nil => exact hf.symm
  | cons p r ih =>
    obtain ⟨j, w⟩ := p
    by_cases h : k = j <;> simp [tget, h, ih]

/-- An entry waits no longer for record `n`. -/
def CEntry.ungate (n : Nat) (e : CEntry) : CEntry := if e.gate == some n then { e with gate := none } else e

/-- No entry of a queue pair waits for record `n` any longer. -/
def Qp.ungate (n : Nat) (x : Qp) : Qp := { x with queue := x.queue.map (CEntry.ungate n) }

theorem Qp.gate_ungate {n : Nat} {x : Qp} {e : CEntry} (h : e ∈ (x.ungate n).queue) : e.gate ≠ some n := by
  obtain ⟨y, -, rfl⟩ := List.mem_map.mp h
  simp only [CEntry.ungate]
  split
  case isTrue => exact (Option.some_ne_none n).symm
  case isFalse hgate => exact fun heq => hgate (beq_iff_eq.mpr heq)

@[simp] theorem State.recordCompleted_qps (s : State) (n : Nat) : (s.recordCompleted n).qps = s.qps := by
  simp only [State.recordCompleted, State.jIssue]
  repeat' split
  all_goals rfl
@[simp] theorem State.recordCompleted_out (s : State) (n : Nat) : (s.recordCompleted n).out = s.out := by
  simp only [State.recordCompleted, State.jIssue]
  repeat' split
  all_goals rfl
@[simp] theorem State.recordCompleted_pair (s : State) (n : Nat) : (s.recordCompleted n).pair = s.pair := by
  simp only [State.recordCompleted, State.jIssue]
  repeat' split
  all_goals rfl

/-- The update of a record that completes is on the bus, and no entry waits for it. -/
theorem exec_journalUpdateComplete_record {s : State} {seq f a : Nat} (t : Nat)
    (hacc : s.jrn.accesses = [{ kind := .update seq f, addr := a, waitUs := 0, until_ := none }]) (hopen : (s.at_ t).writeOpen = true)
    (hout : (s.at_ t).mayOutput = true) (hack : ∀ p ∈ s.qps, ∀ e ∈ p.2.queue, s.pairAcked e.ann = true) :
    exec (.journalUpdateComplete (some seq) true t) s = .next (
      ({ ((s.at_ t).modJrn fun j => j.updAccess (.update seq f) fun _ => none).rawWrite a (leBytes 1 2 ++ leBytes 1 f) with
        qps := s.qps.map fun p => (p.1, p.2.ungate seq) } : State).recordCompleted seq) := by
  have hends := State.writeEnds_of_writeOpen hopen
  have hacked : (s.qps.any fun p => p.2.queue.any fun e => e.gate == some seq && !(s.at_ t).pairAcked e.ann) = false := by
    refine List.any_eq_false.mpr fun p hp => ?_
    rw [Bool.not_eq_true, List.any_eq_false]
    intro e he
    have hacked : (s.at_ t).pairAcked e.ann = true := hack p hp e he
    simp [hacked]
  have hout' : ((s.at_ t).modJrn fun j => j.updAccess (.update seq f) fun _ => none).mayOutput = true := hout
  show execJournalUpdateComplete (some seq) true t s = _
  simp only [execJournalUpdateComplete, State.at_jrn, hacc, List.find?_cons, Option.isNone_none, beq_self_eq_true, Bool.and_self, hends,
    Bool.not_true, Bool.false_eq_true, if_false, State.at_qps, hacked, State.busWrite_of_mayOutput hout']
  rw [State.handedOver_of_not_handing]
  · rfl
  · rw [State.recordCompleted_pair]
    exact State.handing_of_writeOpen hopen

/-- Settles O18: the update is issued before the entry is queued, holds it back, and frees it. -/
theorem recordUpdatedBeforeCompletionEntry : Obligations.RecordUpdatedBeforeCompletionEntry := by
  refine ⟨fun s seq t st r c hcmd hphase hafter hseq hsh hnew => ?_, fun s q t n e es hqueue hgate hkind => ?_,
    fun s seq t f a hacc hopen hout hack => ?_⟩
  · obtain rfl := State.seq_of_cmd hcmd
    obtain ⟨hgone, hupd, hentry⟩ := State.complete_orders (s := s.at_ t) hseq hsh hnew
    exact ⟨_, exec_commandComplete_finished t hcmd hphase hafter, hgone, hupd, hentry⟩
  · exact exec_completionEntryWrite_waits hqueue (by simp [hkind]) (State.entryReady_of_gate hgate)
  · refine ⟨_, exec_journalUpdateComplete_record t hacc hopen hout hack, ?_, fun q e he => ?_⟩
    · rw [State.recordCompleted_out]
      exact List.mem_cons_self
    · rw [State.qp, State.recordCompleted_qps, tget_map rfl] at he
      exact Qp.gate_ungate he

/-! ### GO of the journal (R86, R89, R539) -/

theorem State.shadows_of_roleNow {s : State} (h : s.pair.roleNow ≠ 2) : s.shadows = false := by
  simp [State.shadows, h]

/-- What GO leaves of the journal, before the walk is issued. -/
def Journal.adopt (j : Journal) : Journal :=
  { j with actBase := j.base.val.toNat, actLog2 := clampLog 10 20 j.sizeLog2, ready := false, walking := true, scanInvalid := false
           accesses := j.accesses.filter fun a => !(decide (a.kind = .walk) || decide (a.kind = .control)), completed := [], retire := j.tail }

theorem State.journalGo_of_roleNow {s : State} (h : s.pair.roleNow ≠ 2) : s.journalGo = (s.modJrn Journal.adopt).jIssue .walk := by
  rw [State.journalGo, if_neg (by simp [h])]
  rfl

/-- A word write of a register of the journal. -/
theorem exec_registerWrite_jrn (m : Master) {r v : Nat} (s : State) (hv : v < 2 ^ 32) (hr : r < 0x2C000) (ha : r % 4 = 0) :
    exec (.registerWrite m (0x14000 + r) v 4) s = .next (s.jrnWrite m.val (0x14000 + r) r v) := by
  have hb : blockAt (0x14000 + r) = some (.jrn, r) := by
    simp (disch := omega) only [blockAt, if_neg, if_pos]
    simp
  rw [exec_registerWrite_word m v (by omega) (by simp only [bar4Base]; omega) (State.blockOf_of_blockAt hb rfl), w32_of_lt hv]
  rfl

/-- While a queue pair is enabled a changed size is dropped, and GO acts all the same. -/
theorem State.jrnWrite_size_dropped {s : State} {v : Nat} (m off : Nat) (hany : s.anyQp = true) (hsize : v % 32 ≠ s.jrn.sizeLog2) :
    s.jrnWrite m off 0x008 v = if bitOf v 31 then (s.reject off m).journalGo else s.reject off m := by
  simp [State.jrnWrite, State.idleWrite, hany, hsize]

/-! ### The walk and the control line (R86, R89) -/

/-- Without SCAN no record is walked: the control line is written and the sequence starts at 1. -/
theorem exec_journalWalkComplete_unscanned {s : State} {a : JAccess} (t : Nat) (hacc : s.jrn.access .walk = some a)
    (hopen : (s.at_ t).writeOpen = true) (hack : s.pairAcked a.ann = true) (hscan : s.jrn.scan = false) :
    ∃ u, exec (.journalWalkComplete ⟨[], [], []⟩ t) s = .next u ∧ u.jrn = { (s.jrn.updAccess .walk fun _ => none) with
      walking := false, ready := true, scanInvalid := false, tail := 1, retire := 1, sinceCtl := 0, ctlAt := (s.at_ t).now } := by
  have hopen' : ((s.at_ t).env ⟨[], [], []⟩).writeOpen = true := hopen
  have hack' : ((s.at_ t).env ⟨[], [], []⟩).pairAcked a.ann = true := hack
  have hfree : ∀ a n, envFails ⟨[], [], []⟩ a n = false := fun _ _ => rfl
  show ∃ u, execJournalWalkComplete ⟨[], [], []⟩ t s = .next u ∧ _
  simp only [execJournalWalkComplete, State.env_jrn, State.at_jrn, hacc, hopen', hack', hfree, hscan, Bool.not_true, Bool.not_false,
    Bool.or_self, Bool.false_eq_true, if_false, if_true, List.isEmpty_nil, Bool.and_false, List.foldl_nil, List.map_nil,
    List.append_nil, ite_self]
  refine ⟨_, rfl, ?_⟩
  rw [State.modJrn_jrn]
  split <;> simp [Journal.updAccess, hscan]

theorem exec_journalControlLineTimer_due {s : State} {t : Nat} (hsince : s.jrn.sinceCtl ≠ 0) (hdue : s.jrn.ctlAt + 1000000 ≤ t)
    (hnone : ∀ a ∈ s.jrn.accesses, a.kind ≠ .control) :
    exec (.journalControlLineTimer t) s = .next ((s.at_ t).jIssue .control) := by
  have hdue' : s.jrn.ctlAt + 1000000 ≤ max s.now t := le_max_of_le_right hdue
  have hnone' : (s.jrn.accesses.any fun a => decide (a.kind = .control)) = false := by simpa using hnone
  show execJournalControlLineTimer t s = _
  simp [execJournalControlLineTimer, hsince, hdue', hnone']

/-- Settles O21: GO, a size changed too late, the walk without SCAN, a full journal, and the control line. -/
theorem journalAdoptedWalkedAndRewritten : Obligations.JournalAdoptedWalkedAndRewritten := by
  refine ⟨fun s m t hrole => ?_, fun s v hany hv hsize => ?_, fun s t a hacc hopen hack hscan => ?_, fun s t hsince hdue hsh hnone => ?_,
    fun s _ hfull => ?_⟩
  · have hgo := State.journalGo_of_roleNow (s := s.at_ t) hrole
    rw [State.jIssue_of_not_shadows (s := (s.at_ t).modJrn Journal.adopt) _ (State.shadows_of_roleNow hrole)] at hgo
    exact ⟨_, congrArg Host.Outcome.next hgo, rfl, rfl, rfl, rfl, ⟨_, rfl, fun a ha => (List.mem_filter.mp ha).1⟩, rfl⟩
  · have hany' := s.anyQp_iff.mpr hany
    have hoff : bitOf v 31 = false := by simp [bitOf]; omega
    have hgo : bitOf (v + 2 ^ 31) 31 = true := by simp [bitOf]; omega
    rw [exec_registerWrite_jrn 0 (r := 0x008) s (by omega) (by decide) rfl, State.jrnWrite_size_dropped _ _ hany' hsize, hoff,
      exec_registerWrite_jrn 0 (r := 0x008) s (by omega) (by decide) rfl, State.jrnWrite_size_dropped _ _ hany' (by omega), hgo]
    exact ⟨rfl, rfl⟩
  · obtain ⟨u, hexec, hjrn⟩ := exec_journalWalkComplete_unscanned t hacc hopen hack hscan
    rw [hexec]
    simp [hjrn, Journal.updAccess]
  · refine ⟨_, exec_journalControlLineTimer_due hsince hdue hnone, ?_⟩
    rw [State.jIssue_of_not_shadows .control (s := s.at_ t) hsh]
    rfl
  · have hroom : ¬ s.jrn.tail - s.jrn.retire < 2 ^ s.jrn.actLog2 := by omega
    simp [State.mayAccept, hroom]

end Sys2Proof.Machine
end

section
/-! Proofs about chapter 03 (host queues): completion entries and their interrupts. First what a message and a signal leave; then how an
entry goes to its ring, and the moderation timer. -/

namespace Sys2Proof.Machine

/-! ### What a message and a signal leave (R98, R99, R100, R447) -/

@[simp] theorem State.carried_qps (s : State) (base n : Nat) : (s.carried base n).qps = s.qps := rfl
@[simp] theorem State.carried_qp (s : State) (base n q : Nat) : (s.carried base n).qp q = s.qp q := rfl
@[simp] theorem State.rawWrite_qp (s : State) (a : Nat) (bs : Bytes) (q : Nat) : (s.rawWrite a bs).qp q = s.qp q := rfl
@[simp] theorem State.carried_out (s : State) (base n : Nat) : (s.carried base n).out = s.out := rfl

/-- An MSI-X message adds at most itself to what is sent. -/
theorem State.sendMsix_out (s : State) (v : Nat) : (s.sendMsix v).out = s.out ∨ (s.sendMsix v).out = .msix v :: s.out := by
  simp only [State.sendMsix]
  repeat' split
  · exact .inl rfl
  · exact .inl rfl
  · exact .inr rfl

theorem State.sendPme_out (s : State) : s.sendPme.out = s.out ∨ s.sendPme.out = .pme :: s.out := by
  simp only [State.sendPme]
  split
  · exact .inr rfl
  · exact .inl rfl

theorem State.mem_out_irqCondition {s : State} {o : Out} (q : Nat) (h : o ∈ s.out) : o ∈ (s.irqCondition q).out := by
  simp only [State.irqCondition]
  split
  · obtain heq | heq := State.sendMsix_out (s.modQp q fun x => { x with unsig := 0, timer := none, irqHeld := false }) (s.qp q).vector
    · rw [heq]; exact h
    · rw [heq]; exact List.mem_cons_of_mem _ h
  · obtain heq | heq := State.sendPme_out (s.modQp q fun x => { x with irqHeld := true, timer := none })
    · rw [heq]; exact h
    · rw [heq]; exact List.mem_cons_of_mem _ h

theorem State.mem_out_signal {s : State} {o : Out} (q : Nat) (h : o ∈ s.out) : o ∈ (s.signal q).out := by
  simp only [State.signal]
  split
  · exact State.mem_out_irqCondition q h
  · exact h

theorem State.mem_out_pairSend {s : State} {o : Out} (ty : Nat) (b : Bytes) (h : o ∈ s.out) : o ∈ (s.pairSend ty b).out := by
  simp only [State.pairSend]
  split
  · exact h
  split
  · exact h
  · exact List.mem_cons_of_mem _ h

theorem State.mem_out_sendDone {s : State} {o : Out} (n : Nat) (h : o ∈ s.out) : o ∈ (s.sendDone n).out := by
  simp only [State.sendDone]
  split
  · exact State.mem_out_pairSend _ _ h
  · exact h

/-- An interrupt condition of a queue pair touches its count, its timer and the held condition alone. -/
theorem State.qp_irqCondition_same (s : State) (q : Nat) : ∃ n t b, (s.irqCondition q).qp q = { s.qp q with unsig := n, timer := t, irqHeld := b } := by
  simp only [State.irqCondition]
  split
  · exact ⟨0, none, false, by simp [State.qp]⟩
  · exact ⟨_, none, true, by simp [State.qp]; rfl⟩

theorem State.qp_signal_same (s : State) (q : Nat) : ∃ n t b, (s.signal q).qp q = { s.qp q with unsig := n, timer := t, irqHeld := b } := by
  simp only [State.signal]
  split
  · obtain ⟨n, t, b, h⟩ := State.qp_irqCondition_same (s.modQp q fun x => { x with
      unsig := x.unsig + 1
      timer := if x.unsig == 0 && x.modTime != 0 then some (s.now + x.modTime * 100) else x.timer }) q
    exact ⟨n, t, b, h.trans (by rw [State.qp_modQp_same])⟩
  · exact ⟨_, _, _, by rw [State.qp_modQp_same]⟩

@[simp] theorem State.sendDone_qps (s : State) (n : Nat) : (s.sendDone n).qps = s.qps := by
  simp only [State.sendDone]
  split <;> simp

/-! ### Writing a completion entry (R66, R68, R79, R98) -/

/-- The state in which an entry has been written to its ring, before it signals. -/
def State.entryWritten (s : State) (q : Nat) (e : CEntry) (es : List CEntry) : State :=
  let x := s.qp q
  let at_ := e.slot.getD (x.cqTail, x.phase)
  let tail := if e.slot.isSome then x.cqTail else (x.cqTail + 1) % x.cqSize
  (((s.rawWrite (x.cqBase.val.toNat + 32 * at_.1) (e.bytes s.pos (s.shownHead q) at_.2)).carried 60 32).modQp q fun x => { x with
    queue := es, cqTail := tail, phase := if e.slot.isNone && tail == 0 then !x.phase else x.phase }).modGroup (q / 8) fun d =>
      { d with interval := 250, nextPoll := min d.nextPoll (s.now + 250) }

section
variable {s : State} {q : Nat} {e : CEntry} (es : List CEntry)

/-- A new entry takes the slot at the tail; the phase bit inverts where the tail wraps. -/
theorem State.entryWritten_next (hslot : e.slot = none) :
    (s.entryWritten q e es).qp q = { s.qp q with
      queue := es, cqTail := ((s.qp q).cqTail + 1) % (s.qp q).cqSize
      phase := if ((s.qp q).cqTail + 1) % (s.qp q).cqSize = 0 then !(s.qp q).phase else (s.qp q).phase } ∧
    (s.entryWritten q e es).out =
      .busWrite ((s.qp q).cqBase.val.toNat + 32 * (s.qp q).cqTail) (e.bytes s.pos (s.shownHead q) (s.qp q).phase) :: s.out := by
  simp [State.entryWritten, hslot]

/-- An entry that a takeover writes again takes its own slot and moves no tail. -/
theorem State.entryWritten_again {n : Nat} {ph : Bool} (hslot : e.slot = some (n, ph)) :
    (s.entryWritten q e es).qp q = { s.qp q with queue := es } ∧
    (s.entryWritten q e es).out = .busWrite ((s.qp q).cqBase.val.toNat + 32 * n) (e.bytes s.pos (s.shownHead q) ph) :: s.out := by
  simp [State.entryWritten, hslot]

end

/-- What follows the write of an entry: the signal, unless it carries NO_IRQ, and DONE. -/
def State.entrySignalled (s : State) (q : Nat) (e : CEntry) : State := (if e.noIrq then s else s.signal q).sendDone e.annNum

theorem State.mem_out_entrySignalled {s : State} {o : Out} (q : Nat) (e : CEntry) (h : o ∈ s.out) : o ∈ (s.entrySignalled q e).out := by
  refine State.mem_out_sendDone _ ?_
  split
  · exact h
  · exact State.mem_out_signal q h

theorem State.qp_entrySignalled (s : State) (q : Nat) (e : CEntry) :
    ∃ n t b, (s.entrySignalled q e).qp q = { s.qp q with unsig := n, timer := t, irqHeld := b } := by
  rw [State.entrySignalled, State.qp_of_qps (State.sendDone_qps _ _)]
  split
  · exact ⟨_, _, _, rfl⟩
  · exact s.qp_signal_same q

@[simp] theorem State.headed_slot (s : State) (q : Nat) (e : CEntry) : (s.headed q e).slot = e.slot := by
  simp only [State.headed]
  repeat' split
  all_goals rfl

@[simp] theorem State.headed_kind (s : State) (q : Nat) (e : CEntry) : (s.headed q e).kind = e.kind := by
  simp only [State.headed]
  repeat' split
  all_goals rfl

/-- An entry that a takeover writes again keeps its head. -/
theorem State.headed_of_slot {s : State} {q : Nat} {e : CEntry} (h : e.slot.isNone = false) : s.headed q e = e := by
  simp only [State.headed, h, Bool.false_and, Bool.false_eq_true, if_false]
  split <;> rfl

@[simp] theorem CEntry.final_slot (e : CEntry) (pos : Nat) : (e.final pos).slot = e.slot := by
  simp only [CEntry.final]
  split <;> rfl

@[simp] theorem CEntry.final_kind (e : CEntry) (pos : Nat) : (e.final pos).kind = e.kind := by
  simp only [CEntry.final]
  split <;> rfl

theorem CEntry.final_status (e : CEntry) (pos : Nat) :
    (e.final pos).status = if e.status = 0 ∧ (∃ d, e.due = some d ∧ d < pos) then 0x03 else e.status := by
  have hcond : (e.status == stOk && e.due.any fun d => decide (d < pos)) = true ↔ e.status = 0 ∧ ∃ d, e.due = some d ∧ d < pos := by
    simp [stOk, Option.any_eq_true]
  simp only [CEntry.final, ← hcond]
  split <;> rfl

@[simp] theorem leBytes_length (n v : Nat) : (leBytes n v).length = n := by
  induction n generalizing v with
  | zero => rfl
  | succ n ih => simp [leBytes, ih]

/-- The phase bit is the last of the 32 bytes of an entry. -/
theorem CEntry.bytes_last (e : CEntry) (pos head : Nat) (ph : Bool) :
    (e.bytes pos head ph).length = 32 ∧ (e.bytes pos head ph)[31]? = some (if ph then 1 else 0) := by
  refine ⟨by simp [CEntry.bytes], ?_⟩
  rw [CEntry.bytes, List.getElem?_append_right (by simp)]
  cases ph <;> simp [leBytes, b2n]

/-- The oldest entry that may be written goes to its ring; a batch record is left out here. -/
theorem exec_completionEntryWrite_ready {s : State} {q : Fin 64} {t : Nat} {e : CEntry} {es : List CEntry}
    (hqueue : (s.qp q.val).queue = e :: es) (hkind : e.kind ≠ 1) (hnotice : (e.kind == 2 && !s.hqf11) = false)
    (hready : (s.at_ t).entryReady q.val e = true) (hout : (s.at_ t).mayOutput = true) :
    exec (.completionEntryWrite q t) s = .next (
      let f := (s.at_ t).headed q.val (e.final (s.at_ t).pos)
      ((s.at_ t).entryWritten q.val f es).entrySignalled q.val f) := by
  have hnotice' : (e.kind == 2 && !(s.at_ t).hqf11) = false := hnotice
  show execCompletionEntryWrite q t s = _
  simp only [execCompletionEntryWrite, State.at_qp, hqueue, hnotice', hready, Bool.not_true, Bool.false_eq_true, if_false,
    State.busWrite_of_mayOutput hout, State.headed_kind, CEntry.final_kind, beq_eq_false_iff_ne.mpr hkind]
  rfl

/-- An entry with no slot of its own waits while the ring is full. -/
theorem State.entryReady_of_full {s : State} {q : Nat} {e : CEntry} (hslot : e.slot = none)
    (hfull : ((s.qp q).cqTail + 1) % (s.qp q).cqSize = (s.qp q).cqHead) : s.entryReady q e = false := by
  simp [State.entryReady, hslot, hfull]

theorem exec_completionEntryWrite_empty {s : State} {q : Fin 64} (t : Nat) (hqueue : (s.qp q.val).queue = []) :
    exec (.completionEntryWrite q t) s = .next (s.at_ t) := by
  show execCompletionEntryWrite q t s = _
  simp only [execCompletionEntryWrite, State.at_qp, hqueue]

/-- A notice that waits while HQF 1.0 is agreed is discarded. -/
theorem exec_completionEntryWrite_notice {s : State} {q : Fin 64} (t : Nat) {e : CEntry} {es : List CEntry}
    (hqueue : (s.qp q.val).queue = e :: es) (hkind : e.kind = 2) (hold : s.hqf11 = false) :
    exec (.completionEntryWrite q t) s = .next ((s.at_ t).modQp q.val fun x => { x with queue := es }) := by
  have hold' : (s.at_ t).hqf11 = false := hold
  show execCompletionEntryWrite q t s = _
  simp only [execCompletionEntryWrite, State.at_qp, hqueue, hkind, hold', beq_self_eq_true, Bool.not_false, Bool.and_self, if_true]

/-- A full ring takes no entry that has no slot of its own. -/
theorem exec_completionEntryWrite_full {s : State} {q : Fin 64} {t : Nat}
    (hfull : ((s.qp q.val).cqTail + 1) % (s.qp q.val).cqSize = (s.qp q.val).cqHead) (hslots : ∀ e ∈ (s.qp q.val).queue, e.slot = none)
    (hnotice : s.hqf11 = true ∨ ∀ e ∈ (s.qp q.val).queue, e.kind ≠ 2) : exec (.completionEntryWrite q t) s = .next (s.at_ t) := by
  cases hqueue : (s.qp q.val).queue with
  | nil => exact exec_completionEntryWrite_empty t hqueue
  | cons e es =>
    have hmem : e ∈ (s.qp q.val).queue := hqueue ▸ List.mem_cons_self
    refine exec_completionEntryWrite_waits hqueue ?_ (State.entryReady_of_full (s := s.at_ t) (hslots e hmem) hfull)
    obtain h | h := hnotice
    · simp [h]
    · simp [h e hmem]

/-- Settles O19: the entry that is written to the next slot or to its own, the full ring, the notice, and the bytes of an entry. -/
theorem completionEntriesGoToTheRing : Obligations.CompletionEntriesGoToTheRing := by
  refine ⟨fun s q t e es hqueue hkind hready hout hnotice => ?_, fun s q t hfull hslots hnotice => exec_completionEntryWrite_full hfull hslots hnotice,
    fun s q t e es hqueue hkind hold => exec_completionEntryWrite_notice t hqueue hkind hold, CEntry.bytes_last, CEntry.final_status⟩
  have hnotice' : (e.kind == 2 && !s.hqf11) = false := by
    by_cases h : e.kind = 2 <;> simp [h, hnotice]
  generalize hf : (s.at_ t).headed q.val (e.final (s.at_ t).pos) = f
  have hexec := exec_completionEntryWrite_ready hqueue hkind hnotice' hready hout
  have hfslot : f.slot = e.slot := by rw [← hf, State.headed_slot, CEntry.final_slot]
  rw [hf] at hexec
  obtain ⟨n, tm, b, hqp⟩ := State.qp_entrySignalled ((s.at_ t).entryWritten q.val f es) q.val f
  cases hslot : e.slot with
  | none =>
    obtain ⟨hx, ho⟩ := State.entryWritten_next (s := s.at_ t) (q := q.val) es (hfslot.trans hslot)
    refine ⟨_, hexec, by rw [hqp, hx], fun _ => ⟨State.mem_out_entrySignalled _ _ ?_, by rw [hqp, hx]; rfl, by rw [hqp, hx]; rfl⟩, nofun⟩
    rw [ho, ← hf]
    exact List.mem_cons_self
  | some np =>
    obtain ⟨k, ph⟩ := np
    obtain ⟨hx, ho⟩ := State.entryWritten_again (s := s.at_ t) (q := q.val) es (hfslot.trans hslot)
    refine ⟨_, hexec, by rw [hqp, hx], nofun, fun n' ph' heq => ?_⟩
    cases heq
    refine ⟨State.mem_out_entrySignalled _ _ ?_, by rw [hqp, hx]; rfl, by rw [hqp, hx]; rfl⟩
    rw [ho, ← hf, State.headed_of_slot (by simp [hslot])]
    exact List.mem_cons_self

/-! ### The moderation timer (R98, R100, R101, R422) -/

theorem exec_moderationTimerExpire_due {s : State} {q : Fin 64} {t x : Nat} (htimer : (s.qp q.val).timer = some x)
    (hdue : x ≤ max s.now t) (hunsig : (s.qp q.val).unsig ≠ 0) :
    exec (.moderationTimerExpire q t) s = .next ((s.at_ t).irqCondition q.val) := by
  refine congrArg Host.Outcome.next (if_pos ?_)
  rw [State.at_qp, htimer, Option.any_some, State.at_now, Bool.and_eq_true, decide_eq_true_iff, bne_iff_ne]
  exact ⟨hdue, hunsig⟩

theorem State.sendMsix_open {s : State} {v : Nat} (hout : s.mayOutput = true) (hopen : s.msixOpen v = true) :
    s.sendMsix v = s.emit (.msix v) := by
  simp only [State.msixOpen, Bool.and_eq_true, Bool.not_eq_true'] at hopen
  obtain ⟨⟨hen, hhold⟩, hmask⟩ := hopen
  simp [State.sendMsix, hout, hen, hhold, hmask]

theorem State.sendMsix_masked {s : State} {v : Nat} (hout : s.mayOutput = true) (hshut : s.msixOpen v = false) :
    s.sendMsix v = s.modPci fun p => { p with msixPend := tset false v true p.msixPend } := by
  have hmask : (!s.pci.msixEn || s.pci.msixHold || tget true s.pci.msixMask v) = true := by
    rw [State.msixOpen] at hshut
    revert hshut
    cases s.pci.msixEn <;> cases s.pci.msixHold <;> simp
  simp [State.sendMsix, hout, hmask]

/-- In D0 the condition sends its message, or leaves it pending, and the count starts anew. -/
theorem State.irqCondition_d0 {s : State} (q : Nat) (h : s.pci.dstate = .d0) : s.irqCondition q =
    (s.modQp q fun x => { x with unsig := 0, timer := none, irqHeld := false }).sendMsix (s.qp q).vector := by
  simp [State.irqCondition, State.inD0, h]

/-- Outside D0 the condition is held. -/
theorem State.irqCondition_held {s : State} (q : Nat) (h : s.pci.dstate ≠ .d0) : s.irqCondition q =
    (s.modQp q fun x => { x with irqHeld := true, timer := none }).sendPme := by
  simp [State.irqCondition, State.inD0, h]

/-- Settles O20: the expired timer raises the interrupt condition, whose message is sent, pending or held. -/
theorem moderationTimerRaisesOrHolds : Obligations.ModerationTimerRaisesOrHolds := by
  intro s q t x htimer hdue hunsig
  have hexec := exec_moderationTimerExpire_due htimer hdue hunsig
  refine ⟨fun hd0 hout hopen => ?_, fun hd0 hout hshut => ?_, fun hd => ?_⟩
  · rw [State.irqCondition_d0 (s := s.at_ t) q.val hd0, State.sendMsix_open (by exact hout) (by exact hopen)] at hexec
    exact ⟨_, hexec, rfl, by simp, by simp⟩
  · rw [State.irqCondition_d0 (s := s.at_ t) q.val hd0, State.sendMsix_masked (by exact hout) (by exact hshut)] at hexec
    exact ⟨_, hexec, rfl, by simp⟩
  · rw [State.irqCondition_held (s := s.at_ t) q.val hd] at hexec
    refine ⟨_, hexec, by simp [State.qp], by simp [State.qp], fun v hv => ?_⟩
    obtain h | h := State.sendPme_out ((s.at_ t).modQp q.val fun x => { x with irqHeld := true, timer := none })
    · rwa [h] at hv
    · rw [h] at hv
      exact (List.mem_cons.mp hv).resolve_left nofun

end Sys2Proof.Machine
end

section
/-! Proofs about chapter 03 (host queues): the command table. -/
namespace Sys2Proof.Machine

/-! ### Commands that wait (R70, R72) -/

/-- A command that may not begin does nothing, whatever its opcode. -/
theorem State.begin_of_waits {s : State} {seq : Nat} {c : Cmd} (hcmd : s.cmd seq = some c) (hwait : s.mayBegin c = false) (op : Nat)
    (f : Cmd → State → State) : s.begin seq op f = s := by
  simp [State.begin, hcmd, hwait]

/-- A command waits for an earlier one of its queue pair where it is ordered, and as a setup command for an earlier setup command. -/
theorem State.mayBegin_of_waits {s : State} {c d : Cmd} (hmem : d ∈ s.cmds) (hlt : d.seq < c.seq)
    (hwhy : (c.entry.ordered = true ∧ d.qp = c.qp) ∨
      (setupOp c.entry.opcode = true ∧ setupOp d.entry.opcode = true ∧ d.done = false)) : s.mayBegin c = false := by
  obtain ⟨hord, hqp⟩ | ⟨hc, hd, hdone⟩ := hwhy
  · have hany : (s.cmds.any fun x => x.qp == c.qp && decide (x.seq < c.seq)) = true :=
      List.any_eq_true.mpr ⟨d, hmem, by simp [hqp, hlt]⟩
    simp [State.mayBegin, hord, hany]
  · have hany : (s.cmds.any fun x => setupOp x.entry.opcode && decide (x.seq < c.seq) && !x.done) = true :=
      List.any_eq_true.mpr ⟨d, hmem, by simp [hd, hlt, hdone]⟩
    simp [State.mayBegin, hc, hany]

theorem setupOp_of_range {o : Nat} (hlo : 1 ≤ o) (hhi : o ≤ 6) : setupOp o = true := by
  simp [setupOp, opAttach, opClose, hlo, hhi]

theorem Cmd.done_eq_false_iff (c : Cmd) : c.done = false ↔ ∀ st r, c.phase ≠ .finished st r := by
  cases h : c.phase <;> simp [Cmd.done, h]

/-- Nothing that other agents do leaves the state as it is. -/
@[simp] theorem State.env_nil (s : State) : s.env ⟨[], [], []⟩ = s := rfl

/-- Settles O22: a command that waits does nothing. -/
theorem commandsWaitTheirTurn : Obligations.CommandsWaitTheirTurn := by
  intro s seq c d hcmd hmem hlt hseq hwhy
  have hwait : s.mayBegin c = false := by
    refine State.mayBegin_of_waits hmem (hseq ▸ hlt) (hwhy.imp_right fun ⟨hclo, hchi, hdlo, hdhi, hdone⟩ => ?_)
    exact ⟨setupOp_of_range hclo hchi, setupOp_of_range hdlo hdhi, d.done_eq_false_iff.mpr hdone⟩
  have hbegin := State.begin_of_waits hcmd hwait
  have hnext : ∀ op f, (Host.Outcome.next (s.begin seq op f) : Host.Outcome State Fault Refusal) = .next s :=
    fun op f => congrArg _ (hbegin op f)
  refine ⟨hnext _ _, hnext _ _, hnext _ _, hnext _ _, hnext _ _, hnext _ _, ?_, fun x => hnext _ _, fun v sage toks decls => hnext _ _, fun src => ?_,
    ?_, fun t => ?_⟩
  · show execFence seq s = _
    simp [execFence, hcmd, hbegin]
  · show execOpenStream seq ⟨[], [], []⟩ src s = _
    simp [execOpenStream, hbegin]
  · show execQuery seq ⟨[], [], []⟩ s = _
    simp [execQuery, hbegin]
  · have hbegin' : ∀ op f, (s.at_ t).begin seq op f = s.at_ t := State.begin_of_waits (s := s.at_ t) hcmd hwait
    show execWarmRestart seq t s = _
    simp only [execWarmRestart, hbegin']
    split <;> rfl

/-! ### UNLOAD_GRAPH and DETACH_TABLE (R59, R73) -/

theorem State.graphBusy_eq_false_iff (s : State) : s.graphBusy = false ↔ AllClosed s := by
  simp [State.graphBusy, AllClosed]

theorem exec_unloadGraph_begins {s : State} {seq : Nat} {c : Cmd} {g : Graph} (hbeg : Begins s seq 4 c) (hg : s.work.graph = some g) :
    exec (.unloadGraph seq) s = .next (if s.graphBusy then (Begun s seq).finish seq stBusy 0
      else ((Begun s seq).dropGraph.floorCheck).finish seq stOk g.id) := by
  have hg' : (Begun s seq).work.graph = some g := hg
  show Host.Outcome.next (s.begin seq opUnload _) = _
  rw [State.begin_of_begins (op := opUnload) hbeg]
  simp only [hg']
  rfl

theorem exec_detachTable_begins {s : State} {seq : Nat} {c : Cmd} (hbeg : Begins s seq 2 c)
    (hatt : ∃ x, (c.entry.p 0, x) ∈ s.work.tables) :
    exec (.detachTable seq) s = .next (if s.tableRead (c.entry.p 0) then (Begun s seq).finish seq stBusy 0
      else ((Begun s seq).modWork fun w => { w with tables := w.tables.filter fun p => p.1 != c.entry.p 0 }).finish seq stOk 0) := by
  obtain ⟨x, hx⟩ := hatt
  have hany : ((Begun s seq).work.tables.any fun p => p.1 == c.entry.p 0) = true :=
    List.any_eq_true.mpr ⟨_, hx, beq_self_eq_true _⟩
  show Host.Outcome.next (s.begin seq opDetach _) = _
  rw [State.begin_of_begins (op := opDetach) hbeg]
  simp only [hany, Bool.not_true, Bool.false_eq_true, if_false]
  rfl

/-- Removing the entries of a key leaves every other key alone. -/
theorem tget_filter_bne {α : Type} (d : α) {k i : Nat} (t : Tab α) (h : i ≠ k) : tget d (t.filter fun p => p.1 != k) i = tget d t i := by
  have hbne : (fun p : Nat × α => p.1 != k) = fun p => decide (p.1 ≠ k) := by
    funext p
    rw [Bool.eq_iff_iff, bne_iff_ne, decide_eq_true_iff]
  rw [hbne, tget_filter_ne d t h]

/-- Settles O23: the graph goes unless a stream is open, the table unless a stream reads it. -/
theorem unloadAndDetach : Obligations.UnloadAndDetach := by
  refine ⟨fun s seq c g hbeg hg => ?_, fun s seq c hbeg => ?_⟩
  · have hexec := exec_unloadGraph_begins hbeg hg
    have hcmd := cmd_begun_isSome hbeg
    refine ⟨fun hclosed => ?_, fun hopen => ?_⟩
    · rw [s.graphBusy_eq_false_iff.mpr hclosed, if_neg Bool.false_ne_true] at hexec
      refine ⟨_, hexec, ?_, decided_finish _ _ ?_, ?_⟩
      · exact congrArg Work.graph (State.floorCheck_work _)
      · rwa [State.cmd_of_cmds (State.floorCheck_cmds _)]
      · exact (congrArg Work.tables (State.floorCheck_work (Begun s seq).dropGraph)).trans rfl
    · rw [eq_true_of_ne_false (mt s.graphBusy_eq_false_iff.mp hopen)] at hexec
      exact ⟨_, hexec, rfl, decided_finish _ _ hcmd⟩
  · have hcmd := cmd_begun_isSome hbeg
    refine ⟨fun hatt hread => ?_, fun hatt hread => ?_⟩
    · have hexec := exec_detachTable_begins hbeg hatt
      rw [hread, if_neg Bool.false_ne_true] at hexec
      refine ⟨_, hexec, decided_finish _ _ hcmd, fun x hx => ?_, fun i hi => ?_⟩
      · exact absurd rfl (bne_iff_ne.mp (List.mem_filter.mp hx).2)
      · exact tget_filter_bne {} s.work.tables hi
    · have hexec := exec_detachTable_begins hbeg hatt
      rw [hread] at hexec
      exact ⟨_, hexec, decided_finish _ _ hcmd, rfl⟩

/-! ### RUN and SET_EPOCH (R73, R74, R282) -/

theorem State.stream_modStream_ne (s : State) {n m : Nat} (f : Stream → Stream) (h : m ≠ n) : (s.modStream n f).stream m = s.stream m := by
  simp [State.stream, State.modStream, tget_tmod_ne _ _ _ h]

theorem State.stream_of_streams {s t : State} (h : t.work.streams = s.work.streams) (n : Nat) : t.stream n = s.stream n := by
  rw [State.stream, State.stream, h]

@[simp] theorem State.finish_stream (s : State) (seq st r n : Nat) : (s.finish seq st r).stream n = s.stream n := rfl

/-- A stream that nothing stops has no stop to end at. -/
theorem State.endStop_of_none {s : State} {n : Nat} (h : (s.stream n).stop = none) : s.endStop n = s := by
  simp [State.endStop, h]

theorem exec_run_open {s : State} {seq : Nat} {c : Cmd} (hbeg : Begins s seq 8 c) (hopen : (s.stream c.entry.stream).phase = .open_)
    (hstop : (s.stream c.entry.stream).stop = none) :
    exec (.run seq) s = .next ((Begun s seq).modStream c.entry.stream fun st => { st with
      runLimit := st.runLimit + c.entry.p 0
      runs := st.runs ++ [{ seq := seq, last := st.runLimit + c.entry.p 0, count := 0, cancelled := false }] }) := by
  have hopen' : ((Begun s seq).stream c.entry.stream).phase = .open_ := hopen
  show Host.Outcome.next (s.begin seq opRun _) = _
  rw [State.begin_of_begins (op := opRun) hbeg]
  simp only [hopen', bne_self_eq_false, Bool.false_eq_true, if_false]
  rw [State.endStop_of_none]
  rw [State.stream_modStream]
  exact hstop

theorem exec_run_closed {s : State} {seq : Nat} {c : Cmd} (hbeg : Begins s seq 8 c) (hno : (s.stream c.entry.stream).phase ≠ .open_) :
    exec (.run seq) s = .next ((Begun s seq).finish seq stBadDescriptor 0) := by
  have hno' : ((Begun s seq).stream c.entry.stream).phase ≠ .open_ := hno
  show Host.Outcome.next (s.begin seq opRun _) = _
  rw [State.begin_of_begins (op := opRun) hbeg]
  simp only [bne_iff_ne.mpr hno', if_true]

theorem ite_keeps {α : Type} (part : State → α) {p : Prop} [Decidable p] {t u : State} {x : α} (ht : part t = x) (hu : part u = x) :
    part (if p then t else u) = x := by
  split <;> assumption

/-- Counting stalls changes the intake lanes alone. -/
theorem State.noteAllStalls_keeps {α : Type} (part : State → α) (hlane : ∀ (t : State) i f, part (t.modLane i f) = part t) (s : State) :
    part s.noteAllStalls = part s := by
  refine List.foldlRecOn (motive := fun t => part t = part s) _ _ rfl fun t ht i _ => ?_
  simp only [State.noteStalls]
  split
  · exact ht
  · exact (hlane t _ _).trans ht

/-- What SET_EPOCH drops is input of the stream's batches: in a part of the state that intake lanes do not hold, only batches change. -/
theorem State.dropShuffled_batches {α : Type} (part : State → α) (hlane : ∀ (t : State) i f, part (t.modLane i f) = part t) (s : State) (n lo : Nat)
    (hi : Option Nat) : ∃ w : Batch → Batch, part (s.dropShuffled n lo hi) =
      part (s.noteAllStalls.modStream n fun st => { st with batches := st.batches.map w }) := by
  rw [State.dropShuffled]
  refine ⟨_, List.foldlRecOn (motive := fun t => part t = part (s.noteAllStalls.modStream n fun st => { st with batches := st.batches.map _ })) _ _
    rfl fun t ht i _ => ?_⟩
  exact ite_keeps part ht ((hlane t _ _).trans ht)

theorem State.dropShuffled_keeps {α : Type} (part : State → α) (hlane : ∀ (t : State) i f, part (t.modLane i f) = part t) (s : State) (n lo : Nat)
    (hi : Option Nat) (hbatch : ∀ (t : State) (g : List Batch → List Batch), part (t.modStream n fun st => { st with batches := g st.batches }) = part t) :
    part (s.dropShuffled n lo hi) = part s := by
  obtain ⟨w, hw⟩ := State.dropShuffled_batches part hlane s n lo hi
  rw [hw]
  exact (hbatch s.noteAllStalls (List.map w)).trans (State.noteAllStalls_keeps part hlane s)

theorem exec_setEpoch_begins {s : State} {seq : Nat} {c : Cmd} (hbeg : Begins s seq 7 c) : ∃ hi,
    exec (.setEpoch seq) s = .next (
      if (s.stream c.entry.stream).phase ≠ .open_ then (Begun s seq).finish seq stBadDescriptor 0
      else if c.entry.p 1 < (s.stream c.entry.stream).firstUnbegun then (Begun s seq).finish seq stLimit 0
      else ((((Begun s seq).modStream c.entry.stream fun st => { st with
        marks := setMark (c.entry.p 1) (c.entry.p 0) st.marks }).dropShuffled c.entry.stream (c.entry.p 1) hi).finish seq stOk 0)) := by
  refine ⟨(((s.stream c.entry.stream).marks.filter fun m => decide (c.entry.p 1 < m.1)).head?).map fun m => m.1, ?_⟩
  show Host.Outcome.next (s.begin seq opEpoch _) = _
  rw [State.begin_of_begins (op := opEpoch) hbeg]
  simp only [bne_iff_ne]
  rfl

theorem mem_setMark (f e : Nat) (l : List (Nat × Nat)) : (f, e) ∈ setMark f e l ∧ ∀ m ∈ l, m.1 ≠ f → m ∈ setMark f e l := by
  induction l with
  | nil => exact ⟨List.mem_cons_self, nofun⟩
  | cons x l ih =>
    obtain ⟨hnew, hold⟩ := ih
    rw [setMark]
    split_ifs with hlt heq
    · exact ⟨List.mem_cons_self, fun m hm _ => List.mem_cons_of_mem _ hm⟩
    · refine ⟨List.mem_cons_self, fun m hm hne => List.mem_cons_of_mem _ ((List.mem_cons.mp hm).resolve_left ?_)⟩
      rintro rfl
      exact hne heq.symm
    · refine ⟨List.mem_cons_of_mem _ hnew, fun m hm hne => ?_⟩
      obtain rfl | hm := List.mem_cons.mp hm
      · exact List.mem_cons_self
      · exact List.mem_cons_of_mem _ (hold m hm hne)

/-- Settles O24: RUN and SET_EPOCH of an open stream and of one that is not. -/
theorem runsAndEpochsExtendAStream : Obligations.RunsAndEpochsExtendAStream := by
  refine ⟨fun s seq c hbeg hopen hstop => ?_, fun s seq c hbeg hno => ?_, fun s seq c hbeg hopen => ?_, fun s seq c hbeg hno => ?_, mem_setMark⟩
  · refine ⟨_, exec_run_open hbeg hopen hstop, by rw [State.stream_modStream]; rfl, by rw [State.stream_modStream]; rfl, ?_,
      fun n hn => State.stream_modStream_ne _ _ hn⟩
    refine ⟨{ c with phase := .executing }, ?_, rfl⟩
    rw [State.cmd_of_cmds (s := Begun s seq) (State.modStream_cmds _ _ _), Begun, State.cmd_setPhase, hbeg.1]
    rfl
  · exact ⟨_, exec_run_closed hbeg hno, decided_finish _ _ (cmd_begun_isSome hbeg), rfl⟩
  · obtain ⟨hi, hexec⟩ := exec_setEpoch_begins hbeg
    rw [if_neg (not_not.mpr hopen)] at hexec
    refine ⟨fun hge => ?_, fun hlt => ?_⟩
    · rw [if_neg (Nat.not_lt.mpr hge)] at hexec
      refine ⟨_, hexec, decided_finish _ _ ?_, ?_⟩
      · rw [State.cmd_of_cmds (State.dropShuffled_keeps State.cmds (fun _ _ _ => rfl) _ _ _ _ fun _ _ => rfl)]
        exact cmd_begun_isSome hbeg
      · rw [State.finish_stream, State.dropShuffled_keeps (fun t => (t.stream c.entry.stream).marks) (fun _ _ _ => rfl) _ _ _ _
          (fun _ _ => by rw [State.stream_modStream]), State.stream_modStream]
        rfl
    · rw [if_pos hlt] at hexec
      exact ⟨_, hexec, decided_finish _ _ (cmd_begun_isSome hbeg), rfl⟩
  · obtain ⟨hi, hexec⟩ := exec_setEpoch_begins hbeg
    rw [if_pos hno] at hexec
    exact ⟨_, hexec, decided_finish _ _ (cmd_begun_isSome hbeg), rfl⟩

/-! ### CLOSE_STREAM (R76, R348) -/

theorem Stream.released_le_firstUnbegun (st : Stream) : st.released ≤ st.firstUnbegun := by
  rw [Stream.firstUnbegun]
  cases h : List.find? _ _ with
  | none => exact Nat.le_refl _
  | some b =>
    obtain ⟨i, -, rfl⟩ := List.mem_map.mp (List.mem_of_find?_eq_some h)
    exact Nat.le_add_right _ _

/-- No batch that has begun carries the number of the first one that has not: a stream with `len` batches cannot keep `len + 1` numbers. -/
theorem Stream.keeps_firstUnbegun (st : Stream) : st.keeps st.firstUnbegun = false := by
  rw [Stream.firstUnbegun]
  cases h : List.find? _ _ with
  | some b => simpa [Stream.keeps] using List.find?_some h
  | none =>
    have hall : (List.range (st.batches.length + 1)).map (fun i => st.released + i) ⊆ st.batches.map Batch.num := by
      intro b hb
      have hkept := List.find?_eq_none.mp h b hb
      simp only [Bool.not_eq_true', Bool.not_eq_false, List.any_eq_true, Bool.and_eq_true, beq_iff_eq] at hkept
      obtain ⟨x, hx, rfl, -⟩ := hkept
      exact List.mem_map_of_mem hx
    have hnodup : ((List.range (st.batches.length + 1)).map fun i => st.released + i).Nodup :=
      List.Nodup.map (fun a b => by simp) List.nodup_range
    have hlen := (hnodup.subperm hall).length_le
    simp at hlen

/-- The first batch that has not begun is the least such number from the release point on. -/
theorem Stream.firstUnbegun_le {st : Stream} {b : Nat} (hrel : st.released ≤ b) (hb : st.keeps b = false) : st.firstUnbegun ≤ b := by
  rw [Stream.firstUnbegun, List.find?_map]
  cases h : List.find? _ _ with
  | none => exact hrel
  | some i =>
    obtain ⟨-, -, hleast⟩ := List.find?_range_eq_some.mp h
    by_contra hlt
    have hlt : b < st.released + i := Nat.not_le.mp hlt
    have hb' := hleast (b - st.released) (by omega)
    simp only [Function.comp, Nat.add_sub_cancel' hrel, Bool.not_not] at hb'
    exact absurd (hb.symm.trans hb') (by decide)

/-- A part of the state that dispatchers, cores and saved contexts do not hold stays when records are discarded. -/
theorem State.discardOn_keeps {α : Type} (part : State → α) (hdisp : ∀ (t : State) k f, part (t.modDisp k f) = part t)
    (hcore : ∀ (t : State) c f, part (t.modCore c f) = part t) (hfree : ∀ (t : State) n, part { t with free := n } = part t)
    (hsaved : ∀ (t : State) (f : List (Nat × Saved) → List (Nat × Saved)), part (t.modWork fun w => { w with saved := f w.saved }) = part t)
    (s : State) (k : Nat) (p : TaskRec → Bool) :
    part (s.discardOn k p).2 = part s := by
  rw [State.discardOn]
  split
  · rfl
  · refine List.foldlRecOn (motive := fun a : Nat × State => part a.2 = part s) _ _ ?_ fun a ha n _ => ?_
    · exact ite_keeps part ((hfree _ _).trans (hdisp _ _ _)) ((hsaved _ _).trans ((hfree _ _).trans (hdisp _ _ _)))
    · dsimp only
      split
      · exact ha
      · exact (hcore _ _ _).trans ha

theorem State.discard_keeps {α : Type} (part : State → α) (hdisp : ∀ (t : State) k f, part (t.modDisp k f) = part t)
    (hcore : ∀ (t : State) c f, part (t.modCore c f) = part t) (hfree : ∀ (t : State) n, part { t with free := n } = part t)
    (hsaved : ∀ (t : State) (f : List (Nat × Saved) → List (Nat × Saved)), part (t.modWork fun w => { w with saved := f w.saved }) = part t)
    (s : State) (n : Nat) (count : Bool)
    (p : Option Nat → Bool) : part (s.discard n count p).2 = part s :=
  List.foldlRecOn (motive := fun a : Nat × State => part a.2 = part s) _ _ rfl fun _ ha _ _ =>
    (hdisp _ _ _).trans ((State.discardOn_keeps part hdisp hcore hfree hsaved _ _ _).trans ha)

@[simp] theorem State.discard_stream (s : State) (n : Nat) (count : Bool) (p : Option Nat → Bool) (m : Nat) :
    (s.discard n count p).2.stream m = s.stream m :=
  State.discard_keeps (fun t => t.stream m) (fun _ _ _ => rfl) (fun _ _ _ => rfl) (fun _ _ => rfl) (fun _ _ => rfl) s n count p

@[simp] theorem State.modFlags_stream (s : State) (n : Nat) (f : Weir → Weir) (m : Nat) : (s.modFlags n f).stream m = s.stream m := by
  rw [State.modFlags]
  cases s.work.graph with
  | none => rfl
  | some g => exact List.foldlRecOn (motive := fun t : State => t.stream m = s.stream m) _ _ rfl fun _ ht _ _ => ht

@[simp] theorem State.noteAllStalls_stream (s : State) (m : Nat) : s.noteAllStalls.stream m = s.stream m :=
  State.noteAllStalls_keeps (fun t => t.stream m) (fun _ _ _ => rfl) s

@[simp] theorem State.cancelWaitingRuns_stream (s : State) (n m : Nat) : (s.cancelWaitingRuns n).stream m = s.stream m :=
  List.foldlRecOn (motive := fun t : State => t.stream m = s.stream m) _ _ rfl fun _ ht _ _ => ht

@[simp] theorem State.skipFlows_stream (s : State) (n m : Nat) : (s.skipFlows n).stream m = s.stream m := by
  rw [State.skipFlows]
  cases s.work.graph with
  | none => rfl
  | some g =>
    refine ite_keeps (fun t => t.stream m) rfl (List.foldlRecOn (motive := fun t : State => t.stream m = s.stream m) _ _ rfl fun t ht _ _ => ?_)
    exact ite_keeps (fun t => t.stream m) ht ht

@[simp] theorem State.keepBuilt_stream (s : State) (m : Nat) : s.keepBuilt.stream m = s.stream m := by
  rw [State.keepBuilt]
  cases s.work.graph with
  | none => rfl
  | some g => rfl

@[simp] theorem State.settle_stream (s : State) (m : Nat) : s.settle.stream m = s.stream m := State.stream_of_streams (by rw [State.settle_work]) m

@[simp] theorem State.pairJoined_stream (s : State) (m : Nat) : s.pairJoined.stream m = s.stream m := by
  rw [State.pairJoined]
  exact ite_keeps (fun t => t.stream m) (State.stream_of_streams (by rw [State.setPair_work]) m) rfl

/-- The batches that a discard of unbegun work leaves. -/
theorem State.discardUnbegun_stream (s : State) (n : Nat) : (s.discardUnbegun n).2.stream n =
    { s.stream n with batches := (s.stream n).batches.filter fun x => (s.stream n).keeps x.num } := by
  rw [State.discardUnbegun]
  simp

theorem State.dropStopped_stream (s : State) (n : Nat) : ∃ p : Batch → Bool, (s.dropStopped n).stream n =
    { s.stream n with batches := (s.stream n).batches.filter p } := by
  rw [State.dropStopped]
  cases (s.stream n).stop with
  | none => exact ⟨fun _ => true, by simp⟩
  | some x => exact ⟨fun b => decide (b.num < x), by simp⟩

/-- A stream that has left the open state, with its armed slot empty and its run limit cut at `b`. -/
def Stream.CutAt (st : Stream) (b : Nat) : Prop := st.phase ≠ .open_ ∧ st.armed = none ∧ st.runLimit ≤ b

theorem Stream.CutAt.shut {st : Stream} {b : Nat} (h : st.CutAt b) : st.shut.CutAt b := ⟨nofun, rfl, h.2.2⟩

@[simp] theorem State.endRuns_stream (s : State) (n : Nat) : (s.endRuns n).stream n =
    { s.stream n with runs := (s.stream n).runs.filter fun r => !(s.stream n).runOver r } := by
  rw [State.endRuns]
  simp only [State.stream_modStream]
  have hfold : ((List.filter (s.stream n).runOver (s.stream n).runs).foldl
      (fun t r => t.finish r.seq (if r.cancelled then stCancelled else stOk) r.count) s).stream n = s.stream n :=
    List.foldlRecOn (motive := fun t : State => t.stream n = s.stream n) _ _ rfl fun _ ht _ _ => ht
  rw [hfold]

theorem State.endRuns_cutAt {s : State} {n b : Nat} (h : (s.stream n).CutAt b) : ((s.endRuns n).stream n).CutAt b := by
  obtain ⟨hphase, harmed, hlimit⟩ := h
  rw [State.endRuns_stream]
  exact ⟨hphase, harmed, hlimit⟩

theorem State.streamEnd_stream (s : State) (n : Nat) : ∃ e, (s.streamEnd n).stream n = { s.stream n with ended := e } := by
  rw [State.streamEnd]
  cases s.work.graph with
  | none => exact ⟨_, rfl⟩
  | some g =>
    dsimp only
    split
    · exact ⟨_, rfl⟩
    · refine ⟨true, ?_⟩
      rw [State.stream_modStream]
      refine congrArg (fun st : Stream => { st with ended := true }) ?_
      exact List.foldlRecOn (motive := fun t : State => t.stream n = s.stream n) _ _
        (List.foldlRecOn (motive := fun t : State => t.stream n = s.stream n) _ _ rfl fun _ ht _ _ => ht) fun _ ht _ _ => ht

theorem State.streamEndDue_stream (s : State) (n : Nat) : ∃ e, (s.streamEndDue n).stream n = { s.stream n with ended := e } := by
  rw [State.streamEndDue]
  cases s.work.graph with
  | none => exact ⟨_, rfl⟩
  | some g =>
    dsimp only
    split
    · exact s.streamEnd_stream n
    · exact ⟨_, rfl⟩

/-- A stream that is cut stays cut when its closing ends. -/
theorem State.endClose_cutAt {s : State} {n b : Nat} (h : (s.stream n).CutAt b) : ((s.endClose n).stream n).CutAt b := by
  have hdue : ((s.streamEndDue n).stream n).CutAt b := by
    obtain ⟨e, he⟩ := s.streamEndDue_stream n
    rw [he]
    exact h
  have hend : (((s.streamEndDue n).streamEnd n).stream n).CutAt b := by
    obtain ⟨e, he⟩ := (s.streamEndDue n).streamEnd_stream n
    rw [he]
    exact hdue
  rw [State.endClose]
  split
  · split
    · rw [State.keepBuilt_stream, State.stream_modStream]
      exact Stream.CutAt.shut hend
    · exact hdue
  · exact hdue

/-- Dropping batches moves the first one that has not begun up by nothing. -/
theorem Stream.firstUnbegun_le_of_subset {st st' : Stream} (hrel : st'.released = st.released) (hsub : st'.batches ⊆ st.batches) :
    st'.firstUnbegun ≤ st.firstUnbegun := by
  refine Stream.firstUnbegun_le (hrel ▸ st.released_le_firstUnbegun) (Bool.eq_false_iff.mpr fun hkeep => ?_)
  obtain ⟨x, hx, hkept⟩ := List.any_eq_true.mp hkeep
  exact Bool.eq_false_iff.mp st.keeps_firstUnbegun (List.any_eq_true.mpr ⟨x, hsub hx, hkept⟩)

/-- A stream in the closing phase whose unbegun work is discarded and whose RUNs are cut. -/
def State.closing (s : State) (n seq : Nat) : State :=
  (((s.dropStopped n).modStream n fun st => { st with phase := .closing, closeSeq := some seq, armed := none }).discardUnbegun n).2.modStream n
    Stream.cutRuns

theorem State.closing_cutAt (s : State) (n seq : Nat) : ((s.closing n seq).stream n).CutAt (s.stream n).firstUnbegun := by
  obtain ⟨p, hp⟩ := s.dropStopped_stream n
  rw [State.closing, State.stream_modStream, State.discardUnbegun_stream, State.stream_modStream, hp]
  refine ⟨nofun, rfl, (Nat.min_le_right _ _).trans (Stream.firstUnbegun_le_of_subset rfl ?_)⟩
  exact fun x hx => (List.mem_filter.mp (List.mem_filter.mp hx).1).1

theorem exec_closeStream_open {s : State} {seq : Nat} {c : Cmd} (hbeg : Begins s seq 6 c) (hopen : (s.stream c.entry.stream).phase = .open_) :
    exec (.closeStream seq) s = .next ((((((((Begun s seq).closing c.entry.stream seq).cancelWaitingRuns c.entry.stream).skipFlows
      c.entry.stream).endRuns c.entry.stream).endClose c.entry.stream).settle).pairJoined) := by
  have hopen' : ((Begun s seq).stream c.entry.stream).phase = .open_ := hopen
  show Host.Outcome.next (s.begin seq opClose _) = _
  rw [State.begin_of_begins (op := opClose) hbeg]
  simp only [hopen', bne_self_eq_false, Bool.false_eq_true, if_false]
  rfl

theorem exec_closeStream_closed {s : State} {seq : Nat} {c : Cmd} (hbeg : Begins s seq 6 c) (hno : (s.stream c.entry.stream).phase ≠ .open_) :
    exec (.closeStream seq) s = .next ((Begun s seq).finish seq stBadDescriptor 0) := by
  have hno' : ((Begun s seq).stream c.entry.stream).phase ≠ .open_ := hno
  show Host.Outcome.next (s.begin seq opClose _) = _
  rw [State.begin_of_begins (op := opClose) hbeg]
  simp only [bne_iff_ne.mpr hno', if_true]

/-- What CLOSE_STREAM leaves of an open stream is cut at its first batch that has not begun. -/
theorem exec_closeStream_cutAt {s : State} {seq : Nat} {c : Cmd} (hbeg : Begins s seq 6 c) (hopen : (s.stream c.entry.stream).phase = .open_) :
    ∃ u, exec (.closeStream seq) s = .next u ∧ (u.stream c.entry.stream).CutAt (s.stream c.entry.stream).firstUnbegun := by
  refine ⟨_, exec_closeStream_open hbeg hopen, ?_⟩
  rw [State.pairJoined_stream, State.settle_stream]
  refine State.endClose_cutAt (State.endRuns_cutAt ?_)
  rw [State.skipFlows_stream, State.cancelWaitingRuns_stream]
  exact (Begun s seq).closing_cutAt c.entry.stream seq

/-! ### CANCEL and FENCE (R94, R95, R97) -/

/-- A command of a changed list is a changed command of the sequence number, or one of another that was there. -/
theorem State.mem_modCmd {s : State} {seq : Nat} {f : Cmd → Cmd} {d : Cmd} (hf : ∀ c, (f c).seq = c.seq) (hd : d ∈ (s.modCmd seq f).cmds) :
    (d.seq = seq ∧ ∃ e ∈ s.cmds, e.seq = seq ∧ d = f e) ∨ (d.seq ≠ seq ∧ d ∈ s.cmds) := by
  obtain ⟨e, he, rfl⟩ := List.mem_map.mp hd
  by_cases h : e.seq = seq
  · exact .inl ⟨by simp [h, hf], e, he, h, by simp [h]⟩
  · exact .inr ⟨by simp [h], by simpa [h] using he⟩

/-- A sequence number that is in use and whose commands all have a status and result has them decided. -/
theorem decided_of_all {u : State} {seq st r : Nat} (hmem : seq ∈ u.cmds.map Cmd.seq)
    (hall : ∀ d ∈ u.cmds, d.seq = seq → d.phase = .finished st r) : Decided u seq st r := by
  obtain ⟨e, he, rfl⟩ := List.mem_map.mp hmem
  obtain ⟨d, hd⟩ := Option.isSome_iff_exists.mp (List.find?_isSome.mpr ⟨e, he, beq_self_eq_true e.seq⟩ : (u.cmd e.seq).isSome = true)
  exact ⟨d, hd, hall d (List.mem_of_find?_eq_some hd) (State.seq_of_cmd hd)⟩

/-- Every command of sequence number `seq` is finished with a status and a result. -/
def State.AllFinished (t : State) (seq st r : Nat) : Prop := ∀ d ∈ t.cmds, d.seq = seq → d.phase = .finished st r

theorem State.allFinished_finish (t : State) (seq st r : Nat) : (t.finish seq st r).AllFinished seq st r := by
  intro d hd hseq
  obtain ⟨-, e, -, -, rfl⟩ | ⟨hne, -⟩ := State.mem_modCmd (f := fun c => { c with phase := .finished st r }) (fun _ => rfl) hd
  · rfl
  · exact absurd hseq hne

theorem State.AllFinished.finish_ne {t : State} {seq st r : Nat} (h : t.AllFinished seq st r) {seq' : Nat} (hne : seq' ≠ seq) (st' r' : Nat) :
    (t.finish seq' st' r').AllFinished seq st r := by
  intro d hd hseq
  obtain ⟨hseq', -⟩ | ⟨-, hd⟩ := State.mem_modCmd (f := fun c => { c with phase := .finished st' r' }) (fun _ => rfl) hd
  · exact absurd (hseq'.symm.trans hseq) hne
  · exact h d hd hseq

theorem State.AllFinished.modCmd {t : State} {seq st r : Nat} (h : t.AllFinished seq st r) {seq' : Nat} {f : Cmd → Cmd}
    (hf : ∀ c, (f c).seq = c.seq) (hphase : ∀ c, (f c).phase = c.phase) : (t.modCmd seq' f).AllFinished seq st r := by
  intro d hd hseq
  obtain ⟨-, e, he, -, rfl⟩ | ⟨-, hd⟩ := State.mem_modCmd hf hd
  · exact (hphase e).trans (h e he ((hf e).symm.trans hseq))
  · exact h d hd hseq

/-- A fold that keeps `I` and, once it holds, `J`, and that turns `I` into `J` at one of its elements, ends with `J`. -/
theorem foldl_reaches {α β : Type} {I J : α → Prop} {f : α → β → α} {l : List β} {b : β} {a : α} (hb : b ∈ l) (ha : I a)
    (hI : ∀ a, ∀ x ∈ l, I a → I (f a x)) (hJ : ∀ a, ∀ x ∈ l, J a → J (f a x)) (hstep : ∀ a, I a → J (f a b)) : J (l.foldl f a) := by
  obtain ⟨l1, l2, rfl⟩ := List.append_of_mem hb
  rw [List.foldl_append, List.foldl_cons]
  refine List.foldlRecOn l2 f (hstep _ (List.foldlRecOn l1 f ha fun a h x hx => hI a x (by simp [hx]) h)) fun a h x hx => hJ a x (by simp [hx]) h

/-- CANCEL commands with one target settle together once it is decided, and what the target has stays. -/
theorem State.settle_cancel {t : State} {seq x : Nat} {d : Cmd} (hd : d ∈ t.cmds) (hseq : d.seq = seq) (hop : d.entry.opcode = opCancel)
    (hexec : d.phase = .executing) (hx : t.AllFinished x stCancelled 0)
    (hall : ∀ c ∈ t.cmds, c.seq = seq → c.target = some x ∧ c.count = 0) :
    t.settle.AllFinished x stCancelled 0 ∧ t.settle.AllFinished seq stOk (2 ^ 63) := by
  have hkeepx : ∀ u : State, ∀ c ∈ t.cmds, u.AllFinished x stCancelled 0 → (u.settleOne c).AllFinished x stCancelled 0 := by
    intro u c hc hu
    obtain h | ⟨hphase, h⟩ := u.settleOne_cases c
    · rwa [h]
    · rw [h]
      refine hu.finish_ne (fun hcx => ?_) _ _
      rw [hx c hc hcx] at hphase
      cases hphase
  have hstep : ∀ u : State, ∀ c ∈ t.cmds, c.seq = seq → u.finish c.seq stOk (2 ^ 63 + c.count % 2 ^ 32) = u.finish seq stOk (2 ^ 63) := by
    intro u c hc hcs
    rw [(hall c hc hcs).2, hcs, Nat.zero_mod, Nat.add_zero]
  refine foldl_reaches (I := fun u : State => u.AllFinished x stCancelled 0)
    (J := fun u : State => u.AllFinished x stCancelled 0 ∧ u.AllFinished seq stOk (2 ^ 63)) hd hx hkeepx ?_ fun u hu => ?_
  · rintro u c hc ⟨hux, hus⟩
    refine ⟨hkeepx u c hc hux, ?_⟩
    obtain h | ⟨-, h⟩ := u.settleOne_cases c
    · rwa [h]
    · rw [h]
      by_cases hcs : c.seq = seq
      · rw [hstep u c hc hcs]
        exact u.allFinished_finish _ _ _
      · exact hus.finish_ne hcs _ _
  · refine ⟨hkeepx u d hd hu, ?_⟩
    have hdone : (u.cmd x).all Cmd.done = true := by
      rw [Option.all_eq_true]
      intro c hc
      simp [Cmd.done, hu c (List.mem_of_find?_eq_some hc) (State.seq_of_cmd hc)]
    have hset : u.settleOne d = u.finish d.seq stOk (2 ^ 63 + d.count % 2 ^ 32) := by
      simp [State.settleOne, hexec, hop, (hall d hd hseq).1, hdone]
    rw [hset, hstep u d hd hseq]
    exact u.allFinished_finish _ _ _

theorem filter_map_of_fixed {α : Type} {f : α → α} {p : α → Bool} (hp : ∀ x, p (f x) = p x) (hf : ∀ x, p x = true → f x = x) (l : List α) :
    (l.map f).filter p = l.filter p := by
  rw [List.filter_map, show p ∘ f = p from funext hp]
  exact (List.map_congr_left fun x hx => hf x (List.mem_filter.mp hx).2).trans (List.map_id _)

/-- A CANCEL that begins still names what it named: it never names itself. -/
theorem State.cancelTarget_begun {s : State} {c : Cmd} : (Begun s c.seq).cancelTarget c = s.cancelTarget c := by
  rw [State.cancelTarget, Begun, State.modCmd, filter_map_of_fixed]
  · rfl
  · intro x
    by_cases h : x.seq = c.seq <;> simp [h]
  · intro x hx
    have hne : x.seq ≠ c.seq := fun h => by simp [h] at hx
    simp [hne]

theorem exec_cancel_none {s : State} {seq : Nat} {c : Cmd} (hbeg : Begins s seq 9 c) (hnone : s.cancelTarget c = none) :
    exec (.cancel seq) s = .next ((Begun s seq).finish seq stOk 0) := by
  have htarget : (Begun s seq).cancelTarget c = none := by
    rw [← State.seq_of_cmd hbeg.1, State.cancelTarget_begun, hnone]
  show Host.Outcome.next (s.begin seq opCancel _) = _
  rw [State.begin_of_begins (op := opCancel) hbeg]
  simp only [htarget]

/-- A CANCEL whose target has not begun, before it settles. -/
def State.cancelled (s : State) (seq x : Nat) : State :=
  ((Begun s seq).finish x stCancelled 0).modCmd seq fun c => { c with target := some x, count := 0 }

theorem exec_cancel_accepted {s : State} {seq : Nat} {c x : Cmd} (hbeg : Begins s seq 9 c) (hsome : s.cancelTarget c = some x)
    (hacc : x.phase = .accepted) : exec (.cancel seq) s = .next (s.cancelled seq x.seq).settle := by
  have htarget : (Begun s seq).cancelTarget c = some x := by
    rw [← State.seq_of_cmd hbeg.1, State.cancelTarget_begun, hsome]
  show Host.Outcome.next (s.begin seq opCancel _) = _
  rw [State.begin_of_begins (op := opCancel) hbeg]
  simp only [htarget, hacc, decide_true, if_true]
  rfl

theorem State.modCmd_seqs (s : State) (seq : Nat) {f : Cmd → Cmd} (hf : ∀ c, (f c).seq = c.seq) :
    (s.modCmd seq f).cmds.map Cmd.seq = s.cmds.map Cmd.seq := by
  simp only [State.modCmd, List.map_map]
  refine List.map_congr_left fun c _ => ?_
  by_cases h : c.seq = seq <;> simp [h, hf]

theorem State.cancelled_seqs (s : State) (seq x : Nat) : (s.cancelled seq x).cmds.map Cmd.seq = s.cmds.map Cmd.seq := by
  rw [State.cancelled, State.modCmd_seqs, State.finish_seqs, Begun, State.modCmd_seqs] <;> exact fun _ => rfl

theorem State.cmd_modCmd_ne (s : State) {seq n : Nat} (hne : n ≠ seq) {f : Cmd → Cmd} (hf : ∀ c, (f c).seq = c.seq) :
    (s.modCmd seq f).cmd n = s.cmd n := by
  have hpred : ((fun c : Cmd => c.seq == n) ∘ fun c => if c.seq == seq then f c else c) = fun c => c.seq == n := by
    funext c
    by_cases h : c.seq = seq <;> simp [h, hf]
  rw [State.cmd, State.modCmd, List.find?_map, hpred, ← State.cmd]
  cases h : s.cmd n with
  | none => rfl
  | some c => simp [State.seq_of_cmd h, hne]

/-- CANCEL of a command that has not begun ends both. -/
theorem State.settle_cancelled {s : State} {seq x : Nat} {c : Cmd} (hcmd : s.cmd seq = some c) (hop : c.entry.opcode = opCancel) (hne : x ≠ seq) :
    (s.cancelled seq x).settle.AllFinished x stCancelled 0 ∧ (s.cancelled seq x).settle.AllFinished seq stOk (2 ^ 63) := by
  have hc : (s.cancelled seq x).cmd seq = some { c with phase := .executing, target := some x, count := 0 } := by
    rw [State.cancelled, State.cmd_modCmd_same, State.finish, State.cmd_modCmd_ne _ hne.symm, Begun, State.cmd_setPhase, hcmd]
    · rfl
    all_goals exact fun _ => rfl
  have hx : (s.cancelled seq x).AllFinished x stCancelled 0 :=
    ((Begun s seq).allFinished_finish x stCancelled 0).modCmd (fun _ => rfl) fun _ => rfl
  refine State.settle_cancel (List.mem_of_find?_eq_some hc) (State.seq_of_cmd hc) hop rfl hx fun d hd hseq => ?_
  obtain ⟨-, e, -, -, rfl⟩ | ⟨hne', -⟩ := State.mem_modCmd (f := fun c => { c with target := some x, count := 0 }) (fun _ => rfl) hd
  · exact ⟨rfl, rfl⟩
  · exact absurd hseq hne'

theorem exec_fence_begins {s : State} {seq : Nat} {c : Cmd} (hbeg : Begins s seq 10 c)
    (hfree : ∀ d ∈ s.cmds, d.seq < seq → c.entry.p 0 % 2 = 0 ∧ d.qp ≠ c.qp) :
    exec (.fence seq) s = .next ((Begun s seq).finish seq stOk 0) := by
  show execFence seq s = _
  have hany : (s.cmds.any fun x => decide (x.seq < seq) && (bitOf (c.entry.p 0) 0 || x.qp == c.qp)) = false := by
    refine List.any_eq_false.mpr fun d hd => ?_
    by_cases hlt : d.seq < seq
    · obtain ⟨hscope, hqp⟩ := hfree d hd hlt
      simp [bitOf, hscope, hqp]
    · simp [hlt]
  simp [execFence, hbeg.1, hany, State.begin_of_begins (op := opFence) hbeg]

theorem exec_fence_waits {s : State} {seq : Nat} {c d : Cmd} (hcmd : s.cmd seq = some c) (hd : d ∈ s.cmds) (hlt : d.seq < seq)
    (hwhy : c.entry.p 0 % 2 = 1 ∨ d.qp = c.qp) : exec (.fence seq) s = .next s := by
  show execFence seq s = _
  have hany : (s.cmds.any fun x => decide (x.seq < seq) && (bitOf (c.entry.p 0) 0 || x.qp == c.qp)) = true := by
    refine List.any_eq_true.mpr ⟨d, hd, ?_⟩
    simpa [hlt, bitOf] using hwhy
  simp [execFence, hcmd, hany]

/-- Settles O25: CLOSE_STREAM, CANCEL and FENCE. -/
theorem closeCancelAndFence : Obligations.CloseCancelAndFence := by
  refine ⟨fun s seq c hbeg hopen => ?_, fun s seq c hbeg hno => ?_, fun s seq c hbeg hnone => ?_, fun s seq c x hbeg hsome hacc hne => ?_,
    fun s seq c hbeg hfree => ?_, fun s seq c d hcmd hd hlt hwhy => exec_fence_waits hcmd hd hlt hwhy⟩
  · obtain ⟨u, hexec, hphase, harmed, hlimit⟩ := exec_closeStream_cutAt hbeg hopen
    exact ⟨u, hexec, hphase, harmed, hlimit⟩
  · exact ⟨_, exec_closeStream_closed hbeg hno, decided_finish _ _ (cmd_begun_isSome hbeg)⟩
  · exact ⟨_, exec_cancel_none hbeg hnone, decided_finish _ _ (cmd_begun_isSome hbeg), rfl⟩
  · obtain ⟨hx, hseq⟩ := State.settle_cancelled hbeg.1 hbeg.2.1 hne
    have hseqs : (s.cancelled seq x.seq).settle.cmds.map Cmd.seq = s.cmds.map Cmd.seq := by
      rw [State.settle_seqs, State.cancelled_seqs]
    refine ⟨_, exec_cancel_accepted hbeg hsome hacc, decided_of_all ?_ hx, decided_of_all ?_ hseq, by rw [State.settle_work]; rfl⟩
    · rw [hseqs]
      exact List.mem_map_of_mem (List.mem_filter.mp (List.mem_of_getLast? hsome)).1
    · rw [hseqs, ← State.seq_of_cmd hbeg.1]
      exact List.mem_map_of_mem (List.mem_of_find?_eq_some hbeg.1)
  · exact ⟨_, exec_fence_begins hbeg hfree, decided_finish _ _ (cmd_begun_isSome hbeg), rfl⟩

/-! ### QUERY (R77) -/

@[simp] theorem State.rangeOff_bus (s : State) (a n : Nat) : s.rangeOff .bus a n = false := rfl

/-- A block of a QUERY in host memory is written in one write. -/
theorem State.putResult_bus {s : State} (hout : s.mayOutput = true) {c : Cmd} (hspace : c.entry.aspace = 0) (bs : Bytes) :
    s.putResult ⟨[], [], []⟩ c bs = (s.rawWrite c.entry.addr0 bs).finish c.seq stOk bs.length := by
  rw [State.putResult, hspace, ← State.busWrite_of_mayOutput hout]
  rfl

theorem exec_query_block {s : State} {seq : Nat} {c : Cmd} {bs : Bytes} (hbeg : Begins s seq 11 c) (hopen : s.writeOpen = true)
    (hout : s.mayOutput = true) (hspace : c.entry.aspace = 0) (hblock : (Begun s seq).queryBlock c.entry = some bs) (hroom : bs.length ≤ c.entry.len0) :
    exec (.query seq ⟨[], [], []⟩) s = .next (((Begun s seq).rawWrite c.entry.addr0 bs).finish seq stOk bs.length) := by
  have hout' : (Begun s seq).mayOutput = true := hout
  show execQuery seq ⟨[], [], []⟩ s = _
  simp only [execQuery, State.env_nil, hopen, Bool.not_true, Bool.false_eq_true, if_false, State.begin_of_begins (op := opQuery) hbeg, hblock,
    if_neg (Nat.not_lt.mpr hroom), State.putResult_bus hout' hspace, State.seq_of_cmd hbeg.1]

theorem exec_query_limit {s : State} {seq : Nat} {c : Cmd} (hbeg : Begins s seq 11 c) (hopen : s.writeOpen = true)
    (hsmall : ∀ bs, (Begun s seq).queryBlock c.entry = some bs → c.entry.len0 < bs.length) :
    exec (.query seq ⟨[], [], []⟩) s = .next ((Begun s seq).finish seq stLimit 0) := by
  show execQuery seq ⟨[], [], []⟩ s = _
  simp only [execQuery, State.env_nil, hopen, Bool.not_true, Bool.false_eq_true, if_false, State.begin_of_begins (op := opQuery) hbeg]
  cases h : (Begun s seq).queryBlock c.entry with
  | none => rfl
  | some bs => exact congrArg _ (if_pos (hsmall bs h))

/-! ### WARM_RESTART (R78, R470, R471, R543) -/

section
variable {α : Type} (part : State → α) (hwork : ∀ (t : State) f, part (t.modWork f) = part t)
include hwork

/-- A part of the state that the work does not hold stays when a table stage runs again. -/
theorem State.restartStage_keeps (s : State) (n tpl : Nat) : part (s.restartStage n tpl) = part s := by
  rw [State.restartStage]
  cases s.work.graph with
  | none => rfl
  | some g =>
    refine List.foldlRecOn (motive := fun t => part t = part s) _ _ (hwork _ _) fun t ht p _ => (hwork _ _).trans ?_
    exact List.foldlRecOn (motive := fun t => part t = part s) _ _ ht fun u hu _ _ => (hwork _ _).trans hu

theorem State.restartStages_keeps (s : State) (k : Nat) : part (s.restartStages k) = part s :=
  List.foldlRecOn (motive := fun t => part t = part s) _ _ rfl fun t ht p _ => (t.restartStage_keeps part hwork p.1 p.2).trans ht

theorem State.modFlags_keeps (s : State) (n : Nat) (f : Weir → Weir) : part (s.modFlags n f) = part s := by
  rw [State.modFlags]
  cases s.work.graph with
  | none => rfl
  | some g => exact List.foldlRecOn (motive := fun t => part t = part s) _ _ rfl fun _ ht _ _ => (hwork _ _).trans ht

variable (hfree : ∀ (t : State) n, part { t with free := n } = part t)
include hfree

theorem State.rerunStream_keeps (s : State) (n : Nat) : part (s.rerunStream n).2 = part s := by
  rw [State.rerunStream]
  dsimp only
  split
  · rfl
  · dsimp only
    refine (State.modFlags_keeps part hwork _ _ _).trans ?_
    refine List.foldlRecOn (motive := fun t => part t = part s) _ _ ((hwork _ _).trans ?_) fun _ ht _ _ => (hwork _ _).trans ht
    exact State.discard_keeps part (fun _ _ _ => hwork _ _) (fun _ _ _ => hwork _ _) hfree (fun _ _ => hwork _ _) _ _ _ _

theorem State.rerunAll_keeps (s : State) : part s.rerunAll.2 = part s :=
  List.foldlRecOn (motive := fun a : Nat × State => part a.2 = part s) _ _ rfl fun _ ha _ _ =>
    (State.rerunStream_keeps part hwork hfree _ _).trans ha
end

/-- A map of a table's entries that keeps the default maps what is read. -/
theorem tget_tabMap {α : Type} [DecidableEq α] {d : α} {f : α → α} (hf : f d = d) (t : Tab α) (k : Nat) :
    tget d (tabMap d f t) k = f (tget d t k) := by
  induction t with
  | nil => exact hf.symm
  | cons p r ih =>
    obtain ⟨j, w⟩ := p
    show tget d (tset d j (f w) (tabMap d f r)) k = f (if k = j then w else tget d r k)
    by_cases h : k = j
    · rw [h, tget_tset_same, if_pos rfl]
    · rw [tget_tset_ne _ _ _ h, ih, if_neg h]

/-- The state of a WARM_RESTART before the units go to their reset values. -/
def State.restarted (s : State) : State := ((List.range 16).foldl (fun t k => t.restartStages k) s).rerunAll.2

theorem State.restarted_keeps {α : Type} (part : State → α) (hwork : ∀ (t : State) f, part (t.modWork f) = part t)
    (hfree : ∀ (t : State) n, part { t with free := n } = part t) (s : State) : part s.restarted = part s :=
  (State.rerunAll_keeps part hwork hfree _).trans
    (List.foldlRecOn (motive := fun t => part t = part s) _ _ rfl fun t ht k _ => (t.restartStages_keeps part hwork k).trans ht)

/-- Restarting stages and batches leaves the journal, HBM, the commands and the queue pairs. -/
theorem State.restarted_frame (s : State) : s.restarted.jrn = s.jrn ∧ s.restarted.mem.hbm = s.mem.hbm ∧ s.restarted.cmds = s.cmds ∧
    ∀ q, s.restarted.qp q = s.qp q :=
  ⟨State.restarted_keeps State.jrn (fun _ _ => rfl) (fun _ _ => rfl) s,
    State.restarted_keeps (fun t => t.mem.hbm) (fun _ _ => rfl) (fun _ _ => rfl) s,
    State.restarted_keeps State.cmds (fun _ _ => rfl) (fun _ _ => rfl) s,
    fun q => State.restarted_keeps (fun t => t.qp q) (fun _ _ => rfl) (fun _ _ => rfl) s⟩

@[simp] theorem State.finish_jrn (s : State) (seq st r : Nat) : (s.finish seq st r).jrn = s.jrn := rfl
@[simp] theorem State.finish_mem (s : State) (seq st r : Nat) : (s.finish seq st r).mem = s.mem := rfl
@[simp] theorem State.finish_qp (s : State) (seq st r q : Nat) : (s.finish seq st r).qp q = s.qp q := rfl

/-- What WARM_RESTART keeps of the journal, of HBM and of the commands. -/
theorem State.warmState_jrn (s : State) : s.warmState.jrn = { s.jrn with abandoned := 0, scanInvalid := false } := rfl
theorem State.warmState_hbm (s : State) : s.warmState.mem.hbm = s.mem.hbm := rfl
theorem State.warmState_cmds (s : State) : s.warmState.cmds = s.cmds := rfl

theorem State.warmState_qp_window (s : State) (q : Nat) : (s.warmState.qp q).window = (s.qp q).window := by
  show (tget {} (tabMap {} Qp.warm s.qps) q).window = _
  rw [tget_tabMap rfl]
  rfl

theorem exec_warmRestart_begins {s : State} {seq t : Nat} {c : Cmd} (hbeg : Begins (s.at_ t) seq 12 c)
    (hidle : ∀ p ∈ s.mem.chans, p.2.begun = false) :
    exec (.warmRestart seq t) s = .next ((Begun (s.at_ t) seq).restarted.warmState.finish seq stOk 0) := by
  show execWarmRestart seq t s = _
  have hany : (s.mem.chans.any fun p => p.2.begun) = false := List.any_eq_false.mpr fun p hp => by simp [hidle p hp]
  simp only [execWarmRestart, State.at_mem, hany, Bool.false_eq_true, if_false, State.begin_of_begins (op := opWarm) hbeg]
  rfl

/-! ### ATTACH_TABLE of an attached id (R73) -/

theorem exec_attachTable_busy {s : State} {seq : Nat} {e : BusEnv} {x : FileIn} {c : Cmd} {y : Table} (hbeg : Begins (s.env e) seq 1 c)
    (hread : c.entry.aspace = 0 → s.inD0 = true) (hy : (c.entry.p 0 % 65536, y) ∈ s.work.tables) :
    exec (.attachTable seq e x) s = .next ((Begun (s.env e) seq).finish seq stBusy 0) := by
  have hd0 : (spaceOf c.entry.aspace == .bus && !(Begun (s.env e) seq).inD0) = false := by
    by_cases h : c.entry.aspace = 0
    · have hin : (Begun (s.env e) seq).inD0 = true := hread h
      simp [hin]
    · simp [spaceOf, h]
  have hany : ((Begun (s.env e) seq).work.tables.any fun p => p.1 == c.entry.p 0 % 65536) = true :=
    List.any_eq_true.mpr ⟨_, hy, beq_self_eq_true _⟩
  show execAttachTable seq e x s = _
  simp only [execAttachTable, State.begin_of_begins (op := opAttach) hbeg, hd0, hany, Bool.false_eq_true, if_false, if_true]

/-- Settles O26: QUERY, WARM_RESTART and ATTACH_TABLE of an attached id. -/
theorem queryWarmRestartAndAttach : Obligations.QueryWarmRestartAndAttach := by
  refine ⟨fun s seq c bs hbeg hopen hout hspace hblock hroom => ?_, fun s seq c hbeg hopen hsmall => ?_, fun s seq t c hbeg hidle => ?_,
    fun s seq e x c hbeg hread hy => ?_⟩
  · exact ⟨_, exec_query_block hbeg hopen hout hspace hblock hroom, decided_finish _ _ (cmd_begun_isSome hbeg), rfl, rfl⟩
  · exact ⟨_, exec_query_limit hbeg hopen hsmall, decided_finish _ _ (cmd_begun_isSome hbeg), rfl⟩
  · obtain ⟨hjrn, hhbm, hcmds, hqp⟩ := (Begun (s.at_ t) seq).restarted_frame
    have hkept := (Begun (s.at_ t) seq).restarted.warmState_jrn
    rw [hjrn] at hkept
    refine ⟨_, exec_warmRestart_begins hbeg hidle, decided_finish _ _ ?_, (congrArg Journal.tail hkept :), (congrArg Journal.retire hkept :),
      (congrArg Journal.completed hkept :), (congrArg Journal.accesses hkept :), ?_, fun q => ?_⟩
    · rw [State.cmd_of_cmds (State.warmState_cmds _), State.cmd_of_cmds hcmds]
      exact cmd_begun_isSome hbeg
    · rw [State.finish_mem, State.warmState_hbm, hhbm]
      rfl
    · rw [State.finish_qp, State.warmState_qp_window, hqp]
      rfl
  · obtain ⟨y, hy⟩ := hy
    exact ⟨_, exec_attachTable_busy hbeg hread hy, decided_finish _ _ (cmd_begun_isSome hbeg), rfl⟩

/-! ### ATTACH_TABLE of a blocked table (R127, R541) -/

theorem extPieces_space {exts : List Extent} {sp : Space} (hall : ∀ y ∈ exts, y.space = sp) (o n : Nat) : ∀ p ∈ extPieces exts o n, p.1 = sp := by
  induction exts generalizing o n with
  | nil => exact nofun
  | cons x xs ih =>
    have hxs : ∀ y ∈ xs, y.space = sp := fun y hy => hall y (List.mem_cons_of_mem _ hy)
    rw [extPieces]
    split_ifs
    · exact nofun
    · exact ih hxs _ _
    · rintro p (_ | ⟨_, hp⟩)
      · exact hall x List.mem_cons_self
      · exact ih hxs _ _ p hp

/-- Reading extents in host memory has no effect on the state. -/
theorem State.extEffect_bus {exts : List Extent} (hall : ∀ y ∈ exts, y.space = .bus) (s : State) (o n : Nat) : s.extEffect exts o n = s := by
  refine List.foldlRecOn (motive := fun t => t = s) _ _ rfl fun t ht p hp => ?_
  rw [extPieces_space hall o n p hp, ht]
  rfl

/-- What ATTACH_TABLE answers for a blocked table of extents that may be read. -/
def State.attachAnswer (s : State) (seq : Nat) (e : BusEnv) (c : Cmd) (exts : List Extent) : State :=
  let r := s.attachBlocked e exts
  let s2 := s.extEffect exts 0 (64 + 32 * r.2.cols.length)
  if r.1 != stOk then s2.finish seq r.1 0
  else (s2.modWork fun w => { w with tables := tset {} (c.entry.p 0 % 65536) { r.2 with entry := some c.entry } w.tables }).finish seq stOk
    (c.entry.p 0 % 65536)

/-- ATTACH_TABLE of a blocked table under a free id, its list in host memory, in D0: the read, the list and the table decide in turn. -/
theorem exec_attachTable_blocked {s : State} {seq : Nat} {e : BusEnv} {x : FileIn} {c : Cmd} (hbeg : Begins (s.env e) seq 1 c)
    (hbus : c.entry.aspace = 0) (hd0 : s.inD0 = true) (hfmt : bitsOf (c.entry.p 0) 23 16 = 3)
    (hfree : ∀ y, (c.entry.p 0 % 65536, y) ∉ s.work.tables) :
    exec (.attachTable seq e x) s = .next (
      let t := Begun (s.env e) seq
      let es := recs (readBytes (s.env e).mem.bus c.entry.addr0 (16 * c.entry.len0)) 0 16 c.entry.len0
      if envFails e c.entry.addr0 (16 * c.entry.len0) then t.finish seq stBusError 0
      else if es.any (extBad s) then t.finish seq stBadDescriptor 0
      else if (es.map parseExt).any fun y => t.rangeOff y.space y.addr y.len then t.finish seq stDomainOff 0
      else t.attachAnswer seq e c (es.map parseExt)) := by
  have hd0' : (Begun (s.env e) seq).inD0 = true := hd0
  have hnew : ((Begun (s.env e) seq).work.tables.any fun p => p.1 == c.entry.p 0 % 65536) = false := by
    refine List.any_eq_false.mpr fun p hp => ?_
    rw [beq_iff_eq]
    rintro h
    exact hfree p.2 (h ▸ hp)
  have hpeek : (Begun (s.env e) seq).peek e (spaceOf 0) c.entry.addr0 (16 * c.entry.len0) =
      if envFails e c.entry.addr0 (16 * c.entry.len0) then none
      else some (readBytes (s.env e).mem.bus c.entry.addr0 (16 * c.entry.len0)) := rfl
  have hbad : extBad (Begun (s.env e) seq) = extBad s := rfl
  have hon : (Begun (s.env e) seq).rangeOff (spaceOf 0) c.entry.addr0 (16 * c.entry.len0) = false := rfl
  show execAttachTable seq e x s = _
  rw [execAttachTable, State.begin_of_begins (op := opAttach) hbeg]
  simp only [hbus, hd0', hnew, hon, hpeek, hbad, hfmt, State.readEffect_hostMem, Bool.not_true, Bool.and_false, Bool.false_and, Bool.false_eq_true,
    if_false]
  cases envFails e c.entry.addr0 (16 * c.entry.len0) <;> rfl

theorem State.attachAnswer_bus {s : State} {seq : Nat} {e : BusEnv} {c : Cmd} {exts : List Extent} {t : Table}
    (hall : ∀ y ∈ exts, y.space = .bus) (hok : s.attachBlocked e exts = (0, t)) : s.attachAnswer seq e c exts =
      (s.modWork fun w => { w with tables := tset {} (c.entry.p 0 % 65536) { t with entry := some c.entry } w.tables }).finish seq stOk
        (c.entry.p 0 % 65536) := by
  rw [State.attachAnswer, hok]
  dsimp only
  rw [State.extEffect_bus hall]
  rfl

/-- Settles O29: a blocked table attaches under its id. -/
theorem blockedTableAttaches : Obligations.BlockedTableAttaches := by
  intro s seq e x c hbeg hbus hd0 hfmt hfree
  have hexec := exec_attachTable_blocked (x := x) hbeg hbus hd0 hfmt hfree
  have hcmd := cmd_begun_isSome hbeg
  dsimp only at hexec
  refine ⟨fun hfail => ?_, fun hread => ⟨fun ⟨b, hb, hbad⟩ => ?_, fun t hgood hall htab => ?_⟩⟩
  · rw [if_pos hfail] at hexec
    exact ⟨_, hexec, decided_finish _ _ hcmd, rfl⟩
  · rw [if_neg (Bool.eq_false_iff.mp hread), if_pos (List.any_eq_true.mpr ⟨b, hb, hbad⟩)] at hexec
    exact ⟨_, hexec, decided_finish _ _ hcmd, rfl⟩
  · have hon : ((recs (readBytes (s.env e).mem.bus c.entry.addr0 (16 * c.entry.len0)) 0 16 c.entry.len0).map parseExt).any
        (fun y => (Begun (s.env e) seq).rangeOff y.space y.addr y.len) ≠ true := by
      refine Bool.eq_false_iff.mp (List.any_eq_false.mpr fun y hy => ?_)
      rw [hall y hy, State.rangeOff_bus]
      exact Bool.false_ne_true
    rw [if_neg (Bool.eq_false_iff.mp hread), if_neg (Bool.eq_false_iff.mp (List.any_eq_false.mpr fun b hb => by simp [hgood b hb])), if_neg hon,
      State.attachAnswer_bus (s := Begun (s.env e) seq) hall htab] at hexec
    exact ⟨_, hexec, decided_finish _ _ hcmd, tget_tset_same _ _ _ _, fun i hi => tget_tset_ne _ _ _ hi⟩

/-! ### OPEN_STREAM (R71, R73, R74) -/

/-- What OPEN_STREAM lays aside of a stream's earlier life before its table stages are looked at. -/
def State.prepared (s : State) (g : Graph) (n : Nat) (done : List Nat) : State :=
  (((s.forgetLaid n).freshFlows g n).startStages g n [] done).freshInput n

/-- A stream without table stages places nothing. -/
theorem stagePlaces_nil (g : Graph) (l : Nat) : stagePlaces g l [] = [] := by
  simp [stagePlaces]

theorem State.stageRoom_nil (s : State) (g : Graph) : s.stageRoom g [] = true := by
  simp [State.stageRoom, stagePlaces_nil]

theorem State.startStages_nil (s : State) (g : Graph) (n : Nat) (done : List Nat) :
    s.startStages g n [] done = s.modWork fun w => { w with built := w.built.filter fun b => !([] : List Nat).contains b.1 } := by
  rw [State.startStages]
  refine List.foldlRecOn (motive := fun t => t = _) _ _ rfl fun t ht p _ => ?_
  simp only [stagePlaces_nil, List.isEmpty_nil]
  exact ht

/-- A part of the state that holds neither flows, Weir instances nor intake lanes, nor a stream's batches, stays. -/
theorem State.freshFlows_keeps {α : Type} (part : State → α) (hflow : ∀ (t : State) i f, part (t.modFlow i f) = part t)
    (hweir : ∀ (t : State) i f, part (t.modWeir i f) = part t) (s : State) (g : Graph) (n : Nat) : part (s.freshFlows g n) = part s :=
  List.foldlRecOn (motive := fun t => part t = part s) _ _
    (List.foldlRecOn (motive := fun t => part t = part s) _ _ rfl fun _ ht _ _ => (hflow _ _ _).trans ht) fun _ ht _ _ => (hweir _ _ _).trans ht

theorem State.freshInput_keeps {α : Type} (part : State → α) (hlane : ∀ (t : State) i f, part (t.modLane i f) = part t) {s : State} {n : Nat}
    {x : α} (hdrop : part (s.dropShuffled n 0 none) = x) : part (s.freshInput n) = x :=
  List.foldlRecOn (motive := fun t => part t = x) _ _ hdrop fun _ ht _ _ => ite_keeps part ht ((hlane _ _ _).trans ht)

theorem State.dropShuffled_stream (s : State) (n lo : Nat) (hi : Option Nat) : ∃ w, (s.dropShuffled n lo hi).stream n =
    { s.stream n with batches := (s.stream n).batches.map w } := by
  obtain ⟨w, hw⟩ := State.dropShuffled_batches (fun t => t.stream n) (fun _ _ _ => rfl) s n lo hi
  rw [State.stream_modStream, State.noteAllStalls_stream] at hw
  exact ⟨w, hw⟩

theorem State.prepared_stream (s : State) (g : Graph) (n : Nat) (done : List Nat) : ∃ w, (s.prepared g n done).stream n =
    { s.stream n with batches := (s.stream n).batches.map w } := by
  have hfresh : ((s.forgetLaid n).freshFlows g n).stream n = s.stream n :=
    State.freshFlows_keeps (fun t => t.stream n) (fun _ _ _ => rfl) (fun _ _ _ => rfl) (s.forgetLaid n) g n
  have hstart : (((s.forgetLaid n).freshFlows g n).startStages g n [] done).stream n = s.stream n := by
    rw [State.startStages_nil, ← hfresh]
    rfl
  obtain ⟨w, hw⟩ := State.dropShuffled_stream (((s.forgetLaid n).freshFlows g n).startStages g n [] done) n 0 none
  rw [hstart] at hw
  exact ⟨w, State.freshInput_keeps (fun t => t.stream n) (fun _ _ _ => rfl) hw⟩

/-- The commands, the dispatchers and the graph of a state: what a stream that opens without table stages leaves. -/
def State.openFrame (s : State) : List Cmd × Tab Disp × Option Graph := (s.cmds, s.work.disps, s.work.graph)

theorem State.openFrame_eq_iff {s t : State} : s.openFrame = t.openFrame ↔
    s.cmds = t.cmds ∧ s.work.disps = t.work.disps ∧ s.work.graph = t.work.graph := by
  simp [State.openFrame]

/-- A change of the work that leaves dispatchers and graph. -/
theorem State.modWork_openFrame (s : State) {f : Work → Work} (hdisps : (f s.work).disps = s.work.disps) (hgraph : (f s.work).graph = s.work.graph) :
    (s.modWork f).openFrame = s.openFrame := by
  rw [State.openFrame, State.openFrame, State.modWork_cmds, State.modWork_work, hdisps, hgraph]

theorem State.prepared_openFrame (s : State) (g : Graph) (n : Nat) (done : List Nat) : (s.prepared g n done).openFrame = s.openFrame := by
  have hfresh : ((s.forgetLaid n).freshFlows g n).openFrame = s.openFrame :=
    (State.freshFlows_keeps State.openFrame (fun t _ _ => t.modWork_openFrame rfl rfl) (fun t _ _ => t.modWork_openFrame rfl rfl)
      (s.forgetLaid n) g n).trans (s.modWork_openFrame rfl rfl)
  have hstart : (((s.forgetLaid n).freshFlows g n).startStages g n [] done).openFrame = s.openFrame := by
    rw [State.startStages_nil, State.modWork_openFrame _ rfl rfl, hfresh]
  exact State.freshInput_keeps State.openFrame (fun t _ _ => t.modWork_openFrame rfl rfl)
    ((State.dropShuffled_keeps State.openFrame (fun t _ _ => t.modWork_openFrame rfl rfl) _ _ _ _ fun t _ => t.modWork_openFrame rfl rfl).trans hstart)

/-- A stream whose table stages are done, none having failed, is open. -/
theorem State.stageDone_opens {s : State} {n : Nat} (hphase : (s.stream n).phase = .opening) (hland : (s.stream n).landing = false)
    (hgone : ∀ k < 16, ∀ x ∈ (s.disp k).slots, x.2.stream = n → x.2.batch ≠ none) (hsrc : bitOf (s.stream n).src 12 = false)
    (hrows : (s.stream n).rows ≠ 0) : s.stageDone n 0 =
      (s.modStream n fun st => { st with
        phase := .open_, rows := (s.stream n).rows
        stop := if s.work.graph.any fun g => g.faulted then some st.released else st.stop
        stopStatus := if s.work.graph.any fun g => g.faulted then stBadDescriptor else st.stopStatus }).finish (s.stream n).openSeq stOk 0 := by
  have hnone : ((List.range 16).any fun k => (s.disp k).slots.any fun x => x.2.stream == n && x.2.batch.isNone) = false := by
    refine List.any_eq_false.mpr fun k hk => ?_
    rw [Bool.not_eq_true, List.any_eq_false]
    intro x hx
    have hne := hgone k (List.mem_range.mp hk) x hx
    by_cases h : x.2.stream = n
    · simpa [h, Option.isNone_iff_eq_none] using hne h
    · simp [h]
  have hsource : s.sourceRows n = (s.stream n).rows := by
    simp [State.sourceRows, hsrc]
  simp only [State.stageDone, hphase, hland, hnone, hsource, beq_eq_false_iff_ne.mpr hrows, bne_self_eq_false, Bool.or_self, Bool.false_eq_true,
    if_false]

section
variable {s : State} {seq src : Nat} {e : BusEnv} {c : Cmd} {g : Graph} (hbeg : Begins (s.env e) seq 5 c) (hd0 : s.inD0 = true)
  (hg : s.work.graph = some g)
include hbeg hd0 hg

theorem exec_openStream_unknown (hno : g.streams ≤ c.entry.stream) :
    exec (.openStream seq e src) s = .next ((Begun (s.env e) seq).finish seq stBadDescriptor 0) := by
  have hd0' : (s.env e).inD0 = true := hd0
  have hg' : (Begun (s.env e) seq).work.graph = some g := hg
  show execOpenStream seq e src s = _
  simp only [execOpenStream, hd0', Bool.not_true, Bool.false_eq_true, if_false, State.begin_of_begins (op := opOpen) hbeg, hg', if_pos hno]

variable (hlt : c.entry.stream < g.streams)
include hlt

theorem exec_openStream_inUse (huse : (s.stream c.entry.stream).phase ≠ .closed) :
    exec (.openStream seq e src) s = .next ((Begun (s.env e) seq).finish seq stBusy 0) := by
  have hd0' : (s.env e).inD0 = true := hd0
  have hg' : (Begun (s.env e) seq).work.graph = some g := hg
  have huse' : ((Begun (s.env e) seq).stream c.entry.stream).inUse = true := bne_iff_ne.mpr huse
  show execOpenStream seq e src s = _
  simp only [execOpenStream, hd0', Bool.not_true, Bool.false_eq_true, if_false, State.begin_of_begins (op := opOpen) hbeg, hg',
    if_neg (Nat.not_le.mpr hlt), huse', if_true]

variable (hclosed : (s.stream c.entry.stream).phase = .closed)
include hclosed

theorem exec_openStream_unread (hfail : envFails e (c.entry.p 3) (16 * c.entry.p 4) = true) :
    exec (.openStream seq e src) s = .next ((Begun (s.env e) seq).clearLimits.finish seq stBusError 0) := by
  have hd0' : (s.env e).inD0 = true := hd0
  have hg' : (Begun (s.env e) seq).work.graph = some g := hg
  have huse' : ((Begun (s.env e) seq).stream c.entry.stream).inUse = false := bne_eq_false_iff_eq.mpr hclosed
  have hread : (Begun (s.env e) seq).clearLimits.busRead e (c.entry.p 3) (16 * c.entry.p 4) = none := if_pos hfail
  show execOpenStream seq e src s = _
  simp only [execOpenStream, hd0', Bool.not_true, Bool.false_eq_true, if_false, State.begin_of_begins (op := opOpen) hbeg, hg',
    if_neg (Nat.not_le.mpr hlt), huse', hread]

/-- Past its slot ring OPEN_STREAM goes on under a variant that fits, where no table stage needs room. -/
theorem exec_openStream_ring (hok : envFails e (c.entry.p 3) (16 * c.entry.p 4) = false) (hfits : s.fits g.cfg = true) {ring : List Bytes}
    (hring : recs (readBytes (s.env e).mem.bus (c.entry.p 3) (16 * c.entry.p 4)) 0 16 (c.entry.p 4) = ring)
    (hgood : ∀ r ∈ ring, ringBad s (c.entry.p 5) r = false ∧ fieldAt r 0 8 % 4096 = 0) (hstages : g.stagesFor c.entry.stream src = []) :
    exec (.openStream seq e src) s = .next ((Begun (s.env e) seq).clearLimits.openWith g c ring src) := by
  have hd0' : (s.env e).inD0 = true := hd0
  have hg' : (Begun (s.env e) seq).work.graph = some g := hg
  have hg2 : (Begun (s.env e) seq).clearLimits.work.graph = some g := hg
  have huse' : ((Begun (s.env e) seq).stream c.entry.stream).inUse = false := bne_eq_false_iff_eq.mpr hclosed
  have hread : (Begun (s.env e) seq).clearLimits.busRead e (c.entry.p 3) (16 * c.entry.p 4) =
      some (readBytes (s.env e).mem.bus (c.entry.p 3) (16 * c.entry.p 4)) := if_neg (Bool.eq_false_iff.mp hok)
  have hbad : ring.any (ringBad (Begun (s.env e) seq).clearLimits (c.entry.p 5)) = false :=
    List.any_eq_false.mpr fun r hr => Bool.eq_false_iff.mp (hgood r hr).1
  have halign : (ring.any fun r => fieldAt r 0 8 % 4096 != 0) = false := List.any_eq_false.mpr fun r hr => by simp [(hgood r hr).2]
  have hfits' : (Begun (s.env e) seq).clearLimits.fits g.cfg = true := hfits
  have hvariant : (Begun (s.env e) seq).clearLimits.openVariant g = some (Begun (s.env e) seq).clearLimits := by
    simp only [State.openVariant, hfits', Bool.true_or, if_true]
  show execOpenStream seq e src s = _
  simp only [execOpenStream, hd0', Bool.not_true, Bool.false_eq_true, if_false, State.begin_of_begins (op := opOpen) hbeg, hg',
    if_neg (Nat.not_le.mpr hlt), huse', hread, hring, hbad, halign, hvariant, hg2, Option.getD_some, hstages, List.filter_nil, State.stageRoom_nil,
    if_true]
end

section
variable {s : State} {g : Graph} {c : Cmd} {ring : List Bytes} {src : Nat}

/-- A stream that opens without table stages, over an attached table. -/
def State.opening (s : State) (g : Graph) (c : Cmd) (ring : List Bytes) (src : Nat) : State :=
  (s.modStream c.entry.stream fun st => st.start c (ring.map parseRing) src (tget {} s.work.tables (src % 4096)).rows false).prepared g
    c.entry.stream (s.stagesDone g c.entry.stream)

theorem State.opening_stream : (s.opening g c ring src).stream c.entry.stream =
    (s.stream c.entry.stream).start c (ring.map parseRing) src (tget {} s.work.tables (src % 4096)).rows false := by
  obtain ⟨w, hw⟩ := State.prepared_stream (s.modStream c.entry.stream fun st =>
    st.start c (ring.map parseRing) src (tget {} s.work.tables (src % 4096)).rows false) g c.entry.stream (s.stagesDone g c.entry.stream)
  rw [State.opening, hw, State.stream_modStream]
  rfl

theorem State.opening_openFrame : (s.opening g c ring src).openFrame = s.openFrame :=
  (State.prepared_openFrame _ _ _ _).trans (s.modWork_openFrame rfl rfl)

theorem State.opening_cmds : (s.opening g c ring src).cmds = s.cmds := (State.openFrame_eq_iff.mp State.opening_openFrame).1

/-- OPEN_STREAM past its ring, its output, source and limits in order and no table stage needed. -/
theorem State.openWith_passes (hout : outBeyond g c.entry.stream (c.entry.p 5) = false)
    (hbad : srcBad s g c.entry.stream src = false) (hlim : srcLimit s g c.entry.stream src = false) (hstages : g.stagesFor c.entry.stream src = [])
    (hsrc : bitOf src 12 = false) (hfmt : (tget {} s.work.tables (src % 4096)).format = 3) :
    s.openWith g c ring src = (s.opening g c ring src).stageDone c.entry.stream 0 := by
  simp only [State.openWith, hout, hbad, hlim, hstages, hsrc, hfmt, List.filter_nil, bne_self_eq_false, Bool.and_false, Bool.false_and,
    Bool.false_eq_true, if_false]
  rfl

/-- What is then left to do is to open it, where its table has rows and no record of a table stage of its own stands on a cluster. -/
theorem State.stageDone_opening (hgraph : s.work.graph = some g) (hsrc : bitOf src 12 = false)
    (hrows : (tget {} s.work.tables (src % 4096)).rows ≠ 0)
    (hgone : ∀ k < 16, ∀ x ∈ (s.disp k).slots, x.2.stream = c.entry.stream → x.2.batch ≠ none) :
    (s.opening g c ring src).stageDone c.entry.stream 0 = ((s.opening g c ring src).modStream c.entry.stream fun st => { st with
      phase := .open_, rows := (tget {} s.work.tables (src % 4096)).rows
      stop := if g.faulted then some st.released else st.stop
      stopStatus := if g.faulted then stBadDescriptor else st.stopStatus }).finish c.seq stOk 0 := by
  have hstream := s.opening_stream (g := g) (c := c) (ring := ring) (src := src)
  obtain ⟨-, hdisps, hgraph'⟩ := State.openFrame_eq_iff.mp (s.opening_openFrame (g := g) (c := c) (ring := ring) (src := src))
  have hslots : ∀ k, (s.opening g c ring src).disp k = s.disp k := fun k => by rw [State.disp, hdisps]; rfl
  rw [State.stageDone_opens (by rw [hstream]; rfl) (by rw [hstream]; rfl) (fun k hk x hx => hgone k hk x (hslots k ▸ hx)) (by rw [hstream]; exact hsrc)
    (by rw [hstream]; exact hrows), hgraph', hgraph, hstream]
  rfl
end

/-- Settles O28: OPEN_STREAM in D0 with a graph loaded. -/
theorem openedStreamStartsAtBatchZero : Obligations.OpenedStreamStartsAtBatchZero := by
  intro s seq src e c g hbeg hd0 hg
  have hcmd := cmd_begun_isSome hbeg
  refine ⟨fun hno => ?_, fun hlt huse => ?_, fun hlt hclosed hfail => ?_, ?_⟩
  · exact ⟨_, exec_openStream_unknown hbeg hd0 hg hno, decided_finish _ _ hcmd, rfl⟩
  · exact ⟨_, exec_openStream_inUse hbeg hd0 hg hlt huse, decided_finish _ _ hcmd, rfl⟩
  · exact ⟨_, exec_openStream_unread hbeg hd0 hg hlt hclosed hfail, decided_finish _ _ hcmd, hclosed⟩
  · intro hlt hclosed hok hfits ring hgood hout hbad hlim hstages hsrc hfmt hrows hgone
    have hexec := exec_openStream_ring (src := src) hbeg hd0 hg hlt hclosed hok hfits rfl hgood hstages
    rw [State.openWith_passes (s := (Begun (s.env e) seq).clearLimits) hout hbad hlim hstages hsrc hfmt,
      State.stageDone_opening (s := (Begun (s.env e) seq).clearLimits) hg hsrc hrows hgone, State.seq_of_cmd hbeg.1] at hexec
    refine ⟨_, hexec, decided_finish _ _ ?_, ?_⟩
    · rw [State.cmd_of_cmds (State.modStream_cmds _ _ _), State.cmd_of_cmds State.opening_cmds]
      exact hcmd
    · rw [State.finish_stream, State.stream_modStream, State.opening_stream]
      refine ⟨rfl, rfl, rfl, rfl, rfl, rfl, rfl, rfl, rfl, rfl, rfl, fun hsound => ?_⟩
      rw [hsound]
      rfl

end Sys2Proof.Machine
end

section
/-! Proofs about chapter 15 (links): a completion timeout while a HANDOVER waits. -/

namespace Sys2Proof.Machine

/-! ### What an event adds to the count of posts (R432, R456) -/

theorem State.eventMessage_posts (s : State) (v : Nat) : (s.eventMessage v).evc.posts = s.evc.posts := by
  rw [State.eventMessage]
  split
  · rw [State.sendMsix_evc]
  · rw [State.sendPme]
    split <;> rfl

theorem State.postEvent_posts (s : State) (n : Nat) : (s.postEvent n).evc.posts = (s.evc.posts + 1) % 2 ^ 64 := by
  rw [State.postEvent]
  dsimp only
  split
  · rw [State.eventMessage_posts]
  · rfl

theorem State.cplTimeout_posts (s : State) : s.cplTimeout.evc.posts = (s.evc.posts + 1) % 2 ^ 64 :=
  State.postEvent_posts _ _

/-- A primary that goes FENCED posts that its pair state has changed. -/
theorem State.pairFence_posts {s : State} (h : s.pair.state ≠ .fenced) (reason : Nat) :
    (s.pairFence reason).evc.posts = (s.evc.posts + 1) % 2 ^ 64 := by
  rw [State.pairFence, State.pairSend_evc, State.setPair, if_neg (by simpa using h), State.postEvent_posts]
  rfl

/-- A HANDOVER that waited for the last issued write posts its event. -/
theorem State.handedOver_posts {s : State} (hhand : s.pair.handing = true) (hwrites : s.issuedWrites = false) (h : s.pair.state ≠ .fenced) :
    s.handedOver.evc.posts = (s.evc.posts + 1) % 2 ^ 64 := by
  rw [State.handedOver, hhand, hwrites, Bool.not_false, Bool.and_self, if_pos rfl]
  exact State.pairFence_posts (s := s.modPair fun x => { x with handing := false }) h 2

/-- A burst that has used up its attempts when its completion times out ends its descriptor; where that was the last write that a HANDOVER
waited for, the timeout and the fence each post an event. -/
theorem State.burstFails_posts {s : State} {c : Nat} {j : Job} {b : Burst} (rest : List Burst)
    (htries : (s.cplTimeout.chan c).cfg.retries c ≤ b.tries) (hhand : s.pair.handing = true) (hstate : s.pair.state ≠ .fenced)
    (hwrites : (s.cplTimeout.modChan c fun x => (x.failJob j 2 (j.desc.src + b.off) false).settleCfg).issuedWrites = false) :
    (s.burstFails c j b rest 2 false).evc.posts = ((s.evc.posts + 1) % 2 ^ 64 + 1) % 2 ^ 64 := by
  have hpair : s.cplTimeout.pair = s.pair := State.postEvent_pair _ _
  have hdone : (causeRetried 2 && decide (b.tries < (s.cplTimeout.chan c).cfg.retries c)) = false := by
    simp [Nat.not_lt.mpr htries]
  rw [State.burstFails]
  simp only [beq_self_eq_true, if_true, hdone, Bool.false_eq_true, if_false]
  rw [State.handedOver_posts (by rw [State.modChan_pair, hpair, hhand]) hwrites (by rwa [State.modChan_pair, hpair]), State.modChan_evc,
    State.cplTimeout_posts]

/-- An event that no channel has for its trigger changes no channel. -/
theorem feedTriggers_of_ne {src : Nat} {cs : Tab Chan} (h : ∀ k, (tget {} cs k).trigSrc ≠ src) : feedTriggers src cs = cs := by
  refine List.foldlRecOn (motive := fun t => t = cs) _ _ rfl fun t ht k _ => ?_
  subst ht
  exact if_neg (by simpa using h k)

theorem State.postEvent_chans (s : State) (n : Nat) : (s.postEvent n).mem.chans = feedTriggers n s.mem.chans := by
  simp only [State.postEvent]
  split
  · rw [State.eventMessage_mem]
  · simp only

theorem State.cplTimeout_chans {s : State} (h : ∀ k, (s.chan k).trigSrc ≠ 0x621) : s.cplTimeout.mem.chans = s.mem.chans := by
  rw [State.cplTimeout, State.postEvent_chans, State.modPci_mem]
  exact feedTriggers_of_ne h

/-! ### The counterexample: a paired primary with a HANDOVER that waits for one burst -/

/-- A transfer of 64 bytes from host memory to host memory. -/
def lastDesc : Desc :=
  { addr := 0, link := 0, op := 0, flags := 0, spaces := 0, crc := 0, len := 64, src := 0, dst := 4096, expect := 0, at_ := 0, cmp := 0, pulse := 0 }

/-- Its only burst, failed 8 times and issued again. -/
def lastBurst : Burst := { off := 0, len := 64, data := [], poisoned := false, bad := false, tries := 8, until_ := none, tq := 0 }

def lastJob : Job := { newJob lastDesc with fired := true, started := true, issued := 64, flight := [lastBurst] }

/-- A paired primary that is to hand over once the transfer of channel 0 is done. -/
def handingState : State :=
  { pair := { state := .paired, roleNow := 1, handing := true }, mem := { chans := [(0, { state := .run, job := some lastJob })] } }

theorem handingState_chans : handingState.cplTimeout.mem.chans = handingState.mem.chans := by
  refine State.cplTimeout_chans fun k => ?_
  by_cases h : k = 0 <;> simp [State.chan, handingState, tget, h]

theorem handingState_exec : exec .pcieCompletionTimeout handingState = .next (handingState.burstFails 0 lastJob lastBurst [] 2 false) := by
  rfl

theorem handingState_posts : (handingState.burstFails 0 lastJob lastBurst [] 2 false).evc.posts = 2 := by
  rw [State.burstFails_posts]
  · rfl
  · rw [State.chan, handingState_chans]
    decide
  · rfl
  · exact nofun
  · have hjrn : handingState.cplTimeout.jrn.accesses = [] := by
      rw [State.cplTimeout, State.postEvent_jrn]
      rfl
    rw [State.issuedWrites, State.modChan_jrn, hjrn, State.modChan, State.modMem, handingState_chans]
    rfl

/-- Refutes O53: where a completion timeout ends the last write that a HANDOVER waits for, the primary goes FENCED in the same step, and the
change of its pair state is posted beside the timeout: two posts, not one. -/
theorem not_resetsClearTheDevice : ¬ Obligations.ResetsClearTheDevice := by
  intro h
  obtain ⟨-, -, -, -, htimeout, -⟩ := h
  obtain ⟨u, hexec, -, hposts⟩ := htimeout handingState
  rw [handingState_exec] at hexec
  obtain rfl : _ = u := by simpa using hexec
  rw [handingState_posts] at hposts
  exact absurd hposts (by decide)

end Sys2Proof.Machine
end

section
/-! Proofs about chapter 05 (engine arithmetic): the body words of a stream program and their encoding (R154, R157). -/

namespace Sys2Proof

theorem wordParts_of_wordOf {op : Nat} {e : EngineId} {f : Fields} {c : Instr} (h : wordOf op e f = some c) :
    wordParts c = some (op, e, f) := by
  unfold wordOf at h
  split at h
  all_goals cases h
  all_goals rfl

theorem wordOf_of_wordParts {c : Instr} {op : Nat} {e : EngineId} {f : Fields} (h : wordParts c = some (op, e, f)) :
    wordOf op e f = some c := by
  unfold wordParts at h
  split at h
  all_goals cases h
  all_goals rfl

/-- The operation table's opcodes are bytes. -/
theorem wordOf_lt {op : Nat} {e : EngineId} {f : Fields} {c : Instr} (h : wordOf op e f = some c) : op < 256 := by
  unfold wordOf at h
  split at h
  all_goals cases h
  all_goals decide

/-- A number from bit `lo` on: its `n` bits there, and the rest above them. -/
theorem div_eq_cutBits_add (w lo n : Nat) : w / 2 ^ lo = cutBits w lo n + 2 ^ n * (w / 2 ^ (lo + n)) := by
  rw [cutBits, pow_add, ← Nat.div_div_eq_div_mul, Nat.mod_add_div]

theorem encodeFields_lt (f : Fields) {op : Nat} (h : op < 256) : encodeFields op f < 2 ^ 64 := by
  unfold encodeFields
  split <;> split <;> omega

theorem cutBits_encodeFields_opcode (f : Fields) {op : Nat} (h : op < 256) : cutBits (encodeFields op f) 0 8 = op := by
  unfold encodeFields cutBits
  split <;> split <;> omega

theorem decodeFields_encodeFields (f : Fields) {op : Nat} (h : op < 256) : decodeFields (encodeFields op f) = f := by
  obtain ⟨ty, vd, va, vb, vc, mask, mz, rnd, sat, sub, imm⟩ := f
  unfold decodeFields
  simp only [Fields.mk.injEq, Fin.ext_iff, Fin.val_ofNat]
  unfold encodeFields cutBits
  dsimp only
  cases mz <;> cases sat <;> simp <;> omega

/-- A flag of the layout as the number of its one bit. -/
theorem cutBits_one_eq (w lo : Nat) : (if (cutBits w lo 1 == 1) = true then 2 ^ lo else 0) = cutBits w lo 1 * 2 ^ lo := by
  have h : cutBits w lo 1 < 2 := Nat.mod_lt _ (by decide)
  obtain h0 | h1 : cutBits w lo 1 = 0 ∨ cutBits w lo 1 = 1 := by omega
  · simp [h0]
  · simp [h1]

theorem cutBits_mod {n m : Nat} (h : 2 ^ n = m) (w lo : Nat) : cutBits w lo n % m = cutBits w lo n := h ▸ Nat.mod_mod _ _

/-- The layout of R154 covers all 64 bits: each field takes up the number where the one below it ends. -/
theorem encodeFields_decodeFields {w : Nat} (h : w < 2 ^ 64) : encodeFields (cutBits w 0 8) (decodeFields w) = w := by
  have hop := div_eq_cutBits_add w 0 8
  have hty := div_eq_cutBits_add w 8 8
  have hvd := div_eq_cutBits_add w 16 5
  have hva := div_eq_cutBits_add w 21 5
  have hvb := div_eq_cutBits_add w 26 5
  have hvc := div_eq_cutBits_add w 31 5
  have hmask := div_eq_cutBits_add w 36 3
  have hmz := div_eq_cutBits_add w 39 1
  have hrnd := div_eq_cutBits_add w 40 3
  have hsat := div_eq_cutBits_add w 43 1
  have hsub := div_eq_cutBits_add w 44 4
  have himm := div_eq_cutBits_add w 48 16
  have hend : w / 2 ^ 64 = 0 := Nat.div_eq_of_lt h
  unfold encodeFields decodeFields
  simp only [Fin.val_ofNat, cutBits_one_eq, cutBits_mod (show 2 ^ 8 = 256 from rfl), cutBits_mod (show 2 ^ 5 = 32 from rfl),
    cutBits_mod (show 2 ^ 3 = 8 from rfl), cutBits_mod (show 2 ^ 4 = 16 from rfl), cutBits_mod (show 2 ^ 16 = 65536 from rfl)]
  omega

/-- Settles O41: the opcode is a byte, and the layout of R154 gives every field bits of its own that together are all 64. -/
theorem bodyWordsEncodeAndDecode : Obligations.BodyWordsEncodeAndDecode := by
  refine ⟨fun e f op c h => ?_, fun e w c hw h => ?_, fun c op e f => wordOf_of_wordParts⟩
  · have hop := wordOf_lt h
    refine ⟨encodeFields op f, ?_, encodeFields_lt f hop, ?_⟩
    · rw [encodeStreamWord, wordParts_of_wordOf h, Option.map_some]
    · rw [decodeStreamWord, cutBits_encodeFields_opcode f hop, decodeFields_encodeFields f hop, h]
  · rw [encodeStreamWord, wordParts_of_wordOf h, Option.map_some, encodeFields_decodeFields hw]

end Sys2Proof
end

section
/-! Proofs about chapter 05 (engine arithmetic): the layer on stream-program words. A word command issues a body over the registers of its engine;
what a lane, a mask bit and the flags are afterwards follows from the body alone. -/

namespace Sys2Proof.Machine

/-! ### A word command as the issue of a body (R156) -/

/-- Command `c`, in state `s`, is word `op` of an engine, and does to engines, cores, stores and memories what the issue of `body` does. -/
structure WordBody (c : Instr) (s : State) (op : Nat) (id : EngineId) (f : Fields) (body : Engine → Engine) : Prop where
  parts : wordParts c = some (op, id, f)
  runs : s.issues id op f = true → ∃ u, exec c s = .next u ∧ u.work.engines = (s.issue op id f body).work.engines ∧
    u.work.cores = (s.issue op id f body).work.cores ∧ u.work.stores = (s.issue op id f body).work.stores ∧ u.mem = (s.issue op id f body).mem

theorem issues_of_nextWord {c : Instr} {s : State} {op : Nat} {id : EngineId} {f : Fields} (h : NextWord c s) (hp : wordParts c = some (op, id, f)) :
    s.issues id op f = true := by
  obtain ⟨op', id', f', hp', hi⟩ := h
  rw [hp] at hp'
  cases hp'
  exact hi

/-- What completes with `P` whenever it is issued completes with `P` as the next word. -/
theorem ends_of_issues {c : Instr} {s : State} {op : Nat} {id : EngineId} {f : Fields} {P : State → Prop} (hp : wordParts c = some (op, id, f))
    (h : s.issues id op f = true → ∃ u, exec c s = .next u ∧ P u) : Ends c s P :=
  fun hn => h (issues_of_nextWord hn hp)

theorem ends_mono {c : Instr} {s : State} {P Q : State → Prop} (h : Ends c s P) (hpq : ∀ u, P u → Q u) : Ends c s Q := by
  intro hn
  obtain ⟨u, hu, hP⟩ := h hn
  exact ⟨u, hu, hpq u hP⟩

section
variable {c : Instr} {s : State} {op : Nat} {id : EngineId} {f : Fields} {body : Engine → Engine}

theorem WordBody.of_issue (hp : wordParts c = some (op, id, f)) (hx : exec c s = .next (s.issue op id f body)) : WordBody c s op id f body :=
  ⟨hp, fun _ => ⟨_, hx, rfl, rfl, rfl, rfl⟩⟩

theorem State.issueNorm_of_none (h : isFltTy f.ty.val = true → s.normAt id op = none) : s.issueNorm op id f body = s.issue op id f body := by
  have hnone : (s.normAt id op).filter (fun _ => isFltTy f.ty.val) = none := by
    cases hf : isFltTy f.ty.val
    · simp
    · simp [h hf]
  rw [State.issueNorm, hnone]

theorem State.issueNorm_of_some {n : Norm} (hf : isFltTy f.ty.val = true) (hn : s.normAt id op = some n) (hi : s.issues id op f = true) :
    s.issueNorm op id f body = (s.issue op id f (normed n (s.normParams n) f)).modQuern id.cluster.val fun q =>
      { q with nanInputs := sat32 q.nanInputs (normOddLanes n f (s.engine (engineNo id))) } := by
  have hsome : (s.normAt id op).filter (fun _ => isFltTy f.ty.val) = some n := by simp [hn, hf]
  rw [State.issueNorm, hsome]
  simp [hi]

/-- A word that may compute a normalisation, and does not. -/
theorem WordBody.of_issueNorm (hp : wordParts c = some (op, id, f)) (hx : exec c s = .next (s.issueNorm op id f body))
    (h : isFltTy f.ty.val = true → s.normAt id op = none) : WordBody c s op id f body :=
  .of_issue hp (by rw [hx, State.issueNorm_of_none h])

/-- A word that computes a normalisation. -/
theorem WordBody.of_norm {n : Norm} (hp : wordParts c = some (op, id, f)) (hx : exec c s = .next (s.issueNorm op id f body))
    (hf : isFltTy f.ty.val = true) (hn : s.normAt id op = some n) : WordBody c s op id f (normed n (s.normParams n) f) :=
  ⟨hp, fun hi => ⟨_, hx.trans (congrArg _ (State.issueNorm_of_some hf hn hi)), rfl, rfl, rfl, rfl⟩⟩

/-- The registers that a word's body starts from: its engine's, no flag raised. -/
def State.regsOf (s : State) (id : EngineId) : Engine := { s.engine (engineNo id) with flags := 0 }

theorem regsOf_lane (sz j i : Nat) : (s.regsOf id).lane sz j i = (s.engine (engineNo id)).lane sz j i := rfl
theorem regsOf_src (sz j i : Nat) : (s.regsOf id).src sz j i = laneIn s id sz j i := rfl
theorem regsOf_on (m i : Nat) : (s.regsOf id).on m i = (s.engine (engineNo id)).on m i := rfl

/-- The engine of a word after it. -/
theorem WordBody.engine_after (h : WordBody c s op id f body) : Ends c s fun u => u.engine (engineNo id) =
    nextWord (s.core (coreNo id)).ctx
      { body (s.regsOf id) with flags := Nat.lor (s.engine (engineNo id)).flags (body (s.regsOf id)).flags } ((s.engine (engineNo id)).word + 1) := by
  refine ends_of_issues h.parts fun hi => ?_
  obtain ⟨u, hu, heng, -⟩ := h.runs hi
  refine ⟨u, hu, ?_⟩
  rw [State.engine, heng]
  exact State.issue_engine s id op f body hi

theorem nextWord_lane (cx : Option ProgCtx) (e : Engine) (w sz j i : Nat) : (nextWord cx e w).lane sz j i = e.lane sz j i := by
  simp only [Engine.lane, Engine.isValid, Engine.reg, nextWord_reg, nextWord_valid]

theorem Nat.land_lor_of_land {a b x : Nat} (h : Nat.land b x = x) : Nat.land (Nat.lor a b) x = x := by
  refine Nat.eq_of_testBit_eq fun i => ?_
  have hb : (b &&& x).testBit i = x.testBit i := congrArg (Nat.testBit · i) h
  change ((a ||| b) &&& x).testBit i = x.testBit i
  simp only [Nat.testBit_and, Nat.testBit_or] at hb ⊢
  cases a.testBit i <;> simp_all

/-- What a word leaves in a register's lane and raises, from its body. -/
theorem WordBody.takes (h : WordBody c s op id f body) {vd sz i fl : Nat} {r : Option Nat}
    (hlane : (body (s.regsOf id)).lane sz vd i = (r.isSome, r.getD 0)) (hfl : Nat.land (body (s.regsOf id)).flags fl = fl) :
    Takes c s id vd sz i r fl := by
  refine ends_mono h.engine_after fun u hu => ?_
  rw [hu, nextWord_lane, nextWord_flags]
  exact ⟨hlane, Nat.land_lor_of_land hfl⟩

theorem WordBody.lane_after (h : WordBody c s op id f body) (vd sz i : Nat) :
    Ends c s fun u => (u.engine (engineNo id)).lane sz vd i = (body (s.regsOf id)).lane sz vd i := by
  refine ends_mono h.engine_after fun u hu => ?_
  rw [hu, nextWord_lane]
  rfl

/-! ### Words that write VD lane by lane -/

/-- The flags of an executed lane are raised by the word. -/
theorem Engine.writeLanes_flags (e : Engine) {sz i : Nat} {g : Nat → LaneRes} (hi : i < 32 / sz) (hon : e.on f.mask.val i = true) :
    Nat.land (e.writeLanes f sz g).flags (g i).2 = (g i).2 :=
  Nat.land_lor_of_land (land_orFlags _ _ (List.mem_map.mpr ⟨i, List.mem_range.mpr hi, by rw [if_pos hon]⟩))

theorem WordBody.takes_writeLanes (h : WordBody c s op id f body) {sz i fl : Nat} {r : Option Nat} {g : Nat → LaneRes}
    (hb : body (s.regsOf id) = (s.regsOf id).writeLanes f sz g) (hi : i < 32 / sz) (hon : LaneOn s id f i) (hg : g i = (r, fl))
    (hr : ∀ v, r = some v → v < 2 ^ (8 * sz)) : Takes c s id f.vd.val sz i r fl := by
  have hon' : (s.regsOf id).on f.mask.val i = true := hon
  refine h.takes ?_ ?_
  · rw [hb, Engine.lane_writeLanes _ f sz g hi, Engine.masked, if_pos hon', hg, LaneRes.take]
    cases r with
    | none => simp
    | some v => simp [Nat.mod_eq_of_lt (hr v rfl)]
  · have := Engine.writeLanes_flags (f := f) (g := g) (s.regsOf id) hi hon'
    rwa [hg, ← hb] at this

theorem forTypes_of {ts : TypeSet} {e : Engine} {g : LTy → Engine} {t : LTy} (hts : ts.has f.ty.val = true) (ht : laneTy f.ty.val = some t) :
    forTypes ts f e g = g t := by
  rw [forTypes, if_pos hts, withTy, ht]

variable {ts : TypeSet} {t : LTy} {i fl : Nat} {r : Option Nat}

theorem WordBody.takes_lanes {g : LTy → Engine → Nat → LaneRes}
    (h : WordBody c s op id f fun e => forTypes ts f e fun t => e.writeLanes f t.size (g t e)) (hts : ts.has f.ty.val = true)
    (ht : laneTy f.ty.val = some t) (hi : i < 32 / t.size) (hon : LaneOn s id f i) (hg : g t (s.regsOf id) i = (r, fl))
    (hr : ∀ v, r = some v → v < 2 ^ (8 * t.size)) : Takes c s id f.vd.val t.size i r fl :=
  h.takes_writeLanes (forTypes_of hts ht) hi hon hg hr

theorem WordBody.takes_map1 {op1 : LTy → Nat → LaneRes} {a : Nat}
    (h : WordBody c s op id f fun e => forTypes ts f e fun t => e.map1 f t.size (op1 t)) (hts : ts.has f.ty.val = true)
    (ht : laneTy f.ty.val = some t) (hi : i < 32 / t.size) (hon : LaneOn s id f i) (ha : laneIn s id t.size f.va.val i = some a)
    (hop : op1 t a = (r, fl)) (hr : ∀ v, r = some v → v < 2 ^ (8 * t.size)) : Takes c s id f.vd.val t.size i r fl :=
  h.takes_writeLanes (forTypes_of hts ht) hi hon (by rw [regsOf_src, ha]; exact hop) hr

theorem WordBody.takes_map2 {op2 : LTy → Nat → Nat → LaneRes} {a b : Nat}
    (h : WordBody c s op id f fun e => forTypes ts f e fun t => e.map2 f t.size (op2 t)) (hts : ts.has f.ty.val = true)
    (ht : laneTy f.ty.val = some t) (hi : i < 32 / t.size) (hon : LaneOn s id f i) (ha : laneIn s id t.size f.va.val i = some a)
    (hb : laneIn s id t.size f.vb.val i = some b) (hop : op2 t a b = (r, fl)) (hr : ∀ v, r = some v → v < 2 ^ (8 * t.size)) :
    Takes c s id f.vd.val t.size i r fl :=
  h.takes_writeLanes (forTypes_of hts ht) hi hon (by rw [regsOf_src, regsOf_src, ha, hb]; exact hop) hr

theorem WordBody.takes_map3 {op3 : LTy → Nat → Nat → Nat → LaneRes} {a b d : Nat}
    (h : WordBody c s op id f fun e => forTypes ts f e fun t => e.map3 f t.size (op3 t)) (hts : ts.has f.ty.val = true)
    (ht : laneTy f.ty.val = some t) (hi : i < 32 / t.size) (hon : LaneOn s id f i) (ha : laneIn s id t.size f.va.val i = some a)
    (hb : laneIn s id t.size f.vb.val i = some b) (hd : laneIn s id t.size f.vc.val i = some d) (hop : op3 t a b d = (r, fl))
    (hr : ∀ v, r = some v → v < 2 ^ (8 * t.size)) : Takes c s id f.vd.val t.size i r fl :=
  h.takes_writeLanes (forTypes_of hts ht) hi hon
    (by rw [regsOf_src, regsOf_src, regsOf_src, ha, hb, hd]; exact hop) hr

end

/-- A lane that a source gives fits its width. -/
theorem laneIn_lt {s : State} {id : EngineId} {sz j i a : Nat} (h : laneIn s id sz j i = some a) : a < 2 ^ (8 * sz) := by
  rw [laneIn, Engine.src] at h
  split at h
  · cases h
    exact Nat.mod_lt _ (by positivity)
  · cases h

/-! ### Integer types (R104, R134) -/

theorem isIntTy_laneTy {c : Nat} {t : LTy} (h : isIntTy c = true) (ht : laneTy c = some t) :
    (t.kind = .uint ∨ t.kind = .sint) ∧ (t.size = 1 ∨ t.size = 2 ∨ t.size = 4 ∨ t.size = 8) := by
  unfold laneTy at ht
  split at ht
  all_goals cases ht
  all_goals revert h
  all_goals decide

end Sys2Proof.Machine
end

section
/-! Proofs about chapter 05 (engine arithmetic): the integer words (R145 to R147). -/

namespace Sys2Proof.Machine

theorem wrapN_lt (n : Nat) (x : Int) : wrapN n x < 2 ^ n := by
  have hpos : (0 : Int) < 2 ^ n := by positivity
  have hlt := Int.emod_lt_of_pos x hpos
  have hnn := Int.emod_nonneg x hpos.ne'
  rw [wrapN]
  zify
  rwa [Int.toNat_of_nonneg hnn]

/-! ### R145: results that wrap or clamp -/

theorem fitInt_eq_fitted (t : LTy) (sat : Bool) (x : Int) : fitInt t sat x = fitted t sat x := by
  unfold fitInt fitted
  by_cases h : tyMin t ≤ x ∧ x ≤ tyMax t
  · have hin : (decide (x < tyMin t) || decide (tyMax t < x)) = false := by simp; omega
    simp [h, hin]
  · have hout : (decide (x < tyMin t) || decide (tyMax t < x)) = true := by simp; omega
    have hout' : (decide (tyMin t ≤ x) && decide (x ≤ tyMax t)) = false := by simp; omega
    rw [hout, hout', Bool.and_true]
    rfl

theorem okExact_of_int {t : LTy} (hk : t.kind = .uint ∨ t.kind = .sint) (sat : Bool) (x : Int) :
    okExact t sat x = (some (fitted t sat x).1, (fitted t sat x).2) := by
  obtain hk | hk := hk <;> simp only [okExact, hk, okInt, fitInt_eq_fitted]

theorem fitted_lt (t : LTy) (sat : Bool) (x : Int) : (fitted t sat x).1 < 2 ^ (8 * t.size) := by
  unfold fitted
  split
  · exact wrapN_lt _ _
  · exact wrapN_lt _ _

theorem some_fitted_lt (t : LTy) (sat : Bool) (x : Int) : ∀ v, some (fitted t sat x).1 = some v → v < 2 ^ (8 * t.size) := by
  rintro v ⟨⟩
  exact fitted_lt t sat x

theorem laneNeg_of_int {t : LTy} (hk : t.kind = .uint ∨ t.kind = .sint) (f : Fields) (a : Nat) :
    laneNeg t f a = (some (fitted t f.sat (-laneInt t a)).1, (fitted t f.sat (-laneInt t a)).2) := by
  rw [← okExact_of_int hk]
  obtain hk | hk := hk <;> simp only [laneNeg, hk]

theorem laneAbs_of_int {t : LTy} (hk : t.kind = .uint ∨ t.kind = .sint) (f : Fields) (a : Nat) :
    laneAbs t f a = (some (fitted t f.sat (laneInt t a).natAbs).1, (fitted t f.sat (laneInt t a).natAbs).2) := by
  rw [← okExact_of_int hk]
  obtain hk | hk := hk <;> simp only [laneAbs, hk]

theorem laneAdd_of_int {t : LTy} (hk : t.kind = .uint ∨ t.kind = .sint) (f : Fields) (neg : Bool) (a b : Nat) :
    laneAdd t f neg a b = okExact t f.sat (if neg then laneInt t a - laneInt t b else laneInt t a + laneInt t b) := by
  obtain hk | hk := hk <;> simp only [laneAdd, hk]

theorem laneMul_of_int {t : LTy} (hk : t.kind = .uint ∨ t.kind = .sint) (f : Fields) (a b : Nat) :
    laneMul t f a b = okExact t f.sat (laneInt t a * laneInt t b) := by
  obtain hk | hk := hk <;> simp only [laneMul, okExact, hk]

theorem arith_has_of_int {c : Nat} (h : isIntTy c = true) : TypeSet.arith.has c = true := by simp [TypeSet.has, h]

/-- Settles O30: each word's lane function is the exact result fitted into the type. -/
theorem integerLanesWrapOrClamp : Obligations.IntegerLanesWrapOrClamp := by
  intro s id f t i a hint ht hi hon ha
  have hk := (isIntTy_laneTy hint ht).1
  have har := arith_has_of_int hint
  refine ⟨?_, ?_, fun b hb => ⟨?_, ?_, ?_, ?_⟩⟩
  · exact (WordBody.of_issue (body := wordNeg f) rfl rfl).takes_map1 har ht hi hon ha (laneNeg_of_int hk f a) (some_fitted_lt _ _ _)
  · exact (WordBody.of_issue (body := wordAbs f) rfl rfl).takes_map1 har ht hi hon ha (laneAbs_of_int hk f a) (some_fitted_lt _ _ _)
  · exact (WordBody.of_issue (body := wordAdd f) rfl rfl).takes_map2 har ht hi hon ha hb
      ((laneAdd_of_int hk f false a b).trans (okExact_of_int hk _ _)) (some_fitted_lt _ _ _)
  · exact (WordBody.of_issue (body := wordSub f) rfl rfl).takes_map2 har ht hi hon ha hb
      ((laneAdd_of_int hk f true a b).trans (okExact_of_int hk _ _)) (some_fitted_lt _ _ _)
  · exact (WordBody.of_issue (body := wordMul f) rfl rfl).takes_map2 har ht hi hon ha hb
      ((laneMul_of_int hk f a b).trans (okExact_of_int hk _ _)) (some_fitted_lt _ _ _)
  · refine (WordBody.of_issue (body := wordMulh f) rfl rfl).takes_map2 hint ht hi hon ha hb rfl ?_
    rintro v ⟨⟩
    exact wrapN_lt _ _

/-! ### R146: division -/

section
variable {t : LTy} (f : Fields) (q : Int → Int → Int) (rem : Bool) {a b : Nat}

theorem laneDivInt_lt : ∀ v, (laneDivInt t f q rem a b).1 = some v → v < 2 ^ (8 * t.size) := by
  intro v
  simp only [laneDivInt]
  split
  · exact nofun
  · split
    · split
      · rintro ⟨⟩
        positivity
      · split
        · rintro ⟨⟩
          exact wrapN_lt _ _
        · rintro ⟨⟩
          exact wrapN_lt _ _
    · rintro ⟨⟩
      exact wrapN_lt _ _

theorem laneDivInt_by_zero (hy : laneInt t b = 0) : laneDivInt t f q rem a b = (none, flagDZ) := by
  simp [laneDivInt, hy]

theorem laneDivInt_min (hs : t.kind.signed = true) (hx : laneInt t a = tyMin t) (hy : laneInt t b = -1) :
    laneDivInt t f q rem a b = if rem then (some 0, 0) else if f.sat then (some (wrapN (8 * t.size) (tyMax t)), flagSAT)
      else (some (wrapN (8 * t.size) (tyMin t)), flagOF) := by
  simp [laneDivInt, hs, hx, hy]

theorem laneDivInt_of_ne (hy : laneInt t b ≠ 0) (h : ¬ (t.kind.signed = true ∧ laneInt t a = tyMin t ∧ laneInt t b = -1)) :
    laneDivInt t f q rem a b = (some (wrapN (8 * t.size)
      (if rem then laneInt t a - laneInt t b * q (laneInt t a) (laneInt t b) else q (laneInt t a) (laneInt t b))), 0) := by
  have hmin : (t.kind.signed && laneInt t a == tyMin t && laneInt t b == -1) = false := by
    rw [← Bool.not_eq_true]
    simpa [and_assoc] using h
  simp [laneDivInt, hy, hmin]

theorem laneDiv_of_int (hk : t.kind = .uint ∨ t.kind = .sint) : laneDiv t f a b = laneDivInt t f divTrunc false a b := by
  obtain hk | hk := hk <;> simp only [laneDiv, hk]

end

/-- Settles O31: the zero divisor, the overflowing quotient, and every other pair of operands. -/
theorem divisionLanes : Obligations.DivisionLanes := by
  intro s id f t i a b hint ht hi hon ha hb x y n
  have hdiv : ∀ r fl, laneDivInt t f divTrunc false a b = (r, fl) → Takes (.div id f) s id f.vd.val t.size i r fl := fun r fl hr =>
    (WordBody.of_issue (body := wordDiv f) rfl rfl).takes_map2 (arith_has_of_int hint) ht hi hon ha hb
      ((laneDiv_of_int f (isIntTy_laneTy hint ht).1).trans hr) fun v hv => laneDivInt_lt f divTrunc false v (by rw [hr, hv])
  have hdivf : ∀ r fl, laneDivInt t f divFloor false a b = (r, fl) → Takes (.divf id f) s id f.vd.val t.size i r fl := fun r fl hr =>
    (WordBody.of_issue (body := wordDivf f) rfl rfl).takes_map2 hint ht hi hon ha hb hr fun v hv => laneDivInt_lt f _ _ v (by rw [hr, hv])
  have hrem : ∀ r fl, laneDivInt t f divTrunc true a b = (r, fl) → Takes (.rem id f) s id f.vd.val t.size i r fl := fun r fl hr =>
    (WordBody.of_issue (body := wordRem f) rfl rfl).takes_map2 hint ht hi hon ha hb hr fun v hv => laneDivInt_lt f _ _ v (by rw [hr, hv])
  have hmodf : ∀ r fl, laneDivInt t f divFloor true a b = (r, fl) → Takes (.modf id f) s id f.vd.val t.size i r fl := fun r fl hr =>
    (WordBody.of_issue (body := wordModf f) rfl rfl).takes_map2 hint ht hi hon ha hb hr fun v hv => laneDivInt_lt f _ _ v (by rw [hr, hv])
  refine ⟨fun hy => ?_, fun hs hx hy => ⟨fun hsat => ?_, fun hsat => ?_, ?_, ?_⟩, fun hy hne => ?_⟩
  · exact ⟨hdiv _ _ (laneDivInt_by_zero f _ _ hy), hrem _ _ (laneDivInt_by_zero f _ _ hy), hdivf _ _ (laneDivInt_by_zero f _ _ hy),
      hmodf _ _ (laneDivInt_by_zero f _ _ hy)⟩
  · exact ⟨hdiv _ _ (by rw [laneDivInt_min f _ _ hs hx hy, hsat]; rfl), hdivf _ _ (by rw [laneDivInt_min f _ _ hs hx hy, hsat]; rfl)⟩
  · exact ⟨hdiv _ _ (by rw [laneDivInt_min f _ _ hs hx hy, hsat]; rfl), hdivf _ _ (by rw [laneDivInt_min f _ _ hs hx hy, hsat]; rfl)⟩
  · exact hrem _ _ (laneDivInt_min f _ _ hs hx hy)
  · exact hmodf _ _ (laneDivInt_min f _ _ hs hx hy)
  · exact ⟨hdiv _ _ (laneDivInt_of_ne f _ _ hy hne), hrem _ _ (laneDivInt_of_ne f _ _ hy hne), hdivf _ _ (laneDivInt_of_ne f _ _ hy hne),
      hmodf _ _ (laneDivInt_of_ne f _ _ hy hne)⟩

/-! ### R147: shifts, bit counts and bitwise words -/

theorem laneShift_lt (t : LTy) (k : Nat) {a : Nat} (c : Nat) (ha : a < 2 ^ (8 * t.size)) : laneShift t k a c < 2 ^ (8 * t.size) := by
  unfold laneShift
  dsimp only
  split
  · exact Nat.mod_lt _ (by positivity)
  · exact (Nat.div_le_self _ _).trans_lt ha
  · exact wrapN_lt _ _
  · exact Nat.mod_lt _ (by positivity)

/-- A shift word takes its count from the immediate or from VB. -/
theorem WordBody.takes_shift {cmd : Instr} {s : State} {op : Nat} {id : EngineId} {f : Fields} {k i a c : Nat} {t : LTy}
    (h : WordBody cmd s op id f fun e => forTypes .int f e fun _ => e.shiftWord f k) (hint : isIntTy f.ty.val = true)
    (ht : laneTy f.ty.val = some t) (hi : i < 32 / t.size) (hon : LaneOn s id f i) (ha : laneIn s id t.size f.va.val i = some a)
    (hc : f.sub.val % 2 = 1 ∧ c = f.imm.val % 64 % (8 * t.size) ∨
      f.sub.val % 2 = 0 ∧ ∃ b, laneIn s id t.size f.vb.val i = some b ∧ c = b % (8 * t.size)) :
    Takes cmd s id f.vd.val t.size i (some (laneShift t k a c)) 0 := by
  have hbody : ∀ e : Engine, (forTypes .int f e fun _ => e.shiftWord f k) =
      if f.sub.val % 2 == 1 then e.map1 f t.size fun a => (some (laneShift t k a (shiftCount t f 0)), 0)
      else e.map2 f t.size fun a b => (some (laneShift t k a (shiftCount t f b)), 0) := fun e => by
    rw [forTypes_of (ts := .int) hint ht, Engine.shiftWord, withTy, ht]
  have hlt : ∀ v, some (laneShift t k a c) = some v → v < 2 ^ (8 * t.size) := by
    rintro v ⟨⟩
    exact laneShift_lt t k c (laneIn_lt ha)
  obtain ⟨hsub, rfl⟩ | ⟨hsub, b, hb, rfl⟩ := hc
  · refine h.takes_writeLanes (by rw [hbody, hsub]; rfl) hi hon ?_ hlt
    rw [regsOf_src, ha]
    simp [shiftCount, hsub]
  · refine h.takes_writeLanes (by rw [hbody, hsub]; rfl) hi hon ?_ hlt
    rw [regsOf_src, regsOf_src, ha, hb]
    simp [shiftCount, hsub]

theorem popCount_eq (n : Nat) : ∀ a, popCount n a = ((List.range n).filter fun j => a.testBit j).length := by
  induction n with
  | zero => intro a; rfl
  | succ n ih =>
    intro a
    have hsucc : (List.filter (fun j => a.testBit j) (List.map Nat.succ (List.range n))).length = popCount n (a / 2) := by
      rw [List.filter_map, List.length_map, ih]
      refine congrArg List.length (List.filter_congr fun j _ => ?_)
      simp [Nat.testBit_succ]
    rw [popCount, List.range_succ_eq_map, List.filter_cons, ← hsucc]
    obtain h | h := Nat.mod_two_eq_zero_or_one a <;> simp [Nat.testBit_zero, h, Nat.add_comm]

theorem popCount_le (n a : Nat) : popCount n a ≤ n := by
  rw [popCount_eq]
  exact (List.length_filter_le _ _).trans_eq List.length_range

/-- Clearing trailing zeros: the lowest set bit decides. -/
theorem trailZeros_of_lowest (m : Nat) : ∀ (h n : Nat), 2 ^ h * (2 * m + 1) < 2 ^ n → trailZeros n (2 ^ h * (2 * m + 1)) = h := by
  intro h
  induction h with
  | zero =>
    intro n hn
    cases n with
    | zero => simp at hn
    | succ n => simp [trailZeros]
  | succ h ih =>
    intro n hn
    have hdouble : 2 ^ (h + 1) * (2 * m + 1) = 2 * (2 ^ h * (2 * m + 1)) := by ring
    cases n with
    | zero =>
      have : 0 < 2 ^ (h + 1) * (2 * m + 1) := by positivity
      simp only [pow_zero] at hn
      omega
    | succ n =>
      rw [hdouble, trailZeros, Nat.mul_mod_right, Nat.mul_div_cancel_left _ (by decide), if_neg (by decide)]
      rw [hdouble, pow_succ] at hn
      rw [ih n (by omega), Nat.add_comm]

theorem trailZeros_zero (n : Nat) : trailZeros n 0 = n := by
  induction n with
  | zero => rfl
  | succ n ih => simp [trailZeros, ih, Nat.add_comm]

theorem leadZeros_of_highest {n h m : Nat} (hm : m < 2 ^ h) : leadZeros n (2 ^ h + m) = n - 1 - h := by
  have hpos : 2 ^ h + m ≠ 0 := by positivity
  have hlog : (2 ^ h + m).log2 = h := (Nat.log2_eq_iff hpos).mpr ⟨by omega, by rw [pow_succ]; omega⟩
  rw [leadZeros, hlog, if_neg (by simp)]

theorem bitOperand_of_int {t : LTy} (hk : t.kind = .uint ∨ t.kind = .sint) (a : Nat) : bitOperand t a = a := by
  obtain hk | hk := hk <;> simp [bitOperand, hk]

theorem laneNot_of_int {t : LTy} (hk : t.kind = .uint ∨ t.kind = .sint) (a : Nat) : laneNot t a = 2 ^ (8 * t.size) - 1 - a := by
  obtain hk | hk := hk <;> simp [laneNot, hk]

theorem bitOperand_bool (n a : Nat) : bitOperand ⟨n, .bool⟩ a = b2n (a != 0) := rfl

theorem laneNot_bool (n a : Nat) : laneNot ⟨n, .bool⟩ a = b2n (a == 0) := by
  by_cases h : a = 0 <;> simp [laneNot, bitOperand, b2n, h]

theorem land_b2n (p q : Bool) : Nat.land (b2n p) (b2n q) = b2n (p && q) := by
  cases p <;> cases q <;> rfl

theorem lor_b2n (p q : Bool) : Nat.lor (b2n p) (b2n q) = b2n (p || q) := by
  cases p <;> cases q <;> rfl

theorem xor_b2n (p q : Bool) : Nat.xor (b2n p) (b2n q) = b2n (p != q) := by
  cases p <;> cases q <;> rfl

theorem intBool_has_of_int {c : Nat} (h : isIntTy c = true) : TypeSet.intBool.has c = true := by simp [TypeSet.has, h]

theorem some_lt {v n : Nat} (h : v < n) : ∀ w, some v = some w → w < n := by
  rintro w ⟨⟩
  exact h

/-- Settles O32: the shifts by their count, the counts and bitwise words on integers, the bitwise words on BOOL. -/
theorem shiftAndBitLanes : Obligations.ShiftAndBitLanes := by
  refine ⟨fun s id f t i a c hint ht hi hon ha hc => ?_, fun s id f t i a hint ht hi hon ha => ?_, fun s id f i a hty hi hon ha => ?_⟩
  · exact ⟨(WordBody.of_issue (body := wordShl f) rfl rfl).takes_shift hint ht hi hon ha hc,
      (WordBody.of_issue (body := wordShr f) rfl rfl).takes_shift hint ht hi hon ha hc,
      (WordBody.of_issue (body := wordSar f) rfl rfl).takes_shift hint ht hi hon ha hc,
      (WordBody.of_issue (body := wordRotl f) rfl rfl).takes_shift hint ht hi hon ha hc⟩
  · have hk := (isIntTy_laneTy hint ht).1
    have hib := intBool_has_of_int hint
    have hlt := laneIn_lt ha
    have hwidth : 8 * t.size < 2 ^ (8 * t.size) := Nat.lt_two_pow_self
    have hclz : ∀ n, leadZeros (8 * t.size) a = n → n ≤ 8 * t.size → Takes (.clz id f) s id f.vd.val t.size i (some n) 0 := fun n hn hle =>
      (WordBody.of_issue (body := wordClz f) rfl rfl).takes_map1 hint ht hi hon ha (by rw [hn]) (some_lt (by omega))
    have hctz : ∀ n, trailZeros (8 * t.size) a = n → n ≤ 8 * t.size → Takes (.ctz id f) s id f.vd.val t.size i (some n) 0 := fun n hn hle =>
      (WordBody.of_issue (body := wordCtz f) rfl rfl).takes_map1 hint ht hi hon ha (by rw [hn]) (some_lt (by omega))
    refine ⟨?_, ?_, ?_, ?_, ?_, fun b hb => ⟨?_, ?_, ?_, ?_⟩⟩
    · rintro rfl
      exact ⟨hclz _ rfl le_rfl, hctz _ (trailZeros_zero _) le_rfl⟩
    · rintro h m rfl hm
      exact hclz _ (leadZeros_of_highest hm) (by omega)
    · rintro h m rfl
      have hh : 2 ^ h < 2 ^ (8 * t.size) := lt_of_le_of_lt (Nat.le_mul_of_pos_right _ (by omega)) hlt
      exact hctz _ (trailZeros_of_lowest m h _ hlt) ((Nat.pow_lt_pow_iff_right (by decide)).mp hh).le
    · rw [← popCount_eq]
      exact (WordBody.of_issue (body := wordPopc f) rfl rfl).takes_map1 hint ht hi hon ha rfl (some_lt ((popCount_le _ _).trans_lt hwidth))
    · exact (WordBody.of_issue (body := wordNot f) rfl rfl).takes_map1 hib ht hi hon ha (by rw [laneNot_of_int hk]) (some_lt (by omega))
    · exact (WordBody.of_issue (body := wordAnd f) rfl rfl).takes_map2 hib ht hi hon ha hb
        (by rw [bitOperand_of_int hk, bitOperand_of_int hk]; rfl) (some_lt (Nat.and_lt_two_pow _ (laneIn_lt hb)))
    · exact (WordBody.of_issue (body := wordOr f) rfl rfl).takes_map2 hib ht hi hon ha hb
        (by rw [bitOperand_of_int hk, bitOperand_of_int hk]; rfl) (some_lt (Nat.or_lt_two_pow hlt (laneIn_lt hb)))
    · exact (WordBody.of_issue (body := wordXor f) rfl rfl).takes_map2 hib ht hi hon ha hb
        (by rw [bitOperand_of_int hk, bitOperand_of_int hk]; rfl) (some_lt (Nat.xor_lt_two_pow hlt (laneIn_lt hb)))
    · exact (WordBody.of_issue (body := wordAndn f) rfl rfl).takes_map2 hib ht hi hon ha hb
        (by rw [bitOperand_of_int hk, laneNot_of_int hk]; rfl) (some_lt (Nat.and_lt_two_pow _ (by omega)))
  · have ht : laneTy f.ty.val = some ⟨1, .bool⟩ := by rw [hty]; rfl
    have hib : TypeSet.intBool.has f.ty.val = true := by rw [hty]; rfl
    have hlt : ∀ b, b2n b < 2 ^ (8 * 1) := by decide
    refine ⟨?_, fun b hb => ⟨?_, ?_, ?_, ?_⟩⟩
    · exact (WordBody.of_issue (body := wordNot f) rfl rfl).takes_map1 hib ht hi hon ha (by rw [laneNot_bool]) (some_lt (hlt _))
    · exact (WordBody.of_issue (body := wordAnd f) rfl rfl).takes_map2 hib ht hi hon ha hb
        (by rw [bitOperand_bool, bitOperand_bool, land_b2n]) (some_lt (hlt _))
    · exact (WordBody.of_issue (body := wordOr f) rfl rfl).takes_map2 hib ht hi hon ha hb
        (by rw [bitOperand_bool, bitOperand_bool, lor_b2n]) (some_lt (hlt _))
    · exact (WordBody.of_issue (body := wordXor f) rfl rfl).takes_map2 hib ht hi hon ha hb
        (by rw [bitOperand_bool, bitOperand_bool, xor_b2n]) (some_lt (hlt _))
    · exact (WordBody.of_issue (body := wordAndn f) rfl rfl).takes_map2 hib ht hi hon ha hb
        (by rw [bitOperand_bool, laneNot_bool, land_b2n]) (some_lt (hlt _))

end Sys2Proof.Machine
end

section
/-! Proofs about chapter 05 (engine arithmetic): the words that move and select lanes, and the words that write mask registers. -/

namespace Sys2Proof.Machine

/-! ### Mask registers after a word (R133, R136) -/

theorem bitOf_eq_testBit (v i : Nat) : bitOf v i = v.testBit i := by
  rw [bitOf, Nat.testBit_eq_decide_div_mod_eq]
  rfl

theorem bitOf_ofNat {n v i : Nat} (h : i < n) : bitOf (BitVec.ofNat n v).toNat i = bitOf v i := by
  rw [bitOf_eq_testBit, bitOf_eq_testBit, BitVec.toNat_ofNat, Nat.testBit_mod_two_pow]
  simp [h]

section
variable {c : Instr} {s : State} {op : Nat} {id : EngineId} {f : Fields} {body : Engine → Engine}

theorem WordBody.k_after (h : WordBody c s op id f body) : Ends c s fun u => (u.engine (engineNo id)).k = (body (s.regsOf id)).k := by
  refine ends_mono h.engine_after fun u hu => ?_
  rw [hu, nextWord_k]

/-- An executed lane of a word that always gives a value is valid. -/
theorem WordBody.valid_writeLanes (h : WordBody c s op id f body) {sz i : Nat} {g : Nat → LaneRes}
    (hb : body (s.regsOf id) = (s.regsOf id).writeLanes f sz g) (hi : i < 32 / sz) (hon : LaneOn s id f i) (hg : (g i).1.isSome = true) :
    Ends c s fun u => (u.engine (engineNo id)).isValid f.vd.val i = true := by
  have hon' : (s.regsOf id).on f.mask.val i = true := hon
  refine ends_mono (h.lane_after f.vd.val sz i) fun u hu => ?_
  rw [hb, Engine.lane_writeLanes _ _ _ _ hi, Engine.masked, if_pos hon'] at hu
  exact (congrArg Prod.fst hu).trans hg

/-- A word that writes a mask register leaves its bits there; K0 ignores the write. -/
theorem WordBody.takesBit {k i bits : Nat} {b : Bool} (h : WordBody c s op id f body) (hb : body (s.regsOf id) = (s.regsOf id).setK k bits)
    (hi : i < 32) (hbit : bitOf bits i = b) : TakesBit c s id k i b := by
  refine ends_mono h.k_after fun u hu => ?_
  rw [hu, hb]
  by_cases hk : k = 0
  · simp [Engine.setK, hk, State.regsOf]
  · rw [if_neg hk, Engine.setK, if_neg (by simpa using hk), tget_tset_same, bitOf_ofNat hi, hbit]

/-- A word that writes a mask register lane by lane. -/
theorem WordBody.takesBit_writeMask {ts : TypeSet} {t : LTy} {i : Nat} {b : Bool} {sz : LTy → Nat} {g : LTy → Engine → Nat → Bool}
    (h : WordBody c s op id f fun e => forTypes ts f e fun t => e.writeMask f (sz t) (g t e)) (hts : ts.has f.ty.val = true)
    (ht : laneTy f.ty.val = some t) (hi : i < 32 / sz t) (hon : LaneOn s id f i) (hg : g t (s.regsOf id) i = b) :
    TakesBit c s id (f.vd.val % 8) i b := by
  have hon' : (s.regsOf id).on f.mask.val i = true := hon
  refine h.takesBit ((forTypes_of hts ht).trans rfl) (hi.trans_le (Nat.div_le_self _ _)) ?_
  rw [joinBits_get, List.getD_eq_getElem?_getD, List.getElem?_map, List.getElem?_range hi, Option.map_some, Option.getD_some, if_pos hon', hg]

end

/-- A type that a word of any fixed-width type accepts. -/
theorem fixed_has {c : Nat} {t : LTy} (ht : laneTy c = some t) : TypeSet.fixed.has c = true := by simp [TypeSet.has, ht]

/-- The formats of the floating-point types with their sizes (R106). -/
theorem isFltTy_fmt {c : Nat} {t : LTy} {fm : FpFmt} (h : isFltTy c = true) (ht : laneTy c = some t) (hk : t.kind = .flt fm) :
    (fm, t.size) ∈ [(fp16, 2), (bf16, 2), (fp32, 4), (fp64, 8)] := by
  unfold laneTy at ht
  split at ht
  all_goals cases ht
  all_goals cases hk
  all_goals revert h
  all_goals decide

theorem isFltTy_mem {c : Nat} {t : LTy} {fm : FpFmt} (h : isFltTy c = true) (ht : laneTy c = some t) (hk : t.kind = .flt fm) :
    fm ∈ [fp16, bf16, fp32, fp64] :=
  List.mem_map_of_mem (f := Prod.fst) (isFltTy_fmt h ht hk)

theorem fixedNotFp8_has {c : Nat} {t : LTy} (ht : laneTy c = some t) (h : isIntTy c = true ∨ isFltTy c = true) :
    TypeSet.fixedNotFp8.has c = true := by
  unfold laneTy at ht
  split at ht
  all_goals cases ht
  all_goals revert h
  all_goals decide

/-! ### Moved lanes keep their width -/

/-- A word that places in a lane nothing or some lane of its registers. -/
theorem WordBody.takes_moved {c : Instr} {s : State} {op : Nat} {id : EngineId} {f : Fields} {t : LTy} {i : Nat} {o : Option Nat}
    {g : LTy → Engine → Nat → LaneRes} (h : WordBody c s op id f fun e => forTypes .fixed f e fun t => e.writeLanes f t.size (g t e))
    (ht : laneTy f.ty.val = some t) (hi : i < 32 / t.size) (hon : LaneOn s id f i) (hg : g t (s.regsOf id) i = (o, 0))
    (ho : o = none ∨ ∃ j k, o = laneIn s id t.size j k) : Takes c s id f.vd.val t.size i o 0 := by
  refine h.takes_lanes (fixed_has ht) ht hi hon hg ?_
  rintro v rfl
  obtain ho | ⟨j, k, hv⟩ := ho
  · cases ho
  · exact laneIn_lt hv.symm

theorem laneIn_coal (s : State) (id : EngineId) (sz j k i : Nat) :
    (if (s.regsOf id).isValid j i then (s.regsOf id).src sz j i else (s.regsOf id).src sz k i) = (laneIn s id sz j i).or (laneIn s id sz k i) := by
  rw [regsOf_src, regsOf_src]
  cases h : (s.regsOf id).isValid j i
  · have hnone : laneIn s id sz j i = none := by rw [← regsOf_src, Engine.src, h]; rfl
    simp [hnone]
  · have hsome : laneIn s id sz j i = some (laneOf sz ((s.regsOf id).reg j) i) := by rw [← regsOf_src, Engine.src, h]; rfl
    simp [hsome]

theorem laneIn_isSome (s : State) (id : EngineId) (sz j i : Nat) : (s.regsOf id).isValid j i = (laneIn s id sz j i).isSome := by
  rw [← regsOf_src, Engine.src]
  split <;> simp_all

/-! ### MOVI (R157) -/

theorem laneImm_uint {t : LTy} (hk : t.kind = .uint) {imm : Nat} (h : imm < 2 ^ (8 * t.size)) : laneImm t imm = imm := by
  simp [laneImm, hk, h]

theorem laneImm_sint {t : LTy} (hk : t.kind = .sint) {imm : Nat} (h : t.size = 1 → -128 ≤ sInt 16 imm ∧ sInt 16 imm ≤ 127) :
    laneImm t imm = wrapN (8 * t.size) (sInt 16 imm) := by
  have hfits : (t.size == 1 && (decide (sInt 16 imm < -128) || decide (127 < sInt 16 imm))) = false := by
    by_cases hsz : t.size = 1
    · have := h hsz
      simp [hsz]
      omega
    · simp [hsz]
  simp [laneImm, hk, hfits]

theorem laneTy_uint_of_u8 {f : Fields} {t : LTy} (h : f.ty.val = 3) (ht : laneTy f.ty.val = some t) : t = ⟨1, .uint⟩ := by
  rw [h] at ht
  cases ht
  rfl

/-- The lane that MOVI places, where it fits the type. -/
theorem takes_movi {s : State} {id : EngineId} {f : Fields} {t : LTy} {i v : Nat} (ht : laneTy f.ty.val = some t) (hi : i < 32 / t.size)
    (hon : LaneOn s id f i) (hv : laneImm t f.imm.val = v) (hlt : v < 2 ^ (8 * t.size)) :
    Takes (.movi id f) s id f.vd.val t.size i (some v) 0 :=
  (WordBody.of_issue (body := wordMovi f) rfl rfl).takes_lanes (g := fun t _ _ => (some (laneImm t f.imm.val), 0)) (fixed_has ht) ht hi hon
    (by rw [hv]) (some_lt hlt)

theorem movi_valid {s : State} {id : EngineId} {f : Fields} {t : LTy} {i : Nat} (ht : laneTy f.ty.val = some t) (hi : i < 32 / t.size)
    (hon : LaneOn s id f i) : Ends (.movi id f) s fun u => (u.engine (engineNo id)).isValid f.vd.val i = true :=
  (WordBody.of_issue (body := wordMovi f) rfl rfl).valid_writeLanes (forTypes_of (fixed_has ht) ht) hi hon rfl

/-! ### Comparisons and classes (R143, R157) -/

theorem takesBit_cmp {s : State} {id : EngineId} {f : Fields} {t : LTy} {i a b : Nat} {r : Bool} (ht : laneTy f.ty.val = some t)
    (hty : isIntTy f.ty.val = true ∨ isFltTy f.ty.val = true) (hi : i < 32 / t.size) (hon : LaneOn s id f i)
    (ha : laneIn s id t.size f.va.val i = some a) (hb : laneIn s id t.size f.vb.val i = some b) (hr : laneCmp t f.sub.val a b = r) :
    TakesBit (.cmp id f) s id (f.vd.val % 8) i r := by
  refine (WordBody.of_issue (body := wordCmp f) rfl rfl).takesBit_writeMask (sz := fun t => t.size) (fixedNotFp8_has ht hty) ht hi hon ?_
  rw [regsOf_src, regsOf_src, ha, hb]
  exact hr

theorem laneCmp_of_int {t : LTy} (hk : t.kind = .uint ∨ t.kind = .sint) (cond a b : Nat) : laneCmp t cond a b = match cond with
    | 0 => decide (laneInt t a = laneInt t b) | 1 => decide (laneInt t a ≠ laneInt t b) | 2 => decide (laneInt t a < laneInt t b)
    | 3 => decide (laneInt t a ≤ laneInt t b) | 4 => decide (laneInt t b < laneInt t a) | _ => decide (laneInt t b ≤ laneInt t a) := by
  have hint : laneCmp t cond a b = match cond with
      | 0 => laneInt t a == laneInt t b | 1 => laneInt t a != laneInt t b | 2 => decide (laneInt t a < laneInt t b)
      | 3 => decide (laneInt t a ≤ laneInt t b) | 4 => decide (laneInt t b < laneInt t a) | _ => decide (laneInt t b ≤ laneInt t a) := by
    obtain hk | hk := hk <;> simp only [laneCmp, hk] <;> rfl
  rw [hint]
  split
  · exact (Bool.beq_eq_decide_eq _ _)
  · simp only [bne, decide_not]
    rfl
  all_goals rfl

/-- A comparison with a NaN is unordered: only "not equal" holds. -/
theorem laneCmp_nan {t : LTy} {fm : FpFmt} (hk : t.kind = .flt fm) {a b : Nat} (h : fm.isNan a = true ∨ fm.isNan b = true) (cond : Nat) :
    laneCmp t cond a b = decide (cond = 1) := by
  have hun : (fm.decode a == .nan || fm.decode b == .nan) = true := by simpa [FpFmt.isNan] using h
  have heq : fEq (fm.decode a) (fm.decode b) = false := by
    obtain h | h := h
    · rw [eq_of_beq h]
      rfl
    · rw [eq_of_beq h]
      cases fm.decode a <;> rfl
  simp only [laneCmp, hk, hun, heq]
  split <;> simp_all

theorem takesBit_classF {s : State} {id : EngineId} {f : Fields} {t : LTy} {fm : FpFmt} {i a n : Nat} (ht : laneTy f.ty.val = some t)
    (hflt : isFltTy f.ty.val = true) (hk : t.kind = .flt fm) (hi : i < 32 / t.size) (hon : LaneOn s id f i)
    (ha : laneIn s id t.size f.va.val i = some a) (hn : laneClass fm a = n) :
    TakesBit (.classF id f) s id (f.vd.val % 8) i (bitOf f.imm.val n) := by
  refine (WordBody.of_issue (body := wordClassF f) rfl rfl).takesBit_writeMask (sz := fun t => t.size) (ts := .flt) hflt ht hi hon ?_
  rw [hk, regsOf_src, ha]
  rw [← hn]

theorem laneClass_nan {fm : FpFmt} {a : Nat} (h : fm.isNan a = true) : laneClass fm a = 8 := by
  rw [laneClass, eq_of_beq h]

theorem laneClass_negZero : ∀ fm ∈ [fp16, bf16, fp32, fp64], laneClass fm fm.signBit = 3 := by decide

theorem byteClass_digit {a : Nat} (h : 0x30 ≤ a) (h' : a ≤ 0x39) : byteClass a = 1 := by
  unfold byteClass
  split_ifs <;> omega

theorem land_one_mod (v : Nat) : (Nat.land 1 v % 64 != 0) = bitOf v 0 := by
  have h : Nat.land 1 v = v % 2 := Nat.one_and_eq_mod_two v
  rw [h, bitOf, pow_zero, Nat.div_one]
  obtain h | h := Nat.mod_two_eq_zero_or_one v <;> rw [h] <;> rfl

/-! ### Mask words (R133) -/

theorem bitOf_first {n i : Nat} (hi : i < 32) : bitOf (2 ^ min 32 n - 1) i = decide (i < n) := by
  rw [bitOf_eq_testBit, Nat.testBit_two_pow_sub_one]
  simp [hi]

theorem bitOf_kop (a b : BitVec 32) {i : Nat} (hi : i < 32) (sub : Nat) :
    bitOf (match sub with | 0 => a &&& b | 1 => a ||| b | 2 => a ^^^ b | 3 => a &&& ~~~b | _ => ~~~a).toNat i =
      match sub with
      | 0 => bitOf a.toNat i && bitOf b.toNat i | 1 => bitOf a.toNat i || bitOf b.toNat i | 2 => bitOf a.toNat i != bitOf b.toNat i
      | 3 => bitOf a.toNat i && !bitOf b.toNat i | _ => !bitOf a.toNat i := by
  simp only [bitOf_eq_testBit, BitVec.testBit_toNat]
  split <;> simp [hi]

/-! ### What each moving word places -/

section
variable {s : State} {id : EngineId} {f : Fields} {t : LTy} {i : Nat} (ht : laneTy f.ty.val = some t) (hi : i < 32 / t.size)
  (hon : LaneOn s id f i)
include ht hi hon

theorem takes_mov (hnorm : isFltTy f.ty.val = true → s.normAt id 0x2F = none) :
    Takes (.mov id f) s id f.vd.val t.size i (laneIn s id t.size f.va.val i) 0 :=
  (WordBody.of_issueNorm (body := wordMov f) rfl rfl hnorm).takes_moved (g := fun t e i => (e.src t.size f.va.val i, 0)) ht hi hon rfl
    (.inr ⟨_, _, rfl⟩)

theorem takes_sel : Takes (.sel id f) s id f.vd.val t.size i
    (if bitOf ((s.engine (engineNo id)).kreg (f.vc.val % 8)).toNat i then laneIn s id t.size f.va.val i else laneIn s id t.size f.vb.val i) 0 := by
  refine (WordBody.of_issue (body := wordSel f) rfl rfl).takes_moved (g := fun t e i =>
    (if bitOf (e.kreg (f.vc.val % 8)).toNat i then e.src t.size f.va.val i else e.src t.size f.vb.val i, 0)) ht hi hon rfl ?_
  split
  · exact .inr ⟨_, _, rfl⟩
  · exact .inr ⟨_, _, rfl⟩

theorem takes_coal : Takes (.coal id f) s id f.vd.val t.size i ((laneIn s id t.size f.va.val i).or (laneIn s id t.size f.vb.val i)) 0 := by
  refine (WordBody.of_issue (body := wordCoal f) rfl rfl).takes_moved (g := fun t e i =>
    (if e.isValid f.va.val i then e.src t.size f.va.val i else e.src t.size f.vb.val i, 0)) ht hi hon
    (Prod.ext (laneIn_coal s id t.size f.va.val f.vb.val i) rfl) ?_
  rw [← laneIn_coal]
  split
  · exact .inr ⟨_, _, rfl⟩
  · exact .inr ⟨_, _, rfl⟩

theorem takes_setv : Takes (.setv id f) s id f.vd.val t.size i
    (if bitOf ((s.engine (engineNo id)).kreg (f.va.val % 8)).toNat i then laneIn s id t.size f.vd.val i else none) 0 := by
  refine (WordBody.of_issue (body := wordSetv f) rfl rfl).takes_moved (g := fun t e i =>
    (if bitOf (e.kreg (f.va.val % 8)).toNat i then e.src t.size f.vd.val i else none, 0)) ht hi hon rfl ?_
  split
  · exact .inr ⟨_, _, rfl⟩
  · exact .inl rfl

theorem takes_vmrk (hu8 : f.ty.val = 3) : Takes (.vmrk id f) s id f.vd.val t.size i
    ((laneIn s id 1 f.vd.val i).map fun v => if v = 0 then f.imm.val % 256 else v) 0 := by
  obtain rfl := laneTy_uint_of_u8 hu8 ht
  refine (WordBody.of_issue (body := wordVmrk f) rfl rfl).takes_lanes (g := fun t e i =>
    ((e.src t.size f.vd.val i).map fun v => if v == 0 then f.imm.val % 256 else v, 0)) (by rw [hu8]; rfl) ht hi hon ?_ ?_
  · simp only [regsOf_src, beq_iff_eq]
  · intro v hv
    obtain ⟨w, hw, rfl⟩ := Option.map_eq_some_iff.mp hv
    split
    · exact Nat.mod_lt _ (by decide)
    · exact laneIn_lt hw

theorem takes_perm : Takes (.perm id f) s id f.vd.val t.size i
    ((laneIn s id t.size f.vb.val i).bind fun j => laneIn s id t.size f.va.val (j % (32 / t.size))) 0 := by
  refine (WordBody.of_issue (body := wordPerm f) rfl rfl).takes_moved (g := fun t e i => match e.src t.size f.vb.val i with
    | some j => (e.src t.size f.va.val (j % (32 / t.size)), 0)
    | none => (none, 0)) ht hi hon ?_ ?_
  · rw [regsOf_src]
    cases laneIn s id t.size f.vb.val i <;> rfl
  · cases laneIn s id t.size f.vb.val i
    · exact .inl rfl
    · exact .inr ⟨_, _, rfl⟩

theorem takes_cprs : Takes (.cprs id f) s id f.vd.val t.size i
    ((((List.range (32 / t.size)).filter fun j => bitOf ((s.engine (engineNo id)).kreg (f.vc.val % 8)).toNat j)[i]?).bind fun j =>
      laneIn s id t.size f.va.val j) 0 := by
  refine (WordBody.of_issue (body := wordCprs f) rfl rfl).takes_moved (g := fun t e i =>
    match ((List.range (32 / t.size)).filter fun i => bitOf (e.kreg (f.vc.val % 8)).toNat i)[i]? with
    | some j => (e.src t.size f.va.val j, 0)
    | none => (none, 0)) ht hi hon ?_ ?_
  · change (match ((List.range (32 / t.size)).filter fun j => bitOf ((s.engine (engineNo id)).kreg (f.vc.val % 8)).toNat j)[i]? with
      | some j => _
      | none => _) = _
    cases ((List.range (32 / t.size)).filter fun j => bitOf ((s.engine (engineNo id)).kreg (f.vc.val % 8)).toNat j)[i]? <;> rfl
  · cases ((List.range (32 / t.size)).filter fun j => bitOf ((s.engine (engineNo id)).kreg (f.vc.val % 8)).toNat j)[i]?
    · exact .inl rfl
    · exact .inr ⟨_, _, rfl⟩

theorem takes_algn : Takes (.algn id f) s id f.vd.val t.size i
    (if f.imm.val + i < 32 / t.size then laneIn s id t.size f.va.val (f.imm.val + i)
      else if f.imm.val + i < 2 * (32 / t.size) then laneIn s id t.size f.vb.val (f.imm.val + i - 32 / t.size) else none) 0 := by
  refine (WordBody.of_issue (body := wordAlgn f) rfl rfl).takes_moved (g := fun t e i =>
    (if f.imm.val + i < 32 / t.size then e.src t.size f.va.val (f.imm.val + i)
      else if f.imm.val + i < 2 * (32 / t.size) then e.src t.size f.vb.val (f.imm.val + i - 32 / t.size) else none, 0)) ht hi hon rfl ?_
  split
  · exact .inr ⟨_, _, rfl⟩
  · split
    · exact .inr ⟨_, _, rfl⟩
    · exact .inl rfl

end

/-- ISVAL copies validity into the mask. -/
theorem takesBit_isval {s : State} {id : EngineId} {f : Fields} {t : LTy} {i : Nat} (ht : laneTy f.ty.val = some t) (hi : i < 32 / t.size)
    (hon : LaneOn s id f i) : TakesBit (.isval id f) s id (f.vd.val % 8) i (laneIn s id t.size f.va.val i).isSome :=
  (WordBody.of_issue (body := wordIsval f) rfl rfl).takesBit_writeMask (sz := fun t => t.size) (fixed_has ht) ht hi hon (laneIn_isSome s id t.size _ i)

theorem takesBit_bcls {s : State} {id : EngineId} {f : Fields} {i a : Nat} (hu8 : f.ty.val = 3) (hi : i < 32) (hon : LaneOn s id f i)
    (ha : laneIn s id 1 f.va.val i = some a) : TakesBit (.bcls id f) s id (f.vd.val % 8) i (Nat.land (byteClass a) f.imm.val % 64 != 0) := by
  refine (WordBody.of_issue (body := wordBcls f) rfl rfl).takesBit_writeMask (ts := .u8) (t := ⟨1, .uint⟩) (sz := fun _ => 1) (by rw [hu8]; rfl)
    (by rw [hu8]; rfl) hi hon ?_
  rw [regsOf_src, ha]

/-- Settles O34: what each word places in a lane, then the words that write mask bits. -/
theorem selectingLanes : Obligations.SelectingLanes := by
  refine ⟨?_, ?_, ?_⟩
  · intro s id f t i ht hi hon e r a b
    refine ⟨takes_mov ht hi hon, fun hk hlt => takes_movi ht hi hon (laneImm_uint hk hlt) hlt,
      fun hk hrange => takes_movi ht hi hon (laneImm_sint hk hrange) (wrapN_lt _ _), movi_valid ht hi hon, takes_sel ht hi hon, takes_coal ht hi hon,
      takes_setv ht hi hon, takes_vmrk ht hi hon, fun j hj => ?_, fun hb => ?_, takes_cprs ht hi hon, fun hin => ?_, fun hout hin => ?_⟩
    · have := takes_perm ht hi hon
      rwa [show laneIn s id t.size f.vb.val i = some j from hj] at this
    · have := takes_perm ht hi hon
      rwa [show laneIn s id t.size f.vb.val i = none from hb] at this
    · have := takes_algn ht hi hon
      rwa [if_pos hin] at this
    · have := takes_algn ht hi hon
      rwa [if_neg (by omega), if_pos hin] at this
  · intro s id f t i ht hi hon
    refine ⟨takesBit_isval ht hi hon, fun hint a b ha hb => ?_, fun hflt a b fm hk ha hb => ⟨fun hnan => ?_, fun hnan => ?_, fun hzero => ?_⟩,
      fun hu8 a ha hlo hhi => ?_⟩
    · exact takesBit_cmp ht (.inl hint) hi hon ha hb (laneCmp_of_int (isIntTy_laneTy hint ht).1 _ a b)
    · exact takesBit_cmp ht (.inr hflt) hi hon ha hb (laneCmp_nan hk hnan _)
    · exact takesBit_classF ht hflt hk hi hon ha (laneClass_nan hnan)
    · exact takesBit_classF ht hflt hk hi hon ha (hzero ▸ laneClass_negZero fm (isFltTy_mem hflt ht hk))
    · obtain rfl := laneTy_uint_of_u8 hu8 ht
      have := takesBit_bcls hu8 hi hon ha
      rwa [byteClass_digit hlo hhi, land_one_mod] at this
  · intro s id f i hi
    refine ⟨(WordBody.of_issue (body := wordKfirst f) rfl rfl).takesBit rfl hi (bitOf_first hi), ?_⟩
    exact (WordBody.of_issue (body := wordKop f) rfl rfl).takesBit rfl hi (bitOf_kop _ _ hi _)

end Sys2Proof.Machine
end

section
/-! Proofs about chapter 05 (engine arithmetic): program order, loops and tiles (R152, R154, R156). -/

namespace Sys2Proof.Machine

/-! ### The next word of an engine -/

section
variable {cx : ProgCtx} {e : Engine} {w : Nat}

theorem nextWord_within (h : w < cx.body.length) : nextWord (some cx) e w = { e with issue := e.issue + 1, word := w } := by
  simp [nextWord, h]

theorem nextWord_tile (h : cx.body.length ≤ w) (ht : e.tile + cx.engines < cx.tiles) : nextWord (some cx) e w =
    { e with word := 0, issue := 0, loops := [], tile := e.tile + cx.engines, cursor := startCursors cx.descs (e.tile + cx.engines) } := by
  simp [nextWord, Nat.not_lt.mpr h, ht]

theorem nextWord_done (h : cx.body.length ≤ w) (ht : cx.tiles ≤ e.tile + cx.engines) :
    nextWord (some cx) e w = { e with issue := e.issue + 1, word := w } := by
  simp [nextWord, Nat.not_lt.mpr h, Nat.not_lt.mpr ht]

end

/-! ### The cursors at the start of a tile (R152) -/

theorem tget_zipIdx_below {α : Type} (F : α → Int) (ds : List α) : ∀ (k : Nat) (c : Tab Int) (i : Nat), i < k →
    tget 0 ((ds.zipIdx k).foldl (fun c p => tset 0 p.2 (F p.1) c) c) i = tget 0 c i := by
  induction ds with
  | nil => intro k c i _; rfl
  | cons d ds ih =>
    intro k c i h
    rw [List.zipIdx_cons, List.foldl_cons, ih _ _ _ (by omega)]
    exact tget_tset_ne _ _ _ (by dsimp only; omega)

theorem tget_zipIdx {α : Type} (F : α → Int) (ds : List α) : ∀ (k : Nat) (c : Tab Int) (j : Nat) (d : α), ds[j]? = some d →
    tget 0 ((ds.zipIdx k).foldl (fun c p => tset 0 p.2 (F p.1) c) c) (k + j) = F d := by
  induction ds with
  | nil => intro k c j d h; simp at h
  | cons x ds ih =>
    intro k c j d h
    rw [List.zipIdx_cons, List.foldl_cons]
    cases j with
    | zero =>
      obtain rfl : x = d := by simpa using h
      rw [Nat.add_zero, tget_zipIdx_below F ds _ _ _ (by omega)]
      exact tget_tset_same _ _ _ _
    | succ j =>
      rw [← Nat.add_assoc, Nat.add_right_comm]
      exact ih (k + 1) _ j d (by simpa using h)

theorem tget_startCursors {ds : List StreamDesc} {j : Nat} {d : StreamDesc} (t : Nat) (h : ds[j]? = some d) :
    tget 0 (startCursors ds t) j = ((d.base : Int) + (t : Int) * d.step) * 8 := by
  have := tget_zipIdx (fun d : StreamDesc => ((d.base : Int) + (t : Int) * d.step) * 8) ds 0 [] j d h
  rwa [Nat.zero_add] at this

/-! ### The forms in which a word is issued -/

/-- The state that a word command answers, by the form of the word: a body over the registers, one that may compute a normalisation, an access
through an address stream, and the two words that place the next word. -/
inductive WordForm (s : State) (id : EngineId) (f : Fields) : Nat → State → Prop
  | issue (op : Nat) (body : Engine → Engine) : WordForm s id f op (s.issue op id f body)
  | norm (op : Nat) (body : Engine → Engine) : WordForm s id f op (s.issueNorm op id f body)
  | access (op : Nat) (modes : List Nat) (acc : ProgCtx → StreamDesc → LTy → Engine → Tab Byte → Access) :
      WordForm s id f op (s.issueAccess op id f modes acc)
  | loop : WordForm s id f 0x01 (s.issueLoop id f)
  | lend : WordForm s id f 0x02 (s.issueLend id f)

theorem exec_wordForm {c : Instr} {op : Nat} {id : EngineId} {f : Fields} (hp : wordParts c = some (op, id, f)) (s : State) :
    ∃ u, exec c s = .next u ∧ WordForm s id f op u := by
  unfold wordParts at hp
  split at hp
  all_goals cases hp
  all_goals refine ⟨_, rfl, ?_⟩
  all_goals constructor

/-- A word that is not issued changes nothing. -/
theorem WordForm.eq_of_not_issued {s u : State} {id : EngineId} {f : Fields} {op : Nat} (h : WordForm s id f op u)
    (hi : s.issues id op f = false) : u = s := by
  cases h with
  | issue => simp [State.issue, hi]
  | norm =>
    rw [State.issueNorm]
    split
    · simp [State.issue, hi]
    · simp [hi]
  | access => simp [State.issueAccess, hi]
  | loop => simp [State.issueLoop, hi]
  | lend => simp [State.issueLend, hi]

/-! ### The engine after NOP, LOOP and LEND -/

section
variable {s : State} {id : EngineId} {f : Fields} {cx : ProgCtx} (hcx : Runs s id cx)
include hcx

theorem nop_engine : Ends (.nop id f) s fun u => u.engine (engineNo id) =
    nextWord (some cx) { s.engine (engineNo id) with flags := Nat.lor (s.engine (engineNo id)).flags 0 } ((s.engine (engineNo id)).word + 1) := by
  have h := (WordBody.of_issue (c := .nop id f) (s := s) (body := wordNop f) rfl rfl).engine_after
  rw [show (s.core (coreNo id)).ctx = some cx from hcx] at h
  exact h

theorem loop_engine : Ends (.loop id f) s fun u => u.engine (engineNo id) =
    nextWord (some cx) { s.engine (engineNo id) with
      loops := ((s.engine (engineNo id)).word + 1, f.imm.val) :: (s.engine (engineNo id)).loops } ((s.engine (engineNo id)).word + 1) := by
  refine ends_of_issues rfl fun hi => ⟨_, rfl, ?_⟩
  rw [State.issueLoop, hi, Bool.not_true, if_neg Bool.false_ne_true, State.coreFlags_engine, State.modEngine_engine_same,
    show (s.core (coreNo id)).ctx = some cx from hcx]

theorem lend_engine {w n : Nat} {r : List (Nat × Nat)} (hl : (s.engine (engineNo id)).loops = (w, n) :: r) :
    Ends (.lend id f) s fun u => u.engine (engineNo id) =
      if n > 1 then nextWord (some cx) { s.engine (engineNo id) with loops := (w, n - 1) :: r } w
      else nextWord (some cx) { s.engine (engineNo id) with loops := r } ((s.engine (engineNo id)).word + 1) := by
  refine ends_of_issues rfl fun hi => ⟨_, rfl, ?_⟩
  rw [State.issueLend, hi, Bool.not_true, if_neg Bool.false_ne_true, State.coreFlags_engine, State.modEngine_engine_same,
    show (s.core (coreNo id)).ctx = some cx from hcx]
  simp only [hl]

end

/-- Settles O36: the next word of the body, the loops, the end of the body, and a word that is not the next one. -/
theorem programOrderLoopsAndTiles : Obligations.ProgramOrderLoopsAndTiles := by
  intro s id cx f hcx e ends
  refine ⟨fun hw => ⟨?_, ?_⟩, fun w n r hl hn hw => ?_, fun w n r hl hn hw => ?_, fun hw ht => ?_, fun hw ht => ?_, fun c op hp hi => ?_⟩
  · refine ends_mono (nop_engine hcx) fun u hu => ?_
    have hg := hu.trans (nextWord_within hw)
    dsimp only
    rw [hg]
    exact ⟨rfl, rfl, rfl, rfl, rfl, rfl, rfl, rfl⟩
  · refine ends_mono (loop_engine hcx) fun u hu => ?_
    have hg := hu.trans (nextWord_within hw)
    dsimp only
    rw [hg]
    exact ⟨rfl, rfl, rfl, rfl, rfl, rfl, rfl, rfl⟩
  · refine ends_mono (lend_engine hcx hl) fun u hu => ?_
    rw [if_pos hn] at hu
    have hg := hu.trans (nextWord_within hw)
    dsimp only
    rw [hg]
    exact ⟨rfl, rfl, rfl, rfl, rfl, rfl, rfl, rfl⟩
  · refine ends_mono (lend_engine hcx hl) fun u hu => ?_
    rw [if_neg (Nat.not_lt.mpr hn)] at hu
    have hg := hu.trans (nextWord_within hw)
    dsimp only
    rw [hg]
    exact ⟨rfl, rfl, rfl, rfl, rfl, rfl, rfl, rfl⟩
  · refine ends_mono (nop_engine hcx) fun u hu => ?_
    have hg := hu.trans (nextWord_tile hw ht)
    dsimp only
    rw [hg]
    exact ⟨rfl, rfl, rfl, rfl, rfl, rfl, fun j d hd => tget_startCursors _ hd⟩
  · refine ends_mono (nop_engine hcx) fun u hu => ?_
    have hg := hu.trans (nextWord_done hw ht)
    rw [hg]
    exact ⟨rfl, rfl⟩
  · obtain ⟨u, hu, hform⟩ := exec_wordForm hp s
    rw [hu, hform.eq_of_not_issued hi]

end Sys2Proof.Machine
end

section
/-! Proofs about chapter 05 (engine arithmetic): byte search, UTF-8 and hash-step words (R157). -/

namespace Sys2Proof.Machine

/-! ### Words that answer in lane 0 -/

theorem laneOf_lt (sz : Nat) (r : BitVec 256) (i : Nat) : laneOf sz r i < 2 ^ (8 * sz) := Nat.mod_lt _ (by positivity)

/-- Lane 0 of VD under a word that answers there. -/
theorem Engine.lane_writeLane0_zero (e : Engine) (f : Fields) {sz v : Nat} (hsz : 0 < 32 / sz) (hon : e.on f.mask.val 0 = true) (fl : Nat)
    (hv : v < 2 ^ (8 * sz)) : (e.writeLane0 f sz (some v, fl)).lane sz f.vd.val 0 = (true, v) := by
  refine (Engine.lane_putLanes e sz f.vd.val _ hsz).trans ?_
  simp [Engine.masked, hon, LaneRes.take, Nat.mod_eq_of_lt hv]

/-- The other executed lanes keep. -/
theorem Engine.lane_writeLane0_ne (e : Engine) (f : Fields) {sz i : Nat} (hi : i < 32 / sz) (h0 : i ≠ 0) (hon : e.on f.mask.val i = true)
    (r : LaneRes) : (e.writeLane0 f sz r).lane sz f.vd.val i = e.lane sz f.vd.val i := by
  refine (Engine.lane_putLanes e sz f.vd.val _ hi).trans ?_
  simp [h0, hon, Engine.lane, Nat.mod_eq_of_lt (laneOf_lt sz (e.reg f.vd.val) i)]

/-- K0 executes every lane (R133). -/
theorem Engine.on_zero (e : Engine) {i : Nat} (hi : i < 32) : e.on 0 i = true := by
  change bitOf (BitVec.allOnes 32).toNat i = true
  rw [bitOf_eq_testBit, BitVec.testBit_toNat, BitVec.getLsbD_allOnes]
  exact decide_eq_true hi

theorem Engine.filter_on_zero (e : Engine) {f : Fields} (hm : f.mask.val = 0) :
    ((List.range 32).filter fun i => e.on f.mask.val i) = List.range 32 := by
  refine List.filter_eq_self.mpr fun i hi => ?_
  rw [hm]
  exact e.on_zero (List.mem_range.mp hi)

section
variable {c : Instr} {s : State} {op : Nat} {id : EngineId} {f : Fields} {body : Engine → Engine}

theorem WordBody.takes_lane0 (h : WordBody c s op id f body) {sz v : Nat}
    (hb : body (s.regsOf id) = (s.regsOf id).writeLane0 f sz (some v, 0)) (hsz : 0 < 32 / sz) (hm : f.mask.val = 0) (hv : v < 2 ^ (8 * sz)) :
    Takes c s id f.vd.val sz 0 (some v) 0 := by
  refine h.takes ?_ (Nat.and_zero _)
  rw [hb]
  exact Engine.lane_writeLane0_zero _ f hsz (by rw [hm]; exact Engine.on_zero _ (by decide)) 0 hv

theorem WordBody.lane0_keeps (h : WordBody c s op id f body) {sz i : Nat} {r : LaneRes}
    (hb : body (s.regsOf id) = (s.regsOf id).writeLane0 f sz r) (h0 : 0 < i) (hi : i < 32 / sz) (hm : f.mask.val = 0) :
    Ends c s fun u => (u.engine (engineNo id)).lane sz f.vd.val i = (s.engine (engineNo id)).lane sz f.vd.val i := by
  refine ends_mono (h.lane_after f.vd.val sz i) fun u hu => ?_
  rw [hu, hb]
  exact Engine.lane_writeLane0_ne _ f hi (by omega) (by rw [hm]; exact Engine.on_zero _ (hi.trans_le (Nat.div_le_self _ _))) r

end

/-! ### Byte search -/

theorem find?_range_getD_least {p : Nat → Bool} {n m : Nat} (d : Nat) (hn : n < m) (hp : p n = true) (hmin : ∀ i, i < n → p i = false) :
    ((List.range m).find? p).getD d = n := by
  rw [List.find?_range_eq_some.mpr ⟨hp, List.mem_range.mpr hn, fun j hj => by simp [hmin j hj]⟩, Option.getD_some]

theorem find?_range_getD_none {p : Nat → Bool} {m : Nat} (d : Nat) (h : ∀ i, i < m → p i = false) : ((List.range m).find? p).getD d = d := by
  rw [List.find?_eq_none.mpr fun i hi => by simp [h i (List.mem_range.mp hi)], Option.getD_none]

theorem all_range_of {p : Nat → Bool} {n : Nat} (h : ∀ i, i < n → p i = true) : (List.range n).all p = true :=
  List.all_eq_true.mpr fun i hi => h i (List.mem_range.mp hi)

/-! ### UTF-8 (R157) -/

theorem utf8_ascii (l : List Nat) (h : ∀ b ∈ l, b < 0x80) : l.foldl utf8Step (some (0, 0x80, 0xBF)) = some (0, 0x80, 0xBF) := by
  induction l with
  | nil => rfl
  | cons b l ih =>
    have hb : utf8Step (some (0, 0x80, 0xBF)) b = some (0, 0x80, 0xBF) := by simp [utf8Step, h b (by simp)]
    rw [List.foldl_cons, hb, ih fun x hx => h x (by simp [hx])]

theorem utf8_broken (l : List Nat) : l.foldl utf8Step none = none := by
  induction l with
  | nil => rfl
  | cons b l ih => exact ih

/-- A lead byte of three bytes with an unrestricted second byte owes two. -/
theorem utf8Step_lead3 {b : Nat} (h : 0xE1 ≤ b) (h' : b ≤ 0xEC) : utf8Step (some (0, 0x80, 0xBF)) b = some (2, 0x80, 0xBF) := by
  simp (disch := omega) only [utf8Step, if_neg, if_pos]

/-- A continuation byte, or an overlong lead, cannot begin a character. -/
theorem utf8Step_noLead {b : Nat} (h : 0x80 ≤ b) (h' : b ≤ 0xC1) : utf8Step (some (0, 0x80, 0xBF)) b = none := by
  simp (disch := omega) only [utf8Step, if_neg]

/-! ### UTF8V, BFIND and BDIFF over all lanes -/

theorem wordUtf8v_eq (e : Engine) {f : Fields} (hu8 : f.ty.val = 3) (hm : f.mask.val = 0) (hva : ∀ i, i < 32 → e.isValid f.va.val i = true)
    (hvb : e.isValid f.vb.val 0 = true) (hb : laneOf 1 (e.reg f.vb.val) 0 = 0) : wordUtf8v f e = e.writeLane0 f 1
      (some ((((List.range 32).map fun i => laneOf 1 (e.reg f.va.val) i).foldl utf8Step (some (0, 0x80, 0xBF))).elim 0xFF Prod.fst), 0) := by
  have hty : TypeSet.u8.has f.ty.val = true := by rw [hu8]; rfl
  have ht : laneTy f.ty.val = some ⟨1, .uint⟩ := by rw [hu8]; rfl
  have hall : (List.range 32).all (fun i => e.isValid f.va.val i) = true := all_range_of hva
  rw [wordUtf8v, forTypes_of hty ht]
  simp only [Engine.filter_on_zero e hm, hall, hvb, hb, Bool.and_self, if_true, Nat.zero_le]
  cases ((List.range 32).map fun i => laneOf 1 (e.reg f.va.val) i).foldl utf8Step (some (0, 0x80, 0xBF)) <;> rfl

/-- The continuation bytes that UTF8V answers, for a 32-byte text whose last byte alone is no ASCII. -/
theorem utf8_last {a : Nat → Nat} (h : ∀ i, i < 31 → a i < 0x80) : ((List.range 32).map a).foldl utf8Step (some (0, 0x80, 0xBF)) =
    utf8Step (some (0, 0x80, 0xBF)) (a 31) := by
  have hfirst : ((List.range 31).map a).foldl utf8Step (some (0, 0x80, 0xBF)) = some (0, 0x80, 0xBF) := by
    refine utf8_ascii _ fun b hb => ?_
    obtain ⟨i, hi, rfl⟩ := List.mem_map.mp hb
    exact h i (List.mem_range.mp hi)
  rw [List.range_succ, List.map_append, List.foldl_append, hfirst]
  rfl

theorem utf8_first {a : Nat → Nat} (h : utf8Step (some (0, 0x80, 0xBF)) (a 0) = none) :
    ((List.range 32).map a).foldl utf8Step (some (0, 0x80, 0xBF)) = none := by
  rw [List.range_succ_eq_map, List.map_cons, List.foldl_cons, h, utf8_broken]

theorem wordBfind_eq (e : Engine) {f : Fields} (hu8 : f.ty.val = 3) (hm : f.mask.val = 0) (hva : ∀ i, i < 32 → e.isValid f.va.val i = true) :
    wordBfind f e = e.writeLane0 f 1 (some (((List.range 32).find? fun i => laneOf 1 (e.reg f.va.val) i == f.imm.val % 256).getD 32), 0) := by
  have hty : TypeSet.u8.has f.ty.val = true := by rw [hu8]; rfl
  have ht : laneTy f.ty.val = some ⟨1, .uint⟩ := by rw [hu8]; rfl
  have hall : (List.range 32).all (fun i => e.isValid f.va.val i) = true := all_range_of hva
  rw [wordBfind, forTypes_of hty ht]
  simp only [Engine.filter_on_zero e hm, hall, if_true]

theorem wordBdiff_eq (e : Engine) {f : Fields} (hu8 : f.ty.val = 3) (hm : f.mask.val = 0) (hva : ∀ i, i < 32 → e.isValid f.va.val i = true)
    (hvb : ∀ i, i < 32 → e.isValid f.vb.val i = true) : wordBdiff f e = e.writeLane0 f 1
      (some (((List.range 32).find? fun i => laneOf 1 (e.reg f.va.val) i != laneOf 1 (e.reg f.vb.val) i).getD 32), 0) := by
  have hty : TypeSet.u8.has f.ty.val = true := by rw [hu8]; rfl
  have ht : laneTy f.ty.val = some ⟨1, .uint⟩ := by rw [hu8]; rfl
  have hall : (List.range 32).all (fun i => e.isValid f.va.val i && e.isValid f.vb.val i) = true :=
    all_range_of fun i hi => by rw [hva i hi, hvb i hi]; rfl
  rw [wordBdiff, forTypes_of hty ht]
  simp only [Engine.filter_on_zero e hm, hall, if_true]

/-- The words of one byte type that answer in lane 0 keep the other lanes. -/
theorem byteWords_keep {s : State} {id : EngineId} {f : Fields} (hu8 : f.ty.val = 3) (hm : f.mask.val = 0) {c : Instr}
    (hc : c ∈ [Instr.bfind id f, .bdiff id f, .utf8v id f]) {i : Nat} (h0 : 0 < i) (hi : i < 32) :
    Ends c s fun u => (u.engine (engineNo id)).lane 1 f.vd.val i = (s.engine (engineNo id)).lane 1 f.vd.val i := by
  have hty : TypeSet.u8.has f.ty.val = true := by rw [hu8]; rfl
  have ht : laneTy f.ty.val = some ⟨1, .uint⟩ := by rw [hu8]; rfl
  simp only [List.mem_cons, List.not_mem_nil, or_false] at hc
  obtain rfl | rfl | rfl := hc
  · exact (WordBody.of_issue (body := wordBfind f) rfl rfl).lane0_keeps (forTypes_of hty ht) h0 hi hm
  · exact (WordBody.of_issue (body := wordBdiff f) rfl rfl).lane0_keeps (forTypes_of hty ht) h0 hi hm
  · exact (WordBody.of_issue (body := wordUtf8v f) rfl rfl).lane0_keeps (forTypes_of hty ht) h0 hi hm

/-! ### CRC and SipRound -/

theorem withNat_eq {α : Type} (x : Nat) (k : Nat → α) : withNat x k = k x := by
  cases x <;> rfl

theorem crcReflSteps_eq_foldl (p : Nat) (l : List Nat) : ∀ c, crcReflSteps p l.length c =
    l.foldl (fun x _ => if x % 2 = 1 then x / 2 ^^^ p else x / 2) c := by
  induction l with
  | nil => intro c; rfl
  | cons y l ih =>
    intro c
    rw [List.length_cons, crcReflSteps, ih, List.foldl_cons]
    simp only [beq_iff_eq]
    rfl

theorem crcReflSteps_lt {p w : Nat} (hp : p < 2 ^ w) (n : Nat) : ∀ c, c < 2 ^ w → crcReflSteps p n c < 2 ^ w := by
  induction n with
  | zero => intro c hc; exact hc
  | succ n ih =>
    intro c hc
    have hhalf : c / 2 < 2 ^ w := (Nat.div_le_self _ _).trans_lt hc
    refine ih _ ?_
    split
    · exact Nat.xor_lt_two_pow hhalf hp
    · exact hhalf

theorem sipRound_lt (v : List Nat) : ∀ x ∈ sipRound v, x < 2 ^ 64 := by
  have hrot : ∀ x n, rotl64 x n < 2 ^ 64 := fun x n => Nat.mod_lt _ (by decide)
  have hmod : ∀ x, x % 2 ^ 64 < 2 ^ 64 := fun x => Nat.mod_lt _ (by decide)
  simp only [sipRound, List.forall_mem_cons]
  exact ⟨hmod _, Nat.xor_lt_two_pow (hrot _ _) (hmod _), hrot _ _, Nat.xor_lt_two_pow (hrot _ _) (hmod _), nofun⟩

theorem xxRound_eq (acc lane : Nat) : xxRound acc lane = (let x := (acc + lane * 14029467366897019727) % 2 ^ 64
    ((x * 2 ^ 31 + x / 2 ^ 33) % 2 ^ 64) * 11400714785074694791 % 2 ^ 64) := by
  unfold xxRound
  rfl

theorem sipRound_eq (v0 v1 v2 v3 : Nat) :
    let rot := fun x n => (x * 2 ^ n + x / 2 ^ (64 - n)) % 2 ^ 64
    let x1 := rot v1 13 ^^^ (v0 + v1) % 2 ^ 64
    let x3 := rot v3 16 ^^^ (v2 + v3) % 2 ^ 64
    let w0 := (rot ((v0 + v1) % 2 ^ 64) 32 + x3) % 2 ^ 64
    sipRound [v0, v1, v2, v3] = [w0, rot x1 17 ^^^ ((v2 + v3) % 2 ^ 64 + x1) % 2 ^ 64, rot (((v2 + v3) % 2 ^ 64 + x1) % 2 ^ 64) 32, rot x3 21 ^^^ w0] := by
  rfl

/-- The lane of a SipRound. -/
theorem takes_sipr {s : State} {id : EngineId} {f : Fields} {v0 v1 v2 v3 i : Nat} (hu64 : f.ty.val = 9) (hm : f.mask.val = 0)
    (h0 : laneIn s id 8 f.va.val 0 = some v0) (h1 : laneIn s id 8 f.va.val 1 = some v1) (h2 : laneIn s id 8 f.va.val 2 = some v2)
    (h3 : laneIn s id 8 f.va.val 3 = some v3) {w : Nat}
    (hw : (sipRound [v0, v1, v2, v3])[i]? = some w) : Takes (.sipr id f) s id f.vd.val 8 i (some w) 0 := by
  have hi : i < 4 := (List.getElem?_eq_some_iff.mp hw).1
  have hty : TypeSet.u64.has f.ty.val = true := by rw [hu64]; rfl
  have ht : laneTy f.ty.val = some ⟨8, .uint⟩ := by rw [hu64]; rfl
  have hlane : ∀ {k v}, laneIn s id 8 f.va.val k = some v → (s.regsOf id).isValid f.va.val k = true ∧ laneOf 8 ((s.regsOf id).reg f.va.val) k = v := by
    intro k v h
    rw [← regsOf_src, Engine.src] at h
    split at h
    · exact ⟨by assumption, Option.some.inj h⟩
    · cases h
  have hvals : (List.range 4).map (fun k => laneOf 8 ((s.regsOf id).reg f.va.val) k) = [v0, v1, v2, v3] := by
    simp [List.range_succ, (hlane h0).2, (hlane h1).2, (hlane h2).2, (hlane h3).2]
  have hok : (List.range 4).all (fun k => (s.regsOf id).isValid f.va.val k) = true := by
    simp [List.range_succ, (hlane h0).1, (hlane h1).1, (hlane h2).1, (hlane h3).1]
  refine (WordBody.of_issue (body := wordSipr f) rfl rfl).takes_writeLanes (forTypes_of hty ht) hi
    (by rw [LaneOn, hm]; exact Engine.on_zero _ (by omega)) ?_ ?_
  · rw [hok, hvals, List.getD_eq_getElem?_getD, hw]
    rfl
  · exact some_lt (sipRound_lt _ _ (List.mem_of_getElem? hw))

/-- The CRC-32C of the first `n` bytes of VA, from the state in VB. -/
theorem takes_crc32c {s : State} {id : EngineId} {f : Fields} {st : Nat} (hu32 : f.ty.val = 7) (hm : f.mask.val = 0) (hsub : f.sub.val = 0)
    (hn : f.imm.val % 64 ≤ 32) (hva : ∀ i, i < f.imm.val % 64 → (s.engine (engineNo id)).isValid f.va.val (i / 4) = true)
    (hst : laneIn s id 4 f.vb.val 0 = some st) {v : Nat} (hlt : v < 2 ^ 32)
    (hv : crc32cRun st ((List.range (f.imm.val % 64)).map fun i => BitVec.ofNat 8 (laneOf 1 ((s.engine (engineNo id)).reg f.va.val) i)) = v) :
    Takes (.crc id f) s id f.vd.val 4 0 (some v) 0 := by
  have hty : TypeSet.u32u64.has f.ty.val = true := by rw [hu32]; rfl
  have ht : laneTy f.ty.val = some ⟨4, .uint⟩ := by rw [hu32]; rfl
  have hvb : (s.regsOf id).isValid f.vb.val 0 = true := by rw [laneIn_isSome s id 4, hst]; rfl
  have hval : laneOf 4 ((s.regsOf id).reg f.vb.val) 0 = st := by
    rw [← regsOf_src, Engine.src, if_pos hvb] at hst
    exact Option.some.inj hst
  refine (WordBody.of_issue (body := wordCrc f) rfl rfl).takes_lane0 ?_ (by decide) hm hlt
  have hall : (List.range (f.imm.val % 64)).all (fun i => (s.regsOf id).isValid f.va.val (i / 4)) = true := all_range_of hva
  rw [wordCrc, forTypes_of hty ht]
  simp only [Nat.min_eq_right hn, hall, hvb, hval, hsub, Bool.and_self, beq_self_eq_true, if_true]
  exact congrArg (fun r => Engine.writeLane0 (s.regsOf id) f 4 (some r, 0)) hv

theorem find?_range_le {p : Nat → Bool} (m : Nat) : ((List.range m).find? p).getD m ≤ m := by
  cases h : (List.range m).find? p with
  | none => exact le_rfl
  | some i => exact (List.mem_range.mp (List.mem_of_find?_eq_some h)).le

theorem takes_bfind {s : State} {id : EngineId} {f : Fields} (hu8 : f.ty.val = 3) (hm : f.mask.val = 0)
    (hva : ∀ i, i < 32 → (s.engine (engineNo id)).isValid f.va.val i = true) : Takes (.bfind id f) s id f.vd.val 1 0
      (some (((List.range 32).find? fun i => laneOf 1 ((s.engine (engineNo id)).reg f.va.val) i == f.imm.val % 256).getD 32)) 0 :=
  (WordBody.of_issue (body := wordBfind f) rfl rfl).takes_lane0 (wordBfind_eq (s.regsOf id) hu8 hm hva) (by decide) hm
    ((find?_range_le 32).trans_lt (by decide))

theorem takes_bdiff {s : State} {id : EngineId} {f : Fields} (hu8 : f.ty.val = 3) (hm : f.mask.val = 0)
    (hva : ∀ i, i < 32 → (s.engine (engineNo id)).isValid f.va.val i = true)
    (hvb : ∀ i, i < 32 → (s.engine (engineNo id)).isValid f.vb.val i = true) : Takes (.bdiff id f) s id f.vd.val 1 0
      (some (((List.range 32).find? fun i => laneOf 1 ((s.engine (engineNo id)).reg f.va.val) i !=
        laneOf 1 ((s.engine (engineNo id)).reg f.vb.val) i).getD 32)) 0 :=
  (WordBody.of_issue (body := wordBdiff f) rfl rfl).takes_lane0 (wordBdiff_eq (s.regsOf id) hu8 hm hva hvb) (by decide) hm
    ((find?_range_le 32).trans_lt (by decide))

theorem takes_utf8v {s : State} {id : EngineId} {f : Fields} {x : Nat} (hu8 : f.ty.val = 3) (hm : f.mask.val = 0)
    (hva : ∀ i, i < 32 → (s.engine (engineNo id)).isValid f.va.val i = true) (hvb : (s.engine (engineNo id)).isValid f.vb.val 0 = true)
    (hb : laneOf 1 ((s.engine (engineNo id)).reg f.vb.val) 0 = 0) (hx : x < 256)
    (h : (((List.range 32).map fun i => laneOf 1 ((s.engine (engineNo id)).reg f.va.val) i).foldl utf8Step (some (0, 0x80, 0xBF))).elim 0xFF
      Prod.fst = x) : Takes (.utf8v id f) s id f.vd.val 1 0 (some x) 0 := by
  subst h
  exact (WordBody.of_issue (body := wordUtf8v f) rfl rfl).takes_lane0 (wordUtf8v_eq (s.regsOf id) hu8 hm hva hvb hb) (by decide) hm hx

/-- One byte into the CRC-32C register, as eight steps. -/
theorem crc32cRun_single (st : Nat) {x : Nat} (hx : x < 2 ^ 8) : crc32cRun st [BitVec.ofNat 8 x] =
    (List.range 8).foldl (fun x _ => if x % 2 = 1 then x / 2 ^^^ 0x82F63B78 else x / 2) (st ^^^ x) := by
  rw [crc32cRun, crcRun, withNat_eq, crcRun, crc32cByte, BitVec.toNat_ofNat, Nat.mod_eq_of_lt hx, ← crcReflSteps_eq_foldl 0x82F63B78 (List.range 8)]
  rfl

/-- Settles O40: the byte words, XSR, the xxHash64 round, the SipRound and the CRC step. -/
theorem byteAndHashWords : Obligations.ByteAndHashWords := by
  refine ⟨?_, ?_, ?_, ?_, ?_⟩
  · intro s id f hu8 hm e a b r
    have hty : TypeSet.u8.has f.ty.val = true := by rw [hu8]; rfl
    have ht : laneTy f.ty.val = some ⟨1, .uint⟩ := by rw [hu8]; rfl
    refine ⟨fun i x hi hx => ?_, fun hva => ⟨fun n hn heq hlo => ?_, fun hne => ?_, fun hvb hb h => ?_, fun hvb hb h hlo hhi => ?_,
      fun hvb hb hlo hhi => ?_, fun hvb => ⟨fun n hn hne hlo => ?_, fun heq => ?_⟩⟩, fun c hc i h0 hi => byteWords_keep hu8 hm hc h0 hi⟩
    · have hlt := laneIn_lt hx
      exact (WordBody.of_issue (body := wordBlowr f) rfl rfl).takes_writeLanes (forTypes_of hty ht) hi
        (by rw [LaneOn, hm]; exact Engine.on_zero _ hi) (by rw [regsOf_src, hx]) (some_lt (by split <;> omega))
    · have h := takes_bfind hu8 hm hva
      rwa [find?_range_getD_least (p := fun i => a i == f.imm.val % 256) 32 hn (beq_iff_eq.mpr heq) fun i hi => beq_eq_false_iff_ne.mpr (hlo i hi)] at h
    · have h := takes_bfind hu8 hm hva
      rwa [find?_range_getD_none (p := fun i => a i == f.imm.val % 256) 32 fun i hi => beq_eq_false_iff_ne.mpr (hne i hi)] at h
    · refine takes_utf8v hu8 hm hva hvb hb (by decide) ?_
      have hall : ((List.range 32).map a).foldl utf8Step (some (0, 0x80, 0xBF)) = some (0, 0x80, 0xBF) := by
        refine utf8_ascii _ fun x hx => ?_
        obtain ⟨i, hi, rfl⟩ := List.mem_map.mp hx
        exact h i (List.mem_range.mp hi)
      exact congrArg (fun o => Option.elim o 0xFF Prod.fst) hall
    · refine takes_utf8v hu8 hm hva hvb hb (by decide) ?_
      exact congrArg (fun o => Option.elim o 0xFF Prod.fst) ((utf8_last h).trans (utf8Step_lead3 hlo hhi))
    · refine takes_utf8v hu8 hm hva hvb hb (by decide) ?_
      exact congrArg (fun o => Option.elim o 0xFF Prod.fst) (utf8_first (a := a) (utf8Step_noLead hlo hhi))
    · have h := takes_bdiff hu8 hm hva hvb
      rwa [find?_range_getD_least (p := fun i => a i != b i) 32 hn (bne_iff_ne.mpr hne) fun i hi => bne_eq_false_iff_eq.mpr (hlo i hi)] at h
    · have h := takes_bdiff hu8 hm hva hvb
      rwa [find?_range_getD_none (p := fun i => a i != b i) 32 fun i hi => bne_eq_false_iff_eq.mpr (heq i hi)] at h
  · intro s id f t i a hty ht hi hon ha
    have hts : TypeSet.u32u64.has f.ty.val = true := by
      obtain h | h := hty <;> rw [h] <;> rfl
    exact (WordBody.of_issue (body := wordXsr f) rfl rfl).takes_map1 hts ht hi hon ha rfl
      (some_lt (Nat.xor_lt_two_pow (laneIn_lt ha) ((Nat.div_le_self _ _).trans_lt (laneIn_lt ha))))
  · intro s id f i a b hu64 hi hon ha hb
    have hty : TypeSet.u64.has f.ty.val = true := by rw [hu64]; rfl
    have ht : laneTy f.ty.val = some ⟨8, .uint⟩ := by rw [hu64]; rfl
    have hlt : xxRound b a < 2 ^ (8 * 8) := Nat.mod_lt _ (by decide)
    exact (WordBody.of_issue (body := wordXxr f) rfl rfl).takes_writeLanes (forTypes_of hty ht) hi hon
      (by rw [regsOf_src, regsOf_src, ha, hb, ← xxRound_eq]) (by rw [← xxRound_eq]; exact some_lt hlt)
  · intro s id f v0 v1 v2 v3 hu64 hm h0 h1 h2 h3
    have hround := sipRound_eq v0 v1 v2 v3
    refine ⟨_, _, _, _, fun p hp => ?_, rfl, rfl, rfl, rfl⟩
    simp only [List.mem_cons, List.not_mem_nil, or_false] at hp
    obtain rfl | rfl | rfl | rfl := hp
    · exact takes_sipr (i := 0) hu64 hm h0 h1 h2 h3 (congrArg (·[0]?) hround)
    · exact takes_sipr (i := 1) hu64 hm h0 h1 h2 h3 (congrArg (·[1]?) hround)
    · exact takes_sipr (i := 2) hu64 hm h0 h1 h2 h3 (congrArg (·[2]?) hround)
    · exact takes_sipr (i := 3) hu64 hm h0 h1 h2 h3 (congrArg (·[3]?) hround)
  · rintro s id f n hu32 hm hsub rfl hn hva st hst
    refine ⟨fun hzero => ?_, fun x hx hone => ?_⟩
    · exact takes_crc32c hu32 hm hsub hn hva hst (laneIn_lt hst) (by rw [hzero]; rfl)
    · have hbyte : x < 2 ^ 8 := hx ▸ laneOf_lt 1 _ 0
      have hxor : st ^^^ x < 2 ^ 32 := Nat.xor_lt_two_pow (laneIn_lt hst) (hbyte.trans (by decide))
      rw [← crcReflSteps_eq_foldl 0x82F63B78 (List.range 8)]
      refine takes_crc32c hu32 hm hsub hn hva hst (crcReflSteps_lt (by decide) _ _ hxor) ?_
      rw [hone, List.range_one, List.map_singleton, hx, crc32cRun_single st hbyte, ← crcReflSteps_eq_foldl 0x82F63B78 (List.range 8)]

end Sys2Proof.Machine
end

section
/-! Proofs about chapter 05 (engine arithmetic): CVT, FOLD, QMX and DQMX (R118, R149, R150). -/

namespace Sys2Proof.Machine

/-! ### CVT (R149) -/

/-- The lanes of a part of CVT, its first lane in the source and in the destination. -/
def cvtWidth (ts td : LTy) : Nat := 32 / max ts.size td.size
def cvtSrc (f : Fields) (ts td : LTy) : Nat := if ts.size < td.size then f.sub.val % 4 * cvtWidth ts td else 0
def cvtDst (f : Fields) (ts td : LTy) : Nat := if ts.size > td.size then f.sub.val % 4 * cvtWidth ts td else 0

/-- Whether a lane of VD lies in the part. -/
def cvtPart (f : Fields) (ts td : LTy) (l : Nat) : Bool := decide (cvtDst f ts td ≤ l) && decide (l < cvtDst f ts td + cvtWidth ts td)

/-- What CVT makes of a lane of the part. -/
def cvtRes (cx : Option ProgCtx) (f : Fields) (ts td : LTy) (e : Engine) (l : Nat) : LaneRes :=
  match e.src ts.size f.va.val (cvtSrc f ts td + (l - cvtDst f ts td)) with
  | some a => cvtLane (f.imm.val % 256) f.ty.val f (e.drawOf cx l) a
  | none => (none, 0)

theorem wordCvt_eq {cx : Option ProgCtx} {f : Fields} {ts td : LTy} (e : Engine) (hs : laneTy (f.imm.val % 256) = some ts)
    (hd : laneTy f.ty.val = some td) : wordCvt cx f e =
      (e.putLanes f.vd.val td.size fun l => if cvtPart f ts td l then e.masked f td.size (cvtRes cx f ts td e) l else e.lane td.size f.vd.val l).raise
        (e.maskedFlags f td.size fun l => if cvtPart f ts td l then cvtRes cx f ts td e l else (none, 0)) := by
  rw [wordCvt, hs, hd]
  rfl

/-- CVT between integer types, none of them DATE32 or TS_US on the source's side. -/
theorem cvtLane_of_int {f : Fields} {sc dc a u : Nat} {ts td : LTy} (his : isIntTy sc = true) (hid : isIntTy dc = true)
    (hs : laneTy sc = some ts) (hd : laneTy dc = some td) (h31 : sc ≠ 0x31) (h32 : sc ≠ 0x32) :
    cvtLane sc dc f u a = (some (fitted td f.sat (laneInt ts a)).1, (fitted td f.sat (laneInt ts a)).2) := by
  have hnotime : (sc == 0x32 && dc == 0x31) = false := by simp [h32]
  have hnodate : (sc == 0x31 && dc == 0x32) = false := by simp [h31]
  rw [cvtLane, hs, hd]
  simp only [hnotime, hnodate, Bool.false_eq_true, if_false]
  rw [← fitInt_eq_fitted]
  obtain hk | hk := (isIntTy_laneTy his hs).1 <;> obtain hk' | hk' := (isIntTy_laneTy hid hd).1 <;> simp only [hk, hk'] <;> rfl

section
variable {s : State} {id : EngineId} {f : Fields} {ts td : LTy} (hs : laneTy (f.imm.val % 256) = some ts) (hd : laneTy f.ty.val = some td)
include hs hd

/-- An executed lane of the part takes its converted source lane. -/
theorem takes_cvt {l a v fl : Nat} (hl : l < 32 / td.size) (hpart : cvtPart f ts td l = true) (hon : LaneOn s id f l)
    (ha : laneIn s id ts.size f.va.val (cvtSrc f ts td + (l - cvtDst f ts td)) = some a)
    (hv : ∀ u, cvtLane (f.imm.val % 256) f.ty.val f u a = (some v, fl)) (hlt : v < 2 ^ (8 * td.size)) :
    Takes (.cvt id f) s id f.vd.val td.size l (some v) fl := by
  have hres : cvtRes (s.core (coreNo id)).ctx f ts td (s.regsOf id) l = (some v, fl) := by
    rw [cvtRes, regsOf_src, ha]
    exact hv _
  have hon' : (s.regsOf id).on f.mask.val l = true := hon
  refine (WordBody.of_issue (body := wordCvt (s.core (coreNo id)).ctx f) rfl rfl).takes ?_ ?_
  · rw [wordCvt_eq _ hs hd]
    refine (Engine.lane_putLanes _ td.size f.vd.val _ hl).trans ?_
    simp only [hpart, if_true, Engine.masked, hon', hres, LaneRes.take]
    simp [Nat.mod_eq_of_lt hlt]
  · rw [wordCvt_eq _ hs hd]
    refine Nat.land_lor_of_land (land_orFlags _ _ (List.mem_map.mpr ⟨l, List.mem_range.mpr hl, ?_⟩))
    simp only [hon', hpart, if_true, hres]

/-- A lane outside the part keeps. -/
theorem cvt_keeps {l : Nat} (hl : l < 32 / td.size) (hpart : cvtPart f ts td l = false) :
    Ends (.cvt id f) s fun u => (u.engine (engineNo id)).lane td.size f.vd.val l = (s.engine (engineNo id)).lane td.size f.vd.val l := by
  refine ends_mono ((WordBody.of_issue (body := wordCvt (s.core (coreNo id)).ctx f) rfl rfl).lane_after f.vd.val td.size l) fun u hu => ?_
  rw [hu, wordCvt_eq _ hs hd]
  refine (Engine.lane_putLanes _ td.size f.vd.val _ hl).trans ?_
  simp only [hpart, Bool.false_eq_true, if_false, regsOf_lane]
  simp [Engine.lane, Nat.mod_eq_of_lt (laneOf_lt _ _ _)]

end

/-! ### FOLD (R118) -/

theorem takes_fold {s : State} {id : EngineId} {f : Fields} {t : LTy} {i a k : Nat} (ht : laneTy f.ty.val = some t) (hint : isIntTy f.ty.val = true)
    (hi : i < 32 / t.size) (hon : LaneOn s id f i) (ha : laneIn s id t.size f.va.val i = some a) (hk : foldKey t a = some k)
    (hlt : k < 2 ^ (8 * t.size)) :
    Takes (.fold id f) s id f.vd.val t.size i (some (if f.sub.val % 2 = 1 then 2 ^ (8 * t.size) - 1 - k else k)) 0 := by
  refine (WordBody.of_issue (body := wordFold f) rfl rfl).takes_map1 (ts := .intFlt) (by simp [TypeSet.has, hint]) ht hi hon ha ?_ (some_lt ?_)
  · rw [hk]
    simp only [Option.map_some, beq_iff_eq]
  · split <;> omega

/-! ### QMX (R150) -/

theorem packBits_zeros (b : Nat) (l : List Nat) (h : ∀ x ∈ l, x = 0) : packBits b l = 0 := by
  induction l with
  | nil => rfl
  | cons x l ih => rw [packBits, h x (by simp), ih fun y hy => h y (by simp [hy]), Nat.zero_mod, Nat.mul_zero]

theorem qmxBlock_nan {fmt rnd : Nat} {draw : Nat → Nat} {vs : List FVal} (h : .nan ∈ vs) :
    qmxBlock fmt rnd draw vs = (0xFF, vs.map fun _ => 0, true) := by
  have hbad : (vs.any fun x => match x with | .fin _ _ _ => false | _ => true) = true := List.any_eq_true.mpr ⟨.nan, h, rfl⟩
  rw [qmxBlock]
  exact if_pos hbad

/-- The zeros of a block. -/
def IsZero (v : FVal) : Prop := ∃ d, v = .fin false 0 d

theorem amax_zeros {vs : List FVal} (h : ∀ v ∈ vs, IsZero v) : IsZero (amax vs) := by
  refine List.foldlRecOn (motive := IsZero) _ _ ⟨1, rfl⟩ fun a ha v hv => ?_
  split
  · exact h v hv
  · exact ha

theorem mxRound_zero (fmt rnd u d : Nat) (e : Int) : mxRound fmt rnd u (.fin false 0 d) e = 0 := by
  simp only [mxRound]
  split
  · simp [FpFmt.roundMag]
  · simp [roundNat, roundsUp, wrapN]

theorem qmxBlock_zeros {fmt rnd : Nat} {draw : Nat → Nat} {vs : List FVal} (h : ∀ v ∈ vs, IsZero v) :
    ∃ l, qmxBlock fmt rnd draw vs = (127, l, false) ∧ ∀ x ∈ l, x = 0 := by
  have hfin : (vs.any fun x => match x with | .fin _ _ _ => false | _ => true) = false := by
    refine List.any_eq_false.mpr fun v hv => ?_
    obtain ⟨d, rfl⟩ := h v hv
    exact Bool.false_ne_true
  obtain ⟨d, hd⟩ := amax_zeros h
  refine ⟨vs.zipIdx.map fun p => mxRound fmt rnd (draw p.2) p.1 127, ?_, fun x hx => ?_⟩
  · rw [qmxBlock]
    refine (if_neg (ne_true_of_eq_false hfin)).trans ?_
    simp [hd]
  · obtain ⟨p, hp, rfl⟩ := List.mem_map.mp hx
    obtain ⟨d, hd⟩ := h p.1 (List.fst_mem_of_mem_zipIdx hp)
    rw [hd, mxRound_zero]

/-- A source lane of a block: an invalid one is +0 (R150). -/
def blockVal (fm : FpFmt) : Option Nat → FVal
  | some a => fm.decode a
  | none => .fin false 0 1

/-- The values of the block that QMX reads: 32 source lanes of consecutive registers. -/
def qmxVals (e : Engine) (f : Fields) (sz : Nat) (fm : FpFmt) : List FVal :=
  (List.range 32).map fun i => blockVal fm (e.src sz (f.va.val + i / (32 / sz)) (i % (32 / sz)))

theorem wordQmx_eq {cx : Option ProgCtx} {f : Fields} {t : LTy} {fm : FpFmt} (e : Engine) (hty : TypeSet.qmx.has f.ty.val = true)
    (ht : laneTy f.ty.val = some t) (hk : t.kind = .flt fm) (hsub : f.sub.val % 8 < 6) {scale : Nat} {l : List Nat} {inv : Bool}
    (hq : qmxBlock (f.sub.val % 8) f.rnd.val (fun i => e.drawOf cx i) (qmxVals e f t.size fm) = (scale, l, inv)) :
    wordQmx cx f e = ((e.setReg f.vd.val (packBits (mxElemBits (f.sub.val % 8)) l) (2 ^ 32 - 1)).setReg f.vb.val scale (2 ^ 32 - 1)).raise
      (if inv then flagINV else 0) := by
  have hguard : (!(TypeSet.qmx.has f.ty.val) || decide (f.sub.val % 8 ≥ 6)) = false := by simp [hty]; omega
  obtain ⟨sz, kind⟩ := t
  obtain rfl : kind = .flt fm := hk
  rw [wordQmx, hguard, if_neg Bool.false_ne_true, ht]
  exact congrArg (fun q : Nat × List Nat × Bool => ((e.setReg f.vd.val (packBits (mxElemBits (f.sub.val % 8)) q.2.1) (2 ^ 32 - 1)).setReg f.vb.val
    q.1 (2 ^ 32 - 1)).raise (if q.2.2 then flagINV else 0)) hq

/-- The registers and flags that QMX leaves. -/
theorem qmx_ends {s : State} {id : EngineId} {f : Fields} {t : LTy} {fm : FpFmt} (hty : TypeSet.qmx.has f.ty.val = true)
    (ht : laneTy f.ty.val = some t) (hk : t.kind = .flt fm) (hsub : f.sub.val % 8 < 6) (hne : f.vd ≠ f.vb) {scale : Nat} {l : List Nat} {inv : Bool}
    (hq : qmxBlock (f.sub.val % 8) f.rnd.val (fun i => (s.regsOf id).drawOf (s.core (coreNo id)).ctx i) (qmxVals (s.regsOf id) f t.size fm) =
      (scale, l, inv)) (hl : ∀ x ∈ l, x = 0) :
    Ends (.qmx id f) s fun u => (u.engine (engineNo id)).reg f.vd.val = 0 ∧ (u.engine (engineNo id)).reg f.vb.val = BitVec.ofNat 256 scale ∧
      tget 0 (u.engine (engineNo id)).valid f.vd.val = BitVec.allOnes 32 ∧ tget 0 (u.engine (engineNo id)).valid f.vb.val = BitVec.allOnes 32 ∧
      Nat.land (u.engine (engineNo id)).flags (if inv then flagINV else 0) = if inv then flagINV else 0 := by
  have hvne : f.vd.val ≠ f.vb.val := fun h => hne (Fin.ext h)
  refine ends_mono (WordBody.of_issue (body := wordQmx (s.core (coreNo id)).ctx f) rfl rfl).engine_after fun u hu => ?_
  rw [wordQmx_eq (s.regsOf id) hty ht hk hsub hq, packBits_zeros _ l hl] at hu
  have hv := congrArg Engine.v hu
  have hvalid := congrArg Engine.valid hu
  have hflags := congrArg Engine.flags hu
  rw [nextWord_reg] at hv
  rw [nextWord_valid] at hvalid
  rw [nextWord_flags] at hflags
  have hreg : ∀ j, (u.engine (engineNo id)).reg j = (((s.regsOf id).setReg f.vd.val 0 (2 ^ 32 - 1)).setReg f.vb.val scale (2 ^ 32 - 1)).reg j :=
    fun j => congrArg (fun v => tget 0 v j) hv
  have hval : ∀ j, tget 0 (u.engine (engineNo id)).valid j =
      tget 0 (((s.regsOf id).setReg f.vd.val 0 (2 ^ 32 - 1)).setReg f.vb.val scale (2 ^ 32 - 1)).valid j :=
    fun j => congrArg (fun v => tget 0 v j) hvalid
  refine ⟨?_, ?_, ?_, ?_, ?_⟩
  · rw [hreg, Engine.setReg_reg_ne _ _ _ hvne, Engine.setReg_reg_same]
    rfl
  · rw [hreg, Engine.setReg_reg_same]
  · rw [hval, Engine.setReg_valid_ne _ _ _ hvne, Engine.setReg_valid_same]
    rfl
  · rw [hval, Engine.setReg_valid_same]
    rfl
  · rw [hflags]
    exact Nat.land_lor_of_land (Nat.land_lor_of_land (Nat.and_self _))

theorem decode_zero : ∀ fm ∈ [fp16, bf16, fp32, fp64], IsZero (fm.decode 0) := by
  simp only [List.forall_mem_cons]
  exact ⟨⟨_, rfl⟩, ⟨_, rfl⟩, ⟨_, rfl⟩, ⟨_, rfl⟩, nofun⟩

theorem isFltTy_of_qmx {c : Nat} (h : TypeSet.qmx.has c = true) : isFltTy c = true := by
  simp only [TypeSet.has, Bool.or_eq_true, beq_iff_eq] at h
  obtain (rfl | rfl) | rfl := h <;> rfl

/-! ### DQMX (R150) -/

theorem Engine.lane_putLanes_ne (e : Engine) {j j' : Nat} (h : j' ≠ j) (sz sz' i : Nat) (p : Nat → Bool × Nat) :
    (e.putLanes j sz p).lane sz' j' i = e.lane sz' j' i := by
  simp only [Engine.putLanes, Engine.lane, Engine.isValid, Engine.setReg_reg_ne _ _ _ h, Engine.setReg_valid_ne _ _ _ h]

section
variable (e0 : Engine) (f : Fields) (fm : FpFmt) (sz fmt scale : Nat) (ok : Bool)

/-- After the first `n` destination registers, each of them holds its elements. -/
theorem lane_foldl_dqmxReg (e : Engine) {q i : Nat} (hi : i < 32 / sz) (hon : e0.on f.mask.val i = true) : ∀ n, q < n →
    ((List.range n).foldl (dqmxReg e0 f fm sz fmt scale ok) e).lane sz (f.vd.val + q) i =
      ((dqmxElem e0 f fm fmt scale ok (q * (32 / sz) + i)).1.isSome,
        (dqmxElem e0 f fm fmt scale ok (q * (32 / sz) + i)).1.getD 0 % 2 ^ (8 * sz)) := by
  intro n
  induction n with
  | zero => intro h; omega
  | succ n ih =>
    intro h
    rw [List.range_succ, List.foldl_append, List.foldl_cons, List.foldl_nil]
    obtain rfl | hlt := Nat.eq_or_lt_of_le (Nat.le_of_lt_succ h)
    · refine (Engine.lane_putLanes _ sz (f.vd.val + q) _ hi).trans ?_
      simp only [hon, if_true, LaneRes.take]
    · refine (Engine.lane_putLanes_ne _ (by omega) sz sz i _).trans ?_
      exact ih hlt

end

theorem mxElemBits_le (fmt : Nat) : 0 < mxElemBits fmt ∧ mxElemBits fmt ≤ 8 := by
  unfold mxElemBits
  split <;> decide

theorem Engine.isValid_of_allOnes {e : Engine} {j i : Nat} (h : tget 0 e.valid j = BitVec.allOnes 32) (hi : i < 32) : e.isValid j i = true := by
  rw [Engine.isValid, h, bitOf_eq_testBit, BitVec.testBit_toNat, BitVec.getLsbD_allOnes]
  exact decide_eq_true hi

/-- A scale of 0xFF makes every element a NaN (R108). -/
theorem dqmxElem_nan {e : Engine} {f : Fields} {fm : FpFmt} {fmt k : Nat} (hk : k < 32) (hva : tget 0 e.valid f.va.val = BitVec.allOnes 32) :
    dqmxElem e f fm fmt 0xFF true k = (some fm.nanCode, 0) := by
  obtain ⟨hpos, hle⟩ := mxElemBits_le fmt
  have hmul : mxElemBits fmt * k ≤ 8 * k := Nat.mul_le_mul_right k hle
  have hfirst : e.isValid f.va.val (mxElemBits fmt * k / 8) = true := Engine.isValid_of_allOnes hva (by omega)
  have hlast : e.isValid f.va.val ((mxElemBits fmt * k + mxElemBits fmt - 1) / 8) = true := Engine.isValid_of_allOnes hva (by omega)
  simp [dqmxElem, hfirst, hlast, mxValue]

theorem wordDqmx_eq {f : Fields} {t : LTy} {fm : FpFmt} (e : Engine) (hty : TypeSet.dqmx.has f.ty.val = true) (ht : laneTy f.ty.val = some t)
    (hk : t.kind = .flt fm) (hsub : f.sub.val % 8 < 6) : wordDqmx f e =
      (List.range t.size).foldl (dqmxReg e f fm t.size (f.sub.val % 8) (laneOf 1 (e.reg f.vb.val) 0) (e.isValid f.vb.val 0)) e := by
  have hguard : (!(TypeSet.dqmx.has f.ty.val) || decide (f.sub.val % 8 ≥ 6)) = false := by simp [hty]; omega
  obtain ⟨sz, kind⟩ := t
  obtain rfl : kind = .flt fm := hk
  rw [wordDqmx, hguard, if_neg Bool.false_ne_true, ht]

theorem isFltTy_of_dqmx {c : Nat} (h : TypeSet.dqmx.has c = true) : isFltTy c = true := by
  simp only [TypeSet.has, Bool.or_eq_true, beq_iff_eq] at h
  obtain rfl | rfl := h <;> rfl

theorem nanCode_lt : ∀ p ∈ [(fp16, 2), (bf16, 2), (fp32, 4), (fp64, 8)], p.1.nanCode < 2 ^ (8 * p.2) := by decide

/-- Settles O39: CVT inside and outside its part, FOLD by signedness, QMX of NaNs and of zeros, DQMX under the NaN scale. -/
theorem convertingWords : Obligations.ConvertingWords := by
  refine ⟨?_, ?_, ?_, ?_⟩
  · intro s id f ts td i j a his hid hs hd h31 h32 hi p hj ha hjlt k hklt hon
    have hpart : ∀ l, cvtPart f ts td l = true ↔ k - i ≤ l ∧ l < k - i + 32 / max ts.size td.size := by
      intro l
      have hdst : cvtDst f ts td = k - i := by
        change (if ts.size > td.size then p else 0) = (if ts.size > td.size then p + i else i) - i
        split <;> omega
      simp [cvtPart, hdst, cvtWidth]
    have hki : i ≤ k := by
      change i ≤ if ts.size > td.size then p + i else i
      split <;> omega
    refine ⟨takes_cvt hs hd hklt ((hpart k).mpr (by omega)) hon ?_ (fun u => cvtLane_of_int his hid hs hd h31 h32) (fitted_lt _ _ _), fun l hl hout => ?_⟩
    · have hsrc : cvtSrc f ts td + (k - cvtDst f ts td) = j := by
        subst hj
        change (if ts.size < td.size then p else 0) + ((if ts.size > td.size then p + i else i) - if ts.size > td.size then p else 0) = _
        split <;> split <;> omega
      rw [hsrc, ha]
    · exact cvt_keeps hs hd hl (by rw [← Bool.not_eq_true, hpart]; omega)
  · intro s id f t i a ht hi hon ha
    have hlt := laneIn_lt ha
    refine ⟨fun hk hint => takes_fold ht hint hi hon ha (by rw [foldKey, hk]) hlt, fun hk hint => ?_⟩
    have hsz : 8 * t.size - 1 < 8 * t.size := by
      have := (isIntTy_laneTy hint ht).2
      omega
    exact takes_fold ht hint hi hon ha (by rw [foldKey, hk]; rfl)
      (Nat.xor_lt_two_pow hlt ((Nat.pow_lt_pow_iff_right (by decide)).mpr hsz))
  · intro s id f t fm hty ht hk hsub hne vals ends
    have hvals : qmxVals (s.regsOf id) f t.size fm = vals.map (blockVal fm) := by
      rw [show vals = (List.range 32).map _ from rfl, List.map_map]
      rfl
    refine ⟨fun ⟨a, ha, hnan⟩ => ?_, fun hzero => ?_⟩
    · have hmem : FVal.nan ∈ qmxVals (s.regsOf id) f t.size fm := by
        rw [hvals]
        exact List.mem_map.mpr ⟨some a, ha, eq_of_beq hnan⟩
      exact qmx_ends hty ht hk hsub hne (qmxBlock_nan hmem) (by simp)
    · have hz : ∀ v ∈ qmxVals (s.regsOf id) f t.size fm, IsZero v := by
        rw [hvals]
        intro v hv
        obtain ⟨o, ho, rfl⟩ := List.mem_map.mp hv
        obtain rfl | rfl := hzero o ho
        · exact ⟨1, rfl⟩
        · exact decode_zero fm (isFltTy_mem (isFltTy_of_qmx hty) ht hk)
      obtain ⟨l, hq, hl⟩ := qmxBlock_zeros (fmt := f.sub.val % 8) (rnd := f.rnd.val)
        (draw := fun i => (s.regsOf id).drawOf (s.core (coreNo id)).ctx i) hz
      exact qmx_ends hty ht hk hsub hne hq hl
  · intro s id f t fm k hty ht hk hsub hklt hvd hon hscale hvb hva
    have hfmt := isFltTy_fmt (isFltTy_of_dqmx hty) ht hk
    have hL : 0 < 32 / t.size ∧ k / (32 / t.size) < t.size := by
      simp only [List.mem_cons, List.not_mem_nil, or_false, Prod.mk.injEq] at hfmt
      obtain ⟨-, h⟩ | ⟨-, h⟩ | ⟨-, h⟩ | ⟨-, h⟩ := hfmt <;> rw [h] <;> omega
    refine ends_mono ((WordBody.of_issue (body := wordDqmx f) rfl rfl).lane_after (f.vd.val + k / (32 / t.size)) t.size (k % (32 / t.size))) fun u hu => ?_
    have helem : dqmxElem (s.regsOf id) f fm (f.sub.val % 8) 0xFF true (k / (32 / t.size) * (32 / t.size) + k % (32 / t.size)) = (some fm.nanCode, 0) := by
      rw [Nat.div_add_mod']
      exact dqmxElem_nan hklt hva
    rw [hu, wordDqmx_eq _ hty ht hk hsub, show laneOf 1 ((s.regsOf id).reg f.vb.val) 0 = 0xFF from hscale,
      Engine.isValid_of_allOnes (e := s.regsOf id) hvb (by decide), lane_foldl_dqmxReg (s.regsOf id) _ _ _ _ _ _ _ (Nat.mod_lt _ hL.1) hon _ hL.2, helem]
    exact Prod.ext rfl (Nat.mod_eq_of_lt (nanCode_lt _ hfmt))

end Sys2Proof.Machine
end

section
/-! Proofs about chapter 05 (engine arithmetic): the rules that all words share which write VD lane by lane (R133, R135, R136, R142). -/

namespace Sys2Proof.Machine

/-! ### The forms of a body that writes VD lane by lane -/

/-- A body over the types `ts` that writes VD lane by lane; `strict` where an invalid VA lane makes the lane invalid. -/
inductive LaneWord (f : Fields) : TypeSet → Bool → (Engine → Engine) → Prop
  | map1 (ts : TypeSet) (op1 : LTy → Nat → LaneRes) : LaneWord f ts true fun e => forTypes ts f e fun t => e.map1 f t.size (op1 t)
  | map2 (ts : TypeSet) (op2 : LTy → Nat → Nat → LaneRes) : LaneWord f ts true fun e => forTypes ts f e fun t => e.map2 f t.size (op2 t)
  | map3 (ts : TypeSet) (op3 : LTy → Nat → Nat → Nat → LaneRes) : LaneWord f ts true fun e => forTypes ts f e fun t => e.map3 f t.size (op3 t)
  | shift (k : Nat) : LaneWord f .int true fun e => forTypes .int f e fun _ => e.shiftWord f k
  | mov : LaneWord f .fixed true (wordMov f)
  | blowr : LaneWord f .u8 true (wordBlowr f)
  | xxr : LaneWord f .u64 true (wordXxr f)
  | sipr : LaneWord f .u64 false (wordSipr f)
  | lanes (ts : TypeSet) (g : LTy → Engine → Nat → LaneRes) : LaneWord f ts false fun e => forTypes ts f e fun t => e.writeLanes f t.size (g t e)

/-- The words that choose or move lanes, whose result lane does not follow the validity of its VA lane (R136). -/
def choosingOps : List Nat := [0x30, 0x42, 0x44, 0x46, 0x47, 0x83, 0xA0, 0xA1, 0xA2]

/-- What a lane word answers: the issue of its body, which may be replaced by a normalisation. -/
inductive LaneExec (s : State) (op : Nat) (id : EngineId) (f : Fields) (ts : TypeSet) (strict : Bool) : State → Prop
  | plain {body : Engine → Engine} (h : LaneWord f ts strict body) : LaneExec s op id f ts strict (s.issue op id f body)
  | norm {body : Engine → Engine} (h : LaneWord f ts strict body) : LaneExec s op id f ts strict (s.issueNorm op id f body)

/-- Every lane word has one of these forms, on the types that its opcode accepts (R157). -/
theorem exec_laneWord {c : Instr} {op : Nat} {id : EngineId} {f : Fields} (hp : wordParts c = some (op, id, f)) (hop : op ∈ laneOps) (s : State) :
    ∃ w u, wordForm op = some w ∧ exec c s = .next u ∧ LaneExec s op id f w.ts (!choosingOps.contains op) u := by
  unfold laneOps at hop
  fin_cases hop
  all_goals obtain ⟨⟩ : some _ = some c := wordOf_of_wordParts hp
  all_goals refine ⟨_, _, rfl, rfl, ?_⟩
  all_goals constructor
  exacts [.map2 _ _, .map2 _ _, .map2 _ _, .map2 _ _, .map3 _ _, .map2 _ _, .map2 _ _, .map2 _ _, .map2 _ _, .map2 _ _, .map2 _ _, .map1 _ _,
    .map1 _ _, .map3 _ _, .map1 _ _, .mov, .lanes _ _, .map1 _ _, .map1 _ _, .map1 _ _, .map1 _ _, .map1 _ _, .map1 _ _, .map1 _ _, .map1 _ _,
    .lanes _ _, .lanes _ _, .lanes _ _, .lanes _ _, .map2 _ _, .map2 _ _, .map2 _ _, .map2 _ _, .map1 _ _, .shift _, .shift _, .shift _, .shift _,
    .map1 _ _, .map1 _ _, .map1 _ _, .map1 _ _, .blowr, .map1 _ _, .xxr, .sipr, .lanes _ _, .lanes _ _, .lanes _ _]

/-! ### Every lane word writes its lanes under the mask -/

section
variable {f : Fields} {ts : TypeSet} {t : LTy} {strict : Bool} {body : Engine → Engine}

theorem u64_laneTy (hts : TypeSet.u64.has f.ty.val = true) (ht : laneTy f.ty.val = some t) : t = ⟨8, .uint⟩ := by
  rw [eq_of_beq hts] at ht
  cases ht
  rfl

/-- A body of a lane word, on a type that it accepts, writes some result in each lane; a strict one none where the VA lane is invalid. -/
theorem LaneWord.writes (h : LaneWord f ts strict body) (hts : ts.has f.ty.val = true) (ht : laneTy f.ty.val = some t) :
    ∃ g : Engine → Nat → LaneRes, (∀ e, body e = e.writeLanes f t.size (g e)) ∧
      (strict = true → ∀ e i, e.src t.size f.va.val i = none → (g e i).1 = none) := by
  cases h with
  | map1 ts op1 => exact ⟨_, fun e => forTypes_of hts ht, fun _ e i h => by rw [h]⟩
  | map2 ts op2 => exact ⟨_, fun e => forTypes_of hts ht, fun _ e i h => by rw [h]⟩
  | map3 ts op3 => exact ⟨_, fun e => forTypes_of hts ht, fun _ e i h => by rw [h]⟩
  | shift k =>
    have hbody : ∀ e : Engine, (forTypes .int f e fun _ => e.shiftWord f k) =
        if f.sub.val % 2 == 1 then e.map1 f t.size fun a => (some (laneShift t k a (shiftCount t f 0)), 0)
        else e.map2 f t.size fun a b => (some (laneShift t k a (shiftCount t f b)), 0) := fun e => by
      rw [forTypes_of hts ht, Engine.shiftWord, withTy, ht]
    by_cases hsub : (f.sub.val % 2 == 1) = true
    · exact ⟨_, fun e => (hbody e).trans (if_pos hsub), fun _ e i h => by rw [h]⟩
    · exact ⟨_, fun e => (hbody e).trans (if_neg hsub), fun _ e i h => by rw [h]⟩
  | mov => exact ⟨_, fun e => forTypes_of hts ht, fun _ e i h => h⟩
  | blowr =>
    obtain rfl := laneTy_uint_of_u8 (eq_of_beq hts) ht
    exact ⟨_, fun e => forTypes_of hts ht, fun _ e i h => by rw [h]⟩
  | xxr =>
    obtain rfl := u64_laneTy hts ht
    exact ⟨_, fun e => forTypes_of hts ht, fun _ e i h => by rw [h]⟩
  | sipr =>
    obtain rfl := u64_laneTy hts ht
    exact ⟨_, fun e => forTypes_of hts ht, nofun⟩
  | lanes ts g => exact ⟨fun e => g t e, fun e => forTypes_of hts ht, nofun⟩

theorem kind_of_isFltTy {c : Nat} (h : isFltTy c = true) (ht : laneTy c = some t) : ∃ fm ∈ [fp16, bf16, fp32, fp64], t.kind = .flt fm := by
  unfold laneTy at ht
  split at ht
  all_goals cases ht
  all_goals revert h
  all_goals decide

/-- A normalisation is a unary word on the floating-point types. -/
theorem normed_writes {n : Norm} {ps : List Nat} (hflt : isFltTy f.ty.val = true) (ht : laneTy f.ty.val = some t) :
    ∃ g : Engine → Nat → LaneRes, (∀ e, normed n ps f e = e.writeLanes f t.size (g e)) ∧
      ∀ e i, e.src t.size f.va.val i = none → (g e i).1 = none := by
  obtain ⟨fm, -, hk⟩ := kind_of_isFltTy hflt ht
  obtain ⟨sz, kind⟩ := t
  obtain rfl : kind = .flt fm := hk
  exact ⟨_, fun e => forTypes_of (ts := .flt) hflt ht, fun e i h => by rw [h]⟩

variable {c : Instr} {s : State} {op : Nat} {id : EngineId}

/-- A lane word, whether it computes a normalisation or not, is the issue of a body that writes VD lane by lane. -/
theorem laneWord_body (hw : WordCmd c id f op) (hop : op ∈ laneOps) (ht : laneTy f.ty.val = some t) (s : State) :
    ∃ (b : Engine → Engine) (g : Engine → Nat → LaneRes), WordBody c s op id f b ∧ (∀ e, b e = e.writeLanes f t.size (g e)) ∧
      (op ∉ choosingOps → ∀ e i, e.src t.size f.va.val i = none → (g e i).1 = none) := by
  obtain ⟨hp, hty⟩ := hw
  obtain ⟨w, u, hform, hx, hlane⟩ := exec_laneWord hp hop s
  rw [hform, Option.any_some] at hty
  have hstrict : op ∉ choosingOps → (!choosingOps.contains op) = true := by simp
  cases hlane with
  | plain h =>
    obtain ⟨g, hg, hnone⟩ := h.writes hty ht
    exact ⟨_, g, .of_issue hp hx, hg, fun h => hnone (hstrict h)⟩
  | norm h =>
    by_cases hnorm : isFltTy f.ty.val = true → s.normAt id op = none
    · obtain ⟨g, hg, hnone⟩ := h.writes hty ht
      exact ⟨_, g, .of_issueNorm hp hx hnorm, hg, fun h => hnone (hstrict h)⟩
    · obtain ⟨hflt, hsome⟩ := Classical.not_imp.mp hnorm
      obtain ⟨n, hn⟩ := Option.ne_none_iff_exists'.mp hsome
      obtain ⟨g, hg, hnone⟩ := normed_writes (n := n) (ps := s.normParams n) hflt ht
      exact ⟨_, g, .of_norm hp hx hflt hn, hg, fun _ => hnone⟩

/-! ### The frame of a word -/

theorem bitOf_lor (a b i : Nat) : bitOf (Nat.lor a b) i = (bitOf a i || bitOf b i) := by
  rw [bitOf_eq_testBit, bitOf_eq_testBit, bitOf_eq_testBit]
  exact Nat.testBit_or a b i

/-- A word of the registers leaves every other engine and all memories as they are. -/
theorem WordBody.frame (h : WordBody c s op id f body) : Ends c s fun u => (∀ n, n ≠ engineNo id → u.engine n = s.engine n) ∧
    u.mem.hbm = s.mem.hbm ∧ u.mem.bus = s.mem.bus ∧ u.work.stores = s.work.stores ∧ ∀ k, (u.core k).store = (s.core k).store := by
  refine ends_of_issues h.parts fun hi => ?_
  obtain ⟨u, hu, heng, hcore, hstores, hmem⟩ := h.runs hi
  obtain ⟨he, hhbm, hbus, hst, hc, -⟩ := State.issue_frame s id op f body
  refine ⟨u, hu, fun n hn => ?_, ?_, ?_, ?_, fun k => ?_⟩
  · rw [State.engine, heng]
    exact he n hn
  · rw [hmem, hhbm]
  · rw [hmem, hbus]
  · rw [hstores, hst]
  · rw [State.core, hcore]
    exact hc k

/-- No flag that is set clears. -/
theorem WordBody.flags_stay (h : WordBody c s op id f body) : Ends c s fun u => ∀ b, bitOf (s.engine (engineNo id)).flags b = true →
    bitOf (u.engine (engineNo id)).flags b = true := by
  refine ends_mono h.engine_after fun u hu b hb => ?_
  rw [hu, nextWord_flags]
  exact (bitOf_lor _ _ _).trans (by rw [hb, Bool.true_or])

/-- The registers that a word which writes VD lane by lane leaves alone. -/
theorem WordBody.regs_keep {sz : Nat} {g : Nat → LaneRes} (h : WordBody c s op id f body)
    (hb : body (s.regsOf id) = (s.regsOf id).writeLanes f sz g) : Ends c s fun u =>
      (∀ j, j ≠ f.vd.val → (u.engine (engineNo id)).reg j = (s.engine (engineNo id)).reg j ∧
        tget 0 (u.engine (engineNo id)).valid j = tget 0 (s.engine (engineNo id)).valid j) ∧
      (u.engine (engineNo id)).k = (s.engine (engineNo id)).k := by
  refine ends_mono h.engine_after fun u hu => ⟨fun j hj => ?_, ?_⟩
  · rw [hu, hb, Engine.reg, nextWord_reg, nextWord_valid]
    exact Engine.writeLanes_reg_ne (s.regsOf id) f sz g hj
  · rw [hu, hb, nextWord_k]
    rfl

theorem ends_and {P Q : State → Prop} (hP : Ends c s P) (hQ : Ends c s Q) : Ends c s fun u => P u ∧ Q u := by
  intro hn
  obtain ⟨u, hu, hPu⟩ := hP hn
  obtain ⟨u', hu', hQu⟩ := hQ hn
  cases hu.symm.trans hu'
  exact ⟨u, hu, hPu, hQu⟩

/-- The lane of VD that a word which writes lane by lane leaves. -/
theorem WordBody.lane_masked {sz i : Nat} {g : Nat → LaneRes} (h : WordBody c s op id f body)
    (hb : body (s.regsOf id) = (s.regsOf id).writeLanes f sz g) (hi : i < 32 / sz) : Ends c s fun u =>
      (u.engine (engineNo id)).lane sz f.vd.val i = (((s.regsOf id).masked f sz g i).1, ((s.regsOf id).masked f sz g i).2 % 2 ^ (8 * sz)) := by
  refine ends_mono (h.lane_after f.vd.val sz i) fun u hu => ?_
  rw [hu, hb, Engine.lane_writeLanes _ f sz g hi]

end

/-- Settles O35: the lane that the mask leaves, the invalid result, the invalid source, and the frame. -/
theorem maskedLanesAndInvalidSources : Obligations.MaskedLanesAndInvalidSources := by
  intro s id c f op t i hw hop ht hi
  obtain ⟨b, g, hbody, hb, hstrict⟩ := laneWord_body hw hop ht s
  have hlane := hbody.lane_masked (hb (s.regsOf id)) hi
  refine ⟨fun hoff => ?_, ?_, fun hnone hon hno => ?_, ?_⟩
  · refine ends_mono hlane fun u hu => hu.trans ?_
    rw [Engine.masked, if_neg (by rw [regsOf_on, hoff]; exact Bool.false_ne_true)]
    split
    · simp
    · simp only [Engine.lane, Nat.mod_eq_of_lt (laneOf_lt _ _ _)]
      rfl
  · refine ends_mono hlane fun u hu hinv hon => ?_
    have hon' : (s.regsOf id).on f.mask.val i = true := hon
    rw [Engine.masked, if_pos hon', LaneRes.take] at hu
    have hres : (g (s.regsOf id) i).1 = none := by
      refine Option.not_isSome_iff_eq_none.mp (ne_true_of_eq_false ?_)
      exact (congrArg Prod.fst hu).symm.trans hinv
    have hdata := congrArg Prod.snd hu
    rw [hres] at hdata
    exact hdata.trans (Nat.zero_mod _)
  · have hres : (g (s.regsOf id) i).1 = none := hstrict hno (s.regsOf id) i hnone
    refine ends_mono (hbody.takes_writeLanes (hb _) hi hon (Prod.ext hres rfl) nofun) fun u hu => ⟨hu.1, Nat.and_zero _⟩
  · refine ends_mono (ends_and (hbody.regs_keep (hb _)) (ends_and hbody.frame hbody.flags_stay)) fun u hu => ?_
    obtain ⟨⟨hregs, hk⟩, ⟨heng, hhbm, hbus, hstores, hcore⟩, hflags⟩ := hu
    exact ⟨hregs, hk, heng, hhbm, hbus, hstores, hcore, hflags⟩

end Sys2Proof.Machine
end

section
/-! Proofs about chapter 05 (engine arithmetic): the special values of the floating-point words (R142 to R144), and the normalisations that a
word computes (R206, R207). -/

namespace Sys2Proof.Machine

/-! ### Special codes of the lane formats (R106, R107) -/

section
variable {fm : FpFmt} (hfm : fm ∈ [fp16, bf16, fp32, fp64])
include hfm

theorem decode_negZero : ∃ d, fm.decode fm.signBit = .fin true 0 d := by
  simp only [List.mem_cons, List.not_mem_nil, or_false] at hfm
  obtain rfl | rfl | rfl | rfl := hfm
  all_goals exact ⟨_, rfl⟩

theorem decode_negInf : fm.decode (fm.infCode true) = .inf true := by
  simp only [List.mem_cons, List.not_mem_nil, or_false] at hfm
  obtain rfl | rfl | rfl | rfl := hfm
  all_goals rfl

end

theorem specialCode_lt : ∀ p ∈ [(fp16, 2), (bf16, 2), (fp32, 4), (fp64, 8)],
    p.1.signBit < 2 ^ (8 * p.2) ∧ p.1.infCode true < 2 ^ (8 * p.2) ∧ p.1.nanCode < 2 ^ (8 * p.2) := by decide

theorem encode_zero (fm : FpFmt) (rnd : Nat) (neg : Bool) (d : Nat) : fm.encode rnd (.fin neg 0 d) = (if neg then fm.signBit else 0, 0) := by
  simp [FpFmt.encode, FpFmt.round, FpFmt.roundMag]

theorem okFlt_nan (fm : FpFmt) (f : Fields) (fl : Nat) : okFlt fm f (.nan, fl) = (some fm.nanCode, fl) :=
  Prod.ext rfl (Nat.zero_or fl)

theorem okFlt_zero (fm : FpFmt) (f : Fields) (neg : Bool) (d fl : Nat) : okFlt fm f (.fin neg 0 d, fl) = (some (if neg then fm.signBit else 0), fl) := by
  simp only [okFlt, encode_zero]
  exact Prod.ext rfl (Nat.zero_or fl)

/-! ### Unary words -/

section
variable {t : LTy} {fm : FpFmt} (hk : t.kind = .flt fm) (f : Fields) {a : Nat}
include hk

theorem laneSqrt_flt : laneSqrt t f a = okFlt fm f (fSqrt (fm.decode a)) := by
  simp only [laneSqrt, hk]

/-- A special operand of an approximating word gives its special result exactly (R144). -/
theorem laneApprox_special {op : ApproxOp} {v : FVal} {fl : Nat} (h : approxRef op (fm.decode a) = .inl (v, fl)) :
    laneApprox op t f a = (some (fm.encode f.rnd.val v).1, fl) := by
  simp only [laneApprox, hk, approxWord, h]

theorem laneApprox_nan (op : ApproxOp) (h : fm.isNan a = true) : laneApprox op t f a = (some fm.nanCode, 0) := by
  refine laneApprox_special hk f (v := .nan) ?_
  rw [eq_of_beq h]
  cases op <;> rfl

theorem laneSqrt_nan (h : fm.isNan a = true) : laneSqrt t f a = (some fm.nanCode, 0) := by
  rw [laneSqrt_flt hk, eq_of_beq h]
  exact okFlt_nan fm f 0

/-- An approximating word gives a zero of a sign. -/
theorem laneApprox_zero {op : ApproxOp} {neg : Bool} {fl : Nat} (h : approxRef op (fm.decode a) = .inl (.fin neg 0 1, fl)) :
    laneApprox op t f a = (some (if neg then fm.signBit else 0), fl) := by
  rw [laneApprox_special hk f h, encode_zero]

end

theorem laneApprox_isSome (op : ApproxOp) (t : LTy) (f : Fields) (a : Nat) : (laneApprox op t f a).1.isSome = true := by
  unfold laneApprox
  split <;> rfl

theorem laneSqrt_isSome (t : LTy) (f : Fields) (a : Nat) : (laneSqrt t f a).1.isSome = true := by
  unfold laneSqrt
  split <;> rfl

/-- A unary floating-point word: always a value, and of a NaN the canonical one. -/
structure FltUnary (c : Instr) (s : State) (op : Nat) (id : EngineId) (f : Fields) (op1 : LTy → Nat → LaneRes) : Prop where
  body : WordBody c s op id f fun e => forTypes .flt f e fun t => e.map1 f t.size (op1 t)
  isSome : ∀ t a, (op1 t a).1.isSome = true
  nan : ∀ t fm a, t.kind = .flt fm → fm.isNan a = true → op1 t a = (some fm.nanCode, 0)

section
variable {c : Instr} {s : State} {op : Nat} {id : EngineId} {f : Fields}

theorem FltUnary.of_approx (x : ApproxOp)
    (h : WordBody c s op id f fun e => forTypes .flt f e fun t => e.map1 f t.size (laneApprox x t f)) : FltUnary c s op id f (laneApprox x · f) :=
  ⟨h, fun t a => laneApprox_isSome x t f a, fun _ _ _ hk => laneApprox_nan hk f x⟩

/-- The unary words, unless LOG1P computes a normalisation. -/
theorem fltUnary_of_mem (hc : c ∈ [Instr.sqrt id f, .exp id f, .log id f, .log1p id f, .tanh id f, .sigm id f, .erf id f, .rsqrt id f, .rcp id f])
    (hn : c ≠ .log1p id f ∨ s.normAt id 0x3A = none) : ∃ op op1, FltUnary c s op id f op1 := by
  simp only [List.mem_cons, List.not_mem_nil, or_false] at hc
  obtain rfl | rfl | rfl | rfl | rfl | rfl | rfl | rfl | rfl := hc
  · exact ⟨_, _, .of_issue (body := wordSqrt f) rfl rfl, fun t a => laneSqrt_isSome t f a, fun _ _ _ hk => laneSqrt_nan hk f⟩
  · exact ⟨_, _, .of_approx .exp (.of_issue (body := wordExp f) rfl rfl)⟩
  · exact ⟨_, _, .of_approx .log (.of_issue (body := wordLog f) rfl rfl)⟩
  · exact ⟨_, _, .of_approx .log1p (.of_issueNorm (body := wordLog1p f) rfl rfl fun _ => hn.resolve_left (· rfl))⟩
  · exact ⟨_, _, .of_approx .tanh (.of_issue (body := wordTanh f) rfl rfl)⟩
  · exact ⟨_, _, .of_approx .sigm (.of_issue (body := wordSigm f) rfl rfl)⟩
  · exact ⟨_, _, .of_approx .erf (.of_issue (body := wordErf f) rfl rfl)⟩
  · exact ⟨_, _, .of_approx .rsqrt (.of_issue (body := wordRsqrt f) rfl rfl)⟩
  · exact ⟨_, _, .of_approx .rcp (.of_issue (body := wordRcp f) rfl rfl)⟩

end

/-- The result of an approximating word on a special operand. -/
theorem takes_approx {c : Instr} {s : State} {op : Nat} {id : EngineId} {f : Fields} {t : LTy} {fm : FpFmt} {i a v fl : Nat} {x : ApproxOp} {r : FVal}
    (h : WordBody c s op id f fun e => forTypes .flt f e fun t => e.map1 f t.size (laneApprox x t f)) (hflt : isFltTy f.ty.val = true)
    (ht : laneTy f.ty.val = some t) (hk : t.kind = .flt fm) (hi : i < 32 / t.size) (hon : LaneOn s id f i)
    (ha : laneIn s id t.size f.va.val i = some a) (href : approxRef x (fm.decode a) = .inl (r, fl)) (hv : (fm.encode f.rnd.val r).1 = v)
    (hlt : v < 2 ^ (8 * t.size)) : Takes c s id f.vd.val t.size i (some v) fl :=
  h.takes_map1 (ts := .flt) hflt ht hi hon ha (by rw [laneApprox_special hk f href, hv]) (some_lt hlt)

/-! ### Binary and ternary words -/

theorem fAdd_nan {x y : FVal} (rnd : Nat) (h : x = .nan ∨ y = .nan) : fAdd rnd x y = (.nan, 0) := by
  obtain rfl | rfl := h
  · rfl
  · cases x <;> rfl

theorem fMul_nan {x y : FVal} (h : x = .nan ∨ y = .nan) : fMul x y = (.nan, 0) := by
  obtain rfl | rfl := h
  · rfl
  · cases x <;> rfl

theorem fDiv_nan {x y : FVal} (h : x = .nan ∨ y = .nan) : fDiv x y = (.nan, 0) := by
  obtain rfl | rfl := h
  · rfl
  · cases x <;> rfl

theorem fDiv_zeros {x y : FVal} (hx : x.isZero = true) (hy : y.isZero = true) : fDiv x y = (.nan, flagINV) := by
  cases x <;> cases y <;> simp_all [FVal.isZero, fDiv]

theorem isNan_or {fm : FpFmt} {a b : Nat} (h : fm.isNan a = true ∨ fm.isNan b = true) : fm.decode a = .nan ∨ fm.decode b = .nan :=
  h.imp eq_of_beq eq_of_beq

section
variable {t : LTy} {fm : FpFmt} (hk : t.kind = .flt fm) (f : Fields) {a b c : Nat}
include hk

theorem okPick_flt : okPick t f a = (some a, 0) := by
  simp only [okPick, hk]

theorem laneAdd_flt_nan (neg : Bool) (h : fm.isNan a = true ∨ fm.isNan b = true) : laneAdd t f neg a b = (some fm.nanCode, 0) := by
  simp only [laneAdd, hk]
  rw [fAdd_nan f.rnd.val ((isNan_or h).imp_right fun hb => by rw [hb]; split <;> rfl), okFlt_nan]

theorem laneMul_flt_nan (h : fm.isNan a = true ∨ fm.isNan b = true) : laneMul t f a b = (some fm.nanCode, 0) := by
  simp only [laneMul, hk]
  rw [fMul_nan (isNan_or h), okFlt_nan]

theorem laneDiv_flt_nan (h : fm.isNan a = true ∨ fm.isNan b = true) : laneDiv t f a b = (some fm.nanCode, 0) := by
  simp only [laneDiv, hk]
  rw [fDiv_nan (isNan_or h), okFlt_nan]

theorem laneDiv_flt_zeros (ha : (fm.decode a).isZero = true) (hb : (fm.decode b).isZero = true) : laneDiv t f a b = (some fm.nanCode, flagINV) := by
  simp only [laneDiv, hk]
  rw [fDiv_zeros ha hb, okFlt_nan]

theorem laneFma_isSome : (laneFma t f a b c).1.isSome = true := by
  simp only [laneFma, hk]
  rfl

theorem laneFma_nan (h : fm.isNan a = true ∨ fm.isNan b = true ∨ fm.isNan c = true) : ∃ fl, laneFma t f a b c = (some fm.nanCode, fl) := by
  simp only [laneFma, hk]
  have hsum : (fMul (fm.decode a) (fm.decode b)).1 = .nan ∨ (if (f.sub.val % 2 == 1) = true then (fm.decode c).negate else fm.decode c) = .nan := by
    obtain h | h | h := h
    · exact .inl (by rw [fMul_nan (.inl (eq_of_beq h))])
    · exact .inl (by rw [fMul_nan (.inr (eq_of_beq h))])
    · exact .inr (by rw [eq_of_beq h]; split <;> rfl)
  rw [fAdd_nan _ hsum]
  exact ⟨_, okFlt_nan fm f _⟩

/-- MIN and MAX pass over a NaN (R143). -/
theorem laneMinMax_nan_left (hi : Bool) (ha : fm.isNan a = true) (hb : fm.isNan b = false) : laneMinMax t hi a b = b := by
  have hx : (fm.decode a == .nan) = true := ha
  have hy : (fm.decode b == .nan) = false := hb
  simp only [laneMinMax, hk, hx, hy, if_true, Bool.false_eq_true, if_false]

theorem laneMinMax_nan_right (hi : Bool) (ha : fm.isNan a = false) (hb : fm.isNan b = true) : laneMinMax t hi a b = a := by
  have hx : (fm.decode a == .nan) = false := ha
  have hy : (fm.decode b == .nan) = true := hb
  simp only [laneMinMax, hk, hx, hy, if_true, Bool.false_eq_true, if_false]

/-- MIN and MAX order -0 below +0 (R143). -/
theorem laneMinMax_zeros {d d' : Nat} {x y : Bool} (hi : Bool) (hx : fm.decode a = .fin x 0 d) (hy : fm.decode b = .fin y 0 d') :
    laneMinMax t hi a b = if hi then (if x then b else a) else (if x then a else b) := by
  simp only [laneMinMax, hk, hx, hy, FVal.isZero, FVal.neg]
  rfl

end

/-! ### Normalisations (R206, R207) -/

section
variable {s : State} {id : EngineId} {f : Fields} {t : LTy} {fm : FpFmt} {n : Norm}

theorem normed_eq (ps : List Nat) (e : Engine) (hflt : isFltTy f.ty.val = true) (ht : laneTy f.ty.val = some t) (hk : t.kind = .flt fm) :
    normed n ps f e = e.map1 f t.size (normLane n ps t fm f) := by
  rw [normed, forTypes_of (ts := .flt) hflt ht, hk]

/-- The lane of a word that computes a normalisation. -/
theorem takes_norm {c : Instr} {op i a fl : Nat} {r : Option Nat} {body : Engine → Engine} (hp : wordParts c = some (op, id, f))
    (hx : exec c s = .next (s.issueNorm op id f body)) (hn : s.normAt id op = some n) (hflt : isFltTy f.ty.val = true)
    (ht : laneTy f.ty.val = some t) (hk : t.kind = .flt fm) (hi : i < 32 / t.size) (hon : LaneOn s id f i)
    (ha : laneIn s id t.size f.va.val i = some a) (hr : normLane n (s.normParams n) t fm f a = (r, fl))
    (hlt : ∀ v, r = some v → v < 2 ^ (8 * t.size)) : Takes c s id f.vd.val t.size i r fl :=
  (WordBody.of_norm hp hx hflt hn).takes_writeLanes (normed_eq _ _ hflt ht hk) hi hon (by rw [regsOf_src, ha]; exact hr) hlt

/-- What NAN_MODE makes of a NaN: null under NULL, FILL under FILL. -/
theorem normLane_nan {ps : List Nat} {a : Nat} (h : fm.isNan a = true) :
    (n.nanMode = 0 → normLane n ps t fm f a = (none, 0)) ∧
    (n.nanMode = 2 → normLane n ps t fm f a = (some (n.fill % 2 ^ (8 * t.size)), 0)) := by
  have hodd : normOdd n fm a = true := by rw [normOdd, h, Bool.true_or]
  refine ⟨fun hm => ?_, fun hm => ?_⟩
  · simp only [normLane, hodd, if_true, hm]
  · simp only [normLane, hodd, if_true, hm]

/-- ZSCORE with standard deviation 0 gives +0. -/
theorem normLane_flat {ps : List Nat} {a : Nat} (h : fm.isNan a = false) (hkind : n.kind = .zscore)
    (hflat : ratOf (fp64.decode (ps.getD 1 0)) = 0) : normLane n ps t fm f a = (some 0, 0) := by
  have hodd : normOdd n fm a = false := by
    rw [normOdd, h, hkind]
    rfl
  simp only [normLane, hodd, Bool.false_eq_true, if_false, hkind, normScale, hflat, beq_self_eq_true, if_true]

theorem State.issue_units (op : Nat) (body : Engine → Engine) : (s.issue op id f body).work.units = s.work.units := by
  rw [State.issue]
  split
  · rfl
  · rw [State.coreFlags]
    split
    · rw [State.postEvent_work]
      rfl
    · rfl

theorem State.quern_modQuern (s : State) (k : Nat) (g : Quern → Quern) : ((s.modQuern k g).units k).quern = g (s.units k).quern := by
  simp [State.modQuern, State.modUnits, State.units]

/-- A word that computes a normalisation counts the lanes that NAN_MODE decides. -/
theorem norm_counts {c : Instr} {op : Nat} {body : Engine → Engine} (hp : wordParts c = some (op, id, f))
    (hx : exec c s = .next (s.issueNorm op id f body)) (hn : s.normAt id op = some n) (hflt : isFltTy f.ty.val = true) :
    Ends c s fun u => (u.units id.cluster.val).quern.nanInputs =
      sat32 (s.units id.cluster.val).quern.nanInputs (normOddLanes n f (s.engine (engineNo id))) := by
  refine ends_of_issues hp fun hi => ⟨_, hx.trans (congrArg _ (State.issueNorm_of_some hflt hn hi)), ?_⟩
  have hunits : (s.issue op id f (normed n (s.normParams n) f)).units id.cluster.val = s.units id.cluster.val := by
    rw [State.units, State.issue_units]
    rfl
  rw [State.quern_modQuern, hunits]

/-- The words that may compute a normalisation, with their opcodes. -/
theorem exec_normWord {p : Instr × Nat} (hp : p ∈ [(Instr.fma id f, 0x24), (.log1p id f, 0x3A), (.clamp id f, 0x2D), (.mov id f, 0x2F)]) :
    wordParts p.1 = some (p.2, id, f) ∧ ∃ body, exec p.1 s = .next (s.issueNorm p.2 id f body) := by
  simp only [List.mem_cons, List.not_mem_nil, or_false] at hp
  obtain rfl | rfl | rfl | rfl := hp
  all_goals exact ⟨rfl, _, rfl⟩

end

/-! ### The clauses of the statement -/

section
variable {s : State} {id : EngineId} {f : Fields} {t : LTy} {fm : FpFmt} {i a : Nat} (hflt : isFltTy f.ty.val = true)
  (ht : laneTy f.ty.val = some t) (hk : t.kind = .flt fm) (hi : i < 32 / t.size) (hon : LaneOn s id f i)
  (ha : laneIn s id t.size f.va.val i = some a)
include hflt ht hk hi hon ha

/-- The special values of the words on one operand. -/
theorem unary_specials : let one_ := fun c r fl => Takes c s id f.vd.val t.size i (some r) fl
    (∀ c ∈ [Instr.sqrt id f, .exp id f, .log id f, .log1p id f, .tanh id f, .sigm id f, .erf id f, .rsqrt id f, .rcp id f],
      c ≠ .log1p id f ∨ s.normAt id 0x3A = none → (fm.isNan a = true → one_ c fm.nanCode 0) ∧
        Ends c s fun u => (u.engine (engineNo id)).isValid f.vd.val i = true) ∧
    one_ (.abs id f) (a % fm.signBit) 0 ∧ one_ (.neg id f) (a ^^^ fm.signBit) 0 := by
  have hfmt := specialCode_lt _ (isFltTy_fmt hflt ht hk)
  have har : TypeSet.arith.has f.ty.val = true := by simp [TypeSet.has, hflt]
  refine ⟨fun c hc hn => ?_, ?_, ?_⟩
  · obtain ⟨op, op1, hbody, hsome, hnan⟩ := fltUnary_of_mem hc hn
    refine ⟨fun h => hbody.takes_map1 (ts := .flt) hflt ht hi hon ha (hnan t fm a hk h) (some_lt hfmt.2.2), ?_⟩
    exact hbody.valid_writeLanes (forTypes_of (ts := .flt) hflt ht) hi hon (by rw [regsOf_src, ha]; exact hsome t a)
  · exact (WordBody.of_issue (body := wordAbs f) rfl rfl).takes_map1 har ht hi hon ha (by simp only [laneAbs, hk])
      (some_lt ((Nat.mod_le _ _).trans_lt (laneIn_lt ha)))
  · exact (WordBody.of_issue (body := wordNeg f) rfl rfl).takes_map1 har ht hi hon ha (by simp only [laneNeg, hk]; rfl)
      (some_lt (Nat.xor_lt_two_pow (laneIn_lt ha) hfmt.1))

/-- The unary words on -0. -/
theorem unary_negZero (h : a = fm.signBit) : let one_ := fun c r fl => Takes c s id f.vd.val t.size i (some r) fl
    one_ (.sqrt id f) fm.signBit 0 ∧ one_ (.tanh id f) fm.signBit 0 ∧ one_ (.erf id f) fm.signBit 0 ∧
      (s.normAt id 0x3A = none → one_ (.log1p id f) fm.signBit 0) ∧
      one_ (.rcp id f) (fm.infCode true) 2 ∧ one_ (.rsqrt id f) (fm.infCode true) 2 ∧ one_ (.log id f) (fm.infCode true) 2 := by
  obtain ⟨hsign, hinf, -⟩ := specialCode_lt _ (isFltTy_fmt hflt ht hk)
  obtain ⟨d, hd⟩ := decode_negZero (isFltTy_mem hflt ht hk)
  rw [← h] at hd
  have hzero : (fm.encode f.rnd.val (.fin true 0 1)).1 = fm.signBit := by rw [encode_zero]; rfl
  refine ⟨?_, ?_, ?_, fun hn => ?_, ?_, ?_, ?_⟩
  · refine (WordBody.of_issue (body := wordSqrt f) rfl rfl).takes_map1 (ts := .flt) hflt ht hi hon ha ?_ (some_lt hsign)
    rw [laneSqrt_flt hk, hd]
    exact okFlt_zero fm f true 1 0
  · exact takes_approx (x := .tanh) (.of_issue (body := wordTanh f) rfl rfl) hflt ht hk hi hon ha (by rw [hd]; rfl) hzero hsign
  · exact takes_approx (x := .erf) (.of_issue (body := wordErf f) rfl rfl) hflt ht hk hi hon ha (by rw [hd]; rfl) hzero hsign
  · exact takes_approx (x := .log1p) (.of_issueNorm (body := wordLog1p f) rfl rfl fun _ => hn) hflt ht hk hi hon ha (by rw [hd]; rfl) hzero hsign
  · exact takes_approx (x := .rcp) (.of_issue (body := wordRcp f) rfl rfl) hflt ht hk hi hon ha (by rw [hd]; rfl) rfl hinf
  · exact takes_approx (x := .rsqrt) (.of_issue (body := wordRsqrt f) rfl rfl) hflt ht hk hi hon ha (by rw [hd]; rfl) rfl hinf
  · exact takes_approx (x := .log) (.of_issue (body := wordLog f) rfl rfl) hflt ht hk hi hon ha (by rw [hd]; rfl) rfl hinf

/-- The unary words on minus infinity. -/
theorem unary_negInf (h : a = fm.infCode true) : let one_ := fun c r fl => Takes c s id f.vd.val t.size i (some r) fl
    one_ (.exp id f) 0 0 ∧ one_ (.sigm id f) 0 0 ∧ one_ (.rcp id f) fm.signBit 0 ∧ one_ (.log id f) fm.nanCode 1 ∧
      one_ (.sqrt id f) fm.nanCode 1 ∧ one_ (.rsqrt id f) fm.nanCode 1 ∧ (s.normAt id 0x3A = none → one_ (.log1p id f) fm.nanCode 1) := by
  obtain ⟨hsign, -, hnan⟩ := specialCode_lt _ (isFltTy_fmt hflt ht hk)
  have hd := decode_negInf (isFltTy_mem hflt ht hk)
  rw [← h] at hd
  have hzero : (fm.encode f.rnd.val (.fin false 0 1)).1 = 0 := by rw [encode_zero]; rfl
  have hneg : (fm.encode f.rnd.val (.fin true 0 1)).1 = fm.signBit := by rw [encode_zero]; rfl
  refine ⟨?_, ?_, ?_, ?_, ?_, ?_, fun hn => ?_⟩
  · exact takes_approx (x := .exp) (.of_issue (body := wordExp f) rfl rfl) hflt ht hk hi hon ha (by rw [hd]; rfl) hzero (by positivity)
  · exact takes_approx (x := .sigm) (.of_issue (body := wordSigm f) rfl rfl) hflt ht hk hi hon ha (by rw [hd]; rfl) hzero (by positivity)
  · exact takes_approx (x := .rcp) (.of_issue (body := wordRcp f) rfl rfl) hflt ht hk hi hon ha (by rw [hd]; rfl) hneg hsign
  · exact takes_approx (x := .log) (.of_issue (body := wordLog f) rfl rfl) hflt ht hk hi hon ha (by rw [hd]; rfl) rfl hnan
  · refine (WordBody.of_issue (body := wordSqrt f) rfl rfl).takes_map1 (ts := .flt) hflt ht hi hon ha ?_ (some_lt hnan)
    rw [laneSqrt_flt hk, hd]
    exact okFlt_nan fm f flagINV
  · exact takes_approx (x := .rsqrt) (.of_issue (body := wordRsqrt f) rfl rfl) hflt ht hk hi hon ha (by rw [hd]; rfl) rfl hnan
  · exact takes_approx (x := .log1p) (.of_issueNorm (body := wordLog1p f) rfl rfl fun _ => hn) hflt ht hk hi hon ha (by rw [hd]; rfl) rfl hnan

variable {b : Nat} (hb : laneIn s id t.size f.vb.val i = some b)
include hb

/-- MIN and MAX of one lane. -/
theorem takes_minMax {lo hi' : Nat} (hlo : laneMinMax t false a b = lo) (hhi : laneMinMax t true a b = hi') (h : lo < 2 ^ (8 * t.size))
    (h' : hi' < 2 ^ (8 * t.size)) : Takes (.min id f) s id f.vd.val t.size i (some lo) 0 ∧ Takes (.max id f) s id f.vd.val t.size i (some hi') 0 := by
  have har : TypeSet.arith.has f.ty.val = true := by simp [TypeSet.has, hflt]
  exact ⟨(WordBody.of_issue (body := wordMin f) rfl rfl).takes_map2 har ht hi hon ha hb (by rw [okPick_flt hk, hlo]) (some_lt h),
    (WordBody.of_issue (body := wordMax f) rfl rfl).takes_map2 har ht hi hon ha hb (by rw [okPick_flt hk, hhi]) (some_lt h')⟩

/-- A NaN operand of an arithmetic word. -/
theorem binary_nan (h : fm.isNan a = true ∨ fm.isNan b = true) : ∀ c ∈ [Instr.add id f, .sub id f, .mul id f, .div id f],
    Takes c s id f.vd.val t.size i (some fm.nanCode) 0 := by
  have har : TypeSet.arith.has f.ty.val = true := by simp [TypeSet.has, hflt]
  have hlt := some_lt (specialCode_lt _ (isFltTy_fmt hflt ht hk)).2.2
  simp only [List.forall_mem_cons]
  refine ⟨?_, ?_, ?_, ?_, nofun⟩
  · exact (WordBody.of_issue (body := wordAdd f) rfl rfl).takes_map2 har ht hi hon ha hb (laneAdd_flt_nan hk f false h) hlt
  · exact (WordBody.of_issue (body := wordSub f) rfl rfl).takes_map2 har ht hi hon ha hb (laneAdd_flt_nan hk f true h) hlt
  · exact (WordBody.of_issue (body := wordMul f) rfl rfl).takes_map2 har ht hi hon ha hb (laneMul_flt_nan hk f h) hlt
  · exact (WordBody.of_issue (body := wordDiv f) rfl rfl).takes_map2 har ht hi hon ha hb (laneDiv_flt_nan hk f h) hlt

/-- MIN and MAX of zeros of unlike signs. -/
theorem minMax_zeros (h : a = 0 ∧ b = fm.signBit ∨ a = fm.signBit ∧ b = 0) :
    Takes (.min id f) s id f.vd.val t.size i (some fm.signBit) 0 ∧ Takes (.max id f) s id f.vd.val t.size i (some 0) 0 := by
  have hmem := isFltTy_mem hflt ht hk
  obtain ⟨d, hneg⟩ := decode_negZero hmem
  obtain ⟨d', hpos⟩ := decode_zero fm hmem
  have hsign := (specialCode_lt _ (isFltTy_fmt hflt ht hk)).1
  obtain ⟨rfl, rfl⟩ | ⟨rfl, rfl⟩ := h
  · exact takes_minMax hflt ht hk hi hon ha hb (laneMinMax_zeros hk false hpos hneg) (laneMinMax_zeros hk true hpos hneg) hsign (by positivity)
  · exact takes_minMax hflt ht hk hi hon ha hb (laneMinMax_zeros hk false hneg hpos) (laneMinMax_zeros hk true hneg hpos) hsign (by positivity)

end

/-- Settles O33: the words on one operand, on two and three, and the normalisations. -/
theorem floatingPointLanes : Obligations.FloatingPointLanes := by
  refine ⟨?_, ?_, ?_⟩
  · intro s id f t fm i a hflt ht hk hi hon ha one_
    obtain ⟨hunary, habs, hneg⟩ := unary_specials hflt ht hk hi hon ha
    exact ⟨hunary, habs, hneg, unary_negZero hflt ht hk hi hon ha, unary_negInf hflt ht hk hi hon ha⟩
  · intro s id f t fm i a b hflt ht hk hi hon ha hb two
    have har : TypeSet.arith.has f.ty.val = true := by simp [TypeSet.has, hflt]
    have hnan := (specialCode_lt _ (isFltTy_fmt hflt ht hk)).2.2
    refine ⟨binary_nan hflt ht hk hi hon ha hb, fun h h' => ?_, fun h h' => ?_, minMax_zeros hflt ht hk hi hon ha hb, fun ⟨hx, hy⟩ => ?_,
      fun c hc => ⟨fun hn => ⟨fun h => ?_, ?_⟩, fun hn h h' h'' => ?_⟩⟩
    · exact takes_minMax hflt ht hk hi hon ha hb (laneMinMax_nan_left hk _ h h') (laneMinMax_nan_left hk _ h h') (laneIn_lt hb) (laneIn_lt hb)
    · exact takes_minMax hflt ht hk hi hon ha hb (laneMinMax_nan_right hk _ h h') (laneMinMax_nan_right hk _ h h') (laneIn_lt ha) (laneIn_lt ha)
    · exact (WordBody.of_issue (body := wordDiv f) rfl rfl).takes_map2 har ht hi hon ha hb (laneDiv_flt_zeros hk f hx hy) (some_lt hnan)
    · obtain ⟨fl, hfl⟩ := laneFma_nan hk f h
      refine ends_mono ((WordBody.of_issueNorm (body := wordFma f) rfl rfl fun _ => hn).takes_map3 (ts := .flt) hflt ht hi hon ha hb hc hfl (some_lt hnan))
        fun u hu => ⟨hu.1, Nat.and_zero _⟩
    · refine (WordBody.of_issueNorm (body := wordFma f) rfl rfl fun _ => hn).valid_writeLanes (forTypes_of (ts := .flt) hflt ht) hi hon ?_
      rw [regsOf_src, regsOf_src, regsOf_src, ha, hb, hc]
      exact laneFma_isSome hk f
    · refine (WordBody.of_issueNorm (body := wordClamp f) rfl rfl fun _ => hn).takes_map3 har ht hi hon ha hb hc ?_ (some_lt (laneIn_lt ha))
      rw [laneMinMax_nan_right hk true h h', laneMinMax_nan_right hk false h h'', okPick_flt hk]
  · intro s id f t fm i a n hflt ht hk hi hon ha
    refine ⟨fun h c hc hn => ?_, fun h hn hkind hflat => ?_⟩
    · obtain ⟨hp, body, hx⟩ := exec_normWord hc
      refine ⟨fun hm => ?_, fun hm => ?_, norm_counts hp hx hn hflt⟩
      · exact takes_norm hp hx hn hflt ht hk hi hon ha ((normLane_nan h).1 hm) nofun
      · exact takes_norm hp hx hn hflt ht hk hi hon ha ((normLane_nan h).2 hm) (some_lt (Nat.mod_lt _ (by positivity)))
    · exact takes_norm (c := .fma id f) (body := wordFma f) rfl rfl hn hflt ht hk hi hon ha (normLane_flat h hkind hflat) (some_lt (by positivity))

end Sys2Proof.Machine
end

section

/-! Proofs about chapter 05 (engine arithmetic): ST of type BOOL, which writes 0 or 1 (R105). -/
namespace Sys2Proof.Machine

/-! ### The counterexample: a BOOL lane of 5 stored in line mode (R105, R137) -/

/-- The line-mode stream of the counterexample. -/
def lineStream : StreamDesc := { base := 64, step := 32, stride := 32, mode := 0, esize := 0 }

/-- ST of VD 1, of type BOOL, to stream 0, every lane unmasked. -/
def boolStore : Fields :=
  { ty := 1, vd := 1, va := 0, vb := 0, vc := 0, mask := 0, mz := false, rnd := 0, sat := false, sub := 0, imm := 0 }

/-- The first engine. -/
def firstEngine : EngineId := { cluster := 0, core := 0, engine := 0 }

/-- A program of that one word, whose only stream is in line mode. -/
def boolStoreProg : ProgCtx :=
  { prog := 0, body := [encodeFields 0x11 boolStore], engines := 1, descs := [lineStream], slot := 0, hop := 0, tileBase := 0, tiles := 1
    pfDst := 0, pfLen := 0, seed := 0, epoch := 0, stream := 0, batch := 0 }

/-- The first engine about to issue it, the cursor at byte 0 and the lanes of VD valid: lane 0 holds the byte 5. -/
def boolStoreState : State :=
  { work := {
      cores := [(0, { ctx := some boolStoreProg })]
      engines := [(0, { v := [(1, 5)], valid := [(1, 0xFFFFFFFF)] })] } }

theorem boolStoreState_streamAt : StreamAt boolStoreState firstEngine boolStoreProg boolStore lineStream 0 := ⟨rfl, rfl, rfl⟩

theorem boolStoreState_nextWord : NextWord (.st firstEngine boolStore) boolStoreState :=
  ⟨0x11, firstEngine, boolStore, rfl, by decide +kernel⟩

theorem boolStoreState_laneOn : LaneOn boolStoreState firstEngine boolStore 0 := by unfold LaneOn; decide +kernel

/-- Lane 0 of VD reads as 5. -/
theorem boolStoreState_laneIn : (laneIn boolStoreState firstEngine 1 boolStore.vd.val 0).getD 0 = 5 := by decide +kernel

/-- The byte that the store puts under the cursor. -/
def storedByte {φ ρ : Type} : Host.Outcome State φ ρ → Option Nat
  | .next u => some (progLoad boolStoreProg (u.core (coreNo firstEngine)).store 0 1)
  | _ => none

/-- The store writes 1. -/
theorem boolStoreState_stores : storedByte (exec (.st firstEngine boolStore) boolStoreState) = some 1 := by decide +kernel

/-- Refutes O37: an executed lane of BOOL is stored as 0 or 1 (R105), so a lane that holds 5 does not arrive in the core store as the
statement has it. -/
theorem not_streamAccesses : ¬ Obligations.StreamAccesses := by
  intro h
  obtain ⟨hline, -⟩ := h
  obtain ⟨-, hst, -⟩ := hline boolStoreState firstEngine boolStoreProg boolStore ⟨1, .bool⟩ lineStream 0 0 boolStoreState_streamAt rfl rfl
    (by decide) (by decide)
  obtain ⟨u, hexec, hlane, -⟩ := hst boolStoreState_nextWord
  have hload : progLoad boolStoreProg (u.core (coreNo firstEngine)).store 0 1 = 5 :=
    (hlane boolStoreState_laneOn).trans boolStoreState_laneIn
  have hone := boolStoreState_stores
  rw [hexec, storedByte, hload] at hone
  exact absurd hone (by decide)

end Sys2Proof.Machine
end

section

/-! Proofs about chapter 12 (dispatch): batches are instantiated, tasks start and complete. First the rules on a dispatcher, a core, an
engine and a stream's batches after a change of one. -/
namespace Sys2Proof.Machine

/-! ### Units and records after a change of one -/

theorem State.disp_modDisp_ne (s : State) {k j : Nat} (f : Disp → Disp) (h : j ≠ k) : (s.modDisp k f).disp j = s.disp j := by
  simp [State.disp, State.modDisp, tget_tmod_ne _ _ _ h]

@[simp] theorem State.core_modCore (s : State) (c : Nat) (f : Core → Core) : (s.modCore c f).core c = f (s.core c) := by
  simp [State.core, State.modCore]

theorem State.engine_modEngine (s : State) (n : Nat) (f : Engine → Engine) : (s.modEngine n f).engine n = f (s.engine n) := by
  simp [State.engine, State.modEngine]

theorem State.engine_modEngine_ne (s : State) {n j : Nat} (f : Engine → Engine) (h : j ≠ n) : (s.modEngine n f).engine j = s.engine j := by
  simp [State.engine, State.modEngine, tget_tmod_ne _ _ _ h]

@[simp] theorem Disp.task_modRec (d : Disp) (i : Nat) (f : TaskRec → TaskRec) : (d.modRec i f).task i = f (d.task i) := by
  simp [Disp.task, Disp.modRec]

theorem Disp.task_modRec_ne (d : Disp) {i j : Nat} (f : TaskRec → TaskRec) (h : j ≠ i) : (d.modRec i f).task j = d.task j := by
  simp [Disp.task, Disp.modRec, tget_tmod_ne _ _ _ h]

@[simp] theorem Core.hop_setHop (c : Core) (i : Nat) (h : Hopper) : (c.setHop i h).hop i = h := by
  simp only [Core.hop, Core.setHop]
  split <;> rfl

/-! ### A batch of a stream (R48, R335) -/

/-- A change that keeps batch numbers reaches the batch of a number. -/
theorem Stream.batch_modBatch (s : State) (n b : Nat) (f : Batch → Batch) (hf : ∀ x, (f x).num = x.num) :
    ((s.modBatch n b f).stream n).batch b = ((s.stream n).batch b).map f := by
  rw [State.modBatch, State.stream_modStream, Stream.batch, Stream.batch, List.find?_map]
  have hnum : ((fun x : Batch => x.num == b) ∘ fun x => if (x.num == b) = true then f x else x) = fun x => x.num == b := by
    funext x
    simp only [Function.comp]
    split <;> simp [hf]
  rw [hnum]
  cases h : (s.stream n).batches.find? fun x => x.num == b with
  | none => rfl
  | some x =>
    have hx : (x.num == b) = true := List.find?_some (p := fun x : Batch => x.num == b) h
    exact congrArg some (if_pos hx)

theorem find?_insertBatch (x : Batch) (l : List Batch) (h : l.find? (fun y => y.num == x.num) = none) :
    (insertBatch x l).find? (fun y => y.num == x.num) = some x := by
  induction l with
  | nil => simp [insertBatch]
  | cons y ys ih =>
    have hy : ¬ (y.num == x.num) = true := List.find?_eq_none.mp h y List.mem_cons_self
    rw [List.find?_cons_of_neg (p := fun y : Batch => y.num == x.num) hy] at h
    rw [insertBatch]
    split
    · simp
    · rw [List.find?_cons_of_neg (p := fun y : Batch => y.num == x.num) hy]
      exact ih h

theorem bitOf_withBit_same (v i : Nat) : bitOf (withBit v i true) i = true := by
  rw [withBit]
  split
  case isTrue h => simpa using h
  case isFalse h => simpa [bitOf_eq_testBit, Nat.add_comm v, Nat.testBit_two_pow_add_eq] using h

/-! ### The qualifying batch (R335) -/

/-- A fold that keeps what it has or takes the next element ends with an element of its list. -/
theorem mem_of_foldl_eq_some {α : Type} {f : Option α → α → Option α} (hf : ∀ m x, f m x = m ∨ f m x = some x) (l : List α) :
    ∀ m y, l.foldl f m = some y → m = some y ∨ y ∈ l := by
  induction l with
  | nil => exact fun m y h => .inl h
  | cons x xs ih =>
    intro m y h
    obtain hm | hy := ih _ _ h
    · obtain hkeep | htake := hf m x
      · exact .inl (hkeep ▸ hm)
      · obtain rfl : x = y := by simpa using htake.symm.trans hm
        exact .inr List.mem_cons_self
    · exact .inr (List.mem_cons_of_mem _ hy)

/-- The qualifying batch is one of a stream with a cadence, and the cluster has room for it. -/
theorem State.bestBatch_some {s : State} {g : Graph} {k l n b : Nat} (h : s.bestBatch g k l = some (n, b)) :
    (∃ c, s.cadence n = some c) ∧ s.roomFor g k l n = true := by
  obtain ⟨⟨p, n', b'⟩, hbest, heq⟩ := Option.map_eq_some_iff.mp h
  obtain ⟨rfl, rfl⟩ : n' = n ∧ b' = b := by simpa using heq
  obtain habs | hmem := mem_of_foldl_eq_some (fun m x => by
    cases m with
    | none => exact .inr rfl
    | some y => exact (em (x.1 < y.1)).elim (fun hlt => .inr (if_pos hlt)) fun hge => .inl (if_neg hge)) _ _ _ hbest
  · exact nomatch habs
  obtain ⟨m, -, hm⟩ := List.mem_flatMap.mp hmem
  cases hc : s.cadence m with
  | none => simp [hc] at hm
  | some c =>
    rw [hc] at hm
    dsimp only at hm
    split_ifs at hm with hjoin hroom
    · exact nomatch hm
    · obtain ⟨b'', -, heq⟩ := List.mem_map.mp hm
      obtain ⟨-, rfl, -⟩ : _ ∧ m = n' ∧ b'' = b' := by simpa using heq
      exact ⟨⟨c, hc⟩, hroom⟩
    · exact nomatch hm

/-! ### The records of a frame (R335, R337) -/

/-- A key that a table does not list reads as the default. -/
theorem tget_of_notMem {α : Type} {d : α} {t : Tab α} {k : Nat} (h : k ∉ t.map Prod.fst) : tget d t k = d := by
  induction t with
  | nil => rfl
  | cons p r ih =>
    obtain ⟨hne, hr⟩ : k ≠ p.1 ∧ k ∉ r.map Prod.fst := by simpa using h
    rw [tget, if_neg hne, ih hr]

/-- Every slot that is not free is listed, so that the free ones are at least those that are not. -/
theorem Disp.freeSlots_le (d : Disp) : d.freeSlots ≤ ((List.range 4096).filter fun i => (d.task i).state == .free).length := by
  have hsub : ((List.range 4096).filter fun i => !((d.task i).state == .free)) ⊆ d.slots.map Prod.fst := by
    intro i hi
    by_contra hno
    have hfree : d.task i = {} := tget_of_notMem hno
    simp [hfree] at hi
  have hbusy := ((List.nodup_range.filter _).subperm hsub).length_le
  have hall := List.length_eq_length_filter_add (l := List.range 4096) fun i => (d.task i).state == .free
  simp only [List.length_range, List.length_map] at hall hbusy
  rw [Disp.freeSlots]
  omega

theorem Disp.length_pickSlots {d : Disp} {n : Nat} (h : n ≤ d.freeSlots) : (d.pickSlots n).length = n := by
  rw [Disp.pickSlots, List.length_take]
  exact Nat.min_eq_left (h.trans d.freeSlots_le)

theorem Disp.nodup_pickSlots (d : Disp) (n : Nat) : (d.pickSlots n).Nodup :=
  (List.nodup_range.filter _).sublist (List.take_sublist _ _)

/-- Steps that write the records of distinct slots leave each slot with its own. -/
theorem task_foldl_of_mem {α : Type} {step : Disp → α → Disp} {slot : α → Nat} {rec : α → TaskRec}
    (hsame : ∀ d x, (step d x).task (slot x) = rec x) (hne : ∀ d x i, i ≠ slot x → (step d x).task i = d.task i) (l : List α) :
    ∀ d, (l.map slot).Nodup → ∀ x ∈ l, (l.foldl step d).task (slot x) = rec x := by
  have hother : ∀ (l : List α) d i, i ∉ l.map slot → (l.foldl step d).task i = d.task i := by
    intro l
    induction l with
    | nil => exact fun _ _ _ => rfl
    | cons y ys ih =>
      intro d i hi
      rw [List.map_cons, List.mem_cons, not_or] at hi
      exact (ih _ _ hi.2).trans (hne _ _ _ hi.1)
  induction l with
  | nil => exact fun _ _ _ h => nomatch h
  | cons y ys ih =>
    intro d hnodup x hx
    obtain ⟨hy, hys⟩ := List.nodup_cons.mp hnodup
    obtain rfl | hx := List.mem_cons.mp hx
    · exact (hother _ _ _ hy).trans (hsame _ _)
    · exact ih _ hys x hx

/-- The record that a placement entry makes in a frame, its template of priority `prio` (R337). -/
def recordOf (frame n b start pos prio : Nat) (p : Nat × Place) : TaskRec :=
  { state := if recStart start p.2.start ≤ pos then .waiting else .delayed, tpl := p.2.tpl, place := p.1, stream := n, batch := some b
    frame := frame, start := recStart start p.2.start, prio := prio }

/-- A delay list may grow without a record or a frame changing. -/
theorem Disp.frames_delayUnless (late : Bool) (d : Disp) (l : List Nat) : (if late = true then d else { d with delay := l }).frames = d.frames := by
  split <;> rfl

theorem Disp.task_delayUnless (late : Bool) (d : Disp) (l : List Nat) (i : Nat) :
    (if late = true then d else { d with delay := l }).task i = d.task i := by
  split <;> rfl

section create
variable (d : Disp) (frame n b start pos : Nat) (es : List (Nat × Place)) (prio : Nat → Nat)

/-- A dispatcher with the frame of a batch. -/
def Disp.withFrame : Disp := { d with frames := tset {} frame { used := true, stream := n, batch := some b, flags := 0 } d.frames }

theorem Disp.frame_withFrame : tget ({} : Frame) (d.withFrame frame n b).frames frame =
    { used := true, stream := n, batch := some b, flags := 0 } := by
  simp [Disp.withFrame]

/-- The record of a placement entry in a slot; one that starts later joins the delay list. -/
def Disp.createOne (d : Disp) (x : (Nat × Place) × Nat) : Disp :=
  let e := d.modRec x.2 fun _ => recordOf frame n b start pos (prio x.1.2.tpl) x.1
  if decide (recStart start x.1.2.start ≤ pos) = true then e else { e with delay := insertDelay e.startAt x.2 e.delay }

theorem Disp.create_eq : d.create frame n (some b) start pos es prio =
    (es.zip ((d.withFrame frame n b).pickSlots es.length)).foldl (Disp.createOne frame n b start pos prio) (d.withFrame frame n b) := by
  rw [Disp.create]
  refine List.foldl_ext _ _ _ fun e x _ => ?_
  simp [Disp.createOne, recordOf]

theorem Disp.create_frames : (d.create frame n (some b) start pos es prio).frames = (d.withFrame frame n b).frames := by
  rw [Disp.create_eq]
  exact List.foldlRecOn (motive := fun e : Disp => e.frames = (d.withFrame frame n b).frames) _ _ rfl
    fun _ he _ _ => (Disp.frames_delayUnless _ _ _).trans he

/-- With room for its entries, a frame has a record for each of them. -/
theorem Disp.create_task (hroom : es.length ≤ d.freeSlots) : ∀ p ∈ es, ∃ i,
    (d.create frame n (some b) start pos es prio).task i = recordOf frame n b start pos (prio p.2.tpl) p := by
  intro p hp
  have hfree : (d.withFrame frame n b).freeSlots = d.freeSlots := rfl
  have hlen : ((d.withFrame frame n b).pickSlots es.length).length = es.length := Disp.length_pickSlots (hfree ▸ hroom)
  have hfst := List.map_fst_zip hlen.ge
  rw [← hfst] at hp
  obtain ⟨x, hx, rfl⟩ := List.mem_map.mp hp
  have hnodup : ((es.zip ((d.withFrame frame n b).pickSlots es.length)).map Prod.snd).Nodup := by
    rw [List.map_snd_zip hlen.le]
    exact Disp.nodup_pickSlots _ _
  rw [Disp.create_eq]
  exact ⟨x.2, task_foldl_of_mem (step := Disp.createOne frame n b start pos prio) (slot := Prod.snd)
    (rec := fun x => recordOf frame n b start pos (prio x.1.2.tpl) x.1)
    (fun _ _ => (Disp.task_delayUnless _ _ _ _).trans (Disp.task_modRec _ _ _))
    (fun _ _ _ hi => (Disp.task_delayUnless _ _ _ _).trans (Disp.task_modRec_ne _ _ hi)) _ _ hnodup x hx⟩

end create

/-! ### Instantiating a batch (R335, R358) -/

theorem State.modFlags_disp (s : State) (n : Nat) (f : Weir → Weir) (j : Nat) : (s.modFlags n f).disp j = s.disp j := by
  rw [State.modFlags]
  cases s.work.graph with
  | none => rfl
  | some g => exact List.foldlRecOn (motive := fun t : State => t.disp j = s.disp j) _ _ rfl fun _ ht _ _ => ht

theorem State.modDisp_stream (s : State) (k : Nat) (f : Disp → Disp) (n : Nat) : (s.modDisp k f).stream n = s.stream n := rfl

/-- The batch that an instantiation takes up: the one that another cluster has instantiated, or a new one. -/
def State.batchFor (s : State) (n b : Nat) (c : Cadence) : Batch :=
  ((s.stream n).batch b).getD (newBatch b ((s.stream n).startOf c b) ((s.stream n).dueOf c b))

/-- A state whose stream has that batch. -/
def State.withBatch (s : State) (n b : Nat) (c : Cadence) : State :=
  if ((s.stream n).batch b).isSome then s else s.modStream n fun st => { st with batches := insertBatch (s.batchFor n b c) st.batches }

theorem State.batchFor_start (s : State) (n b : Nat) (c : Cadence) : (s.batchFor n b c).start = (s.stream n).startNow c b := by
  rw [State.batchFor, Stream.startNow]
  cases (s.stream n).batch b <;> rfl

theorem State.batchFor_of_none {s : State} {n b : Nat} {c : Cadence} (h : (s.stream n).batch b = none) :
    s.batchFor n b c = newBatch b ((s.stream n).startOf c b) ((s.stream n).dueOf c b) := by rw [State.batchFor, h]; rfl

theorem State.withBatch_batch (s : State) (n b : Nat) (c : Cadence) : ((s.withBatch n b c).stream n).batch b = some (s.batchFor n b c) := by
  rw [State.withBatch]
  cases h : (s.stream n).batch b with
  | some x => simp [h, State.batchFor]
  | none =>
    rw [State.batchFor_of_none h]
    simp only [Option.isSome_none, Bool.false_eq_true, if_false, State.stream_modStream]
    exact find?_insertBatch (newBatch b _ _) _ h

theorem State.withBatch_disp (s : State) (n b : Nat) (c : Cadence) (j : Nat) : (s.withBatch n b c).disp j = s.disp j :=
  ite_keeps (fun t : State => t.disp j) rfl rfl

section instantiate
variable {s : State} {g : Graph} {k l n b f : Nat} {c : Cadence} (hc : s.cadence n = some c) (hf : (s.disp k).freeFrame = some f)
include hc hf

theorem State.instantiate_disp : (s.instantiate g k l n b).disp k =
    (s.disp k).create f n (some b) (s.batchFor n b c).start s.pos (g.placesOf l n false) fun t => ((g.tpl t).map fun y => y.prio).getD 0 := by
  rw [State.instantiate, hc, hf]
  simp only [State.disp_modDisp, State.modFlags_disp]
  exact congrArg (fun d : Disp => d.create f n (some b) _ s.pos _ _) (s.withBatch_disp n b c k)

theorem State.instantiate_disp_ne {j : Nat} (h : j ≠ k) : (s.instantiate g k l n b).disp j = s.disp j := by
  rw [State.instantiate, hc, hf]
  simp only [State.disp_modDisp_ne _ _ h, State.modFlags_disp]
  exact s.withBatch_disp n b c j

theorem State.instantiate_batch : ((s.instantiate g k l n b).stream n).batch b =
    some { s.batchFor n b c with insts := withBit (s.batchFor n b c).insts k true } := by
  rw [State.instantiate, hc, hf]
  simp only [State.modDisp_stream, State.modFlags_stream]
  exact (Stream.batch_modBatch _ n b (fun y => { y with insts := withBit y.insts k true }) fun _ => rfl).trans
    (congrArg (Option.map fun y : Batch => { y with insts := withBit y.insts k true }) (s.withBatch_batch n b c))

end instantiate

section batchInstantiate
variable {s : State} {g : Graph} {k : Fin 16} {l : Nat} (hg : s.work.graph = some g) (hl : s.logicalOf k.val = some l)
  (hw : s.clusterWorks k.val = true)
include hg hl hw

theorem exec_batchInstantiate_none (hbest : (s.modDisp k.val Disp.adopt).bestBatch g k.val l = none) :
    exec (.batchInstantiate k) s = .next (s.modDisp k.val Disp.adopt) := by
  show execBatchInstantiate k s = _
  simp [execBatchInstantiate, hg, hl, hw, hbest]

theorem exec_batchInstantiate_some {n b : Nat} (hbest : (s.modDisp k.val Disp.adopt).bestBatch g k.val l = some (n, b)) :
    exec (.batchInstantiate k) s = .next ((s.modDisp k.val Disp.adopt).instantiate g k.val l n b) := by
  show execBatchInstantiate k s = _
  simp [execBatchInstantiate, hg, hl, hw, hbest]

end batchInstantiate

theorem Disp.adopt_frames (d : Disp) : d.adopt.frames = d.frames := by
  rw [Disp.adopt]
  split <;> rfl

/-- What an instantiation leaves: the frame, the batch and a record for each of its placement entries. -/
theorem State.instantiate_spec {s : State} {g : Graph} {k l n b f : Nat} {c : Cadence} (hc : s.cadence n = some c)
    (hf : (s.disp k).freeFrame = some f) (hroom : s.roomFor g k l n = true) :
    let u := s.instantiate g k l n b
    (tget ({} : Frame) (u.disp k).frames f) = { used := true, stream := n, batch := some b, flags := 0 } ∧
    ∃ x, (u.stream n).batch b = some x ∧ x.start = (s.stream n).startNow c b ∧ bitOf x.insts k = true ∧
      ((s.stream n).batch b = none → x.due = (s.stream n).dueOf c b ∧ x.begun = false) ∧
      ∀ p ∈ g.placesOf l n false, ∃ i, let r := (u.disp k).task i
        r.tpl = p.2.tpl ∧ r.place = p.1 ∧ r.stream = n ∧ r.batch = some b ∧ r.frame = f ∧ r.start = recStart x.start p.2.start ∧
          r.state = (if r.start ≤ s.pos then .waiting else .delayed) := by
  refine ⟨?_, _, State.instantiate_batch hc hf, s.batchFor_start n b c, bitOf_withBit_same _ _, fun hnone => ?_, fun p hp => ?_⟩
  · rw [State.instantiate_disp hc hf, Disp.create_frames]
    exact Disp.frame_withFrame _ _ _ _
  · rw [State.batchFor_of_none hnone]
    exact ⟨rfl, rfl⟩
  · obtain ⟨-, hlen⟩ := (Bool.and_eq_true _ _).mp hroom
    obtain ⟨i, hi⟩ := Disp.create_task (s.disp k) f n b (s.batchFor n b c).start s.pos (g.placesOf l n false)
      (fun t => ((g.tpl t).map fun y => y.prio).getD 0) (of_decide_eq_true hlen) p hp
    rw [State.instantiate_disp hc hf]
    exact ⟨i, by rw [hi]; exact ⟨rfl, rfl, rfl, rfl, rfl, rfl, rfl⟩⟩

/-- The first clause of TasksInstantiateStartAndComplete. -/
theorem batchInstantiate_of_bestBatch {s : State} {g : Graph} {k : Fin 16} {l n b : Nat} (hg : s.work.graph = some g)
    (hl : s.logicalOf k.val = some l) (hw : s.clusterWorks k.val = true)
    (hbest : (s.modDisp k.val Disp.adopt).bestBatch g k.val l = some (n, b)) :
    ∃ c f u, s.cadence n = some c ∧ (s.disp k.val).freeFrame = some f ∧ exec (.batchInstantiate k) s = .next u ∧
      (tget ({} : Frame) (u.disp k.val).frames f) = { used := true, stream := n, batch := some b, flags := 0 } ∧
      (∃ x, (u.stream n).batch b = some x ∧ x.start = (s.stream n).startNow c b ∧ bitOf x.insts k.val = true ∧
        ((s.stream n).batch b = none → x.due = (s.stream n).dueOf c b ∧ x.begun = false) ∧
        ∀ p ∈ g.placesOf l n false, ∃ i, let r := (u.disp k.val).task i
          r.tpl = p.2.tpl ∧ r.place = p.1 ∧ r.stream = n ∧ r.batch = some b ∧ r.frame = f ∧ r.start = recStart x.start p.2.start ∧
            r.state = (if r.start ≤ s.pos then .waiting else .delayed)) ∧
      ∀ j, j ≠ k.val → u.disp j = s.disp j := by
  obtain ⟨⟨c, hc⟩, hroom⟩ := State.bestBatch_some hbest
  obtain ⟨hframe, -⟩ := (Bool.and_eq_true _ _).mp hroom
  obtain ⟨f, hf⟩ := Option.isSome_iff_exists.mp hframe
  have hf' : (s.disp k.val).freeFrame = some f := by
    rw [← hf, State.disp_modDisp, Disp.freeFrame, Disp.freeFrame, Disp.adopt_frames]
  obtain ⟨hfr, hx⟩ := State.instantiate_spec (b := b) hc hf hroom
  exact ⟨c, f, _, hc, hf', exec_batchInstantiate_some hg hl hw hbest, hfr, hx, fun j hj =>
    (State.instantiate_disp_ne hc hf hj).trans (State.disp_modDisp_ne _ _ hj)⟩

end Sys2Proof.Machine
end

section

/-! Proofs about chapter 12 (dispatch): tasks start in their seats. -/
namespace Sys2Proof.Machine

/-! ### A batch begins (R75, R328) -/

/-- A record that may start has its batch instantiated. -/
theorem State.batch_of_mayStart {s : State} {r : TaskRec} {b : Nat} (h : s.mayStart r = true) (hb : r.batch = some b) :
    ∃ x, (s.stream r.stream).batch b = some x := by
  obtain ⟨-, hrest⟩ := (Bool.and_eq_true _ _).mp h
  rw [hb] at hrest
  obtain ⟨hall, -⟩ := (Bool.and_eq_true _ _).mp hrest
  cases hx : (s.stream r.stream).batch b with
  | none => simp [State.allInst, hx] at hall
  | some x => exact ⟨x, rfl⟩

/-- The batch of a task that starts has begun. -/
theorem State.begun_beginBatch {s t : State} {r : TaskRec} {b : Nat} (h : s.mayStart r = true) (hb : r.batch = some b)
    (ht : t.stream r.stream = s.stream r.stream) :
    ∃ y, ((t.beginBatch r.stream r.batch).stream r.stream).batch b = some y ∧ y.begun = true := by
  obtain ⟨x, hx⟩ := State.batch_of_mayStart h hb
  refine ⟨{ x with begun := true }, ?_, rfl⟩
  rw [hb, State.beginBatch]
  exact (Stream.batch_modBatch t r.stream b (fun x => { x with begun := true }) fun _ => rfl).trans (by rw [ht, hx]; rfl)

/-- A part of the state that streams do not hold stays when a batch begins. -/
theorem State.beginBatch_keeps {α : Type} (part : State → α) (hstream : ∀ (t : State) n f, part (t.modStream n f) = part t) (s : State) (n : Nat)
    (b : Option Nat) : part (s.beginBatch n b) = part s := by
  cases b with
  | none => rfl
  | some b => exact hstream _ _ _

/-! ### The engines of a core at a task's start (R133, R152) -/

/-- What engine `e` of a core starts with. -/
def ProgCtx.engineAt (x : ProgCtx) (e : Nat) : Engine :=
  if e < x.engines then { cursor := startCursors x.descs e, word := if e < x.tiles then 0 else x.body.length, tile := e } else {}

/-- A part of the state that engines do not hold stays when a core's engines start. -/
theorem State.startEngines_keeps {α : Type} (part : State → α) (hengine : ∀ (t : State) n f, part (t.modEngine n f) = part t) (s : State) (c : Nat)
    (x : ProgCtx) : part (s.startEngines c x) = part s :=
  List.foldlRecOn (motive := fun t : State => part t = part s) _ _ rfl fun _ ht _ _ => (hengine _ _ _).trans ht

/-- Steps that set one engine after another leave each with its own. -/
theorem engine_foldl_range (c : Nat) (g : Nat → Engine) (s : State) (n : Nat) : ∀ e < n,
    ((List.range n).foldl (fun t j => t.modEngine (32 * c + j) fun _ => g j) s).engine (32 * c + e) = g e := by
  induction n with
  | zero => exact fun e h => absurd h (Nat.not_lt_zero e)
  | succ n ih =>
    intro e he
    rw [List.range_succ, List.foldl_append, List.foldl_cons, List.foldl_nil]
    obtain hlt | rfl := Nat.lt_succ_iff_lt_or_eq.mp he
    · rw [State.engine_modEngine_ne _ _ (by omega)]
      exact ih e hlt
    · exact State.engine_modEngine _ _ _

theorem State.engine_startEngines (s : State) (c : Nat) (x : ProgCtx) {e : Nat} (he : e < 32) :
    (s.startEngines c x).engine (32 * c + e) = x.engineAt e := engine_foldl_range c x.engineAt s 32 e he

/-- An engine starts with registers and flags of 0, and runs. -/
theorem ProgCtx.engineAt_clear (x : ProgCtx) (e j : Nat) :
    (x.engineAt e).reg j = 0 ∧ (x.engineAt e).stopped = false ∧ (x.engineAt e).flags = 0 := by
  rw [ProgCtx.engineAt]
  split <;> exact ⟨rfl, rfl, rfl⟩

/-! ### A core starts a task (R328, R345, R350) -/

/-- A core that runs a program for the Hopper entry that it starts next. -/
def Core.start (x : Core) (cx : ProgCtx) : Core :=
  { x.setHop x.next { x.hop x.next with state := 3 } with ctx := some cx, lastProg := cx.prog, next := 1 - x.next }

/-- A dispatcher whose record in slot `i` runs. -/
def Disp.start (d : Disp) (i : Nat) : Disp :=
  { (d.modRec i fun r => { r with state := .running }) with dispatched := (d.dispatched + 1) % 2 ^ 64 }

@[simp] theorem Disp.start_dispatched (d : Disp) (i : Nat) : (d.start i).dispatched = (d.dispatched + 1) % 2 ^ 64 := rfl

@[simp] theorem Disp.start_state (d : Disp) (i : Nat) : ((d.start i).task i).state = .running := by
  show ((d.modRec i fun r => { r with state := .running }).task i).state = _
  rw [Disp.task_modRec]

@[simp] theorem Core.start_hop (x : Core) (cx : ProgCtx) : ((x.start cx).hop x.next).state = 3 :=
  congrArg Hopper.state (x.hop_setHop x.next { x.hop x.next with state := 3 })

/-- The slot whose record core `c` starts next. -/
def State.nextSlot (s : State) (c : Nat) : Nat := ((s.core c).hop (s.core c).next).slot

/-- The state after core `c` of cluster `k` starts the record of its next Hopper entry with a program. -/
def State.coreStarted (s : State) (k c : Nat) (cx : ProgCtx) : State :=
  (((s.modCore c fun y => y.start cx).modDisp k fun d => d.start (s.nextSlot c)).startEngines c cx).beginBatch
    ((s.disp k).task (s.nextSlot c)).stream ((s.disp k).task (s.nextSlot c)).batch

section coreStarted
variable (s : State) (k c : Nat) (cx : ProgCtx)

theorem State.coreStarted_disp : (s.coreStarted k c cx).disp k = (s.disp k).start (s.nextSlot c) := by
  rw [State.coreStarted, State.beginBatch_keeps (fun t => t.disp k) fun _ _ _ => rfl,
    State.startEngines_keeps (fun t => t.disp k) fun _ _ _ => rfl, State.disp_modDisp]
  rfl

theorem State.coreStarted_core : (s.coreStarted k c cx).core c = (s.core c).start cx := by
  rw [State.coreStarted, State.beginBatch_keeps (fun t => t.core c) fun _ _ _ => rfl,
    State.startEngines_keeps (fun t => t.core c) fun _ _ _ => rfl]
  exact State.core_modCore s c fun y => y.start cx

theorem State.coreStarted_engine {e : Nat} (he : e < 32) : (s.coreStarted k c cx).engine (32 * c + e) = cx.engineAt e := by
  rw [State.coreStarted, State.beginBatch_keeps (fun t => t.engine (32 * c + e)) fun _ _ _ => rfl]
  exact State.engine_startEngines _ _ _ he

theorem State.coreStarted_begun {b : Nat} (hmay : s.mayStart ((s.disp k).task (s.nextSlot c)) = true)
    (hb : ((s.disp k).task (s.nextSlot c)).batch = some b) :
    ∃ y, ((s.coreStarted k c cx).stream ((s.disp k).task (s.nextSlot c)).stream).batch b = some y ∧ y.begun = true :=
  State.begun_beginBatch hmay hb (State.startEngines_keeps (fun t => t.stream _) (fun _ _ _ => rfl) _ _ _)

end coreStarted

theorem State.modCore_congr {s : State} {c : Nat} {f g : Core → Core} (h : f (s.core c) = g (s.core c)) : s.modCore c f = s.modCore c g := by
  have h' : f (tget {} s.work.cores c) = g (tget {} s.work.cores c) := h
  simp only [State.modCore, State.modWork, tmod, h']

section taskStartCore
variable {s : State} {g : Graph} {c : CoreId} {t : Tpl} {p : Place} (hrec : RecordOf s g c.cluster.val (s.nextSlot (cidx c)) t p)
  (hserves : CoreServes s c.cluster.val (cidx c)) (hfilled : ((s.core (cidx c)).hop (s.core (cidx c)).next).state = 2)
  (hidle : (s.core (cidx c)).ctx = none)
include hrec hserves hfilled hidle

theorem exec_taskStart_core_go (hmay : s.mayStart ((s.disp c.cluster.val).task (s.nextSlot (cidx c))) = true)
    (hphase : g.tplInPhase ((s.disp c.cluster.val).task (s.nextSlot (cidx c))).tpl g.phase = true) : ∃ cx,
    exec (.taskStart (.core c)) s = .next (s.coreStarted c.cluster.val (cidx c) cx) := by
  obtain ⟨hg, htpl, hplace⟩ := hrec
  obtain ⟨hcluster, hcore, hk⟩ := hserves
  refine ⟨s.ctxFor g ((s.disp c.cluster.val).task (s.nextSlot (cidx c))) (s.nextSlot (cidx c)) (s.core (cidx c)).next t p, ?_⟩
  show execTaskStart (.core c) s = _
  rw [State.nextSlot] at htpl hplace hmay hphase
  simp only [execTaskStart, hg, hcluster, if_true, State.startCore, hfilled, hidle, hcore, hk, htpl, hplace, hmay, hphase, State.coreStarted,
    State.nextSlot, bne_self_eq_false, Option.isSome_none, Bool.not_true, Bool.or_self, Bool.false_eq_true, if_false]
  refine congrArg (fun x : State => Host.Outcome.next (((x.modDisp _ _).startEngines _ _).beginBatch _ _)) (State.modCore_congr ?_)
  rfl

theorem exec_taskStart_core_wait (hwait : (s.mayStart ((s.disp c.cluster.val).task (s.nextSlot (cidx c))) &&
    g.tplInPhase ((s.disp c.cluster.val).task (s.nextSlot (cidx c))).tpl g.phase) = false) :
    exec (.taskStart (.core c)) s = .next s := by
  obtain ⟨hg, htpl, hplace⟩ := hrec
  obtain ⟨hcluster, hcore, hk⟩ := hserves
  show execTaskStart (.core c) s = _
  rw [State.nextSlot] at htpl hplace hwait
  rw [← Bool.not_eq_true', Bool.not_and] at hwait
  simp only [execTaskStart, hg, hcluster, if_true, State.startCore, hfilled, hidle, hcore, hk, htpl, hplace, hwait,
    bne_self_eq_false, Option.isSome_none, Bool.not_true, Bool.or_self, Bool.false_eq_true, if_false]

end taskStartCore

/-! ### A unit starts a task (R25, R328, R222) -/

/-- A dispatcher whose unit record in slot `i` runs, with the memory that a GATHER reads. -/
def Disp.startUnit (d : Disp) (i : Nat) (snap : Option (Tab Byte × Tab Byte)) : Disp :=
  { (d.modRec i fun r => { r with state := .running, snap := snap, look := {} }) with dispatched := (d.dispatched + 1) % 2 ^ 64 }

theorem Disp.startUnit_task (d : Disp) (i : Nat) (snap : Option (Tab Byte × Tab Byte)) :
    (d.startUnit i snap).task i = { d.task i with state := .running, snap := snap, look := {} } :=
  d.task_modRec i fun r => { r with state := .running, snap := snap, look := {} }

theorem Disp.startUnit_task_ne (d : Disp) {i j : Nat} (snap : Option (Tab Byte × Tab Byte)) (h : j ≠ i) :
    (d.startUnit i snap).task j = d.task j :=
  d.task_modRec_ne (fun r => { r with state := .running, snap := snap, look := {} }) h

/-- What a unit keeps of memory as a task starts: all of it for a GATHER (R222). -/
def State.snapFor (s : State) (g : Graph) (r : TaskRec) : Option (Tab Byte × Tab Byte) :=
  if (g.tpl r.tpl).any fun t => t.kind == 3 && t.unit == 4 && t.op == 1 then some (s.mem.hbm, s.mem.bus) else none

/-- The state after unit `u` of cluster `k` starts the record in slot `i`; a start of Sage ends the reloads of its banks. -/
def State.unitStarted (s : State) (k u i : Nat) (snap : Option (Tab Byte × Tab Byte)) : State :=
  let t := s.modDisp k fun d => d.startUnit i snap
  (if u == 3 then t.modSage k fun q => { q with banks := q.banks.map fun p => (p.1, { p.2 with reload := none }) } else t).beginBatch
    ((s.disp k).task i).stream ((s.disp k).task i).batch

theorem State.unitStarted_disp (s : State) (k u i : Nat) (snap : Option (Tab Byte × Tab Byte)) :
    (s.unitStarted k u i snap).disp k = (s.disp k).startUnit i snap := by
  rw [State.unitStarted, State.beginBatch_keeps (fun t => t.disp k) fun _ _ _ => rfl]
  have hstart : (s.modDisp k fun d => d.startUnit i snap).disp k = (s.disp k).startUnit i snap := State.disp_modDisp _ _ _
  exact ite_keeps (fun t => t.disp k) hstart hstart

theorem State.unitStarted_begun {s : State} {k i b : Nat} (u : Nat) (snap : Option (Tab Byte × Tab Byte))
    (hmay : s.mayStart ((s.disp k).task i) = true) (hb : ((s.disp k).task i).batch = some b) :
    ∃ y, ((s.unitStarted k u i snap).stream ((s.disp k).task i).stream).batch b = some y ∧ y.begun = true :=
  State.begun_beginBatch hmay hb (ite_keeps (fun t => t.stream _) rfl rfl)

section taskStartUnit
variable {s : State} {g : Graph} {k : Fin 16} {u : Fin 5} (hg : s.work.graph = some g) (hw : s.clusterWorks k.val = true)
include hg hw

theorem exec_taskStart_unit_empty (hq : tget [] (s.disp k.val).unitQ u.val = []) : exec (.taskStart (.unit k u)) s = .next s := by
  show execTaskStart (.unit k u) s = _
  simp only [execTaskStart, hg, hw, if_true, State.startUnit, hq]

theorem exec_taskStart_unit {i : Nat} {q : List Nat} (hq : tget [] (s.disp k.val).unitQ u.val = i :: q)
    (hready : ((s.disp k.val).task i).state = .ready) (hunit : s.unitWorks k.val u.val = true)
    (hmay : s.mayStart ((s.disp k.val).task i) = true) (hopen : s.barrierOpen g ((s.disp k.val).task i) = true)
    (hphase : g.tplInPhase ((s.disp k.val).task i).tpl g.phase = true) (hgather : s.gatherWaits g ((s.disp k.val).task i) = false)
    (hhold : s.holdsTask g k.val ((s.disp k.val).task i) = false) (hswap : u = 0 → g.swapWait = false ∧ g.switchWait = false) :
    exec (.taskStart (.unit k u)) s = .next (s.unitStarted k.val u.val i (s.snapFor g ((s.disp k.val).task i))) := by
  have hmillstone : (u.val == 0 && (g.swapWait || g.switchWait)) = false := by
    by_cases hu : u = 0
    · obtain ⟨hs, hsw⟩ := hswap hu
      rw [hs, hsw, Bool.or_self, Bool.and_false]
    · have hne : u.val ≠ 0 := fun h => hu (Fin.ext h)
      rw [beq_false_of_ne hne, Bool.false_and]
  show execTaskStart (.unit k u) s = _
  simp only [execTaskStart, hg, hw, if_true, State.startUnit, hq, hready, hunit, hmay, hopen, hphase, hgather, hhold, hmillstone,
    bne_self_eq_false, Bool.not_true, Bool.or_self, Bool.false_eq_true, if_false]
  rfl

end taskStartUnit

end Sys2Proof.Machine
end

section

/-! Proofs about chapter 12 (dispatch): tasks complete. First what an arrival at Weir and the end of commands leave of records,
flows and Tailrace. -/
namespace Sys2Proof.Machine

/-! ### What keeps every record (R341, R351) -/

/-- `t` has the flows, Tailrace and the records of `s`. -/
structure SameTasks (s t : State) : Prop where
  flows : t.work.flows = s.work.flows
  trc : t.work.trc = s.work.trc
  task : ∀ k i, (t.disp k).task i = (s.disp k).task i

theorem SameTasks.trans {s t u : State} (h : SameTasks s t) (h' : SameTasks t u) : SameTasks s u :=
  ⟨h'.flows.trans h.flows, h'.trc.trans h.trc, fun k i => (h'.task k i).trans (h.task k i)⟩

/-- A change that leaves flows, Tailrace and dispatchers alone keeps the records. -/
theorem SameTasks.of_disps {s t : State} (hf : t.work.flows = s.work.flows) (ht : t.work.trc = s.work.trc) (hd : t.work.disps = s.work.disps) :
    SameTasks s t := ⟨hf, ht, fun k i => by rw [State.disp, State.disp, hd]⟩

theorem SameTasks.refl (s : State) : SameTasks s s := .of_disps rfl rfl rfl

theorem SameTasks.modDisp (s : State) (k : Nat) {f : Disp → Disp} (hf : ∀ d, (f d).slots = d.slots) : SameTasks s (s.modDisp k f) := by
  refine ⟨rfl, rfl, fun j i => ?_⟩
  by_cases h : j = k
  · rw [h, State.disp_modDisp, Disp.task, Disp.task, hf]
  · rw [State.disp_modDisp_ne _ _ h]

theorem SameTasks.pulse (s : State) (k n b flag : Nat) : SameTasks s (s.pulse k n b flag) := by
  rw [State.pulse]
  split
  · exact .refl s
  · refine .modDisp s k fun d => ?_
    split <;> rfl

theorem SameTasks.foldl {β : Type} {s : State} {f : State → β → State} (hf : ∀ t b, SameTasks t (f t b)) (l : List β) :
    SameTasks s (l.foldl f s) :=
  List.foldlRecOn (motive := fun t : State => SameTasks s t) _ _ (.refl s) fun t ht b _ => ht.trans (hf t b)

theorem SameTasks.freeFrames (s : State) (k n : Nat) (p : Option Nat → Bool) : SameTasks s (s.modDisp k fun d => d.freeFrames n p) :=
  .modDisp s k fun _ => rfl

theorem SameTasks.modWeir (s : State) (i : Nat) (f : Weir → Weir) : SameTasks s (s.modWeir i f) := .of_disps rfl rfl rfl

theorem SameTasks.loadBanks (s : State) (g : Graph) (v : Nat) : SameTasks s (s.loadBanks g v) := by
  refine .foldl (fun t p => ?_) _
  split
  · exact .of_disps rfl rfl rfl
  · exact .refl t

/-- A swap of the graph phase orders unit queues anew; the records stay (R53). -/
theorem SameTasks.swapPhase (s : State) (g : Graph) : SameTasks s (s.swapPhase g) := by
  rw [State.swapPhase]
  refine SameTasks.trans ?_ (SameTasks.loadBanks _ g g.variant)
  refine ⟨rfl, rfl, fun k i => ?_⟩
  have hmap : tget ({} : Disp) (s.work.disps.map fun p => (p.1, p.2.phaseFirst g ((g.phase + 1) % max 1 g.phases))) k =
      (s.disp k).phaseFirst g ((g.phase + 1) % max 1 g.phases) :=
    tget_map (f := fun d : Disp => d.phaseFirst g ((g.phase + 1) % max 1 g.phases)) rfl s.work.disps k
  have htask := congrArg (fun d : Disp => d.task i) hmap
  exact htask

theorem SameTasks.swapPoint (s : State) (g : Graph) : SameTasks s (s.swapPoint g) := by
  rw [State.swapPoint]
  split
  · exact .of_disps rfl rfl rfl
  · exact .swapPhase s g

theorem SameTasks.weirClose (n : Nat) : ∀ (s : State) (i : Nat) (r : WeirRec), SameTasks s (s.weirClose n i r) := by
  induction n with
  | zero => exact fun s i r => .refl s
  | succ n ih =>
    intro s i r
    rw [State.weirClose]
    split
    · refine SameTasks.trans ?_ (ih _ i r)
      have hpulses := SameTasks.foldl (s := s) (f := fun t k => match s.clusters[k]? with
        | some p => t.pulse p r.stream (s.weir i).gen r.flag
        | none => t) (fun t k => by
          split
          · exact .pulse _ _ _ _ _
          · exact .refl t) (setBits 16 r.parts)
      split
      · split
        · refine SameTasks.trans ?_ (SameTasks.swapPoint _ _)
          exact hpulses.trans (.modWeir _ i _)
        · exact hpulses.trans (.modWeir _ i _)
      · exact hpulses.trans (.modWeir _ i _)
    · exact .refl s

theorem SameTasks.weirArrive (s : State) (i k b : Nat) : SameTasks s (s.weirArrive i k b) := by
  rw [State.weirArrive]
  split
  · exact .refl s
  · split
    · exact .refl s
    · dsimp only
      split_ifs
      · exact .refl s
      · exact .refl s
      · exact .of_disps rfl rfl rfl
      · refine SameTasks.trans ?_ (SameTasks.weirClose _ _ _ _)
        exact .modWeir _ _ _

/-! ### What takes records away at most (R341, R348) -/

/-- `t` has the flows and Tailrace of `s`, and of its records those that have not been freed. -/
structure Shrinks (s t : State) : Prop where
  flows : t.work.flows = s.work.flows
  task : ∀ k i, (t.disp k).task i = (s.disp k).task i ∨ (t.disp k).task i = {}

theorem Shrinks.of_same {s t : State} (h : SameTasks s t) : Shrinks s t := ⟨h.flows, fun k i => .inl (h.task k i)⟩

theorem Shrinks.refl (s : State) : Shrinks s s := .of_same (.refl s)

theorem Shrinks.trans {s t u : State} (h : Shrinks s t) (h' : Shrinks t u) : Shrinks s u :=
  ⟨h'.flows.trans h.flows, fun k i => (h'.task k i).elim (fun heq => heq ▸ h.task k i) .inr⟩

theorem Shrinks.of_disps {s t : State} (hf : t.work.flows = s.work.flows) (hd : t.work.disps = s.work.disps) : Shrinks s t :=
  ⟨hf, fun k i => .inl (by rw [State.disp, State.disp, hd])⟩

theorem Shrinks.of_work {s t : State} (h : t.work = s.work) : Shrinks s t := .of_disps (by rw [h]) (by rw [h])

/-- A slot that is free stays free. -/
theorem Shrinks.free {s t : State} (h : Shrinks s t) {k i : Nat} (hfree : ((s.disp k).task i).state = .free) :
    ((t.disp k).task i).state = .free :=
  (h.task k i).elim (fun heq => heq ▸ hfree) fun heq => heq ▸ rfl

theorem Shrinks.foldl {β : Type} {s : State} {f : State → β → State} (hf : ∀ t b, Shrinks t (f t b)) (l : List β) : Shrinks s (l.foldl f s) :=
  List.foldlRecOn (motive := fun t : State => Shrinks s t) _ _ (.refl s) fun t ht b _ => ht.trans (hf t b)

theorem tget_filter_or {α : Type} {d : α} (q : Nat × α → Bool) (hq : ∀ k v w, q (k, v) = q (k, w)) (t : Tab α) (k : Nat) :
    tget d (t.filter q) k = tget d t k ∨ tget d (t.filter q) k = d := by
  induction t with
  | nil => exact .inl rfl
  | cons p r ih =>
    obtain ⟨j, v⟩ := p
    by_cases hkeep : q (j, v) = true
    · rw [List.filter_cons_of_pos hkeep]
      by_cases hkj : k = j
      · exact .inl (by simp [tget, hkj])
      · simpa [tget, hkj] using ih
    · rw [List.filter_cons_of_neg hkeep]
      by_cases hkj : k = j
      · refine .inr (tget_of_notMem fun hmem => ?_)
        obtain ⟨⟨i, w⟩, hp, rfl⟩ := List.mem_map.mp hmem
        subst hkj
        exact hkeep ((hq _ _ _).trans (List.mem_filter.mp hp).2)
      · simpa [tget, hkj] using ih

theorem Shrinks.modDisp (s : State) (k : Nat) {f : Disp → Disp} (hf : ∀ d i, (f d).task i = d.task i ∨ (f d).task i = {}) :
    Shrinks s (s.modDisp k f) := by
  refine ⟨rfl, fun j i => ?_⟩
  by_cases h : j = k
  · rw [h, State.disp_modDisp]
    exact hf _ _
  · exact .inl (by rw [State.disp_modDisp_ne _ _ h])

theorem Shrinks.discardOn (s : State) (k : Nat) (p : TaskRec → Bool) : Shrinks s (s.discardOn k p).2 := by
  rw [State.discardOn]
  dsimp only
  split
  · exact .refl s
  · have hdrop : Shrinks s (s.modDisp k fun d => d.drop ((s.disp k).pick p)) :=
      .modDisp s k fun d i => tget_filter_or _ (fun _ _ _ => rfl) _ _
    refine List.foldlRecOn (motive := fun a : Nat × State => Shrinks s a.2) _ _ ?_ fun a ha n _ => ?_
    · split
      · exact hdrop.trans (.of_disps rfl rfl)
      · exact hdrop.trans (.of_disps rfl rfl)
    · split
      · exact ha
      · exact ha.trans (.of_disps rfl rfl)

theorem Shrinks.discard (s : State) (n : Nat) (count : Bool) (p : Option Nat → Bool) : Shrinks s (s.discard n count p).2 :=
  List.foldlRecOn (motive := fun a : Nat × State => Shrinks s a.2) _ _ (.refl s) fun a ha k _ =>
    (ha.trans (.discardOn _ _ _)).trans (.of_same (.modDisp _ _ fun d => by split <;> rfl))

theorem Shrinks.finish (s : State) (seq st r : Nat) : Shrinks s (s.finish seq st r) := .of_disps rfl rfl

theorem Shrinks.modStream (s : State) (n : Nat) (f : Stream → Stream) : Shrinks s (s.modStream n f) := .of_disps rfl rfl

theorem Shrinks.keepBuilt (s : State) : Shrinks s s.keepBuilt := by
  rw [State.keepBuilt]
  split
  · exact .refl s
  · exact .of_disps rfl rfl

theorem Shrinks.streamEnd (s : State) (n : Nat) : Shrinks s (s.streamEnd n) := by
  rw [State.streamEnd]
  split
  · exact .refl s
  · split
    · exact .refl s
    · refine Shrinks.trans ?_ (Shrinks.modStream _ _ _)
      refine Shrinks.trans ?_ (Shrinks.foldl (fun _ _ => .of_same (.freeFrames _ _ _ _)) _)
      exact .foldl (fun _ _ => .of_same (.modWeir _ _ _)) _

theorem Shrinks.streamEndDue (s : State) (n : Nat) : Shrinks s (s.streamEndDue n) := by
  rw [State.streamEndDue]
  split
  · exact .refl s
  · dsimp only
    split
    · exact .streamEnd s n
    · exact .refl s

theorem Shrinks.endRuns (s : State) (n : Nat) : Shrinks s (s.endRuns n) :=
  (Shrinks.foldl (fun _ _ => .finish _ _ _ _) _).trans (.modStream _ _ _)

theorem Shrinks.shutStream (s : State) (n : Nat) : Shrinks s (s.shutStream n) := by
  rw [State.shutStream]
  have hdrop := (Shrinks.discard s n false fun _ => true).trans (.streamEnd _ n)
  refine Shrinks.trans ?_ ((Shrinks.modStream _ n Stream.shut).trans (.keepBuilt _))
  split
  · split
    · exact hdrop
    · exact hdrop.trans (.finish _ _ _ _)
  · exact hdrop

theorem Shrinks.endStop (s : State) (n : Nat) : Shrinks s (s.endStop n) := by
  rw [State.endStop]
  split
  · split
    · have hruns := (Shrinks.foldl (s := s) (f := fun t (r : RunRef) => t.finish r.seq (s.stream n).stopStatus r.count)
        (fun _ _ => .finish _ _ _ _) (s.stream n).runs).trans (.modStream _ n fun st => { st with runs := [] })
      dsimp only
      split
      · exact hruns.trans (.shutStream _ n)
      · exact hruns
    · exact .refl s
  · exact .refl s

theorem Shrinks.endClose (s : State) (n : Nat) : Shrinks s (s.endClose n) := by
  rw [State.endClose]
  have hdue := Shrinks.streamEndDue s n
  split
  · split
    · exact hdue.trans ((((Shrinks.streamEnd _ n).trans (.finish _ _ _ _)).trans (.modStream _ _ _)).trans (.keepBuilt _))
    · exact hdue
  · exact hdue

theorem State.pairJoined_work (s : State) : s.pairJoined.work = s.work := by
  rw [State.pairJoined]
  exact ite_keeps State.work (State.setPair_work _ _) rfl

theorem Shrinks.afterRelease (s : State) (n : Nat) : Shrinks s (s.afterRelease n) :=
  ((((Shrinks.endRuns s n).trans (.endStop _ n)).trans (.endClose _ n)).trans (.of_work (State.settle_work _))).trans
    (.of_work (State.pairJoined_work _))

theorem Shrinks.stageFail (s : State) (n fail : Nat) : Shrinks s (s.stageFail n fail) := by
  rw [State.stageFail]
  split
  · exact (((Shrinks.discard s n false fun _ => true).trans (.modStream _ _ _)).trans (.keepBuilt _)).trans (.finish _ _ _ _)
  · exact .refl s

theorem Shrinks.stageDone (s : State) (n fail : Nat) : Shrinks s (s.stageDone n fail) := by
  rw [State.stageDone]
  dsimp only
  split_ifs
  · exact .refl s
  · exact .stageFail s n fail
  · exact .refl s
  · exact .stageFail s n _
  · exact (Shrinks.modStream _ _ _).trans (.finish _ _ _ _)
  · exact (Shrinks.modStream _ _ _).trans (.finish _ _ _ _)

end Sys2Proof.Machine
end

section

/-! Proofs about chapter 12 (dispatch): the completion of a task, and the settlement of O43. -/
namespace Sys2Proof.Machine

/-! ### Settling a segment (R115, R356) -/

theorem SameTasks.modBatch (s : State) (n b : Nat) (f : Batch → Batch) : SameTasks s (s.modBatch n b f) := .of_disps rfl rfl rfl

theorem SameTasks.modStore (s : State) (k : Nat) (f : Tab Byte → Tab Byte) : SameTasks s (s.modStore k f) := .of_disps rfl rfl rfl

theorem SameTasks.mark (s : State) (n : Nat) (b : Option Nat) (k slot : Nat) (ms : List Mark) : SameTasks s (s.mark n b k slot ms) := by
  unfold State.mark
  split
  · split
    · exact .refl s
    · exact .modBatch _ _ _ _
  · exact .refl s

theorem SameTasks.putRowsIn (s : State) (k : Nat) (c : ColW) (first count : Nat) (rows : List (Nat × Cell)) :
    SameTasks s (s.putRowsIn k c first count rows) := by
  rw [State.putRowsIn]
  split
  · exact .refl s
  · rw [State.putSlot]
    split
    · exact .refl s
    · exact .modStore _ _ _

theorem SameTasks.putRawRow (s : State) (k : Nat) (c : ColW) (pitch i : Nat) (row : Option Bytes) (size : Nat) :
    SameTasks s (s.putRawRow k c pitch i row size) := by
  rw [State.putRawRow]
  split
  · exact .refl s
  · exact .modStore _ _ _

theorem SameTasks.putElems (s : State) (k : Nat) (c : ColW) (i : Nat) (xs : List (Bool × Nat)) : SameTasks s (s.putElems k c i xs) := by
  rw [State.putElems]
  split
  · exact .refl s
  · exact .modStore _ _ _

theorem SameTasks.voidRow (s : State) (n b row : Nat) (c : ColAt) : SameTasks s (s.voidRow n b row c) := by
  rw [State.voidRow]
  split
  · exact .refl s
  · dsimp only
    split
    · exact (SameTasks.putRowsIn _ _ _ _ _ _).trans (.mark _ _ _ _ _ _)
    · exact (SameTasks.putRawRow _ _ _ _ _ _ _).trans (.mark _ _ _ _ _ _)
    · exact (SameTasks.putElems _ _ _ _ _).trans (.mark _ _ _ _ _ _)

theorem SameTasks.markVoid (s : State) (n b row reason : Nat) : SameTasks s (s.markVoid n b row reason) := by
  rw [State.markVoid]
  split
  · exact .refl s
  · exact (SameTasks.modBatch _ _ _ _).trans (.foldl (fun _ _ => .voidRow _ _ _ _ _) _)

theorem SameTasks.settleSeg (s : State) (g : Graph) (f : FlowRec) (k slot b seg : Nat) (bytes : Bytes) :
    SameTasks s (s.settleSeg g f k slot b seg bytes) := by
  rw [State.settleSeg]
  refine SameTasks.trans ?_ (SameTasks.foldl (fun _ _ => .markVoid _ _ _ _ _) _)
  split
  · exact .refl s
  · exact .modBatch _ _ _ _

/-! ### Handing a segment off (R355) -/

theorem State.flow_of_flows {s t : State} (h : t.work.flows = s.work.flows) (f : Nat) : t.flow f = s.flow f := by
  rw [State.flow, State.flow, h]

@[simp] theorem State.flow_modFlow (s : State) (f : Nat) (g : Flow → Flow) : (s.modFlow f g).flow f = g (s.flow f) := by
  simp [State.flow, State.modFlow]

section handOff
variable {s : State} {g : Graph} {t : Tpl} {f : FlowRec} (k b : Nat) (p : Place) (hf : g.flowRec t.flow = some f)
include hf

/-- Beyond the window nothing is handed off. -/
theorem State.handOff_beyond (h : (s.flow t.flow).next + f.window ≤ segSeq f b p.seg) : s.handOff g k t p b = (false, s) := by
  simp [State.handOff, hf, h]

/-- A segment that was released already is taken and dropped. -/
theorem State.handOff_released (hw : segSeq f b p.seg < (s.flow t.flow).next + f.window) (h : segSeq f b p.seg < (s.flow t.flow).next) :
    s.handOff g k t p b = (true, s) := by
  simp [State.handOff, hf, h, Nat.not_le.mpr hw]

/-- Within the window the segment is held. -/
theorem State.handOff_held (hw : segSeq f b p.seg < (s.flow t.flow).next + f.window) (h : (s.flow t.flow).next ≤ segSeq f b p.seg) :
    s.handOff g k t p b = (true, (s.settleSeg g f k t.outSlot b p.seg (s.segmentBytes k t.outSlot)).modFlow t.flow fun x =>
      { x with held := x.held ++ [{ seq := segSeq f b p.seg, batch := b, seg := p.seg, bytes := s.segmentBytes k t.outSlot }] }) := by
  simp [State.handOff, hf, Nat.not_lt.mpr h, Nat.not_le.mpr hw]

/-- What is within the window is taken. -/
theorem State.handOff_taken (hw : segSeq f b p.seg < (s.flow t.flow).next + f.window) : (s.handOff g k t p b).1 = true := by
  obtain h | h := Nat.lt_or_ge (segSeq f b p.seg) (s.flow t.flow).next
  · rw [State.handOff_released k b p hf hw h]
  · rw [State.handOff_held k b p hf hw h]

end handOff

/-! ### Freeing a slot (R341, R346) -/

/-- A dispatcher without the record in slot `i`. -/
def Disp.freed (d : Disp) (i : Nat) : Disp :=
  { d with
    slots := tset {} i {} d.slots
    unitQ := d.unitQ.filterMap fun p => let l := p.2.filter fun x => x != i; if l.isEmpty then none else some (p.1, l) }

theorem Disp.freed_task (d : Disp) (i : Nat) : (d.freed i).task i = {} := by simp [Disp.task, Disp.freed]

theorem State.freeSlot_work (s : State) (k i : Nat) : (s.freeSlot k i).work.disps = (s.modDisp k fun d => d.freed i).work.disps ∧
    (s.freeSlot k i).work.flows = s.work.flows := by
  rw [State.freeSlot]
  dsimp only
  split <;> exact ⟨rfl, rfl⟩

theorem State.freeSlot_disp (s : State) (k i : Nat) : (s.freeSlot k i).disp k = (s.disp k).freed i := by
  obtain ⟨hdisps, -⟩ := s.freeSlot_work k i
  rw [State.disp, hdisps]
  exact s.disp_modDisp k fun d => d.freed i

/-- A slot that has been freed stays so whatever a release lets complete. -/
theorem State.freeSlot_free {s u : State} {k i : Nat} (h : Shrinks (s.freeSlot k i) u) :
    ((u.disp k).task i).state = .free ∧ u.work.flows = s.work.flows :=
  ⟨h.free (by rw [State.freeSlot_disp, Disp.freed_task]), h.flows.trans (s.freeSlot_work k i).2⟩

theorem State.freeSlot_stream (s : State) (k i n : Nat) : (s.freeSlot k i).stream n = s.stream n := by
  rw [State.freeSlot]
  dsimp only
  split <;> rfl

/-! ### A release that ends nothing (R56, R76) -/

theorem State.endRuns_disps (s : State) (n : Nat) : (s.endRuns n).work.disps = s.work.disps :=
  List.foldlRecOn (motive := fun t : State => t.work.disps = s.work.disps) _ _ rfl fun _ ht _ _ => ht

theorem State.endClose_of_open {s : State} {n : Nat} (h : (s.stream n).phase = .open_) : s.endClose n = s := by
  have hdue : s.streamEndDue n = s := by
    rw [State.streamEndDue]
    cases s.work.graph with
    | none => rfl
    | some g => simp [h]
  simp only [State.endClose, hdue, h]

/-- Where the stream is open and nothing stops it, no dispatcher changes. -/
theorem State.afterRelease_disp {s : State} {n : Nat} (hstop : (s.stream n).stop = none) (hopen : (s.stream n).phase = .open_) (k : Nat) :
    (s.afterRelease n).disp k = s.disp k := by
  have hstop' : ((s.endRuns n).stream n).stop = none := by rw [State.endRuns_stream]; exact hstop
  have hopen' : ((s.endRuns n).stream n).phase = .open_ := by rw [State.endRuns_stream]; exact hopen
  rw [State.afterRelease, State.endStop_of_none hstop', State.endClose_of_open hopen', State.disp, State.pairJoined_work, State.settle_work,
    State.endRuns_disps]
  rfl

theorem Disp.flags_setFlags (d : Disp) (frame g mask : Nat) : (tget ({} : Frame) (d.setFlags frame g mask).frames frame).flags =
    Nat.lor (tget ({} : Frame) d.frames frame).flags (mask * 2 ^ (64 * g)) := by
  simp [Disp.setFlags]

/-! ### The completion of a task (R341) -/

/-- The state after a completing task has set its flags and arrived at Weir. -/
def State.signalled (s : State) (k : Nat) (r : TaskRec) (t : Tpl) : State :=
  let s1 := s.modDisp k fun d => d.setFlags r.frame t.setGroup t.setMask
  match r.batch, s.logicalOf k with
  | some b, some l => if t.weir != 0xFF then s1.weirArrive t.weir l b else s1
  | _, _ => s1

theorem SameTasks.signalled (s : State) (k : Nat) (r : TaskRec) (t : Tpl) : SameTasks s (s.signalled k r t) := by
  have hflags : SameTasks s (s.modDisp k fun d => d.setFlags r.frame t.setGroup t.setMask) := .modDisp s k fun _ => rfl
  rw [State.signalled]
  split
  · split
    · exact hflags.trans (.weirArrive _ _ _ _)
    · exact hflags
  · exact hflags

/-- A task that arrives at no Weir only sets its flags. -/
theorem State.signalled_of_noWeir (s : State) (k : Nat) (r : TaskRec) {t : Tpl} (h : t.weir = 0xFF) :
    s.signalled k r t = s.modDisp k fun d => d.setFlags r.frame t.setGroup t.setMask := by
  rw [State.signalled]
  split
  · rw [if_neg (by simp [h])]
  · rfl

section taskComplete
variable {s : State} {g : Graph} {k : Fin 16} {i : Fin 4096} {t : Tpl} {p : Place} {r : TaskRec} (hrec : RecordOf s g k.val i.val t p)
  (hr : (s.disp k.val).task i.val = r) (hrun : r.state = .running) (hhand : r.handing = false)
  (herr : s.err.state ≠ 2) (hended : s.taskEnded g k.val r = true)
include hrec hr hrun hhand herr hended

theorem exec_taskComplete_ended : exec (.taskComplete k i) s = .next (s.completeTask g k.val i.val) := by
  obtain ⟨hg, -, -⟩ := hrec
  show execTaskComplete k i s = _
  simp [execTaskComplete, hg, hr, hrun, hhand, herr, hended]

theorem exec_taskComplete_halted (hhalt : t.kind = 1 ∧ s.coreFaulted r.seat = true) :
    exec (.taskComplete k i) s = .next (s.freeSlot k.val i.val) := by
  rw [exec_taskComplete_ended hrec hr hrun hhand herr hended]
  obtain ⟨-, htpl, hplace⟩ := hrec
  obtain ⟨hkind, hfault⟩ := hhalt
  rw [hr] at htpl hplace
  simp [State.completeTask, hr, htpl, hplace, hkind, hfault]

variable (hhalt : ¬ (t.kind = 1 ∧ s.coreFaulted r.seat = true))
include hhalt

theorem exec_taskComplete : exec (.taskComplete k i) s = .next (match r.batch with
    | some b =>
      if t.flow != 0xFFFF then
        let h := (s.signalled k.val r t).handOff g k.val t p b
        if h.1 then (h.2.freeSlot k.val i.val).afterRelease r.stream
        else ((s.signalled k.val r t).modDisp k.val fun d => d.modRec i.val fun r => { r with handing := true }).modWork fun w =>
          { w with trc := { w.trc with stall := sat32 w.trc.stall 1 } }
      else ((s.signalled k.val r t).freeSlot k.val i.val).afterRelease r.stream
    | none => ((s.signalled k.val r t).freeSlot k.val i.val).stageDone r.stream r.fail) := by
  rw [exec_taskComplete_ended hrec hr hrun hhand herr hended]
  obtain ⟨-, htpl, hplace⟩ := hrec
  rw [hr] at htpl hplace
  have hgoes : (t.kind == 1 && s.coreFaulted r.seat) = false := by
    rw [← Bool.not_eq_true, Bool.and_eq_true, beq_iff_eq]
    exact hhalt
  simp only [State.completeTask, hr, htpl, hplace, hgoes, Bool.false_eq_true, if_false]
  rfl

theorem taskComplete_withoutFlow (hflow : t.flow = 0xFFFF ∨ r.batch = none) :
    ∃ u, exec (.taskComplete k i) s = .next u ∧ ((u.disp k.val).task i.val).state = .free ∧ u.work.flows = s.work.flows := by
  refine ⟨_, exec_taskComplete hrec hr hrun hhand herr hended hhalt, ?_⟩
  have hsig := (SameTasks.signalled s k.val r t).flows
  cases hb : r.batch with
  | none =>
    obtain ⟨hfree, hflows⟩ := State.freeSlot_free (.stageDone ((s.signalled k.val r t).freeSlot k.val i.val) r.stream r.fail)
    exact ⟨hfree, hflows.trans hsig⟩
  | some b =>
    have hnone : t.flow = 0xFFFF := hflow.resolve_right (by simp [hb])
    simp only [hnone, bne_self_eq_false, Bool.false_eq_true, if_false]
    obtain ⟨hfree, hflows⟩ := State.freeSlot_free (.afterRelease ((s.signalled k.val r t).freeSlot k.val i.val) r.stream)
    exact ⟨hfree, hflows.trans hsig⟩

/-- The flags of a completing task stand in its frame, where nothing of its stream ends. -/
theorem taskComplete_flags {b : Nat} (hflow : t.flow = 0xFFFF) (hweir : t.weir = 0xFF) (hb : r.batch = some b)
    (hstop : (s.stream r.stream).stop = none) (hopen : (s.stream r.stream).phase = .open_) :
    ∃ u, exec (.taskComplete k i) s = .next u ∧ (tget ({} : Frame) (u.disp k.val).frames r.frame).flags =
      Nat.lor (tget ({} : Frame) (s.disp k.val).frames r.frame).flags (t.setMask * 2 ^ (64 * t.setGroup)) := by
  refine ⟨_, exec_taskComplete hrec hr hrun hhand herr hended hhalt, ?_⟩
  simp only [hb, hflow, bne_self_eq_false, Bool.false_eq_true, if_false, State.signalled_of_noWeir s k.val r hweir]
  rw [State.afterRelease_disp, State.freeSlot_disp, State.disp_modDisp]
  · exact Disp.flags_setFlags _ _ _ _
  · exact (State.freeSlot_stream _ _ _ _).symm ▸ hstop
  · exact (State.freeSlot_stream _ _ _ _).symm ▸ hopen

section flow
variable {b : Nat} {fr : FlowRec} (hflow : t.flow ≠ 0xFFFF) (hb : r.batch = some b) (hfr : g.flowRec t.flow = some fr)
include hflow hb hfr

/-- A segment beyond the window waits, and the stall is counted. -/
theorem taskComplete_beyond (hq : (s.flow t.flow).next + fr.window ≤ segSeq fr b p.seg) :
    ∃ u, exec (.taskComplete k i) s = .next u ∧ ((u.disp k.val).task i.val).state = .running ∧ ((u.disp k.val).task i.val).handing = true ∧
      u.work.trc.stall = sat32 s.work.trc.stall 1 ∧ u.work.flows = s.work.flows := by
  obtain ⟨hflows, htrc, htask⟩ := SameTasks.signalled s k.val r t
  rw [← State.flow_of_flows hflows] at hq
  refine ⟨_, exec_taskComplete hrec hr hrun hhand herr hended hhalt, ?_⟩
  simp only [hb, bne_iff_ne.mpr hflow, if_true, State.handOff_beyond k.val b p hfr hq, Bool.false_eq_true, if_false]
  have hdisp : (((s.signalled k.val r t).modDisp k.val fun d => d.modRec i.val fun r => { r with handing := true }).disp k.val).task i.val =
      { r with handing := true } := by
    rw [State.disp_modDisp, Disp.task_modRec, htask, hr]
  refine ⟨?_, ?_, ?_, hflows⟩
  · exact (congrArg TaskRec.state hdisp).trans hrun
  · exact congrArg TaskRec.handing hdisp
  · exact congrArg (fun x : Trc => sat32 x.stall 1) htrc

/-- A segment within the window is handed off, and the slot freed. -/
theorem taskComplete_within (hq : segSeq fr b p.seg < (s.flow t.flow).next + fr.window) :
    ∃ u, exec (.taskComplete k i) s = .next u ∧ ((u.disp k.val).task i.val).state = .free ∧
      ((s.flow t.flow).next ≤ segSeq fr b p.seg → t.weir = 0xFF → (u.flow t.flow).held =
        (s.flow t.flow).held ++ [{ seq := segSeq fr b p.seg, batch := b, seg := p.seg, bytes := s.segmentBytes k.val t.outSlot }]) := by
  have hflows := (SameTasks.signalled s k.val r t).flows
  have hq' := hq
  rw [← State.flow_of_flows hflows] at hq'
  refine ⟨_, exec_taskComplete hrec hr hrun hhand herr hended hhalt, ?_⟩
  simp only [hb, bne_iff_ne.mpr hflow, if_true, State.handOff_taken k.val b p hfr hq']
  obtain ⟨hfree, hkept⟩ := State.freeSlot_free
    (.afterRelease (((s.signalled k.val r t).handOff g k.val t p b).2.freeSlot k.val i.val) r.stream)
  refine ⟨hfree, fun hnext hweir => ?_⟩
  rw [State.flow_of_flows hkept]
  rw [← State.flow_of_flows hflows] at hnext
  rw [State.handOff_held k.val b p hfr hq' hnext, State.flow_modFlow, State.flow_of_flows (SameTasks.settleSeg _ _ _ _ _ _ _ _).flows,
    State.flow_of_flows hflows, State.signalled_of_noWeir s k.val r hweir]
  rfl

end flow

end taskComplete

theorem exec_taskComplete_runsOn {s : State} {g : Graph} {k : Fin 16} {i : Fin 4096} (hg : s.work.graph = some g)
    (h : s.taskEnded g k.val ((s.disp k.val).task i.val) = false) : exec (.taskComplete k i) s = .next s := by
  show execTaskComplete k i s = _
  simp [execTaskComplete, hg, h]

/-- Settles O43: instantiation from the qualifying batch, starts from what lets a record start, and completion from what an arrival and the
end of commands leave of records and flows. -/
theorem tasksInstantiateStartAndComplete : Obligations.TasksInstantiateStartAndComplete := by
  refine ⟨fun s g k l hg hl hw => ⟨fun hbest => exec_batchInstantiate_none hg hl hw hbest, fun n b hbest =>
      batchInstantiate_of_bestBatch hg hl hw hbest⟩,
    fun s g c t p hrec hserves hfilled hidle hnext => ⟨fun hgo => ?_, fun hwait => exec_taskStart_core_wait hrec hserves hfilled hidle hwait⟩,
    fun s g k u hg hw => ⟨fun hq => exec_taskStart_unit_empty hg hw hq, fun i q hq => ?_⟩,
    fun s g k i t p hrec hrun hhand herr hended => ⟨fun hhalt => ?_, fun hgoes => taskComplete_withoutFlow hrec rfl hrun hhand herr hended hgoes,
      fun hgoes b hflow hweir hb hquiet _ => ?_, fun hgoes b fr hflow hb hfr => ⟨fun hq => ?_, fun hq => ?_⟩⟩,
    fun s g k i hg hended => exec_taskComplete_runsOn hg hended⟩
  · obtain ⟨hmay, hphase⟩ := (Bool.and_eq_true _ _).mp hgo
    obtain ⟨cx, hexec⟩ := exec_taskStart_core_go hrec hserves hfilled hidle hmay hphase
    refine ⟨_, hexec, ?_, ?_, ?_, ?_, ?_, fun e j he => ?_, fun b hb => State.coreStarted_begun s _ _ cx hmay hb⟩
    · rw [State.coreStarted_disp]
      exact Disp.start_state _ _
    · rw [State.coreStarted_core]
      exact Core.start_hop _ _
    · rw [State.coreStarted_core]
      rfl
    · rw [State.coreStarted_core]
      rfl
    · rw [State.coreStarted_disp]
      rfl
    · rw [State.coreStarted_engine _ _ _ _ he]
      exact cx.engineAt_clear e j
  · intro r hready hunit hmay hopen hphase hgather hhold hswap
    refine ⟨_, exec_taskStart_unit hg hw hq hready hunit hmay hopen hphase hgather hhold hswap, ?_, ?_, ?_, ?_, ?_, fun j hj => ?_,
      fun b hb => State.unitStarted_begun _ _ hmay hb⟩ <;> rw [State.unitStarted_disp]
    · rw [Disp.startUnit_task]
    · rw [Disp.startUnit_task]
    · rw [Disp.startUnit_task]
    · rfl
    · rfl
    · exact Disp.startUnit_task_ne _ _ hj
  · obtain ⟨hfree, hflows⟩ := State.freeSlot_free (.refl (s.freeSlot k.val i.val))
    refine ⟨_, exec_taskComplete_halted hrec rfl hrun hhand herr hended hhalt, hfree, ?_, hflows⟩
    rw [State.freeSlot_disp]
    rfl
  · obtain ⟨-, hstop, hopen⟩ := hquiet ((s.disp k.val).task i.val).stream
    exact taskComplete_flags hrec rfl hrun hhand herr hended hgoes hflow hweir hb hstop hopen
  · exact taskComplete_beyond hrec rfl hrun hhand herr hended hgoes hflow hb hfr hq
  · exact taskComplete_within hrec rfl hrun hhand herr hended hgoes hflow hb hfr hq

end Sys2Proof.Machine
end

section

/-! Proofs about the cluster units (chapters 05 and 06): the layer on a unit's task. First how a unit's work begins and ends; then what writing
output columns leaves alone, and on what it depends. -/
namespace Sys2Proof.Machine

/-! ### A unit's work and its end (R166, R331) -/

/-- A unit's running job is that of the record in its slot. -/
theorem State.unitJob_seat {s : State} {k slot u op : Nat} {j : Job2} (h : s.unitJob k slot u op = some j) : j.k = k ∧ j.slot = slot := by
  unfold State.unitJob at h
  split at h
  · cases h
  · dsimp only at h
    split_ifs at h
    split at h
    · cases h
    · split_ifs at h
      cases h
      exact ⟨rfl, rfl⟩

theorem State.unitRun_ended {s : State} {k slot u op : Nat} {f : Job2 → State → Option (State × Nat)} {j : Job2} {r : State × Nat}
    (hjob : s.unitJob k slot u op = some j) (hf : f j s = some r) (hr : r.2 ≠ stHeld) : s.unitRun k slot u op f = r.1.unitEnd k slot r.2 := by
  simp only [State.unitRun, hjob, hf, beq_eq_false_iff_ne.mpr hr, Bool.false_eq_true, if_false]

section unitEnd

variable (s : State) (k slot fail : Nat)

@[simp] theorem State.unitEnd_cstore (i : Nat) : (s.unitEnd k slot fail).cstore i = s.cstore i := rfl

theorem State.unitEnd_task : ((s.unitEnd k slot fail).disp k).task slot = { (s.disp k).task slot with ended := true, fail := fail } := by
  rw [State.unitEnd, State.disp_modDisp]
  exact Disp.task_modRec _ _ _

theorem State.unitEnd_task_ne {i : Nat} (h : i ≠ slot) : ((s.unitEnd k slot fail).disp k).task i = (s.disp k).task i := by
  rw [State.unitEnd, State.disp_modDisp]
  exact Disp.task_modRec_ne _ _ h

theorem State.unitEnd_disp_ne {i : Nat} (h : i ≠ k) : (s.unitEnd k slot fail).disp i = s.disp i := State.disp_modDisp_ne _ _ h

theorem taskEnded_unitEnd : TaskEnded (s.unitEnd k slot fail) k slot fail := by
  rw [TaskEnded, State.unitEnd_task]
  exact ⟨rfl, rfl⟩

variable {s k slot fail}

/-- A task that has ended with a status stays so while others end with it. -/
theorem taskEnded_unitEnd_of_ended (h : TaskEnded s k slot fail) (k' slot' : Nat) : TaskEnded (s.unitEnd k' slot' fail) k slot fail := by
  by_cases hk : k = k'
  · subst hk
    by_cases hslot : slot = slot'
    · exact hslot ▸ taskEnded_unitEnd _ _ _ _
    · rwa [TaskEnded, State.unitEnd_task_ne _ _ _ _ hslot]
  · rwa [TaskEnded, State.unitEnd_disp_ne _ _ _ _ hk]

theorem taskEnded_of_disp {t : State} (hd : t.disp = s.disp) (h : TaskEnded s k slot fail) : TaskEnded t k slot fail := by
  rwa [TaskEnded, hd]

/-- Where every task of a list ends, each after its results are written, all have ended. -/
theorem taskEnded_foldl {write : State → InPart → State} (hwrite : ∀ t q, (write t q).disp = t.disp) {ps : List InPart} {q : InPart}
    (hq : q ∈ ps) (s : State) : TaskEnded (ps.foldl (fun t q => (write t q).unitEnd q.k q.slot fail) s) q.k q.slot fail := by
  obtain ⟨before, after, rfl⟩ := List.append_of_mem hq
  rw [List.foldl_append, List.foldl_cons]
  exact List.foldlRecOn (motive := fun t => TaskEnded t q.k q.slot fail) _ _ (taskEnded_unitEnd _ _ _ _) fun t ht p _ =>
    taskEnded_unitEnd_of_ended (taskEnded_of_disp (hwrite t p) ht) _ _

end unitEnd

/-- A change that leaves the dispatchers and the other clusters' stores alone, before the end of a task's work, is the work of that task only. -/
theorem onlyTask_unitEnd {s t : State} {k : Nat} (slot fail : Nat) (hd : t.disp = s.disp) (hc : ∀ i, i ≠ k → t.cstore i = s.cstore i) :
    OnlyTask s (t.unitEnd k slot fail) k slot :=
  ⟨fun i hi => ⟨by rw [State.unitEnd_disp_ne _ _ _ _ hi, hd], hc i hi⟩, fun i hi => by rw [State.unitEnd_task_ne _ _ _ _ hi, hd]⟩

/-! ### What bringing a part leaves alone (log entry 91) -/

section putPart

variable (s : State) (j : Job2) (p : InPart)

@[simp] theorem State.putPart_disp : (s.putPart j p).disp = s.disp := by
  unfold State.putPart
  split <;> rfl

@[simp] theorem State.putPart_cstore : (s.putPart j p).cstore = s.cstore := by
  unfold State.putPart
  split <;> rfl

@[simp] theorem State.putPart_units : (s.putPart j p).units = s.units := by
  unfold State.putPart
  split <;> rfl

end putPart

/-! ### What writing output columns leaves alone -/

section keeps

variable {α : Type} (part : State → α) {k : Nat} (hstore : ∀ (t : State) f, part (t.modStore k f) = part t)
  (hbatch : ∀ (t : State) n b f, part (t.modBatch n b f) = part t) (s : State)

include hbatch in
theorem State.mark_keeps (n : Nat) (b : Option Nat) (k slot : Nat) (ms : List Mark) : part (s.mark n b k slot ms) = part s := by
  unfold State.mark
  split
  · exact ite_keeps part rfl (hbatch _ _ _ _)
  · rfl

include hstore

theorem State.putSlot_keeps (c : ColW) (cells : List Cell) : part (s.putSlot k c cells) = part s := by
  unfold State.putSlot
  split
  · rfl
  · exact hstore _ _

theorem State.putRegion_keeps (slot off : Nat) (bs : Bytes) : part (s.putRegion k slot off bs) = part s := by
  unfold State.putRegion
  split
  · rfl
  · exact hstore _ _

theorem State.putRowsIn_keeps (c : ColW) (first count : Nat) (rows : List (Nat × Cell)) : part (s.putRowsIn k c first count rows) = part s :=
  ite_keeps part rfl (State.putSlot_keeps part hstore _ _ _)

theorem State.putRawRow_keeps (c : ColW) (pitch i : Nat) (row : Option Bytes) (size : Nat) : part (s.putRawRow k c pitch i row size) = part s := by
  unfold State.putRawRow
  split
  · rfl
  · exact hstore _ _

theorem State.putElems_keeps (c : ColW) (i : Nat) (xs : List (Bool × Nat)) : part (s.putElems k c i xs) = part s := by
  unfold State.putElems
  split
  · rfl
  · exact hstore _ _

include hbatch

theorem State.voidRow_keeps (n b row : Nat) {c : ColAt} (hc : c.k = k) : part (s.voidRow n b row c) = part s := by
  subst hc
  unfold State.voidRow
  refine ite_keeps part rfl ?_
  dsimp only
  split <;> refine (State.mark_keeps part hbatch _ _ _ _ _ _).trans ?_
  · exact State.putRowsIn_keeps part hstore _ _ _ _ _
  · exact State.putRawRow_keeps part hstore _ _ _ _ _ _
  · exact State.putElems_keeps part hstore _ _ _ _

theorem State.noteCols_keeps (n b : Nat) {cs : List ColAt} (hcs : ∀ c ∈ cs, c.k = k) : part (s.noteCols n b cs) = part s := by
  refine ite_keeps part rfl (List.foldlRecOn (motive := fun t => part t = part s) _ _ (hbatch _ _ _ _) fun t ht c hc => ?_)
  exact List.foldlRecOn (motive := fun t => part t = part s) _ _ ht fun t ht _ _ =>
    (State.voidRow_keeps part hstore hbatch _ _ _ _ (hcs c (List.mem_of_mem_filter hc))).trans ht

theorem State.putOuts_keeps {j : Job2} (hj : j.k = k) (cs : List ColW) (rs : Rows) (rows : List (List Cell)) : part (s.putOuts j cs rs rows) = part s := by
  subst hj
  have hslots : part ((cs.zipIdx).foldl (fun t p => t.putSlot j.k p.1 (rows.map fun r => r.getD p.2 {})) s) = part s :=
    List.foldlRecOn (motive := fun t => part t = part s) _ _ rfl fun t ht _ _ => (State.putSlot_keeps part hstore _ _ _).trans ht
  unfold State.putOuts State.noteOut
  split
  · exact hslots
  · refine List.foldlRecOn (motive := fun t => part t = part s) _ _ ?_ fun t ht _ _ => (State.mark_keeps part hbatch _ _ _ _ _ _).trans ht
    refine (State.noteCols_keeps part hstore hbatch _ _ _ fun c hc => ?_).trans hslots
    obtain ⟨_, -, rfl⟩ := List.mem_map.mp hc
    rfl

end keeps

theorem State.putOuts_disp (s : State) (j : Job2) (cs : List ColW) (rs : Rows) (rows : List (List Cell)) : (s.putOuts j cs rs rows).disp = s.disp :=
  State.putOuts_keeps State.disp (fun _ _ => rfl) (fun _ _ _ _ => rfl) s rfl cs rs rows

theorem State.cstore_modStore_ne (s : State) {k i : Nat} (f : Tab Byte → Tab Byte) (h : i ≠ k) : (s.modStore k f).cstore i = s.cstore i :=
  tget_tmod_ne _ _ _ h

theorem State.putOuts_cstore_ne (s : State) (j : Job2) (cs : List ColW) (rs : Rows) (rows : List (List Cell)) {i : Nat} (h : i ≠ j.k) :
    (s.putOuts j cs rs rows).cstore i = s.cstore i :=
  State.putOuts_keeps (fun t => t.cstore i) (fun t f => t.cstore_modStore_ne f h) (fun _ _ _ _ => rfl) s rfl cs rs rows

theorem State.putRegion_disp (s : State) (k slot off : Nat) (bs : Bytes) : (s.putRegion k slot off bs).disp = s.disp :=
  State.putRegion_keeps State.disp (fun _ _ => rfl) s slot off bs

theorem State.putRegion_units (s : State) (k slot off : Nat) (bs : Bytes) : (s.putRegion k slot off bs).units = s.units :=
  State.putRegion_keeps State.units (fun _ _ => rfl) s slot off bs

theorem State.putRegion_cstore_ne (s : State) (slot off : Nat) (bs : Bytes) {k i : Nat} (h : i ≠ k) :
    (s.putRegion k slot off bs).cstore i = s.cstore i :=
  State.putRegion_keeps (fun t => t.cstore i) (fun t f => t.cstore_modStore_ne f h) s slot off bs

/-! ### On what the writing of output columns depends (R114, R117) -/

/-- What a batch holds that decides which bytes of a column are written: the columns of its rows, and the void ones. -/
def Batch.fills (x : Batch) : List ColAt × Tab Nat := (x.cols, x.voids)

/-- `t` writes output columns of batch `b` of stream `n` as `s` does: the same stores, tensor slots, columns and void rows. -/
structure WritesAlike (n b : Nat) (s t : State) : Prop where
  stores : t.work.stores = s.work.stores
  graph : t.work.graph = s.work.graph
  present : t.present = s.present
  fills : ((t.stream n).batch b).map Batch.fills = ((s.stream n).batch b).map Batch.fills

namespace WritesAlike

variable {n b : Nat} {s t u : State}

theorem refl (s : State) : WritesAlike n b s s := ⟨rfl, rfl, rfl, rfl⟩

theorem symm (h : WritesAlike n b s t) : WritesAlike n b t s := ⟨h.stores.symm, h.graph.symm, h.present.symm, h.fills.symm⟩

theorem trans (h : WritesAlike n b s t) (h' : WritesAlike n b t u) : WritesAlike n b s u :=
  ⟨h'.stores.trans h.stores, h'.graph.trans h.graph, h'.present.trans h.present, h'.fills.trans h.fills⟩

theorem cstore (h : WritesAlike n b s t) (k : Nat) : t.cstore k = s.cstore k := by rw [State.cstore, State.cstore, h.stores]

theorem slotRec (h : WritesAlike n b s t) (k z : Nat) : t.slotRec k z = s.slotRec k z := by
  unfold State.slotRec State.logicalOf State.clusters State.logical State.coresOf State.coreIn State.clusterIn
  rw [h.graph, h.present]

theorem slotCell (h : WritesAlike n b s t) (k : Nat) (c : ColW) (r : Nat) : t.slotCell k c r = s.slotCell k c r := by
  rw [State.slotCell, State.slotCell, h.slotRec, h.cstore]

/-- A change of the batch that leaves its number, columns and void rows as they are. -/
theorem of_modBatch (s : State) {f : Batch → Batch} (hnum : ∀ x, (f x).num = x.num) (hf : ∀ x, (f x).fills = x.fills) :
    WritesAlike n b s (s.modBatch n b f) := by
  refine ⟨rfl, rfl, rfl, ?_⟩
  rw [Stream.batch_modBatch s n b f hnum, Option.map_map]
  exact congrArg (fun g => Option.map g _) (funext hf)

theorem of_mark (s : State) (k slot : Nat) (ms : List Mark) : WritesAlike n b s (s.mark n (some b) k slot ms) := by
  unfold State.mark
  split
  · rename_i hb _
    cases hb
    split
    · exact .refl s
    · exact .of_modBatch s (fun _ => rfl) fun _ => rfl
  · exact .refl s

theorem of_putPart (s : State) (j : Job2) (p : InPart) : WritesAlike j.r.stream (j.r.batch.getD b) s (s.putPart j p) := by
  unfold State.putPart
  split
  · rename_i hb
    rw [hb]
    exact .of_modBatch s (fun _ => rfl) fun _ => rfl
  · exact ⟨rfl, rfl, rfl, rfl⟩

theorem modStore (h : WritesAlike n b s t) (k : Nat) (f : Tab Byte → Tab Byte) : WritesAlike n b (s.modStore k f) (t.modStore k f) :=
  ⟨congrArg (tmod [] k f) h.stores, h.graph, h.present, h.fills⟩

theorem mark (h : WritesAlike n b s t) (k slot : Nat) (ms : List Mark) :
    WritesAlike n b (s.mark n (some b) k slot ms) (t.mark n (some b) k slot ms) :=
  ((of_mark s k slot ms).symm.trans h).trans (of_mark t k slot ms)

theorem putSlot (h : WritesAlike n b s t) (k : Nat) (c : ColW) (cells : List Cell) :
    WritesAlike n b (s.putSlot k c cells) (t.putSlot k c cells) := by
  unfold State.putSlot
  rw [h.slotRec]
  split
  · exact h
  · exact h.modStore _ _

theorem putRegion (h : WritesAlike n b s t) (k slot off : Nat) (bs : Bytes) :
    WritesAlike n b (s.putRegion k slot off bs) (t.putRegion k slot off bs) := by
  unfold State.putRegion
  rw [h.slotRec]
  split
  · exact h
  · exact h.modStore _ _

theorem putRowsIn (h : WritesAlike n b s t) (k : Nat) (c : ColW) (first count : Nat) (rows : List (Nat × Cell)) :
    WritesAlike n b (s.putRowsIn k c first count rows) (t.putRowsIn k c first count rows) := by
  unfold State.putRowsIn
  simp only [h.slotCell]
  split
  · exact h
  · exact h.putSlot _ _ _

theorem putRawRow (h : WritesAlike n b s t) (k : Nat) (c : ColW) (pitch i : Nat) (row : Option Bytes) (size : Nat) :
    WritesAlike n b (s.putRawRow k c pitch i row size) (t.putRawRow k c pitch i row size) := by
  unfold State.putRawRow
  rw [h.slotRec]
  split
  · exact h
  · exact h.modStore _ _

theorem putElems (h : WritesAlike n b s t) (k : Nat) (c : ColW) (i : Nat) (xs : List (Bool × Nat)) :
    WritesAlike n b (s.putElems k c i xs) (t.putElems k c i xs) := by
  unfold State.putElems
  rw [h.slotRec]
  split
  · exact h
  · exact h.modStore _ _

theorem voidRow (h : WritesAlike n b s t) (row : Nat) (c : ColAt) : WritesAlike n b (s.voidRow n b row c) (t.voidRow n b row c) := by
  unfold State.voidRow
  split
  · exact h
  · dsimp only
    split
    · exact (h.putRowsIn _ _ _ _ _).mark _ _ _
    · exact (h.putRawRow _ _ _ _ _ _).mark _ _ _
    · exact (h.putElems _ _ _ _).mark _ _ _

theorem foldl {β : Type} {f : State → β → State} (hf : ∀ s t x, WritesAlike n b s t → WritesAlike n b (f s x) (f t x)) (l : List β)
    (h : WritesAlike n b s t) : WritesAlike n b (l.foldl f s) (l.foldl f t) := by
  induction l generalizing s t with
  | nil => exact h
  | cons x xs ih => exact ih (hf s t x h)

/-- The batch with new columns noted. -/
theorem modBatch_cols (h : WritesAlike n b s t) (new : List ColAt) :
    WritesAlike n b (s.modBatch n b fun y => { y with cols := y.cols ++ new }) (t.modBatch n b fun y => { y with cols := y.cols ++ new }) := by
  refine ⟨h.stores, h.graph, h.present, ?_⟩
  have hmod : ∀ v : State, ((v.modBatch n b fun y => { y with cols := y.cols ++ new }).stream n).batch b =
      ((v.stream n).batch b).map fun y => { y with cols := y.cols ++ new } := fun v => Stream.batch_modBatch v n b _ fun _ => rfl
  rw [hmod, hmod, Option.map_map, Option.map_map]
  have hcols := congrArg (Option.map fun q : List ColAt × Tab Nat => (q.1 ++ new, q.2)) h.fills
  rwa [Option.map_map, Option.map_map] at hcols

theorem noteCols (h : WritesAlike n b s t) (cs : List ColAt) : WritesAlike n b (s.noteCols n b cs) (t.noteCols n b cs) := by
  have hany : ∀ c, (((t.stream n).batch b).any fun y => y.cols.contains c) = ((s.stream n).batch b).any fun y => y.cols.contains c := fun c => by
    have hc := congrArg (Option.any fun q : List ColAt × Tab Nat => q.1.contains c) h.fills
    rwa [Option.any_map, Option.any_map] at hc
  have hvoids : ((t.stream n).batch b).map (fun y => y.voids.map fun v => v.1) = ((s.stream n).batch b).map fun y => y.voids.map fun v => v.1 := by
    have hv := congrArg (Option.map fun q : List ColAt × Tab Nat => q.2.map fun v => v.1) h.fills
    rwa [Option.map_map, Option.map_map] at hv
  unfold State.noteCols
  simp only [hany, hvoids]
  split
  · exact h
  · exact (h.modBatch_cols _).foldl (fun _ _ c h => h.foldl (fun _ _ r h => h.voidRow r c) _) _

end WritesAlike

/-- States that write alike put the same cells into every store. -/
theorem WritesAlike.putOuts {s t : State} {j : Job2} {b : Nat} (h : WritesAlike j.r.stream (j.r.batch.getD b) s t) (cs : List ColW) (rs : Rows)
    (rows : List (List Cell)) (k : Nat) : (t.putOuts j cs rs rows).cstore k = (s.putOuts j cs rs rows).cstore k := by
  have hslots := h.foldl (f := fun t (p : ColW × Nat) => t.putSlot j.k p.1 (rows.map fun r => r.getD p.2 {})) (fun _ _ p h => h.putSlot _ _ _) cs.zipIdx
  unfold State.putOuts State.noteOut
  split
  · exact hslots.cstore k
  · rename_i c hb
    rw [hb, Option.getD_some] at hslots
    rw [hb]
    refine WritesAlike.cstore (n := j.r.stream) (b := c) ?_ k
    refine WritesAlike.foldl (fun _ _ p h => ?_) _ (hslots.noteCols _)
    exact h.mark _ _ _

end Sys2Proof.Machine
end

section

/-! Proofs about chapters 06 and 07: groups and selections as functions of their input rows. -/
namespace Sys2Proof.Machine

/-! ### Groups (R174, R202) -/

theorem partSame_refl (c : ColW) (x : Cell) : partSame c x x = true := by
  unfold partSame
  cases x.valid <;> split <;> simp

theorem keySame_refl (parts : List ColW) (xs : List Cell) : keySame parts xs xs = true := by
  induction parts generalizing xs with
  | nil => rfl
  | cons c cs ih =>
    cases xs with
    | nil => rfl
    | cons x xs => exact Bool.and_eq_true_iff.mpr ⟨partSame_refl c x, ih xs⟩

/-- One row more joins the group of its key, or makes a group of its own. -/
theorem groupsOf_concat (parts : List ColW) (rows : List GRow) (r : GRow) : groupsOf parts (rows ++ [r]) =
    if (groupsOf parts rows).any (fun g => keySame parts g.1 r.2.1) = true
    then (groupsOf parts rows).map fun g => if keySame parts g.1 r.2.1 = true then (g.1, g.2 ++ [r]) else g
    else groupsOf parts rows ++ [(r.2.1, [r])] := by
  rw [groupsOf, List.foldl_append]
  rfl

/-- Every row is in a group. -/
theorem exists_group_of_mem (parts : List ColW) {rows : List GRow} {r : GRow} (hr : r ∈ rows) : ∃ g ∈ groupsOf parts rows, r ∈ g.2 := by
  induction rows using List.reverseRecOn with
  | nil => cases hr
  | append_singleton rows x ih =>
    rw [groupsOf_concat]
    rcases List.mem_append.mp hr with hold | hnew
    · obtain ⟨g, hg, hmem⟩ := ih hold
      split
      · refine ⟨_, List.mem_map_of_mem hg, ?_⟩
        split
        · exact List.mem_append_left _ hmem
        · exact hmem
      · exact ⟨g, List.mem_append_left _ hg, hmem⟩
    · cases List.mem_singleton.mp hnew
      split
      · rename_i hany
        obtain ⟨g, hg, hsame⟩ := List.any_eq_true.mp hany
        refine ⟨_, List.mem_map_of_mem hg, ?_⟩
        rw [if_pos hsame]
        exact List.mem_append_right _ hnew
      · exact ⟨(r.2.1, [r]), List.mem_append_right _ List.mem_cons_self, hnew⟩

/-- A group holds input rows of its key only. -/
theorem groupsOf_sound (parts : List ColW) {rows : List GRow} {g : List Cell × List GRow} (hg : g ∈ groupsOf parts rows) {r : GRow} (hr : r ∈ g.2) :
    r ∈ rows ∧ keySame parts g.1 r.2.1 = true := by
  induction rows using List.reverseRecOn generalizing g with
  | nil => cases hg
  | append_singleton rows x ih =>
    rw [groupsOf_concat] at hg
    split at hg
    · obtain ⟨h, hh, rfl⟩ := List.mem_map.mp hg
      split at hr
      · rename_i hsame
        rw [if_pos hsame]
        rcases List.mem_append.mp hr with hrh | hnew
        · exact (ih hh hrh).imp_left (List.mem_append_left _)
        · cases List.mem_singleton.mp hnew
          exact ⟨List.mem_append_right _ hnew, hsame⟩
      · rename_i hother
        rw [if_neg hother]
        exact (ih hh hr).imp_left (List.mem_append_left _)
    · rcases List.mem_append.mp hg with hh | hnew
      · exact (ih hh hr).imp_left (List.mem_append_left _)
      · cases List.mem_singleton.mp hnew
        cases List.mem_singleton.mp hr
        exact ⟨List.mem_append_right _ List.mem_cons_self, keySame_refl _ _⟩

/-! ### The sort by a comparison -/

section sort

variable {α : Type} {le : α → α → Bool}

theorem mem_insertBy {x y : α} {l : List α} : y ∈ insertBy le x l ↔ y = x ∨ y ∈ l := by
  induction l with
  | nil => exact List.mem_cons
  | cons z zs ih =>
    rw [insertBy]
    split
    · rw [List.mem_cons, ih, List.mem_cons]
      tauto
    · exact List.mem_cons

variable (htotal : ∀ a b, le a b = false → le b a = true) (htrans : ∀ a b c, le a b = true → le b c = true → le a c = true)
include htotal htrans

theorem pairwise_insertBy (x : α) {l : List α} (h : l.Pairwise fun a b => le a b = true) : (insertBy le x l).Pairwise fun a b => le a b = true := by
  induction l with
  | nil => exact List.pairwise_singleton _ _
  | cons y ys ih =>
    obtain ⟨hy, hys⟩ := List.pairwise_cons.mp h
    rw [insertBy]
    split
    · rename_i hle
      refine List.pairwise_cons.mpr ⟨fun z hz => ?_, ih hys⟩
      exact (mem_insertBy.mp hz).elim (fun heq => heq ▸ hle) (hy z)
    · rename_i hle
      have hxy : le x y = true := htotal y x (Bool.eq_false_iff.mpr hle)
      refine List.pairwise_cons.mpr ⟨fun z hz => ?_, h⟩
      exact (List.mem_cons.mp hz).elim (fun heq => heq ▸ hxy) fun hz => htrans x y z hxy (hy z hz)

theorem pairwise_sortBy (l : List α) : (sortBy le l).Pairwise fun a b => le a b = true :=
  List.foldlRecOn (motive := fun acc : List α => acc.Pairwise fun a b => le a b = true) _ _ .nil fun _ h x _ => pairwise_insertBy htotal htrans x h

end sort

/-! ### Rank order, identities and eligibility (R226, R227, R230, R236) -/

theorem rankLe_total (large : Bool) (a b : Entry) (h : rankLe large a b = false) : rankLe large b a = true := by
  unfold rankLe at h ⊢
  cases large <;> grind

theorem rankLe_trans (large : Bool) (a b c : Entry) (hab : rankLe large a b = true) (hbc : rankLe large b c = true) : rankLe large a c = true := by
  unfold rankLe at hab hbc ⊢
  cases large <;> grind

theorem topk_taken (n : Nat) (large : Bool) (ty : Nat) (th : Option Thresh) (runs : List (List SelIn)) :
    (topk n large ty th runs).taken.length ≤ n ∧ (topk n large ty th runs).taken.Pairwise fun a b => rankLe large a b = true :=
  ⟨List.length_take_le _ _, (pairwise_sortBy (rankLe_total large) (rankLe_trans large) _).sublist (List.take_sublist _ _)⟩

/-- One entry more survives unless an entry before it has its identity. -/
theorem dedup_concat (es : List Entry) (x : Entry) : (dedup (es ++ [x])).1 =
    if (dedup es).1.any (fun y => x.ident != 0 && y.ident == x.ident) = true then (dedup es).1 else (dedup es).1 ++ [x] := by
  rw [dedup, List.foldl_append, List.foldl_cons, List.foldl_nil, ← dedup, if_congr (List.any_eq_true.trans List.find?_isSome.symm) rfl rfl]
  cases (dedup es).1.find? fun y => x.ident != 0 && y.ident == x.ident <;> rfl

theorem dedup_idents (es : List Entry) : (dedup es).1.Pairwise fun a b => ¬ (a.ident ≠ 0 ∧ a.ident = b.ident) := by
  induction es using List.reverseRecOn with
  | nil => exact .nil
  | append_singleton es x ih =>
    rw [dedup_concat]
    split
    · exact ih
    · rename_i hnone
      refine List.pairwise_append.mpr ⟨ih, List.pairwise_singleton _ _, fun a ha b hb => ?_⟩
      cases List.mem_singleton.mp hb
      rintro ⟨hne, heq⟩
      exact hnone (List.any_eq_true.mpr ⟨a, ha, by simpa [heq] using hne⟩)

theorem exists_input_of_eligible {ty : Nat} {th : Option Thresh} {xs : List SelIn} {e : Entry} (he : e ∈ eligible ty th xs) :
    ∃ x ∈ xs, x.1 = e.pos ∧ x.2.1 = .live ∧ x.2.2.1.valid = true ∧ x.2.2.1.bits = e.bits ∧ cellNan ty x.2.2.1 = false ∧
      Thresh.pass th ty e.bits = true := by
  obtain ⟨x, hx, rfl⟩ := List.mem_map.mp he
  obtain ⟨hmem, hkeep⟩ := List.mem_filter.mp hx
  simp only [Bool.and_eq_true, decide_eq_true_eq, Bool.not_eq_true'] at hkeep
  obtain ⟨⟨⟨hlive, hvalid⟩, hnan⟩, hpass⟩ := hkeep
  exact ⟨x, hmem, rfl, hlive, hvalid, rfl, hnan, hpass⟩

end Sys2Proof.Machine
end

section

/-! Proofs about chapters 06 and 07: results that the tasks of a template share. First the selections, COMPACT and TOPK. -/
namespace Sys2Proof.Machine

theorem State.sorrel_modSorrel (s : State) (k : Nat) (f : Sorrel → Sorrel) : ((s.modSorrel k f).units k).sorrel = f (s.units k).sorrel := by
  simp [State.modSorrel, State.modUnits, State.units]

/-- The result of a selection reaches the result column of every task of a list, and the tasks end. -/
def State.giveRegion (s : State) (res : ColW) (bs : Bytes) (ps : List InPart) : State :=
  ps.foldl (fun t q => (t.putRegion q.k res.slot res.off bs).unitEnd q.k q.slot 0) s

theorem State.giveRegion_units (s : State) (res : ColW) (bs : Bytes) (ps : List InPart) : (s.giveRegion res bs ps).units = s.units :=
  List.foldlRecOn (motive := fun t : State => t.units = s.units) _ _ rfl fun t ht q _ => (State.putRegion_units t q.k res.slot res.off bs).trans ht

theorem taskEnded_giveRegion (s : State) (res : ColW) (bs : Bytes) {ps : List InPart} {q : InPart} (hq : q ∈ ps) :
    TaskEnded (s.giveRegion res bs ps) q.k q.slot 0 :=
  taskEnded_foldl (write := fun t q => t.putRegion q.k res.slot res.off bs) (fun t q => State.putRegion_disp t q.k res.slot res.off bs) hq s

theorem State.giveRegion_singleton (s : State) (res : ColW) (bs : Bytes) (q : InPart) :
    s.giveRegion res bs [q] = (s.putRegion q.k res.slot res.off bs).unitEnd q.k q.slot 0 := rfl

theorem onlyTask_modSorrel {s t : State} {k slot : Nat} (h : OnlyTask s t k slot) (i : Nat) (f : Sorrel → Sorrel) :
    OnlyTask s (t.modSorrel i f) k slot := h

theorem taskEnded_modSorrel {s : State} {k slot fail : Nat} (h : TaskEnded s k slot fail) (i : Nat) (f : Sorrel → Sorrel) :
    TaskEnded (s.modSorrel i f) k slot fail := h

/-- The selections of single rows write result regions of the task's cluster and count them there. -/
theorem State.topkRows_keeps {α : Type} (part : State → α) {j : Job2} (hregion : ∀ (t : State) slot off bs, part (t.putRegion j.k slot off bs) = part t)
    (hsorrel : ∀ (t : State) k f, part (t.modSorrel k f) = part t) (s : State) (th : Option Thresh) (c ident res : ColW) (hasId : Bool) (rs : Rows) :
    part (s.topkRows j th c ident res hasId rs) = part s :=
  List.foldlRecOn (motive := fun t : State => part t = part s) _ _ rfl fun _ ht _ _ => ((hsorrel _ _ _).trans (hregion _ _ _ _)).trans ht

end Sys2Proof.Machine

namespace Sys2Proof.Shares
open Machine hiding shared

/-! ### A selection that the tasks of a template share (R234, R236) -/

theorem not_brought_of_fresh {s : State} {j : Job2} {p : InPart} (h : Fresh s j p) :
    ((s.partsOf j).any fun q => q.place == p.place && q.slot == p.slot) = false := by
  obtain ⟨hall, -⟩ := h
  rw [List.any_eq_false]
  intro q hq
  exact (Bool.not_eq_true' _).mp (List.all_eq_true.mp hall q hq) ▸ Bool.false_ne_true

theorem shareSelection_eq {s : State} {j : Job2} {p : InPart} (hfresh : Fresh s j p) (res : ColW)
    (out : List InPart → Selection × Bytes × Bool × Nat) : s.shareSelection j p res out =
      if (shared s j p).length < (j.g.tplPlaces j.tpl).length then s.putPart j p
      else ((s.putPart j p).giveRegion res (out (shared s j p)).2.1 (shared s j p)).modSorrel j.k
        fun q => q.count (out (shared s j p)).1 (out (shared s j p)).2.2.2 (out (shared s j p)).2.2.1 := by
  simp only [State.shareSelection, not_brought_of_fresh hfresh, Bool.false_eq_true, if_false]
  rfl

theorem waits_putPart (s : State) (j : Job2) (p : InPart) : Waits s (s.putPart j p) j p :=
  ⟨rfl, by rw [State.putPart_disp], by rw [State.putPart_cstore]⟩

/-- Once its part is in, a selection waits for the parts of the other tasks, or its result ends the tasks of all. -/
theorem shareSelection_settles {s : State} {j : Job2} {p : InPart} (hfresh : Fresh s j p) (hk : p.k = j.k) (hslot : p.slot = j.slot) (res : ColW)
    {out : List InPart → Selection × Bytes × Bool × Nat} {x : Selection} {bs : Bytes} {top : Bool} {cap : Nat}
    (hout : out (shared s j p) = (x, bs, top, cap)) :
    if (shared s j p).length < (j.g.tplPlaces j.tpl).length then Waits s (s.shareSelection j p res out) j p
    else Selected s (s.shareSelection j p res out) j p res x bs cap top := by
  rw [shareSelection_eq hfresh, hout]
  split
  · exact waits_putPart s j p
  · refine ⟨fun q hq => taskEnded_modSorrel (taskEnded_giveRegion _ _ _ hq) _ _, ?_, fun hsingle => ?_⟩
    · rw [State.sorrel_modSorrel, State.giveRegion_units, State.putPart_units]
    · rw [hsingle, State.giveRegion_singleton, hk, hslot]
      refine ⟨onlyTask_modSorrel (onlyTask_unitEnd _ _ ?_ fun i hi => ?_) _ _, ?_⟩
      · rw [State.putRegion_disp, State.putPart_disp]
      · rw [State.putRegion_cstore_ne _ _ _ _ hi, State.putPart_cstore]
      · exact ((WritesAlike.of_putPart (b := 0) s j p).putRegion _ _ _ _).cstore _

/-! ### COMPACT (R226, R228, R236) -/

/-- What a COMPACT makes of the parts of its tasks: the selection, its bytes, no capacity to fill, the capacity. -/
def compactOut (s : State) (j : Job2) (ps : List InPart) : Selection × Bytes × Bool × Nat :=
  let c := parseCol (j.p 4)
  let cap := if j.r.batch.isSome then j.g.batchRows j.r.stream else (ps.map fun q => q.count).sum
  let x := compactOf c.ty (j.p 0 == 1) (s.thresh j.k (j.p 1) (j.p 2) (j.p 3)) j.t.stage (selIns (coreRuns ps).flatten)
  (x, x.bytes cap (tyBits c.ty / 8) 0 (j.p 5 != 0) false, false, cap)

theorem exec_compact {s : State} {k : Fin 16} {slot : Fin 4096} (rs : Rows) {j : Job2} (hjob : s.unitJob k.val slot.val 2 1 = some j) :
    exec (.compact k slot rs) s = .next (s.shareSelection j (s.selPart j (parseCol (j.p 4)) (parseCol (j.p 5)) (j.p 5 != 0) rs []) (parseCol (j.p 6))
      (compactOut s j)) := by
  show execCompact k slot rs s = _
  simp only [execCompact, hjob]
  rfl

theorem compact_settles {s : State} {k : Fin 16} {slot : Fin 4096} {rs : Rows} {j : Job2} (hjob : s.unitJob k.val slot.val 2 1 = some j) :
    let c := parseCol (j.p 4)
    let p := s.selPart j c (parseCol (j.p 5)) (j.p 5 != 0) rs []
    let x := compactOf c.ty (j.p 0 == 1) (s.thresh k (j.p 1) (j.p 2) (j.p 3)) j.t.stage (selIns (coreRuns (shared s j p)).flatten)
    let cap := if j.r.batch.isSome then j.g.batchRows j.r.stream else ((shared s j p).map fun q => q.count).sum
    Fresh s j p → ∃ u, exec (.compact k slot rs) s = .next u ∧
      if (shared s j p).length < (j.g.tplPlaces j.tpl).length then Waits s u j p
      else Selected s u j p (parseCol (j.p 6)) x (x.bytes cap (tyBits c.ty / 8) 0 (j.p 5 != 0) false) cap false := by
  intro c p x cap hfresh
  obtain ⟨hk, -⟩ := State.unitJob_seat hjob
  refine ⟨_, exec_compact rs hjob, shareSelection_settles hfresh rfl rfl _ ?_⟩
  rw [compactOut, hk]

/-! ### TOPK (R226, R229 to R231, R236) -/

/-- What a TOPK makes of the parts of its tasks: the selection, its bytes, a capacity to fill, the capacity. -/
def topkOut (s : State) (j : Job2) (ps : List InPart) : Selection × Bytes × Bool × Nat :=
  let c := parseCol (j.p 8)
  let x := topk (j.p 0) (j.p 1 == 0) c.ty (s.thresh j.k (j.p 3) (j.p 4) (j.p 5)) ((coreRuns ps).map selIns)
  (x, x.bytes (j.p 0) (tyBits c.ty / 8) (j.p 6) (j.p 9 != 0) true, true, j.p 0)

section topk

variable {s : State} {k : Fin 16} {slot : Fin 4096} (rs : Rows) (parts : List Nat) {e : BusEnv} {j : Job2}
  (hjob : (s.env e).unitJob k.val slot.val 2 2 = some j)
include hjob

theorem exec_topk_batch (hscope : j.p 2 = 0) : exec (.topk k slot rs parts e) s = .next ((s.env e).shareSelection j
    ((s.env e).selPart j (parseCol (j.p 8)) (parseCol (j.p 9)) (j.p 9 != 0) rs parts) (parseCol (j.p 10)) (topkOut (s.env e) j)) := by
  show execTopk k slot rs parts e s = _
  simp only [execTopk, hjob, hscope]
  rfl

theorem exec_topk_row (hscope : j.p 2 = 1) : exec (.topk k slot rs parts e) s = .next
    (((s.env e).topkRows j ((s.env e).thresh j.k (j.p 3) (j.p 4) (j.p 5)) (parseCol (j.p 8)) (parseCol (j.p 9)) (parseCol (j.p 10))
      (j.p 9 != 0) rs).unitEnd j.k j.slot 0) := by
  show execTopk k slot rs parts e s = _
  simp only [execTopk, hjob, hscope]

theorem exec_topk_table_waits (hscope : j.p 2 = 2) (hready : (s.env e).tableReady j.r.stream (j.p 7) = false) :
    exec (.topk k slot rs parts e) s = .next (s.env e) := by
  show execTopk k slot rs parts e s = _
  simp only [execTopk, hjob, hscope, hready, Bool.not_false, if_true]

/-- In TABLE scope a task reads its range of the table's rows, which fails the stage or is the task's part. -/
theorem exec_topk_table (hscope : j.p 2 = 2) (hready : (s.env e).tableReady j.r.stream (j.p 7) = true) :
    let v := (s.env e).viewTable e j.g j.r.stream (j.p 7)
    let c := parseCol (j.p 8)
    let id := parseCol (j.p 9)
    let ps := v.rowPieces c.off rs.first rs.count ++ if (j.p 9 != 0) = true then v.rowPieces id.off rs.first rs.count else []
    let t := (s.env e).readPieces ps
    let r := v.selTable c id (j.p 9 != 0) rs
    (s.env e).poisonedIn ps = false → exec (.topk k slot rs parts e) s = .next (if (r.1 != 0) = true then t.unitEnd j.k j.slot r.1
      else t.shareSelection j { place := j.r.place, k := j.k, slot := j.slot, first := rs.first, count := rs.count, parts := parts, rows := r.2 }
        (parseCol (j.p 10)) (topkOut (s.env e) j)) := by
  intro v c id ps t r hclean
  show execTopk k slot rs parts e s = _
  dsimp only [ps, v, c, id] at hclean
  simp only [execTopk, hjob, hscope, hready, hclean, Bool.not_true, Bool.false_eq_true, if_false]
  rfl

theorem topk_batch_settles (hscope : j.p 2 = 0) :
    let s0 := s.env e
    let c := parseCol (j.p 8)
    let p := s0.selPart j c (parseCol (j.p 9)) (j.p 9 != 0) rs parts
    let x := topk (j.p 0) (j.p 1 == 0) c.ty (s0.thresh k (j.p 3) (j.p 4) (j.p 5)) ((coreRuns (shared s0 j p)).map selIns)
    Fresh s0 j p → ∃ u, exec (.topk k slot rs parts e) s = .next u ∧
      if (shared s0 j p).length < (j.g.tplPlaces j.tpl).length then Waits s0 u j p
      else Selected s0 u j p (parseCol (j.p 10)) x (x.bytes (j.p 0) (tyBits c.ty / 8) (j.p 6) (j.p 9 != 0) true) (j.p 0) true := by
  intro s0 c p x hfresh
  obtain ⟨hk, -⟩ := State.unitJob_seat hjob
  refine ⟨_, exec_topk_batch rs parts hjob hscope, shareSelection_settles hfresh rfl rfl _ ?_⟩
  rw [topkOut, hk]

theorem topk_row_settles (hscope : j.p 2 = 1) :
    ∃ u, exec (.topk k slot rs parts e) s = .next u ∧ TaskEnded u k slot 0 ∧ OnlyTask (s.env e) u k slot := by
  obtain ⟨hk, hslot⟩ := State.unitJob_seat hjob
  refine ⟨_, exec_topk_row rs parts hjob hscope, ?_⟩
  rw [hk, hslot]
  refine ⟨taskEnded_unitEnd _ _ _ _, onlyTask_unitEnd _ _ ?_ fun i hi => ?_⟩
  · exact State.topkRows_keeps State.disp (fun t slot off bs => State.putRegion_disp t j.k slot off bs) (fun _ _ _ => rfl) _ _ _ _ _ _ _
  · exact State.topkRows_keeps (fun t => t.cstore i) (fun t slot off bs => State.putRegion_cstore_ne t slot off bs (hk ▸ hi)) (fun _ _ _ => rfl)
      _ _ _ _ _ _ _

theorem topk_table_settles (hscope : j.p 2 = 2) (hready : (s.env e).tableReady j.r.stream (j.p 7) = true) :
    let s0 := s.env e
    let c := parseCol (j.p 8)
    let v := s0.viewTable e j.g j.r.stream (j.p 7)
    let id := parseCol (j.p 9)
    let ps := v.rowPieces c.off rs.first rs.count ++ if (j.p 9 != 0) = true then v.rowPieces id.off rs.first rs.count else []
    let t := s0.readPieces ps
    let r := v.selTable c id (j.p 9 != 0) rs
    let p : InPart := { place := j.r.place, k := j.k, slot := j.slot, first := rs.first, count := rs.count, parts := parts, rows := r.2 }
    let x := topk (j.p 0) (j.p 1 == 0) c.ty (s0.thresh k (j.p 3) (j.p 4) (j.p 5)) ((coreRuns (shared t j p)).map selIns)
    s0.poisonedIn ps = false → ∃ u, exec (.topk k slot rs parts e) s = .next u ∧ (r.1 ≠ 0 → TaskEnded u k slot r.1) ∧
      (r.1 = 0 → Fresh t j p → if (shared t j p).length < (j.g.tplPlaces j.tpl).length then Waits t u j p
        else Selected t u j p (parseCol (j.p 10)) x (x.bytes (j.p 0) (tyBits c.ty / 8) (j.p 6) (j.p 9 != 0) true) (j.p 0) true) := by
  intro s0 c v id ps t r p x hclean
  obtain ⟨hk, hslot⟩ := State.unitJob_seat hjob
  refine ⟨_, exec_topk_table rs parts hjob hscope hready hclean, fun hfail => ?_, fun hok hfresh => ?_⟩
  · rw [if_pos (bne_iff_ne.mpr hfail), hk, hslot]
    exact taskEnded_unitEnd _ _ _ _
  · rw [if_neg fun h => bne_iff_ne.mp h hok]
    refine shareSelection_settles hfresh rfl rfl _ ?_
    rw [topkOut, hk]

end topk

end Sys2Proof.Shares
end

section

/-! Proofs about chapter 06 (relational operators): RANK_SKETCH and APPROX_DISTINCT. -/
namespace Sys2Proof.Shares
open Machine hiding shared

/-! ### A sketch that the tasks of a template share (R208, R209, R211) -/

theorem shared_modQuern (s : State) (j : Job2) (p : InPart) (k : Nat) (f : Quern → Quern) : shared (s.modQuern k f) j p = shared s j p := by
  unfold shared State.putPart State.partsOf State.broughtTo
  cases j.r.batch <;> rfl

/-- A change of Quern's registers, and the part of a task, leave what output columns are written to as it was. -/
theorem writesAlike_brought (s : State) (j : Job2) (p : InPart) (k : Nat) (f : Quern → Quern) :
    WritesAlike j.r.stream (j.r.batch.getD 0) s ((s.modQuern k f).putPart j p) :=
  have hquern : WritesAlike j.r.stream (j.r.batch.getD 0) s (s.modQuern k f) := ⟨rfl, rfl, rfl, rfl⟩
  hquern.trans (.of_putPart (s.modQuern k f) j p)

section sketch

variable {s : State} {j : Job2} (f : Quern → Quern) (rs : Rows) (p : InPart) (outs : List ColW) (out : List InPart → List (List Cell))
  (keep : List InPart → Built → Built)

theorem shareSketch_eq (hderived : j.derived = none) : (s.modQuern j.k f).shareSketch j rs p outs out keep =
    (if (shared s j p).length < (j.g.tplPlaces j.tpl).length then (s.modQuern j.k f).putPart j p
      else let t := ((s.modQuern j.k f).putPart j p).putOuts j outs rs (out (shared s j p))
        t.setBuilt j.tpl (keep (shared s j p) (t.builtOf j.tpl)), 0) := by
  have hps : (((s.modQuern j.k f).putPart j p).partsOf j) = shared s j p := shared_modQuern s j p j.k f
  simp only [State.shareSketch, State.putWhole, hderived, hps]
  split <;> rfl

/-- With its part in, a task of a sketch ends alone; only the last writes, into its own cluster, what is made of all parts. -/
theorem shareSketch_settles (hderived : j.derived = none) :
    let u := ((s.modQuern j.k f).shareSketch j rs p outs out keep).1
    OnlyTask s (u.unitEnd j.k j.slot 0) j.k j.slot ∧ u.cstore j.k =
      if (shared s j p).length < (j.g.tplPlaces j.tpl).length then s.cstore j.k else (s.putOuts j outs rs (out (shared s j p))).cstore j.k := by
  rw [shareSketch_eq f rs p outs out keep hderived]
  dsimp only
  split
  · refine ⟨onlyTask_unitEnd _ _ ?_ fun i _ => ?_, ?_⟩ <;> simp only [State.putPart_disp, State.putPart_cstore] <;> rfl
  · refine ⟨onlyTask_unitEnd _ _ ?_ fun i hi => ?_, (writesAlike_brought s j p j.k f).putOuts _ _ _ _⟩
    · exact (State.putOuts_disp _ _ _ _ _).trans (State.putPart_disp _ _ _)
    · exact (State.putOuts_cstore_ne _ _ _ _ _ hi).trans (congrFun (State.putPart_cstore _ _ _) i)

/-- A body that brings its part to a sketch ends its task. -/
theorem sketch_settles {c : Instr} {k slot unit op : Nat} {body : Job2 → State → Option (State × Nat)}
    (hexec : exec c s = .next (s.unitRun k slot unit op body)) (hjob : s.unitJob k slot unit op = some j) (hderived : j.derived = none)
    (hbody : body j s = some ((s.modQuern j.k f).shareSketch j rs p outs out keep)) :
    ∃ u, exec c s = .next u ∧ TaskEnded u k slot 0 ∧ OnlyTask s u k slot ∧ u.cstore k =
        if (shared s j p).length < (j.g.tplPlaces j.tpl).length then s.cstore k else (s.putOuts j outs rs (out (shared s j p))).cstore k := by
  obtain ⟨hk, hslot⟩ := State.unitJob_seat hjob
  have hok : ((s.modQuern j.k f).shareSketch j rs p outs out keep).2 = 0 := by rw [shareSketch_eq f rs p outs out keep hderived]
  obtain ⟨honly, hcstore⟩ := shareSketch_settles (s := s) f rs p outs out keep hderived
  rw [hk, hslot] at honly
  rw [hexec, State.unitRun_ended hjob hbody (by rw [hok]; decide), hok]
  rw [hk] at hcstore ⊢
  refine ⟨_, rfl, taskEnded_unitEnd _ _ _ _, honly, ?_⟩
  rw [State.unitEnd_cstore, hcstore]

end sketch

theorem rankSketch_settles {s : State} {k : Fin 16} {slot : Fin 4096} {rs : Rows} {parts : List Nat} {j : Job2}
    (hjob : s.unitJob k.val slot.val 1 10 = some j) (hderived : j.derived = none) (hfits : j.g.decls.fits = []) :
    let c := parseCol (j.p 1)
    let qs := takeList (j.ps.drop 2)
    let ps := shared s j (sketchPart s j c rs parts)
    let sk := fillSketch (j.p 0) c ((coreRuns ps).map fun l => (l.flatMap fun r => r.2.2).filter Cell.valid)
    ∃ u, exec (.rankSketch k slot rs parts) s = .next u ∧ TaskEnded u k slot 0 ∧ OnlyTask s u k slot ∧
      u.cstore k = if ps.length < (j.g.tplPlaces j.tpl).length then s.cstore k
        else (s.putOuts j [parseCol (qs.2.headD 0)] rs (qs.1.map fun q => [sk.cellAt c (ratOf (fp64.decode q))])).cstore k := by
  intro c qs ps sk
  obtain ⟨u, hexec, hend, honly, hcstore⟩ := sketch_settles (c := .rankSketch k slot rs parts) _ rs (sketchPart s j c rs parts) _ _ _ rfl hjob hderived rfl
  refine ⟨u, hexec, hend, honly, hcstore.trans ?_⟩
  have hfit : j.g.decls.fits.contains j.tpl = false := by rw [hfits, List.contains_nil]
  simp only [hfit, Bool.not_false, Bool.true_or, Bool.and_true, Bool.false_and, Bool.false_eq_true, if_false, List.map_map]
  rfl

theorem approxDistinct_settles {s : State} {k : Fin 16} {slot : Fin 4096} {rs : Rows} {j : Job2}
    (hjob : s.unitJob k.val slot.val 1 11 = some j) (hderived : j.derived = none) :
    let key := takeCols (j.ps.drop 1)
    let ps := shared s j (distinctPart s j key.1 rs)
    let est := hllEstimate ((ps.flatMap fun p => p.rows).foldl (fun m r => hllAdd m (keyHash j.t.salt key.1 r.2.1) (j.p 0)) ([] : Tab Nat)) (j.p 0)
    ∃ u, exec (.approxDistinct k slot rs) s = .next u ∧ TaskEnded u k slot 0 ∧ OnlyTask s u k slot ∧
      u.cstore k = if ps.length < (j.g.tplPlaces j.tpl).length then s.cstore k
        else (s.putOuts j [parseCol (key.2.headD 0)] rs [[{ valid := true, bits := est }]]).cstore k := by
  intro key ps est
  obtain ⟨u, hexec, hend, honly, hcstore⟩ := sketch_settles (c := .approxDistinct k slot rs) _ rs (distinctPart s j key.1 rs) _ _ _ rfl hjob hderived rfl
  exact ⟨u, hexec, hend, honly, hcstore⟩

end Sys2Proof.Shares
end

section

/-! Proofs about chapter 06 (relational operators): GROUP_BY, and the settlement of O46. -/
namespace Sys2Proof.Machine

@[simp] theorem State.spillEnds_disp (s : State) (j : Job2) : (s.spillEnds j).disp = s.disp := by
  unfold State.spillEnds
  split <;> rfl

@[simp] theorem State.spillEnds_cstore (s : State) (j : Job2) : (s.spillEnds j).cstore = s.cstore := by
  unfold State.spillEnds
  split <;> rfl

/-- An area of which no byte is used stays as it is. -/
theorem State.useArea_zero (s : State) (kind owner at_ : Nat) : s.useArea kind owner at_ 0 = s := by
  unfold State.useArea
  split <;> rfl

/-- The only element of a list that a test can accept is what a search for it finds. -/
theorem find?_of_unique {α : Type} {l : List α} {q : α → Bool} {a : α} (ha : a ∈ l) (huniq : ∀ x ∈ l, q x = true → x = a) :
    l.find? q = if q a = true then some a else none := by
  split
  · rename_i hqa
    obtain ⟨x, hx⟩ := Option.isSome_iff_exists.mp (List.find?_isSome.mpr ⟨a, ha, hqa⟩)
    rw [hx, huniq x (List.mem_of_find?_eq_some hx) (List.find?_some hx)]
  · rename_i hqa
    exact List.find?_eq_none.mpr fun x hx hqx => hqa (huniq x hx hqx ▸ hqx)

end Sys2Proof.Machine

namespace Sys2Proof.Shares
open Machine hiding shared

/-! ### What a group-by comes to once a part is in (R204, R205) -/

/-- A group-by fails: its task ends with ST_LIMIT, or in the BROADCAST form all tasks that brought a part. -/
def groupsFail (s : State) (j : Job2) (ps : List InPart) : State :=
  if j.p 1 == 0 then (s.spillEnds j).unitEnd j.k j.slot stLimit else ps.foldl (fun t q => t.unitEnd q.k q.slot stLimit) (s.spillEnds j)

/-- The state in which the groups of all parts have been counted. -/
def groupsCounted (s : State) (j : Job2) (ps : List InPart) : State :=
  s.modQuern j.k fun q => { q with
    rangeErr := sat32 q.rangeErr ((groupResults j.t.salt j.groupDecl ps).map fun g => (g.2.filter fun x => x.2).length).sum }

/-- The rows of the groups in key order. -/
def groupRows (j : Job2) (ps : List InPart) : List (List Cell) :=
  (sortBy (fun a b : List Cell × List (Cell × Bool) => decide (cmpKeys j.groupDecl.key a.1 b.1 ≤ 0)) (groupResults j.t.salt j.groupDecl ps)).map
    fun g => g.1 ++ g.2.map fun x => x.1

/-- All parts are in: too many groups, one row per group, or the aggregates to the rows of all. -/
def groupsMerged (s : State) (j : Job2) (rs : Rows) (ps : List InPart) : State :=
  if j.p 0 < (groupResults j.t.salt j.groupDecl ps).length then groupsFail (groupsCounted s j ps) j ps
  else if j.p 1 == 0 then
    let r := (groupsCounted s j ps).putWhole j j.groupDecl.outs rs (groupRows j ps)
    (r.1.spillEnds j).unitEnd j.k j.slot r.2
  else ((groupsCounted s j ps).broadcast j j.groupDecl (groupResults j.t.salt j.groupDecl ps) ps).spillEnds j

/-- What follows a part that is in: the area may be too small, the part may wait for others, or it is the last. -/
def groupsGoOn (s : State) (j : Job2) (rs : Rows) (small : Bool) : State :=
  if small then groupsFail s j (s.partsOf j)
  else if (s.partsOf j).length < (j.g.tplPlaces j.tpl).length then (if j.p 1 == 0 then s.unitEnd j.k j.slot 0 else s)
  else groupsMerged s j rs (s.partsOf j)

/-- The state in which a part has been counted, its spilled rows written, and brought. -/
def groupJoined (s : State) (j : Job2) (rs : Rows) (p : InPart) : State :=
  ((s.countGroups j j.groupDecl ((rowList rs).filter fun q => j.isVoid s q).length (newBlocks s j p) p.rows).useArea 5 j.tpl
    (0x10000 * ((List.range 16).map fun c => j.clusterBlocks (others s j p) c).sum) (0x10000 * newBlocks s j p)).putPart j
      { p with spill := newBlocks s j p }

theorem exec_groupBy {s : State} {k : Fin 16} {slot : Fin 4096} (rs : Rows) (parts : List Nat) {j : Job2}
    (hjob : s.unitJob k.val slot.val 1 9 = some j) (hfresh : Fresh s j (groupPart s j rs parts)) :
    exec (.groupBy k slot ⟨rs, parts⟩) s = .next (groupsGoOn (groupJoined s j rs (groupPart s j rs parts)) j rs
      (j.t.stage && decide (j.g.areaLen 5 j.tpl < spilledBytes s j (groupPart s j rs parts)))) := by
  have hnew : ((s.partsOf j).any fun q => q.place == j.r.place && q.slot == j.slot && j.p 1 == 1) = false := by
    have hbrought := not_brought_of_fresh hfresh
    rw [List.any_eq_false] at hbrought ⊢
    exact fun q hq h => hbrought q hq (Bool.and_eq_true_iff.mp h).1
  show execGroupBy k slot ⟨rs, parts⟩ s = _
  simp only [execGroupBy, hjob, hnew, Bool.false_eq_true, if_false]
  rfl

/-! ### A group-by that spills, and one that does not (R204) -/

theorem groupsFail_ended (s : State) {j : Job2} {ps : List InPart} {p : InPart} (hp : p ∈ ps) (hk : p.k = j.k) (hslot : p.slot = j.slot) :
    TaskEnded (groupsFail s j ps) j.k j.slot 0x12 := by
  unfold groupsFail
  split
  · exact taskEnded_unitEnd _ _ _ _
  · rw [← hk, ← hslot]
    exact taskEnded_foldl (write := fun t _ => t) (fun _ _ => rfl) hp _

theorem groupsFail_cstore (s : State) (j : Job2) (ps : List InPart) : (groupsFail s j ps).cstore = s.cstore := by
  unfold groupsFail
  split
  · exact State.spillEnds_cstore s j
  · exact List.foldlRecOn (motive := fun t : State => t.cstore = s.cstore) _ _ (State.spillEnds_cstore s j) fun _ ht _ _ => ht

section noSpill

variable {s : State} {j : Job2} {p : InPart} (hk : j.k < 16) (hnone : NoSpill s j p)
include hk hnone

theorem newBlocks_noSpill : newBlocks s j p = 0 := by
  rw [newBlocks, (hnone j.k (List.mem_range.mpr hk)).2, Nat.zero_sub]

theorem spilledBytes_noSpill : spilledBytes s j p = 0 := by
  have hothers : ((List.range 16).map fun c => j.clusterBlocks (others s j p) c).sum = 0 :=
    List.sum_eq_zero fun n hn => by
      obtain ⟨c, hc, rfl⟩ := List.mem_map.mp hn
      exact (hnone c hc).1
  rw [spilledBytes, hothers, newBlocks_noSpill hk hnone]

/-- Without spill a part is only counted and brought. -/
theorem groupJoined_noSpill (rs : Rows) (hspill : p.spill = 0) : ∃ f, groupJoined s j rs p = (s.modQuern j.k f).putPart j p := by
  have hp : { p with spill := 0 } = p := by rw [← hspill]
  have hjoined : groupJoined s j rs p =
      (s.countGroups j j.groupDecl ((rowList rs).filter fun q => j.isVoid s q).length 0 p.rows).putPart j p := by
    rw [groupJoined, newBlocks_noSpill hk hnone, Nat.mul_zero, State.useArea_zero, hp]
  exact ⟨_, hjoined⟩

end noSpill

section groupBy

variable {s : State} {k : Fin 16} {slot : Fin 4096} (rs : Rows) (parts : List Nat) {j : Job2} (hjob : s.unitJob k.val slot.val 1 9 = some j)
  (hfresh : Fresh s j (groupPart s j rs parts))
include hjob hfresh

theorem groupBy_fails (hstage : j.t.stage = true) (hform : j.p 1 = 0)
    (hsmall : j.g.areaLen 5 j.tpl < spilledBytes s j (groupPart s j rs parts)) :
    ∃ u, exec (.groupBy k slot ⟨rs, parts⟩) s = .next u ∧ TaskEnded u k slot 0x12 := by
  obtain ⟨hk, hslot⟩ := State.unitJob_seat hjob
  refine ⟨_, exec_groupBy rs parts hjob hfresh, ?_⟩
  rw [hstage, decide_eq_true hsmall, groupsGoOn, Bool.and_true, if_pos rfl, groupsFail, hform, beq_self_eq_true, if_pos rfl, hk, hslot]
  exact taskEnded_unitEnd _ _ _ _

theorem exec_groupBy_noSpill (hnone : NoSpill s j (groupPart s j rs parts)) :
    ∃ f, let t := (s.modQuern j.k f).putPart j (groupPart s j rs parts)
      exec (.groupBy k slot ⟨rs, parts⟩) s = .next (
        if (shared s j (groupPart s j rs parts)).length < (j.g.tplPlaces j.tpl).length then (if j.p 1 == 0 then t.unitEnd j.k j.slot 0 else t)
        else groupsMerged t j rs (shared s j (groupPart s j rs parts))) := by
  obtain ⟨hk, -⟩ := State.unitJob_seat hjob
  have hlt : j.k < 16 := hk ▸ k.isLt
  obtain ⟨f, hjoined⟩ := groupJoined_noSpill hlt hnone rs rfl
  refine ⟨f, ?_⟩
  have hps : ((s.modQuern j.k f).putPart j (groupPart s j rs parts)).partsOf j = shared s j (groupPart s j rs parts) := shared_modQuern s j _ j.k f
  rw [exec_groupBy rs parts hjob hfresh, spilledBytes_noSpill hlt hnone, hjoined, groupsGoOn, hps, decide_eq_false (Nat.not_lt_zero _), Bool.and_false,
    if_neg Bool.false_ne_true]

end groupBy

/-! ### The last part of a group-by (R202, R203, R205) -/

section merged

variable (s : State) {j : Job2} {rs : Rows} {ps : List InPart}

theorem groupsMerged_many (hmany : j.p 0 < (groupResults j.t.salt j.groupDecl ps).length) :
    groupsMerged s j rs ps = groupsFail (groupsCounted s j ps) j ps := if_pos hmany

variable (hfew : (groupResults j.t.salt j.groupDecl ps).length ≤ j.p 0)
include hfew

theorem groupsMerged_rows (hform : j.p 1 = 0) (hderived : j.derived = none) : groupsMerged s j rs ps =
    (((groupsCounted s j ps).putOuts j j.groupDecl.outs rs (groupRows j ps)).spillEnds j).unitEnd j.k j.slot 0 := by
  rw [groupsMerged, if_neg (Nat.not_lt.mpr hfew), hform, beq_self_eq_true, if_pos rfl, State.putWhole, hderived]

theorem groupsMerged_broadcast (hform : j.p 1 = 1) : groupsMerged s j rs ps =
    ((groupsCounted s j ps).broadcast j j.groupDecl (groupResults j.t.salt j.groupDecl ps) ps).spillEnds j := by
  rw [groupsMerged, if_neg (Nat.not_lt.mpr hfew), hform]
  rfl

end merged

/-- Where the BROADCAST form has written, the tasks of all parts have ended. -/
theorem taskEnded_broadcast (s : State) (j : Job2) (d : GroupDecl) (gs : List (List Cell × List (Cell × Bool))) {ps : List InPart} {q : InPart}
    (hq : q ∈ ps) : TaskEnded (s.broadcast j d gs ps) q.k q.slot 0 :=
  taskEnded_foldl (fun _ _ => State.putOuts_disp _ _ _ _ _) hq s

/-- The row that a task has brought to a group-by for its local row `i`: none of an absent one. -/
theorem find?_groupPart (s : State) (j : Job2) (rs : Rows) (parts : List Nat) {i : Nat} (hi : i < rs.count) :
    ((groupPart s j rs parts).rows.find? fun r => r.1 == rs.first + i) = if j.absent s (i, rs.first + i) = true then none
      else some (rs.first + i, s.keyCells j.k j.groupDecl.key i, s.keyCells j.k j.groupDecl.vals i) := by
  have hmem : (i, rs.first + i) ∈ rowList rs := List.mem_map.mpr ⟨i, List.mem_range.mpr hi, rfl⟩
  have hfound := find?_of_unique (q := fun p : Nat × Nat => !j.absent s p && p.2 == rs.first + i) hmem fun p hp hq => by
    obtain ⟨n, -, rfl⟩ := List.mem_map.mp hp
    have hn : rs.first + n = rs.first + i := eq_of_beq (Bool.and_eq_true_iff.mp hq).2
    rw [Nat.add_left_cancel hn]
  have hsame : ((fun r : GRow => r.1 == rs.first + i) ∘ fun p : Nat × Nat =>
      (p.2, s.keyCells j.k j.groupDecl.key p.1, s.keyCells j.k j.groupDecl.vals p.1)) = fun p => p.2 == rs.first + i := rfl
  rw [groupPart, List.find?_map, List.find?_filter, hsame]
  simp only [Bool.decide_and, Bool.decide_eq_true]
  rw [hfound]
  cases j.absent s (i, rs.first + i) <;> simp

/-- The rows that the BROADCAST form writes for a task: the aggregates of each row's group. -/
def broadcastRows (s : State) (j : Job2) (k : Nat) (rs : Rows) (gs : List (List Cell × List (Cell × Bool))) : List (List Cell) :=
  (rowList rs).map fun r => if j.absent s r then [] else ((gs.find? fun g => keySame j.groupDecl.key g.1 (s.keyCells k j.groupDecl.key r.1)).map
    fun g => g.2.map fun x => x.1).getD []

theorem broadcast_groupPart (s t : State) (j : Job2) (rs : Rows) (parts : List Nat) (gs : List (List Cell × List (Cell × Bool))) :
    t.broadcast j j.groupDecl gs [groupPart s j rs parts] = (t.putOuts j j.groupDecl.outs rs (broadcastRows s j j.k rs gs)).unitEnd j.k j.slot 0 := by
  have hrows : ((List.range rs.count).map fun i => match (groupPart s j rs parts).rows.find? fun r => r.1 == rs.first + i with
      | some r => ((gs.find? fun g => keySame j.groupDecl.key g.1 r.2.1).map fun g => g.2.map fun x => x.1).getD []
      | none => []) = broadcastRows s j j.k rs gs := by
    rw [broadcastRows, rowList, List.map_map]
    refine List.map_congr_left fun i hi => ?_
    rw [find?_groupPart s j rs parts (List.mem_range.mp hi)]
    simp only [Function.comp]
    split_ifs <;> rfl
  rw [← hrows]
  rfl

/-! ### GROUP_BY (R202 to R205) -/

section settle

variable {s : State} {k : Fin 16} {slot : Fin 4096} (rs : Rows) (parts : List Nat) {j : Job2}

/-- What a group-by that does not spill comes to once its part is in. -/
theorem groupBy_settles (hjob : s.unitJob k.val slot.val 1 9 = some j) :
    let d := j.groupDecl
    let p := groupPart s j rs parts
    let gs := groupResults j.t.salt d (shared s j p)
    let all := (j.g.tplPlaces j.tpl).length ≤ (shared s j p).length
    Fresh s j p → NoSpill s j p → ∃ u, exec (.groupBy k slot ⟨rs, parts⟩) s = .next u ∧
      (¬ all → j.p 1 = 0 → TaskEnded u k slot 0 ∧ u.cstore k = s.cstore k) ∧ (¬ all → j.p 1 = 1 → Waits s u j p) ∧
      (all → j.p 0 < gs.length → TaskEnded u k slot 0x12 ∧ u.cstore k = s.cstore k) ∧
      (all → gs.length ≤ j.p 0 → j.p 1 = 0 → j.derived = none → TaskEnded u k slot 0 ∧ u.cstore k = (s.putOuts j d.outs rs
        (groupRows j (shared s j p))).cstore k) ∧
      (all → gs.length ≤ j.p 0 → j.p 1 = 1 → (∀ q ∈ shared s j p, TaskEnded u q.k q.slot 0) ∧
        (shared s j p = [p] → u.cstore k = (s.putOuts j d.outs rs (broadcastRows s j k rs gs)).cstore k)) := by
  intro d p gs all hfresh hnone
  obtain ⟨hk, hslot⟩ := State.unitJob_seat hjob
  obtain ⟨f, hexec⟩ := exec_groupBy_noSpill rs parts hjob hfresh hnone
  have hcstore : ((s.modQuern j.k f).putPart j p).cstore = s.cstore := State.putPart_cstore _ _ _
  have halike : WritesAlike j.r.stream (j.r.batch.getD 0) s (groupsCounted ((s.modQuern j.k f).putPart j p) j (shared s j p)) :=
    (writesAlike_brought s j p j.k f).trans ⟨rfl, rfl, rfl, rfl⟩
  refine ⟨_, hexec, fun hwait hform => ?_, fun hwait hform => ?_, fun hall hmany => ?_, fun hall hfew hform hderived => ?_,
    fun hall hfew hform => ?_⟩
  · rw [if_pos (Nat.not_le.mp hwait), hform, beq_self_eq_true, if_pos rfl, hk, hslot]
    exact ⟨taskEnded_unitEnd _ _ _ _, hk ▸ congrFun hcstore _⟩
  · rw [if_pos (Nat.not_le.mp hwait), hform]
    exact ⟨shared_modQuern s j p j.k f, congrArg (fun d : Nat → Disp => (d j.k).task j.slot) (State.putPart_disp _ _ _), congrFun hcstore _⟩
  · rw [if_neg (Nat.not_lt.mpr hall), groupsMerged_many _ hmany, ← hk, ← hslot]
    exact ⟨groupsFail_ended _ hfresh.2 rfl rfl, (congrFun (groupsFail_cstore _ _ _) _).trans (congrFun hcstore _)⟩
  · rw [if_neg (Nat.not_lt.mpr hall), groupsMerged_rows _ hfew hform hderived, ← hk, ← hslot, State.unitEnd_cstore, State.spillEnds_cstore]
    exact ⟨taskEnded_unitEnd _ _ _ _, halike.putOuts _ _ _ _⟩
  · rw [if_neg (Nat.not_lt.mpr hall), groupsMerged_broadcast _ hfew hform]
    refine ⟨fun q hq => taskEnded_of_disp (State.spillEnds_disp _ _) (taskEnded_broadcast _ j d gs hq), fun hsingle => ?_⟩
    rw [State.spillEnds_cstore, hsingle, broadcast_groupPart, State.unitEnd_cstore, ← hsingle, ← hk]
    exact halike.putOuts _ _ _ _

end settle

/-! ### The settlement -/

/-- Settles O46: the group-by that spills or not, the two sketches, the two selections; then groups, ranks, identities and eligibility as
functions of their rows. -/
theorem groupsSketchesAndSelectionsRun : Obligations.GroupsSketchesAndSelectionsRun := by
  unfold Obligations.GroupsSketchesAndSelectionsRun
  refine ⟨fun s k slot rs parts j => ⟨fun hjob => ⟨?_, ?_⟩, rankSketch_settles,
    approxDistinct_settles, compact_settles, fun e hjob => ⟨?_, ?_, ?_⟩⟩,
    fun parts rows => ⟨fun r => exists_group_of_mem parts, fun g hg r => groupsOf_sound parts hg⟩, fun n ty large => topk_taken n large ty, dedup_idents,
    fun ty th xs e => exists_input_of_eligible⟩
  · exact groupBy_fails rs parts hjob
  · exact groupBy_settles rs parts hjob
  · exact topk_batch_settles rs parts hjob
  · exact topk_row_settles rs parts hjob
  · exact fun hscope => ⟨exec_topk_table_waits rs parts hjob hscope, topk_table_settles rs parts hjob hscope⟩

end Sys2Proof.Shares
end

section

/-! Proofs about chapters 07 and 11: the layer on memory. Where no word of HBM is poisoned, reads and writes of memory change the memories and what is
sent on the bus, and nothing of the work (R366, R367). -/
namespace Sys2Proof.Machine

/-! ### Memory without poisoned words (R366) -/

/-- No word of HBM is marked as poisoned. -/
def NoPoison (s : State) : Prop := ∀ w ∈ s.mem.ecc, w.2 ≠ .poisoned

theorem noPoison_of_clean {s : State} (h : Clean s) : NoPoison s := by
  intro w hw hbad
  refine Bool.false_ne_true ((h (8 * w.1) 1).symm.trans (List.any_eq_true.mpr ⟨w, hw, ?_⟩))
  simp only [hbad, wordMeets, beq_self_eq_true, Bool.true_and, Bool.and_eq_true, decide_eq_true_eq]
  omega

theorem NoPoison.poisonedIn {s : State} (h : NoPoison s) (ps : List (Space × Nat × Nat)) : s.poisonedIn ps = false := by
  have hat : ∀ a n, s.poisonAt a n = false := fun a n => by
    refine List.any_eq_false.mpr fun w hw => ?_
    simp [h w hw]
  simp [State.poisonedIn, hat]

/-- `t` follows from `s` by reads and writes of memory, and no word of HBM is poisoned. -/
structure MemStep (s t : State) : Prop where
  work : t.work = s.work
  present : t.present = s.present
  noPoison : NoPoison t

namespace MemStep

variable {s t u : State}

theorem refl (h : NoPoison s) : MemStep s s := ⟨rfl, rfl, h⟩

theorem trans (h : MemStep s t) (h' : MemStep t u) : MemStep s u := ⟨h'.work.trans h.work, h'.present.trans h.present, h'.noPoison⟩

theorem foldl {β : Type} {f : State → β → State} (hf : ∀ t x, NoPoison t → MemStep t (f t x)) (l : List β) (h : NoPoison s) : MemStep s (l.foldl f s) :=
  List.foldlRecOn (motive := MemStep s) l f (refl h) fun t ht x _ => ht.trans (hf t x ht.noPoison)

theorem writesAlike (h : MemStep s t) (n b : Nat) : WritesAlike n b s t :=
  ⟨congrArg Work.stores h.work, congrArg Work.graph h.work, h.present, by rw [State.stream, State.stream, h.work]⟩

end MemStep

/-! ### Reads and writes of HBM (R366, R368) -/

section hbm

variable {s : State}

theorem NoPoison.eccWords (h : NoPoison s) (p : Nat → Bool) : MemStep s (s.eccWords p).2 ∧ (s.eccWords p).2.mem.hbm = s.mem.hbm := by
  refine List.foldlRecOn (motive := fun r : Bool × State => MemStep s r.2 ∧ r.2.mem.hbm = s.mem.hbm) _ _ ⟨.refl h, rfl⟩ fun r hr w hw => ?_
  obtain ⟨hstep, hhbm⟩ := hr
  have hgood : w.2 ≠ .poisoned := h w (List.mem_of_mem_filter hw)
  dsimp only
  split
  · refine ⟨⟨hstep.work, hstep.present, fun x hx => hstep.noPoison x ?_⟩, hhbm⟩
    exact List.mem_of_mem_filter hx
  · contradiction
  · exact ⟨hstep, hhbm⟩

theorem NoPoison.countHbm (h : NoPoison s) (wr : Bool) (a n : Nat) : MemStep s (s.countHbm wr a n) ∧ (s.countHbm wr a n).mem.hbm = s.mem.hbm :=
  List.foldlRecOn (motive := fun t : State => MemStep s t ∧ t.mem.hbm = s.mem.hbm) _ _ ⟨.refl h, rfl⟩ fun _ ht _ _ =>
    ⟨⟨ht.1.work, ht.1.present, ht.1.noPoison⟩, ht.2⟩

theorem NoPoison.readEffect (h : NoPoison s) (sp : Space) (a n : Nat) : MemStep s (s.readEffect sp a n) := by
  cases sp with
  | bus => exact .refl h
  | hbm =>
    rw [State.readEffect]
    split
    · exact (h.eccWords _).1.trans ((h.eccWords _).1.noPoison.countHbm _ _ _).1
    · exact .refl h

theorem NoPoison.readPieces (h : NoPoison s) (ps : List (Space × Nat × Nat)) : MemStep s (s.readPieces ps) :=
  .foldl (fun _ p ht => ht.readEffect p.1 p.2.1 p.2.2) ps h

theorem NoPoison.hbmWrite (h : NoPoison s) (a : Nat) (bs : Bytes) :
    MemStep s (s.hbmWrite a bs) ∧ (s.hbmWrite a bs).mem.hbm = writeBytes s.mem.hbm a bs := by
  obtain ⟨hread, hhbm⟩ := h.eccWords fun w => wordMeets a bs.length w && !(decide (a ≤ 8 * w) && decide (8 * w + 8 ≤ a + bs.length))
  have hput : MemStep s ((s.eccWords fun w => wordMeets a bs.length w && !(decide (a ≤ 8 * w) && decide (8 * w + 8 ≤ a + bs.length))).2.modMem
      fun m => m.writeHbm a bs) :=
    ⟨hread.work, hread.present, fun w hw => hread.noPoison w (List.mem_of_mem_filter hw)⟩
  obtain ⟨hcount, hsame⟩ := hput.noPoison.countHbm true a bs.length
  exact ⟨hput.trans hcount, hsame.trans (congrArg (writeBytes · a bs) hhbm)⟩

theorem NoPoison.writeSpace (h : NoPoison s) (sp : Space) (a : Nat) (bs : Bytes) : MemStep s (s.writeSpace sp a bs) := by
  cases sp with
  | bus =>
    rw [State.writeSpace, State.busWrite]
    split
    · exact ⟨rfl, rfl, h⟩
    · exact .refl h
  | hbm => exact (h.hbmWrite a bs).1

theorem NoPoison.extWrite (h : NoPoison s) (exts : List Extent) (off : Nat) (bs : Bytes) : MemStep s (s.extWrite exts off bs) :=
  List.foldlRecOn (motive := fun r : State × Bytes => MemStep s r.1) _ _ (.refl h) fun _ hr _ _ => hr.trans (hr.noPoison.writeSpace _ _ _)

/-- A write that fits the one extent of a table, in HBM. -/
theorem NoPoison.extWrite_one (h : NoPoison s) {a n off : Nat} {bs : Bytes} (hoff : off < n) (hfit : off + bs.length ≤ n) :
    (s.extWrite [{ addr := a, len := n, space := .hbm }] off bs).mem.hbm = writeBytes s.mem.hbm (a + off) bs := by
  cases bs with
  | nil => rfl
  | cons x xs =>
    have hpieces : extPieces [{ addr := a, len := n, space := .hbm }] off (x :: xs).length = [(.hbm, a + off, (x :: xs).length)] := by
      simp only [extPieces]
      rw [if_neg (by simp), if_neg (by omega), Nat.min_eq_left (by omega)]
    rw [State.extWrite, hpieces]
    simpa only [List.foldl_cons, List.foldl_nil, List.take_length, State.writeSpace] using (h.hbmWrite _ _).2

end hbm

theorem readBytes_writeBytes (bs : Bytes) : ∀ (m : Tab Byte) (a : Nat), readBytes (writeBytes m a bs) a bs.length = bs := by
  induction bs with
  | nil => exact fun _ _ => rfl
  | cons x xs ih =>
    intro m a
    rw [writeBytes, List.length_cons, readBytes, ih, readByte_writeBytes_outside _ _ _ _ (.inl (Nat.lt_succ_self a)), readByte_writeByte_same]

@[simp] theorem length_readBytes (m : Tab Byte) (a n : Nat) : (readBytes m a n).length = n := by
  induction n generalizing a with
  | zero => rfl
  | succ n ih => rw [readBytes, List.length_cons, ih]

/-! ### Free values are drawn by no access of memory (log entry 20) -/

section free

variable (s : State)

@[simp] theorem State.eccWords_free (p : Nat → Bool) : (s.eccWords p).2.free = s.free := by
  refine List.foldlRecOn (motive := fun r : Bool × State => r.2.free = s.free) _ _ rfl fun r hr w _ => ?_
  dsimp only
  split
  · exact hr
  · exact (State.detectError_free _ _ _ _ _ _).trans hr
  · exact hr

@[simp] theorem State.countHbm_free (wr : Bool) (a n : Nat) : (s.countHbm wr a n).free = s.free :=
  List.foldlRecOn (motive := fun t : State => t.free = s.free) _ _ rfl fun _ ht _ _ => ht

@[simp] theorem State.readEffect_free (sp : Space) (a n : Nat) : (s.readEffect sp a n).free = s.free := by
  cases sp with
  | bus => rfl
  | hbm =>
    rw [State.readEffect]
    split
    · rw [State.countHbm_free, State.eccRead, State.eccWords_free]
    · rfl

@[simp] theorem State.readPieces_free (ps : List (Space × Nat × Nat)) : (s.readPieces ps).free = s.free :=
  List.foldlRecOn (motive := fun t : State => t.free = s.free) _ _ rfl fun t ht _ _ => (t.readEffect_free _ _ _).trans ht

@[simp] theorem State.writeSpace_free (sp : Space) (a : Nat) (bs : Bytes) : (s.writeSpace sp a bs).free = s.free := by
  cases sp with
  | bus =>
    rw [State.writeSpace, State.busWrite]
    split <;> rfl
  | hbm =>
    rw [State.writeSpace, State.hbmWrite, State.countHbm_free]
    exact s.eccWords_free _

@[simp] theorem State.extWrite_free (exts : List Extent) (off : Nat) (bs : Bytes) : (s.extWrite exts off bs).free = s.free :=
  List.foldlRecOn (motive := fun r : State × Bytes => r.1.free = s.free) _ _ rfl fun r hr _ _ => (r.1.writeSpace_free _ _ _).trans hr

end free

/-! ### Writing elements of a table (R125, R223) -/

section cells

variable {s : State} (e : BusEnv) (exts : List Extent)

theorem NoPoison.extPutBits (h : NoPoison s) (base o n v : Nat) : MemStep s (s.extPutBits e exts base o n v) := by
  rw [State.extPutBits]
  split
  · exact .refl h
  · exact h.extWrite _ _ _

theorem NoPoison.putFixedCell (h : NoPoison s) (c : TCol) (r : Nat) (x : Cell) : MemStep s (s.putFixedCell e exts c r x) := by
  rw [State.putFixedCell]
  split
  · exact (h.extPutBits _ _ _ _ _ _).trans ((h.extPutBits _ _ _ _ _ _).noPoison.extPutBits _ _ _ _ _ _)
  · exact h.extPutBits _ _ _ _ _ _

theorem NoPoison.putMxCell (h : NoPoison s) (rows : Nat) (c : TCol) (r : Nat) (x : Cell) : MemStep s (s.putMxCell e exts rows c r x) := by
  have hfixed : ∀ y, MemStep s (s.putFixedCell e exts c r y) := h.putFixedCell e exts c r
  rw [State.putMxCell]
  split_ifs
  · exact hfixed _
  · exact (hfixed _).trans ((hfixed _).noPoison.extWrite _ _ _)
  · split
    · exact hfixed _
    · have hdrawn : MemStep s { s with free := s.free + 1 } := ⟨rfl, rfl, h⟩
      exact hdrawn.trans (hdrawn.noPoison.putFixedCell _ _ _ _ _)

theorem NoPoison.putVarCell (h : NoPoison s) (rows : Nat) (c : TCol) (r : Nat) (x : Cell) : MemStep s (s.putVarCell e exts rows c r x) := by
  have hput : ∀ t, NoPoison t → ∀ o o' bs bs', MemStep t ((t.extWrite exts o bs).extWrite exts o' bs') := fun t ht o o' bs bs' =>
    (ht.extWrite exts o bs).trans ((ht.extWrite exts o bs).noPoison.extWrite exts o' bs')
  rw [State.putVarCell]
  split
  · exact .refl h
  · dsimp only
    split_ifs
    · exact hput _ h _ _ _ _
    · have hdrawn : MemStep s { s with free := s.free + 1 } := ⟨rfl, rfl, h⟩
      exact hdrawn.trans (hput _ hdrawn.noPoison _ _ _ _)
    · exact .refl h

theorem NoPoison.putTableCell (h : NoPoison s) (rows : Nat) (c : TCol) (r : Nat) (x : Cell) : MemStep s (s.putTableCell e exts rows c r x) := by
  rw [State.putTableCell]
  split_ifs
  · exact h.putVarCell _ _ _ _ _ _
  · exact h.putMxCell _ _ _ _ _ _
  · exact h.putFixedCell _ _ _ _ _

end cells

end Sys2Proof.Machine
end

section

/-! Proofs about chapter 07 (gather and select): GATHER (R215 to R222). First what writing rows and making rows void leaves of the units' registers and
of a batch's void rows. -/
namespace Sys2Proof.Machine

/-! ### The units' registers and a batch's void rows -/

/-- The registers of the units, and the void rows of batch `b` of stream `n`. -/
def State.tally (s : State) (n b : Nat) : Tab Units × Option (Tab Nat) := (s.work.units, ((s.stream n).batch b).map Batch.voids)

theorem State.units_congr {s t : State} (h : t.work.units = s.work.units) : t.units = s.units := by
  funext k
  rw [State.units, State.units, h]

theorem State.voidOf_eq_tally (s : State) (n b row : Nat) : s.voidOf n (some b) row = ((s.tally n b).2.map fun v => tget 0 v row).getD 0 := by
  rw [State.tally, Option.map_map]
  rfl

theorem MemStep.tally {s t : State} (h : MemStep s t) (n b : Nat) : t.tally n b = s.tally n b := by
  rw [State.tally, State.tally, State.stream, State.stream, h.work]

theorem State.units_modUnits (s : State) (k : Nat) (f : Units → Units) : (s.modUnits k f).units k = f (s.units k) := tget_tmod_same _ _ _ _

section tally

variable (s : State) (n b : Nat)

theorem State.tally_foldl {β : Type} {f : State → β → State} (hf : ∀ t x, (f t x).tally n b = t.tally n b) (l : List β) :
    (l.foldl f s).tally n b = s.tally n b :=
  List.foldlRecOn (motive := fun t : State => t.tally n b = s.tally n b) _ _ rfl fun t ht x _ => (hf t x).trans ht

theorem State.tally_mark (k slot : Nat) (ms : List Mark) : (s.mark n (some b) k slot ms).tally n b = s.tally n b := by
  refine Prod.ext (State.mark_keeps (fun t => t.work.units) (fun _ _ _ _ => rfl) _ _ _ _ _ _) ?_
  have hfills := congrArg (Option.map Prod.snd) (WritesAlike.of_mark (n := n) (b := b) s k slot ms).fills
  rwa [Option.map_map, Option.map_map] at hfills

theorem State.tally_voidRow (row : Nat) (c : ColAt) : (s.voidRow n b row c).tally n b = s.tally n b := by
  unfold State.voidRow
  refine ite_keeps (·.tally n b) rfl ?_
  dsimp only
  split <;> refine (State.tally_mark _ _ _ _ _ _).trans ?_
  · exact State.putRowsIn_keeps (·.tally n b) (fun _ _ => rfl) _ _ _ _ _
  · exact State.putRawRow_keeps (·.tally n b) (fun _ _ => rfl) _ _ _ _ _ _
  · exact State.putElems_keeps (·.tally n b) (fun _ _ => rfl) _ _ _ _

theorem State.tally_modBatch {f : Batch → Batch} (hf : ∀ x, (f x).num = x.num) (g : Tab Nat → Tab Nat) (hg : ∀ x, (f x).voids = g x.voids) :
    (s.modBatch n b f).tally n b = ((s.tally n b).1, (s.tally n b).2.map g) := by
  refine Prod.ext rfl ?_
  rw [State.tally, Stream.batch_modBatch s n b _ hf, State.tally, Option.map_map, Option.map_map]
  exact congrArg (Option.map · _) (funext hg)

theorem State.tally_noteCols (cs : List ColAt) : (s.noteCols n b cs).tally n b = s.tally n b := by
  refine ite_keeps (·.tally n b) rfl ((State.tally_foldl _ n b (fun t c => t.tally_foldl n b (fun t r => t.tally_voidRow n b r c) _) _).trans ?_)
  refine (State.tally_modBatch s n b ?_ id ?_).trans (by rw [Option.map_id_fun, id]) <;> exact fun _ => rfl

theorem State.tally_markVoid {row : Nat} (hrow : s.voidOf n (some b) row = 0) (reason : Nat) :
    (s.markVoid n b row reason).tally n b = ((s.tally n b).1, (s.tally n b).2.map (tset 0 row reason)) := by
  rw [State.markVoid, if_neg (by simp [hrow])]
  exact (State.tally_foldl _ n b (fun t c => t.tally_voidRow n b row c) _).trans
    (State.tally_modBatch s n b (by exact fun _ => rfl) _ (by exact fun _ => rfl))

end tally

/-- From `s` to `t` the units' registers stay, and so does what is void of batch `b` of stream `n`. -/
structure StaysVoid (n b : Nat) (s t : State) : Prop where
  units : t.units = s.units
  isSome : (t.tally n b).2.isSome = (s.tally n b).2.isSome
  void : ∀ row, s.voidOf n (some b) row ≠ 0 → t.voidOf n (some b) row ≠ 0

namespace StaysVoid

variable {n b : Nat} {s t u : State}

theorem of_tally (h : t.tally n b = s.tally n b) : StaysVoid n b s t :=
  ⟨State.units_congr (congrArg Prod.fst h), by rw [h], fun row hrow => by rwa [State.voidOf_eq_tally, h, ← State.voidOf_eq_tally]⟩

theorem trans (h : StaysVoid n b s t) (h' : StaysVoid n b t u) : StaysVoid n b s u :=
  ⟨h'.units.trans h.units, h'.isSome.trans h.isSome, fun row hrow => h'.void row (h.void row hrow)⟩

theorem foldl {β : Type} {f : State → β → State} (hf : ∀ t x, StaysVoid n b t (f t x)) (l : List β) (s : State) : StaysVoid n b s (l.foldl f s) :=
  List.foldlRecOn (motive := StaysVoid n b s) l f (of_tally rfl) fun t ht x _ => ht.trans (hf t x)

theorem markVoid (s : State) (n b row reason : Nat) : StaysVoid n b s (s.markVoid n b row reason) := by
  by_cases hrow : s.voidOf n (some b) row = 0
  · have htally := s.tally_markVoid n b hrow reason
    refine ⟨State.units_congr (congrArg Prod.fst htally), by simp [htally], fun r hr => ?_⟩
    have hne : r ≠ row := fun h => hr (h ▸ hrow)
    rwa [State.voidOf_eq_tally, htally, Option.map_map, Function.comp_def, funext fun v => tget_tset_ne 0 reason v hne, ← State.voidOf_eq_tally]
  · rw [State.markVoid, if_pos (by simp [hrow])]
    exact of_tally rfl

end StaysVoid

/-- A row of an instantiated batch that is made void is void. -/
theorem State.voidOf_markVoid {s : State} {n b row reason : Nat} (hreason : reason ≠ 0) (hb : (s.tally n b).2.isSome = true) :
    (s.markVoid n b row reason).voidOf n (some b) row ≠ 0 := by
  by_cases hrow : s.voidOf n (some b) row = 0
  · obtain ⟨v, hv⟩ := Option.isSome_iff_exists.mp hb
    rw [State.voidOf_eq_tally, s.tally_markVoid n b hrow, hv]
    simpa using hreason
  · exact (StaysVoid.markVoid s n b row reason).void row hrow

/-! ### Making the rows of a task void (R114, R117) -/

section jobVoid

variable {j : Job2} {β : Type} (row reason : β → Nat)

theorem State.jobVoid_zero (s : State) (j : Job2) (row : Nat) : s.jobVoid j row 0 = s := by
  unfold State.jobVoid
  split <;> rfl

theorem StaysVoid.jobVoid (s : State) (j : Job2) (row reason : Nat) : StaysVoid j.r.stream (j.r.batch.getD 0) s (s.jobVoid j row reason) := by
  unfold State.jobVoid
  split
  · rename_i b hb
    rw [hb, Option.getD_some]
    split
    · exact .of_tally rfl
    · exact .markVoid _ _ _ _ _
  · exact .of_tally rfl

/-- The rows of a batch that a list gives a reason are void once it is worked through. -/
theorem voidOf_foldl_jobVoid (s : State) {b : Nat} (hb : j.r.batch = some b) (hsome : (s.tally j.r.stream b).2.isSome = true) {l : List β} {x : β} (hx : x ∈ l)
    (hreason : reason x ≠ 0) : (l.foldl (fun t x => t.jobVoid j (row x) (reason x)) s).voidOf j.r.stream (some b) (row x) ≠ 0 := by
  obtain ⟨before, after, rfl⟩ := List.append_of_mem hx
  have hstay : ∀ (l : List β) (t : State), StaysVoid j.r.stream b t (l.foldl (fun t x => t.jobVoid j (row x) (reason x)) t) := fun l t =>
    StaysVoid.foldl (fun t x => by simpa only [hb, Option.getD_some] using StaysVoid.jobVoid t j (row x) (reason x)) l t
  rw [List.foldl_append, List.foldl_cons]
  refine (hstay after _).void _ ?_
  have hmark : ∀ t : State, t.jobVoid j (row x) (reason x) = t.markVoid j.r.stream b (row x) (reason x) := fun t => by
    simp only [State.jobVoid, hb, beq_eq_false_iff_ne.mpr hreason, Bool.false_eq_true, if_false]
  rw [hmark]
  exact State.voidOf_markVoid hreason ((hstay before s).isSome.trans hsome)

end jobVoid

/-! ### Writing the rows of a task -/

/-- The units' registers, and the void rows of the batch of a task. -/
def State.jobTally (s : State) (j : Job2) : Tab Units × Option (Tab Nat) := s.tally j.r.stream (j.r.batch.getD 0)

theorem State.jobTally_mark (s : State) (j : Job2) (k slot : Nat) (ms : List Mark) : (s.mark j.r.stream j.r.batch k slot ms).jobTally j = s.jobTally j := by
  cases hb : j.r.batch with
  | none => rfl
  | some b => simpa only [State.jobTally, hb, Option.getD_some] using s.tally_mark j.r.stream b k slot ms

theorem State.jobTally_noteCols (s : State) {j : Job2} {b : Nat} (hb : j.r.batch = some b) (cs : List ColAt) :
    (s.noteCols j.r.stream b cs).jobTally j = s.jobTally j := by
  simpa only [State.jobTally, hb, Option.getD_some] using s.tally_noteCols j.r.stream b cs

theorem State.jobTally_putOuts (s : State) (j : Job2) (cs : List ColW) (rs : Rows) (rows : List (List Cell)) :
    (s.putOuts j cs rs rows).jobTally j = s.jobTally j := by
  have hslots : ((cs.zipIdx).foldl (fun t p => t.putSlot j.k p.1 (rows.map fun r => r.getD p.2 {})) s).jobTally j = s.jobTally j :=
    s.tally_foldl _ _ (fun t _ => State.putSlot_keeps (·.jobTally j) (fun _ _ => rfl) t _ _) _
  unfold State.putOuts State.noteOut
  split
  · exact hslots
  · rename_i b hb
    exact (State.tally_foldl _ _ _ (fun t p => t.jobTally_mark j _ _ _) _).trans ((State.jobTally_noteCols _ hb _).trans hslots)

theorem State.jobTally_setSlotVoids (s : State) (j : Job2) (k : Nat) (cs : List ColW) (vs : Tab Nat) : (s.setSlotVoids k cs vs).jobTally j = s.jobTally j :=
  s.tally_foldl _ _ (by exact fun _ _ => rfl) _

theorem State.putTable_work {s t : State} {a : AreaRec} {cols lay : List TCol} {rows : List (List Cell)} (h : s.putTable a cols rows = some (lay, t)) :
    t.work = s.work := by
  unfold State.putTable at h
  dsimp only at h
  split at h
  · cases h
  · cases h
    exact List.foldlRecOn (motive := fun t : State => t.work = s.work) _ _ rfl fun _ ht _ _ => ht

theorem State.putStage_jobTally (s : State) (j : Job2) (cs : List ColW) (rs : Rows) (rows : List (List Cell × Nat)) :
    (s.putStage j cs rs rows).1.jobTally j = s.jobTally j := by
  unfold State.putStage
  dsimp only
  split
  · unfold State.putDerived
    dsimp only
    split
    · rename_i hput
      have hwork := State.putTable_work hput
      simp only [State.jobTally, State.tally, State.setBuilt, State.stream, State.modWork_work, hwork]
    · rfl
  · exact (State.jobTally_setSlotVoids _ _ _ _ _).trans (State.jobTally_putOuts _ _ _ _ _)

/-- A table stage that writes its rows succeeds, or ends with ST_LIMIT. -/
theorem State.putStage_status (s : State) (j : Job2) (cs : List ColW) (rs : Rows) (rows : List (List Cell × Nat)) :
    (s.putStage j cs rs rows).2 = 0 ∨ (s.putStage j cs rs rows).2 = stLimit := by
  unfold State.putStage
  dsimp only
  split
  · unfold State.putDerived
    dsimp only
    split
    · exact .inl rfl
    · exact .inr rfl
  · exact .inl rfl

end Sys2Proof.Machine
end

section

/-! Proofs about chapter 07 (gather and select): what a GATHER comes to (R215 to R222). -/
namespace Sys2Proof.Machine

/-! ### The parts of a GATHER -/

section defs

variable (s : State) (e : BusEnv) (j : Job2) (rs : Rows)

/-- The source of a GATHER, as it stood when the task began (R222). -/
def gatherView : TabView := (s.atStart j.r).viewTable e j.g j.r.stream (j.p 5)

/-- The index entries of a GATHER. -/
def gatherIns : List (Nat × Nat × IndexIn) := s.indexIns j (j.p 0) ((gatherView s e j).bound (j.p 2) (j.p 1)) (parseCol (j.p 6)) rs

/-- The output columns of a GATHER. -/
def gatherCols : List ColW := (takeCols (j.ps.drop 7)).1

/-- The cells of a row of the source. -/
def gatherCells (r : Nat) : Option (List Cell) := (List.range (gatherCols j).length).mapM fun c => (gatherView s e j).cell c r

/-- What a GATHER makes of an index entry. -/
def gatherMade (x : IndexIn) : List Cell × Option Bytes × Nat :=
  gatherRow (gatherView s e j) (extRead ((s.atStart j.r).peek e) (gatherView s e j).exts) (j.p 2) (j.p 3) (j.p 4) (gatherCols j).length x

/-- The index entries of a GATHER, each with what is made of it. -/
def gatherGot : List (Nat × Nat × IndexIn × List Cell × Option Bytes × Nat) :=
  (gatherIns s e j rs).map fun x => (x.1, x.2.1, x.2.2, gatherMade s e j x.2.2)

/-- The void reason of an output row (R216, R217). -/
def gatherReason (x : Nat × Nat × IndexIn × List Cell × Option Bytes × Nat) : Nat :=
  match x.2.2.1 with
  | .at_ none _ => if j.p 0 == 0 then vrIndex else x.2.2.2.2.2
  | .void_ => j.reason s (x.1, x.2.1)
  | _ => x.2.2.2.2.2

/-- The read units of an index entry of a GATHER (R219, R221). -/
def gatherUnits (x : IndexIn) : List Nat :=
  match x with
  | .at_ (some r) _ => readUnits (extRead ((s.atStart j.r).peek e) (gatherView s e j).exts) (j.p 2) ((gatherView s e j).cols.take (gatherCols j).length) r
  | _ => []

/-- The window counts of a GATHER. -/
def gatherWindow : Window := (gatherIns s e j rs).foldl (fun w x => w.add (if j.p 2 == 1 then j.p 4 else 64) (gatherUnits s e j x.2.2)) {}

/-- The pieces of memory that a GATHER reads. -/
def gatherReads : List (Space × Nat × Nat) :=
  let v := gatherView s e j
  let rows := (gatherIns s e j rs).filterMap fun x => match x.2.2 with | .at_ (some r) _ => some r | _ => none
  ((gatherWindow s e j rs).log.reverse.flatMap fun u => if j.p 2 == 1 then extPieces v.exts (j.p 4 * u) (alignUp 64 (j.p 3)) else extPieces v.exts (64 * u) 64) ++
    (rows.flatMap fun r => readMarks (extRead ((s.atStart j.r).peek e) v.exts) (j.p 2) (v.cols.take (gatherCols j).length) r).eraseDups.flatMap
      fun m => extPieces v.exts m.1 m.2

/-- The state once a GATHER has counted its entries and read its source. -/
def gatherRead : State := (s.countGather j.k (gatherIns s e j rs) false (j.p 0) (gatherWindow s e j rs)).readPieces (gatherReads s e j rs)

/-- The state once a GATHER has made rows void. -/
def gatherMarked : State := (gatherGot s e j rs).foldl (fun t x => t.jobVoid j x.2.1 (gatherReason s j x)) (gatherRead s e j rs)

/-- The state once a GATHER in ROWS form has written its rows. -/
def gatherRaw : State :=
  let got := gatherGot s e j rs
  let out := (gatherCols j).headD (parseCol 0)
  let row := fun x => if gatherReason s j x == 0 then x.2.2.2.2.1 else none
  let t := got.foldl (fun t x => t.putRawRow j.k out (j.p 4) x.1 (row x) (j.p 3)) (gatherMarked s e j rs)
  match j.r.batch with
  | none => t.setSlotVoids j.k [out] (voidTab (got.map (gatherReason s j)))
  | some b => (t.noteCols j.r.stream b [{ k := j.k, first := rs.first, count := rs.count, col := out, form := .rows (j.p 4) (j.p 3) }]).mark
      j.r.stream j.r.batch j.k out.slot (got.map fun x =>
        { at_ := out.off + (if out.nullable then 1024 else 0) + j.p 4 * x.1, len := j.p 3, valid := (row x).isSome, pad := false })

/-- The output rows of a GATHER in COLUMN form, each with its void reason. -/
def gatherRows : List (List Cell × Nat) :=
  (gatherGot s e j rs).map fun x => (if gatherReason s j x == 0 then x.2.2.2.1 else [], gatherReason s j x)

/-- What a GATHER answers: the state with its rows written, and its status. -/
def gatherAnswer : State × Nat :=
  let t := gatherMarked s e j rs
  if j.t.stage && (gatherGot s e j rs).any fun x => x.2.2.2.2.2 == vrSourceError then (t, stBusError)
  else if j.p 2 == 1 then (gatherRaw s e j rs, 0)
  else if j.t.stage then t.putStage j (gatherCols j) rs (gatherRows s e j rs)
  else (t.putOuts j (gatherCols j) rs ((gatherRows s e j rs).map fun r => r.1), 0)

/-- Whether the source of a GATHER can be read (R102, R281). -/
def gatherReady : Bool := if j.p 2 == 0 then s.tableReady j.r.stream (j.p 5) else !s.waitsTable (j.p 5)

end defs

/-! ### What a GATHER answers -/

section answer

variable (s : State) (e : BusEnv) (j : Job2) (rs : Rows)

theorem gatherAnswer_status : (gatherAnswer s e j rs).2 ≠ stHeld ∧ (j.t.stage = false → (gatherAnswer s e j rs).2 = 0) := by
  unfold gatherAnswer
  dsimp only
  split_ifs with herr hraw hstage
  · exact ⟨show stBusError ≠ stHeld by decide, fun hs => by simp [hs] at herr⟩
  · exact ⟨show 0 ≠ stHeld by decide, fun _ => rfl⟩
  · refine ⟨?_, fun hs => absurd hstage (by simp [hs])⟩
    rcases State.putStage_status (gatherMarked s e j rs) j (gatherCols j) rs (gatherRows s e j rs) with h | h <;> rw [h] <;> decide
  · exact ⟨show 0 ≠ stHeld by decide, fun _ => rfl⟩

theorem gatherRaw_jobTally : (gatherRaw s e j rs).jobTally j = (gatherMarked s e j rs).jobTally j := by
  have hrows : ∀ (t : State) (row : _ → Option Bytes),
      ((gatherGot s e j rs).foldl (fun t x => t.putRawRow j.k ((gatherCols j).headD (parseCol 0)) (j.p 4) x.1 (row x) (j.p 3)) t).jobTally j =
        t.jobTally j := fun t row =>
    t.tally_foldl _ _ (fun t _ => State.putRawRow_keeps (·.jobTally j) (fun _ _ => rfl) t _ _ _ _ _) _
  unfold gatherRaw
  dsimp only
  split
  · exact (State.jobTally_setSlotVoids _ _ _ _ _).trans (hrows _ _)
  · rename_i b hb
    exact (State.jobTally_mark _ _ _ _ _).trans ((State.jobTally_noteCols _ hb _).trans (hrows _ _))

/-- Writing the rows changes neither the units' registers nor which rows are void. -/
theorem gatherAnswer_jobTally : (gatherAnswer s e j rs).1.jobTally j = (gatherMarked s e j rs).jobTally j := by
  unfold gatherAnswer
  dsimp only
  split_ifs
  · rfl
  · exact gatherRaw_jobTally s e j rs
  · exact State.putStage_jobTally _ _ _ _ _
  · exact State.jobTally_putOuts _ _ _ _ _

variable {s}

theorem gatherRead_memStep (h : NoPoison s) :
    MemStep (s.countGather j.k (gatherIns s e j rs) false (j.p 0) (gatherWindow s e j rs)) (gatherRead s e j rs) :=
  NoPoison.readPieces (s := s.countGather j.k (gatherIns s e j rs) false (j.p 0) (gatherWindow s e j rs)) h _

/-- A GATHER that makes no row void writes the cells it has read where the state it found would. -/
theorem gatherAnswer_cstore (h : NoPoison s) (hform : j.p 2 = 0) (hstage : j.t.stage = false)
    (hlive : ∀ x ∈ gatherGot s e j rs, gatherReason s j x = 0) (k : Nat) :
    (gatherAnswer s e j rs).1.cstore k = (s.putOuts j (gatherCols j) rs ((gatherGot s e j rs).map fun x => x.2.2.2.1)).cstore k := by
  have hmarked : gatherMarked s e j rs = gatherRead s e j rs :=
    List.foldlRecOn (motive := fun t : State => t = gatherRead s e j rs) _ _ rfl fun t ht x hx => by rw [hlive x hx, State.jobVoid_zero, ht]
  have hrows : ((gatherRows s e j rs).map fun r => r.1) = (gatherGot s e j rs).map fun x => x.2.2.2.1 := by
    rw [gatherRows, List.map_map]
    refine List.map_congr_left fun x hx => ?_
    simp [hlive x hx]
  have hcount : WritesAlike j.r.stream (j.r.batch.getD 0) s (s.countGather j.k (gatherIns s e j rs) false (j.p 0) (gatherWindow s e j rs)) :=
    ⟨rfl, rfl, rfl, rfl⟩
  simp only [gatherAnswer, hstage, hform, hmarked, hrows, Bool.false_and, Bool.false_eq_true, if_false, Nat.reduceBEq]
  exact (hcount.trans ((gatherRead_memStep e j rs h).writesAlike _ _)).putOuts _ _ _ _

end answer

/-! ### When a GATHER runs -/

theorem not_gatherReady (s : State) (j : Job2) :
    (if j.p 2 == 0 then !s.tableReady j.r.stream (j.p 5) else s.waitsTable (j.p 5)) = !gatherReady s j := by
  unfold gatherReady
  split
  · rfl
  · rw [Bool.not_not]

section exec

variable {s : State} {k : Fin 16} {slot : Fin 4096} (rs : Rows) {e : BusEnv} {j : Job2} (hjob : (s.env e).unitJob k.val slot.val 4 1 = some j)

include hjob

theorem exec_gather_waits (hready : gatherReady (s.env e) j = false) : exec (.gather k slot rs e) s = .next (s.env e) := by
  show execGather k slot rs e s = _
  simp only [execGather, State.unitRun, hjob, not_gatherReady, hready, Bool.not_false, if_true]

theorem exec_gather (hready : gatherReady (s.env e) j = true) (hclean : NoPoison (s.env e)) :
    exec (.gather k slot rs e) s = .next ((gatherAnswer (s.env e) e j rs).1.unitEnd k.val slot.val (gatherAnswer (s.env e) e j rs).2) := by
  refine congrArg Host.Outcome.next (State.unitRun_ended hjob ?_ (gatherAnswer_status _ _ _ _).1)
  simp only [not_gatherReady, hready, Bool.not_true, hclean.poisonedIn, Bool.false_eq_true, if_false, gatherAnswer, apply_ite some]
  rfl

end exec

end Sys2Proof.Machine
end

section

/-! Proofs about chapter 07 (gather and select): GATHER as its statement has it (R215 to R222). -/
namespace Sys2Proof.Machine

/-- The cells of the row that an index entry of a GATHER names (R215, R217): none for a null entry and past the table's rows. -/
def gatheredCells (s : State) (e : BusEnv) (j : Job2) (x : IndexIn) : List Cell :=
  match x with
  | .at_ (some r) _ => if r < (gatherView s e j).rows then (gatherCells s e j r).getD [] else []
  | _ => []

/-- An index entry that makes no row void: a null one, or one whose row is past the table's rows, or live and readable. -/
def GathersLive (s : State) (e : BusEnv) (j : Job2) (x : IndexIn) : Prop :=
  x = .null ∨ ∃ r o, x = .at_ (some r) o ∧ (r < (gatherView s e j).rows →
    (gatherView s e j).rowVoid (List.range (gatherCols j).length) r = 0 ∧ (gatherCells s e j r).isSome = true)

section live

variable {s : State} {e : BusEnv} {j : Job2} {x : IndexIn}

theorem gatherMade_of_live (hform : j.p 2 = 0) (h : GathersLive s e j x) :
    (gatherMade s e j x).1 = gatheredCells s e j x ∧ (gatherMade s e j x).2.2 = 0 := by
  rcases h with rfl | ⟨r, o, rfl, hread⟩
  · exact ⟨rfl, rfl⟩
  · by_cases hr : r < (gatherView s e j).rows
    · obtain ⟨hvoid, hcells⟩ := hread hr
      obtain ⟨cs, hcs⟩ := Option.isSome_iff_exists.mp hcells
      have hcells' : ((List.range (gatherCols j).length).mapM fun c => (gatherView s e j).cell c r) = some cs := hcs
      simp [gatherMade, gatherRow, gatheredCells, hform, hr, hvoid, hcs, hcells', Nat.not_le.mpr hr]
    · simp [gatherMade, gatherRow, gatheredCells, hform, hr, Nat.not_lt.mp hr]

theorem gatherReason_of_live (hform : j.p 2 = 0) (h : GathersLive s e j x) (i p : Nat) : gatherReason s j (i, p, x, gatherMade s e j x) = 0 := by
  have hmade := (gatherMade_of_live hform h).2
  rcases h with rfl | ⟨r, o, rfl, -⟩
  · rfl
  · exact hmade

end live

section settle

variable {s : State} {e : BusEnv} {j : Job2} (rs : Rows)

theorem gatherAnswer_nullIndex (h : NoPoison s) : (((gatherAnswer s e j rs).1).units j.k).gth.nullIndex =
    sat32 (s.units j.k).gth.nullIndex ((gatherIns s e j rs).filter fun x => decide (x.2.2 = .null)).length := by
  have hmarked : (gatherMarked s e j rs).units = (gatherRead s e j rs).units := (StaysVoid.foldl (fun t _ => .jobVoid t j _ _) _ _).units
  have hread : (gatherRead s e j rs).units = (s.countGather j.k (gatherIns s e j rs) false (j.p 0) (gatherWindow s e j rs)).units :=
    State.units_congr (congrArg Work.units (gatherRead_memStep e j rs h).work)
  rw [State.units_congr (congrArg Prod.fst (gatherAnswer_jobTally s e j rs)), hmarked, hread, State.countGather, State.modGth, State.units_modUnits]

/-- A row whose index is out of range is void in mode ERROR (R216). -/
theorem gatherAnswer_void (h : NoPoison s) {b : Nat} (hb : j.r.batch = some b) (hmode : j.p 0 = 0) (hsome : ((s.stream j.r.stream).batch b).isSome = true)
    {x : Nat × Nat × IndexIn} {o : Bool} (hx : x ∈ gatherIns s e j rs) (hout : x.2.2 = .at_ none o) :
    ((gatherAnswer s e j rs).1).voidOf j.r.stream (some b) x.2.1 ≠ 0 := by
  have htally : ∀ t : State, t.jobTally j = t.tally j.r.stream b := fun t => by rw [State.jobTally, hb, Option.getD_some]
  have hwrite := gatherAnswer_jobTally s e j rs
  rw [htally, htally] at hwrite
  have hread : ((gatherRead s e j rs).tally j.r.stream b).2.isSome = true := by
    rw [(gatherRead_memStep e j rs h).tally, State.tally, Option.isSome_map]
    exact hsome
  have hgot : (x.1, x.2.1, x.2.2, gatherMade s e j x.2.2) ∈ gatherGot s e j rs := List.mem_map.mpr ⟨x, hx, rfl⟩
  have hreason : gatherReason s j (x.1, x.2.1, x.2.2, gatherMade s e j x.2.2) ≠ 0 := by simp [gatherReason, hout, hmode, vrIndex]
  rw [State.voidOf_eq_tally, hwrite, ← State.voidOf_eq_tally, gatherMarked]
  have hvoid := voidOf_foldl_jobVoid (fun y => y.2.1) (gatherReason s j) (gatherRead s e j rs) hb hread hgot hreason
  exact hvoid

theorem gatherAnswer_cells (h : NoPoison s) (hform : j.p 2 = 0) (hstage : j.t.stage = false) (hlive : ∀ x ∈ gatherIns s e j rs, GathersLive s e j x.2.2)
    (k : Nat) : ((gatherAnswer s e j rs).1).cstore k =
      (s.putOuts j (gatherCols j) rs ((gatherIns s e j rs).map fun x => gatheredCells s e j x.2.2)).cstore k := by
  have hcells : ((gatherGot s e j rs).map fun x => x.2.2.2.1) = (gatherIns s e j rs).map fun x => gatheredCells s e j x.2.2 := by
    rw [gatherGot, List.map_map]
    exact List.map_congr_left fun x hx => (gatherMade_of_live hform (hlive x hx)).1
  rw [← hcells]
  refine gatherAnswer_cstore e j rs h hform hstage (fun y hy => ?_) k
  obtain ⟨x, hx, rfl⟩ := List.mem_map.mp hy
  exact gatherReason_of_live hform (hlive x hx) _ _

end settle

theorem gather_settles (s : State) (k : Fin 16) (slot : Fin 4096) (rs : Rows) (e : BusEnv) (j : Job2) : let s0 := s.env e
    s0.unitJob k.val slot.val 4 1 = some j → let v := (s0.atStart j.r).viewTable e j.g j.r.stream (j.p 5)
    let ins := s0.indexIns j (j.p 0) (v.bound (j.p 2) (j.p 1)) (parseCol (j.p 6)) rs
    let outs := (takeCols (j.ps.drop 7)).1
    let cells := fun r => (List.range outs.length).mapM fun c => v.cell c r
    (j.p 2 = 0 → s0.tableReady j.r.stream (j.p 5) = false → exec (.gather k slot rs e) s = .next s0) ∧
    (j.p 2 ≠ 0 → s0.waitsTable (j.p 5) = true → exec (.gather k slot rs e) s = .next s0) ∧
    (Clean s0 → (j.p 2 = 0 → s0.tableReady j.r.stream (j.p 5) = true) → (j.p 2 ≠ 0 → s0.waitsTable (j.p 5) = false) →
      ∃ u f, exec (.gather k slot rs e) s = .next u ∧ TaskEnded u k slot f ∧ (j.t.stage = false → f = 0) ∧
      (u.units k).gth.nullIndex = sat32 (s0.units k).gth.nullIndex (ins.filter fun x => decide (x.2.2 = .null)).length ∧
      (∀ b x o, j.r.batch = some b → j.p 0 = 0 → ((s0.stream j.r.stream).batch b).isSome = true → x ∈ ins → x.2.2 = .at_ none o →
        u.voidOf j.r.stream (some b) x.2.1 ≠ 0) ∧
      (j.p 2 = 0 → j.t.stage = false → (∀ x ∈ ins, x.2.2 = .null ∨ ∃ r o, x.2.2 = .at_ (some r) o ∧ (r < v.rows → v.rowVoid (List.range outs.length) r = 0 ∧ (cells r).isSome = true)) →
        u.cstore k = (s0.putOuts j outs rs (ins.map fun x => match x.2.2 with
          | .at_ (some r) _ => if r < v.rows then (cells r).getD [] else []
          | _ => [])).cstore k)) := by
  intro s0 hjob v ins outs cells
  obtain ⟨hk, -⟩ := State.unitJob_seat hjob
  refine ⟨fun hform hready => ?_, fun hform hwaits => ?_, fun hclean hready hwaits => ?_⟩
  · exact exec_gather_waits rs hjob (by rw [gatherReady, hform]; exact hready)
  · exact exec_gather_waits rs hjob (by rw [gatherReady, if_neg (by simpa using hform)]; exact congrArg not hwaits)
  · have hgo : gatherReady s0 j = true := by
      rw [gatherReady]
      split
      · rename_i hform
        exact hready (by simpa using hform)
      · rename_i hform
        exact congrArg not (hwaits (by simpa using hform))
    have hpure : NoPoison s0 := noPoison_of_clean hclean
    refine ⟨_, _, exec_gather rs hjob hgo hpure, taskEnded_unitEnd _ _ _ _, (gatherAnswer_status _ _ _ _).2, ?_, ?_, ?_⟩
    · rw [← hk]
      exact gatherAnswer_nullIndex rs hpure
    · exact fun b x o hb hmode hsome hx hout => gatherAnswer_void rs hpure hb hmode hsome hx hout
    · exact fun hform hstage hlive => gatherAnswer_cells rs hpure hform hstage hlive k

end Sys2Proof.Machine
end

section

/-! Proofs about chapter 07 (gather and select): indices, SCATTER and SCATTER_ADD (R215 to R217, R223 to R225). -/
namespace Sys2Proof.Machine

/-! ### Indices (R216) -/

theorem resolveIndex_settles (mode n : Nat) (i : Int) : (0 ≤ i ∧ i < n → resolveIndex mode n i = (some i.toNat, false)) ∧
    (¬ (0 ≤ i ∧ i < n) → (resolveIndex mode n i).2 = true ∧ (mode = 0 ∨ mode = 3 → (resolveIndex mode n i).1 = none) ∧
      (mode = 1 → 0 < n → (resolveIndex 1 n i).1 = some (i % (n : Int)).toNat ∧ (i % (n : Int)).toNat < n) ∧
      (mode = 2 → (resolveIndex 2 n i).1 = some (if i < 0 then 0 else n - 1))) := by
  refine ⟨fun hin => if_pos hin, fun hout => ?_⟩
  have hmode : ∀ m, resolveIndex m n i = match m with
      | 1 => (if n == 0 then none else some (i % (n : Int)).toNat, true)
      | 2 => (some (if i < 0 then 0 else n - 1), true)
      | _ => (none, true) := fun m => if_neg hout
  refine ⟨?_, ?_, fun _ hn => ⟨?_, ?_⟩, fun _ => congrArg Prod.fst (hmode 2)⟩
  · rw [hmode]
    split <;> rfl
  · rintro (rfl | rfl)
    exacts [congrArg Prod.fst (hmode 0), congrArg Prod.fst (hmode 3)]
  · rw [hmode]
    simp [hn.ne']
  · have hpos := Int.emod_nonneg i (b := n) (by omega)
    have hlt := Int.emod_lt_of_pos i (b := n) (by omega)
    omega

/-! ### The sum of one element (R224, R225) -/

theorem canonNan_of_not_nan {ty : Nat} {x : Cell} (hvalid : x.valid = true) (hnan : cellNan ty x = false) {t : LTy} (ht : laneTy ty = some t) :
    canonNan t x.bits = x.bits := by
  obtain ⟨size, kind⟩ := t
  cases kind with
  | flt f =>
    simp only [cellNan, hvalid, ht, Bool.true_and] at hnan
    simp [canonNan, hnan]
  | _ => rfl

theorem scatterSum_settles (ty : Nat) (old new : Cell) : (new.valid = false → scatterSum ty old new = old) ∧
    (new.valid = true → old.valid = false → cellNan ty new = false → scatterSum ty old new = new) := by
  refine ⟨fun h => by simp [scatterSum, h], fun hnew hold hnan => ?_⟩
  have hbits : (((laneTy ty).map fun t => canonNan t new.bits).getD new.bits) = new.bits := by
    cases hty : laneTy ty with
    | none => rfl
    | some t => exact canonNan_of_not_nan hnew hnan hty
  rw [scatterSum, if_neg (by simp [hnew]), if_pos (by simp [hold]), hbits]

/-! ### A scatter's work so far (R223) -/

section scatRec

variable {s t : State} {j : Job2}

theorem State.scatRec_congr (h : t.work = s.work) : t.scatRec j = s.scatRec j := by
  simp only [State.scatRec, State.stream, State.builtOf, h]

theorem State.scatRec_unitEnd (s : State) (k slot fail : Nat) : (s.unitEnd k slot fail).scatRec j = s.scatRec j := rfl

theorem State.scatRec_countGather (s : State) (k : Nat) (ins : List (Nat × Nat × IndexIn)) (scatter : Bool) (mode : Nat) (w : Window) :
    (s.countGather k ins scatter mode w).scatRec j = s.scatRec j := rfl

theorem ofBatch_congr (h : t.work = s.work) (hs : OfBatch s j) : OfBatch t j := fun b hb => by
  rw [State.stream, h]
  exact hs b hb

theorem State.scatRec_setScat (h : OfBatch s j) (r : Tab Nat) : (s.setScat j r).scatRec j = some r := by
  unfold State.scatRec State.setScat
  cases hb : j.r.batch with
  | none => simp [State.setBuilt, State.builtOf]
  | some b =>
    obtain ⟨x, hx⟩ := Option.isSome_iff_exists.mp (h b hb)
    dsimp only
    rw [Stream.batch_modBatch s _ b _ (by exact fun _ => rfl), hx]
    simp

theorem NoPoison.setScat (h : NoPoison s) (r : Tab Nat) : NoPoison (s.setScat j r) := by
  unfold State.setScat
  split <;> exact h

theorem State.setScat_mem (s : State) (j : Job2) (r : Tab Nat) : (s.setScat j r).mem = s.mem := by
  unfold State.setScat
  split <;> rfl

theorem State.setScat_free (s : State) (j : Job2) (r : Tab Nat) : (s.setScat j r).free = s.free := by
  unfold State.setScat
  split <;> rfl

end scatRec

/-! ### SCATTER (R223) -/

section defs

variable (s : State) (e : BusEnv) (j : Job2) (rs : Rows)

/-- The source columns of a SCATTER. -/
def scatterCols : List ColW := (takeCols (j.ps.drop 7)).1

/-- The destination table of a SCATTER. -/
def scatterView : TabView := s.viewTable e j.g j.r.stream (j.p 5)

/-- The index entries of a SCATTER. -/
def scatterIns : List (Nat × Nat × IndexIn) := s.indexIns j (j.p 0) ((scatterView s e j).bound (j.p 2) (j.p 1)) (parseCol (j.p 6)) rs

/-- State `t` with the destination row of an entry written. -/
def scatterWrite (t : State) (x : Nat × Nat × Nat) : State :=
  if j.p 2 == 1 then t.extWrite (scatterView s e j).exts (j.p 4 * x.2.2) (s.rawRow j.k ((scatterCols j).headD (parseCol 0)) (j.p 4) x.1 (j.p 3))
  else ((scatterCols j).zipIdx).foldl (fun t c => match (scatterView s e j).cols[c.2]? with
    | some tc => t.putTableCell e (scatterView s e j).exts (scatterView s e j).rows tc x.2.2 (s.slotCell j.k c.1 x.1)
    | none => t) t

end defs

/-- One entry of a SCATTER: it is written where no later position has reached its destination yet (R223). -/
def scatterStep (write : State → Nat × Nat × Nat → State) (a : State × Tab Nat) (x : Nat × Nat × Nat) : State × Tab Nat :=
  if x.2.1 + 1 ≤ tget 0 a.2 x.2.2 then a else (write a.1 x, tset 0 x.2.2 (x.2.1 + 1) a.2)

section step

variable {write : State → Nat × Nat × Nat → State} (a : State × Tab Nat)

theorem le_tget_scatterStep (x : Nat × Nat × Nat) (d : Nat) : tget 0 a.2 d ≤ tget 0 (scatterStep write a x).2 d := by
  unfold scatterStep
  split
  · exact le_rfl
  · rename_i h
    by_cases hd : d = x.2.2
    · subst hd
      rw [tget_tset_same]
      omega
    · rw [tget_tset_ne _ _ _ hd]

theorem le_tget_scatterStep_dest (x : Nat × Nat × Nat) : x.2.1 + 1 ≤ tget 0 (scatterStep write a x).2 x.2.2 := by
  unfold scatterStep
  split
  · assumption
  · rw [tget_tset_same]

theorem le_tget_foldl_scatterStep (l : List (Nat × Nat × Nat)) (d : Nat) : tget 0 a.2 d ≤ tget 0 (l.foldl (scatterStep write) a).2 d :=
  List.foldlRecOn (motive := fun r : State × Tab Nat => tget 0 a.2 d ≤ tget 0 r.2 d) _ _ le_rfl fun r hr x _ => hr.trans (le_tget_scatterStep r x d)

/-- The position kept for a destination is at least that of every entry which names it. -/
theorem position_le_of_mem {l : List (Nat × Nat × Nat)} {x : Nat × Nat × Nat} (hx : x ∈ l) :
    x.2.1 + 1 ≤ tget 0 (l.foldl (scatterStep write) a).2 x.2.2 := by
  obtain ⟨before, after, rfl⟩ := List.append_of_mem hx
  rw [List.foldl_append, List.foldl_cons]
  exact (le_tget_scatterStep_dest _ x).trans (le_tget_foldl_scatterStep _ after _)

theorem memStep_foldl_scatterStep (hwrite : ∀ t x, NoPoison t → MemStep t (write t x)) (ha : NoPoison a.1) (l : List (Nat × Nat × Nat)) :
    MemStep a.1 (l.foldl (scatterStep write) a).1 := by
  refine List.foldlRecOn (motive := fun r : State × Tab Nat => MemStep a.1 r.1) _ _ (.refl ha) fun r hr x _ => ?_
  unfold scatterStep
  split
  · exact hr
  · exact hr.trans (hwrite r.1 x hr.noPoison)

end step

section scatter

variable (s : State) (e : BusEnv) (j : Job2) (rs : Rows)

theorem scatterWrite_memStep {t : State} (ht : NoPoison t) (x : Nat × Nat × Nat) : MemStep t (scatterWrite s e j t x) := by
  unfold scatterWrite
  split
  · exact ht.extWrite _ _ _
  · refine .foldl (fun t c ht => ?_) _ ht
    split
    · exact ht.putTableCell _ _ _ _ _ _
    · exact .refl ht

/-- The pieces of memory that a SCATTER reads before it writes. -/
def scatterReads : List (Space × Nat × Nat) :=
  if j.p 2 == 1 then [] else (applying (scatterIns s e j rs)).flatMap fun x =>
    ((scatterView s e j).cols.take (scatterCols j).length).flatMap fun c => (scatterView s e j).writeReads c x.2.2

/-- The state once a SCATTER has counted its entries and read what it needs. -/
def scatterRead : State := (s.countGather j.k (scatterIns s e j rs) true (j.p 0) {}).readPieces (scatterReads s e j rs)

/-- What a SCATTER comes to: the state with its rows written, and the latest position for each destination. -/
def scatterDone : State × Tab Nat :=
  (applying (scatterIns s e j rs)).foldl (scatterStep (scatterWrite s e j)) (scatterRead s e j rs, (s.scatRec j).getD [])

variable {s}

theorem scatterRead_memStep (h : NoPoison s) : MemStep (s.countGather j.k (scatterIns s e j rs) true (j.p 0) {}) (scatterRead s e j rs) :=
  NoPoison.readPieces (s := s.countGather j.k (scatterIns s e j rs) true (j.p 0) {}) h _

theorem scatterDone_memStep (h : NoPoison s) : MemStep (s.countGather j.k (scatterIns s e j rs) true (j.p 0) {}) (scatterDone s e j rs).1 :=
  (scatterRead_memStep e j rs h).trans (memStep_foldl_scatterStep (scatterRead s e j rs, (s.scatRec j).getD [])
    (fun _ x ht => scatterWrite_memStep s e j ht x) (scatterRead_memStep e j rs h).noPoison _)

end scatter

section exec

variable {s : State} {k : Fin 16} {slot : Fin 4096} (rs : Rows) {e : BusEnv} {j : Job2} (hjob : (s.env e).unitJob k.val slot.val 4 2 = some j)

include hjob

theorem exec_scatter_waits (hwait : (s.env e).waitsTable (j.p 5) = true) : exec (.scatter k slot rs e) s = .next (s.env e) := by
  show execScatter k slot rs e s = _
  simp only [execScatter, State.unitRun, hjob, hwait, if_true]

theorem exec_scatter (hwait : (s.env e).waitsTable (j.p 5) = false) (hclean : NoPoison (s.env e)) : exec (.scatter k slot rs e) s =
    .next (((scatterDone (s.env e) e j rs).1.setScat j (scatterDone (s.env e) e j rs).2).unitEnd k.val slot.val 0) := by
  refine congrArg Host.Outcome.next (State.unitRun_ended hjob (r := (_, 0)) ?_ (show 0 ≠ stHeld by decide))
  simp only [hwait, hclean.poisonedIn, Bool.false_eq_true, if_false]
  rfl

end exec

theorem length_rawRow {s : State} {k : Nat} {c : ColW} (h : (s.slotRec k c.slot).isSome = true) (pitch i size : Nat) :
    (s.rawRow k c pitch i size).length = size := by
  obtain ⟨r, hr⟩ := Option.isSome_iff_exists.mp h
  simp [State.rawRow, hr]

/-- A SCATTER of one entry into a table of one extent in HBM writes that row of the source and nothing else. -/
theorem scatterDone_one {s : State} {e : BusEnv} {j : Job2} {rs : Rows} (h : NoPoison s) {x : Nat × Nat × Nat} {a n : Nat}
    (hone : applying (scatterIns s e j rs) = [x]) (hexts : (scatterView s e j).exts = [{ addr := a, len := n, space := .hbm }]) (hform : j.p 2 = 1)
    (hfirst : s.scatRec j = none) (hfit : j.p 4 * x.2.2 + j.p 3 ≤ n) (hoff : j.p 4 * x.2.2 < n)
    (hslot : (s.slotRec j.k (((scatterCols j).headD (parseCol 0)).slot)).isSome = true) :
    (scatterDone s e j rs).1.mem.hbm =
      writeBytes s.mem.hbm (a + j.p 4 * x.2.2) (s.rawRow j.k ((scatterCols j).headD (parseCol 0)) (j.p 4) x.1 (j.p 3)) := by
  have hread : scatterRead s e j rs = s.countGather j.k (scatterIns s e j rs) true (j.p 0) {} := by
    rw [scatterRead, scatterReads, if_pos (by simp [hform])]
    rfl
  have hdone : (scatterDone s e j rs).1 = scatterWrite s e j (s.countGather j.k (scatterIns s e j rs) true (j.p 0) {}) x := by
    rw [scatterDone, hone, hfirst, hread]
    simp [scatterStep]
  rw [hdone, scatterWrite, if_pos (by simp [hform]), hexts]
  exact NoPoison.extWrite_one (s := s.countGather j.k (scatterIns s e j rs) true (j.p 0) {}) h hoff (by rwa [length_rawRow hslot])

theorem scatter_settles (s : State) (k : Fin 16) (slot : Fin 4096) (rs : Rows) (e : BusEnv) (j : Job2) : let s0 := s.env e
    s0.unitJob k.val slot.val 4 2 = some j → let v := s0.viewTable e j.g j.r.stream (j.p 5)
      let xs := applying (s0.indexIns j (j.p 0) (v.bound (j.p 2) (j.p 1)) (parseCol (j.p 6)) rs)
      (s0.waitsTable (j.p 5) = true → exec (.scatter k slot rs e) s = .next s0) ∧
      (s0.waitsTable (j.p 5) = false → Clean s0 → ∃ u, exec (.scatter k slot rs e) s = .next u ∧ TaskEnded u k slot 0 ∧
        (OfBatch s0 j → ∀ x ∈ xs, x.2.1 + 1 ≤ tget 0 ((u.scatRec j).getD []) x.2.2) ∧
        (∀ x a n, xs = [x] → v.exts = [{ addr := a, len := n, space := .hbm }] → j.p 2 = 1 → s0.scatRec j = none →
          j.p 4 * x.2.2 + j.p 3 ≤ n → j.p 4 * x.2.2 < n → (s0.slotRec k (((takeCols (j.ps.drop 7)).1.headD (parseCol 0)).slot)).isSome = true →
          readBytes u.mem.hbm (a + j.p 4 * x.2.2) (j.p 3) = s0.rawRow k ((takeCols (j.ps.drop 7)).1.headD (parseCol 0)) (j.p 4) x.1 (j.p 3) ∧
          ∀ i, (i < a + j.p 4 * x.2.2 ∨ a + j.p 4 * x.2.2 + j.p 3 ≤ i) → readByte u.mem.hbm i = readByte s0.mem.hbm i)) := by
  intro s0 hjob v xs
  obtain ⟨hk, -⟩ := State.unitJob_seat hjob
  refine ⟨exec_scatter_waits rs hjob, fun hwait hclean => ?_⟩
  have hpure : NoPoison s0 := noPoison_of_clean hclean
  refine ⟨_, exec_scatter rs hjob hwait hpure, taskEnded_unitEnd _ _ _ _, fun hbatch x hx => ?_, fun x a n hone hexts hform hfirst hfit hoff hslot => ?_⟩
  · have hof : OfBatch (scatterDone s0 e j rs).1 j :=
      ofBatch_congr (s := s0.countGather j.k (scatterIns s0 e j rs) true (j.p 0) {}) (scatterDone_memStep e j rs hpure).work hbatch
    have hrec : ((((scatterDone s0 e j rs).1.setScat j (scatterDone s0 e j rs).2).unitEnd k.val slot.val 0).scatRec j) = some (scatterDone s0 e j rs).2 :=
      (State.scatRec_unitEnd _ _ _ _).trans (State.scatRec_setScat hof _)
    rw [hrec, Option.getD_some]
    exact position_le_of_mem _ hx
  · rw [← hk] at hslot ⊢
    have hhbm : (((scatterDone s0 e j rs).1.setScat j (scatterDone s0 e j rs).2).unitEnd j.k slot.val 0).mem.hbm =
        writeBytes s0.mem.hbm (a + j.p 4 * x.2.2) (s0.rawRow j.k ((scatterCols j).headD (parseCol 0)) (j.p 4) x.1 (j.p 3)) :=
      (congrArg Mem.hbm (State.setScat_mem _ _ _)).trans (scatterDone_one hpure hone hexts hform hfirst hfit hoff hslot)
    have hlen := length_rawRow hslot (j.p 4) x.1 (j.p 3)
    rw [hhbm]
    refine ⟨?_, fun i hi => readByte_writeBytes_outside _ _ _ _ (hi.imp_right fun h => (by rwa [scatterCols, hlen]))⟩
    have hback := readBytes_writeBytes (s0.rawRow j.k ((scatterCols j).headD (parseCol 0)) (j.p 4) x.1 (j.p 3)) s0.mem.hbm (a + j.p 4 * x.2.2)
    rwa [scatterCols, hlen] at hback

end Sys2Proof.Machine
end

section

/-! Proofs about chapter 07 (gather and select): SCATTER_ADD (R216, R217, R224, R225). -/
namespace Sys2Proof.Machine

/-! ### The order that a SCATTER_ADD draws (R224; log entries 20 and 24) -/

/-- Drawing the order of a list draws one free value for each element. -/
theorem drawOrder_free {α : Type} (n : Nat) (l : List α) (s : State) (h : l.length = n) : (drawOrder n l s).2.free = s.free + n := by
  induction n generalizing l s with
  | zero => rfl
  | succ n ih =>
    cases l with
    | nil => simp at h
    | cons a as =>
      have hlt : (s.choose (a :: as).length).1 < as.length + 1 := Nat.mod_lt _ (Nat.succ_pos _)
      have hlen : as.length = n := by simpa using h
      have hrest : (if (s.choose (a :: as).length).1 == 0 then as else a :: as.eraseIdx ((s.choose (a :: as).length).1 - 1)).length = n := by
        split
        · exact hlen
        · rename_i hne
          rw [beq_iff_eq] at hne
          rw [List.length_cons, List.length_eraseIdx, if_pos (by omega)]
          omega
      refine (ih _ (s.choose (a :: as).length).2 hrest).trans ?_
      show s.free + 1 + n = _
      omega

theorem drawOrder_memStep {α : Type} (n : Nat) (l : List α) {s : State} (h : NoPoison s) : MemStep s (drawOrder n l s).2 := by
  induction n generalizing l s with
  | zero => exact .refl h
  | succ n ih =>
    cases l with
    | nil => exact .refl h
    | cons a as => exact (show MemStep s (s.choose (a :: as).length).2 from ⟨rfl, rfl, h⟩).trans (ih _ h)

/-! ### What the additions change (R224, R225) -/

section entries

variable {s : State} (e : BusEnv) (j : Job2) (v : TabView) (srcs : List ColW)

theorem NoPoison.scatterEntry (h : NoPoison s) (x : Nat × Nat × Nat) : MemStep s (s.scatterEntry e j v srcs x) := by
  unfold State.scatterEntry
  dsimp only
  split_ifs
  · exact .refl h
  · refine .foldl (fun t i ht => ?_) _ h
    split
    · exact ht.extWrite _ _ _
    · exact .refl ht
  · refine .foldl (fun t c ht => ?_) _ h
    split
    · split
      · exact ht.putTableCell _ _ _ _ _ _
      · exact .refl ht
    · exact .refl ht

theorem NoPoison.scatterZero (h : NoPoison s) : MemStep s (s.scatterZero e j v srcs) := by
  refine .foldl (fun t r ht => ?_) _ h
  split
  · exact ht.extWrite _ _ _
  · refine .foldl (fun t c ht => ?_) _ ht
    split
    · exact ht.putTableCell _ _ _ _ _ _
    · exact .refl ht

theorem State.scatterEntry_free (s : State) (x : Nat × Nat × Nat) (hform : j.p 2 = 1) : (s.scatterEntry e j v srcs x).free = s.free := by
  unfold State.scatterEntry
  rw [if_pos (by simp [hform])]
  dsimp only
  split
  · rfl
  · refine List.foldlRecOn (motive := fun t : State => t.free = s.free) _ _ rfl fun t ht i _ => ?_
    split
    · rw [State.extWrite_free, ht]
    · exact ht

theorem State.scatterZero_free (s : State) (hform : j.p 2 = 1) : (s.scatterZero e j v srcs).free = s.free := by
  refine List.foldlRecOn (motive := fun t : State => t.free = s.free) _ _ rfl fun t ht r _ => ?_
  rw [if_pos (by simp [hform]), State.extWrite_free, ht]

end entries

/-! ### What a SCATTER_ADD comes to -/

section defs

variable (s : State) (e : BusEnv) (j : Job2) (rs : Rows)

/-- The source columns of a SCATTER_ADD. -/
def addCols : List ColW := (takeCols (j.ps.drop 8)).1

/-- The destination table of a SCATTER_ADD. -/
def addView : TabView := s.viewTable e j.g j.r.stream (j.p 6)

/-- The index entries of a SCATTER_ADD. -/
def addIns : List (Nat × Nat × IndexIn) := s.indexIns j (j.p 0) ((addView s e j).bound (j.p 2) (j.p 1)) (parseCol (j.p 7)) rs

/-- The state once the destination of the first task is zero where INIT says so. -/
def addInit : State :=
  (if j.p 5 == 1 && (s.scatRec j).isNone then s.scatterZero e j (addView s e j) (addCols j) else s).setScat j ((s.scatRec j).getD [])

/-- The pieces of memory that a SCATTER_ADD reads. -/
def addReads : List (Space × Nat × Nat) :=
  let rd := extRead (s.peek e) (addView s e j).exts
  let cols := (addView s e j).cols.take (addCols j).length
  (applying (addIns s e j rs)).flatMap fun x => if j.p 2 == 1 then extPieces (addView s e j).exts (j.p 4 * x.2.2) (j.p 3)
    else (readUnits rd 0 cols x.2.2).flatMap (fun u => extPieces (addView s e j).exts (64 * u) 64) ++
      (readMarks rd 0 cols x.2.2).flatMap fun m => extPieces (addView s e j).exts m.1 m.2

/-- The order of the additions, and the state once it is drawn. -/
def addOrder : List (Nat × Nat × Nat) × State :=
  drawOrder (applying (addIns s e j rs)).length (applying (addIns s e j rs))
    (((addInit s e j).countGather j.k (addIns s e j rs) true (j.p 0) {}).readPieces (addReads s e j rs))

/-- The state once a SCATTER_ADD has added its entries. -/
def addDone : State := (addOrder s e j rs).1.foldl (fun t x => t.scatterEntry e j (addView s e j) (addCols j) x) (addOrder s e j rs).2

variable {s}

theorem addInit_noPoison (h : NoPoison s) : NoPoison (addInit s e j) := by
  refine NoPoison.setScat ?_ _
  split
  · exact (h.scatterZero e j _ _).noPoison
  · exact h

theorem addInit_scatRec (h : NoPoison s) (hbatch : OfBatch s j) : (addInit s e j).scatRec j = some ((s.scatRec j).getD []) := by
  refine State.scatRec_setScat ?_ _
  split
  · exact ofBatch_congr (h.scatterZero e j _ _).work hbatch
  · exact hbatch

theorem addInit_free (hform : j.p 2 = 1) : (addInit s e j).free = s.free := by
  rw [addInit, State.setScat_free]
  split
  · exact s.scatterZero_free e j _ _ hform
  · rfl

theorem addDone_memStep (h : NoPoison s) : MemStep ((addInit s e j).countGather j.k (addIns s e j rs) true (j.p 0) {}) (addDone s e j rs) := by
  have hread := NoPoison.readPieces (s := (addInit s e j).countGather j.k (addIns s e j rs) true (j.p 0) {}) (addInit_noPoison e j h) (addReads s e j rs)
  have hdraw : MemStep _ (addOrder s e j rs).2 := drawOrder_memStep _ _ hread.noPoison
  exact (hread.trans hdraw).trans (.foldl (fun _ x ht => ht.scatterEntry e j _ _ x) _ hdraw.noPoison)

theorem addDone_scatRec (h : NoPoison s) (hbatch : OfBatch s j) : (addDone s e j rs).scatRec j = some ((s.scatRec j).getD []) :=
  (State.scatRec_congr (addDone_memStep e j rs h).work).trans ((State.scatRec_countGather _ _ _ _ _ _).trans (addInit_scatRec e j h hbatch))

theorem addDone_free (hform : j.p 2 = 1) : (addDone s e j rs).free = s.free + (applying (addIns s e j rs)).length := by
  have hdraw : (addOrder s e j rs).2.free = s.free + (applying (addIns s e j rs)).length := by
    refine (drawOrder_free _ _ _ rfl).trans (congrArg (· + _) ?_)
    exact (State.readPieces_free _ _).trans (addInit_free e j hform)
  exact List.foldlRecOn (motive := fun t : State => t.free = _) _ _ hdraw fun t ht x _ => (t.scatterEntry_free e j _ _ x hform).trans ht

end defs

theorem State.unitEnd_free (s : State) (k slot fail : Nat) : (s.unitEnd k slot fail).free = s.free := rfl

section exec

variable {s : State} {k : Fin 16} {slot : Fin 4096} (rs : Rows) {e : BusEnv} {j : Job2} (hjob : (s.env e).unitJob k.val slot.val 4 3 = some j)

include hjob

theorem exec_scatterAdd_waits (hwait : (s.env e).waitsTable (j.p 6) = true) : exec (.scatterAdd k slot rs e) s = .next (s.env e) := by
  show execScatterAdd k slot rs e s = _
  simp only [execScatterAdd, State.unitRun, hjob, hwait, if_true]

theorem exec_scatterAdd (hwait : (s.env e).waitsTable (j.p 6) = false) (hclean : NoPoison (s.env e)) :
    exec (.scatterAdd k slot rs e) s = .next ((addDone (s.env e) e j rs).unitEnd k.val slot.val 0) := by
  have hheld : (addInit (s.env e) e j).poisonedIn (addReads (s.env e) e j rs) = false := (addInit_noPoison e j hclean).poisonedIn _
  refine congrArg Host.Outcome.next (State.unitRun_ended hjob (r := (_, 0)) ?_ (show 0 ≠ stHeld by decide))
  rw [hwait, if_neg Bool.false_ne_true]
  exact if_neg (Bool.eq_false_iff.mp hheld)

end exec

theorem scatterAdd_settles (s : State) (k : Fin 16) (slot : Fin 4096) (rs : Rows) (e : BusEnv) (j : Job2) : let s0 := s.env e
    s0.unitJob k.val slot.val 4 3 = some j → (s0.waitsTable (j.p 6) = true → exec (.scatterAdd k slot rs e) s = .next s0) ∧
      (s0.waitsTable (j.p 6) = false → Clean s0 → ∃ u, exec (.scatterAdd k slot rs e) s = .next u ∧ TaskEnded u k slot 0 ∧
        (OfBatch s0 j → u.scatRec j ≠ none) ∧
        (j.p 2 = 1 → u.free = s0.free + (applying (s0.indexIns j (j.p 0) ((s0.viewTable e j.g j.r.stream (j.p 6)).bound (j.p 2) (j.p 1)) (parseCol (j.p 7)) rs)).length)) := by
  intro s0 hjob
  refine ⟨exec_scatterAdd_waits rs hjob, fun hwait hclean => ?_⟩
  have hpure : NoPoison s0 := noPoison_of_clean hclean
  refine ⟨_, exec_scatterAdd rs hjob hwait hpure, taskEnded_unitEnd _ _ _ _, fun hbatch => ?_, fun hform => ?_⟩
  · rw [State.scatRec_unitEnd, addDone_scatRec e j rs hpure hbatch]
    exact Option.some_ne_none _
  · rw [State.unitEnd_free]
    exact addDone_free e j rs hform

end Sys2Proof.Machine
end

section

/-! Proofs about chapter 11 (Millstone inference): the arithmetic of layers (R307, R311) and embedding bags (R314 to R316). -/
namespace Sys2Proof.Machine

/-! ### Group sums (R307) -/

theorem groups32_of_le {α : Type} {l : List α} (hne : l ≠ []) (hle : l.length ≤ 32) (fuel : Nat) (hfuel : l.length / 32 < fuel) : groups32 fuel l = [l] := by
  obtain ⟨n, rfl⟩ := Nat.exists_eq_add_of_lt hfuel
  have hdrop : l.drop 32 = [] := List.drop_eq_nil_of_le hle
  rw [groups32, if_neg (by simpa using hne), List.take_of_length_le hle, hdrop]
  cases hn : l.length / 32 + n <;> rfl

/-- A row of up to 32 products is one group, added once to +0. -/
theorem dot_one_group {a b : List FVal} (hne : a ≠ []) (hle : a.length ≤ 32) (hlen : b.length = a.length) : dot a b = accAdd 0 (groupSum (a.zip b)) := by
  have hzip : (a.zip b).length = a.length := by rw [List.length_zip, hlen, Nat.min_self]
  have hzipne : a.zip b ≠ [] := List.ne_nil_of_length_pos (hzip ▸ List.length_pos_iff.mpr hne)
  rw [dot, groups32_of_le hzipne (hzip ▸ hle) _ (by rw [hzip]; omega)]
  simp

/-! ### The epilogue (R311) -/

theorem relu_sign (v : Nat) : bitOf (if fp32.isNan v then fp32.nanCode else if bitOf v 31 then 0 else v) 31 = false := by
  split_ifs with hnan hneg
  · decide
  · decide
  · exact Bool.eq_false_iff.mpr hneg

theorem epilogue_relu_sign (scale : Nat) (bias : Option Nat) (a : Nat × Nat) : bitOf (epilogue scale true bias none a).1 31 = false := by
  unfold epilogue
  exact relu_sign _

/-! ### Embedding bags (R314 to R316) -/

section bags

variable (l : LayerRec) (rows : Nat) (idx : Cell) (wts : Option Cell) (emb : Nat → Option (List FVal))

theorem bagRow_null (h : idx.valid = false) : (bagRow l rows idx wts emb).out = none ∧ (bagRow l rows idx wts emb).void_ = 0 := by
  simp [bagRow, h]

theorem bagRow_overLimit (h : idx.valid = true) (hlong : l.maxBag < idx.elems.length) : (bagRow l rows idx wts emb).void_ = 2 := by
  simp [bagRow, h, hlong, vrOverLimit]

theorem bagRow_empty (h : idx.valid = true) (hempty : idx.elems = []) (hw : wts = none) :
    (bagRow l rows idx wts emb).out = some (List.replicate l.kk 0) ∧ (bagRow l rows idx wts emb).empty = true := by
  simp [bagRow, h, hempty, hw]

theorem bagRow_mismatch (h : idx.valid = true) (hshort : idx.elems.length ≤ l.maxBag) {w : Cell} (hw : wts = some w) (hvalid : w.valid = true)
    (hlen : w.elems.length ≠ idx.elems.length) : (bagRow l rows idx wts emb).void_ = 1 ∧ (bagRow l rows idx wts emb).mismatch = true := by
  simp [bagRow, h, Nat.not_lt.mpr hshort, hw, hvalid, hlen, vrCorrupt]

end bags

end Sys2Proof.Machine
end

section

/-! Proofs about chapter 11 (Millstone inference): layers run and end (R306 to R318, R320). -/
namespace Sys2Proof.Machine

/-! ### The end of a layer (R309, R320) -/

theorem State.layerJob_graph {s : State} {k slot op : Nat} {g : Graph} {t : Tpl} {r : TaskRec} {l : LayerRec}
    (h : s.layerJob k slot op = some (g, t, r, l)) : s.work.graph = some g := by
  unfold State.layerJob at h
  split at h
  · cases h
  · rename_i hg
    dsimp only at h
    split at h
    · cases h
    · split at h
      · cases h
      · split at h
        · cases h
        · split at h
          · split at h <;> cases h
            exact hg
          · cases h

/-- A layer that ends while no switch and no swap waits for it starts none. -/
theorem State.layerEnded_of_noWait {s : State} {g : Graph} (hg : s.work.graph = some g) (hswap : g.swapWait = false) (hswitch : g.switchWait = false) :
    s.layerEnded = s := by
  unfold State.layerEnded
  split
  · rfl
  · simp [hg, hswap, hswitch]

/-- Millstone's registers once a layer has ended. -/
def Mls.ends (q : Mls) (t : Tpl) (flags macs cycles : Nat) : Mls :=
  { q with arith := Nat.lor q.arith flags, macs := (q.macs + macs) % 2 ^ 64, busyCycles := (q.busyCycles + cycles) % 2 ^ 64
           layer := t.layer, kernel := t.kernel }

section endLayer

variable {s : State} {g : Graph} (hg : s.work.graph = some g) (hswap : g.swapWait = false) (hswitch : g.switchWait = false)
  (k slot : Nat) (t : Tpl) (flags macs cycles : Nat)

include hg hswap hswitch

theorem State.endLayer_work : (s.endLayer k slot t flags macs cycles).work = ((s.modMls k fun q => q.ends t flags macs cycles).unitEnd k slot 0).work := by
  have hended : ((s.modMls k fun q => q.ends t flags macs cycles).unitEnd k slot 0).layerEnded = (s.modMls k fun q => q.ends t flags macs cycles).unitEnd k slot 0 :=
    State.layerEnded_of_noWait hg hswap hswitch
  unfold State.endLayer
  refine (ite_keeps State.work (State.postEvent_work _ _) rfl).trans ?_
  exact congrArg State.work hended

/-- What a layer's end leaves: its task has ended, its kernel and layer are the last ones, its products are counted. -/
theorem State.endLayer_settles : TaskEnded (s.endLayer k slot t flags macs cycles) k slot 0 ∧
    ((s.endLayer k slot t flags macs cycles).units k).mls.layer = t.layer ∧ ((s.endLayer k slot t flags macs cycles).units k).mls.kernel = t.kernel ∧
      ((s.endLayer k slot t flags macs cycles).units k).mls.macs = ((s.units k).mls.macs + macs) % 2 ^ 64 := by
  have hwork := State.endLayer_work hg hswap hswitch k slot t flags macs cycles
  have hdisp : (s.endLayer k slot t flags macs cycles).disp = ((s.modMls k fun q => q.ends t flags macs cycles).unitEnd k slot 0).disp :=
    funext fun i => by rw [State.disp, State.disp, hwork]
  have hmls : ((s.endLayer k slot t flags macs cycles).units k).mls = (s.units k).mls.ends t flags macs cycles := by
    rw [State.units_congr (congrArg Work.units hwork)]
    exact congrArg Units.mls (State.units_modUnits s k fun u => { u with mls := u.mls.ends t flags macs cycles })
  refine ⟨taskEnded_of_disp hdisp (taskEnded_unitEnd _ _ _ _), ?_⟩
  rw [hmls]
  exact ⟨rfl, rfl, rfl⟩

end endLayer

/-! ### Writing a layer's output (R310, R312) -/

/-- The output of a layer: its rows, the void reasons that go on with them, and which rows hold a valid element. -/
def State.layerOut (s : State) (k : Nat) (r : TaskRec) (l : LayerRec) (n : Nat) (slotOf holes : Nat → Nat) (rows : List (OutRow × Nat))
    (reasons : List Nat) : State :=
  ((s.putTensor k l.out l.outTy n l.rnd r slotOf holes rows).1.passVoids k r l reasons).noteRows k r l n rows

section layerOut

variable {α : Type} (part : State → α) {k : Nat} (hstore : ∀ (t : State) f, part (t.modStore k f) = part t)
  (hbatch : ∀ (t : State) n b f, part (t.modBatch n b f) = part t)
  (hvoids : ∀ (t : State) (vs : Work → Tab (Tab Nat)), part (t.modWork fun w => { w with slotVoids := vs w }) = part t)
  (s : State) (r : TaskRec) (l : LayerRec) (n : Nat) (slotOf holes : Nat → Nat) (rows : List (OutRow × Nat)) (reasons : List Nat)

include hstore hbatch hvoids

theorem State.layerOut_keeps : part (s.layerOut k r l n slotOf holes rows reasons) = part s := by
  have hput : part (s.putTensor k l.out l.outTy n l.rnd r slotOf holes rows).1 = part s := by
    unfold State.putTensor
    split
    · rfl
    · exact hstore _ _
  exact (State.mark_keeps part hbatch _ _ _ _ _ _).trans ((ite_keeps part rfl (hvoids _ _)).trans hput)

end layerOut

/-- `u` differs from `s`, as far as a layer's end is concerned, in cluster `k`'s store and in registers of its Millstone that count no product. -/
structure LayerWrote (s u : State) (k : Nat) : Prop where
  graph : u.work.graph = s.work.graph
  disp : u.disp = s.disp
  cstore : ∀ i, i ≠ k → u.cstore i = s.cstore i
  macs : (u.units k).mls.macs = (s.units k).mls.macs

theorem layerWrote_layerOut (s : State) (k : Nat) (r : TaskRec) (l : LayerRec) (n : Nat) (slotOf holes : Nat → Nat) (rows : List (OutRow × Nat))
    (reasons : List Nat) : LayerWrote s (s.layerOut k r l n slotOf holes rows reasons) k where
  graph := State.layerOut_keeps (·.work.graph) (fun _ _ => rfl) (fun _ _ _ _ => rfl) (fun _ _ => rfl) ..
  disp := State.layerOut_keeps State.disp (fun _ _ => rfl) (fun _ _ _ _ => rfl) (fun _ _ => rfl) ..
  cstore i hi := State.layerOut_keeps (fun t => t.cstore i) (fun t f => t.cstore_modStore_ne f hi) (fun _ _ _ _ => rfl) (fun _ _ => rfl) ..
  macs := State.layerOut_keeps (fun t => (t.units k).mls.macs) (fun _ _ => rfl) (fun _ _ _ _ => rfl) (fun _ _ => rfl) ..

theorem LayerWrote.modMls {s u : State} {k : Nat} (h : LayerWrote s u k) {f : Mls → Mls} (hf : ∀ q, (f q).macs = q.macs) :
    LayerWrote s (u.modMls k f) k :=
  ⟨h.graph, h.disp, h.cstore, by rw [State.modMls, State.units_modUnits, hf, h.macs]⟩

/-- A layer whose output is written and that ends has run. -/
theorem LayerWrote.layerRan {s u : State} {g : Graph} {k : Nat} (h : LayerWrote s u k) (hg : s.work.graph = some g) (hswap : g.swapWait = false)
    (hswitch : g.switchWait = false) (slot : Nat) (t : Tpl) (flags macs cycles : Nat) :
    LayerRan s (u.endLayer k slot t flags macs cycles) k slot t macs := by
  have hu : u.work.graph = some g := h.graph.trans hg
  obtain ⟨hended, hlayer, hkernel, hcount⟩ := State.endLayer_settles hu hswap hswitch k slot t flags macs cycles
  have honly : OnlyTask s ((u.modMls k fun q => q.ends t flags macs cycles).unitEnd k slot 0) k slot := onlyTask_unitEnd slot 0 h.disp h.cstore
  refine ⟨hended, ?_, hlayer, hkernel, hcount.trans (by rw [h.macs])⟩
  simpa only [OnlyTask, State.disp, State.cstore, State.endLayer_work hu hswap hswitch k slot t flags macs cycles] using honly

end Sys2Proof.Machine
end

section

/-! Proofs about chapter 11 (Millstone inference): each layer operation runs (R306 to R318). -/
namespace Sys2Proof.Machine

section layers

variable {s : State} {k : Fin 16} {slot : Fin 4096} {g : Graph} {t : Tpl} {r : TaskRec} {l : LayerRec} (rs : Rows) (hswap : g.swapWait = false)
  (hswitch : g.switchWait = false)

include hswap hswitch

theorem gemm_ran (hjob : s.layerJob k.val slot.val 1 = some (g, t, r, l)) : ∃ u, exec (.gemm k slot rs) s = .next u ∧
    LayerRan s u k slot t (ceilDiv l.kk (layerKt l) * ceilDiv l.n 128 * (rs.count * max 1 rs.per) * layerKt l * 128) := by
  refine ⟨_, by show execGemm k slot rs s = _; rw [execGemm, hjob], ?_⟩
  exact (layerWrote_layerOut s k r l ..).layerRan (State.layerJob_graph hjob) hswap hswitch _ _ _ _ _

theorem interact_ran (hjob : s.layerJob k.val slot.val 3 = some (g, t, r, l)) : ∃ u, exec (.interact k slot rs) s = .next u ∧
    LayerRan s u k slot t (rs.count * ceilDiv l.kk (layerKt l) * l.n * layerKt l * 128) := by
  refine ⟨_, by show execInteract k slot rs s = _; rw [execInteract, hjob], ?_⟩
  exact (layerWrote_layerOut s k r l ..).layerRan (State.layerJob_graph hjob) hswap hswitch _ _ _ _ _

theorem attnScore_ran (hjob : s.layerJob k.val slot.val 4 = some (g, t, r, l)) : ∃ u, exec (.attnScore k slot rs) s = .next u ∧
    LayerRan s u k slot t (rs.count * l.heads * (ceilDiv l.kk (layerKt l) * ceilDiv l.n 128) * l.n * layerKt l * 128) := by
  refine ⟨_, by show execAttnScore k slot rs s = _; rw [execAttnScore, hjob], ?_⟩
  exact ((layerWrote_layerOut s k r l ..).modMls (by exact fun _ => rfl)).layerRan (State.layerJob_graph hjob) hswap hswitch _ _ _ _ _

theorem attnValue_ran (hjob : s.layerJob k.val slot.val 5 = some (g, t, r, l)) : ∃ u, exec (.attnValue k slot rs) s = .next u ∧
    LayerRan s u k slot t (rs.count * l.heads * (ceilDiv l.n (layerKt l) * ceilDiv l.kk 128) * l.n * layerKt l * 128) := by
  refine ⟨_, by show execAttnValue k slot rs s = _; rw [execAttnValue, hjob], ?_⟩
  exact (layerWrote_layerOut s k r l ..).layerRan (State.layerJob_graph hjob) hswap hswitch _ _ _ _ _

end layers

/-! ### EMBED_BAG (R314 to R316) -/

section voidBag

variable {α : Type} (part : State → α) (hstore : ∀ (t : State) k f, part (t.modStore k f) = part t)
  (hbatch : ∀ (t : State) n b f, part (t.modBatch n b f) = part t)

include hstore hbatch in
theorem State.markVoid_keeps (s : State) (n b row reason : Nat) : part (s.markVoid n b row reason) = part s :=
  ite_keeps part rfl (List.foldlRecOn (motive := fun t : State => part t = part s) _ _ (hbatch _ _ _ _) fun t ht c _ =>
    (State.voidRow_keeps part (fun t => hstore t c.k) hbatch t _ _ _ rfl).trans ht)

/-- Makes the row of a bag void where the bag gives it a reason; one past its limit is counted at its lane, of those that state `s` has (R275, R316). -/
def State.voidBag (s : State) (g : Graph) (r : TaskRec) (u : State) (b : (Nat × Nat) × BagRow) : State :=
  match r.batch with
  | some n =>
    if b.2.void_ == 0 then u
    else
      let u1 := u.markVoid r.stream n b.1.2 b.2.void_
      match if b.2.void_ == vrOverLimit then s.laneOfSlot g b.1.2 else none with
      | some i => u1.modLane i fun x => { x with voidLimit := sat32 x.voidLimit 1 }
      | none => u1
  | none => u

include hstore hbatch in
theorem State.voidBag_keeps (hlane : ∀ (t : State) i f, part (t.modLane i f) = part t) (s : State) (g : Graph) (r : TaskRec) (u : State)
    (b : (Nat × Nat) × BagRow) : part (s.voidBag g r u b) = part u := by
  have hmark : ∀ n, part (u.markVoid r.stream n b.1.2 b.2.void_) = part u := fun n => State.markVoid_keeps part hstore hbatch u _ _ _ _
  unfold State.voidBag
  split
  · refine ite_keeps part rfl ?_
    dsimp only
    split
    · exact (hlane _ _ _).trans (hmark _)
    · exact hmark _
  · rfl

end voidBag

/-- The rows of bags that become void, and the pieces that are read, leave the graph as it was. -/
theorem graph_of_voidBags {s u : State} (h : NoPoison u) (g : Graph) (r : TaskRec) (bags : List ((Nat × Nat) × BagRow)) (ps : List (Space × Nat × Nat)) :
    ((bags.foldl (s.voidBag g r) u).readPieces ps).work.graph = u.work.graph := by
  have hkeep : ((bags.foldl (s.voidBag g r) u).work.graph, (bags.foldl (s.voidBag g r) u).mem) = (u.work.graph, u.mem) :=
    List.foldlRecOn (motive := fun t : State => (t.work.graph, t.mem) = (u.work.graph, u.mem)) _ _ rfl fun t ht b _ =>
      (State.voidBag_keeps (fun t => (t.work.graph, t.mem)) (fun _ _ _ => rfl) (fun _ _ _ _ => rfl) (fun _ _ _ => rfl) s g r t b).trans ht
  obtain ⟨hgraph, hmem⟩ := Prod.mk.inj hkeep
  have hpure : NoPoison (bags.foldl (s.voidBag g r) u) := fun w hw => h w (hmem ▸ hw)
  exact (congrArg Work.graph (hpure.readPieces ps).work).trans hgraph

theorem State.modMls_graph (s : State) (k : Nat) (f : Mls → Mls) : (s.modMls k f).work.graph = s.work.graph := rfl

theorem State.modGth_graph (s : State) (k : Nat) (f : Gth → Gth) : (s.modGth k f).work.graph = s.work.graph := rfl

theorem embedBag_ended {s : State} {k : Fin 16} {slot : Fin 4096} {g : Graph} {t : Tpl} {r : TaskRec} {l : LayerRec} (rs : Rows) {e : BusEnv}
    (hswap : g.swapWait = false) (hswitch : g.switchWait = false) (hjob : (s.env e).layerJob k.val slot.val 2 = some (g, t, r, l))
    (hclean : Clean (s.env e)) (hopen : bitOf l.mode 5 = true → (s.env e).waitsBus ((s.env e).table l.table).extents = false) :
    ∃ u, exec (.embedBag k slot rs e) s = .next u ∧ TaskEnded u k slot 0 ∧ (u.units k).mls.layer = t.layer ∧ (u.units k).mls.kernel = t.kernel := by
  have hpure : NoPoison (s.env e) := noPoison_of_clean hclean
  have hgo : (bitOf l.mode 5 && (s.env e).waitsBus ((s.env e).table l.table).extents) = false := by
    cases hmode : bitOf l.mode 5
    · rfl
    · exact hopen hmode
  have hend : ∀ u : State, u.work.graph = some g → ∀ flags macs cycles, TaskEnded (u.endLayer k slot t flags macs cycles) k slot 0 ∧
      ((u.endLayer k slot t flags macs cycles).units k).mls.layer = t.layer ∧ ((u.endLayer k slot t flags macs cycles).units k).mls.kernel = t.kernel :=
    fun u hu flags macs cycles => by
      obtain ⟨hended, hlayer, hkernel, -⟩ := State.endLayer_settles hu hswap hswitch k slot t flags macs cycles
      exact ⟨hended, hlayer, hkernel⟩
  refine ⟨_, by show execEmbedBag k slot rs e s = _; simp only [execEmbedBag, hjob, hgo, hpure.poisonedIn, Bool.false_eq_true, if_false]; rfl, ?_⟩
  refine hend _ ?_ _ _ _
  refine (layerWrote_layerOut _ k r l ..).graph.trans ?_
  refine (graph_of_voidBags (s := s.env e) ?_ g r _ _).trans ?_
  · exact hpure
  · rw [State.modMls_graph, State.modGth_graph]
    exact State.layerJob_graph hjob

end Sys2Proof.Machine
end

section

/-! Proofs about chapters 07 and 11: the gather coalescer and Millstone, the settlement. -/
namespace Sys2Proof.Machine

/-- Settles O48: GATHER, SCATTER and SCATTER_ADD over memory without poisoned words, each the fold of its entries; the index modes and the sum of one
element; each layer as the writing of its output and its end; then group sums, the epilogue and bags as functions of their operands. -/
theorem gathersScattersAndLayersRun : Obligations.GathersScattersAndLayersRun := by
  unfold Obligations.GathersScattersAndLayersRun
  refine ⟨gather_settles, fun s k slot rs e j => ⟨scatter_settles s k slot rs e j, scatterAdd_settles s k slot rs e j⟩, resolveIndex_settles,
    scatterSum_settles, fun s k slot rs g t r l hswap hswitch => ⟨gemm_ran rs hswap hswitch, interact_ran rs hswap hswitch,
      attnScore_ran rs hswap hswitch, attnValue_ran rs hswap hswitch, fun e hjob => embedBag_ended rs hswap hswitch hjob⟩,
    fun a b => dot_one_group, epilogue_relu_sign, fun l rows idx wts emb => ⟨bagRow_null l rows idx wts emb, bagRow_overLimit l rows idx wts emb,
      bagRow_empty l rows idx wts emb, fun w hvalid hshort => bagRow_mismatch l rows idx wts emb hvalid hshort⟩⟩

end Sys2Proof.Machine
end

section

/-! Proofs about chapter 08 (Sage): the layer on banks. What a change of one bank leaves of the unit, tables that are rewritten at some keys, the
parity of an entry; then what a search finds, and that on a sound bank it repairs nothing. -/
namespace Sys2Proof.Machine

/-! ### The banks and registers of a unit (R241) -/

section bank

variable (s : State) (k b : Nat)

@[simp] theorem State.sage_modSage (f : Sage → Sage) : ((s.modSage k f).units k).sage = f (s.units k).sage :=
  congrArg Units.sage (State.units_modUnits s k _)

@[simp] theorem State.sage_modBank (f : SageBank → SageBank) :
    ((s.modBank k b f).units k).sage = { (s.units k).sage with banks := tmod {} b f (s.units k).sage.banks } :=
  State.sage_modSage _ _ _

@[simp] theorem State.bank_modBank (f : SageBank → SageBank) : (s.modBank k b f).bank k b = f (s.bank k b) := by
  rw [State.bank, State.sage_modBank]
  exact tget_tmod_same _ _ _ _

/-- Changing registers of a unit leaves its banks alone. -/
theorem State.bank_modSage {f : Sage → Sage} (hf : ∀ q, (f q).banks = q.banks) : (s.modSage k f).bank k b = s.bank k b := by
  rw [State.bank, State.sage_modSage, hf]
  rfl

end bank

/-! ### Tables rewritten at some keys -/

section tab

variable {α : Type} {d : α}

/-- A key that does not read as the default is listed with its value. -/
theorem mem_of_tget_ne {t : Tab α} {k : Nat} (h : tget d t k ≠ d) : (k, tget d t k) ∈ t := by
  induction t with
  | nil => exact absurd rfl h
  | cons p r ih =>
    obtain ⟨j, w⟩ := p
    rw [tget] at h ⊢
    split at h
    · rename_i hk
      subst hk
      rw [if_pos rfl]
      exact List.mem_cons_self
    · rename_i hk
      rw [if_neg hk]
      exact List.mem_cons_of_mem _ (ih h)

theorem tabSorted_of_above {t : Tab α} {b : Nat} (h : tabAbove b t = true) : tabSorted t = true := by
  cases t with
  | nil => rfl
  | cons p r => exact ((Bool.and_eq_true _ _).mp h).2

theorem lt_of_tabAbove {t : Tab α} : ∀ {b : Nat}, tabAbove b t = true → ∀ e ∈ t, b < e.1 := by
  induction t with
  | nil => exact fun _ e he => nomatch he
  | cons p r ih =>
    intro b h e he
    obtain ⟨hb, hr⟩ : b < p.1 ∧ tabAbove p.1 r = true := by simpa [tabAbove] using h
    obtain rfl | he := List.mem_cons.mp he
    · exact hb
    · exact hb.trans (ih hr e he)

/-- In a sorted table every listed key reads as the value listed with it. -/
theorem tget_of_mem {t : Tab α} (h : tabSorted t = true) {k : Nat} {v : α} (hv : (k, v) ∈ t) : tget d t k = v := by
  induction t with
  | nil => exact nomatch hv
  | cons p r ih =>
    rw [tget]
    obtain rfl | hr := List.mem_cons.mp hv
    · exact if_pos rfl
    · rw [if_neg (lt_of_tabAbove h _ hr).ne']
      exact ih (tabSorted_of_above h) hr

variable [DecidableEq α] {f : α → α}

theorem tget_foldl_tmod_of_notMem {l : List Nat} {a : Nat} (h : a ∉ l) (t : Tab α) : tget d (l.foldl (fun t i => tmod d i f t) t) a = tget d t a :=
  List.foldlRecOn (motive := fun u : Tab α => tget d u a = tget d t a) _ _ rfl fun u hu i hi =>
    (tget_tmod_ne d f u fun hai : a = i => h (hai ▸ hi)).trans hu

/-- A change that is made once for good, made at every key of a list. -/
theorem tget_foldl_tmod_of_mem (hf : ∀ x, f (f x) = f x) {l : List Nat} {a : Nat} (h : a ∈ l) (t : Tab α) :
    tget d (l.foldl (fun t i => tmod d i f t) t) a = f (tget d t a) := by
  induction l generalizing t with
  | nil => exact nomatch h
  | cons i l ih =>
    rw [List.foldl_cons]
    by_cases hl : a ∈ l
    · rw [ih hl]
      by_cases hi : a = i
      · rw [hi, tget_tmod_same, hf]
      · rw [tget_tmod_ne d f t hi]
    · obtain rfl : a = i := (List.mem_cons.mp h).resolve_right hl
      rw [tget_foldl_tmod_of_notMem hl, tget_tmod_same]

/-- A list written from key `n` on: its values stand at its positions. -/
theorem tget_foldl_tset_zipIdx {β : Type} (F : β → α) {l : List β} {i : Nat} {x : β} (hx : l[i]? = some x) (n : Nat) (t : Tab α) :
    tget d ((l.zipIdx n).foldl (fun t p => tset d p.2 (F p.1) t) t) (n + i) = F x := by
  induction l using List.reverseRecOn with
  | nil => exact nomatch hx
  | append_singleton l y ih =>
    rw [List.zipIdx_append, List.foldl_append]
    show tget d (tset d (n + l.length) (F y) _) (n + i) = F x
    by_cases hi : i = l.length
    · subst hi
      obtain rfl : y = x := by simpa using hx
      exact tget_tset_same _ _ _ _
    · rw [tget_tset_ne d _ _ (by omega)]
      refine ih ?_
      have hlt : i < l.length := by
        have hle := (List.getElem?_eq_some_iff.mp hx).1
        rw [List.length_append, List.length_singleton] at hle
        omega
      rwa [List.getElem?_append_left hlt] at hx

end tab

/-! ### The parity of an entry (R242, R250) -/

theorem SageEntry.parityOk_rewrite (x : SageEntry) : x.rewrite.parityOk = true := beq_self_eq_true _

theorem SageEntry.rewrite_rewrite (x : SageEntry) : x.rewrite.rewrite = x.rewrite := rfl

theorem SageEntry.parityOk_default : ({} : SageEntry).parityOk = true := by
  simp [SageEntry.parityOk, SageRow.parityBits, par16, bitOf, b2n]

/-- An entry that fails parity is listed in its bank. -/
theorem mem_of_parityBad {t : Tab SageEntry} {a : Nat} (h : (tget ({} : SageEntry) t a).parityOk = false) : (a, tget {} t a) ∈ t :=
  mem_of_tget_ne fun hd => by rw [hd, SageEntry.parityOk_default] at h; cases h

/-! ### What a search finds (R245, R246, R249 to R251) -/

section sort

variable {α : Type} {le : α → α → Bool}

theorem mem_sortBy {l : List α} {x : α} : x ∈ sortBy le l ↔ x ∈ l := by
  induction l using List.reverseRecOn with
  | nil => rfl
  | append_singleton l y ih =>
    rw [sortBy, List.foldl_append, List.foldl_cons, List.foldl_nil, mem_insertBy, List.mem_append, List.mem_singleton, or_comm]
    exact or_congr_left ih

/-- The head of a list that a reflexive comparison orders comes before every member. -/
theorem exists_head_le (hrefl : ∀ a, le a a = true) {l : List α} (hl : l.Pairwise fun a b => le a b = true) {x : α} (hx : x ∈ l) :
    ∃ h, l.head? = some h ∧ le h x = true := by
  cases l with
  | nil => exact nomatch hx
  | cons y ys =>
    refine ⟨y, rfl, ?_⟩
    obtain rfl | hx := List.mem_cons.mp hx
    · exact hrefl x
    · exact (List.pairwise_cons.mp hl).1 x hx

end sort

theorem stepLe_iff {a b : Nat × SageRow} : stepLe a b = true ↔ b.2.prio < a.2.prio ∨ (a.2.prio = b.2.prio ∧ a.1 ≤ b.1) := by
  simp [stepLe]

theorem stepLe_refl (a : Nat × SageRow) : stepLe a a = true := stepLe_iff.mpr (.inr ⟨rfl, le_rfl⟩)

theorem stepLe_total (a b : Nat × SageRow) (h : stepLe a b = false) : stepLe b a = true := by
  rw [← Bool.not_eq_true, stepLe_iff] at h
  rw [stepLe_iff]
  omega

theorem stepLe_trans (a b c : Nat × SageRow) (hab : stepLe a b = true) (hbc : stepLe b c = true) : stepLe a c = true := by
  rw [stepLe_iff] at hab hbc ⊢
  omega

/-- The match row and the stored copy of an entry agree that it matches (R249). -/
def SageEntry.verified (x : SageEntry) (ky g : Nat) : Bool := x.parityOk && x.stored.hits ky g && x.stored.prio == x.row.prio

/-- The candidates of a search in the order in which it verifies them (R249, R250). -/
def SageBank.candidates (b : SageBank) (ky g : Nat) : List (Nat × SageEntry) :=
  sortBy candLe (b.entries.filter fun p => !p.2.parityOk || p.2.row.hits ky g)

/-- The true matches of a search in step order (R246, R249). -/
def SageBank.trueMatches (b : SageBank) (ky g : Nat) : List (Nat × SageRow) :=
  sortBy stepLe (((b.candidates ky g).filter fun p => p.2.verified ky g || (!p.2.parityOk && p.2.stored.hits ky g)).map fun p => (p.1, p.2.stored))

section search

variable (b : SageBank) (key slot steps : Nat)

/-- A search key at the width of a bank (R243). -/
def SageBank.keyAt : Nat := key % 2 ^ (128 * b.unitsPer)

theorem SageBank.search_hits : (b.search key slot steps).hits = (b.trueMatches (b.keyAt key) (b.mask slot)).take (1 + steps) := rfl

/-- A search visits candidates up to the first whose stored copy cannot be corrected (R251). -/
theorem SageBank.search_visits : ∃ r : List (Nat × SageEntry), (∀ p ∈ r, p ∈ b.candidates (b.keyAt key) (b.mask slot)) ∧
    let stop := r.findIdx fun p => p.2.uncorrs != 0
    (b.search key slot steps).false_ = ((r.take stop).filter fun p => !p.2.verified (b.keyAt key) (b.mask slot)).map (fun p => p.1) ∧
    (b.search key slot steps).corr = ((r.take stop).filter fun p => p.2.corrs != 0).map (fun p => (p.1, p.2.corrs)) ∧
    (b.search key slot steps).uncorr = r[stop]?.map fun p => p.1 := by
  refine ⟨if (b.trueMatches (b.keyAt key) (b.mask slot)).length ≤ steps then b.candidates (b.keyAt key) (b.mask slot)
    else match (b.search key slot steps).hits.getLast? with
      | some l => (b.candidates (b.keyAt key) (b.mask slot)).filter fun p => !p.2.parityOk || stepLe (p.1, p.2.row) l
      | none => b.candidates (b.keyAt key) (b.mask slot), ?_, rfl, rfl, rfl⟩
  split
  · exact fun _ hp => hp
  · split
    · exact fun _ hp => List.mem_of_mem_filter hp
    · exact fun _ hp => hp

variable {b key slot steps}

theorem SageBank.hits_of_mem_trueMatches {ky g : Nat} {h : Nat × SageRow} (hh : h ∈ b.trueMatches ky g) : h.2.hits ky g = true := by
  obtain ⟨p, hp, rfl⟩ := List.mem_map.mp (mem_sortBy.mp hh)
  obtain hgood | hbad := (Bool.or_eq_true _ _).mp (List.mem_filter.mp hp).2
  · rw [SageEntry.verified, Bool.and_eq_true, Bool.and_eq_true] at hgood
    exact hgood.1.2
  · exact ((Bool.and_eq_true _ _).mp hbad).2

section sound

variable (hb : Sound b)
include hb

/-- On a sound bank the candidates are the entries that match, and each passes its verification. -/
theorem Sound.of_candidate {ky g : Nat} {p : Nat × SageEntry} (hp : p ∈ b.candidates ky g) :
    p.2.verified ky g = true ∧ p.2.corrs = 0 ∧ p.2.uncorrs = 0 := by
  obtain ⟨hmem, hcand⟩ := List.mem_filter.mp (mem_sortBy.mp hp)
  obtain ⟨hpar, hstored, hecc⟩ := hb p hmem
  have hhits : p.2.row.hits ky g = true := by simpa [hpar] using hcand
  refine ⟨?_, ?_, ?_⟩
  · simp [SageEntry.verified, hpar, hstored, hhits]
  · simp [SageEntry.corrs, hecc]
  · simp [SageEntry.uncorrs, hecc]

/-- A search of a sound bank repairs nothing and does not stop (R249, R251). -/
theorem Sound.search_clean : (b.search key slot steps).false_ = [] ∧ (b.search key slot steps).corr = [] ∧ (b.search key slot steps).uncorr = none := by
  obtain ⟨r, hr, hfalse, hcorr, huncorr⟩ := b.search_visits key slot steps
  have hclean := fun p hp => Sound.of_candidate hb (hr p hp)
  have hstop : (r.findIdx fun p => p.2.uncorrs != 0) = r.length := List.findIdx_eq_length.mpr fun p hp => by
    simp [(hclean p hp).2.2]
  rw [hstop, List.take_length] at hfalse hcorr
  rw [hstop, List.getElem?_length] at huncorr
  refine ⟨?_, ?_, huncorr⟩
  · rw [hfalse, List.filter_eq_nil_iff.mpr fun p hp => by simp [(hclean p hp).1], List.map_nil]
  · rw [hcorr, List.filter_eq_nil_iff.mpr fun p hp => by simp [(hclean p hp).2.1], List.map_nil]

theorem Sound.mem_trueMatches {ky g : Nat} {p : Nat × SageEntry} (hp : p ∈ b.entries) (hhits : p.2.row.hits ky g = true) :
    (p.1, p.2.row) ∈ b.trueMatches ky g := by
  have hcand : p ∈ b.candidates ky g := mem_sortBy.mpr (List.mem_filter.mpr ⟨hp, by rw [hhits, Bool.or_true]⟩)
  rw [← (hb p hp).2.1]
  refine mem_sortBy.mpr (List.mem_map.mpr ⟨p, List.mem_filter.mpr ⟨hcand, ?_⟩, rfl⟩)
  rw [(Sound.of_candidate hb hcand).1, Bool.true_or]

/-- The first match of a search has the highest priority, then the lowest address, of all entries that match (R246). -/
theorem Sound.first_match {p : Nat × SageEntry} (hp : p ∈ b.entries) (hhits : p.2.row.hits (b.keyAt key) (b.mask slot) = true) :
    ∃ h, (b.search key slot steps).hits.head? = some h ∧ (p.2.row.prio < h.2.prio ∨ (p.2.row.prio = h.2.prio ∧ h.1 ≤ p.1)) := by
  obtain ⟨h, hhead, hle⟩ := exists_head_le stepLe_refl (pairwise_sortBy stepLe_total stepLe_trans _) (Sound.mem_trueMatches hb hp hhits)
  refine ⟨h, ?_, (stepLe_iff.mp hle).imp_right fun ⟨hprio, haddr⟩ => ⟨hprio.symm, haddr⟩⟩
  rw [SageBank.search_hits, List.head?_take, if_neg (by omega)]
  exact hhead

end sound

end search

end Sys2Proof.Machine
end

section

/-! Proofs about chapter 08 (Sage): pending entry writes and configurations, reloads and the scrub (R250, R251, R253 to R256). -/
namespace Sys2Proof.Machine

/-! ### A write and a configuration on one bank (R253, R254, R255) -/

/-- The address of a staged entry write. -/
def SageWr.addr (w : SageWr) : Nat := w.target / 16 % 4096

/-- The match row that a staged entry write gives a bank of its width. -/
def SageWr.rowFor (w : SageWr) (b : SageBank) : SageRow :=
  { valid := bitOf w.ctl 2, prio := w.ctl / 256 % 256, result := w.res
    key := ((List.range 16).map fun i => tget 0 w.key i * 2 ^ (32 * i)).sum % 2 ^ (128 * b.unitsPer) }

section apply

variable {b : SageBank} {w : SageWr}

/-- A staged write leaves the bank's pending configuration as it is, whether it lands or not. -/
theorem SageBank.getD_apply_pending (b : SageBank) (w : SageWr) : ((b.apply w).getD b).pending = b.pending := by
  suffices hland : ∀ b', b.apply w = some b' → b'.pending = b.pending by
    cases happly : b.apply w with
    | none => rw [Option.getD_none]
    | some b' => rw [Option.getD_some, hland b' happly]
  intro b' happly
  unfold SageBank.apply at happly
  dsimp only at happly
  split at happly <;> split_ifs at happly <;> exact (congrArg SageBank.pending (Option.some.inj happly)).symm

variable (hkind : w.ctl % 4 = 0)
include hkind

theorem SageBank.apply_lands (hmode : b.mode = 1) (haddr : w.addr < b.capacity) :
    b.apply w = some { b with entries := tset {} w.addr (freshEntry (w.rowFor b) none) b.entries } := by
  have hland : (b.mode == 1 && decide (bitsOf w.target 15 4 < b.capacity)) = true := by
    rw [hmode, decide_eq_true (show bitsOf w.target 15 4 < b.capacity from haddr)]
    rfl
  simp only [SageBank.apply, hkind, hland, if_true]
  rfl

theorem SageBank.apply_rejected (h : b.mode ≠ 1 ∨ b.capacity ≤ w.addr) : b.apply w = none := by
  have hland : ¬ (b.mode == 1 && decide (bitsOf w.target 15 4 < b.capacity)) = true := fun hland => by
    obtain ⟨hmode, haddr⟩ := (Bool.and_eq_true _ _).mp hland
    exact h.elim (fun hne => hne (beq_iff_eq.mp hmode)) fun hle => absurd (of_decide_eq_true haddr) (Nat.not_lt.mpr hle)
  simp only [SageBank.apply, hkind, if_neg hland]

end apply

section reconfig

variable {b : SageBank}

theorem SageBank.reconfig_of_none (h : b.pending = none) : b.reconfig = b := by
  simp [SageBank.reconfig, h]

theorem SageBank.reconfig_pending (b : SageBank) : b.reconfig.pending = none := by
  unfold SageBank.reconfig
  split
  · assumption
  · dsimp only
    rw [apply_ite SageBank.pending]
    exact ite_self _

/-- A pending configuration of valid codes comes into force; a change of MODE or WIDTH clears the contents (R255). -/
theorem SageBank.reconfig_of_some {n v : Nat} (h : b.pending = some (n, v)) (hmode : v % 4 ≠ 3) (hwidth : v / 4 % 4 ≠ 3) :
    b.reconfig = if v % 4 = b.mode ∧ v / 4 % 4 = b.width then { b with pending := none }
      else { b with mode := v % 4, width := v / 4 % 4, pending := none, entries := [], states := [], masks := [], reload := none } := by
  have hmin : min 2 (v / 4 % 4) = v / 4 % 4 := by omega
  simp [SageBank.reconfig, h, hmode, hmin]

end reconfig

/-! ### The pending copies of a bank at a safe point (R256) -/

section sageApply

variable {s : State} {k b n : Nat} {w : SageWr}

theorem State.sageWriteApply_bank (s : State) (k : Nat) (w : SageWr) :
    (s.sageWriteApply k w).bank k (w.target % 8) = ((s.bank k (w.target % 8)).apply w).getD (s.bank k (w.target % 8)) := by
  have hbank : ∀ v, (s.modSage k fun q => { q with pending := none, banks := tset {} (w.target % 8) v q.banks }).bank k (w.target % 8) = v := fun v => by
    rw [State.bank, State.sage_modSage]
    exact tget_tset_same _ _ _ _
  unfold State.sageWriteApply
  dsimp only
  split
  · exact hbank _
  · rw [State.bank_modSage]
    · exact hbank _
    · exact fun _ => rfl

theorem State.sageWriteApply_pending (s : State) (k : Nat) (w : SageWr) : ((s.sageWriteApply k w).units k).sage.pending = none := by
  unfold State.sageWriteApply
  dsimp only
  split <;> simp

/-- A write that lands changes no register but its pending copy. -/
theorem State.sageWriteApply_wrReject (h : ((s.bank k (w.target % 8)).apply w).isSome = true) :
    ((s.sageWriteApply k w).units k).sage.wrReject = (s.units k).sage.wrReject := by
  simp [State.sageWriteApply, h]

/-- A rejected write is counted and reported (R254). -/
theorem State.sageWriteApply_rejected (h : (s.bank k (w.target % 8)).apply w = none) :
    ((s.sageWriteApply k w).units k).sage.wrErr = true ∧ ((s.sageWriteApply k w).units k).sage.wrReject = sat32 (s.units k).sage.wrReject 1 := by
  simp [State.sageWriteApply, h]

theorem State.sageApply_waits (h : s.bankWaits k b = true) : s.sageApply k b = s := if_pos h

variable (hfree : s.bankWaits k b = false)
include hfree

theorem State.sageApply_config (hno : (s.units k).sage.pending = none) : s.sageApply k b = s.modBank k b SageBank.reconfig := by
  simp [State.sageApply, hfree, hno]

theorem State.sageApply_write (hw : (s.units k).sage.pending = some (n, w)) (ht : w.target % 8 = b) :
    s.sageApply k b = if ((s.bank k b).pending.any fun p => decide (p.1 < n)) = true then (s.modBank k b SageBank.reconfig).sageWriteApply k w
      else (s.sageWriteApply k w).modBank k b SageBank.reconfig := by
  simp [State.sageApply, hfree, hw, Option.filter, ht]

/-- Once both pending copies of a bank have been applied, neither is left. -/
theorem State.sageApply_pending (hw : (s.units k).sage.pending = some (n, w)) (ht : w.target % 8 = b) :
    ((s.sageApply k b).units k).sage.pending = none ∧ ((s.sageApply k b).bank k b).pending = none := by
  rw [State.sageApply_write hfree hw ht]
  subst ht
  split
  · refine ⟨State.sageWriteApply_pending _ _ _, ?_⟩
    rw [State.sageWriteApply_bank, SageBank.getD_apply_pending, State.bank_modBank, SageBank.reconfig_pending]
  · refine ⟨?_, ?_⟩
    · rw [State.sage_modBank]
      exact State.sageWriteApply_pending _ _ _
    · rw [State.bank_modBank, SageBank.reconfig_pending]

end sageApply

/-! ### SAGE_ENTRY_WRITE_APPLY (R253, R254) -/

theorem sageEntryWriteApply_none {s : State} {k : Fin 16} (h : (s.units k).sage.pending = none) : exec (.sageEntryWriteApply k) s = .next s := by
  show execSageEntryWriteApply k s = _
  rw [execSageEntryWriteApply, h]

theorem sageEntryWriteApply_lands {s : State} {k : Fin 16} {n : Nat} {w : SageWr} (hw : (s.units k).sage.pending = some (n, w))
    (hconf : (s.bank k (w.target % 8)).pending = none) (hkind : w.ctl % 4 = 0) (hfree : s.bankWaits k (w.target % 8) = false) :
    let b := s.bank k (w.target % 8)
    ∃ u, exec (.sageEntryWriteApply k) s = .next u ∧ (u.units k).sage.pending = none ∧
      (b.mode = 1 → w.addr < b.capacity → (tget {} (u.bank k (w.target % 8)).entries w.addr).row = w.rowFor b ∧
        (u.units k).sage.wrReject = (s.units k).sage.wrReject ∧
        ∀ a, a ≠ w.addr → tget {} (u.bank k (w.target % 8)).entries a = tget {} b.entries a) ∧
      (b.mode ≠ 1 ∨ b.capacity ≤ w.addr → u.bank k (w.target % 8) = b ∧ (u.units k).sage.wrErr = true ∧
        (u.units k).sage.wrReject = sat32 (s.units k).sage.wrReject 1) := by
  intro b
  have hexec : exec (.sageEntryWriteApply k) s = .next ((s.sageWriteApply k w).modBank k (w.target % 8) SageBank.reconfig) := by
    show execSageEntryWriteApply k s = _
    rw [execSageEntryWriteApply, hw]
    dsimp only
    rw [State.sageApply_write hfree hw rfl, hconf]
    rfl
  have hbank : ((s.sageWriteApply k w).modBank k (w.target % 8) SageBank.reconfig).bank k (w.target % 8) = (b.apply w).getD b := by
    rw [State.bank_modBank, State.sageWriteApply_bank]
    exact SageBank.reconfig_of_none ((SageBank.getD_apply_pending _ _).trans hconf)
  refine ⟨_, hexec, ?_, fun hmode haddr => ?_, fun hbad => ?_⟩ <;> simp only [State.sage_modBank]
  · exact State.sageWriteApply_pending _ _ _
  · have happly := SageBank.apply_lands hkind hmode haddr
    rw [hbank, happly, Option.getD_some]
    refine ⟨by rw [tget_tset_same]; rfl, State.sageWriteApply_wrReject ?_, fun a ha => tget_tset_ne _ _ _ ha⟩
    exact (congrArg Option.isSome happly).trans rfl
  · have happly := SageBank.apply_rejected hkind hbad
    rw [hbank, happly]
    exact ⟨rfl, State.sageWriteApply_rejected happly⟩

/-! ### SAGE_BANK_RECONFIG_APPLY (R255, R256) -/

section bankReconfig

variable {s : State} {k : Fin 16} {b : Fin 8} {n v : Nat}

theorem exec_sageBankReconfigApply_none (h : (s.bank k b).pending = none) : exec (.sageBankReconfigApply k b) s = .next s := by
  show execSageBankReconfigApply k b s = _
  rw [execSageBankReconfigApply, h]
  rfl

theorem exec_sageBankReconfigApply (h : (s.bank k b).pending = some (n, v)) : exec (.sageBankReconfigApply k b) s = .next (s.sageApply k b) := by
  show execSageBankReconfigApply k b s = _
  rw [execSageBankReconfigApply, h]
  rfl

theorem sageBankReconfigApply_config (hno : (s.units k).sage.pending = none) (hfree : s.bankWaits k b = false)
    (h : (s.bank k b).pending = some (n, v)) (hmode : v % 4 ≠ 3) (hwidth : v / 4 % 4 ≠ 3) :
    ∃ u, exec (.sageBankReconfigApply k b) s = .next u ∧ (u.bank k b).mode = v % 4 ∧ (u.bank k b).pending = none ∧ (u.bank k b).width = v / 4 % 4 ∧
      (v % 4 ≠ (s.bank k b).mode ∨ v / 4 % 4 ≠ (s.bank k b).width → (u.bank k b).entries = [] ∧ (u.bank k b).states = [] ∧ (u.bank k b).masks = []) ∧
      (v % 4 = (s.bank k b).mode → v / 4 % 4 = (s.bank k b).width → (u.bank k b).entries = (s.bank k b).entries) := by
  refine ⟨_, exec_sageBankReconfigApply h, ?_⟩
  rw [State.sageApply_config hfree hno, State.bank_modBank, SageBank.reconfig_of_some h hmode hwidth]
  split
  · rename_i hsame
    obtain ⟨hm, hw⟩ := hsame
    exact ⟨hm.symm, rfl, hw.symm, fun hne => absurd hm (hne.resolve_right (not_not_intro hw)), fun _ _ => rfl⟩
  · rename_i hne
    exact ⟨rfl, rfl, rfl, fun _ => ⟨rfl, rfl, rfl⟩, fun hm hw => absurd ⟨hm, hw⟩ hne⟩

end bankReconfig

/-! ### SAGE_ENTRY_RELOAD_COMPLETE and SAGE_MATCH_ROW_SCRUB (R250, R251) -/

section reload

variable {s : State} {k : Fin 16} {b : Fin 8}

theorem sageEntryReloadComplete_none (h : ∀ a, (s.bank k b).reload ≠ some (a, false)) : exec (.sageEntryReloadComplete k b) s = .next s := by
  show execSageEntryReloadComplete k b s = _
  rw [execSageEntryReloadComplete]
  split
  · rename_i a ha
    exact absurd ha (h a)
  · rfl

theorem sageEntryReloadComplete_loads {a : Nat} {r : SageRow} (h : (s.bank k b).reload = some (a, false))
    (hr : (tget ({} : SageEntry) (s.bank k b).entries a).source = some r) :
    ∃ u, exec (.sageEntryReloadComplete k b) s = .next u ∧ (u.bank k b).reload = some (a, true) ∧ (tget {} (u.bank k b).entries a).stored = r ∧
      (tget {} (u.bank k b).entries a).ecc = [] := by
  refine ⟨_, by show execSageEntryReloadComplete k b s = _; rw [execSageEntryReloadComplete, h], ?_⟩
  rw [State.bank_modBank]
  refine ⟨rfl, ?_, ?_⟩ <;> rw [tget_tmod_same]
  rw [hr, Option.getD_some]

end reload

/-- The addresses of the match rows of a bank that fail parity. -/
def SageBank.parityBad (b : SageBank) : List Nat := (b.entries.filter fun p => !p.2.parityOk).map fun p => p.1

theorem SageBank.mem_parityBad {b : SageBank} {a : Nat} (h : (tget ({} : SageEntry) b.entries a).parityOk = false) : a ∈ b.parityBad :=
  List.mem_map.mpr ⟨_, List.mem_filter.mpr ⟨mem_of_parityBad h, by rw [h]; rfl⟩, rfl⟩

theorem SageBank.notMem_parityBad {b : SageBank} {a : Nat} (hsort : tabSorted b.entries = true) (h : (tget ({} : SageEntry) b.entries a).parityOk = true) :
    a ∉ b.parityBad := fun ha => by
  obtain ⟨⟨i, x⟩, hx, rfl⟩ := List.mem_map.mp ha
  obtain ⟨hmem, hbad⟩ := List.mem_filter.mp hx
  rw [tget_of_mem hsort hmem] at h
  simp [h] at hbad

/-- The scrub rewrites the match rows that fail parity, and on a sorted bank these only. -/
theorem sageMatchRowScrub_settles (s : State) (k : Fin 16) (b : Fin 8) : ∃ u, exec (.sageMatchRowScrub k b []) s = .next u ∧
    (∀ a, (tget ({} : SageEntry) (u.bank k b).entries a).parityOk = true) ∧
    (tabSorted (s.bank k b).entries = true → ∀ a, (tget ({} : SageEntry) (s.bank k b).entries a).parityOk = true →
      tget {} (u.bank k b).entries a = tget {} (s.bank k b).entries a) ∧
    (∀ a, (tget ({} : SageEntry) (s.bank k b).entries a).parityOk = false →
      (tget {} (u.bank k b).entries a).row = (tget ({} : SageEntry) (s.bank k b).entries a).stored) := by
  refine ⟨_, rfl, ?_⟩
  rw [State.bank_modSage _ _ _ (by exact fun _ => rfl), State.bank_modBank]
  have hin : ∀ a ∈ (s.bank k b).parityBad, tget {} ((s.bank k b).parityBad.foldl (fun t a => tmod {} a SageEntry.rewrite t) (s.bank k b).entries) a =
      (tget ({} : SageEntry) (s.bank k b).entries a).rewrite := fun a ha =>
    tget_foldl_tmod_of_mem SageEntry.rewrite_rewrite ha _
  have hout : ∀ a ∉ (s.bank k b).parityBad, tget {} ((s.bank k b).parityBad.foldl (fun t a => tmod {} a SageEntry.rewrite t) (s.bank k b).entries) a =
      tget ({} : SageEntry) (s.bank k b).entries a := fun a ha => tget_foldl_tmod_of_notMem ha _
  refine ⟨fun a => ?_, fun hsort a ha => hout a (SageBank.notMem_parityBad hsort ha),
    fun a ha => congrArg SageEntry.row (hin a (SageBank.mem_parityBad ha))⟩
  by_cases ha : a ∈ (s.bank k b).parityBad
  · exact (congrArg SageEntry.parityOk (hin a ha)).trans (SageEntry.parityOk_rewrite _)
  · refine (congrArg SageEntry.parityOk (hout a ha)).trans ?_
    by_contra hbad
    exact ha (SageBank.mem_parityBad (Bool.eq_false_iff.mpr hbad))

end Sys2Proof.Machine
end

section

/-! Proofs about chapter 08 (Sage): LOOKUP (R246 to R251). A row's search, the rows in their order, and how the command goes on or ends. -/
namespace Sys2Proof.Machine

/-! ### A detected error while nothing recovers (R467) -/

/-- The first error of a unit outside the duplex pairs fences that unit and leaves the cluster units alone. -/
theorem State.detectError_fences (s : State) {kind : Nat} (index cause detail : Nat) (injected : Bool) (hok : s.err.state = 0) (h14 : kind ≠ 14)
    (h15 : kind ≠ 15) (h18 : kind ≠ 18) :
    (s.detectError kind index cause detail injected).units = s.units ∧ (s.detectError kind index cause detail injected).isFenced kind index = true := by
  have hunits : ∀ r, ((s.pushRecord r).postEvent (errSource kind index)).units = s.units := fun r => by
    funext k
    simp [State.units]
  simp only [State.detectError, hok, beq_eq_false_iff_ne.mpr h14, beq_eq_false_iff_ne.mpr h15, beq_eq_false_iff_ne.mpr h18]
  refine ⟨hunits _, ?_⟩
  simp [State.isFenced]

/-! ### The search of a row (R246 to R251) -/

section lookupRow

variable {s : State} {k b slot steps : Nat} {parts : List ColW} {xs : List Cell} {again : Bool}

/-- The unit once a search has found `f`: it is counted where it is issued, and what it repairs is repaired. -/
def State.searched (s : State) (k b : Nat) (again : Bool) (f : Found) : State :=
  ((if again then s else s.modSage k fun q => { q with searches := (q.searches + 1) % 2 ^ 64 }).sageRepair k b f).modBank k b fun x => { x with reload := none }

@[simp] theorem State.modSage_err (s : State) (k : Nat) (f : Sage → Sage) : (s.modSage k f).err = s.err := rfl

@[simp] theorem State.modBank_err (s : State) (k b : Nat) (f : SageBank → SageBank) : (s.modBank k b f).err = s.err := rfl

theorem State.isFenced_modBank (s : State) (k b : Nat) (f : SageBank → SageBank) (kind index : Nat) :
    (s.modBank k b f).isFenced kind index = s.isFenced kind index := rfl

/-- One stored copy corrected in place, with its `a.2` words counted (R251). -/
def State.sageCorrect (k b : Nat) (s : State) (a : Nat × Nat) : State :=
  (s.modBank k b fun x => { x with entries := tmod {} a.1 (fun e => { e with ecc := [] }) x.entries }).modSage k fun q => { q with eccCorr := sat32 q.eccCorr a.2 }

theorem State.sageRepair_of_noFalse (s : State) (k b : Nat) {f : Found} (hfalse : f.false_ = []) : s.sageRepair k b f = f.corr.foldl (State.sageCorrect k b) s := by
  rw [State.sageRepair, hfalse, List.foldl_nil]
  rfl

/-- Corrections change neither the record of errors nor the count of uncorrectable words. -/
theorem State.foldl_sageCorrect_counts (k b : Nat) (l : List (Nat × Nat)) (s : State) :
    (l.foldl (State.sageCorrect k b) s).err = s.err ∧
      ((l.foldl (State.sageCorrect k b) s).units k).sage.eccUncorr = (s.units k).sage.eccUncorr := by
  induction l generalizing s with
  | nil => exact ⟨rfl, rfl⟩
  | cons a l ih =>
    obtain ⟨herr, hcount⟩ := ih (s.sageCorrect k b a)
    rw [List.foldl_cons, herr, hcount]
    simp [State.sageCorrect]

theorem State.searched_counts (s : State) (k b : Nat) (again : Bool) {f : Found} (hfalse : f.false_ = []) :
    (s.searched k b again f).err = s.err ∧ ((s.searched k b again f).units k).sage.eccUncorr = (s.units k).sage.eccUncorr := by
  obtain ⟨herr, hcount⟩ := State.foldl_sageCorrect_counts k b f.corr
    (if again then s else s.modSage k fun q => { q with searches := (q.searches + 1) % 2 ^ 64 })
  rw [State.searched, State.sage_modBank, State.modBank_err, State.sageRepair_of_noFalse _ _ _ hfalse, herr, hcount]
  cases again <;> simp

/-- A search that repairs nothing is counted. -/
theorem State.searched_clean (s : State) (k b : Nat) {f : Found} (hfalse : f.false_ = []) (hcorr : f.corr = []) :
    ((s.searched k b false f).units k).sage.searches = ((s.units k).sage.searches + 1) % 2 ^ 64 := by
  rw [State.searched, State.sage_modBank, State.sageRepair_of_noFalse _ _ _ hfalse, hcorr]
  simp

/-- The unit once a search has stopped at entry `a`: its errors are counted, and the bank reports them. -/
def State.stoppedAt (s : State) (k b a n : Nat) : State :=
  (s.modSage k fun q => { q with eccUncorr := sat32 q.eccUncorr n }).detectError 7 (8 * k + b) 1 a false

/-- The stop of a search is counted, and fences the bank where nothing recovers (R251, R467). -/
theorem State.stoppedAt_reports (again : Bool) {f : Found} (hok : s.err.state = 0) (hfalse : f.false_ = []) (a n : Nat) :
    let t := (s.searched k b again f).stoppedAt k b a n
    (t.units k).sage.eccUncorr = sat32 (s.units k).sage.eccUncorr n ∧ t.isFenced 7 (8 * k + b) = true := by
  obtain ⟨herr, hcount⟩ := s.searched_counts k b again hfalse
  obtain ⟨hunits, hfence⟩ := State.detectError_fences ((s.searched k b again f).modSage k fun q => { q with eccUncorr := sat32 q.eccUncorr n })
    (kind := 7) (8 * k + b) 1 a false (by rw [State.modSage_err, herr, hok]) (by decide) (by decide) (by decide)
  refine ⟨?_, hfence⟩
  rw [State.stoppedAt, hunits, State.sage_modSage, hcount]

variable (hmode : (s.bank k b).mode = 1) {f : Found} (hf : (s.bank k b).search (sageKey parts xs) slot steps = f)
include hmode hf

theorem State.lookupRow_found (hnone : f.uncorr = none) :
    s.lookupRow k b slot steps parts xs again = (some { cells := lookupCells f steps, sent := true },
      (s.searched k b again f).modSage k fun q => { q with multi := sat32 q.multi (b2n f.multi) }) := by
  simp only [State.lookupRow, hmode, hf, hnone, bne_self_eq_false, Bool.false_eq_true, if_false]
  rfl

section stopped

variable {a : Nat} (ha : f.uncorr = some a)
include ha

theorem State.lookupRow_reloads {r : SageRow} (hsource : (tget ({} : SageEntry) (s.bank k b).entries a).source = some r) :
    s.lookupRow k b slot steps parts xs again = (none,
      ((s.searched k b again f).stoppedAt k b a (tget ({} : SageEntry) (s.bank k b).entries a).uncorrs).modBank k b fun x =>
        { x with reload := some (a, false) }) := by
  simp only [State.lookupRow, hmode, hf, ha, hsource, bne_self_eq_false, Bool.false_eq_true, if_false, Option.isSome_some, if_true]
  rfl

theorem State.lookupRow_voids (hsource : (tget ({} : SageEntry) (s.bank k b).entries a).source = none) :
    s.lookupRow k b slot steps parts xs again = (some { cells := [], void_ := true, sent := true },
      (s.searched k b again f).stoppedAt k b a (tget ({} : SageEntry) (s.bank k b).entries a).uncorrs) := by
  simp only [State.lookupRow, hmode, hf, ha, hsource, bne_self_eq_false, Bool.false_eq_true, if_false, Option.isSome_none]
  rfl

/-- A search that an uncorrectable copy stops waits for the reload of the entry, or makes its row void; the bank is fenced (R251). -/
theorem lookupRow_stopped_settles :
    let x := tget ({} : SageEntry) (s.bank k b).entries a
    ∃ l t, s.lookupRow k b slot steps parts xs again = (l, t) ∧ (x.source.isSome = true → l = none ∧ (t.bank k b).reload = some (a, false)) ∧
      (x.source = none → l = some { cells := [], void_ := true, sent := true }) ∧
      (s.err.state = 0 → f.false_ = [] →
        (t.units k).sage.eccUncorr = sat32 (s.units k).sage.eccUncorr x.uncorrs ∧ t.isFenced 7 (8 * k + b) = true) := by
  intro x
  cases hsource : x.source with
  | none =>
    exact ⟨_, _, State.lookupRow_voids hmode hf ha hsource, nofun, fun _ => rfl, fun hok hfalse => State.stoppedAt_reports again hok hfalse a _⟩
  | some r =>
    refine ⟨_, _, State.lookupRow_reloads hmode hf ha hsource, fun _ => ⟨rfl, by rw [State.bank_modBank]⟩, nofun, fun hok hfalse => ?_⟩
    rw [State.sage_modBank, State.isFenced_modBank]
    dsimp only
    exact State.stoppedAt_reports again hok hfalse a _

end stopped

/-- A search of a sound bank answers its matches and is counted (R246, R247). -/
theorem lookupRow_sound (hb : Sound (s.bank k b)) :
    (s.lookupRow k b slot steps parts xs false).1 = some { cells := lookupCells f steps, sent := true } ∧
    (((s.lookupRow k b slot steps parts xs false).2).units k).sage.searches = ((s.units k).sage.searches + 1) % 2 ^ 64 := by
  obtain ⟨hfalse, hcorr, hnone⟩ := Sound.search_clean hb (key := sageKey parts xs) (slot := slot) (steps := steps)
  rw [hf] at hfalse hcorr hnone
  rw [State.lookupRow_found hmode hf hnone]
  refine ⟨rfl, ?_⟩
  rw [State.sage_modSage]
  dsimp only
  exact s.searched_clean k b hfalse hcorr

end lookupRow

/-- What a search answers agrees with the key under the mask, and is at most the winner and its steps (R245, R246). -/
theorem SageBank.search_hits_agree (b : SageBank) (key slot steps : Nat) :
    (∀ h ∈ (b.search key slot steps).hits, h.2.valid = true ∧ Nat.land (Nat.xor h.2.key (key % 2 ^ (128 * b.unitsPer))) (b.mask slot) = 0) ∧
    (b.search key slot steps).hits.length ≤ 1 + steps := by
  rw [SageBank.search_hits]
  refine ⟨fun h hh => ?_, List.length_take_le _ _⟩
  obtain ⟨hvalid, hkey⟩ := (Bool.and_eq_true _ _).mp (SageBank.hits_of_mem_trueMatches (List.mem_of_mem_take hh))
  exact ⟨hvalid, beq_iff_eq.mp hkey⟩

/-! ### The rows of a LOOKUP (R248, R251) -/

theorem State.lookupRows_waits {s : State} {k slot steps : Nat} {parts : List ColW} {banks : List Nat} {x : Bool × List Cell}
    {r : List (Bool × List Cell)} {p : LookProg} (hlive : x.1 = false) (hkey : keyNull x.2 = false) (hlong : sageLong parts x.2 = false)
    (hwait : s.searchWaits k (banks.getD (p.issued % max 1 banks.length) 0) = true) :
    State.lookupRows k slot steps parts banks (x :: r) p s = (p, false, s) := by
  simp only [State.lookupRows, hlive, hkey, hlong, hwait, Bool.false_eq_true, if_false, if_true]

/-- How far the rows of a running LOOKUP come from where its record stands, whether that is the end, and the state it leaves. -/
def State.lookupPass (s : State) (k : Nat) (j : Job2) (rs : Rows) : LookProg × Bool × State :=
  State.lookupRows k (j.p 1) (j.p 2) (takeCols (j.ps.drop 3)).1 (setBits 8 (j.p 0))
    (((rowList rs).map fun p => (j.absent s p, s.keyCells k (takeCols (j.ps.drop 3)).1 p.1)).drop j.r.look.rows.length) j.r.look s

/-- The end of a LOOKUP whose rows have all been searched: the rows without an answer become void, the cells are written. -/
def State.lookupDone (s : State) (j : Job2) (rs : Rows) (q : LookProg × State) : State × Nat :=
  let outs := (takeCols (takeCols (j.ps.drop 3)).2).1
  let all := (rowList rs).zip q.1.rows
  let done := all.foldl (fun (t : State) (p : (Nat × Nat) × LookRow) => if p.2.void_ then t.jobVoid j p.1.2 vrSourceError else t) q.2
  let rows := all.map fun p => (p.2.cells, if p.2.void_ then vrSourceError else j.reason s p.1)
  if j.t.stage then done.putStage j outs rs rows else (done.putOuts j outs rs (rows.map fun r => r.1), 0)

section lookup

variable {s : State} {k : Fin 16} {slot : Fin 4096} {rs : Rows} {j : Job2} (hjob : s.unitJob k.val slot.val 3 1 = some j)
include hjob

theorem exec_lookup : exec (.lookup k slot rs []) s = .next (
    if !(s.lookupPass k j rs).2.1 then (s.lookupPass k j rs).2.2.modDisp k fun d => d.modRec slot fun r => { r with look := (s.lookupPass k j rs).1 }
    else (s.lookupDone j rs ((s.lookupPass k j rs).1, (s.lookupPass k j rs).2.2)).1.unitEnd k slot
      (s.lookupDone j rs ((s.lookupPass k j rs).1, (s.lookupPass k j rs).2.2)).2) := by
  obtain ⟨hk, hslot⟩ := State.unitJob_seat hjob
  have hups : s.sageUpsets k [] = s := rfl
  show execLookup k slot rs [] s = _
  simp only [execLookup, hups, hjob, hk, hslot]
  rfl

/-- A LOOKUP whose rows have all been searched ends; outside a table stage, where no row became void, its cells are written as they are. -/
theorem lookup_ends (hend : (s.lookupPass k j rs).2.1 = true) : ∃ u f, exec (.lookup k slot rs []) s = .next u ∧ TaskEnded u k slot f ∧
    (j.t.stage = false → f = 0 ∧ ((∀ x ∈ (s.lookupPass k j rs).1.rows, x.void_ = false) →
      u.cstore k = ((s.lookupPass k j rs).2.2.putOuts j (takeCols (takeCols (j.ps.drop 3)).2).1 rs
        (((rowList rs).zip (s.lookupPass k j rs).1.rows).map fun x => x.2.cells)).cstore k)) := by
  refine ⟨_, _, (exec_lookup hjob).trans (congrArg Host.Outcome.next (if_neg (by rw [hend]; decide))), taskEnded_unitEnd _ _ _ _, fun hstage => ?_⟩
  generalize s.lookupPass k j rs = q
  have hdone : s.lookupDone j rs (q.1, q.2.2) = _ := if_neg (by rw [hstage]; decide)
  refine ⟨congrArg Prod.snd hdone, fun hvoid => ?_⟩
  have hkept : ((rowList rs).zip q.1.rows).foldl (fun (t : State) (p : (Nat × Nat) × LookRow) =>
      if p.2.void_ then t.jobVoid j p.1.2 vrSourceError else t) q.2.2 = q.2.2 :=
    List.foldlRecOn (motive := fun t : State => t = q.2.2) _ _ rfl fun t ht p hp => by
      rw [hvoid p.2 (List.of_mem_zip hp).2]
      exact ht
  rw [State.unitEnd_cstore, congrArg Prod.fst hdone]
  dsimp only
  rw [hkept, List.map_map]
  rfl

/-- A LOOKUP whose search waits keeps how far its rows have come, and goes on from there. -/
theorem lookup_goesOn (hwait : (s.lookupPass k j rs).2.1 = false) : ∃ u, exec (.lookup k slot rs []) s = .next u ∧
    (u.disp k).task slot = { ((s.lookupPass k j rs).2.2.disp k).task slot with look := (s.lookupPass k j rs).1 } ∧
    u.units = (s.lookupPass k j rs).2.2.units ∧ u.cstore k = (s.lookupPass k j rs).2.2.cstore k := by
  refine ⟨_, (exec_lookup hjob).trans (congrArg Host.Outcome.next (if_pos (by rw [hwait]; rfl))), ?_, rfl, rfl⟩
  rw [State.disp_modDisp, Disp.task_modRec]

end lookup

end Sys2Proof.Machine
end

section

/-! Proofs about chapter 08 (Sage): SCAN and SAGE_BUILD (R252, R259 to R261), and the settlement. -/
namespace Sys2Proof.Machine

/-! ### Pending copies leave the rest of the machine alone (R253, R255) -/

theorem State.sageApply_keeps {α : Type} (part : State → α) (hunits : ∀ (t : State) k f, part (t.modUnits k f) = part t) (s : State) (k b : Nat) :
    part (s.sageApply k b) = part s := by
  have hwrite : ∀ (t : State) w, part (t.sageWriteApply k w) = part t := fun t w =>
    ite_keeps part (hunits t _ _) ((hunits _ _ _).trans (hunits t _ _))
  unfold State.sageApply
  refine ite_keeps part rfl ?_
  dsimp only
  split
  · exact hunits _ _ _
  · exact ite_keeps part ((hwrite _ _).trans (hunits _ _ _)) ((hunits _ _ _).trans (hwrite _ _))

/-- The state in which the banks of a list have taken their pending copies. -/
def State.sageApplied (s : State) (k : Nat) (bs : List Nat) : State := bs.foldl (fun (t : State) b => t.sageApply k b) s

theorem State.sageApplied_keeps {α : Type} (part : State → α) (hunits : ∀ (t : State) k f, part (t.modUnits k f) = part t) (s : State) (k : Nat)
    (bs : List Nat) : part (s.sageApplied k bs) = part s :=
  List.foldlRecOn (motive := fun t : State => part t = part s) _ _ rfl fun t ht b _ => (State.sageApply_keeps part hunits t k b).trans ht

/-! ### SCAN (R259 to R261) -/

theorem length_scanRows (reps : List (List SageBank)) : ∀ (rows : List (Bool × Cell)) (i : Nat), (scanRows reps rows i).length = rows.length := by
  intro rows
  induction rows with
  | nil => exact fun _ => rfl
  | cons x r ih =>
    intro i
    rw [scanRows]
    split
    · exact congrArg Nat.succ (ih i)
    · split
      · exact congrArg Nat.succ (ih i)
      · exact congrArg Nat.succ (ih (i + 1))

/-- A present value is scanned by the banks of its replica, where these are all automata. -/
theorem scanRows_single {bs : List SageBank} {x : Cell} (r : List (Bool × Cell)) (i : Nat) (hvalid : x.valid = true) (hmode : ∀ b ∈ bs, b.mode = 2) :
    scanRows [bs] ((false, x) :: r) i = { kind := 2, reps := scanBanks bs x.bytes, off := false } :: scanRows [bs] r (i + 1) := by
  have hfit : bs.filter (fun b => b.mode == 2) = bs := List.filter_eq_self.mpr fun b hb => beq_iff_eq.mpr (hmode b hb)
  have hrep : [bs].getD (i % max 1 [bs].length) [] = bs := by simp [Nat.mod_one]
  rw [scanRows]
  simp only [hvalid, hrep, hfit, Bool.false_eq_true, Bool.not_true, if_false, bne_self_eq_false]

/-- Reports by end offset, then pattern (R259). -/
def reportLe (a b : Nat × Nat) : Bool := decide (a.1 < b.1) || (a.1 == b.1 && decide (a.2 ≤ b.2))

theorem reportLe_iff {a b : Nat × Nat} : reportLe a b = true ↔ a.1 < b.1 ∨ (a.1 = b.1 ∧ a.2 ≤ b.2) := by
  simp [reportLe]

theorem reportLe_total (a b : Nat × Nat) (h : reportLe a b = false) : reportLe b a = true := by
  rw [← Bool.not_eq_true, reportLe_iff] at h
  rw [reportLe_iff]
  omega

theorem reportLe_trans (a b c : Nat × Nat) (hab : reportLe a b = true) (hbc : reportLe b c = true) : reportLe a c = true := by
  rw [reportLe_iff] at hab hbc ⊢
  omega

/-- The reports of a value rise strictly: each stands once (R259). -/
theorem scanBanks_pairwise (bs : List SageBank) (val : Bytes) :
    (scanBanks bs val).Pairwise fun a b => a.1 < b.1 ∨ (a.1 = b.1 ∧ a.2 < b.2) := by
  have hsorted := (pairwise_sortBy reportLe_total reportLe_trans (bs.flatMap fun b => b.scan val)).sublist (List.dedup_sublist _)
  refine (hsorted.and (List.nodup_dedup _)).imp fun {a b} h => ?_
  obtain ⟨hle, hne⟩ := h
  have hne' : a.1 = b.1 → a.2 ≠ b.2 := fun h1 h2 => hne (Prod.ext h1 h2)
  rw [reportLe_iff] at hle
  omega

/-- The output cells of a scanned row; `most` reports are listed (R260). -/
def ScanRow.cells (most : Nat) (x : ScanRow) : List Cell :=
  if x.kind ≠ 2 then [] else
    [boolCell (!x.reps.isEmpty), (x.reps.head?.map fun q => u32Cell q.1).getD {}, (x.reps.head?.map fun q => u32Cell q.2).getD {},
      { valid := true, elems := (x.reps.take most).map fun q => q.1 + q.2 * 2 ^ 32 }, boolCell (decide (most < x.reps.length))]

/-- What a SCAN finds in its rows once its banks have taken their pending copies. -/
def State.scanRes (t : State) (k : Nat) (j : Job2) (rs : Rows) : List ScanRow :=
  scanRows ((replicasOf ((setBits 8 (j.p 0)).map fun b => (t.imageOf j.g k b, b))).map fun l => l.map fun b => t.bank k b)
    ((rowList rs).map fun p => (j.absent t p, t.slotCell k (parseCol (j.p 2)) p.1)) 0

/-- The registers of a unit once a SCAN has found `res` (R257, R260). -/
def Sage.countScan (most : Nat) (res : List ScanRow) (q : Sage) : Sage :=
  let off := (res.filter fun x => x.off).length
  { q with
    searches := (q.searches + (res.filter fun x => x.kind == 2).length) % 2 ^ 64, nullKeys := sat32 q.nullKeys (res.filter fun x => x.kind == 1).length
    rptOverflow := sat32 q.rptOverflow (res.filter fun x => decide (most < x.reps.length)).length
    bankOff := sat32 q.bankOff off, modeErr := q.modeErr || off != 0 }

theorem length_scanRes (t : State) (k : Nat) (j : Job2) (rs : Rows) : (t.scanRes k j rs).length = (rowList rs).length :=
  (length_scanRows _ _ _).trans (List.length_map _)

section scan

variable {s : State} {k : Fin 16} {slot : Fin 4096} (rs : Rows) {j : Job2} (hjob : s.unitJob k.val slot.val 3 2 = some j) (hstage : j.t.stage = false)
include hjob hstage

/-- A SCAN outside a table stage writes the cells of what it finds; only registers of its unit change besides. -/
theorem exec_scan :
    let t := s.sageApplied k (setBits 8 (j.p 0))
    exec (.scan k slot rs) s = .next (((t.modSage k (Sage.countScan (j.p 1) (t.scanRes k j rs))).putOuts j (takeCols (j.ps.drop 3)).1 rs
      ((t.scanRes k j rs).map (ScanRow.cells (j.p 1)))).unitEnd k slot 0) := by
  intro t
  obtain ⟨hk, -⟩ := State.unitJob_seat hjob
  have hrows := List.map_snd_zip (length_scanRes t k j rs).le
  show execScan k slot rs s = _
  refine congrArg Host.Outcome.next (State.unitRun_ended hjob (r := ((t.modSage k (Sage.countScan (j.p 1) (t.scanRes k j rs))).putOuts j
    (takeCols (j.ps.drop 3)).1 rs ((t.scanRes k j rs).map (ScanRow.cells (j.p 1))), 0)) ?_ (show 0 ≠ stHeld by decide))
  refine (if_neg (by rw [hstage]; decide)).trans ?_
  simp only [hk]
  refine congrArg (fun cells => some (State.putOuts (t.modSage k (Sage.countScan (j.p 1) (t.scanRes k j rs))) j (takeCols (j.ps.drop 3)).1 rs cells, 0)) ?_
  refine Eq.trans ?_ (congrArg (List.map (ScanRow.cells (j.p 1))) hrows)
  rw [List.map_map, List.map_map]
  refine List.map_congr_left fun p _ => ?_
  simp only [Function.comp_def, ScanRow.cells, bne_iff_ne]

theorem scan_settles :
    let t := s.sageApplied k (setBits 8 (j.p 0))
    ∃ u, exec (.scan k slot rs) s = .next u ∧ TaskEnded u k slot 0 ∧ OnlyTask s u k slot ∧
      u.cstore k = (t.putOuts j (takeCols (j.ps.drop 3)).1 rs ((t.scanRes k j rs).map (ScanRow.cells (j.p 1)))).cstore k := by
  intro t
  obtain ⟨hk, -⟩ := State.unitJob_seat hjob
  refine ⟨_, exec_scan rs hjob hstage, taskEnded_unitEnd _ _ _ _, onlyTask_unitEnd _ _ ?_ fun i hi => ?_, ?_⟩
  · rw [State.putOuts_disp]
    exact State.sageApplied_keeps State.disp (fun _ _ _ => rfl) s _ _
  · rw [State.putOuts_cstore_ne _ _ _ _ _ (hk ▸ hi)]
    exact State.sageApplied_keeps (fun t => t.cstore i) (fun _ _ _ => rfl) s _ _
  · have halike : WritesAlike j.r.stream (j.r.batch.getD 0) t (t.modSage k (Sage.countScan (j.p 1) (t.scanRes k j rs))) := ⟨rfl, rfl, rfl, rfl⟩
    exact halike.putOuts _ _ _ _

end scan

/-! ### SAGE_BUILD (R252) -/

/-- A build writes a key that fits its fields as a search forms it (R243). -/
theorem sageBuildKey_of_fits {parts : List ColW} {xs : List Cell} (free : Nat) (h : sageLong parts xs = false) :
    sageBuildKey free parts xs = sageKey parts xs := by
  rw [sageBuildKey, sageKey]
  exact congrArg leNat (List.flatMap_congr fun p hp => if_neg (List.any_eq_false.mp h p hp))

theorem State.unitEnd_bank (s : State) (k slot fail i b : Nat) : (s.unitEnd k slot fail).bank i b = s.bank i b := rfl

/-- The entry of a build with one priority and the row number as result. -/
def State.buildEntry (s : State) (j : Job2) (x : Nat × Bool × List Cell × List Cell) : SageEntry :=
  let r : SageRow := { valid := true, prio := j.p 2 % 256, result := x.1, key := sageBuildKey (s.free + x.1) (takeCols (j.ps.drop 5)).1 x.2.2.1 }
  freshEntry r (some r)

section build

variable {s : State} {k : Fin 16} {slot : Fin 4096} {e : BusEnv} {j : Job2} {rows : List (Nat × Bool × List Cell × List Cell)}
  (hjob : (s.env e).unitJob k.val slot.val 3 3 = some j) (hready : (s.env e).tableReady j.r.stream (j.p 4) = true)
  (hmode : ((s.env e).bank k (j.p 0)).mode = 1) (hprio : j.p 1 ≠ 1) (hres : j.p 3 = 0)
  (hrows : ((s.env e).viewTable e j.g j.r.stream (j.p 4)).stageRows (takeCols (j.ps.drop 5)).1 [] = some rows)
  (hclean : (s.env e).poisonedIn (((s.env e).viewTable e j.g j.r.stream (j.p 4)).pieces ((takeCols (j.ps.drop 5)).1.map fun c => c.off)) = false)
include hjob hready hmode hprio hres hrows hclean

/-- The rows past the capacity of the bank end a build; otherwise each of them becomes an entry, in input order from address 0. -/
theorem exec_sageBuild : ∃ (t : State) (n : Nat), exec (.sageBuild k slot e) s = .next (
    if ((s.env e).bank k (j.p 0)).capacity < (buildable rows).length then t.unitEnd k slot 0x12
    else (({ t with free := n } : State).modBank k (j.p 0) fun b => { b with
      entries := (buildable rows).zipIdx.foldl (fun es p => tset {} p.2 ((s.env e).buildEntry j p.1) es) b.entries }).unitEnd k slot 0) := by
  obtain ⟨hk, -⟩ := State.unitJob_seat hjob
  have hbuild : (rows.filter fun x => !x.2.1).filter (fun x => !keyNull x.2.2.1) = buildable rows := by
    rw [List.filter_filter, buildable]
    exact List.filter_congr fun x _ => Bool.and_comm _ _
  let v := (s.env e).viewTable e j.g j.r.stream (j.p 4)
  let t := ((s.env e).readPieces (v.pieces ((takeCols (j.ps.drop 5)).1.map fun c => c.off))).modSage k fun q =>
    { q with nullKeys := sat32 q.nullKeys ((rows.filter fun x => !x.2.1).filter fun x => keyNull x.2.2.1).length }
  refine ⟨t, t.free + v.rows, ?_⟩
  show execSageBuild k slot e s = _
  have hprio' : (j.p 1 == 1) = false := beq_eq_false_iff_ne.mpr hprio
  by_cases hcap : ((s.env e).bank k (j.p 0)).capacity < (buildable rows).length <;>
    simp only [execSageBuild, State.unitRun, hjob, hready, hclean, hprio', hres, hrows, hk, hmode, hbuild, hcap, Bool.not_true, Bool.false_eq_true,
      if_false, bne_self_eq_false, List.append_nil, BEq.rfl, if_true] <;>
    rfl

theorem sageBuild_settles :
    let key := (takeCols (j.ps.drop 5)).1
    ∃ u, exec (.sageBuild k slot e) s = .next u ∧
      (((s.env e).bank k (j.p 0)).capacity < (buildable rows).length → TaskEnded u k slot 0x12) ∧
      ((buildable rows).length ≤ ((s.env e).bank k (j.p 0)).capacity → TaskEnded u k slot 0 ∧ ∀ i x, (buildable rows)[i]? = some x →
        sageLong key x.2.2.1 = false →
        let r : SageRow := { valid := true, prio := j.p 2 % 256, result := x.1, key := sageKey key x.2.2.1 }
        tget {} (u.bank k (j.p 0)).entries i = freshEntry r (some r)) := by
  intro key
  obtain ⟨t, n, hexec⟩ := exec_sageBuild hjob hready hmode hprio hres hrows hclean
  refine ⟨_, hexec, fun hmany => ?_, fun hfit => ?_⟩
  · rw [if_pos hmany]
    exact taskEnded_unitEnd _ _ _ _
  · rw [if_neg (Nat.not_lt.mpr hfit)]
    refine ⟨taskEnded_unitEnd _ _ _ _, fun i x hx hlong => ?_⟩
    intro r
    have hentry : (s.env e).buildEntry j x = freshEntry r (some r) := by rw [State.buildEntry, sageBuildKey_of_fits _ hlong]
    rw [State.unitEnd_bank, State.bank_modBank, ← hentry]
    simpa only [Nat.zero_add] using tget_foldl_tset_zipIdx ((s.env e).buildEntry j) hx 0 _

end build

/-! ### The settlement -/

/-- Settles O47: LOOKUP by how far its rows come, the search of a row by what it finds, SCAN and SAGE_BUILD by what they write; then the pending
copies of a bank at a safe point, the reload and the scrub. -/
theorem sageSearchesScansAndBuilds : Obligations.SageSearchesScansAndBuilds := by
  unfold Obligations.SageSearchesScansAndBuilds
  refine ⟨fun s k slot rs j hjob => ⟨lookup_ends hjob, lookup_goesOn hjob⟩,
    fun s k slot steps parts banks x r p hlive hkey hlong hwait => State.lookupRows_waits hlive hkey hlong hwait,
    fun s k b slot steps parts xs again a hmode ha => lookupRow_stopped_settles hmode rfl ha,
    fun s k b slot steps parts xs hmode hb => ?_,
    fun s k slot rs j hjob hstage => scan_settles rs hjob hstage,
    fun bs x r i hvalid hmode => scanRows_single r i hvalid hmode,
    scanBanks_pairwise,
    fun s k slot e j rows hjob hready hmode hprio hres hrows hclean => sageBuild_settles hjob hready hmode hprio hres hrows hclean,
    fun s k hno => sageEntryWriteApply_none hno,
    fun s k n w hw hconf hkind hfree => sageEntryWriteApply_lands hw hconf hkind hfree,
    fun s k b n m v w hconf => ⟨fun hwait => ?_, fun hfree hw ht => ?_⟩,
    fun s k b hno hfree => ⟨exec_sageBankReconfigApply_none, fun n v hconf hmode hwidth => ?_⟩,
    fun s k b => ⟨sageEntryReloadComplete_none, fun a r ha hr => sageEntryReloadComplete_loads ha hr⟩,
    sageMatchRowScrub_settles⟩
  · obtain ⟨hcells, hcount⟩ := lookupRow_sound (slot := slot) (steps := steps) (parts := parts) (xs := xs) hmode rfl hb
    obtain ⟨hagree, hlen⟩ := (s.bank k b).search_hits_agree (sageKey parts xs) slot steps
    exact ⟨hcells, hcount, hagree, hlen, fun p hp hhits => Sound.first_match hb hp hhits⟩
  · rw [exec_sageBankReconfigApply hconf, State.sageApply_waits hwait]
  · exact ⟨_, exec_sageBankReconfigApply hconf, State.sageApply_pending hfree hw ht⟩
  · obtain ⟨u, hexec, hm, hp, hw, hclear, hkeep⟩ := sageBankReconfigApply_config hno hfree hconf hmode hwidth
    exact ⟨u, hexec, hm, hp, fun _ => hw, hclear, hkeep⟩

end Sys2Proof.Machine
end

section

/-! Proofs about chapter 09 (intake and shuffle): the layer on lanes. What a change of one lane leaves; what settling a lane, writing tiles and
making rows void leave of the lane and of its batch's void rows. -/
namespace Sys2Proof.Machine

/-! ### A lane and its batch after a change of one (R545) -/

@[simp] theorem State.lane_modLane (s : State) (i : Nat) (f : Lane → Lane) : (s.modLane i f).lane i = f (s.lane i) := tget_tmod_same _ _ _ _

theorem State.lane_modLane_ne (s : State) {i j : Nat} (f : Lane → Lane) (h : j ≠ i) : (s.modLane i f).lane j = s.lane j := tget_tmod_ne _ _ _ h

@[simp] theorem State.cstore_modLane (s : State) (i : Nat) (f : Lane → Lane) (k : Nat) : (s.modLane i f).cstore k = s.cstore k := rfl

@[simp] theorem State.lane_setFree (s : State) (x : Nat) : ({ s with free := x } : State).lane = s.lane := rfl

@[simp] theorem State.tally_modLane (s : State) (i : Nat) (f : Lane → Lane) : (s.modLane i f).tally = s.tally := rfl

@[simp] theorem State.voidOf_modLane (s : State) (i : Nat) (f : Lane → Lane) : (s.modLane i f).voidOf = s.voidOf := rfl

@[simp] theorem State.lane_modBatch (s : State) (n b : Nat) (f : Batch → Batch) : (s.modBatch n b f).lane = s.lane := rfl

/-- A change of one batch that keeps batch numbers and a part of the batch keeps that part of every batch. -/
theorem Stream.batch_modBatch_keeps {α : Type} (part : Batch → α) (s : State) (n b : Nat) {f : Batch → Batch} (hnum : ∀ x, (f x).num = x.num)
    (hpart : ∀ x, part (f x) = part x) (m c : Nat) :
    (((s.modBatch n b f).stream m).batch c).map part = ((s.stream m).batch c).map part := by
  by_cases hm : m = n
  · subst hm
    have hput : ∀ x : Batch, (if x.num == b then f x else x).num = x.num := fun x => by split <;> simp [hnum]
    rw [State.modBatch, State.stream_modStream, Stream.batch, Stream.batch, List.find?_map, Option.map_map]
    simp only [Function.comp_def, hput]
    refine congrArg (fun g => Option.map g _) (funext fun x => ?_)
    split <;> simp [hpart]
  · rw [State.modBatch, State.stream_modStream_ne _ _ hm]

/-- The batch that a lane works on is instantiated. -/
theorem State.batch_of_laneBatch {s : State} {i n b : Nat} (h : s.laneBatch i = some (n, b)) : (s.tally n b).2.isSome = true := by
  obtain ⟨c, -, hc⟩ := Option.bind_eq_some_iff.mp h
  split at hc
  · rename_i hany
    cases hc
    cases hx : (s.stream n).batch b with
    | none => simp [hx] at hany
    | some x => simp [State.tally, hx]
  · cases hc

/-! ### What settling a lane leaves (R545) -/

/-- A lane without the batch it is on and its counts of void rows: what making rows void and settling leave alone. -/
def Lane.rest (l : Lane) : Lane :=
  { l with cur := none, voidCorrupt := 0, voidLimit := 0, voidBudget := 0, voidSource := 0, lastReason := 0, lastStream := 0, lastRow := 0 }

/-- What does not show in the batch of a lane and its counts of void rows is the same where the rest of the lane is. -/
theorem Lane.eq_of_rest {α : Type} (part : Lane → α) (hpart : ∀ l : Lane, part l.rest = part l) {l m : Lane} (h : l.rest = m.rest) : part l = part m := by
  rw [← hpart l, h, hpart]

@[simp] theorem Lane.rest_countVoid (l : Lane) (n row reason : Nat) : (l.countVoid n row reason).rest = l.rest := by
  unfold Lane.countVoid
  dsimp only
  split <;> rfl

/-- A lane that settles stays as it is, or leaves its batch, which it has then finished. -/
theorem State.laneSettle_cases (s : State) (i : Nat) : s.laneSettle i = s ∨ ∃ n b, s.laneSettle i =
    (s.modLane i fun l => { l with cur := none }).modBatch n b fun x => { x with intakeDone := withBit x.intakeDone i true } := by
  unfold State.laneSettle
  split
  · dsimp only
    split
    · exact .inr ⟨_, _, rfl⟩
    · exact .inl rfl
  · exact .inl rfl

theorem State.laneSettle_of_todo {s : State} {i : Nat} (h : (s.lane i).todo ≠ []) : s.laneSettle i = s := by
  unfold State.laneSettle
  split
  · simp [List.isEmpty_eq_false_iff.mpr h]
  · rfl

section laneSettle

variable (s : State) (i : Nat)

theorem State.laneSettle_keeps {α : Type} (part : Lane → α) (hpart : ∀ l, part { l with cur := none } = part l) :
    part ((s.laneSettle i).lane i) = part (s.lane i) := by
  obtain h | ⟨n, b, h⟩ := s.laneSettle_cases i
  · rw [h]
  · rw [h, State.lane_modBatch, State.lane_modLane, hpart]

@[simp] theorem State.laneSettle_rest : ((s.laneSettle i).lane i).rest = (s.lane i).rest := s.laneSettle_keeps i Lane.rest fun _ => rfl

@[simp] theorem State.laneSettle_tally (n b : Nat) : (s.laneSettle i).tally n b = s.tally n b := by
  obtain h | ⟨m, c, h⟩ := s.laneSettle_cases i
  · rw [h]
  · rw [h]
    refine Prod.ext rfl (Stream.batch_modBatch_keeps Batch.voids _ m c ?_ ?_ n b) <;> exact fun _ => rfl

@[simp] theorem State.laneSettle_cstore (k : Nat) : (s.laneSettle i).cstore k = s.cstore k := by
  obtain h | ⟨n, b, h⟩ := s.laneSettle_cases i
  · rw [h]
  · rw [h]
    rfl

end laneSettle

/-! ### What writing tiles leaves (R114, R290, R304) -/

/-- The lanes, and what is void of batch `b` of stream `n`. -/
def State.laneTally (s : State) (n b : Nat) : (Nat → Lane) × Tab Units × Option (Tab Nat) := (s.lane, s.tally n b)

section writes

variable (s : State) (n b : Nat)

theorem State.voidRow_lane (row : Nat) (c : ColAt) : (s.voidRow n b row c).lane = s.lane :=
  State.voidRow_keeps State.lane (fun _ _ => rfl) (fun _ _ _ _ => rfl) s n b row (c := c) rfl

theorem State.noteCols_lane (cs : List ColAt) : (s.noteCols n b cs).lane = s.lane := by
  refine ite_keeps State.lane rfl (List.foldlRecOn (motive := fun t : State => t.lane = s.lane) _ _ rfl fun t ht c _ => ?_)
  exact List.foldlRecOn (motive := fun t : State => t.lane = s.lane) _ _ ht fun t ht r _ => (t.voidRow_lane n b r c).trans ht

theorem State.markVoid_lane (row reason : Nat) : (s.markVoid n b row reason).lane = s.lane :=
  ite_keeps State.lane rfl (List.foldlRecOn (motive := fun t : State => t.lane = s.lane) _ _ rfl fun t ht c _ => (t.voidRow_lane n b row c).trans ht)

theorem State.laneTally_mark (k slot : Nat) (ms : List Mark) : (s.mark n (some b) k slot ms).laneTally n b = s.laneTally n b :=
  Prod.ext (State.mark_keeps State.lane (fun _ _ _ _ => rfl) s n (some b) k slot ms) (s.tally_mark n b k slot ms)

theorem State.laneTally_noteCols (cs : List ColAt) : (s.noteCols n b cs).laneTally n b = s.laneTally n b :=
  Prod.ext (s.noteCols_lane n b cs) (s.tally_noteCols n b cs)

theorem State.laneTally_putRowsIn (k : Nat) (c : ColW) (first count : Nat) (rows : List (Nat × Cell)) :
    (s.putRowsIn k c first count rows).laneTally n b = s.laneTally n b :=
  State.putRowsIn_keeps (·.laneTally n b) (fun _ _ => rfl) s c first count rows

theorem State.laneTally_putElems (k : Nat) (c : ColW) (i : Nat) (xs : List (Bool × Nat)) : (s.putElems k c i xs).laneTally n b = s.laneTally n b :=
  State.putElems_keeps (·.laneTally n b) (fun _ _ => rfl) s c i xs

theorem State.laneTally_putDest (d : Dest) (rows : List RowOut) : (s.putDest n b d rows).2.laneTally n b = s.laneTally n b := by
  unfold State.putDest
  split
  · rfl
  · refine List.foldlRecOn (motive := fun a : Nat × State => a.2.laneTally n b = s.laneTally n b) _ _ rfl fun a ha p _ => ?_
    dsimp only
    split
    · exact ha
    · exact (State.laneTally_mark _ n b _ _ _).trans ((State.laneTally_putRowsIn _ n b _ _ _ _ _).trans ha)

theorem State.laneTally_putTokens (d : TokDecl) (dst : Dest) (slot : Nat) (ids : Option (List Nat)) (cut void_ : Bool) :
    (s.putTokens n b d dst slot ids cut void_).laneTally n b = s.laneTally n b := by
  unfold State.putTokens
  split
  · rfl
  · refine ite_keeps (·.laneTally n b) rfl ?_
    dsimp only
    refine (State.laneTally_putRowsIn _ n b _ _ _ _ _).trans ((State.laneTally_putRowsIn _ n b _ _ _ _ _).trans ?_)
    refine (ite_keeps (·.laneTally n b) (State.laneTally_putElems _ n b _ _ _ _) (State.laneTally_putRowsIn _ n b _ _ _ _ _)).trans ?_
    iterate 3 refine (State.laneTally_mark _ n b _ _ _).trans ?_
    exact s.laneTally_noteCols n b _

theorem State.putTokens_lane (d : TokDecl) (dst : Dest) (slot : Nat) (ids : Option (List Nat)) (cut void_ : Bool) :
    (s.putTokens n b d dst slot ids cut void_).lane = s.lane :=
  congrArg Prod.fst (s.laneTally_putTokens n b d dst slot ids cut void_)

theorem State.laneTally_putImage (d : PrepDecl) (dst : Dest) (slot : Nat) (valid : Bool) (codes : List Nat × List Nat) (pads : List Bool) :
    (s.putImage n b d dst slot valid codes pads).laneTally n b = s.laneTally n b := by
  unfold State.putImage
  split
  · rfl
  · refine ite_keeps (·.laneTally n b) rfl ?_
    dsimp only
    refine ite_keeps (·.laneTally n b) ?_ ((State.laneTally_putElems _ n b _ _ _ _).trans ?_) <;>
      exact (State.laneTally_putElems _ n b _ _ _ _).trans ((State.laneTally_mark _ n b _ _ _).trans (s.laneTally_noteCols n b _))

theorem State.putImage_lane (d : PrepDecl) (dst : Dest) (slot : Nat) (valid : Bool) (codes : List Nat × List Nat) (pads : List Bool) :
    (s.putImage n b d dst slot valid codes pads).lane = s.lane :=
  congrArg Prod.fst (s.laneTally_putImage n b d dst slot valid codes pads)

end writes

/-! ### Rows that a lane makes void (R117, R274) -/

theorem State.voidOf_congr {s t : State} {n b : Nat} (h : t.tally n b = s.tally n b) (row : Nat) : t.voidOf n (some b) row = s.voidOf n (some b) row := by
  rw [State.voidOf_eq_tally, State.voidOf_eq_tally, h]

section laneVoid

variable (s : State) (g : Graph) (i n b : Nat) (reason : Nat)

theorem State.laneVoid_rest (slot : Nat) : ((s.laneVoid g i n b slot reason).lane i).rest = (s.lane i).rest := by
  unfold State.laneVoid
  split
  · rfl
  · rw [State.lane_modLane, Lane.rest_countVoid, State.markVoid_lane]

theorem State.laneVoid_isSome (slot : Nat) : ((s.laneVoid g i n b slot reason).tally n b).2.isSome = (s.tally n b).2.isSome := by
  unfold State.laneVoid
  split
  · rfl
  · exact (StaysVoid.markVoid s n b slot reason).isSome

variable {s n b}

/-- A lane gives its reason to the row that it makes void, unless that row is void already. -/
theorem State.voidOf_laneVoid (hb : (s.tally n b).2.isSome = true) (slot row : Nat) : (s.laneVoid g i n b slot reason).voidOf n (some b) row =
    if row = slot ∧ s.voidOf n (some b) row = 0 then reason else s.voidOf n (some b) row := by
  unfold State.laneVoid
  by_cases h0 : s.voidOf n (some b) slot = 0
  · obtain ⟨v, hv⟩ := Option.isSome_iff_exists.mp hb
    rw [if_neg (by simp [h0])]
    show (s.markVoid n b slot reason).voidOf n (some b) row = _
    rw [State.voidOf_eq_tally, s.tally_markVoid n b h0, hv, State.voidOf_eq_tally, hv]
    by_cases hr : row = slot
    · subst hr
      rw [State.voidOf_eq_tally, hv] at h0
      simpa using fun h => absurd h0 h
    · simp [hr, tget_tset_ne 0 reason v hr]
  · rw [if_pos (by simp [h0]), if_neg]
    rintro ⟨rfl, h⟩
    exact h0 h

theorem State.foldl_laneVoid_rest (rows : List Nat) (s : State) :
    ((rows.foldl (fun t r => t.laneVoid g i n b r reason) s).lane i).rest = (s.lane i).rest :=
  List.foldlRecOn (motive := fun t : State => (t.lane i).rest = (s.lane i).rest) _ _ rfl fun t ht r _ => (t.laneVoid_rest g i n b reason r).trans ht

theorem State.voidOf_foldl_laneVoid (row : Nat) : ∀ (rows : List Nat) (s : State), (s.tally n b).2.isSome = true →
    (rows.foldl (fun t r => t.laneVoid g i n b r reason) s).voidOf n (some b) row =
      if row ∈ rows ∧ s.voidOf n (some b) row = 0 then reason else s.voidOf n (some b) row
  | [], s, _ => by simp
  | x :: xs, s, hb => by
    rw [List.foldl_cons, State.voidOf_foldl_laneVoid row xs _ (by rwa [State.laneVoid_isSome]), State.voidOf_laneVoid g i reason hb]
    by_cases h0 : s.voidOf n (some b) row = 0
    · obtain rfl | hx := eq_or_ne row x
      · simp [h0]
      · simp [h0, hx]
    · simp [h0]

end laneVoid

end Sys2Proof.Machine
end

section

/-! Proofs about chapter 09 (intake and shuffle): the Feistel network, shuffled slots, stalls, and how a lane begins a batch (R279, R280, R284, R545). -/
namespace Sys2Proof.Machine

/-! ### The Feistel network (R279) -/

/-- A round of the network: the halves change places, and the one that moves right takes the round function of the other. -/
def feistelRound (h : Nat) (a : Nat × Nat) (k : Nat) : Nat × Nat := (a.2, a.1 ^^^ rf k a.2 h)

theorem feistel_eq (x h : Nat) (rk : List Nat) : feistel x h rk =
    (rk.foldl (feistelRound h) (x / 2 ^ h, x % 2 ^ h)).1 * 2 ^ h + (rk.foldl (feistelRound h) (x / 2 ^ h, x % 2 ^ h)).2 := rfl

theorem rf_lt (key x : Nat) {h : Nat} (hh : h ≤ 64) : rf key x h < 2 ^ h := by
  have hfold : ∀ v : Nat, v % 2 ^ 64 ^^^ v % 2 ^ 64 / 2 ^ 29 < 2 ^ 64 := fun v =>
    Nat.xor_lt_two_pow (Nat.mod_lt _ (by norm_num)) ((Nat.div_le_self _ _).trans_lt (Nat.mod_lt _ (by norm_num)))
  refine Nat.div_lt_of_lt_mul ?_
  rw [← pow_add, Nat.sub_add_cancel hh]
  exact hfold _

theorem foldl_feistelRound_lt {h : Nat} (hh : h ≤ 64) (rk : List Nat) {a : Nat × Nat} (ha : a.1 < 2 ^ h ∧ a.2 < 2 ^ h) :
    (rk.foldl (feistelRound h) a).1 < 2 ^ h ∧ (rk.foldl (feistelRound h) a).2 < 2 ^ h :=
  List.foldlRecOn (motive := fun a : Nat × Nat => a.1 < 2 ^ h ∧ a.2 < 2 ^ h) _ _ ha fun _ ha k _ => ⟨ha.2, Nat.xor_lt_two_pow ha.1 (rf_lt k _ hh)⟩

theorem feistelRound_injective (h k : Nat) : Function.Injective fun a => feistelRound h a k := by
  rintro ⟨a, b⟩ ⟨c, d⟩ heq
  obtain ⟨rfl, hxor⟩ := Prod.mk.inj heq
  exact Prod.ext (Nat.xor_left_injective hxor) rfl

theorem foldl_feistelRound_injective (h : Nat) (rk : List Nat) : Function.Injective (rk.foldl (feistelRound h)) := by
  induction rk with
  | nil => exact Function.injective_id
  | cons k ks ih => exact ih.comp (feistelRound_injective h k)

theorem halves_lt {x h : Nat} (hx : x < 4 ^ h) : x / 2 ^ h < 2 ^ h ∧ x % 2 ^ h < 2 ^ h := by
  refine ⟨Nat.div_lt_of_lt_mul ?_, Nat.mod_lt _ (by positivity)⟩
  rwa [← mul_pow]

theorem feistel_lt {x h : Nat} (rk : List Nat) (hh : h ≤ 64) (hx : x < 4 ^ h) : feistel x h rk < 4 ^ h := by
  obtain ⟨hl, hr⟩ := foldl_feistelRound_lt (a := (x / 2 ^ h, x % 2 ^ h)) hh rk (halves_lt hx)
  rw [feistel_eq]
  calc _ < ((rk.foldl (feistelRound h) (x / 2 ^ h, x % 2 ^ h)).1 + 1) * 2 ^ h := by rw [Nat.succ_mul]; exact Nat.add_lt_add_left hr _
    _ ≤ 2 ^ h * 2 ^ h := Nat.mul_le_mul_right _ hl
    _ = 4 ^ h := (mul_pow 2 2 h).symm

theorem feistel_inj {x y h : Nat} {rk : List Nat} (hh : h ≤ 64) (hx : x < 4 ^ h) (hy : y < 4 ^ h) (heq : feistel x h rk = feistel y h rk) : x = y := by
  obtain ⟨-, hxr⟩ := foldl_feistelRound_lt (a := (x / 2 ^ h, x % 2 ^ h)) hh rk (halves_lt hx)
  obtain ⟨-, hyr⟩ := foldl_feistelRound_lt (a := (y / 2 ^ h, y % 2 ^ h)) hh rk (halves_lt hy)
  have hjoin : ∀ {a b : Nat}, b < 2 ^ h → (a * 2 ^ h + b) / 2 ^ h = a ∧ (a * 2 ^ h + b) % 2 ^ h = b := fun {a b} hb =>
    ⟨by rw [Nat.mul_comm, Nat.mul_add_div (by positivity), Nat.div_eq_of_lt hb, Nat.add_zero], by rw [Nat.mul_add_mod_self_right, Nat.mod_eq_of_lt hb]⟩
  rw [feistel_eq, feistel_eq] at heq
  have hhalves : (x / 2 ^ h, x % 2 ^ h) = (y / 2 ^ h, y % 2 ^ h) := foldl_feistelRound_injective h rk
    (Prod.ext ((hjoin hxr).1.symm.trans ((congrArg (· / 2 ^ h) heq).trans (hjoin hyr).1))
      ((hjoin hxr).2.symm.trans ((congrArg (· % 2 ^ h) heq).trans (hjoin hyr).2)))
  obtain ⟨hdiv, hmod⟩ := Prod.mk.inj hhalves
  rw [← Nat.div_add_mod x (2 ^ h), ← Nat.div_add_mod y (2 ^ h), hdiv, hmod]

/-! ### Stalls (R284) -/

section noteStalls

variable (s : State) (i : Nat)

theorem State.noteStalls_keeps {α : Type} (part : State → α) (hlane : ∀ (t : State) f, part (t.modLane i f) = part t) : part (s.noteStalls i) = part s :=
  ite_keeps part rfl (hlane s _)

@[simp] theorem State.noteStalls_graph : (s.noteStalls i).work.graph = s.work.graph := s.noteStalls_keeps i (·.work.graph) fun _ _ => rfl

@[simp] theorem State.noteStalls_stream : (s.noteStalls i).stream = s.stream := s.noteStalls_keeps i State.stream fun _ _ => rfl

@[simp] theorem State.noteStalls_pos : (s.noteStalls i).pos = s.pos := s.noteStalls_keeps i State.pos fun _ _ => rfl

@[simp] theorem State.noteStalls_laneNo (g : Graph) (m : Nat) : (s.noteStalls i).laneNo g m = s.laneNo g m :=
  s.noteStalls_keeps i (·.laneNo g m) fun _ _ => rfl

@[simp] theorem State.noteStalls_laneWorks (m : Nat) : (s.noteStalls i).laneWorks m = s.laneWorks m :=
  s.noteStalls_keeps i (·.laneWorks m) fun _ _ => rfl

@[simp] theorem State.noteStalls_allInst (n b : Nat) : (s.noteStalls i).allInst n b = s.allInst n b :=
  s.noteStalls_keeps i (·.allInst n b) fun _ _ => rfl

@[simp] theorem State.noteStalls_isNextFor (m n b start : Nat) : (s.noteStalls i).isNextFor m n b start = s.isNextFor m n b start :=
  s.noteStalls_keeps i (·.isNextFor m n b start) fun _ _ => rfl

@[simp] theorem State.noteStalls_pwr : (s.noteStalls i).pwr = s.pwr := s.noteStalls_keeps i State.pwr fun _ _ => rfl

/-- A lane that notes its stalls takes the new ones into its list and, where there are any, into its count. -/
theorem State.noteStalls_lane : (s.noteStalls i).lane i = { s.lane i with
    stalls := (s.lane i).stalls ++ s.newStalls i, shufStall := if s.newStalls i = [] then (s.lane i).shufStall else s.stallCount i } := by
  unfold State.noteStalls
  by_cases h : s.newStalls i = []
  · simp [h]
  · simp [h]

theorem State.noteStalls_lane_ne {m : Nat} (hm : m ≠ i) : (s.noteStalls i).lane m = s.lane m :=
  ite_keeps (fun t => t.lane m) rfl (s.lane_modLane_ne _ hm)

/-- Every stall of a lane is counted once it is noted. -/
theorem State.mem_stalls_noteStalls {p : Nat × Nat} (hp : p ∈ s.laneStalls i) : p ∈ ((s.noteStalls i).lane i).stalls := by
  rw [State.noteStalls_lane, List.mem_append]
  by_cases hold : p ∈ (s.lane i).stalls
  · exact .inl hold
  · exact .inr (List.mem_filter.mpr ⟨hp, by simpa using hold⟩)

@[simp] theorem State.noteStalls_shuffled : ((s.noteStalls i).lane i).shuffled = (s.lane i).shuffled := by rw [State.noteStalls_lane]

@[simp] theorem State.noteStalls_laneBatch : (s.noteStalls i).laneBatch i = s.laneBatch i := by
  rw [State.laneBatch, State.laneBatch, State.noteStalls_lane, State.noteStalls_stream]

end noteStalls

/-! ### Shuffled slots (R279, R280, R284) -/

section shuffle

variable {s : State} {g : Graph} {i : Fin 8} {n : Fin 64} {b j : Nat} (hg : s.work.graph = some g) (hj : s.laneNo g i = some j)
  (hworks : s.laneWorks i = true) (hopen : (s.stream n).phase = .open_) (hnew : (s.lane i).shuffled.contains (n.val, b) = false)
include hg hj hworks hopen hnew

/-- The slots of a batch within the window of 16 are computed and counted; for any other batch only stalls are noted. -/
theorem exec_shuffleSlotsComputed : ∃ steps, exec (.shuffleSlotsComputed i n b) s = .next (
    if b < (s.stream n).released ∨ (s.stream n).released + 16 < b then s.noteStalls i
    else (s.noteStalls i).modLane i fun l => { l with
      shufSteps := (l.shufSteps + steps) % 2 ^ 64
      stalls := l.stalls.filter fun p => !(p.1 == n.val && decide (p.2 < (s.stream n).released))
      shuffled := (l.shuffled.filter fun p => !(p.1 == n.val && decide (p.2 < (s.stream n).released))) ++ [(n.val, b)] }) := by
  show ∃ steps, execShuffleSlotsComputed i n b s = _
  simp only [execShuffleSlotsComputed, State.noteStalls_graph, State.noteStalls_laneNo, State.noteStalls_laneWorks, State.noteStalls_stream,
    State.noteStalls_shuffled, hg, hj, hworks, hopen, hnew, Bool.not_true, Bool.false_or, Bool.or_false, bne_self_eq_false, Bool.false_and, Bool.or_eq_true, decide_eq_true_eq]
  exact ⟨_, rfl⟩

theorem shuffleSlotsComputed_settles :
    (b < (s.stream n).released ∨ (s.stream n).released + 16 < b → exec (.shuffleSlotsComputed i n b) s = .next (s.noteStalls i)) ∧
    ((s.stream n).released ≤ b → b ≤ (s.stream n).released + 16 → ∃ u, exec (.shuffleSlotsComputed i n b) s = .next u ∧
      (n.val, b) ∈ (u.lane i).shuffled ∧ (u.lane i).shufStall = ((s.noteStalls i).lane i).shufStall ∧ ∀ m, m ≠ i.val → u.lane m = s.lane m) := by
  obtain ⟨steps, hexec⟩ := exec_shuffleSlotsComputed hg hj hworks hopen hnew
  refine ⟨fun hout => by rw [hexec, if_pos hout], fun hlo hhi => ⟨_, hexec, ?_⟩⟩
  rw [if_neg (by omega)]
  refine ⟨?_, ?_, fun m hm => ?_⟩
  · simp
  · simp
  · rw [State.lane_modLane_ne _ _ hm, State.noteStalls_lane_ne _ _ hm]

end shuffle

/-! ### A lane begins a batch (R275, R276, R545) -/

/-- A lane that takes a batch owes its slots and has nothing of the batch yet. -/
theorem State.laneTake_lane (s : State) (g : Graph) (i j n b im tx : Nat) : let l := (s.laneTake g i j n b im tx).lane i
    l.cur = some (n, b) ∧ l.todo = laneSlots g.cfg.intake j (((g.cadence n).map fun c => c.rows).getD 0) ∧ l.raw = [] ∧
      l.image = { total := im } ∧ l.text = { total := tx } := by
  unfold State.laneTake
  simp only [State.lane_modBatch, State.lane_modLane, and_self]

section laneBegins

variable {s : State} {g : Graph} {i : Fin 8} {n : Fin 64} {b j : Nat} {x : Batch} (im tx : Nat) (hg : s.work.graph = some g)
  (hx : (s.stream n).batch b = some x) (hj : s.laneNo g i = some j)
include hg hx hj

theorem exec_intakeBatchBegin_waits (hwait : s.pos < x.start ∨ (s.lane i).shuffled.contains (n.val, b) = false) :
    exec (.intakeBatchBegin i n b im tx) s = .next (s.noteStalls i) := by
  show execIntakeBatchBegin i n b im tx s = _
  simp only [execIntakeBatchBegin, State.noteStalls_graph, State.noteStalls_stream, State.noteStalls_laneNo, State.noteStalls_pos, State.noteStalls_shuffled, hg, hx, hj]
  refine congrArg Host.Outcome.next ?_
  split
  · rfl
  · rename_i hgo
    obtain hstart | hshuf := hwait
    · simp [Nat.not_le.mpr hstart] at hgo
    · rw [if_neg (by rw [hshuf]; decide)]

theorem exec_intakeBatchBegin_begins (hmay : LaneMayBegin s i n b x) (hshuf : (s.lane i).shuffled.contains (n.val, b) = true) :
    exec (.intakeBatchBegin i n b im tx) s = .next (((s.noteStalls i).laneTake g i j n b im tx).laneSettle i) := by
  obtain ⟨hworks, hall, hstart, hnew, hfree, hnext, hstop, hreq⟩ := hmay
  show execIntakeBatchBegin i n b im tx s = _
  simp [execIntakeBatchBegin, hg, hx, hj, hworks, hall, hstart, hnew, hfree, hnext, hstop, hreq, hshuf, -List.contains_eq_mem]

theorem intakeBatchBegin_begins {c : Cadence} (hc : s.cadence n = some c) (hmay : LaneMayBegin s i n b x)
    (hshuf : (s.lane i).shuffled.contains (n.val, b) = true) (hslots : laneSlots g.cfg.intake j c.rows ≠ []) :
    ∃ u, exec (.intakeBatchBegin i n b im tx) s = .next u ∧ (u.lane i).cur = some (n.val, b) ∧ (u.lane i).todo = laneSlots g.cfg.intake j c.rows ∧
      (u.lane i).raw = [] ∧ (u.lane i).image = { total := im } ∧ (u.lane i).text = { total := tx } := by
  have hrows : ((g.cadence n).map fun c => c.rows).getD 0 = c.rows := by
    rw [State.cadence, hg] at hc
    rw [show g.cadence n = some c from hc]
    rfl
  have htake := (s.noteStalls i).laneTake_lane g i j n b im tx
  rw [hrows] at htake
  refine ⟨_, exec_intakeBatchBegin_begins im tx hg hx hj hmay hshuf, ?_⟩
  rwa [State.laneSettle_of_todo (by rw [htake.2.1]; exact hslots)]

end laneBegins

end Sys2Proof.Machine
end

section

/-! Proofs about chapter 09 (intake and shuffle): fetches, headers and decoded pages (R270 to R272, R274, R275). First what reading memory leaves
where words may be poisoned. -/
namespace Sys2Proof.Machine

/-! ### Reads of memory that may be poisoned (R366, R467, R473) -/

/-- What reads leave of the work: all of it but the pause that a detected error calls for, unless the module has FAILED, which is for good. -/
structure ReadsLeave (s t : State) : Prop where
  failed : s.err.state = 2 → t.err.state = 2
  work : t.err.state = 2 ∨ ∃ c, t.work = { s.work with trc := c }

namespace ReadsLeave

variable {s t u : State}

theorem of_work (herr : t.err = s.err) (hwork : t.work = s.work) : ReadsLeave s t := ⟨fun h => by rwa [herr], .inr ⟨s.work.trc, hwork⟩⟩

theorem trans (h : ReadsLeave s t) (h' : ReadsLeave t u) : ReadsLeave s u := by
  refine ⟨fun hs => h'.failed (h.failed hs), ?_⟩
  obtain hu | ⟨c', hu⟩ := h'.work
  · exact .inl hu
  · obtain ht | ⟨c, ht⟩ := h.work
    · exact .inl (h'.failed ht)
    · exact .inr ⟨c', by rw [hu, ht]⟩

theorem foldl {β : Type} {f : State → β → State} (hf : ∀ t x, ReadsLeave t (f t x)) (l : List β) (s : State) : ReadsLeave s (l.foldl f s) :=
  List.foldlRecOn (motive := ReadsLeave s) l f (of_work rfl rfl) fun t ht x _ => ht.trans (hf t x)

end ReadsLeave

theorem State.setOutcome_errState (s : State) (num : Nat) (f : ErrRec → ErrRec) : (s.setOutcome num f).err.state = s.err.state := by
  unfold State.setOutcome
  split
  · rfl
  · exact ite_keeps (·.err.state) rfl rfl

theorem State.enterFailed_errState (s : State) (num : Nat) : (s.enterFailed num).err.state = 2 := by
  unfold State.enterFailed
  split
  · rename_i h
    simpa using h
  · dsimp only
    split_ifs <;> simp [State.setOutcome_errState]

theorem State.detectError_readsLeave (s : State) (kind index cause detail : Nat) (injected : Bool) :
    ReadsLeave s (s.detectError kind index cause detail injected) := by
  unfold State.detectError
  split
  · exact .of_work rfl rfl
  · rename_i hlive
    refine ⟨fun h => absurd (by simp [h]) hlive, ?_⟩
    dsimp only
    split
    · exact .inl (State.enterFailed_errState _ _)
    · exact .inr ⟨{ s.work.trc with paused := true }, by split <;> simp⟩

theorem State.countHbm_readsLeave (s : State) (wr : Bool) (a n : Nat) : ReadsLeave s (s.countHbm wr a n) := by
  unfold State.countHbm
  refine .foldl (fun _ _ => ?_) _ s
  exact .of_work rfl rfl

theorem State.eccWords_readsLeave (s : State) (p : Nat → Bool) : ReadsLeave s (s.eccWords p).2 := by
  refine List.foldlRecOn (motive := fun r : Bool × State => ReadsLeave s r.2) _ _ (.of_work rfl rfl) fun r hr w _ => hr.trans ?_
  dsimp only
  split
  · exact .of_work rfl rfl
  · exact .trans (t := r.2.modHbmCtl _ _) (.of_work rfl rfl) (State.detectError_readsLeave _ _ _ _ _ _)
  · exact .of_work rfl rfl

theorem State.readEffect_readsLeave (s : State) (sp : Space) (a n : Nat) : ReadsLeave s (s.readEffect sp a n) := by
  cases sp with
  | bus => exact .of_work rfl rfl
  | hbm =>
    rw [State.readEffect]
    split
    · exact (s.eccWords_readsLeave _).trans (State.countHbm_readsLeave _ _ _ _)
    · exact .of_work rfl rfl

/-- A lane that still runs after reads finds the work as it was. -/
theorem ReadsLeave.work_of_laneRuns {s t : State} {i : Nat} (h : ReadsLeave s t) (hruns : t.laneRuns i = true) : ∃ c, t.work = { s.work with trc := c } := by
  refine h.work.resolve_left fun hfail => ?_
  simp [State.laneRuns, hfail] at hruns

/-! ### A lane on its batch -/

section onBatch

variable {s : State} {g : Graph} {i n b : Nat} (hon : LaneOnBatch s g i n b)
include hon

theorem laneOn_of_onBatch : s.laneOn g i n (.batch b) = true := by
  obtain ⟨-, hbatch, hruns⟩ := hon
  simp [State.laneOn, hbatch, hruns]

theorem isSome_of_onBatch : (s.tally n b).2.isSome = true := State.batch_of_laneBatch hon.2.1

/-- A lane stays on its batch while what changes of it is not the batch that it is on. -/
theorem onBatch_modLane {f : Lane → Lane} (hcur : (f (s.lane i)).cur = (s.lane i).cur) : LaneOnBatch (s.modLane i f) g i n b := by
  obtain ⟨hg, hbatch, hruns⟩ := hon
  refine ⟨hg, ?_, hruns⟩
  rw [State.laneBatch, State.lane_modLane, hcur]
  exact hbatch

theorem laneRows_of_onBatch (rows : List Nat) : s.laneRows g i n (.batch b) rows = (s.lane i).todo.filter fun r => rows.contains r := by
  simp [State.laneRows, laneOn_of_onBatch hon]

end onBatch

/-! ### Units whose rows become void (R270, R272, R274) -/

section voidUnit

variable {s : State} {g : Graph} {i n b : Nat} (hon : LaneOnBatch s g i n b) (reason : Nat) (x : UnitRows)
include hon

/-- The rows of the unit that the lane owes leave its list, and the units that it has refused stay refused. -/
theorem State.voidUnit_lane : ((s.voidUnit g i n reason (.batch b) x).lane i).refused = (s.lane i).refused ∧
    ((s.voidUnit g i n reason (.batch b) x).lane i).todo =
      (s.lane i).todo.filter fun r => !((s.lane i).todo.filter fun r => x.rows.contains r).contains r := by
  have hvoids : (((s.noteDests n (.batch b) x.dests).laneVoids g i n reason (.batch b) (s.laneRows g i n (.batch b) x.rows)).lane i).rest = (s.lane i).rest :=
    (State.foldl_laneVoid_rest g i reason _ _).trans (congrArg (fun l => (l i).rest) (s.noteCols_lane n b _))
  simp only [State.voidUnit, laneRows_of_onBatch hon] at hvoids ⊢
  generalize (s.noteDests n (.batch b) x.dests).laneVoids g i n reason (.batch b) ((s.lane i).todo.filter fun r => x.rows.contains r) = t at hvoids ⊢
  have hsettle := State.laneSettle_rest (t.laneDid i (.batch b) ((s.lane i).todo.filter fun r => x.rows.contains r)) i
  rw [State.laneDid, State.lane_modLane] at hsettle
  have htodo : (t.lane i).todo = (s.lane i).todo := Lane.eq_of_rest Lane.todo (fun _ => rfl) hvoids
  have href : (t.lane i).refused = (s.lane i).refused := Lane.eq_of_rest Lane.refused (fun _ => rfl) hvoids
  refine ⟨(Lane.eq_of_rest Lane.refused (fun _ => rfl) hsettle).trans href, (Lane.eq_of_rest Lane.todo (fun _ => rfl) hsettle).trans ?_⟩
  exact congrArg (List.filter fun r => !((s.lane i).todo.filter fun r => x.rows.contains r).contains r) htodo

theorem State.voidUnit_voids {r : Nat} (hr : r ∈ x.rows) (howed : r ∈ (s.lane i).todo) (h0 : s.voidOf n (some b) r = 0) :
    VoidedBy (s.voidUnit g i n reason (.batch b) x) i n b r reason := by
  have hnote : (s.noteDests n (.batch b) x.dests).tally n b = s.tally n b := s.tally_noteCols n b _
  constructor
  · refine (State.voidOf_congr (State.laneSettle_tally _ i n b) r).trans ?_
    show ((s.laneRows g i n (.batch b) x.rows).foldl (fun t r => t.laneVoid g i n b r reason) (s.noteDests n (.batch b) x.dests)).voidOf n (some b) r = reason
    rw [State.voidOf_foldl_laneVoid g i reason r _ _ (by rw [hnote]; exact isSome_of_onBatch hon), State.voidOf_congr hnote,
      laneRows_of_onBatch hon]
    exact if_pos ⟨by simp [hr, howed], h0⟩
  · rw [(State.voidUnit_lane hon reason x).2]
    simp [hr, howed]

end voidUnit

/-! ### Fetches (R102, R270, R272, R545) -/

section fetch

variable {s : State} {g : Graph} {i : Fin 8} {n : Fin 64} {b off len : Nat} {x : UnitRows} {e : BusEnv} (hon : LaneOnBatch (s.env e) g i n b)
include hon

theorem exec_intakeFetchComplete_closed (hclosed : (s.env e).fetchOpen i n (.batch b) off len x = false) :
    exec (.intakeFetchComplete i n (.batch b) off len x e) s = .next (s.env e) := by
  have hg : s.work.graph = some g := hon.1
  show execIntakeFetchComplete i n (.batch b) off len x e s = _
  simp [execIntakeFetchComplete, hg, laneOn_of_onBatch hon, hclosed]

variable (hd0 : (s.env e).inD0 = true) (hheld : (s.env e).memHeld (extPieces ((s.env e).laneExts e g n (.batch b)) off len) = false)
  (hopen : (s.env e).fetchOpen i n (.batch b) off len x = true)
include hd0 hheld hopen

/-- What a fetch comes to that may be made: its bytes are counted, or the rows that it covers become void. -/
theorem exec_intakeFetchComplete_open :
    let exts := (s.env e).laneExts e g n (.batch b)
    let t := ((extPieces exts off len).foldl (fun t p => t.readEffect p.1 p.2.1 p.2.2) (s.env e)).modLane i fun l =>
      { l with fetchSlot := max l.fetchSlot (x.rows.foldl min (x.rows.headD 0)) }
    exec (.intakeFetchComplete i n (.batch b) off len x e) s = .next (
      if (extRead ((s.env e).peek e) exts off len).isSome then t.modLane i fun l => { l with bytesIn := (l.bytesIn + len) % 2 ^ 64 }
      else t.voidUnit g i n 4 (.batch b) x) := by
  have hg : s.work.graph = some g := hon.1
  intro exts t
  show execIntakeFetchComplete i n (.batch b) off len x e s = _
  simp only [execIntakeFetchComplete, State.env_work, hg, laneOn_of_onBatch hon, hd0, hheld, hopen, Bool.not_true, Bool.false_and, Bool.or_self,
    Bool.false_eq_true, if_false]
  rfl

theorem intakeFetchComplete_settles :
    let s0 := s.env e
    let t := (extPieces (s0.laneExts e g n (.batch b)) off len).foldl (fun t p => t.readEffect p.1 p.2.1 p.2.2) s0
    let ok := (extRead (s0.peek e) (s0.laneExts e g n (.batch b)) off len).isSome
    t.laneRuns i = true →
      (ok = true → ∃ u, exec (.intakeFetchComplete i n (.batch b) off len x e) s = .next u ∧ (u.lane i).bytesIn = ((s0.lane i).bytesIn + len) % 2 ^ 64 ∧
        (u.lane i).todo = (s0.lane i).todo ∧ (u.lane i).fetchSlot = max (s0.lane i).fetchSlot (x.rows.foldl min (x.rows.headD 0))) ∧
      (ok = false → ∃ u, exec (.intakeFetchComplete i n (.batch b) off len x e) s = .next u ∧
        ∀ r ∈ x.rows, r ∈ (s0.lane i).todo → s0.voidOf n (some b) r = 0 → VoidedBy u i n b r 4) := by
  intro s0 t ok hruns
  obtain ⟨c, hwork⟩ := (ReadsLeave.foldl (fun t (p : Space × Nat × Nat) => t.readEffect_readsLeave p.1 p.2.1 p.2.2) _ s0).work_of_laneRuns hruns
  have hlane : t.lane = s0.lane := funext fun m => by rw [State.lane, hwork, State.lane]
  have hstream : t.stream = s0.stream := funext fun m => by rw [State.stream, hwork, State.stream]
  have hont : LaneOnBatch t g i n b := by
    refine ⟨by rw [hwork]; exact hon.1, ?_, hruns⟩
    rw [State.laneBatch, hlane, hstream]
    exact hon.2.1
  have hexec := exec_intakeFetchComplete_open hon hd0 hheld hopen
  refine ⟨fun hok => ⟨_, hexec, ?_⟩, fun hbad => ⟨_, hexec, fun r hr howed h0 => ?_⟩⟩
  · rw [if_pos hok]
    refine ⟨?_, ?_, ?_⟩ <;> simp only [State.lane_modLane]
    · exact congrArg (fun l : Lane => (l.bytesIn + len) % 2 ^ 64) (congrFun hlane i)
    · exact congrArg Lane.todo (congrFun hlane i)
    · exact congrArg (fun l : Lane => max l.fetchSlot (x.rows.foldl min (x.rows.headD 0))) (congrFun hlane i)
  · rw [if_neg (by rw [show (extRead _ _ off len).isSome = false from hbad]; decide)]
    refine State.voidUnit_voids (onBatch_modLane hont rfl) 4 x hr ?_ ?_
    · rw [State.lane_modLane, hlane]
      exact howed
    · show (((t.stream n).batch b).map fun x => tget 0 x.voids r).getD 0 = 0
      rw [hstream]
      exact h0

end fetch

/-- No byte of a unit whose header declared too much is read. -/
theorem State.fetchOpen_refused {s : State} {i n off len a z : Nat} {into : Into} (x : UnitRows) (hlo : a < off + len) (hhi : off < a + z)
    (href : (n, into, a, z) ∈ (s.lane i).refused) : s.fetchOpen i n into off len x = false := by
  have hhit : (s.lane i).refused.any (unitHit n into off len) = true := List.any_eq_true.mpr ⟨_, href, by simp [unitHit, hlo, hhi]⟩
  simp [State.fetchOpen, hhit]

/-! ### Headers (R270, R271) -/

section header

variable {s : State} {g : Graph} {i : Fin 8} {n : Fin 64} {b : Nat} (h : UnitHeader) (x : UnitRows) (hon : LaneOnBatch s g i n b)
include hon

theorem intakeHeaderCheck_passes (hfits : h.sizes.any (g.intakeRec n).exceeds = false) : ∃ u, exec (.intakeHeaderCheck i n (.batch b) h x) s = .next u ∧
    u.lane i = { s.lane i with passed := (n.val, .batch b, h.off, h.len) :: (s.lane i).passed } := by
  have hg : s.work.graph = some g := hon.1
  refine ⟨s.modLane i fun l => { l with passed := (n.val, .batch b, h.off, h.len) :: l.passed },
    (show execIntakeHeaderCheck i n (.batch b) h x s = _ from ?_), s.lane_modLane i _⟩
  simp only [execIntakeHeaderCheck, hg, laneOn_of_onBatch hon, hfits, Bool.not_true, Bool.false_eq_true, if_false]

theorem intakeHeaderCheck_refuses (hover : h.sizes.any (g.intakeRec n).exceeds = true) : ∃ u, exec (.intakeHeaderCheck i n (.batch b) h x) s = .next u ∧
    (n.val, Into.batch b, h.off, h.len) ∈ (u.lane i).refused ∧
    ∀ r ∈ x.rows, r ∈ (s.lane i).todo → s.voidOf n (some b) r = 0 → VoidedBy u i n b r 2 := by
  have hg : s.work.graph = some g := hon.1
  have hont : LaneOnBatch (s.modLane i fun l => { l with refused := (n.val, .batch b, h.off, h.len) :: l.refused
                                                         passed := l.passed.filter fun p => !unitHit n.val (.batch b) h.off h.len p }) g i n b := onBatch_modLane hon rfl
  refine ⟨_, (show execIntakeHeaderCheck i n (.batch b) h x s = _ from ?_), ?_, fun r hr howed h0 => State.voidUnit_voids hont vrOverLimit x hr ?_ h0⟩
  · simp only [execIntakeHeaderCheck, hg, laneOn_of_onBatch hon, hover, Bool.not_true, Bool.false_eq_true, if_false, if_true]
  · rw [(State.voidUnit_lane hont vrOverLimit x).1, State.lane_modLane]
    exact List.mem_cons_self
  · rwa [State.lane_modLane]

end header

/-! ### Decoded rows (R114, R272, R275) -/

namespace WritesAlike

variable {n b : Nat} {s t : State}

theorem destCluster (h : WritesAlike n b s t) (d : Dest) : t.destCluster d = s.destCluster d := by
  unfold State.destCluster State.clusters State.logical State.coresOf State.coreIn State.clusterIn
  rw [h.graph, h.present]

theorem putDest (h : WritesAlike n b s t) (d : Dest) (rows : List RowOut) : WritesAlike n b (s.putDest n b d rows).2 (t.putDest n b d rows).2 := by
  unfold State.putDest
  rw [h.destCluster]
  split
  · exact h
  · refine List.foldl_rel (r := fun a a' : Nat × State => WritesAlike n b a.2 a'.2) h fun p _ a a' ha => ?_
    dsimp only
    split
    · exact ha
    · exact (ha.putRowsIn _ _ _ _ _).mark _ _ _

end WritesAlike

section landBatch

variable {s : State} {g : Graph} {i n b : Nat} (ds : List Dest) {x : RowOut}

/-- The state in which a lane has noted what it made of a row of a batch. -/
def State.rowNoted (s : State) (g : Graph) (i n b : Nat) (x : RowOut) : State :=
  (if x.reason == 0 then s else if x.carried then s.markVoid n b x.row x.reason else s.laneVoid g i n b x.row x.reason).modLane i fun l =>
    { l with utf8Fixed := sat32 l.utf8Fixed x.fixed }

theorem State.voidOf_rowNoted (hb : (s.tally n b).2.isSome = true) (h0 : s.voidOf n (some b) x.row = 0) (hown : x.carried = false) :
    (s.rowNoted g i n b x).voidOf n (some b) x.row = x.reason := by
  show (if x.reason == 0 then s else if x.carried then s.markVoid n b x.row x.reason else s.laneVoid g i n b x.row x.reason).voidOf n (some b) x.row = _
  by_cases hr : x.reason = 0
  · rw [if_pos (by simp [hr]), h0, hr]
  · rw [if_neg (by simp [hr]), if_neg (by simp [hown]), State.voidOf_laneVoid g i _ hb, if_pos ⟨rfl, h0⟩]

/-- The bytes and the state that writing rows to destinations, one after the other, comes to. -/
def State.putDests (s : State) (n b : Nat) (ds : List Dest) (rows : List RowOut) : Nat × State :=
  ds.foldl (fun (a : Nat × State) d => (a.1 + (a.2.putDest n b d rows).1, (a.2.putDest n b d rows).2)) (0, s)

theorem State.putDests_one (t : State) (d : Dest) (rows : List RowOut) : (t.putDests n b [d] rows).2 = (t.putDest n b d rows).2 := rfl

theorem State.laneTally_putDests (t : State) (rows : List RowOut) : (t.putDests n b ds rows).2.laneTally n b = t.laneTally n b :=
  List.foldlRecOn (motive := fun a : Nat × State => a.2.laneTally n b = t.laneTally n b) _ _ rfl fun a ha d _ => (a.2.laneTally_putDest n b d rows).trans ha

theorem State.landBatch_one : ∃ f, s.landBatch g i n b ds [x] =
    (((((s.rowNoted g i n b x).noteCols n b ((s.rowNoted g i n b x).destCols ds)).putDests n b ds [x]).2.modLane i f).laneDid i (.batch b) [x.row]).laneSettle i :=
  ⟨_, rfl⟩

theorem State.landBatch_one_voids (hb : (s.tally n b).2.isSome = true) (h0 : s.voidOf n (some b) x.row = 0) (hown : x.carried = false) :
    VoidedBy (s.landBatch g i n b ds [x]) i n b x.row x.reason := by
  obtain ⟨f, hland⟩ := State.landBatch_one (s := s) (g := g) (i := i) (n := n) (b := b) ds (x := x)
  rw [hland]
  constructor
  · have hview := (State.laneTally_putDests ds _ [x]).trans ((s.rowNoted g i n b x).laneTally_noteCols n b ((s.rowNoted g i n b x).destCols ds))
    refine (State.voidOf_congr (State.laneSettle_tally _ i n b) x.row).trans ?_
    exact (State.voidOf_congr (congrArg Prod.snd hview) x.row).trans (State.voidOf_rowNoted hb h0 hown)
  · rw [State.laneSettle_keeps _ _ Lane.todo fun _ => rfl, State.laneDid, State.lane_modLane]
    simp

/-- A row that is good goes to its tiles as it comes. -/
theorem State.landBatch_one_cstore (d : Dest) (hgood : x.reason = 0) (k : Nat) :
    (s.landBatch g i n b [d] [x]).cstore k = ((s.noteCols n b (s.destCols [d])).putDest n b d [x]).2.cstore k := by
  have halike : WritesAlike n b s (s.rowNoted g i n b x) := by
    rw [State.rowNoted, if_pos (by simp [hgood])]
    exact ⟨rfl, rfl, rfl, rfl⟩
  have hcols : (s.rowNoted g i n b x).destCols [d] = s.destCols [d] := by simp only [State.destCols, halike.destCluster]
  obtain ⟨f, hland⟩ := State.landBatch_one (s := s) (g := g) (i := i) (n := n) (b := b) [d] (x := x)
  rw [hland, State.laneSettle_cstore, State.laneDid, State.cstore_modLane, State.cstore_modLane, State.putDests_one, hcols]
  exact ((halike.noteCols _).putDest d [x]).cstore k

end landBatch

/-! ### Pages (R271, R272) -/

section page

variable {s : State} {g : Graph} {i : Fin 8} {n : Fin 64} {b : Nat} {ds : List Dest} {pg : PageIn} {e : BusEnv} (hon : LaneOnBatch (s.env e) g i n b)
include hon

/-- A page that a lane makes one row of, the next one it owes. -/
theorem exec_intakePageDecode_one {x : RowOut} (hnext : ((s.env e).lane i).todo.head? = some x.row)
    (hrows : ∀ wanted, (s.env e).pageRows g i n e ((s.env e).viewSource e g n).cols ((s.env e).laneTable n (.batch b)) wanted (.batch b) pg = [x])
    (htakes : (s.env e).takes g n (.batch b) pg = true) (hown : readsSource pg = false) :
    exec (.intakePageDecode i n (.batch b) ds pg e) s = .next ((s.env e).landBatch g i n b ds [x]) := by
  obtain ⟨rest, htodo⟩ := List.head?_eq_some_iff.mp hnext
  have hg : s.work.graph = some g := hon.1
  show execIntakePageDecode i n (.batch b) ds pg e s = _
  simp [execIntakePageDecode, hg, hrows, State.laneNext, laneOn_of_onBatch hon, htodo, htakes, hown]

variable {r : Nat} {fs : List RawCell} {sizes : List Declared} {d : Dest} (hnext : ((s.env e).lane i).todo.head? = some r)
  (h0 : (s.env e).voidOf n (some b) r = 0) (htakes : (s.env e).takes g n (.batch b) (.page sizes [(r, fs)]) = true)
include hnext h0 htakes

theorem intakePageDecode_over (hover : sizes.any (g.intakeRec n).exceeds = true) :
    ∃ u, exec (.intakePageDecode i n (.batch b) [d] (.page sizes [(r, fs)]) e) s = .next u ∧ VoidedBy u i n b r 2 :=
  ⟨_, exec_intakePageDecode_one hon (x := rowOut r (vrOverLimit, [])) hnext (fun _ => if_pos hover) htakes rfl,
    State.landBatch_one_voids [d] (isSome_of_onBatch hon) h0 rfl⟩

theorem intakePageDecode_lands (hfits : sizes.any (g.intakeRec n).exceeds = false) :
    let row := pageRow (g.intakeRec n) ((s.env e).viewSource e g n).cols fs
    ∃ u, exec (.intakePageDecode i n (.batch b) [d] (.page sizes [(r, fs)]) e) s = .next u ∧ VoidedBy u i n b r row.1 ∧
      (row.1 = 0 → ∀ k, (s.env e).destCluster d = some k →
        u.cstore k = ((((s.env e).noteCols n b ((s.env e).destCols [d])).putDest n b d [rowOut r row]).2).cstore k) := by
  intro row
  refine ⟨_, exec_intakePageDecode_one hon (x := rowOut r row) hnext (fun _ => if_neg (by rw [hfits]; decide)) htakes rfl,
    State.landBatch_one_voids [d] (isSome_of_onBatch hon) h0 rfl, fun hgood k _ => State.landBatch_one_cstore d hgood k⟩

theorem intakePageDecode_broken (cause : Fin 5) :
    ∃ u, exec (.intakePageDecode i n (.batch b) [d] (.broken cause [r]) e) s = .next u ∧ VoidedBy u i n b r 1 :=
  ⟨_, exec_intakePageDecode_one hon (x := rowOut r (vrCorrupt, [])) hnext (fun _ => rfl) (Bool.and_elim_left htakes) rfl,
    State.landBatch_one_voids [d] (isSome_of_onBatch hon) h0 rfl⟩

end page

end Sys2Proof.Machine
end

section

/-! Proofs about chapter 10 (tokens and images): the layer on samples. What the end of a sample and a row that a sample makes void leave of the
lane (R275 to R278), and on what the writing of tokens depends (R290). -/
namespace Sys2Proof.Machine

/-! ### The account of a class (R276) -/

@[simp] theorem Lane.budget_setBudget (l : Lane) (x : Budget) (cls : Nat) : (l.setBudget x cls).budget cls = x := by
  unfold Lane.setBudget Lane.budget
  split <;> rfl

/-- What is no account of a class stays when one is set. -/
theorem Lane.setBudget_keeps {α : Type} (part : Lane → α) (himage : ∀ l x, part { l with image := x } = part l)
    (htext : ∀ l x, part { l with text := x } = part l) (l : Lane) (x : Budget) (cls : Nat) : part (l.setBudget x cls) = part l := by
  unfold Lane.setBudget
  split
  · exact himage l x
  · exact htext l x

/-! ### Rows that a sample makes void (R275, R277, R278) -/

section sampleVoid

variable {s : State} (g : Graph) (i : Nat) {n b slot : Nat} (cls reason : Nat)

theorem State.sampleVoid_keeps {α : Type} (part : Lane → α) (hrest : ∀ l : Lane, part l.rest = part l) (hlate : ∀ l x, part { l with late := x } = part l) :
    part ((s.sampleVoid g i n b slot cls reason).lane i) = part (s.lane i) := by
  rw [State.sampleVoid, State.lane_modLane, hlate]
  exact Lane.eq_of_rest part hrest (s.laneVoid_rest g i n b reason slot)

theorem State.voidOf_sampleVoid (hb : (s.tally n b).2.isSome = true) (h0 : s.voidOf n (some b) slot = 0) :
    (s.sampleVoid g i n b slot cls reason).voidOf n (some b) slot = reason :=
  (State.voidOf_laneVoid g i reason hb slot slot).trans (if_pos ⟨rfl, h0⟩)

theorem State.sampleVoid_voidBudget (h0 : s.voidOf n (some b) slot = 0) :
    ((s.sampleVoid g i n b slot cls vrOverBudget).lane i).voidBudget = sat32 (s.lane i).voidBudget 1 := by
  rw [State.sampleVoid, State.lane_modLane, State.laneVoid, if_neg (by simp [h0]), State.lane_modLane, State.markVoid_lane]
  rfl

end sampleVoid

/-! ### Outputs that are made -/

theorem State.laneSettle_setMade_keeps (t : State) (i slot : Nat) (image : Bool) (o : Nat) {α : Type} (part : Lane → α)
    (hcur : ∀ l, part { l with cur := none } = part l) (hmade : ∀ l x, part { l with made := x } = part l) :
    part (((t.setMade i slot image o).laneSettle i).lane i) = part (t.lane i) := by
  rw [State.laneSettle_keeps _ _ part hcur, State.setMade, State.lane_modLane, hmade]

/-! ### The next sample (R275) -/

section sampleOpen

variable {s : State} {g : Graph} {i n b slot col : Nat} {x : Sample}

theorem State.isSome_of_rowDone (h : s.rowDone g i n b slot = true) : (s.tally n b).2.isSome = true := by
  simp only [State.rowDone, Bool.and_eq_true, beq_iff_eq] at h
  exact State.batch_of_laneBatch h.1.1.1

theorem State.isSome_of_sampleOpen (h : s.sampleOpen g i n b slot col x = true) : (s.tally n b).2.isSome = true := by
  simp only [State.sampleOpen, Bool.and_eq_true] at h
  exact State.isSome_of_rowDone h.1.1.1

/-- The next sample of a class is one still to be taken. -/
theorem State.pendingSample_of_nextSample {cls : Nat} {p : Nat × Nat} (h : s.nextSample g i n cls = some p) :
    (s.lane i).pendingSample (g.budgetCols n cls) cls p = true := by
  obtain ⟨q, hfind, hq⟩ := Option.bind_eq_some_iff.mp h
  have hq' := List.find?_some hfind
  split at hq
  · cases hq
  · rename_i htodo
    cases hq
    exact ((Bool.or_eq_true _ _).mp hq').resolve_left htodo

/-- The end of a sample makes the row void that its lane then gives a reason, where it was not. -/
theorem State.voidOf_sampleVoid_sampleEnd (hopen : s.sampleOpen g i n b slot col x = true) (h0 : s.voidOf n (some b) slot = 0) (charge : Nat) (patient : Bool)
    (cls reason : Nat) : ((s.sampleEnd g i n slot col charge x patient).sampleVoid g i n b slot cls reason).voidOf n (some b) slot = reason := by
  refine State.voidOf_sampleVoid g i cls reason ?_ ?_
  · rw [State.sampleEnd, State.tally_modLane]
    exact State.isSome_of_sampleOpen hopen
  · rwa [State.sampleEnd, State.voidOf_modLane]

end sampleOpen

/-! ### On what the writing of tokens depends (R290) -/

theorem WritesAlike.modLane {n b : Nat} {s t : State} (h : WritesAlike n b s t) (i : Nat) (f : Lane → Lane) : WritesAlike n b s (t.modLane i f) :=
  ⟨h.stores, h.graph, h.present, h.fills⟩

theorem WritesAlike.putTokens {n b : Nat} {s t : State} (h : WritesAlike n b s t) (d : TokDecl) (dst : Dest) (slot : Nat) (ids : Option (List Nat))
    (cut void_ : Bool) : WritesAlike n b (s.putTokens n b d dst slot ids cut void_) (t.putTokens n b d dst slot ids cut void_) := by
  unfold State.putTokens
  rw [h.destCluster]
  split
  · exact h
  · split
    · exact h
    · dsimp only
      refine WritesAlike.putRowsIn (.putRowsIn ?_ _ _ _ _ _) _ _ _ _ _
      split
      · exact ((((h.noteCols _).mark _ _ _).mark _ _ _).mark _ _ _).putElems _ _ _ _
      · exact ((((h.noteCols _).mark _ _ _).mark _ _ _).mark _ _ _).putRowsIn _ _ _ _ _

end Sys2Proof.Machine
end

section

/-! Proofs about chapter 10 (tokens and images): TOKENISE, JPEG_DECODE, SAMPLE_ABANDON and LOVAGE_IMAGE, and the settlement of O49. -/
namespace Sys2Proof.Machine

/-! ### TOKENISE (R287 to R291) -/

/-- Work on a TEXT sample of a row that is not void charges and counts it, and writes the ids that truncation keeps. -/
theorem State.tokenRow_kept {s : State} {g : Graph} {i n b : Nat} {p : ValueAt} {d : TokDecl} {v : Bytes} (dst : Dest) {ids : List Nat} {cut : Bool}
    (h0 : s.voidOf n (some b) p.slot = 0) (hcut : tokCut d (tokenise g d v).1.ids = (some ids, cut)) :
    ∃ t, s.tokenRow g i n b p d v dst = t.putTokens n b d dst p.slot (some ids) cut false ∧ WritesAlike n b s t ∧
      (t.lane i).tokens = ((s.lane i).tokens + ids.length) % 2 ^ 64 ∧ (t.lane i).samples = ((s.lane i).samples + 1) % 2 ^ 64 ∧
      (t.lane i).fallback = sat32 (s.lane i).fallback (tokenise g d v).1.falls ∧ (t.lane i).text.done = (s.lane i).text.done + 1 := by
  unfold State.tokenRow
  simp only [hcut, h0, bne_self_eq_false, Bool.false_eq_true, if_false, Option.map_some, Option.getD_some]
  refine ⟨_, rfl, ((WritesAlike.refl s).modLane i _).modLane i _, ?_⟩
  rw [State.lane_modLane, State.sampleEnd, State.lane_modLane]
  exact ⟨rfl, rfl, rfl, rfl⟩

section tokenise

variable {s : State} {g : Graph} {i : Fin 8} {n : Fin 64} {b slot col : Nat} {d : TokDecl} {v : Bytes} (dst : Dest) (hg : s.work.graph = some g)
  (hopen : s.sampleOpen g i n b slot col (.text d v) = true) (hmade : (slot, false, (g.textsOf n).idxOf d) ∉ (s.lane i).made)
include hg hopen hmade

/-- The next TEXT sample is tokenised where it fits its budget. -/
theorem exec_tokenise_next : exec (.tokenise i n b ⟨slot, col⟩ d (some v) dst) s = .next (
    if s.sampleFits g i n (.text d v) then ((s.tokenRow g i n b ⟨slot, col⟩ d v dst).setMade i slot false ((g.textsOf n).idxOf d)).laneSettle i
    else s) := by
  have hopen' := hopen
  simp only [State.sampleOpen, Graph.declares, Graph.smpPlace, smpClass, Bool.and_eq_true, beq_iff_eq] at hopen'
  obtain ⟨⟨⟨hdone, hdecl, hcol⟩, hnext⟩, -⟩ := hopen'
  have hpending := State.pendingSample_of_nextSample hnext
  have hmade' : (s.lane i).made.contains (slot, false, (g.textsOf n).idxOf d) = false := by simpa using hmade
  show execTokenise i n b ⟨slot, col⟩ d (some v) dst s = _
  simp only [execTokenise, hg, hdone, hdecl, hcol, hmade', hpending, hopen, Bool.not_true, bne_self_eq_false, Bool.or_self, Bool.false_or,
    Bool.false_eq_true, if_false, if_true]
  cases s.sampleFits g i n (.text d v) <;> rfl

variable (hfits : s.sampleFits g i n (.text d v) = true) (h0 : s.voidOf n (some b) slot = 0)
include hfits h0

theorem tokenise_writes {ids : List Nat} {cut : Bool} (hcut : tokCut d (tokenise g d v).1.ids = (some ids, cut)) :
    ∃ u, exec (.tokenise i n b ⟨slot, col⟩ d (some v) dst) s = .next u ∧ (u.lane i).tokens = ((s.lane i).tokens + ids.length) % 2 ^ 64 ∧
      (u.lane i).samples = ((s.lane i).samples + 1) % 2 ^ 64 ∧ (u.lane i).fallback = sat32 (s.lane i).fallback (tokenise g d v).1.falls ∧
      (u.lane i).text.done = (s.lane i).text.done + 1 ∧ ∀ k, u.cstore k = (s.putTokens n b d dst slot (some ids) cut false).cstore k := by
  obtain ⟨t, htok, halike, hlane⟩ := State.tokenRow_kept (i := i) (p := ⟨slot, col⟩) dst h0 hcut
  refine ⟨_, exec_tokenise_next dst hg hopen hmade, ?_⟩
  rw [if_pos hfits, htok]
  simp only [State.laneSettle_setMade_keeps _ _ _ _ _ Lane.tokens (fun _ => rfl) fun _ _ => rfl,
    State.laneSettle_setMade_keeps _ _ _ _ _ Lane.samples (fun _ => rfl) fun _ _ => rfl,
    State.laneSettle_setMade_keeps _ _ _ _ _ Lane.fallback (fun _ => rfl) fun _ _ => rfl,
    State.laneSettle_setMade_keeps _ _ _ _ _ Lane.text (fun _ => rfl) fun _ _ => rfl, State.putTokens_lane]
  obtain ⟨htokens, hsamples, hfall, hdone⟩ := hlane
  refine ⟨htokens, hsamples, hfall, hdone, fun k => ?_⟩
  rw [State.laneSettle_cstore, State.setMade, State.cstore_modLane]
  exact (halike.putTokens d dst slot (some ids) cut false).cstore k

theorem tokenise_voids {cut : Bool} (hcut : tokCut d (tokenise g d v).1.ids = (none, cut)) :
    ∃ u, exec (.tokenise i n b ⟨slot, col⟩ d (some v) dst) s = .next u ∧ u.voidOf n (some b) slot = 2 := by
  refine ⟨_, exec_tokenise_next dst hg hopen hmade, ?_⟩
  rw [if_pos hfits, State.voidOf_congr (State.laneSettle_tally _ i n b), State.setMade, State.voidOf_modLane]
  simp only [State.tokenRow, hcut]
  rw [State.voidOf_congr (congrArg Prod.snd (State.laneTally_putTokens _ n b _ _ _ _ _ _))]
  refine State.voidOf_sampleVoid g i 2 vrOverLimit ?_ ?_
  · rw [State.tally_modLane, State.sampleEnd, State.tally_modLane]
    exact State.isSome_of_sampleOpen hopen
  · rwa [State.voidOf_modLane, State.sampleEnd, State.voidOf_modLane]

end tokenise

/-! ### Values past their size limits (R270, R271) -/

section pastLimit

variable {s : State} {g : Graph} {i : Fin 8} {n : Fin 64} {b slot col : Nat} {x : Sample} (hg : s.work.graph = some g)
  (hopen : s.sampleOpen g i n b slot col x = true) (h0 : s.voidOf n (some b) slot = 0)

include hopen h0 in
/-- A value past its size limit makes its row void and is no sample. -/
theorem State.sampleOver_voids : (s.sampleOver g i n b slot x).voidOf n (some b) slot = 2 ∧ ((s.sampleOver g i n b slot x).lane i).samples = (s.lane i).samples := by
  constructor
  · exact (State.voidOf_congr (State.laneSettle_tally _ i n b) slot).trans
      (State.voidOf_sampleVoid g i (smpClass x) vrOverLimit (State.isSome_of_sampleOpen hopen) h0)
  · exact (State.laneSettle_keeps _ _ Lane.samples fun _ => rfl).trans
      (State.sampleVoid_keeps g i (smpClass x) vrOverLimit Lane.samples (fun _ => rfl) fun _ _ => rfl)

/-! ### SAMPLE_ABANDON (R277, R278) -/

include hg hopen

theorem exec_sampleAbandon_next : exec (.sampleAbandon i n b ⟨slot, col⟩ x) s = .next (
    if (g.intakeRec n).sampleOver x then s.sampleOver g i n b slot x
    else if s.sampleFits g i n x then s
    else ((s.sampleEnd g i n slot col ((smpRec (g.intakeRec n) x).limit ((s.lane i).budget (smpClass x))) x false).sampleVoid g i n b slot
      (smpClass x) vrOverBudget).laneSettle i) := by
  show execSampleAbandon i n b ⟨slot, col⟩ x s = _
  simp only [execSampleAbandon, hg, hopen, Bool.not_true, Bool.false_eq_true, if_false]

include h0

theorem sampleAbandon_over (hover : (g.intakeRec n).sampleOver x = true) : ∃ u, exec (.sampleAbandon i n b ⟨slot, col⟩ x) s = .next u ∧
    u.voidOf n (some b) slot = 2 ∧ (u.lane i).samples = (s.lane i).samples :=
  ⟨_, (exec_sampleAbandon_next hg hopen).trans (congrArg _ (if_pos hover)), State.sampleOver_voids hopen h0⟩

theorem sampleAbandon_charges (hsize : (g.intakeRec n).sampleOver x = false) (hover : s.sampleFits g i n x = false) :
    ∃ u, exec (.sampleAbandon i n b ⟨slot, col⟩ x) s = .next u ∧ u.voidOf n (some b) slot = 3 ∧
      ((u.lane i).budget (smpClass x)).used = ((s.lane i).budget (smpClass x)).used + (smpRec (g.intakeRec n) x).limit ((s.lane i).budget (smpClass x)) ∧
      (u.lane i).voidBudget = sat32 (s.lane i).voidBudget 1 := by
  refine ⟨_, (exec_sampleAbandon_next hg hopen).trans (congrArg _ ((if_neg (by rw [hsize]; decide)).trans (if_neg (by rw [hover]; decide)))), ?_⟩
  generalize hlim : (smpRec (g.intakeRec n) x).limit ((s.lane i).budget (smpClass x)) = lim
  refine ⟨(State.voidOf_congr (State.laneSettle_tally _ i n b) slot).trans ?_, ?_, ?_⟩
  · exact State.voidOf_sampleVoid_sampleEnd hopen h0 lim false (smpClass x) vrOverBudget
  · rw [State.laneSettle_keeps _ _ (fun l => l.budget (smpClass x)) fun _ => rfl,
      State.sampleVoid_keeps g i (smpClass x) vrOverBudget (fun l => l.budget (smpClass x)) (fun _ => rfl) fun _ _ => rfl,
      State.sampleEnd, State.lane_modLane]
    exact congrArg Budget.used (Lane.budget_setBudget (s.lane i) _ (smpClass x))
  · rw [State.laneSettle_keeps _ _ Lane.voidBudget fun _ => rfl]
    rw [State.sampleVoid_voidBudget g i (smpClass x) (by rwa [State.sampleEnd, State.voidOf_modLane]), State.sampleEnd, State.lane_modLane]
    exact congrArg (sat32 · 1) (Lane.setBudget_keeps Lane.voidBudget (fun _ _ => rfl) (fun _ _ => rfl) (s.lane i) _ (smpClass x))

end pastLimit

/-! ### JPEG_DECODE (R293 to R296, R302, R305) -/

section jpeg

variable {s : State} {g : Graph} {i : Fin 8} {n : Fin 64} {b slot col : Nat} {v : Bytes} (hg : s.work.graph = some g)
  (hopen : s.sampleOpen g i n b slot col (.image v) = true) (h0 : s.voidOf n (some b) slot = 0)
include hg hopen h0

theorem jpegDecode_over (hover : (g.intakeRec n).imageOver v = true) : ∃ u, exec (.jpegDecode i n b ⟨slot, col⟩ v) s = .next u ∧
    u.voidOf n (some b) slot = 2 ∧ (u.lane i).samples = (s.lane i).samples := by
  refine ⟨_, (show execJpegDecode i n b ⟨slot, col⟩ v s = _ from ?_), State.sampleOver_voids hopen h0⟩
  simp only [execJpegDecode, hg, hopen, hover, Bool.not_true, Bool.false_eq_true, if_false, if_true]

variable (hsize : (g.intakeRec n).imageOver v = false) (hfits : s.sampleFits g i n (.image v) = true)
include hsize hfits

theorem jpegDecode_decodes {m : JpegImg} (hres : (jpegOf v).res = .ok m) (hsmall : m.w * m.h ≤ 4194304) :
    ∃ u, exec (.jpegDecode i n b ⟨slot, col⟩ v) s = .next u ∧ (u.lane i).pixels = ((s.lane i).pixels + (jpegOf v).padded) % 2 ^ 64 ∧
      (u.lane i).images = (s.lane i).images ++ [{ slot := slot, col := col, left := ((g.imagesOf n).zipIdx.filter fun d => d.1.col == col).map fun d => d.2
                                                  w := m.w, h := m.h, gray := m.comps == 1, staged := false, pix := m.pixels s.free }] := by
  show ∃ u, execJpegDecode i n b ⟨slot, col⟩ v s = .next u ∧ _
  simp only [execJpegDecode, hg, hopen, hsize, hfits, hres, h0, State.stageImage, if_pos hsmall, Bool.not_true, bne_self_eq_false, Bool.false_eq_true, if_false]
  refine ⟨_, rfl, ?_⟩
  rw [State.laneSettle_keeps _ _ Lane.pixels fun _ => rfl, State.laneSettle_keeps _ _ Lane.images fun _ => rfl, State.lane_modLane, State.lane_setFree,
    State.lane_modLane, State.sampleEnd, State.lane_modLane]
  exact ⟨rfl, rfl⟩

theorem jpegDecode_fails {c : Nat} (hres : (jpegOf v).res = .error c) : ∃ u, exec (.jpegDecode i n b ⟨slot, col⟩ v) s = .next u ∧
    u.voidOf n (some b) slot = 1 ∧ (u.lane i).lastError = jpgFault v := by
  show ∃ u, execJpegDecode i n b ⟨slot, col⟩ v s = .next u ∧ _
  simp only [execJpegDecode, hg, hopen, hsize, hfits, hres, Bool.not_true, Bool.false_eq_true, if_false]
  refine ⟨_, rfl, (State.voidOf_congr (State.laneSettle_tally _ i n b) slot).trans ?_, ?_⟩
  · rw [State.voidOf_modLane]
    exact State.voidOf_sampleVoid_sampleEnd hopen h0 _ _ 1 vrCorrupt
  · rw [State.laneSettle_keeps _ _ Lane.lastError fun _ => rfl, State.lane_modLane]

end jpeg

/-! ### LOVAGE_IMAGE (R297 to R305) -/

section lovage

/-- The codes that stand in the elements of a null image: those of zeros, unrounded (R304). -/
def nullCodes (d : PrepDecl) : List Nat × List Nat :=
  prepCodes { d with rnd := 0 } (fun _ _ => 0) ((List.range (prepCount d)).map fun _ => fZero)

/-- The state in which declaration number `o` is done with the image of a row. -/
def State.imageEnded (t : State) (i slot col o : Nat) : State := ((t.setMade i slot true o).modLane i fun l => l.imageDone slot col o).laneSettle i

theorem Lane.images_imageDone {l m : Lane} (h : l.images = m.images) (slot col o : Nat) : (l.imageDone slot col o).images = (m.imageDone slot col o).images := by
  unfold Lane.imageDone
  rw [h]

/-- A declaration that is done with an image has made its output, and leaves what is void of the batch. -/
theorem State.imageEnded_settles (t : State) (i n b slot col o : Nat) : let u := t.imageEnded i slot col o
    (u.lane i).images = ((t.lane i).imageDone slot col o).images ∧ (slot, true, o) ∈ (u.lane i).made ∧ u.tally n b = t.tally n b ∧
      (u.lane i).badGeom = (t.lane i).badGeom := by
  unfold State.imageEnded
  refine ⟨(State.laneSettle_keeps _ _ Lane.images fun _ => rfl).trans ?_, ?_, ?_, (State.laneSettle_keeps _ _ Lane.badGeom fun _ => rfl).trans ?_⟩
  · rw [State.lane_modLane, State.setMade, State.lane_modLane]
    exact Lane.images_imageDone rfl slot col o
  · rw [State.laneSettle_keeps _ _ Lane.made fun _ => rfl, State.lane_modLane, State.setMade, State.lane_modLane]
    exact List.mem_cons_self
  · rw [State.laneSettle_tally, State.tally_modLane, State.setMade, State.tally_modLane]
  · rw [State.lane_modLane, State.setMade, State.lane_modLane]
    rfl

/-- What Lovage's work leaves of the lane but its counts, and what is void of the batch. -/
theorem State.lovageWork_keeps (s : State) (i n b slot : Nat) (d : PrepDecl) (m : Img) (mesh lens : List FVal) (dst : Dest) :
    let t := s.lovageWork i n b slot d m mesh lens dst
    (t.lane i).images = (s.lane i).images ∧ (t.lane i).badGeom = (s.lane i).badGeom ∧ t.tally n b = s.tally n b := by
  unfold State.lovageWork
  dsimp only
  rw [State.lane_modLane, State.tally_modLane, State.putImage_lane]
  exact ⟨rfl, rfl, congrArg Prod.snd (s.laneTally_putImage n b d dst slot true _ _)⟩

variable {s : State} {g : Graph} {i : Fin 8} {n : Fin 64} {b slot : Nat} {d : PrepDecl} (dst : Dest) {m : Img} {rest : List Img}
  (hmay : LovageMay s g i n b slot d m rest)
include hmay

/-- Lovage works on the oldest image of the lane where its geometry is good, and makes the row void where it is bad. -/
theorem exec_lovageImage_next : let l := s.lane i
    let mesh := l.rowList slot d.meshCol
    let lens := l.rowList slot d.lensCol
    exec (.lovageImage i n b slot d true mesh lens dst) s = .next (State.imageEnded
      (if prepBad d (prepMesh d mesh) (prepLens d lens) m.w m.h then
        ((s.sampleVoid g i n b slot 0 vrCorrupt).putImage n b d dst slot false (nullCodes d) []).modLane i fun l => { l with badGeom := sat32 l.badGeom 1 }
      else s.lovageWork i n b slot d m (prepMesh d mesh) (prepLens d lens) dst) i slot d.col ((g.imagesOf n).idxOf d)) := by
  intro l mesh lens
  obtain ⟨hg, hdone, hdecl, hmade, hpending, h0, hpresent, himages, hslot, hcol⟩ := hmay
  have hmade' : (s.lane i).made.contains (slot, true, (g.imagesOf n).idxOf d) = false := by simpa using hmade
  have hdecl' : (g.imagesOf n).contains d = true := by simpa using hdecl
  show execLovageImage i n b slot d true mesh lens dst s = _
  simp only [execLovageImage, hg, hdone, hdecl', hmade', hpending, h0, hpresent, himages, hslot, hcol, Bool.not_true, bne_self_eq_false, Bool.or_self,
    Bool.false_eq_true, if_false, l, mesh, lens]
  cases prepBad d (prepMesh d ((s.lane i).rowList slot d.meshCol)) (prepLens d ((s.lane i).rowList slot d.lensCol)) m.w m.h <;>
    simp only [Bool.false_eq_true, if_false, if_true, State.imageEnded, nullCodes]

theorem lovageImage_settles : let l := s.lane i
    let mesh := l.rowList slot d.meshCol
    let lens := l.rowList slot d.lensCol
    let o := (g.imagesOf n).idxOf d
    ∃ u, exec (.lovageImage i n b slot d true mesh lens dst) s = .next u ∧ (u.lane i).images = (l.imageDone slot d.col o).images ∧ (slot, true, o) ∈ (u.lane i).made ∧
    (prepBad d (prepMesh d mesh) (prepLens d lens) m.w m.h = true → u.voidOf n (some b) slot = 1 ∧ (u.lane i).badGeom = sat32 l.badGeom 1) ∧
    (prepBad d (prepMesh d mesh) (prepLens d lens) m.w m.h = false → u.voidOf n (some b) slot = 0 ∧ (u.lane i).badGeom = l.badGeom) := by
  intro l mesh lens o
  refine ⟨_, exec_lovageImage_next dst hmay, ?_⟩
  obtain ⟨-, hdone, -, -, -, h0, -⟩ := hmay
  by_cases hbad : prepBad d (prepMesh d mesh) (prepLens d lens) m.w m.h = true
  · obtain ⟨himages, hmade, htally, hgeom⟩ := State.imageEnded_settles (((s.sampleVoid g i n b slot 0 vrCorrupt).putImage n b d dst slot false (nullCodes d) []).modLane i
      fun l => { l with badGeom := sat32 l.badGeom 1 }) i n b slot d.col o
    have hput := congrArg Prod.snd ((s.sampleVoid g i n b slot 0 vrCorrupt).laneTally_putImage n b d dst slot false (nullCodes d) [])
    rw [if_pos hbad]
    refine ⟨himages.trans (Lane.images_imageDone ?_ _ _ _), hmade, fun _ => ⟨(State.voidOf_congr htally slot).trans ?_, hgeom.trans ?_⟩,
      fun h => absurd (hbad.symm.trans h) (by decide)⟩
    · rw [State.lane_modLane, State.putImage_lane]
      exact State.sampleVoid_keeps g i 0 vrCorrupt Lane.images (fun _ => rfl) fun _ _ => rfl
    · rw [State.voidOf_modLane, State.voidOf_congr hput]
      exact State.voidOf_sampleVoid g i 0 vrCorrupt (State.isSome_of_rowDone hdone) h0
    · rw [State.lane_modLane, State.putImage_lane]
      exact congrArg (sat32 · 1) (State.sampleVoid_keeps g i 0 vrCorrupt Lane.badGeom (fun _ => rfl) fun _ _ => rfl)
  · obtain ⟨himages, hmade, htally, hgeom⟩ := State.imageEnded_settles (s.lovageWork i n b slot d m (prepMesh d mesh) (prepLens d lens) dst) i n b slot d.col o
    obtain ⟨himages', hgeom', htally'⟩ := s.lovageWork_keeps i n b slot d m (prepMesh d mesh) (prepLens d lens) dst
    rw [if_neg hbad]
    exact ⟨himages.trans (Lane.images_imageDone himages' _ _ _), hmade, fun h => absurd h hbad,
      fun _ => ⟨(State.voidOf_congr (htally.trans htally') slot).trans h0, hgeom.trans hgeom'⟩⟩

end lovage

/-! ### The settlement -/

/-- Settles O49: the shuffle's slots and stalls, the beginning of a batch, then fetches, headers and pages, the samples of chapter 10, Lovage, and the
Feistel network. -/
theorem intakeLanesWork : Obligations.IntakeLanesWork := by
  unfold Obligations.IntakeLanesWork
  refine ⟨fun s g i n b j hg hj hworks hopen hnew => shuffleSlotsComputed_settles hg hj hworks hopen hnew,
    fun s i => ⟨fun p hp => s.mem_stalls_noteStalls i hp, fun m hm => s.noteStalls_lane_ne i hm, fun hnew => ?_⟩,
    fun s g i n b j im tx x c hg hj hx hc => ⟨fun hstart => exec_intakeBatchBegin_waits im tx hg hx hj (.inl hstart),
      fun hmay hshuf hslots => intakeBatchBegin_begins im tx hg hx hj hc hmay hshuf hslots,
      fun hshuf => exec_intakeBatchBegin_waits im tx hg hx hj (.inr hshuf)⟩,
    fun s g i n b off len x e hon => ⟨exec_intakeFetchComplete_closed hon, fun hd0 hheld hopen hruns => intakeFetchComplete_settles hon hd0 hheld hopen hruns⟩,
    fun s i n off len a z into x hlo hhi href => State.fetchOpen_refused x hlo hhi href,
    fun s g i n b h x hon => ⟨intakeHeaderCheck_passes h x hon, intakeHeaderCheck_refuses h x hon⟩,
    fun s g i n b r d ds fs cause e hon hnext h0 htakes => ⟨intakePageDecode_over hon hnext h0 htakes, intakePageDecode_lands hon hnext h0 htakes,
      intakePageDecode_broken hon hnext h0 htakes cause⟩,
    fun s g i n b slot col d v dst hg hopen hmade => ⟨fun hover => ?_, fun ids cut hfits h0 hcut => tokenise_writes dst hg hopen hmade hfits h0 hcut,
      fun cut hfits h0 hcut => tokenise_voids dst hg hopen hmade hfits h0 hcut⟩,
    fun s g i n b slot col v hg hopen h0 => ⟨jpegDecode_over hg hopen h0, fun hsize hfits m hres hsmall => jpegDecode_decodes hg hopen h0 hsize hfits hres hsmall,
      fun hsize hfits c hres => jpegDecode_fails hg hopen h0 hsize hfits hres⟩,
    fun s g i n b slot col x hg hopen h0 => ⟨sampleAbandon_over hg hopen h0, fun hsize hfits => ?_, sampleAbandon_charges hg hopen h0⟩,
    fun s g i n b slot d dst m rest hmay => lovageImage_settles dst hmay,
    fun h rk x y hh hx hy => ⟨feistel_lt rk hh hx, feistel_inj hh hx hy⟩⟩
  · rw [State.noteStalls_lane, if_neg hnew]
    rfl
  · rw [exec_tokenise_next dst hg hopen hmade, if_neg (by rw [hover]; decide)]
  · rw [exec_sampleAbandon_next hg hopen, if_neg (by rw [hsize]; decide), if_pos hfits]

end Sys2Proof.Machine
end

section

/-! Proofs about chapter 12 (dispatch): a WAITING record whose slot is listed twice, and the settlement of O42. -/
namespace Sys2Proof.Machine

/-- What a part of the state reads as after a command that has a next state. -/
def readNext {α φ ρ : Type} (part : State → α) : Host.Outcome State φ ρ → Option α
  | .next u => some (part u)
  | _ => none

/-- A part that has been read off a command's outcome is that of its next state. -/
theorem eq_of_readNext {α φ ρ : Type} {part : State → α} {o : Host.Outcome State φ ρ} {u : State} {x : α} (ho : o = .next u)
    (hx : readNext part o = some x) : part u = x := by
  subst ho
  exact Option.some_inj.mp hx

/-! ### The counterexample: a table that lists the slot of a WAITING record twice (R340, R342) -/

/-- One template, with no flag to wait for, and one placement entry, on cluster 0: every byte but the two counts is 0. -/
def plainGraph : Graph :=
  { id := 0, major := 1, minor := 0, minPeriod := 0, minClock := 0, streams := 0, phases := 1
    sections := [{ ty := 2, index := 0, data := leBytes 80 1 }, { ty := 4, index := 0, data := leBytes 32 0 ++ leBytes 48 1 }]
    image := [], entry := { id := 0, opcode := 3, flags := 0, stream := 0, rsvd := 0, addr0 := 0, len0 := 0, params := [] }, variant := 0
    digest := [], phase := 0, swapDue := none, switchDue := false }

/-- Cluster 0 with a WAITING record in slot 0, and behind it a further entry for the same slot, that of a free one. -/
def twiceListedState : State :=
  { present := { clusters := 1 }
    work := { graph := some plainGraph, disps := [(0, { slots := [(0, { state := .waiting }), (0, {})] })] } }

theorem twiceListedState_recordOf :
    RecordOf twiceListedState plainGraph 0 0 (parseTpl (List.replicate 64 0#8)) (parsePlace (List.replicate 32 0#8)) :=
  ⟨rfl, by decide +kernel, by decide +kernel⟩

/-- Only the first entry is in state WAITING, and it is the one that the slot reads as. -/
theorem twiceListedState_onlyRecord : OnlyRecord twiceListedState 0 0 .waiting := ⟨rfl, rfl⟩

theorem twiceListedState_works : twiceListedState.clusterWorks 0 = true := by decide

/-- The cycle visits the slot once for each entry, so that the record joins the tail of its level twice. -/
theorem twiceListedState_ready : readNext (fun u => tget [] (u.disp 0).ready 0) (exec (.taskReady 0) twiceListedState) = some [0, 0] := by
  decide +kernel

/-- Refutes O42: no hypothesis keeps a slot from being listed twice. A WAITING record whose slot has a further entry joins its READY list
once for each entry, where the statement has it there once. -/
theorem not_recordsAreReleasedReadyAndPlaced : ¬ Obligations.RecordsAreReleasedReadyAndPlaced := by
  intro h
  obtain ⟨-, -, -, hready, -⟩ := h
  obtain ⟨hjoins, -⟩ := hready twiceListedState plainGraph 0 0 _ _ twiceListedState_recordOf twiceListedState_works
    twiceListedState_onlyRecord fun j hj => nomatch hj
  obtain ⟨u, hexec, -, hlist⟩ := hjoins (Nat.zero_le _) (by decide +kernel)
  have htwice := eq_of_readNext hexec twiceListedState_ready
  exact absurd (htwice.symm.trans hlist) (by decide)

end Sys2Proof.Machine
end

section

/-! Proofs about chapter 12 (flows): a release whose write fails the module, and the settlement of O44. -/
namespace Sys2Proof.Machine

/-! ### The counterexample: a pair without a role, and a segment between two poisoned words (R366, R464, R473) -/

/-- A graph with one flow: stream 0, one segment of 4 bytes a batch, a window of one segment. -/
def flowGraph : Graph :=
  { plainGraph with
    sections := [{ ty := 4, index := 0, data := leBytes 40 0 ++ leBytes 2 1 ++ leBytes 6 0 ++
      (leBytes 4 0 ++ leBytes 2 1 ++ leBytes 2 1 ++ leBytes 8 0 ++ leBytes 16 4) }] }

def onlyFlow : FlowRec := { flow := 0, stream := 0, segs := 1, window := 1, outOff := 0, segBytes := 4 }

theorem flowGraph_flowRec : flowGraph.flowRec 0 = some onlyFlow := by decide +kernel

/-- The segment of batch 1. -/
def nextSegment : HeldSeg := { seq := 1, batch := 1, seg := 0, bytes := [1, 2, 3, 4] }

/-- A module that is PAIRED with no role in force. The next segment of flow 0 is held, and it fills HBM words 512 and 513, which are poisoned,
only in part: reading the first is the error that begins a recovery, reading the second the same error during it. -/
def noRoleState : State :=
  { present := { pchans := 1 }
    pair := { state := .paired }
    mem := { ecc := [(512, .poisoned), (513, .poisoned)] }
    work := {
      graph := some flowGraph
      streams := [(0, { phase := .open_, slots := [(4102, .hbm)], slotBytes := 4, batches := [newBatch 1 0 0] })]
      flows := [(0, { next := 1, held := [nextSegment] })] } }

/-- Flow 0 may release the segment now. -/
theorem noRoleState_mayRelease :
    (noRoleState.flow 0).held.find? (fun h => h.seq == (noRoleState.flow 0).next) = some nextSegment ∧
      (noRoleState.stream 0).outSlot 1 = some (4102, .hbm) ∧ noRoleState.mayRelease .hbm = true ∧ noRoleState.shadows = false ∧
      noRoleState.intakeOver flowGraph 0 1 = true ∧ noRoleState.hbmOk 4102 4 = true := by
  decide +kernel

/-- The write fails the module, which leaves its pair and drops the flows with the mirrored work; the release then moves flow 0 on from its
default, 0. -/
theorem noRoleState_next : readNext (fun u => (u.flow 0).next) (exec (.segmentRelease 0 ⟨[], [], []⟩ none) noRoleState) = some 1 := by
  decide +kernel

/-- Refutes O44: no hypothesis ties the pair's state to a role or keeps poisoned words from the output slot. Where a release fails a module
that is PAIRED and neither primary nor secondary, the flows are gone before the sequence moves on: from 1 it goes to 1, not to 2. -/
theorem not_flagsBarriersAndFlows : ¬ Obligations.FlagsBarriersAndFlows := by
  intro h
  obtain ⟨-, -, -, hrelease, -⟩ := h
  obtain ⟨hheld, hslot, hmay, hshadows, hover, hok⟩ := noRoleState_mayRelease
  obtain ⟨-, hwrites⟩ := hrelease noRoleState flowGraph 0 onlyFlow rfl flowGraph_flowRec
  obtain ⟨-, hmoves⟩ := hwrites nextSegment 4102 (newBatch 1 0 0) hheld hslot hmay rfl hshadows rfl rfl
  obtain ⟨u, hexec, hnext, -⟩ := hmoves hover hok
  have hlost := eq_of_readNext hexec noRoleState_next
  exact absurd (hlost.symm.trans (hnext nofun)) (by decide)

end Sys2Proof.Machine
end

section
/-! Proofs about what every step keeps: the queue and the two memories -/

namespace Sys2Proof.Machine

/-- The queue and the two memories of a state. -/
def State.data (s : State) : List Instr × Tab Byte × Tab Byte := (s.pending, s.mem.bus, s.mem.hbm)

/-- The second data have the first's queue, and a memory that is canonical where the first's is. -/
structure Keeps (a b : List Instr × Tab Byte × Tab Byte) : Prop where
  queue : b.1 = a.1
  bus : memWf a.2.1 = true → memWf b.2.1 = true
  hbm : memWf a.2.2 = true → memWf b.2.2 = true

@[simp] theorem Keeps.rfl {a : List Instr × Tab Byte × Tab Byte} : Keeps a a := ⟨Eq.refl _, id, id⟩
theorem Keeps.trans {a b c : List Instr × Tab Byte × Tab Byte} (h : Keeps a b) (k : Keeps b c) : Keeps a c :=
  ⟨k.queue.trans h.queue, k.bus ∘ h.bus, k.hbm ∘ h.hbm⟩

variable {α β γ : Type}

@[simp] theorem foldl_data (f : State → β → State) (h : ∀ t x, (f t x).data = t.data) (l : List β) (s : State) :
    (l.foldl f s).data = s.data := by
  induction l generalizing s with
  | nil => rfl
  | cons x xs ih => rw [List.foldl_cons, ih, h]

@[simp] theorem foldl_data_snd (f : γ × State → β → γ × State) (h : ∀ a x, (f a x).2.data = a.2.data) (l : List β) (a : γ × State) :
    (l.foldl f a).2.data = a.2.data := by
  induction l generalizing a with
  | nil => rfl
  | cons x xs ih => rw [List.foldl_cons, ih, h]

@[simp] theorem foldl_data_fst (f : State × γ → β → State × γ) (h : ∀ a x, (f a x).1.data = a.1.data) (l : List β) (a : State × γ) :
    (l.foldl f a).1.data = a.1.data := by
  induction l generalizing a with
  | nil => rfl
  | cons x xs ih => rw [List.foldl_cons, ih, h]

@[simp] theorem data_ite (c : Prop) [Decidable c] (s t : State) : (if c then s else t).data = if c then s.data else t.data := apply_ite _ _ _ _
@[simp] theorem snd_ite (c : Prop) [Decidable c] (s t : γ × State) : (if c then s else t).2 = if c then s.2 else t.2 := apply_ite _ _ _ _

@[simp] theorem State.data_mk (now free : Nat) (glb : Glb) (beat : Beat) (qps : Tab Qp) (groups : Tab DbGroup) (jrn : Journal) (cmds : List Cmd) (work : Work)
    (mem : Mem) (evc : Evc) (err : Err) (pci : Pci) (chain : Chain) (pair : Pair2) (sec : Sec) (pwr : Pwr) (mgt : Mgt) (present fit : Present)
    (capture : Tab (Option Word)) (out : List Out) (pending : List Instr) :
    State.data ⟨now, free, glb, beat, qps, groups, jrn, cmds, work, mem, evc, err, pci, chain, pair, sec, pwr, mgt, present, fit, capture, out, pending⟩ =
      (pending, mem.bus, mem.hbm) := by rfl
@[simp] theorem State.data_eta (s : State) : (s.pending, s.mem.bus, s.mem.hbm) = s.data := by rfl
@[simp] theorem State.modMem_data (s : State) (f : Mem → Mem) : (s.modMem f).data = (s.pending, (f s.mem).bus, (f s.mem).hbm) := by rfl
end Sys2Proof.Machine
end

section
/-! Proofs about what every step keeps: the operations that write no memory -/

namespace Sys2Proof.Machine

/-! ### Ops -/

@[simp] theorem State.at_data (s : State) (t : Nat) : (s.at_ t).data = s.data := by rfl
@[simp] theorem State.emit_data (s : State) (o : Out) : (s.emit o).data = s.data := by rfl
@[simp] theorem State.choose_data (s : State) (n : Nat) : (s.choose n).2.data = s.data := by rfl
@[simp] theorem State.carried_data (s : State) (base n : Nat) : (s.carried base n).data = s.data := by rfl
@[simp] theorem State.modQp_data (s : State) (q : Nat) (f : Qp → Qp) : (s.modQp q f).data = s.data := by rfl
@[simp] theorem State.modGroup_data (s : State) (g : Nat) (f : DbGroup → DbGroup) : (s.modGroup g f).data = s.data := by rfl
@[simp] theorem State.modWork_data (s : State) (f : Work → Work) : (s.modWork f).data = s.data := by rfl
@[simp] theorem State.modStream_data (s : State) (n : Nat) (f : Stream → Stream) : (s.modStream n f).data = s.data := by rfl
@[simp] theorem State.modDisp_data (s : State) (k : Nat) (f : Disp → Disp) : (s.modDisp k f).data = s.data := by rfl
@[simp] theorem State.modCore_data (s : State) (c : Nat) (f : Core → Core) : (s.modCore c f).data = s.data := by rfl
@[simp] theorem State.modEngine_data (s : State) (e : Nat) (f : Engine → Engine) : (s.modEngine e f).data = s.data := by rfl
@[simp] theorem State.modStore_data (s : State) (k : Nat) (f : Tab Byte → Tab Byte) : (s.modStore k f).data = s.data := by rfl
@[simp] theorem State.modChan_data (s : State) (c : Nat) (f : Chan → Chan) : (s.modChan c f).data = s.data := by rfl
@[simp] theorem State.modHbmCtl_data (s : State) (c : Nat) (f : HbmCtl → HbmCtl) : (s.modHbmCtl c f).data = s.data := by rfl
@[simp] theorem State.modRouter_data (s : State) (k : Nat) (f : Router → Router) : (s.modRouter k f).data = s.data := by rfl
@[simp] theorem State.modEvc_data (s : State) (f : Evc → Evc) : (s.modEvc f).data = s.data := by rfl
@[simp] theorem State.modGlb_data (s : State) (f : Glb → Glb) : (s.modGlb f).data = s.data := by rfl
@[simp] theorem State.modBeat_data (s : State) (f : Beat → Beat) : (s.modBeat f).data = s.data := by rfl
@[simp] theorem State.modJrn_data (s : State) (f : Journal → Journal) : (s.modJrn f).data = s.data := by rfl
@[simp] theorem State.modErr_data (s : State) (f : Err → Err) : (s.modErr f).data = s.data := by rfl
@[simp] theorem State.modPci_data (s : State) (f : Pci → Pci) : (s.modPci f).data = s.data := by rfl
@[simp] theorem State.modChain_data (s : State) (f : Chain → Chain) : (s.modChain f).data = s.data := by rfl
@[simp] theorem State.modPair_data (s : State) (f : Pair2 → Pair2) : (s.modPair f).data = s.data := by rfl
@[simp] theorem State.modSec_data (s : State) (f : Sec → Sec) : (s.modSec f).data = s.data := by rfl
@[simp] theorem State.modPwr_data (s : State) (f : Pwr → Pwr) : (s.modPwr f).data = s.data := by rfl
@[simp] theorem State.modMgt_data (s : State) (f : Mgt → Mgt) : (s.modMgt f).data = s.data := by rfl
@[simp] theorem State.reject_data (s : State) (off master : Nat) : (s.reject off master).data = s.data := by rfl
@[simp] theorem State.sendPme_data (s : State) : (s.sendPme).data = s.data := by simp [State.sendPme]
@[simp] theorem State.sendMsix_data (s : State) (v : Nat) : (s.sendMsix v).data = s.data := by simp [State.sendMsix]
@[simp] theorem State.eventMessage_data (s : State) (v : Nat) : (s.eventMessage v).data = s.data := by simp [State.eventMessage]
@[simp] theorem State.postEvent_data (s : State) (src : Nat) : (s.postEvent src).data = s.data := by simp [State.postEvent]
@[simp] theorem State.setLock_data (s : State) (l : Lock) : (s.setLock l).data = s.data := by simp [State.setLock]

/-! ### OpsErr -/

@[simp] theorem State.setPair_data (s : State) (p : PairState) : (s.setPair p).data = s.data := by simp [State.setPair]
@[simp] theorem State.pairSend_data (s : State) (ty : Nat) (payload : Bytes) : (s.pairSend ty payload).data = s.data := by simp [State.pairSend]
@[simp] theorem State.pairFence_data (s : State) (reason : Nat) : (s.pairFence reason).data = s.data := by simp [State.pairFence]
@[simp] theorem State.dropShadow_data (s : State) : (s.dropShadow).data = s.data := by rfl
@[simp] theorem State.pairLeave_data (s : State) : (s.pairLeave).data = s.data := by simp [State.pairLeave]
@[simp] theorem State.handedOver_data (s : State) : (s.handedOver).data = s.data := by simp [State.handedOver]
@[simp] theorem State.pushRecord_data (s : State) (r : ErrRec) : (s.pushRecord r).data = s.data := by simp [State.pushRecord]
@[simp] theorem State.setOutcome_data (s : State) (num : Nat) (f : ErrRec → ErrRec) : (s.setOutcome num f).data = s.data := by
  unfold State.setOutcome
  split <;> simp
@[simp] theorem State.enterFailed_data (s : State) (num : Nat) : (s.enterFailed num).data = s.data := by
  unfold State.enterFailed
  split
  · rfl
  · dsimp only
    (repeat' split) <;> simp [↓State.data_mk, ↓State.data_eta]
@[simp] theorem State.voteFixed_data (s : State) : (s.voteFixed).data = s.data := by simp [State.voteFixed]
@[simp] theorem State.detectError_data (s : State) (kind index cause detail : Nat) (injected : Bool) :
    (s.detectError kind index cause detail injected).data = s.data := by
  simp [State.detectError]

/-! ### OpsHost -/

@[simp] theorem State.enqueue_data (s : State) (q : Nat) (e : CEntry) (jseq jfinal : Nat) (flows : List (Nat × Nat)) :
    (s.enqueue q e jseq jfinal flows).data = s.data := by
  simp [State.enqueue]
@[simp] theorem State.notice_data (s : State) (status result : Nat) : (s.notice status result).data = s.data := by simp [State.notice]
@[simp] theorem State.irqCondition_data (s : State) (q : Nat) : (s.irqCondition q).data = s.data := by simp [State.irqCondition]
@[simp] theorem State.signal_data (s : State) (q : Nat) : (s.signal q).data = s.data := by simp [State.signal]
@[simp] theorem State.jIssue_data (s : State) (k : JKind) : (s.jIssue k).data = s.data := by simp [State.jIssue]
@[simp] theorem State.recordCompleted_data (s : State) (seq : Nat) : (s.recordCompleted seq).data = s.data := by simp [State.recordCompleted]
@[simp] theorem State.modCmd_data (s : State) (seq : Nat) (f : Cmd → Cmd) : (s.modCmd seq f).data = s.data := by rfl
@[simp] theorem State.finish_data (s : State) (seq status result : Nat) : (s.finish seq status result).data = s.data := by rfl

/-! ### SageImage -/

@[simp] theorem State.loadBanks_data (s : State) (g : Graph) (v : Nat) : (s.loadBanks g v).data = s.data := by
  refine foldl_data _ (fun t p => ?_) _ _
  dsimp only
  split <;> simp

/-! ### Stages -/

@[simp] theorem State.keepBuilt_data (s : State) : (s.keepBuilt).data = s.data := by
  unfold State.keepBuilt
  split <;> simp

/-! ### OpsWork -/

@[simp] theorem State.modLane_data (s : State) (i : Nat) (f : Lane → Lane) : (s.modLane i f).data = s.data := by rfl
@[simp] theorem State.modBatch_data (s : State) (n b : Nat) (f : Batch → Batch) : (s.modBatch n b f).data = s.data := by rfl
@[simp] theorem State.discardOn_data (s : State) (k : Nat) (p : TaskRec → Bool) : (s.discardOn k p).2.data = s.data := by
  unfold State.discardOn
  dsimp only
  split
  · rfl
  · refine (foldl_data_snd _ (fun a n => ?_) _ _).trans ?_
    · split <;> simp
    · simp
@[simp] theorem State.discard_data (s : State) (n : Nat) (count : Bool) (p : Option Nat → Bool) : (s.discard n count p).2.data = s.data := by
  simp [State.discard]
@[simp] theorem State.modFlow_data (s : State) (f : Nat) (g : Flow → Flow) : (s.modFlow f g).data = s.data := by rfl
@[simp] theorem State.modWeir_data (s : State) (i : Nat) (g : Weir → Weir) : (s.modWeir i g).data = s.data := by rfl
@[simp] theorem State.modFlags_data (s : State) (n : Nat) (f : Weir → Weir) : (s.modFlags n f).data = s.data := by
  unfold State.modFlags
  split <;> simp
@[simp] theorem State.noteStalls_data (s : State) (i : Nat) : (s.noteStalls i).data = s.data := by simp [State.noteStalls]
@[simp] theorem State.noteAllStalls_data (s : State) : (s.noteAllStalls).data = s.data := by simp [State.noteAllStalls]
@[simp] theorem State.discardUnbegun_data (s : State) (n : Nat) : (s.discardUnbegun n).2.data = s.data := by simp [State.discardUnbegun]
@[simp] theorem State.endRuns_data (s : State) (n : Nat) : (s.endRuns n).data = s.data := by simp [State.endRuns]
@[simp] theorem State.cancelRun_data (s : State) (n seq : Nat) : (s.cancelRun n seq).2.data = s.data := by
  unfold State.cancelRun
  dsimp only
  (repeat' split) <;> simp
@[simp] theorem State.settleOne_data (s : State) (c : Cmd) : (s.settleOne c).data = s.data := by
  unfold State.settleOne
  (repeat' split) <;> simp
@[simp] theorem State.settle_data (s : State) : (s.settle).data = s.data := by simp [State.settle]
@[simp] theorem State.skipFlows_data (s : State) (n : Nat) : (s.skipFlows n).data = s.data := by
  unfold State.skipFlows
  split
  · rfl
  · simp
@[simp] theorem State.pulse_data (s : State) (k n b flag : Nat) : (s.pulse k n b flag).data = s.data := by simp [State.pulse]
@[simp] theorem State.swapPhase_data (s : State) (g : Graph) : (s.swapPhase g).data = s.data := by simp [State.swapPhase]
@[simp] theorem State.swapPoint_data (s : State) (g : Graph) : (s.swapPoint g).data = s.data := by simp [State.swapPoint]
@[simp] theorem State.weirClose_data (fuel : Nat) (s : State) (i : Nat) (r : WeirRec) : (s.weirClose fuel i r).data = s.data := by
  induction fuel generalizing s with
  | zero => rfl
  | succ fuel ih =>
    unfold State.weirClose
    dsimp only
    (repeat' split) <;> simp [ih] <;> exact foldl_data _ (fun t k => by split <;> simp) _ _
@[simp] theorem State.weirArrive_data (s : State) (i k b : Nat) : (s.weirArrive i k b).data = s.data := by
  unfold State.weirArrive
  (repeat' split) <;> simp
@[simp] theorem State.streamEnd_data (s : State) (n : Nat) : (s.streamEnd n).data = s.data := by
  unfold State.streamEnd
  split <;> simp
@[simp] theorem State.streamEndDue_data (s : State) (n : Nat) : (s.streamEndDue n).data = s.data := by
  unfold State.streamEndDue
  split <;> simp
@[simp] theorem State.endClose_data (s : State) (n : Nat) : (s.endClose n).data = s.data := by
  unfold State.endClose
  dsimp only
  (repeat' split) <;> simp
@[simp] theorem State.shutStream_data (s : State) (n : Nat) : (s.shutStream n).data = s.data := by
  unfold State.shutStream
  dsimp only
  (repeat' split) <;> simp
@[simp] theorem State.endStop_data (s : State) (n : Nat) : (s.endStop n).data = s.data := by
  unfold State.endStop
  dsimp only
  (repeat' split) <;> simp
@[simp] theorem State.pairJoined_data (s : State) : (s.pairJoined).data = s.data := by simp [State.pairJoined]
@[simp] theorem State.afterRelease_data (s : State) (n : Nat) : (s.afterRelease n).data = s.data := by simp [State.afterRelease]
@[simp] theorem State.stageFail_data (s : State) (n fail : Nat) : (s.stageFail n fail).data = s.data := by simp [State.stageFail]
@[simp] theorem State.rerunStream_data (s : State) (n : Nat) : (s.rerunStream n).2.data = s.data := by simp [State.rerunStream]
@[simp] theorem State.rerunAll_data (s : State) : (s.rerunAll).2.data = s.data := by simp [State.rerunAll]
@[simp] theorem State.stopAll_data (s : State) (status : Nat) : (s.stopAll status).data = s.data := by
  refine (foldl_data _ (fun t c => by simp) _ _).trans (foldl_data _ (fun t n => ?_) _ _)
  dsimp only
  (repeat' split) <;> simp
@[simp] theorem State.renumber_data (s : State) (g h : Graph) : (s.renumber g h).data = s.data := by
  refine foldl_data _ (fun t n => foldl_data _ (fun u f => ?_) _ _) _ _
  (repeat' split) <;> simp
@[simp] theorem State.switchVariant_data (s : State) : (s.switchVariant).data = s.data := by
  unfold State.switchVariant
  (repeat' split) <;> simp
@[simp] theorem State.layerEnded_data (s : State) : (s.layerEnded).data = s.data := by
  unfold State.layerEnded
  dsimp only
  (repeat' split) <;> simp
@[simp] theorem State.checkVariant_data (s : State) : (s.checkVariant).data = s.data := by
  unfold State.checkVariant
  split <;> simp

/-! ### OpsBeat -/

@[simp] theorem State.breach_data (s : State) (i : Nat) : (s.breach i).data = s.data := by
  unfold State.breach
  split <;> simp
@[simp] theorem State.beatOutNew_data (s : State) (d : Delivery) : (s.beatOutNew d).data = s.data := by simp [State.beatOutNew]
@[simp] theorem State.phaseBoundary_data (s : State) : (s.phaseBoundary).data = s.data := by
  unfold State.phaseBoundary
  dsimp only
  (repeat' split) <;> simp
@[simp] theorem State.acceptBeat_data (s : State) (d : Delivery) : (s.acceptBeat d).data = s.data := by
  unfold State.acceptBeat
  dsimp only
  (repeat' split) <;> simp
@[simp] theorem State.rejectNumber_data (s : State) : (s.rejectNumber).data = s.data := by simp [State.rejectNumber]
@[simp] theorem State.deliver_data (s : State) (d : Delivery) : (s.deliver d).2.data = s.data := by
  unfold State.deliver
  (repeat' split) <;> simp
@[simp] theorem State.chainBeat_data (s : State) (d : Delivery) : (s.chainBeat d).data = s.data := by simp [State.chainBeat]
@[simp] theorem State.pairBeat_data (s : State) (d : Delivery) : (s.pairBeat d).data = s.data := by simp [State.pairBeat]
@[simp] theorem State.relayBeat_data (s : State) (d : Delivery) : (s.relayBeat d).data = s.data := by simp [State.relayBeat]

/-! ### Beat -/

@[simp] theorem State.forwardFrame_data (s : State) (bits t : Nat) (ok : Bool) : (s.forwardFrame bits t ok).data = s.data := by rfl
@[simp] theorem State.rebase_data (s : State) (m : Nat) : (s.rebase m).data = s.data := by simp [State.rebase]

/-! ### OpsMem -/

@[simp] theorem State.countHbm_data (s : State) (wr : Bool) (a n : Nat) : (s.countHbm wr a n).data = s.data := by simp [State.countHbm]
@[simp] theorem State.eccWords_data (s : State) (p : Nat → Bool) : (s.eccWords p).2.data = s.data := by
  refine foldl_data_snd _ (fun r w => ?_) _ _
  dsimp only
  split <;> simp
@[simp] theorem State.eccRead_data (s : State) (a n : Nat) : (s.eccRead a n).2.data = s.data := by simp [State.eccRead]
@[simp] theorem State.devRead_data (s : State) (a n : Nat) : (s.devRead a n).2.2.data = s.data := by
  unfold State.devRead
  split <;> simp
@[simp] theorem State.unitRead_data (s : State) (e : BusEnv) (sp : Space) (a n : Nat) : (s.unitRead e sp a n).2.data = s.data := by
  unfold State.unitRead
  split <;> simp

/-! ### Slots -/

@[simp] theorem State.modUnits_data (s : State) (k : Nat) (f : Units → Units) : (s.modUnits k f).data = s.data := by rfl
@[simp] theorem State.modQuern_data (s : State) (k : Nat) (f : Quern → Quern) : (s.modQuern k f).data = s.data := by rfl
@[simp] theorem State.modSorrel_data (s : State) (k : Nat) (f : Sorrel → Sorrel) : (s.modSorrel k f).data = s.data := by rfl
@[simp] theorem State.modGth_data (s : State) (k : Nat) (f : Gth → Gth) : (s.modGth k f).data = s.data := by rfl
@[simp] theorem State.modMls_data (s : State) (k : Nat) (f : Mls → Mls) : (s.modMls k f).data = s.data := by rfl
@[simp] theorem State.modSage_data (s : State) (k : Nat) (f : Sage → Sage) : (s.modSage k f).data = s.data := by rfl
@[simp] theorem State.putSlot_data (s : State) (k : Nat) (c : ColW) (cells : List Cell) : (s.putSlot k c cells).data = s.data := by
  unfold State.putSlot
  split <;> simp
@[simp] theorem State.putElems_data (s : State) (k : Nat) (c : ColW) (at_ : Nat) (xs : List (Bool × Nat)) :
    (s.putElems k c at_ xs).data = s.data := by
  unfold State.putElems
  split <;> simp
@[simp] theorem State.putRawRow_data (s : State) (k : Nat) (c : ColW) (pitch i : Nat) (row : Option Bytes) (size : Nat) :
    (s.putRawRow k c pitch i row size).data = s.data := by
  unfold State.putRawRow
  split <;> simp
@[simp] theorem State.mark_data (s : State) (n : Nat) (b : Option Nat) (k slot : Nat) (ms : List Mark) : (s.mark n b k slot ms).data = s.data := by
  unfold State.mark
  split <;> simp
@[simp] theorem State.putRegion_data (s : State) (k slot off : Nat) (bs : Bytes) : (s.putRegion k slot off bs).data = s.data := by
  unfold State.putRegion
  split <;> simp
@[simp] theorem State.putRowsIn_data (s : State) (k : Nat) (c : ColW) (first count : Nat) (rows : List (Nat × Cell)) :
    (s.putRowsIn k c first count rows).data = s.data := by
  simp [State.putRowsIn]
@[simp] theorem State.voidRow_data (s : State) (n b row : Nat) (c : ColAt) : (s.voidRow n b row c).data = s.data := by
  unfold State.voidRow
  (repeat' split) <;> simp
@[simp] theorem State.noteCols_data (s : State) (n b : Nat) (cs : List ColAt) : (s.noteCols n b cs).data = s.data := by simp [State.noteCols]
@[simp] theorem State.markVoid_data (s : State) (n b row reason : Nat) : (s.markVoid n b row reason).data = s.data := by simp [State.markVoid]

/-! ### Layout -/

@[simp] theorem State.layJob_data (s : State) (n : Nat) (sp : Space) (base o len : Nat) (ps : List Piece) :
    (s.layJob n sp base o len ps).data = s.data := by rfl

/-! ### Operands -/

@[simp] theorem State.coreFlags_data (s : State) (c fl : Nat) : (s.coreFlags c fl).data = s.data := by simp [State.coreFlags]
@[simp] theorem State.issue_data (s : State) (op : Nat) (id : EngineId) (f : Fields) (body : Engine → Engine) :
    (s.issue op id f body).data = s.data := by
  simp [State.issue]
@[simp] theorem State.stopStreams_data (s : State) (st b status : Nat) : (s.stopStreams st b status).data = s.data := by rfl
@[simp] theorem State.dropStalled_data (s : State) (n : Nat) : (s.dropStalled n).data = s.data := by
  unfold State.dropStalled
  split <;> simp
@[simp] theorem State.programFault_data (s : State) (id : EngineId) (w : Nat) (a : Int) : (s.programFault id w a).data = s.data := by
  unfold State.programFault
  dsimp only
  (repeat' split) <;> simp
@[simp] theorem State.issueAccess_data (s : State) (op : Nat) (id : EngineId) (f : Fields) (modes : List Nat) (acc : ProgCtx → StreamDesc → LTy → Engine → Tab Byte → Access) :
    (s.issueAccess op id f modes acc).data = s.data := by
  unfold State.issueAccess
  dsimp only
  (repeat' split) <;> simp

/-! ### Tasks -/

@[simp] theorem State.adopt_data (s : State) (n : Nat) (a : Nat × Nat) : (s.adopt n a).data = s.data := by
  unfold State.adopt
  split <;> simp
@[simp] theorem State.strmArm_data (s : State) (n m : Nat) : (s.strmArm n m).data = s.data := by simp [State.strmArm]
@[simp] theorem State.adoptArmed_data (s : State) : s.adoptArmed.data = s.data := by
  refine foldl_data _ (fun t n => ?_) _ _
  split <;> simp
@[simp] theorem State.countStalls_data (s : State) (pos : Nat) : (s.countStalls pos).data = s.data := by
  unfold State.countStalls
  split <;> simp
@[simp] theorem State.instantiate_data (s : State) (g : Graph) (k l n b : Nat) : (s.instantiate g k l n b).data = s.data := by
  unfold State.instantiate
  split <;> simp
@[simp] theorem State.prefetch_data (s : State) (k c i : Nat) (p : Place) : (s.prefetch k c i p).data = s.data := by rfl
@[simp] theorem State.place_data (s : State) (g : Graph) (k i seat : Nat) : (s.place g k i seat).data = s.data := by
  unfold State.place
  dsimp only
  (repeat' split) <;> simp
@[simp] theorem State.beginBatch_data (s : State) (n : Nat) (b : Option Nat) : (s.beginBatch n b).data = s.data := by
  unfold State.beginBatch
  split <;> simp
@[simp] theorem State.startEngines_data (s : State) (c : Nat) (x : ProgCtx) : (s.startEngines c x).data = s.data := by simp [State.startEngines]
@[simp] theorem State.startCore_data (s : State) (g : Graph) (c : Nat) : (s.startCore g c).data = s.data := by
  unfold State.startCore
  dsimp only
  (repeat' split) <;> simp
@[simp] theorem State.startUnit_data (s : State) (g : Graph) (k u : Nat) : (s.startUnit g k u).data = s.data := by
  unfold State.startUnit
  split <;> simp
@[simp] theorem State.settleSeg_data (s : State) (g : Graph) (f : FlowRec) (k slot b seg : Nat) (bytes : Bytes) :
    (s.settleSeg g f k slot b seg bytes).data = s.data := by
  unfold State.settleSeg
  split <;> simp
@[simp] theorem State.handOff_data (s : State) (g : Graph) (k : Nat) (t : Tpl) (p : Place) (b : Nat) : (s.handOff g k t p b).2.data = s.data := by
  unfold State.handOff
  split <;> simp
@[simp] theorem State.freeSlot_data (s : State) (k i : Nat) : (s.freeSlot k i).data = s.data := by simp [State.freeSlot]
@[simp] theorem State.stageDone_data (s : State) (n : Nat) (fail : Nat) : (s.stageDone n fail).data = s.data := by simp [State.stageDone]
@[simp] theorem State.completeTask_data (s : State) (g : Graph) (k i : Nat) : (s.completeTask g k i).data = s.data := by
  unfold State.completeTask
  dsimp only
  (repeat' split) <;> simp
@[simp] theorem State.trcVote_data (s : State) (vote : Option (Fin 3)) : (s.trcVote vote).data = s.data := by
  unfold State.trcVote
  split <;> simp

/-! ### Columns -/

@[simp] theorem State.modTable_data (s : State) (t : Nat) (f : Table → Table) : (s.modTable t f).data = s.data := by rfl
@[simp] theorem State.setBuilt_data (s : State) (t : Nat) (b : Built) : (s.setBuilt t b).data = s.data := by rfl
@[simp] theorem State.readEffect_data (s : State) (sp : Space) (a n : Nat) : (s.readEffect sp a n).data = s.data := by
  unfold State.readEffect
  split <;> simp
@[simp] theorem State.readPieces_data (s : State) (ps : List (Space × Nat × Nat)) : (s.readPieces ps).data = s.data := by simp [State.readPieces]
@[simp] theorem State.unitEnd_data (s : State) (k slot fail : Nat) : (s.unitEnd k slot fail).data = s.data := by rfl
@[simp] theorem State.jobVoid_data (s : State) (j : Job2) (row reason : Nat) : (s.jobVoid j row reason).data = s.data := by
  unfold State.jobVoid
  split <;> simp
@[simp] theorem State.noteOut_data (s : State) (j : Job2) (cs : List ColW) (rs : Rows) (rows : List (List Cell)) :
    (s.noteOut j cs rs rows).data = s.data := by
  unfold State.noteOut
  split <;> simp
@[simp] theorem State.putOuts_data (s : State) (j : Job2) (cs : List ColW) (rs : Rows) (rows : List (List Cell)) :
    (s.putOuts j cs rs rows).data = s.data := by
  simp [State.putOuts]
@[simp] theorem State.setSlotVoids_data (s : State) (k : Nat) (cs : List ColW) (vs : Tab Nat) : (s.setSlotVoids k cs vs).data = s.data := by
  simp [State.setSlotVoids]
@[simp] theorem State.putPart_data (s : State) (j : Job2) (p : InPart) : (s.putPart j p).data = s.data := by
  unfold State.putPart
  split <;> simp

/-! ### Intake -/

@[simp] theorem State.laneTake_data (s : State) (g : Graph) (i j n b nImage nText : Nat) : (s.laneTake g i j n b nImage nText).data = s.data := by rfl
@[simp] theorem State.laneSettle_data (s : State) (i : Nat) : (s.laneSettle i).data = s.data := by
  unfold State.laneSettle
  split <;> simp
@[simp] theorem State.dropShuffled_data (s : State) (n lo : Nat) (hi : Option Nat) : (s.dropShuffled n lo hi).data = s.data := by
  simp [State.dropShuffled]
@[simp] theorem State.freshInput_data (s : State) (n : Nat) : (s.freshInput n).data = s.data := by simp [State.freshInput]
@[simp] theorem State.laneVoid_data (s : State) (g : Graph) (i n b slot reason : Nat) : (s.laneVoid g i n b slot reason).data = s.data := by
  simp [State.laneVoid]
@[simp] theorem State.modDec_data (s : State) (n t : Nat) (f : Dec → Dec) : (s.modDec n t f).data = s.data := by rfl
@[simp] theorem State.laneVoidRow_data (s : State) (i n t row reason : Nat) : (s.laneVoidRow i n t row reason).data = s.data := by
  simp [State.laneVoidRow]
@[simp] theorem State.laneVoids_data (s : State) (g : Graph) (i n reason : Nat) (into : Into) (rows : List Nat) :
    (s.laneVoids g i n reason into rows).data = s.data := by
  cases into <;> simp [State.laneVoids]
@[simp] theorem State.laneDid_data (s : State) (i : Nat) (into : Into) (rows : List Nat) : (s.laneDid i into rows).data = s.data := by
  unfold State.laneDid
  split <;> simp
@[simp] theorem State.noteDests_data (s : State) (n : Nat) (into : Into) (ds : List Dest) : (s.noteDests n into ds).data = s.data := by
  unfold State.noteDests
  split <;> simp

/-! ### HostCmds -/

@[simp] theorem State.dropGraph_data (s : State) : (s.dropGraph).data = s.data := by rfl
@[simp] theorem State.dropStopped_data (s : State) (n : Nat) : (s.dropStopped n).data = s.data := by
  unfold State.dropStopped
  split <;> simp
@[simp] theorem State.cancelWaitingRuns_data (s : State) (n : Nat) : (s.cancelWaitingRuns n).data = s.data := by simp [State.cancelWaitingRuns]

/-! ### PageDecode -/

@[simp] theorem State.putDest_data (s : State) (n b : Nat) (d : Dest) (rows : List RowOut) : (s.putDest n b d rows).2.data = s.data := by
  unfold State.putDest
  split <;> simp
@[simp] theorem State.landBatch_data (s : State) (g : Graph) (i n b : Nat) (ds : List Dest) (rows : List RowOut) :
    (s.landBatch g i n b ds rows).data = s.data := by
  simp [State.landBatch]

/-! ### Chervil -/

@[simp] theorem State.sampleEnd_data (s : State) (g : Graph) (i n slot col charge : Nat) (x : Sample) (patient : Bool) :
    (s.sampleEnd g i n slot col charge x patient).data = s.data := by rfl
@[simp] theorem State.sampleVoid_data (s : State) (g : Graph) (i n b slot cls reason : Nat) :
    (s.sampleVoid g i n b slot cls reason).data = s.data := by
  simp [State.sampleVoid]
@[simp] theorem State.sampleOver_data (s : State) (g : Graph) (i n b slot : Nat) (x : Sample) : (s.sampleOver g i n b slot x).data = s.data := by
  simp [State.sampleOver]
@[simp] theorem State.setMade_data (s : State) (i slot : Nat) (image : Bool) (o : Nat) : (s.setMade i slot image o).data = s.data := by rfl

/-! ### Quern -/

@[simp] theorem State.countProbe_data (s : State) (j : Job2) (parts : List ColW) (rs : Rows) (extra : Nat → Bool) :
    (s.countProbe j parts rs extra).data = s.data := by rfl
@[simp] theorem State.spillEnds_data (s : State) (j : Job2) : (s.spillEnds j).data = s.data := by
  unfold State.spillEnds
  split <;> simp
@[simp] theorem State.countGroups_data (s : State) (j : Job2) (d : GroupDecl) (voids blocks : Nat) (rows : List GRow) :
    (s.countGroups j d voids blocks rows).data = s.data := by rfl
@[simp] theorem State.broadcast_data (s : State) (j : Job2) (d : GroupDecl) (gs : List (List Cell × List (Cell × Bool))) (ps : List InPart) :
    (s.broadcast j d gs ps).data = s.data := by
  simp [State.broadcast]

/-! ### Select -/

@[simp] theorem State.putSelection_data (s : State) (j : Job2) (res : ColW) (off : Nat) (x : Selection) (cap vsize fill : Nat) (ident top : Bool) :
    (s.putSelection j res off x cap vsize fill ident top).data = s.data := by
  simp [State.putSelection]
@[simp] theorem State.shareSelection_data (s : State) (j : Job2) (p : InPart) (res : ColW) (out : List InPart → Selection × Bytes × Bool × Nat) :
    (s.shareSelection j p res out).data = s.data := by
  simp [State.shareSelection]
@[simp] theorem State.topkRows_data (s : State) (j : Job2) (th : Option Thresh) (c ident res : ColW) (hasId : Bool) (rs : Rows) :
    (s.topkRows j th c ident res hasId rs).data = s.data := by
  simp [State.topkRows]

/-! ### Gather -/

@[simp] theorem State.countGather_data (s : State) (k : Nat) (ins : List (Nat × Nat × IndexIn)) (scatter : Bool) (mode : Nat) (w : Window) :
    (s.countGather k ins scatter mode w).data = s.data := by rfl
@[simp] theorem State.setScat_data (s : State) (j : Job2) (t : Tab Nat) : (s.setScat j t).data = s.data := by
  unfold State.setScat
  split <;> simp
@[simp] theorem drawOrder_data {α : Type} (n : Nat) (l : List α) (s : State) : (drawOrder n l s).2.data = s.data := by
  induction n generalizing l s with
  | zero => rfl
  | succ n ih => cases l <;> simp [drawOrder, ih]

/-! ### SageOps -/

@[simp] theorem State.modBank_data (s : State) (k b : Nat) (f : SageBank → SageBank) : (s.modBank k b f).data = s.data := by rfl
@[simp] theorem State.sageUpsets_data (s : State) (k : Nat) (us : List SageUpset) : (s.sageUpsets k us).data = s.data := by simp [State.sageUpsets]
@[simp] theorem State.sageRepair_data (s : State) (k b : Nat) (f : Found) : (s.sageRepair k b f).data = s.data := by simp [State.sageRepair]
@[simp] theorem State.sageWriteApply_data (s : State) (k : Nat) (w : SageWr) : (s.sageWriteApply k w).data = s.data := by simp [State.sageWriteApply]
@[simp] theorem State.sageApply_data (s : State) (k b : Nat) : (s.sageApply k b).data = s.data := by
  unfold State.sageApply
  dsimp only
  (repeat' split) <;> simp
@[simp] theorem State.lookupRow_data (s : State) (k b slot steps : Nat) (parts : List ColW) (xs : List Cell) (again : Bool) :
    (s.lookupRow k b slot steps parts xs again).2.data = s.data := by
  unfold State.lookupRow
  dsimp only
  (repeat' split) <;> simp
@[simp] theorem State.lookupRows_data (k slot steps : Nat) (parts : List ColW) (banks : List Nat) (xs : List (Bool × List Cell)) (p : LookProg) (s : State) :
    (State.lookupRows k slot steps parts banks xs p s).2.2.data = s.data := by
  induction xs generalizing p s with
  | nil => rfl
  | cons x r ih =>
    unfold State.lookupRows
    dsimp only
    (repeat' split) <;> simp [ih]

/-! ### Millstone -/

@[simp] theorem State.putTensor_data (s : State) (k slot ty n rnd : Nat) (r : TaskRec) (slotOf holes : Nat → Nat) (rows : List (OutRow × Nat)) :
    (s.putTensor k slot ty n rnd r slotOf holes rows).1.data = s.data := by
  unfold State.putTensor
  split <;> simp
@[simp] theorem State.noteRows_data (s : State) (k : Nat) (r : TaskRec) (l : LayerRec) (n : Nat) (rows : List (OutRow × Nat)) :
    (s.noteRows k r l n rows).data = s.data := by
  simp [State.noteRows]
@[simp] theorem State.passVoids_data (s : State) (k : Nat) (r : TaskRec) (l : LayerRec) (reasons : List Nat) :
    (s.passVoids k r l reasons).data = s.data := by
  simp [State.passVoids]
@[simp] theorem State.endLayer_data (s : State) (k slot : Nat) (t : Tpl) (flags macs cycles : Nat) :
    (s.endLayer k slot t flags macs cycles).data = s.data := by
  simp [State.endLayer]

/-! ### Open -/

@[simp] theorem State.startStages_data (s : State) (g : Graph) (n : Nat) (need done : List Nat) : (s.startStages g n need done).data = s.data := by
  refine (foldl_data _ (fun t p => ?_) _ _).trans (State.modWork_data _ _)
  dsimp only
  split <;> simp
@[simp] theorem State.clearLimits_data (s : State) : (s.clearLimits).data = s.data := by rfl
theorem State.openVariant_data {s u : State} {g : Graph} (h : s.openVariant g = some u) : u.data = s.data := by
  unfold State.openVariant at h
  split at h
  · rw [← Option.some_inj.mp h]
  · obtain ⟨v, -, rfl⟩ := Option.map_eq_some_iff.mp h
    simp
@[simp] theorem State.forgetLaid_data (s : State) (n : Nat) : (s.forgetLaid n).data = s.data := by rfl
@[simp] theorem State.freshFlows_data (s : State) (g : Graph) (n : Nat) : (s.freshFlows g n).data = s.data := by simp [State.freshFlows]
@[simp] theorem State.openWith_data (s : State) (g : Graph) (c : Cmd) (ring : List Bytes) (src : Nat) : (s.openWith g c ring src).data = s.data := by
  simp [State.openWith]

/-! ### Errors -/

@[simp] theorem State.refit_data (s : State) : (s.refit).data = s.data := by simp [State.refit]
@[simp] theorem State.checkGrade_data (s : State) : (s.checkGrade).data = s.data := by simp [State.checkGrade]
@[simp] theorem State.refitted_data (s : State) : (s.refitted).data = s.data := by simp [State.refitted]
@[simp] theorem State.pcieLost_data (s : State) : (s.pcieLost).data = s.data := by simp [State.pcieLost]
@[simp] theorem State.rologLost_data (s : State) (p : Nat) : (s.rologLost p).data = s.data := by simp [State.rologLost]
@[simp] theorem State.removeUnit_data (s : State) (kind index : Nat) : (s.removeUnit kind index).data = s.data := by simp [State.removeUnit]
@[simp] theorem State.loseCore_data (s : State) (i : Nat) : (s.loseCore i).data = s.data := by rfl
@[simp] theorem State.restageAll_data (s : State) (n : Nat) : (s.restageAll n).data = s.data := by
  unfold State.restageAll
  split <;> simp
@[simp] theorem State.loseRecords_data (s : State) (k : Nat) : (s.loseRecords k).data = s.data := by simp [State.loseRecords]
@[simp] theorem State.loseContents_data (s : State) (kind index : Nat) : (s.loseContents kind index).data = s.data := by
  unfold State.loseContents
  split <;> simp
@[simp] theorem State.restartStage_data (s : State) (n tpl : Nat) : (s.restartStage n tpl).data = s.data := by
  unfold State.restartStage
  split <;> simp
@[simp] theorem State.restartStages_data (s : State) (k : Nat) : (s.restartStages k).data = s.data := by simp [State.restartStages]
@[simp] theorem State.restartWriters_data (s : State) (a : Nat) : (s.restartWriters a).data = s.data := by
  unfold State.restartWriters
  split <;> simp
@[simp] theorem State.bankTested_data (s : State) (index : Nat) : (s.bankTested index).data = s.data := by rfl
@[simp] theorem State.rewind_data (s : State) (num kind index : Nat) : (s.rewind num kind index).data = s.data := by simp [State.rewind]
@[simp] theorem State.applyLasting_data (s : State) (r : Recovery) (outcome : Nat) : (s.applyLasting r outcome).data = s.data := by
  simp [State.applyLasting]
@[simp] theorem State.errInject_data (s : State) (m kind index : Nat) : (s.errInject m kind index).data = s.data := by simp [State.errInject]
@[simp] theorem State.mapoutClear_data (s : State) (m : Nat) : (s.mapoutClear m).data = s.data := by simp [State.mapoutClear]

/-! ### HostQueues -/

@[simp] theorem State.attachGo_data (s : State) (m : Nat) : (s.attachGo m).data = s.data := by simp [State.attachGo]
@[simp] theorem State.qpError_data (s : State) (q : Nat) : (s.qpError q).data = s.data := by simp [State.qpError]
@[simp] theorem State.takeDoorbell_data (s : State) (q tail head : Nat) : (s.takeDoorbell q tail head).2.data = s.data := by simp [State.takeDoorbell]
@[simp] theorem State.duplicate_data (s : State) (q : Nat) (e : SubEntry) (head : Nat) (w : WindowId) : (s.duplicate q e head w).data = s.data := by
  unfold State.duplicate
  split <;> simp
@[simp] theorem State.accept_data (s : State) (q : Nat) (e : SubEntry) (head : Nat) : (s.accept q e head).data = s.data := by simp [State.accept]
@[simp] theorem State.beginUnknown_data (s : State) (seq : Nat) : (s.beginUnknown seq).data = s.data := by
  unfold State.beginUnknown
  split <;> simp
@[simp] theorem State.syncReady_data (s : State) : (s.syncReady).data = s.data := by simp [State.syncReady]
@[simp] theorem State.complete_data (s : State) (c : Cmd) (status result : Nat) : (s.complete c status result).data = s.data := by
  simp [State.complete]
@[simp] theorem State.batchWritten_data (s : State) (n b : Nat) (late : Bool) : (s.batchWritten n b late).data = s.data := by
  simp [State.batchWritten]
@[simp] theorem State.sendDone_data (s : State) (n : Nat) : (s.sendDone n).data = s.data := by simp [State.sendDone]
@[simp] theorem State.journalGo_data (s : State) : (s.journalGo).data = s.data := by simp [State.journalGo]
@[simp] theorem State.announceWalk_data (s : State) (rs : List (Nat × Nat × Nat × Nat)) : (s.announceWalk rs).data = s.data := by
  simp [State.announceWalk]
@[simp] theorem State.qpEnable_data (s : State) (q m : Nat) : (s.qpEnable q m).data = s.data := by simp [State.qpEnable]
@[simp] theorem State.qpDisable_data (s : State) (q m : Nat) : (s.qpDisable q m).data = s.data := by simp [State.qpDisable]

/-! ### PairLink -/

@[simp] theorem State.sendHeartbeat_data (s : State) (nak : Bool) : (s.sendHeartbeat nak).data = s.data := by simp [State.sendHeartbeat]
@[simp] theorem State.sendHello_data (s : State) : (s.sendHello).data = s.data := by simp [State.sendHello]
@[simp] theorem State.resendUnacked_data (s : State) : (s.resendUnacked).data = s.data := by simp [State.resendUnacked]
@[simp] theorem State.takeAck_data (s : State) (m : PairMsg) : (s.takeAck m).data = s.data := by simp [State.takeAck]
@[simp] theorem State.pairRx_data (s : State) (msg : Bytes) (t ty : Nat) (f : PairMsg → State → State) (hf : ∀ m t, (f m t).data = t.data) :
    (s.pairRx msg t ty f).data = s.data := by
  unfold State.pairRx
  split <;> simp [hf]
@[simp] theorem State.pairErr_data (s : State) (was : Bool) (f : Pair2 → Pair2) : (s.pairErr was f).data = s.data := by simp [State.pairErr]
@[simp] theorem State.announceWaiting_data (s : State) : (s.announceWaiting).data = s.data := by simp [State.announceWaiting]
@[simp] theorem State.syncRest_data (s : State) : (s.syncRest).data = s.data := by simp [State.syncRest]
@[simp] theorem State.enterSyncing_data (s : State) : s.enterSyncing.data = s.data := by
  unfold State.enterSyncing
  dsimp only
  split <;> simp [↓State.data_mk, ↓State.data_eta]
@[simp] theorem State.judgeHello_data (s : State) (p : Bytes) : (s.judgeHello p).data = s.data := by
  unfold State.judgeHello
  dsimp only
  (repeat' split) <;> simp
@[simp] theorem State.losePeer_data (s : State) : (s.losePeer).data = s.data := by
  unfold State.losePeer
  split <;> simp
@[simp] theorem State.secondaryJoined_data (s : State) : (s.secondaryJoined).data = s.data := by
  unfold State.secondaryJoined
  dsimp only
  (repeat' split) <;> simp
@[simp] theorem State.announceDone_data (s : State) (a : Announce) : (s.announceDone a).data = s.data := by simp [State.announceDone]
@[simp] theorem State.addSetup_data (s : State) (q : Nat) (e : SubEntry) : (s.addSetup q e).data = s.data := by rfl
@[simp] theorem State.joinAt_data (s : State) (n j : Nat) : (s.joinAt n j).data = s.data := by
  unfold State.joinAt
  dsimp only
  (repeat' split) <;> simp
@[simp] theorem State.portChange_data (s : State) (p lanes latency : Nat) : (s.portChange p lanes latency).data = s.data := by simp [State.portChange]
@[simp] theorem State.setRole_data (s : State) (r : Nat) : (s.setRole r).data = s.data := by simp [State.setRole]

/-! ### Chain -/

@[simp] theorem State.releaseHeld_data (s : State) : (s.releaseHeld).data = s.data := by simp [State.releaseHeld]
@[simp] theorem State.chainRx_data (s : State) (tok : Bytes) (f : Nat → Nat → Bytes → State → State) (hf : ∀ ty h pl t, (f ty h pl t).data = t.data) :
    (s.chainRx tok f).data = s.data := by
  unfold State.chainRx
  split <;> simp [hf]
@[simp] theorem State.chainRepeat_data (s : State) (ty hops : Nat) (pl : Bytes) : (s.chainRepeat ty hops pl).data = s.data := by
  simp [State.chainRepeat]
@[simp] theorem State.enumPassed_data (s : State) : (s.enumPassed).data = s.data := by simp [State.enumPassed]
@[simp] theorem State.chainConflict_data (s : State) (id : Nat) : (s.chainConflict id).data = s.data := by simp [State.chainConflict]
@[simp] theorem State.chainDeliver_data (s : State) (hops : Nat) (pl : Bytes) (t : Nat) : (s.chainDeliver hops pl t).data = s.data := by
  simp [State.chainDeliver]
@[simp] theorem State.beatToken_data (s : State) (hops : Nat) (pl : Bytes) (t : Nat) : (s.beatToken hops pl t).data = s.data := by
  simp [State.beatToken]
@[simp] theorem State.takePosition_data (s : State) (n : Nat) : (s.takePosition n).data = s.data := by simp [State.takePosition]
@[simp] theorem State.enumToken_data (s : State) (hops : Nat) (pl : Bytes) : (s.enumToken hops pl).data = s.data := by simp [State.enumToken]
@[simp] theorem State.mgmtDeliver_data (s : State) (pl : Bytes) : (s.mgmtDeliver pl).data = s.data := by simp [State.mgmtDeliver]
@[simp] theorem State.mgmtToken_data (s : State) (hops : Nat) (pl : Bytes) : (s.mgmtToken hops pl).data = s.data := by simp [State.mgmtToken]
@[simp] theorem State.chainToken_data (s : State) (ty hops : Nat) (pl : Bytes) (t : Nat) : (s.chainToken ty hops pl t).data = s.data := by
  simp [State.chainToken]
@[simp] theorem State.setInsert_data (s : State) (b : Bool) : (s.setInsert b).data = s.data := by simp [State.setInsert]

/-! ### Dma -/

@[simp] theorem State.chArm_data (s : State) (c m : Nat) : (s.chArm c m).data = s.data := by simp [State.chArm]
@[simp] theorem State.chRepoke_data (s : State) (c m : Nat) : (s.chRepoke c m).data = s.data := by simp [State.chRepoke]
@[simp] theorem State.chResumeSkip_data (s : State) (c m : Nat) : (s.chResumeSkip c m).data = s.data := by simp [State.chResumeSkip]
@[simp] theorem State.chainRead_data (s : State) (e : BusEnv) (x : Chan) (a n : Nat) : (s.chainRead e x a n).2.data = s.data := by
  unfold State.chainRead
  split <;> simp
@[simp] theorem State.readBurst_data (s : State) (e : BusEnv) (c : Nat) (d : Desc) (off n : Nat) : (s.readBurst e c d off n).2.data = s.data := by
  unfold State.readBurst
  (repeat' split) <;> simp
@[simp] theorem State.cplTimeout_data (s : State) : (s.cplTimeout).data = s.data := by simp [State.cplTimeout]
@[simp] theorem State.burstFails_data (s : State) (c : Nat) (j : Job) (b : Burst) (rest : List Burst) (cause : Nat) (wr : Bool) :
    (s.burstFails c j b rest cause wr).data = s.data := by
  simp [State.burstFails]
@[simp] theorem State.dmaPulse_data (s : State) (p : Nat) : (s.dmaPulse p).data = s.data := by simp [State.dmaPulse]

/-! ### Events -/

@[simp] theorem State.evcVote_data (s : State) (vote : Option (Fin 3)) : (s.evcVote vote).data = s.data := by
  unfold State.evcVote
  split <;> simp
@[simp] theorem State.tgtComplete_data (s : State) (t n m off : Nat) : (s.tgtComplete t n m off).data = s.data := by
  unfold State.tgtComplete
  dsimp only
  (repeat' split) <;> simp
@[simp] theorem State.tgtFlush_data (s : State) (t m : Nat) : (s.tgtFlush t m).data = s.data := by simp [State.tgtFlush]

/-! ### Fabric -/

@[simp] theorem State.portCycle_data (s : State) (k cyc out : Nat) : (s.portCycle k cyc out).data = s.data := by
  unfold State.portCycle
  dsimp only
  (repeat' split) <;> simp
@[simp] theorem State.fabricCycle_data (s : State) (cyc : Nat) : (s.fabricCycle cyc).data = s.data := by simp [State.fabricCycle]
@[simp] theorem State.fabricTick_data (s : State) : (s.fabricTick).data = s.data := by simp [State.fabricTick]
@[simp] theorem State.linkTaken_data (s : State) (k port : Nat) : (s.linkTaken k port).data = s.data := by
  unfold State.linkTaken
  split <;> simp
@[simp] theorem State.unmapped_data (s : State) (code : Nat) : (s.unmapped code).data = s.data := by simp [State.unmapped]

/-! ### Lease -/

@[simp] theorem State.handover_data (s : State) : (s.handover).data = s.data := by simp [State.handover]
@[simp] theorem State.leave_data (s : State) : (s.leave).data = s.data := by simp [State.leave]

/-! ### Load -/

@[simp] theorem State.signatureFail_data (s : State) (seq : Nat) : (s.signatureFail seq).data = s.data := by simp [State.signatureFail]

/-! ### Lovage -/

@[simp] theorem State.putImage_data (s : State) (n b : Nat) (d : PrepDecl) (dst : Dest) (slot : Nat) (valid : Bool) (codes : List Nat × List Nat) (pads : List Bool) :
    (s.putImage n b d dst slot valid codes pads).data = s.data := by
  unfold State.putImage
  split <;> simp
@[simp] theorem State.lovageWork_data (s : State) (i n b slot : Nat) (d : PrepDecl) (m : Img) (mesh lens : List FVal) (dst : Dest) :
    (s.lovageWork i n b slot d m mesh lens dst).data = s.data := by
  simp [State.lovageWork]

/-! ### Resets -/

@[simp] theorem State.unboot_data (s : State) : (s.unboot).data = s.data := by rfl
@[simp] theorem State.beginBoot_data (s : State) : (s.beginBoot).data = s.data := by rfl
@[simp] theorem State.runImage_data (s : State) (ty slot : Nat) : (s.runImage ty slot).data = s.data := by rfl
@[simp] theorem State.bootRemoval_data (s : State) (kind index : Nat) : (s.bootRemoval kind index).data = s.data := by simp [State.bootRemoval]
@[simp] theorem State.bootRepair_data (s : State) (found : Present) : (s.bootRepair found).data = s.data := by simp [State.bootRepair]
@[simp] theorem State.warmState_data (s : State) : (s.warmState).data = s.data := by rfl

/-! ### Power -/

@[simp] theorem State.setCap_data (s : State) (w : Nat) : (s.setCap w).data = s.data := by rfl
@[simp] theorem State.endRequest_data (s : State) (result : Nat) : (s.endRequest result).data = s.data := by simp [State.endRequest]
@[simp] theorem State.domainFields_data (s : State) (d : Nat) (down force : Bool) : (s.domainFields d down force).data = s.data := by rfl
@[simp] theorem State.domainGo_data (s : State) (m d : Nat) (down force : Bool) : (s.domainGo m d down force).data = s.data := by
  simp [State.domainGo]
@[simp] theorem State.clusterGone_data (s : State) (k : Nat) : (s.clusterGone k).data = s.data := by rfl
@[simp] theorem State.laneGone_data (s : State) (i : Nat) : (s.laneGone i).data = s.data := by rfl
@[simp] theorem State.cutTransfer_data (s : State) (c d : Nat) : (s.cutTransfer c d).data = s.data := by
  unfold State.cutTransfer
  split <;> simp
@[simp] theorem State.markForced_data (s : State) (d : Nat) : (s.markForced d).data = s.data := by
  refine foldl_data _ (fun t r => ?_) _ _
  split <;> simp

/-! ### PciSpace -/

@[simp] theorem State.releasePending_data (s : State) : (s.releasePending).data = s.data := by simp [State.releasePending]
@[simp] theorem State.bar4Write_data (s : State) (o w : Nat) : (s.bar4Write o w).data = s.data := by
  unfold State.bar4Write
  (repeat' split) <;> simp
@[simp] theorem State.cfgWrite_data (s : State) (o w : Nat) : (s.cfgWrite o w).data = s.data := by
  unfold State.cfgWrite
  split <;> simp

/-! ### RegMap -/

/-- A value that a list gives a key stands in the list. -/
theorem mem_of_lookup {β : Type} {k : Nat} {v : β} : ∀ {l : List (Nat × β)}, l.lookup k = some v → (k, v) ∈ l
  | (j, w) :: r, h => by
    rw [List.lookup_cons] at h
    split at h
    · rename_i hk
      obtain rfl := Option.some_inj.mp h
      rw [eq_of_beq hk]
      exact List.mem_cons_self
    · exact List.mem_cons_of_mem _ (mem_of_lookup h)

/-- The clearing of a counter, of every block. -/
theorem BlockId.rcs_data (b : BlockId) : ∀ r ∈ b.block.rcs, ∀ n s, (r.2.2 n s).data = s.data := by
  cases b <;> simp [BlockId.block, glbBlock, trcBlock, flowBlock, weirBlock, weirHeldBlock, strmBlock, pciBlock, errBlock, qpBlock, jrnBlock, evcBlock,
    tgtBlock, hostPendBlock, srcBlock, srcLostBlock, chBlock, rlgBlock, pwrBlock, mgtBlock, secBlock, qrnBlock, srlBlock, sageBlock, mlsBlock, dspBlock,
    netBlock, coreBlock, laneBlock, hbmBlock]

/-- The action of a read of a _LO register, of every block. -/
theorem BlockId.los_data (b : BlockId) : ∀ r ∈ b.block.los, ∀ n s, (r.2 n s).data = s.data := by
  cases b <;> simp [BlockId.block, glbBlock, trcBlock, flowBlock, weirBlock, weirHeldBlock, strmBlock, pciBlock, errBlock, qpBlock, jrnBlock, evcBlock,
    tgtBlock, hostPendBlock, srcBlock, srcLostBlock, chBlock, rlgBlock, pwrBlock, mgtBlock, secBlock, qrnBlock, srlBlock, sageBlock, mlsBlock, dspBlock,
    netBlock, coreBlock, laneBlock, hbmBlock]

/-- What a read of a counter does beside answering its value. -/
theorem BlockId.rcRead_data (b : BlockId) (o n : Nat) (s : State) :
    (match b.block.rcs.lookup o with | some g => g.2 n s | none => s).data = s.data := by
  split
  · exact b.rcs_data _ (mem_of_lookup ‹_›) n s
  · rfl

/-- What a read of a _LO register does beside answering its value. -/
theorem BlockId.loRead_data (b : BlockId) (o n : Nat) (s : State) :
    (match b.block.los.lookup o with | some g => g n s | none => s).data = s.data := by
  split
  · exact b.los_data _ (mem_of_lookup ‹_›) n s
  · rfl

@[simp] theorem State.regRead_data (s : State) (off inc : Nat) : (s.regRead off inc).2.data = s.data := by
  unfold State.regRead
  dsimp only
  split
  · rfl
  · split
    · rfl
    · split
      · rfl
      · rfl
      · refine (BlockId.rcRead_data _ _ _ _).trans ((BlockId.loRead_data _ _ _ _).trans ?_)
        split <;> rfl

/-! ### RegWrite -/

@[simp] theorem State.idleWrite_data (s : State) (busy differs : Bool) (off m : Nat) (f : State → State) (hf : ∀ t, (f t).data = t.data) :
    (s.idleWrite busy differs off m f).data = s.data := by
  simp [State.idleWrite, hf]
@[simp] theorem State.pairWrite_data (s : State) (busy : Bool) (off m : Nat) (hi : Bool) (v : Nat) (p : Pair) (f : Pair → State → State)
    (hf : ∀ p t, (f p t).data = t.data) : (s.pairWrite busy off m hi v p f).data = s.data := by
  simp [State.pairWrite, hf]
@[simp] theorem State.strmWrite_data (s : State) (n m o v : Nat) : (s.strmWrite n m o v).data = s.data := by
  unfold State.strmWrite
  split <;> simp
@[simp] theorem State.errWrite_data (s : State) (m o v : Nat) : (s.errWrite m o v).data = s.data := by
  unfold State.errWrite
  split <;> simp
@[simp] theorem State.qpWrite_data (s : State) (q m off o v : Nat) : (s.qpWrite q m off o v).data = s.data := by
  unfold State.qpWrite
  split <;> simp
@[simp] theorem State.jrnWrite_data (s : State) (m off o v : Nat) : (s.jrnWrite m off o v).data = s.data := by
  unfold State.jrnWrite
  split <;> simp
@[simp] theorem State.ackPend_data (s : State) (w v : Nat) : (s.ackPend w v).data = s.data := by rfl
@[simp] theorem State.tgtWrite_data (s : State) (t m off o v : Nat) : (s.tgtWrite t m off o v).data = s.data := by
  unfold State.tgtWrite
  split <;> simp
@[simp] theorem State.srcWrite_data (s : State) (n m off o v : Nat) : (s.srcWrite n m off o v).data = s.data := by
  unfold State.srcWrite
  split <;> simp
@[simp] theorem State.rlgWrite_data (s : State) (m off o v : Nat) : (s.rlgWrite m off o v).data = s.data := by
  unfold State.rlgWrite
  split <;> simp
@[simp] theorem State.pwrWrite_data (s : State) (m off o v : Nat) : (s.pwrWrite m off o v).data = s.data := by
  unfold State.pwrWrite
  split <;> simp
@[simp] theorem State.sageWrite_data (s : State) (k o v : Nat) : (s.sageWrite k o v).data = s.data := by
  unfold State.sageWrite
  (repeat' split) <;> simp
@[simp] theorem State.mlsWrite_data (s : State) (k o v : Nat) : (s.mlsWrite k o v).data = s.data := by
  unfold State.mlsWrite
  split <;> simp
@[simp] theorem State.dspWrite_data (s : State) (k o v : Nat) : (s.dspWrite k o v).data = s.data := by
  unfold State.dspWrite
  split <;> simp
@[simp] theorem State.netWrite_data (s : State) (k o v : Nat) : (s.netWrite k o v).data = s.data := by
  unfold State.netWrite
  split <;> simp
@[simp] theorem State.coreWrite_data (s : State) (c o v : Nat) : (s.coreWrite c o v).data = s.data := by
  unfold State.coreWrite
  split <;> simp
@[simp] theorem State.badAccess_data (s : State) (off : Nat) (rd : Bool) : (s.badAccess off rd).data = s.data := by simp [State.badAccess]
@[simp] theorem State.access_data (s : State) (off len inc : Nat) : (s.access off len inc).data = s.data := by simp [State.access]

/-! ### Words -/

@[simp] theorem State.issueNorm_data (s : State) (op : Nat) (id : EngineId) (f : Fields) (body : Engine → Engine) :
    (s.issueNorm op id f body).data = s.data := by
  unfold State.issueNorm
  split <;> simp
@[simp] theorem State.issueLoop_data (s : State) (id : EngineId) (f : Fields) : (s.issueLoop id f).data = s.data := by simp [State.issueLoop]
@[simp] theorem State.issueLend_data (s : State) (id : EngineId) (f : Fields) : (s.issueLend id f).data = s.data := by simp [State.issueLend]
end Sys2Proof.Machine
end

section
/-! Proofs about what every step keeps: the operations that write a memory -/

namespace Sys2Proof.Machine

/-! ### What counts as a writer only by what it calls -/
section
@[simp] theorem State.floorCheck_data (s : State) : s.floorCheck.data = s.data := by simp [State.floorCheck]
@[simp] theorem State.putTokens_data (s : State) (n b : Nat) (d : TokDecl) (dst : Dest) (slot : Nat) (ids : Option (List Nat)) (cut void : Bool) :
    (s.putTokens n b d dst slot ids cut void).data = s.data := by
  unfold State.putTokens
  split <;> simp
@[simp] theorem State.chAbort_data (s : State) (c m : Nat) : (s.chAbort c m).data = s.data := by simp [State.chAbort]
@[simp] theorem State.chResume_data (s : State) (c m : Nat) : (s.chResume c m).data = s.data := by simp [State.chResume]
@[simp] theorem State.startDesc_data (s : State) (c op : Nat) : (s.startDesc c op).data = s.data := by
  unfold State.startDesc
  dsimp only
  (repeat' split) <;> simp
@[simp] theorem State.extEffect_data (s : State) (exts : List Extent) (o n : Nat) : (s.extEffect exts o n).data = s.data := by simp [State.extEffect]
@[simp] theorem State.placeGraph_data (s : State) (g : Graph) : (s.placeGraph g).data = s.data := by simp [State.placeGraph]
@[simp] theorem State.chWrite_data (s : State) (c m off o v : Nat) : (s.chWrite c m off o v).data = s.data := by
  unfold State.chWrite
  dsimp only
  (repeat' split) <;> simp
@[simp] theorem State.endWaiters_data (s : State) (d : Nat) (off : Bool) : (s.endWaiters d off).data = s.data := by
  refine foldl_data _ (fun t c => ?_) _ _
  (repeat' split) <;> simp
end

variable {σ : List Instr × Tab Byte × Tab Byte}

theorem Keeps.withBus {p : List Instr} {b b' h : Tab Byte} (hk : Keeps σ (p, b, h)) (hb : memWf b = true → memWf b' = true) : Keeps σ (p, b', h) :=
  ⟨hk.queue, hb ∘ hk.bus, hk.hbm⟩

theorem Keeps.withHbm {p : List Instr} {b h h' : Tab Byte} (hk : Keeps σ (p, b, h)) (hh : memWf h = true → memWf h' = true) : Keeps σ (p, b, h') :=
  ⟨hk.queue, hk.bus, hh ∘ hk.hbm⟩

@[simp] theorem keeps_ite (c : Prop) [Decidable c] {a b : List Instr × Tab Byte × Tab Byte} (ha : Keeps σ a) (hb : Keeps σ b) : Keeps σ (if c then a else b) := by
  split <;> assumption

variable {β γ : Type}

@[simp] theorem foldl_keeps (f : State → β → State) (hf : ∀ t x, Keeps t.data (f t x).data) (l : List β) {s : State} (h : Keeps σ s.data) :
    Keeps σ (l.foldl f s).data := by
  induction l generalizing s with
  | nil => exact h
  | cons x xs ih => exact ih (h.trans (hf s x))

@[simp] theorem foldl_keeps_fst (f : State × γ → β → State × γ) (hf : ∀ a x, Keeps a.1.data (f a x).1.data) (l : List β) {a : State × γ}
    (h : Keeps σ a.1.data) : Keeps σ (l.foldl f a).1.data := by
  induction l generalizing a with
  | nil => exact h
  | cons x xs ih => exact ih (h.trans (hf a x))

@[simp] theorem foldl_keeps_snd (f : γ × State → β → γ × State) (hf : ∀ a x, Keeps a.2.data (f a x).2.data) (l : List β) {a : γ × State}
    (h : Keeps σ a.2.data) : Keeps σ (l.foldl f a).2.data := by
  induction l generalizing a with
  | nil => exact h
  | cons x xs ih => exact ih (h.trans (hf a x))

theorem foldl_memWf (f : Tab Byte → β → Tab Byte) (hf : ∀ m x, memWf m = true → memWf (f m x) = true) (l : List β) {m : Tab Byte}
    (h : memWf m = true) : memWf (l.foldl f m) = true := by
  induction l generalizing m with
  | nil => exact h
  | cons x xs ih => exact ih (hf m x h)

theorem foldl_fst_memWf (f : Tab Byte × γ → β → Tab Byte × γ) (hf : ∀ a x, memWf a.1 = true → memWf (f a x).1 = true) (l : List β) {a : Tab Byte × γ}
    (h : memWf a.1 = true) : memWf (l.foldl f a).1 = true := by
  induction l generalizing a with
  | nil => exact h
  | cons x xs ih => exact ih (hf a x h)

/-! ### The writes themselves -/

@[simp] theorem State.env_keeps {s : State} (h : Keeps σ s.data) (e : BusEnv) : Keeps σ (s.env e).data :=
  h.withBus (foldl_memWf _ (fun m w => memWf_writeBytes w.2 m w.1) e.stores)

@[simp] theorem State.rawWrite_keeps {s : State} (h : Keeps σ s.data) (a : Nat) (bs : Bytes) : Keeps σ (s.rawWrite a bs).data :=
  h.withBus (memWf_writeBytes bs _ a)

@[simp] theorem State.busWrite_keeps {s : State} (h : Keeps σ s.data) (a : Nat) (bs : Bytes) : Keeps σ (s.busWrite a bs).data := by
  unfold State.busWrite
  split
  · exact State.rawWrite_keeps h a bs
  · exact h

theorem Mem.writeHbm_wf (m : Mem) (a : Nat) (bs : Bytes) (h : memWf m.hbm = true) : memWf (m.writeHbm a bs).hbm = true := memWf_writeBytes bs _ a h

@[simp] theorem State.hbmWrite_keeps {s : State} (h : Keeps σ s.data) (a : Nat) (bs : Bytes) : Keeps σ (s.hbmWrite a bs).data := by
  unfold State.hbmWrite
  dsimp only
  rw [State.countHbm_data]
  exact Keeps.withHbm (by rw [← State.eccWords_data] at h; exact h) (Mem.writeHbm_wf _ a bs)

@[simp] theorem State.writeSpace_keeps {s : State} (h : Keeps σ s.data) (sp : Space) (a : Nat) (bs : Bytes) : Keeps σ (s.writeSpace sp a bs).data := by
  cases sp <;> simp [State.writeSpace, h]

@[simp] theorem State.putTarget_keeps {s : State} (h : Keeps σ s.data) (t : DevTarget) (x : Nat) (bs : Bytes) : Keeps σ (s.putTarget t x bs).data := by
  cases t <;> simp [State.putTarget, h]

@[simp] theorem State.devWrite_keeps {s : State} (h : Keeps σ s.data) (a : Nat) (bs : Bytes) : Keeps σ (s.devWrite a bs).data := by
  unfold State.devWrite
  split <;> simp [h]

@[simp] theorem State.undefine_keeps {s : State} (h : Keeps σ s.data) (r : Option DevTarget × Nat × Nat) : Keeps σ (s.undefine r).data := by
  unfold State.undefine
  dsimp only
  split
  · simp [h]
  · split
    · exact h.withBus (memWf_writeBytes _ _ _)
    · exact h

/-! ### Tables in HBM -/

theorem memWf_putBits (m : Tab Byte) (base o n v : Nat) (h : memWf m = true) : memWf (putBits m base o n v) = true := memWf_writeBytes _ _ _ h

theorem memWf_putCell (m : Tab Byte) (base ty : Nat) (nullable : Bool) (r : Nat) (c : Cell) (h : memWf m = true) :
    memWf (putCell m base ty nullable r c) = true := by
  unfold putCell
  dsimp only
  split <;> simp only [memWf_putBits, h]

theorem memWf_putMxBlock (m : Tab Byte) (base ty : Nat) (nullable : Bool) (r : Nat) (cs : List Cell) (h : memWf m = true) :
    memWf (putMxBlock m base ty nullable r cs) = true := by
  have hcells := foldl_memWf (fun (m : Tab Byte) (p : (Cell × Nat) × Nat) => putCell m base ty nullable (r + p.2) { p.1.1 with bits := p.1.2 })
    (fun m p => memWf_putCell m base ty nullable _ _) ((cs.zip (mxBlockOf ty cs).2).zipIdx) h
  unfold putMxBlock
  dsimp only
  split
  · exact memWf_writeBytes _ _ _ (memWf_writeBytes _ _ _ hcells)
  · exact memWf_writeBytes _ _ _ hcells

theorem memWf_putVarSpan (m : Tab Byte) (start ty : Nat) (nullable : Bool) (param : Nat) (cells : List Cell) (h : memWf m = true) :
    memWf (putVarSpan m start ty nullable param cells).1 = true := by
  refine memWf_writeBytes _ _ _ (foldl_memWf _ (fun m i hm => memWf_writeBytes _ _ _ hm) _ ?_)
  refine foldl_fst_memWf _ (fun a c ha => ?_) cells h
  refine memWf_writeBytes _ _ _ (memWf_writeBytes _ _ _ ?_)
  split
  · exact memWf_putBits _ _ _ _ _ ha
  · exact ha

theorem memWf_putVar (fuel : Nat) (m : Tab Byte) (start ty : Nat) (nullable : Bool) (param : Nat) (cells : List Cell) (h : memWf m = true) :
    memWf (putVar fuel m start ty nullable param cells).1 = true := by
  induction fuel generalizing m start cells with
  | zero => exact h
  | succ fuel ih =>
    unfold putVar
    split
    · exact h
    · exact ih _ _ _ (memWf_putVarSpan _ _ _ _ _ _ h)

theorem memWf_putColumn (m : Tab Byte) (start ty : Nat) (nullable : Bool) (param : Nat) (cells : List Cell) (h : memWf m = true) :
    memWf (putColumn m start ty nullable param cells).1 = true := by
  unfold putColumn
  split
  · exact memWf_putVar _ _ _ _ _ _ _ h
  · split
    · exact foldl_memWf _ (fun m p => memWf_putMxBlock m _ _ _ _ _) _ h
    · exact foldl_memWf _ (fun m p => memWf_putCell m _ _ _ _ _) _ h

theorem memWf_putTableCol (m : Tab Byte) (base : Nat) (c : TCol) (off : Nat) (cells : List Cell) (h : memWf m = true) :
    memWf (putTableCol m base c off cells).1 = true :=
  memWf_writeBytes _ _ _ (memWf_putColumn m _ _ _ _ _ h)

/-- A derived table is written over its cleared area. -/
theorem State.putTable_keeps {s u : State} {a : AreaRec} {cols lay : List TCol} {rows : List (List Cell)} (h : Keeps σ s.data)
    (hput : s.putTable a cols rows = some (lay, u)) : Keeps σ u.data := by
  unfold State.putTable at hput
  dsimp only at hput
  split at hput
  · exact nomatch hput
  · obtain ⟨-, rfl⟩ := Prod.mk.inj (Option.some_inj.mp hput)
    rw [State.countHbm_data, State.modMem_data]
    dsimp only
    refine Keeps.withHbm h fun hm => memWf_writeBytes _ _ _ ?_
    refine foldl_fst_memWf _ (fun x p hx => ?_) _ (memWf_clearRange _ _ _ hm)
    exact memWf_putTableCol _ _ _ _ _ hx

@[simp] theorem State.putDerived_keeps {s : State} (h : Keeps σ s.data) (j : Job2) (a : AreaRec) (cs : List ColW) (outs : List OutPart) :
    Keeps σ (s.putDerived j a cs outs).1.data := by
  unfold State.putDerived
  dsimp only
  split
  · simpa using State.putTable_keeps h ‹_›
  · exact h

@[simp] theorem State.putStage_keeps {s : State} (h : Keeps σ s.data) (j : Job2) (cs : List ColW) (rs : Rows) (rows : List (List Cell × Nat)) :
    Keeps σ (s.putStage j cs rs rows).1.data := by
  unfold State.putStage
  dsimp only
  split <;> simp [h]

@[simp] theorem State.putWhole_keeps {s : State} (h : Keeps σ s.data) (j : Job2) (cs : List ColW) (rs : Rows) (rows : List (List Cell)) :
    Keeps σ (s.putWhole j cs rs rows).1.data := by
  unfold State.putWhole
  split <;> simp [h]

@[simp] theorem State.putRows_keeps {s : State} (h : Keeps σ s.data) (j : Job2) (cs : List ColW) (rs : Rows) (f : Nat → List Cell) :
    Keeps σ (s.putRows j cs rs f).1.data := by
  unfold State.putRows
  split <;> simp [h]

@[simp] theorem State.useArea_keeps {s : State} (h : Keeps σ s.data) (kind owner at_ n : Nat) : Keeps σ (s.useArea kind owner at_ n).data := by
  unfold State.useArea
  dsimp only
  (repeat' split) <;> simp [h]

@[simp] theorem State.landTable_keeps {s : State} (h : Keeps σ s.data) (g : Graph) (n t : Nat) : Keeps σ (s.landTable g n t).data := by
  unfold State.landTable
  dsimp only
  split
  · exact h
  · split
    · exact h
    · split
      · simpa using State.putTable_keeps h ‹_›
      · simpa using h

@[simp] theorem State.laneLanded_keeps {s : State} (h : Keeps σ s.data) (g : Graph) (i n : Nat) (into : Into) : Keeps σ (s.laneLanded g i n into).data := by
  unfold State.laneLanded
  split <;> simp [h]

@[simp] theorem State.voidUnit_keeps {s : State} (h : Keeps σ s.data) (g : Graph) (i n reason : Nat) (into : Into) (u : UnitRows) :
    Keeps σ (s.voidUnit g i n reason into u).data := by
  simp [State.voidUnit, h]

@[simp] theorem State.landRows_keeps {s : State} (h : Keeps σ s.data) (g : Graph) (i n t : Nat) (rows : List RowOut) :
    Keeps σ (s.landRows g i n t rows).data := by
  simp [State.landRows, h]

@[simp] theorem State.tokenRow_data (s : State) (g : Graph) (i n b : Nat) (p : ValueAt) (d : TokDecl) (v : Bytes) (dst : Dest) :
    (s.tokenRow g i n b p d v dst).data = s.data := by
  unfold State.tokenRow
  dsimp only
  (repeat' split) <;> simp

@[simp] theorem State.stageImage_keeps {s : State} (h : Keeps σ s.data) (g : Graph) (i n b : Nat) (p : ValueAt) (j : JpegImg) :
    Keeps σ (s.stageImage g i n b p j).data := by
  unfold State.stageImage
  dsimp only
  (repeat' split) <;> simp [h]

@[simp] theorem State.shareSketch_keeps {s : State} (h : Keeps σ s.data) (j : Job2) (rs : Rows) (p : InPart) (outs : List ColW)
    (out : List InPart → List (List Cell)) (keep : List InPart → Built → Built) : Keeps σ (s.shareSketch j rs p outs out keep).1.data := by
  unfold State.shareSketch
  dsimp only
  split <;> simp [h]

/-! ### Tables in extents -/

@[simp] theorem State.extWrite_keeps {s : State} (h : Keeps σ s.data) (exts : List Extent) (off : Nat) (bs : Bytes) : Keeps σ (s.extWrite exts off bs).data :=
  foldl_keeps_fst _ (fun a p => by simp) _ h

@[simp] theorem State.extPutBits_keeps {s : State} (h : Keeps σ s.data) (e : BusEnv) (exts : List Extent) (base o n v : Nat) :
    Keeps σ (s.extPutBits e exts base o n v).data := by
  unfold State.extPutBits
  dsimp only
  split <;> simp [h]

@[simp] theorem State.putFixedCell_keeps {s : State} (h : Keeps σ s.data) (e : BusEnv) (exts : List Extent) (c : TCol) (r : Nat) (x : Cell) :
    Keeps σ (s.putFixedCell e exts c r x).data := by
  unfold State.putFixedCell
  split <;> simp [h]

@[simp] theorem State.putMxCell_keeps {s : State} (h : Keeps σ s.data) (e : BusEnv) (exts : List Extent) (rows : Nat) (c : TCol) (r : Nat) (x : Cell) :
    Keeps σ (s.putMxCell e exts rows c r x).data := by
  unfold State.putMxCell
  dsimp only
  (repeat' split) <;> simp [h]

@[simp] theorem State.putVarCell_keeps {s : State} (h : Keeps σ s.data) (e : BusEnv) (exts : List Extent) (rows : Nat) (c : TCol) (r : Nat) (x : Cell) :
    Keeps σ (s.putVarCell e exts rows c r x).data := by
  unfold State.putVarCell
  dsimp only
  (repeat' split) <;> simp [h]

@[simp] theorem State.putTableCell_keeps {s : State} (h : Keeps σ s.data) (e : BusEnv) (exts : List Extent) (rows : Nat) (c : TCol) (r : Nat) (x : Cell) :
    Keeps σ (s.putTableCell e exts rows c r x).data := by
  unfold State.putTableCell
  (repeat' split) <;> simp [h]

@[simp] theorem State.scatterEntry_keeps {s : State} (h : Keeps σ s.data) (e : BusEnv) (j : Job2) (v : TabView) (srcs : List ColW) (x : Nat × Nat × Nat) :
    Keeps σ (s.scatterEntry e j v srcs x).data := by
  unfold State.scatterEntry
  dsimp only
  split
  · split
    · exact h
    · refine foldl_keeps _ (fun t i => ?_) _ h
      split <;> simp
  · refine foldl_keeps _ (fun t c => ?_) _ h
    (repeat' split) <;> simp

@[simp] theorem State.scatterZero_keeps {s : State} (h : Keeps σ s.data) (e : BusEnv) (j : Job2) (v : TabView) (srcs : List ColW) :
    Keeps σ (s.scatterZero e j v srcs).data := by
  refine foldl_keeps _ (fun t r => ?_) _ h
  split
  · simp
  · refine foldl_keeps _ (fun u c => ?_) _ Keeps.rfl
    split <;> simp

/-! ### Errors, channels, the pair -/

@[simp] theorem State.rowTested_keeps {s : State} (h : Keeps σ s.data) (a : Nat) : Keeps σ (s.rowTested a).data := by
  refine foldl_keeps _ (fun t w => ?_) _ h
  dsimp only
  split
  · simp
  · exact Keeps.rfl.withHbm (Mem.writeHbm_wf _ _ _)

@[simp] theorem State.tested_keeps {s : State} (h : Keeps σ s.data) (r : Recovery) (outcome : Nat) : Keeps σ (s.tested r outcome).data := by
  unfold State.tested
  dsimp only
  (repeat' split) <;> simp [h]

@[simp] theorem State.putDmaRecord_keeps {s : State} (h : Keeps σ s.data) (d : Desc) (bs : Bytes) : Keeps σ (s.putDmaRecord d bs).data := by
  unfold State.putDmaRecord
  (repeat' split) <;> simp [h]

@[simp] theorem State.writeLease_keeps {s : State} (h : Keeps σ s.data) (count : Nat) : Keeps σ (s.writeLease count).data :=
  State.rawWrite_keeps h _ _

@[simp] theorem State.writeKept_keeps {s : State} (h : Keeps σ s.data) (p : Nat → Nat → Bool) : Keeps σ (s.writeKept p).data :=
  foldl_keeps _ (fun t y => by simp) _ (by simpa using h)

@[simp] theorem State.replay_keeps {acc : Bool × State} (h : Keeps σ acc.2.data) (a : Announce) : Keeps σ (State.replay acc a).2.data := by
  unfold State.replay
  dsimp only
  split
  · simp [h]
  · simp only [State.modQp_data]
    (repeat' split) <;> simp [h]

@[simp] theorem State.writeSegment_keeps {s : State} (h : Keeps σ s.data) (g : Graph) (e : BusEnv) (n : Nat) (f : FlowRec) (x : HeldSeg) :
    Keeps σ (s.writeSegment g e n f x).data := by
  unfold State.writeSegment
  dsimp only
  (repeat' split) <;> simp [h]

/-- The records of the primary's entries, the notice, each announced entry in its place and the outputs kept back. -/
@[simp] theorem State.takeover_keeps {s : State} (h : Keeps σ s.data) : Keeps σ s.takeover.data := by
  unfold State.takeover
  dsimp only
  rw [State.modPair_data]
  refine State.writeKept_keeps ?_ _
  rw [foldl_data _ (fun t q => by simp)]
  refine foldl_keeps_snd _ (fun a x => State.replay_keeps Keeps.rfl x) _ ?_
  rw [foldl_data _ (fun t g => by simp), State.notice_data]
  exact foldl_keeps _ (fun t m => by simp) _ (by simpa using h)

/-! ### Resets and registers -/

theorem tabAbove_filterMap {α : Type} (f : Nat × α → Option (Nat × α)) (hf : ∀ p q, f p = some q → q.1 = p.1) (t : Tab α) :
    ∀ a b, a ≤ b → tabAbove b t = true → tabAbove a (t.filterMap f) = true := by
  induction t with
  | nil => intro a b _ _; rfl
  | cons p r ih =>
    obtain ⟨j, w⟩ := p
    intro a b hab h
    simp only [tabAbove, Bool.and_eq_true, decide_eq_true_eq] at h
    cases hp : f (j, w) with
    | none => simpa [List.filterMap_cons, hp] using ih a j (by omega) h.2
    | some q =>
      have hq : q.1 = j := hf _ _ hp
      simp only [List.filterMap_cons, hp, tabAbove, Bool.and_eq_true, decide_eq_true_eq]
      exact ⟨by omega, ih _ _ (by omega) h.2⟩

theorem tabSorted_filterMap {α : Type} (f : Nat × α → Option (Nat × α)) (hf : ∀ p q, f p = some q → q.1 = p.1) (t : Tab α) (h : tabSorted t = true) :
    tabSorted (t.filterMap f) = true := by
  induction t with
  | nil => rfl
  | cons p r ih =>
    obtain ⟨j, w⟩ := p
    cases hp : f (j, w) with
    | none =>
      rw [List.filterMap_cons, hp]
      cases r with
      | nil => rfl
      | cons p' r' =>
        simp only [tabSorted, tabAbove, Bool.and_eq_true] at h
        exact ih h.2
    | some q =>
      have hq : q.1 = j := hf _ _ hp
      simp only [List.filterMap_cons, hp, tabSorted]
      exact tabAbove_filterMap f hf r _ _ (by omega) h

/-- A memory whose contents are lost is canonical: a byte that takes the value 0 is no longer listed. -/
theorem memWf_scramble (g : Nat) (m : Tab Byte) (h : memWf m = true) : memWf (scramble g m) = true := by
  simp only [memWf, tabWf, Bool.and_eq_true] at h ⊢
  refine ⟨tabSorted_filterMap _ (fun p q hq => ?_) m h.1, ?_⟩
  · dsimp only at hq
    split at hq <;> cases hq
    rfl
  · simp only [tabNoDefault, scramble, List.all_eq_true, decide_eq_true_eq, List.mem_filterMap]
    rintro q ⟨p, -, hq⟩
    split at hq <;> cases hq
    assumption

@[simp] theorem State.hostReset_keeps {s : State} (h : Keeps σ s.data) (cause : Nat) : Keeps σ (s.hostReset cause).data :=
  h.withHbm (memWf_scramble _ _)

@[simp] theorem State.coldClear_keeps {s : State} (h : Keeps σ s.data) (cause : Nat) : Keeps σ (s.coldClear cause).data := by
  simp [State.coldClear, ↓State.data_mk, ↓State.data_eta, h]

@[simp] theorem State.powerStop_keeps {s : State} (h : Keeps σ s.data) : Keeps σ s.powerStop.data := by
  simp [State.powerStop, ↓State.data_mk, ↓State.data_eta, h]

@[simp] theorem State.softReset_keeps {s : State} (h : Keeps σ s.data) (m : Nat) : Keeps σ (s.softReset m).data := by
  unfold State.softReset
  split <;> simp [h]

@[simp] theorem State.coldBoot_keeps {s : State} (h : Keeps σ s.data) : Keeps σ s.coldBoot.data := by
  simp [State.coldBoot, ↓State.data_mk, ↓State.data_eta, h]

@[simp] theorem State.resetCtl_keeps {s : State} (h : Keeps σ s.data) (m v : Nat) : Keeps σ (s.resetCtl m v).data := by
  unfold State.resetCtl
  (repeat' split) <;> simp [h]

@[simp] theorem State.domainDown_data (s : State) (d : Nat) : (s.domainDown d).data = s.data := by
  unfold State.domainDown
  simp

@[simp] theorem State.glbWrite_keeps {s : State} (h : Keeps σ s.data) (m off o v : Nat) : Keeps σ (s.glbWrite m off o v).data := by
  unfold State.glbWrite
  split <;> simp [h]

@[simp] theorem State.blockWrite_keeps {s : State} (h : Keeps σ s.data) (m off v : Nat) (b : BlockId × Nat) : Keeps σ (s.blockWrite m off v b).data := by
  obtain ⟨b, o⟩ := b
  cases b <;> simp [State.blockWrite, h]

@[simp] theorem State.regWrite_keeps {s : State} (h : Keeps σ s.data) (m off v : Nat) : Keeps σ (s.regWrite m off v).data := by
  unfold State.regWrite
  (repeat' split) <;> simp [h]

@[simp] theorem State.barWrite_keeps {s : State} (h : Keeps σ s.data) (m off data len : Nat) : Keeps σ (s.barWrite m off data len).data := by
  unfold State.barWrite
  (repeat' split) <;> simp [h]

@[simp] theorem State.putResult_keeps {s : State} (h : Keeps σ s.data) (e : BusEnv) (c : Cmd) (bs : Bytes) : Keeps σ (s.putResult e c bs).data := by
  unfold State.putResult
  dsimp only
  (repeat' split) <;> simp [h]

/-! ### Commands of the table, and tasks of the units -/

/-- A command that begins keeps what its own work, on the state that waits with it, keeps. -/
theorem State.begin_keeps {s : State} (h : Keeps σ s.data) (seq op : Nat) {f : Cmd → State → State}
    (hf : ∀ c t, t.data = s.data → Keeps σ (f c t).data) : Keeps σ (s.begin seq op f).data := by
  unfold State.begin
  split
  · split
    · split
      · exact hf _ _ (by simp)
      · simpa using h
    · exact h
  · exact h

/-- The answer of a task's work, if there is one, keeps `σ`. -/
def AnswerKeeps (σ : List Instr × Tab Byte × Tab Byte) (o : Option (State × Nat)) : Prop := ∀ r, o = some r → Keeps σ r.1.data

@[simp] theorem answerKeeps_none : AnswerKeeps σ none := by simp [AnswerKeeps]
@[simp] theorem answerKeeps_some (r : State × Nat) : AnswerKeeps σ (some r) ↔ Keeps σ r.1.data := by simp [AnswerKeeps]

/-- A task of a unit keeps what its own work keeps. -/
theorem State.unitRun_keeps {s : State} (h : Keeps σ s.data) (k slot u op : Nat) {f : Job2 → State → Option (State × Nat)}
    (hf : ∀ j, AnswerKeeps σ (f j s)) : Keeps σ (s.unitRun k slot u op f).data := by
  unfold State.unitRun
  split
  · exact h
  · split
    · split <;> simpa using hf _ _ ‹_›
    · exact h

@[simp] theorem State.buildIndex_answer {s : State} (h : Keeps σ s.data) (e : BusEnv) (j : Job2) (maxRun table : Nat) (key : List ColW) (tm : ColW)
    (pay : List ColW) (esize : Nat) : AnswerKeeps σ (s.buildIndex e j maxRun table key tm pay esize) := by
  unfold State.buildIndex
  dsimp only
  (repeat' split) <;> simp [h]

end Sys2Proof.Machine
end

section
/-! Proofs about what every step keeps: every command ends with a next state -/

namespace Sys2Proof.Machine
theorem state_keeps_ite {σ : List Instr × Tab Byte × Tab Byte} {c : Prop} [Decidable c] {s t : State} (hs : Keeps σ s.data) (ht : Keeps σ t.data) :
    Keeps σ (if c then s else t : State).data := by
  split <;> assumption
theorem answerKeeps_ite {σ : List Instr × Tab Byte × Tab Byte} {c : Prop} [Decidable c] {a b : Option (State × Nat)} (ha : AnswerKeeps σ a) (hb : AnswerKeeps σ b) :
    AnswerKeeps σ (if c then a else b) := by
  split <;> assumption

/-- A command that ends with a next state, whose queue and memories are as `Keeps` says. -/
def Ends (s : State) (o : Host.Outcome State Fault Refusal) : Prop := ∃ u, o = .next u ∧ Keeps s.data u.data

@[simp] theorem ends_next (s u : State) : Ends s (.next u) ↔ Keeps s.data u.data := by simp [Ends]
theorem ends_of_next {s u : State} (h : Keeps s.data u.data) : Ends s (.next u) := ⟨u, rfl, h⟩
@[simp] theorem ends_ite {s : State} {c : Prop} [Decidable c] {a b : Host.Outcome State Fault Refusal} (ha : Ends s a) (hb : Ends s b) :
    Ends s (if c then a else b) := by
  split <;> assumption

/-! ### Beat -/

@[simp] theorem execBeatInFrame_ends (bits t : Nat) (s : State) : Ends s (execBeatInFrame bits t s) := by
  simp [execBeatInFrame]
@[simp] theorem execBeatPagePoll_ends (t : Nat) (s : State) : Ends s (execBeatPagePoll t s) := by
  simp [execBeatPagePoll]
@[simp] theorem execBeatPageReadComplete_ends (line : Option Bytes) (issued t : Nat) (s : State) : Ends s (execBeatPageReadComplete line issued t s) := by
  unfold execBeatPageReadComplete
  dsimp only
  (repeat' split) <;> simp
@[simp] theorem execBeatPhaseEndHold_ends (t : Nat) (s : State) : Ends s (execBeatPhaseEndHold t s) := by
  simp [execBeatPhaseEndHold]
@[simp] theorem execBeatHoldTimeoutLost_ends (t : Nat) (s : State) : Ends s (execBeatHoldTimeoutLost t s) := by
  simp [execBeatHoldTimeoutLost]
@[simp] theorem execRebase_ends (m : Master) (s : State) : Ends s (execRebase m s) := by
  simp [execRebase]
@[simp] theorem execBeatSrcSelect_ends (src : Fin 4) (s : State) : Ends s (execBeatSrcSelect src s) := by
  simp [execBeatSrcSelect]

/-! ### Tasks -/

@[simp] theorem execStrmArm_ends (st : Fin 64) (m : Master) (s : State) : Ends s (execStrmArm st m s) := by
  simp [execStrmArm]
@[simp] theorem execDispatcherTick_ends (t : Nat) (s : State) : Ends s (execDispatcherTick t s) := by
  simp [execDispatcherTick]
@[simp] theorem execBatchInstantiate_ends (k : Fin 16) (s : State) : Ends s (execBatchInstantiate k s) := by
  unfold execBatchInstantiate
  dsimp only
  (repeat' split) <;> simp
@[simp] theorem execTaskReady_ends (k : Fin 16) (s : State) : Ends s (execTaskReady k s) := by
  unfold execTaskReady
  split <;> simp
@[simp] theorem execTaskPlace_ends (k : Fin 16) (s : State) : Ends s (execTaskPlace k s) := by
  unfold execTaskPlace
  dsimp only
  (repeat' split) <;> simp
@[simp] theorem execHopperFillComplete_ends (c : CoreId) (i : Fin 2) (s : State) : Ends s (execHopperFillComplete c i s) := by
  simp [execHopperFillComplete]
@[simp] theorem execTaskStart_ends (seat : Seat) (s : State) : Ends s (execTaskStart seat s) := by
  unfold execTaskStart
  (repeat' split) <;> simp
@[simp] theorem execTaskComplete_ends (k : Fin 16) (slot : Fin 4096) (s : State) : Ends s (execTaskComplete k slot s) := by
  unfold execTaskComplete
  split <;> simp
@[simp] theorem execFlagPulse_ends (mask : Fin 65536) (st : Fin 64) (batch : Nat) (flag : Fin 1024) (s : State) :
    Ends s (execFlagPulse mask st batch flag s) := by
  simp [execFlagPulse]
@[simp] theorem execWeirArrival_ends (w : Fin 64) (k : Fin 16) (gen : Nat) (s : State) : Ends s (execWeirArrival w k gen s) := by
  simp [execWeirArrival]
@[simp] theorem execSegmentHandoff_ends (k : Fin 16) (slot : Fin 4096) (s : State) : Ends s (execSegmentHandoff k slot s) := by
  unfold execSegmentHandoff
  dsimp only
  (repeat' split) <;> simp
@[simp] theorem execSegmentRelease_ends (f : Fin 1024) (e : BusEnv) (vote : Option (Fin 3)) (s : State) : Ends s (execSegmentRelease f e vote s) := by
  unfold execSegmentRelease
  dsimp only
  (repeat' split) <;> simp

/-! ### Intake -/

@[simp] theorem execIntakeBatchBegin_ends (lane : Fin 8) (n : Fin 64) (b nImage nText : Nat) (s : State) :
    Ends s (execIntakeBatchBegin lane n b nImage nText s) := by
  unfold execIntakeBatchBegin
  dsimp only
  (repeat' split) <;> simp
@[simp] theorem execShuffleSlotsComputed_ends (lane : Fin 8) (n : Fin 64) (b : Nat) (s : State) : Ends s (execShuffleSlotsComputed lane n b s) := by
  unfold execShuffleSlotsComputed
  dsimp only
  (repeat' split) <;> simp
@[simp] theorem execIntakeFetchComplete_ends (lane : Fin 8) (n : Fin 64) (into : Into) (off len : Nat) (u : UnitRows) (e : BusEnv) (s : State) :
    Ends s (execIntakeFetchComplete lane n into off len u e s) := by
  unfold execIntakeFetchComplete
  dsimp only
  (repeat' split) <;> simp
@[simp] theorem execIntakeHeaderCheck_ends (lane : Fin 8) (n : Fin 64) (into : Into) (h : UnitHeader) (u : UnitRows) (s : State) :
    Ends s (execIntakeHeaderCheck lane n into h u s) := by
  unfold execIntakeHeaderCheck
  (repeat' split) <;> simp

/-! ### HostCmds -/

@[simp] theorem execUnloadGraph_ends (seq : Nat) (s : State) : Ends s (execUnloadGraph seq s) := by
  refine ends_of_next (State.begin_keeps (by simp) _ _ fun c t ht => ?_)
  (repeat' split) <;> simp [ht]
@[simp] theorem execCloseStream_ends (seq : Nat) (s : State) : Ends s (execCloseStream seq s) := by
  refine ends_of_next (State.begin_keeps (by simp) _ _ fun c t ht => ?_)
  dsimp only
  (repeat' split) <;> simp [ht]
@[simp] theorem execSetEpoch_ends (seq : Nat) (s : State) : Ends s (execSetEpoch seq s) := by
  refine ends_of_next (State.begin_keeps (by simp) _ _ fun c t ht => ?_)
  dsimp only
  (repeat' split) <;> simp [ht]
@[simp] theorem execRun_ends (seq : Nat) (s : State) : Ends s (execRun seq s) := by
  refine ends_of_next (State.begin_keeps (by simp) _ _ fun c t ht => ?_)
  dsimp only
  (repeat' split) <;> simp [ht]
@[simp] theorem execCancel_ends (seq : Nat) (s : State) : Ends s (execCancel seq s) := by
  refine ends_of_next (State.begin_keeps (by simp) _ _ fun c t ht => ?_)
  dsimp only
  (repeat' split) <;> simp [ht]
@[simp] theorem execFence_ends (seq : Nat) (s : State) : Ends s (execFence seq s) := by
  refine ends_of_next ?_
  split
  · split
    · exact Keeps.rfl
    · exact State.begin_keeps Keeps.rfl _ _ fun c t ht => by simp [ht]
  · exact Keeps.rfl

/-! ### PageDecode -/

@[simp] theorem execIntakePageDecode_ends (lane : Fin 8) (n : Fin 64) (into : Into) (ds : List Dest) (pg : PageIn) (e : BusEnv) (s : State) :
    Ends s (execIntakePageDecode lane n into ds pg e s) := by
  unfold execIntakePageDecode
  dsimp only
  (repeat' split) <;> simp

/-! ### Chervil -/

@[simp] theorem execSampleAbandon_ends (lane : Fin 8) (n : Fin 64) (b : Nat) (p : ValueAt) (x : Sample) (s : State) :
    Ends s (execSampleAbandon lane n b p x s) := by
  unfold execSampleAbandon
  split <;> simp
@[simp] theorem execTokenise_ends (lane : Fin 8) (n : Fin 64) (b : Nat) (p : ValueAt) (d : TokDecl) (v : Option Bytes) (dst : Dest) (s : State) :
    Ends s (execTokenise lane n b p d v dst s) := by
  unfold execTokenise
  (repeat' split) <;> simp
@[simp] theorem execJpegDecode_ends (lane : Fin 8) (n : Fin 64) (b : Nat) (p : ValueAt) (v : Bytes) (s : State) : Ends s (execJpegDecode lane n b p v s) := by
  unfold execJpegDecode
  dsimp only
  (repeat' split) <;> simp

/-! ### Quern -/

@[simp] theorem execPartition_ends (k : Fin 16) (slot : Fin 4096) (rs : Rows) (s : State) : Ends s (execPartition k slot rs s) := by
  refine ends_of_next (State.unitRun_keeps (by simp) _ _ _ _ fun j => ?_)
  dsimp only
  (repeat' split) <;> simp
@[simp] theorem execHashBucket_ends (k : Fin 16) (slot : Fin 4096) (rs : Rows) (s : State) : Ends s (execHashBucket k slot rs s) := by
  refine ends_of_next (State.unitRun_keeps (by simp) _ _ _ _ fun j => ?_)
  dsimp only
  simp
@[simp] theorem execJoinBuild_ends (k : Fin 16) (slot : Fin 4096) (e : BusEnv) (s : State) : Ends s (execJoinBuild k slot e s) := by
  refine ends_of_next (State.unitRun_keeps (by simp) _ _ _ _ fun j => ?_)
  have h : Keeps s.data (s.env e).data := by simp
  generalize s.env e = t at h
  dsimp only
  (repeat' split) <;> simp [h]
@[simp] theorem execJoinProbe_ends (k : Fin 16) (slot : Fin 4096) (rs : Rows) (s : State) : Ends s (execJoinProbe k slot rs s) := by
  refine ends_of_next (State.unitRun_keeps (by simp) _ _ _ _ fun j => ?_)
  dsimp only
  (repeat' split) <;> simp
@[simp] theorem execAsofIndex_ends (k : Fin 16) (slot : Fin 4096) (e : BusEnv) (s : State) : Ends s (execAsofIndex k slot e s) := by
  refine ends_of_next (State.unitRun_keeps (by simp) _ _ _ _ fun j => ?_)
  dsimp only
  simp
@[simp] theorem execAsofProbe_ends (k : Fin 16) (slot : Fin 4096) (rs : Rows) (s : State) : Ends s (execAsofProbe k slot rs s) := by
  refine ends_of_next (State.unitRun_keeps (by simp) _ _ _ _ fun j => ?_)
  dsimp only
  (repeat' split) <;> simp
@[simp] theorem execWindowIndex_ends (k : Fin 16) (slot : Fin 4096) (e : BusEnv) (s : State) : Ends s (execWindowIndex k slot e s) := by
  refine ends_of_next (State.unitRun_keeps (by simp) _ _ _ _ fun j => ?_)
  dsimp only
  simp
@[simp] theorem execWindowProbe_ends (k : Fin 16) (slot : Fin 4096) (rs : Rows) (s : State) : Ends s (execWindowProbe k slot rs s) := by
  refine ends_of_next (State.unitRun_keeps (by simp) _ _ _ _ fun j => ?_)
  dsimp only
  simp
@[simp] theorem execGroupBy_ends (k : Fin 16) (slot : Fin 4096) (rs : SplitRows) (s : State) : Ends s (execGroupBy k slot rs s) := by
  unfold execGroupBy
  dsimp only
  (repeat' split) <;> simp
@[simp] theorem execRankSketch_ends (k : Fin 16) (slot : Fin 4096) (rs : Rows) (parts : List Nat) (s : State) : Ends s (execRankSketch k slot rs parts s) := by
  refine ends_of_next (State.unitRun_keeps (by simp) _ _ _ _ fun j => ?_)
  dsimp only
  (repeat' split) <;> simp
@[simp] theorem execApproxDistinct_ends (k : Fin 16) (slot : Fin 4096) (rs : Rows) (s : State) : Ends s (execApproxDistinct k slot rs s) := by
  refine ends_of_next (State.unitRun_keeps (by simp) _ _ _ _ fun j => ?_)
  dsimp only
  simp
@[simp] theorem execFeatureCross_ends (k : Fin 16) (slot : Fin 4096) (rs : Rows) (s : State) : Ends s (execFeatureCross k slot rs s) := by
  refine ends_of_next (State.unitRun_keeps (by simp) _ _ _ _ fun j => ?_)
  dsimp only
  simp

/-! ### Select -/

@[simp] theorem execCompact_ends (k : Fin 16) (slot : Fin 4096) (rs : Rows) (s : State) : Ends s (execCompact k slot rs s) := by
  unfold execCompact
  split <;> simp
@[simp] theorem execTopk_ends (k : Fin 16) (slot : Fin 4096) (rs : Rows) (parts : List Nat) (e : BusEnv) (s : State) :
    Ends s (execTopk k slot rs parts e s) := by
  unfold execTopk
  dsimp only
  (repeat' split) <;> simp

/-! ### Gather -/

@[simp] theorem execGather_ends (k : Fin 16) (slot : Fin 4096) (rs : Rows) (e : BusEnv) (s : State) : Ends s (execGather k slot rs e s) := by
  refine ends_of_next (State.unitRun_keeps (by simp) _ _ _ _ fun j => ?_)
  have h : Keeps s.data (s.env e).data := by simp
  generalize s.env e = t at h
  refine answerKeeps_ite (by simp) (answerKeeps_ite (by simp [h]) (answerKeeps_ite (by simp [h]) (answerKeeps_ite ?_
    (answerKeeps_ite (by simp [h]) (by simp [h])))))
  rw [answerKeeps_some]
  dsimp only
  split <;> simp [h]
@[simp] theorem execScatter_ends (k : Fin 16) (slot : Fin 4096) (rs : Rows) (e : BusEnv) (s : State) : Ends s (execScatter k slot rs e s) := by
  refine ends_of_next (State.unitRun_keeps (by simp) _ _ _ _ fun j => ?_)
  have h : Keeps s.data (s.env e).data := by simp
  generalize s.env e = t at h
  refine answerKeeps_ite (by simp) (answerKeeps_ite (by simp [h]) ?_)
  rw [answerKeeps_some, State.setScat_data]
  refine foldl_keeps_fst _ (fun a x => ?_) _ (by simpa using h)
  split
  · exact Keeps.rfl
  · refine state_keeps_ite (by simp) (foldl_keeps _ (fun u c => ?_) _ Keeps.rfl)
    split <;> simp
@[simp] theorem execScatterAdd_ends (k : Fin 16) (slot : Fin 4096) (rs : Rows) (e : BusEnv) (s : State) : Ends s (execScatterAdd k slot rs e s) := by
  refine ends_of_next (State.unitRun_keeps (by simp) _ _ _ _ fun j => ?_)
  have h : Keeps s.data (s.env e).data := by simp
  generalize s.env e = t at h
  refine answerKeeps_ite (by simp) (answerKeeps_ite (by simp [h]) ?_)
  rw [answerKeeps_some]
  exact foldl_keeps _ (fun t x => by simp) _ (by simp [h])

/-! ### SageOps -/

@[simp] theorem execLookup_ends (k : Fin 16) (slot : Fin 4096) (rs : Rows) (ups : List SageUpset) (s : State) : Ends s (execLookup k slot rs ups s) := by
  unfold execLookup
  dsimp only
  (repeat' split) <;> simp
@[simp] theorem execScan_ends (k : Fin 16) (slot : Fin 4096) (rs : Rows) (s : State) : Ends s (execScan k slot rs s) := by
  refine ends_of_next (State.unitRun_keeps (by simp) _ _ _ _ fun j => ?_)
  dsimp only
  (repeat' split) <;> simp
@[simp] theorem execSageBuild_ends (k : Fin 16) (slot : Fin 4096) (e : BusEnv) (s : State) : Ends s (execSageBuild k slot e s) := by
  refine ends_of_next (State.unitRun_keeps (by simp) _ _ _ _ fun j => ?_)
  dsimp only
  (repeat' split) <;> simp
@[simp] theorem execSageEntryWriteApply_ends (k : Fin 16) (s : State) : Ends s (execSageEntryWriteApply k s) := by
  unfold execSageEntryWriteApply
  split <;> simp
@[simp] theorem execSageBankReconfigApply_ends (k : Fin 16) (b : Fin 8) (s : State) : Ends s (execSageBankReconfigApply k b s) := by
  simp [execSageBankReconfigApply]
@[simp] theorem execSageEntryReloadComplete_ends (k : Fin 16) (b : Fin 8) (s : State) : Ends s (execSageEntryReloadComplete k b s) := by
  unfold execSageEntryReloadComplete
  split <;> simp
@[simp] theorem execSageMatchRowScrub_ends (k : Fin 16) (b : Fin 8) (ups : List SageUpset) (s : State) : Ends s (execSageMatchRowScrub k b ups s) := by
  simp [execSageMatchRowScrub]

/-! ### Millstone -/

@[simp] theorem execGemm_ends (k : Fin 16) (slot : Fin 4096) (rs : Rows) (s : State) : Ends s (execGemm k slot rs s) := by
  unfold execGemm
  split <;> simp
@[simp] theorem execEmbedBag_ends (k : Fin 16) (slot : Fin 4096) (rs : Rows) (e : BusEnv) (s : State) : Ends s (execEmbedBag k slot rs e s) := by
  refine ends_of_next ?_
  dsimp only
  split
  · simp
  · refine state_keeps_ite (by simp) (state_keeps_ite (by simp) ?_)
    simp only [State.endLayer_data, State.noteRows_data, State.passVoids_data, State.putTensor_data, State.readPieces_data]
    refine foldl_keeps _ (fun u b => ?_) _ (by simp)
    (repeat' split) <;> simp
@[simp] theorem execInteract_ends (k : Fin 16) (slot : Fin 4096) (rs : Rows) (s : State) : Ends s (execInteract k slot rs s) := by
  unfold execInteract
  split <;> simp
@[simp] theorem execAttnScore_ends (k : Fin 16) (slot : Fin 4096) (rs : Rows) (s : State) : Ends s (execAttnScore k slot rs s) := by
  unfold execAttnScore
  split <;> simp
@[simp] theorem execAttnValue_ends (k : Fin 16) (slot : Fin 4096) (rs : Rows) (s : State) : Ends s (execAttnValue k slot rs s) := by
  unfold execAttnValue
  split <;> simp

/-! ### Open -/

@[simp] theorem execOpenStream_ends (seq : Nat) (e : BusEnv) (src : Nat) (s : State) : Ends s (execOpenStream seq e src s) := by
  have h : Keeps s.data (s.env e).data := by simp
  refine ends_of_next (state_keeps_ite h (State.begin_keeps h _ _ fun c t ht => ?_))
  dsimp only
  split
  · simp [ht]
  · (repeat' split) <;> simp [ht]
    next hu _ => simp [State.openVariant_data hu, ht]

/-! ### Errors -/

@[simp] theorem execDetectedError_ends (kind : Fin 21) (index : Nat) (cause : Fin 9) (detail : Nat) (t : Nat) (s : State) :
    Ends s (execDetectedError kind index cause detail t s) := by
  simp [execDetectedError]
@[simp] theorem execSelfTestComplete_ends (pass spare : Bool) (testUs t : Nat) (s : State) : Ends s (execSelfTestComplete pass spare testUs t s) := by
  unfold execSelfTestComplete
  dsimp only
  (repeat' split) <;> simp
@[simp] theorem execRecoveryResume_ends (t : Nat) (s : State) : Ends s (execRecoveryResume t s) := by
  unfold execRecoveryResume
  dsimp only
  (repeat' split) <;> simp
@[simp] theorem execErrInject_ends (m : Master) (kind : Fin 32) (index : Fin 65536) (t : Nat) (s : State) : Ends s (execErrInject m kind index t s) := by
  simp [execErrInject]
@[simp] theorem execErrMapoutClear_ends (m : Master) (s : State) : Ends s (execErrMapoutClear m s) := by
  simp [execErrMapoutClear]

/-! ### HostQueues -/

@[simp] theorem execGlbAttachGo_ends (m : Master) (s : State) : Ends s (execGlbAttachGo m s) := by
  simp [execGlbAttachGo]
@[simp] theorem execAttachAgreementComplete_ends (t : Nat) (s : State) : Ends s (execAttachAgreementComplete t s) := by
  unfold execAttachAgreementComplete
  dsimp only
  (repeat' split) <;> simp
@[simp] theorem execDoorbellPoll_ends (g : Fin 8) (t : Nat) (s : State) : Ends s (execDoorbellPoll g t s) := by
  simp [execDoorbellPoll]
@[simp] theorem execDoorbellReadComplete_ends (g : Fin 8) (line : Option Bytes) (t : Nat) (s : State) : Ends s (execDoorbellReadComplete g line t s) := by
  unfold execDoorbellReadComplete
  split <;> simp
@[simp] theorem execSubmissionEntryArrive_ends (q : Fin 64) (e : BusEnv) (t : Nat) (s : State) : Ends s (execSubmissionEntryArrive q e t s) := by
  unfold execSubmissionEntryArrive
  dsimp only
  (repeat' split) <;> simp
@[simp] theorem execAcceptanceRecordComplete_ends (seq : Nat) (ok : Bool) (t : Nat) (s : State) : Ends s (execAcceptanceRecordComplete seq ok t s) := by
  unfold execAcceptanceRecordComplete
  dsimp only
  (repeat' split) <;> simp
@[simp] theorem execJournalWriteRetry_ends (t : Nat) (s : State) : Ends s (execJournalWriteRetry t s) := by
  simp [execJournalWriteRetry]
@[simp] theorem execCommandComplete_ends (seq t : Nat) (s : State) : Ends s (execCommandComplete seq t s) := by
  unfold execCommandComplete
  dsimp only
  (repeat' split) <;> simp
@[simp] theorem execJournalUpdateComplete_ends (seq : Option Nat) (ok : Bool) (t : Nat) (s : State) : Ends s (execJournalUpdateComplete seq ok t s) := by
  unfold execJournalUpdateComplete
  dsimp only
  split
  · simp
  · refine ends_ite (by simp) (ends_ite (by simp) ?_)
    split
    · refine ends_ite (by simp) ?_
      rw [ends_next, State.handedOver_data, State.recordCompleted_data]
      exact State.busWrite_keeps (by simp) _ _
    · simp
@[simp] theorem execCompletionEntryWrite_ends (q : Fin 64) (t : Nat) (s : State) : Ends s (execCompletionEntryWrite q t s) := by
  unfold execCompletionEntryWrite
  dsimp only
  (repeat' split) <;> simp
@[simp] theorem execModerationTimerExpire_ends (q : Fin 64) (t : Nat) (s : State) : Ends s (execModerationTimerExpire q t s) := by
  simp [execModerationTimerExpire]
@[simp] theorem execJournalGo_ends (_m : Master) (t : Nat) (s : State) : Ends s (execJournalGo _m t s) := by
  simp [execJournalGo]
@[simp] theorem execJournalWalkComplete_ends (e : BusEnv) (t : Nat) (s : State) : Ends s (execJournalWalkComplete e t s) := by
  unfold execJournalWalkComplete
  dsimp only
  split
  · simp
  · refine ends_ite (by simp) (ends_ite (by simp) (ends_ite (by simp) ?_))
    rw [ends_next, State.modJrn_data]
    refine state_keeps_ite (σ := s.data) ?_ ?_
    all_goals exact State.busWrite_keeps (foldl_keeps _ (fun t x => by simp) _ (by simp)) _ _
@[simp] theorem execJournalControlLineTimer_ends (t : Nat) (s : State) : Ends s (execJournalControlLineTimer t s) := by
  simp [execJournalControlLineTimer]
@[simp] theorem execQpEnable_ends (q : Fin 64) (m : Master) (s : State) : Ends s (execQpEnable q m s) := by
  simp [execQpEnable]
@[simp] theorem execQpDisable_ends (q : Fin 64) (m : Master) (s : State) : Ends s (execQpDisable q m s) := by
  simp [execQpDisable]
@[simp] theorem execBatchRecordWrite_ends (st : Fin 64) (t : Nat) (s : State) : Ends s (execBatchRecordWrite st t s) := by
  unfold execBatchRecordWrite
  dsimp only
  (repeat' split) <;> simp

/-! ### PairLink -/

@[simp] theorem execPairHello_ends (msg : Bytes) (t : Nat) (s : State) : Ends s (execPairHello msg t s) := by
  unfold execPairHello
  split <;> simp
@[simp] theorem execPairHeartbeat_ends (msg : Bytes) (t : Nat) (s : State) : Ends s (execPairHeartbeat msg t s) := by
  simp [execPairHeartbeat]
@[simp] theorem execPairAccept_ends (msg : Bytes) (t : Nat) (s : State) : Ends s (execPairAccept msg t s) := by
  simp [execPairAccept]
@[simp] theorem execPairAnnounce_ends (msg : Bytes) (t : Nat) (s : State) : Ends s (execPairAnnounce msg t s) := by
  simp [execPairAnnounce]
@[simp] theorem execPairDone_ends (msg : Bytes) (t : Nat) (s : State) : Ends s (execPairDone msg t s) := by
  simp [execPairDone]
@[simp] theorem execPairBeat_ends (msg : Bytes) (t : Nat) (s : State) : Ends s (execPairBeat msg t s) := by
  simp [execPairBeat]
@[simp] theorem execPairFence_ends (msg : Bytes) (t : Nat) (s : State) : Ends s (execPairFence msg t s) := by
  simp [execPairFence]
@[simp] theorem execPairSyncData_ends (msg : Bytes) (t : Nat) (s : State) : Ends s (execPairSyncData msg t s) := by
  refine ends_of_next ?_
  rw [State.pairRx_data _ _ _ _ _ fun m t => ?_]
  · exact Keeps.rfl
  · dsimp only
    (repeat' split) <;> simp
@[simp] theorem execPairSyncReady_ends (msg : Bytes) (t : Nat) (s : State) : Ends s (execPairSyncReady msg t s) := by
  simp [execPairSyncReady]
@[simp] theorem execPairSyncJoin_ends (msg : Bytes) (t : Nat) (s : State) : Ends s (execPairSyncJoin msg t s) := by
  simp [execPairSyncJoin]
@[simp] theorem execHeartbeatTimer_ends (t : Nat) (s : State) : Ends s (execHeartbeatTimer t s) := by
  simp [execHeartbeatTimer]
@[simp] theorem execPeerLossTimeout_ends (t : Nat) (s : State) : Ends s (execPeerLossTimeout t s) := by
  simp [execPeerLossTimeout]
@[simp] theorem execPairPortStateChange_ends (p : Fin 2) (lanes : Fin 3) (latency : Nat) (s : State) : Ends s (execPairPortStateChange p lanes latency s) := by
  simp [execPairPortStateChange]

/-! ### Chain -/

@[simp] theorem execPcieLinkTrained_ends (rate : Fin 7) (width : Fin 17) (s : State) : Ends s (execPcieLinkTrained rate width s) := by
  simp [execPcieLinkTrained]
@[simp] theorem execDstateChange_ends (d0 : Bool) (t : Nat) (s : State) : Ends s (execDstateChange d0 t s) := by
  unfold execDstateChange
  dsimp only
  (repeat' split) <;> simp
@[simp] theorem execChainBeatToken_ends (tok : Bytes) (t : Nat) (s : State) : Ends s (execChainBeatToken tok t s) := by
  simp [execChainBeatToken]
@[simp] theorem execChainEnumToken_ends (tok : Bytes) (s : State) : Ends s (execChainEnumToken tok s) := by
  simp [execChainEnumToken]
@[simp] theorem execChainMgmtToken_ends (tok : Bytes) (s : State) : Ends s (execChainMgmtToken tok s) := by
  simp [execChainMgmtToken]
@[simp] theorem execChainUnknownToken_ends (tok : Bytes) (s : State) : Ends s (execChainUnknownToken tok s) := by
  simp [execChainUnknownToken]
@[simp] theorem execSpliceWindowEnd_ends (t : Nat) (s : State) : Ends s (execSpliceWindowEnd t s) := by
  simp [execSpliceWindowEnd]
@[simp] theorem execChainSplice_ends (t : Nat) (s : State) : Ends s (execChainSplice t s) := by
  simp [execChainSplice]
@[simp] theorem execChainBeatAbsent_ends (t : Nat) (s : State) : Ends s (execChainBeatAbsent t s) := by
  simp [execChainBeatAbsent]

/-! ### Convert -/

@[simp] theorem execCvt_ends (e : EngineId) (f : Fields) (s : State) : Ends s (execCvt e f s) := by
  simp [execCvt]
@[simp] theorem execQmx_ends (e : EngineId) (f : Fields) (s : State) : Ends s (execQmx e f s) := by
  simp [execQmx]
@[simp] theorem execDqmx_ends (e : EngineId) (f : Fields) (s : State) : Ends s (execDqmx e f s) := by
  simp [execDqmx]

/-! ### Dma -/

@[simp] theorem execChArm_ends (c : Fin 64) (m : Master) (s : State) : Ends s (execChArm c m s) := by
  simp [execChArm]
@[simp] theorem execChRepoke_ends (c : Fin 64) (m : Master) (s : State) : Ends s (execChRepoke c m s) := by
  simp [execChRepoke]
@[simp] theorem execChAbort_ends (c : Fin 64) (m : Master) (s : State) : Ends s (execChAbort c m s) := by
  simp [execChAbort]
@[simp] theorem execChResume_ends (c : Fin 64) (m : Master) (s : State) : Ends s (execChResume c m s) := by
  simp [execChResume]
@[simp] theorem execChResumeSkip_ends (c : Fin 64) (m : Master) (s : State) : Ends s (execChResumeSkip c m s) := by
  simp [execChResumeSkip]
@[simp] theorem execDescriptorFetchComplete_ends (c : Fin 64) (e : BusEnv) (s : State) : Ends s (execDescriptorFetchComplete c e s) := by
  unfold execDescriptorFetchComplete
  dsimp only
  (repeat' split) <;> simp
@[simp] theorem execLinkRereadComplete_ends (c : Fin 64) (e : BusEnv) (s : State) : Ends s (execLinkRereadComplete c e s) := by
  unfold execLinkRereadComplete
  dsimp only
  (repeat' split) <;> simp
@[simp] theorem execDmaCopy_ends (c : Fin 64) (s : State) : Ends s (execDmaCopy c s) := by
  simp [execDmaCopy]
@[simp] theorem execDmaFill_ends (c : Fin 64) (s : State) : Ends s (execDmaFill c s) := by
  simp [execDmaFill]
@[simp] theorem execDmaCrc_ends (c : Fin 64) (s : State) : Ends s (execDmaCrc c s) := by
  simp [execDmaCrc]
@[simp] theorem execDmaTriggerFire_ends (c : Fin 64) (t : Nat) (s : State) : Ends s (execDmaTriggerFire c t s) := by
  unfold execDmaTriggerFire
  dsimp only
  (repeat' split) <;> simp
@[simp] theorem execBurstIssue_ends (e : BusEnv) (s : State) : Ends s (execBurstIssue e s) := by
  unfold execBurstIssue
  dsimp only
  (repeat' split) <;> simp
@[simp] theorem execPcieCompletionTimeout_ends (s : State) : Ends s (execPcieCompletionTimeout s) := by
  unfold execPcieCompletionTimeout
  split <;> simp
@[simp] theorem execBurstResponse_ends (c : Fin 64) (fail : Option (Fin 7)) (t : Nat) (s : State) : Ends s (execBurstResponse c fail t s) := by
  unfold execBurstResponse
  dsimp only
  (repeat' split) <;> simp
@[simp] theorem execBurstRetry_ends (c : Fin 64) (e : BusEnv) (t : Nat) (s : State) : Ends s (execBurstRetry c e t s) := by
  unfold execBurstRetry
  dsimp only
  (repeat' split) <;> simp
@[simp] theorem execCompletionReadReturn_ends (c : Fin 64) (ok : Bool) (t : Nat) (s : State) : Ends s (execCompletionReadReturn c ok t s) := by
  unfold execCompletionReadReturn
  dsimp only
  (repeat' split) <;> simp
@[simp] theorem execDescriptorComplete_ends (c : Fin 64) (e : BusEnv) (t : Nat) (s : State) : Ends s (execDescriptorComplete c e t s) := by
  unfold execDescriptorComplete
  dsimp only
  (repeat' split) <;> simp

/-! ### Events -/

@[simp] theorem execEventPost_ends (src : Fin 4096) (vote : Option (Fin 3)) (s : State) : Ends s (execEventPost src vote s) := by
  simp [execEventPost]
@[simp] theorem execEventClaim_ends (t : Fin 20) (vote : Option (Fin 3)) (s : State) : Ends s (execEventClaim t vote s) := by
  simp [execEventClaim]
@[simp] theorem execHandlerEntry_ends (t : Fin 20) (s : State) : Ends s (execHandlerEntry t s) := by
  simp [execHandlerEntry]
@[simp] theorem execEvcTgtComplete_ends (t : Fin 20) (m : Master) (src : Fin 4096) (s : State) : Ends s (execEvcTgtComplete t m src s) := by
  simp [execEvcTgtComplete]
@[simp] theorem execExitEnd_ends (t : Fin 20) (s : State) : Ends s (execExitEnd t s) := by
  simp [execExitEnd]
@[simp] theorem execEvcTgtFlush_ends (t : Fin 20) (m : Master) (s : State) : Ends s (execEvcTgtFlush t m s) := by
  simp [execEvcTgtFlush]
@[simp] theorem execEvcSwPost_ends (i : Fin 256) (s : State) : Ends s (execEvcSwPost i s) := by
  simp [execEvcSwPost]
@[simp] theorem execHostPendAck_ends (src : Fin 4096) (s : State) : Ends s (execHostPendAck src s) := by
  simp [execHostPendAck]
@[simp] theorem execThresholdWrite_ends (t : Fin 20) (v : Fin 64) (s : State) : Ends s (execThresholdWrite t v s) := by
  simp [execThresholdWrite]

/-! ### Fabric -/

@[simp] theorem execNetenFlitReceive_ends (k : Fin 16) (port : Fin 5) (cls : Fin 3) (tq : Fin 8) (f : FlitIn) (crcOk : Bool) (cyc : Nat) (s : State) :
    Ends s (execNetenFlitReceive k port cls tq f crcOk cyc s) := by
  simp [execNetenFlitReceive]
@[simp] theorem execNetShareApply_ends (k : Fin 16) (s : State) : Ends s (execNetShareApply k s) := by
  simp [execNetShareApply]
@[simp] theorem execHbmPatrolScrub_ends (c : Fin 8) (e : BusEnv) (s : State) : Ends s (execHbmPatrolScrub c e s) := by
  simp [execHbmPatrolScrub]
@[simp] theorem execBar2Read_ends (off len : Nat) (e : BusEnv) (s : State) : Ends s (execBar2Read off len e s) := by
  simp [execBar2Read]
@[simp] theorem execBar2Write_ends (off : Nat) (data : Bytes) (s : State) : Ends s (execBar2Write off data s) := by
  unfold execBar2Write
  split <;> simp

/-! ### Lease -/

@[simp] theorem execLeaseCycle_ends (e : BusEnv) (t : Nat) (s : State) : Ends s (execLeaseCycle e t s) := by
  unfold execLeaseCycle
  dsimp only
  (repeat' split) <;> simp
@[simp] theorem execLeaseCycleComplete_ends (ok : Bool) (t : Nat) (s : State) : Ends s (execLeaseCycleComplete ok t s) := by
  simp [execLeaseCycleComplete]
@[simp] theorem execLeaseBoundExpire_ends (t : Nat) (s : State) : Ends s (execLeaseBoundExpire t s) := by
  simp [execLeaseBoundExpire]
@[simp] theorem execSuspectLeaseRead_ends (e : BusEnv) (t : Nat) (s : State) : Ends s (execSuspectLeaseRead e t s) := by
  unfold execSuspectLeaseRead
  dsimp only
  (repeat' split) <;> simp
@[simp] theorem execLeaseClaimReread_ends (e : BusEnv) (t : Nat) (s : State) : Ends s (execLeaseClaimReread e t s) := by
  unfold execLeaseClaimReread
  dsimp only
  (repeat' split) <;> simp
@[simp] theorem execHandover_ends (_m : Master) (s : State) : Ends s (execHandover _m s) := by
  simp [execHandover]
@[simp] theorem execLeave_ends (_m : Master) (s : State) : Ends s (execLeave _m s) := by
  simp [execLeave]

/-! ### Load -/

@[simp] theorem execLoadGraph_ends (seq : Nat) (e : BusEnv) (verified : Bool) (sage : Placed) (toks : List TokDecl) (decls : GraphDecls) (s : State) : Ends s (execLoadGraph seq e verified sage toks decls s) := by
  refine ends_of_next (State.begin_keeps (by simp) _ _ fun c t ht => ?_)
  dsimp only
  (repeat' split) <;> simp [ht]

/-! ### Lovage -/

@[simp] theorem execLovageImage_ends (lane : Fin 8) (n : Fin 64) (b slot : Nat) (d : PrepDecl) (present : Bool) (mesh lens : Option (List Nat)) (dst : Dest) (s : State) :
    Ends s (execLovageImage lane n b slot d present mesh lens dst s) := by
  unfold execLovageImage
  dsimp only
  (repeat' split) <;> simp

/-! ### Resets -/

@[simp] theorem execPerstAssert_ends (t : Nat) (s : State) : Ends s (execPerstAssert t s) := by
  simp [execPerstAssert]
@[simp] theorem execPerstDeassert_ends (t : Nat) (s : State) : Ends s (execPerstDeassert t s) := by
  simp [execPerstDeassert]
@[simp] theorem execPcieLinkDown_ends (t : Nat) (s : State) : Ends s (execPcieLinkDown t s) := by
  simp [execPcieLinkDown]
@[simp] theorem execFlr_ends (t : Nat) (s : State) : Ends s (execFlr t s) := by
  simp [execFlr]
@[simp] theorem execD3coldEntry_ends (t : Nat) (s : State) : Ends s (execD3coldEntry t s) := by
  simp [execD3coldEntry]
@[simp] theorem execSoftReset_ends (m : Master) (key : Fin 65536) (t : Nat) (s : State) : Ends s (execSoftReset m key t s) := by
  simp [execSoftReset]
@[simp] theorem execColdReset_ends (m : Master) (key : Fin 65536) (t : Nat) (s : State) : Ends s (execColdReset m key t s) := by
  simp [execColdReset]
@[simp] theorem execPowerInputStart_ends (low t : Nat) (s : State) : Ends s (execPowerInputStart low t s) := by
  simp [execPowerInputStart]
@[simp] theorem execRailsInTolerance_ends (t : Nat) (s : State) : Ends s (execRailsInTolerance t s) := by
  unfold execRailsInTolerance
  dsimp only
  (repeat' split) <;> simp
@[simp] theorem execBootStageComplete_ends (good : List (Nat × Nat)) (intact : Bool) (found : Present) (t : Nat) (s : State) :
    Ends s (execBootStageComplete good intact found t s) := by
  unfold execBootStageComplete
  dsimp only
  (repeat' split) <;> simp
@[simp] theorem execWarmRestart_ends (seq t : Nat) (s : State) : Ends s (execWarmRestart seq t s) := by
  refine ends_of_next ?_
  split
  · simp
  · exact State.begin_keeps (by simp) _ _ fun c t ht => by simp [ht]

/-! ### Power -/

@[simp] theorem execInputVoltageFault_ends (mv held t : Nat) (s : State) : Ends s (execInputVoltageFault mv held t s) := by
  simp [execInputVoltageFault]
@[simp] theorem execInputVoltageWarn_ends (mv : Nat) (s : State) : Ends s (execInputVoltageWarn mv s) := by
  simp [execInputVoltageWarn]
@[simp] theorem execPowerSample_ends (mv mw : Nat) (die hbm : Fin 256) (proj : Bool) (t : Nat) (s : State) :
    Ends s (execPowerSample mv mw die hbm proj t s) := by
  simp [execPowerSample]
@[simp] theorem execClockStep_ends (t : Nat) (s : State) : Ends s (execClockStep t s) := by
  unfold execClockStep
  dsimp only
  (repeat' split) <;> simp
@[simp] theorem execThermalStop_ends (cls : Fin 3) (temp t : Nat) (s : State) : Ends s (execThermalStop cls temp t s) := by
  simp [execThermalStop]
@[simp] theorem execPwrCapWrite_ends (w : Fin 1024) (t : Nat) (s : State) : Ends s (execPwrCapWrite w t s) := by
  simp [execPwrCapWrite]
@[simp] theorem execDomainPowerDown_ends (d : Fin 64) (force : Bool) (m : Master) (t : Nat) (s : State) : Ends s (execDomainPowerDown d force m t s) := by
  simp [execDomainPowerDown]
@[simp] theorem execDomainPowerUp_ends (d : Fin 64) (m : Master) (t : Nat) (s : State) : Ends s (execDomainPowerUp d m t s) := by
  simp [execDomainPowerUp]
@[simp] theorem execDomainDrainComplete_ends (t : Nat) (s : State) : Ends s (execDomainDrainComplete t s) := by
  unfold execDomainDrainComplete
  dsimp only
  (repeat' split) <;> simp
@[simp] theorem execDomainForceTimeout_ends (t : Nat) (s : State) : Ends s (execDomainForceTimeout t s) := by
  unfold execDomainForceTimeout
  dsimp only
  (repeat' split) <;> simp
@[simp] theorem execDomainPowerUpComplete_ends (bad : List (Nat × Nat)) (t : Nat) (s : State) : Ends s (execDomainPowerUpComplete bad t s) := by
  unfold execDomainPowerUpComplete
  dsimp only
  (repeat' split) <;> simp

/-! ### Manage -/

@[simp] theorem execMctpSetEid_ends (eid : Fin 256) (s : State) : Ends s (execMctpSetEid eid s) := by
  simp [execMctpSetEid]
@[simp] theorem execPldmSensorRefresh_ends (vals : List (Fin 87 × Nat)) (s : State) : Ends s (execPldmSensorRefresh vals s) := by
  simp [execPldmSensorRefresh]
@[simp] theorem execSetEventReceiver_ends (eid : Fin 256) (s : State) : Ends s (execSetEventReceiver eid s) := by
  simp [execSetEventReceiver]
@[simp] theorem execVendorRecordRead_ends (num : Nat) (s : State) : Ends s (execVendorRecordRead num s) := by
  unfold execVendorRecordRead
  (repeat' split) <;> simp
@[simp] theorem execMgiNegotiate_ends (range : Fin 4294967296) (s : State) : Ends s (execMgiNegotiate range s) := by
  unfold execMgiNegotiate
  (repeat' split) <;> simp
@[simp] theorem execRequestUpdate_ends (s : State) : Ends s (execRequestUpdate s) := by
  simp [execRequestUpdate]
@[simp] theorem execComponentDataWrite_ends (ty : Fin 5) (off : Nat) (data : Bytes) (s : State) : Ends s (execComponentDataWrite ty off data s) := by
  simp [execComponentDataWrite]
@[simp] theorem execVerifyComplete_ends (ty : Fin 5) (sigs : Bool) (s : State) : Ends s (execVerifyComplete ty sigs s) := by
  simp [execVerifyComplete]
@[simp] theorem execActivateFirmware_ends (s : State) : Ends s (execActivateFirmware s) := by
  simp [execActivateFirmware]
@[simp] theorem execTrialCommit_ends (t : Nat) (s : State) : Ends s (execTrialCommit t s) := by
  simp [execTrialCommit]

/-! ### Security -/

@[simp] theorem execGetMeasurements_ends (i : Fin 256) (sig : Bytes) (s : State) : Ends s (execGetMeasurements i sig s) := by
  simp [execGetMeasurements]
@[simp] theorem execDebugChallenge_ends (level : Fin 3) (s : State) : Ends s (execDebugChallenge level s) := by
  simp [execDebugChallenge]
@[simp] theorem execDebugUnlock_ends (nonce : Nat) (slot : Fin 2) (ownerSig rootSig : Bool) (s : State) :
    Ends s (execDebugUnlock nonce slot ownerSig rootSig s) := by
  unfold execDebugUnlock
  split <;> simp
@[simp] theorem execOwnerRecord_ends (slot : Fin 2) (keys : Bytes) (signer : Option (Fin 2)) (rootSig : Bool) (s : State) :
    Ends s (execOwnerRecord slot keys signer rootSig s) := by
  simp [execOwnerRecord]
@[simp] theorem execPolicyRecord_ends (required enc : Bool) (signer : Fin 2) (sig : Bool) (s : State) :
    Ends s (execPolicyRecord required enc signer sig s) := by
  simp [execPolicyRecord]
@[simp] theorem execRevocationRecord_ends (ml : Bool) (slot : Fin 4) (sig : Bool) (s : State) : Ends s (execRevocationRecord ml slot sig s) := by
  simp [execRevocationRecord]
@[simp] theorem execReprovisionRecord_ends (sig : Bool) (s : State) : Ends s (execReprovisionRecord sig s) := by
  simp [execReprovisionRecord]
@[simp] theorem execIdeKeyProgram_ends (secured : Bool) (s : State) : Ends s (execIdeKeyProgram secured s) := by
  simp [execIdeKeyProgram]

/-! ### Tables -/

@[simp] theorem execAttachTable_ends (seq : Nat) (e : BusEnv) (x : FileIn) (s : State) : Ends s (execAttachTable seq e x s) := by
  have h0 : Keeps s.data (s.env e).data := by simp
  refine ends_of_next (State.begin_keeps h0 _ _ fun c t ht => ?_)
  have h : Keeps s.data t.data := by simp [ht]
  refine state_keeps_ite h0 (state_keeps_ite (by simp [h]) (state_keeps_ite (by simp [h]) ?_))
  split
  · simp [h]
  · exact state_keeps_ite h0 (state_keeps_ite (by simp [h]) (state_keeps_ite (by simp [h]) (by simp [h])))
@[simp] theorem execDetachTable_ends (seq : Nat) (s : State) : Ends s (execDetachTable seq s) := by
  refine ends_of_next (State.begin_keeps (by simp) _ _ fun c t ht => ?_)
  dsimp only
  (repeat' split) <;> simp [ht]

/-! ### RegWrite -/

@[simp] theorem execRegisterWrite_ends (m : Master) (off data len : Nat) (s : State) : Ends s (execRegisterWrite m off data len s) := by
  simp [execRegisterWrite]
@[simp] theorem execRcRead_ends (off len inc : Nat) (s : State) : Ends s (execRcRead off len inc s) := by
  simp [execRcRead]
@[simp] theorem execLoReadCapture_ends (off : Nat) (s : State) : Ends s (execLoReadCapture off s) := by
  simp [execLoReadCapture]
@[simp] theorem execCommitWrite_ends (m : Master) (off data : Nat) (s : State) : Ends s (execCommitWrite m off data s) := by
  unfold execCommitWrite
  split <;> simp
@[simp] theorem execUnmappedBar0Read_ends (off len : Nat) (s : State) : Ends s (execUnmappedBar0Read off len s) := by
  simp [execUnmappedBar0Read]
@[simp] theorem execPendingCopyAdopt_ends (chan : Bool) (n : Fin 64) (s : State) : Ends s (execPendingCopyAdopt chan n s) := by
  simp [execPendingCopyAdopt]
@[simp] theorem execQuery_ends (seq : Nat) (e : BusEnv) (s : State) : Ends s (execQuery seq e s) := by
  refine ends_of_next ?_
  split
  · simp
  · refine State.begin_keeps (by simp) _ _ fun c t ht => ?_
    (repeat' split) <;> simp [ht]

/-! ### Words -/

@[simp] theorem execLoop_ends (e : EngineId) (f : Fields) (s : State) : Ends s (execLoop e f s) := by
  simp [execLoop]
@[simp] theorem execLend_ends (e : EngineId) (f : Fields) (s : State) : Ends s (execLend e f s) := by
  simp [execLend]
@[simp] theorem execLd_ends (e : EngineId) (f : Fields) (s : State) : Ends s (execLd e f s) := by
  simp [execLd]
@[simp] theorem execSt_ends (e : EngineId) (f : Fields) (s : State) : Ends s (execSt e f s) := by
  simp [execSt]
@[simp] theorem execLdv_ends (e : EngineId) (f : Fields) (s : State) : Ends s (execLdv e f s) := by
  simp [execLdv]
@[simp] theorem execStv_ends (e : EngineId) (f : Fields) (s : State) : Ends s (execStv e f s) := by
  simp [execStv]
@[simp] theorem execNop_ends (e : EngineId) (f : Fields) (s : State) : Ends s (execNop e f s) := by
  simp [execNop]
@[simp] theorem execAdd_ends (e : EngineId) (f : Fields) (s : State) : Ends s (execAdd e f s) := by
  simp [execAdd]
@[simp] theorem execSub_ends (e : EngineId) (f : Fields) (s : State) : Ends s (execSub e f s) := by
  simp [execSub]
@[simp] theorem execMul_ends (e : EngineId) (f : Fields) (s : State) : Ends s (execMul e f s) := by
  simp [execMul]
@[simp] theorem execMulh_ends (e : EngineId) (f : Fields) (s : State) : Ends s (execMulh e f s) := by
  simp [execMulh]
@[simp] theorem execFma_ends (e : EngineId) (f : Fields) (s : State) : Ends s (execFma e f s) := by
  simp [execFma]
@[simp] theorem execDiv_ends (e : EngineId) (f : Fields) (s : State) : Ends s (execDiv e f s) := by
  simp [execDiv]
@[simp] theorem execDivf_ends (e : EngineId) (f : Fields) (s : State) : Ends s (execDivf e f s) := by
  simp [execDivf]
@[simp] theorem execRem_ends (e : EngineId) (f : Fields) (s : State) : Ends s (execRem e f s) := by
  simp [execRem]
@[simp] theorem execModf_ends (e : EngineId) (f : Fields) (s : State) : Ends s (execModf e f s) := by
  simp [execModf]
@[simp] theorem execMin_ends (e : EngineId) (f : Fields) (s : State) : Ends s (execMin e f s) := by
  simp [execMin]
@[simp] theorem execMax_ends (e : EngineId) (f : Fields) (s : State) : Ends s (execMax e f s) := by
  simp [execMax]
@[simp] theorem execAbs_ends (e : EngineId) (f : Fields) (s : State) : Ends s (execAbs e f s) := by
  simp [execAbs]
@[simp] theorem execNeg_ends (e : EngineId) (f : Fields) (s : State) : Ends s (execNeg e f s) := by
  simp [execNeg]
@[simp] theorem execClamp_ends (e : EngineId) (f : Fields) (s : State) : Ends s (execClamp e f s) := by
  simp [execClamp]
@[simp] theorem execSqrt_ends (e : EngineId) (f : Fields) (s : State) : Ends s (execSqrt e f s) := by
  simp [execSqrt]
@[simp] theorem execMov_ends (e : EngineId) (f : Fields) (s : State) : Ends s (execMov e f s) := by
  simp [execMov]
@[simp] theorem execMovi_ends (e : EngineId) (f : Fields) (s : State) : Ends s (execMovi e f s) := by
  simp [execMovi]
@[simp] theorem execExp_ends (e : EngineId) (f : Fields) (s : State) : Ends s (execExp e f s) := by
  simp [execExp]
@[simp] theorem execLog_ends (e : EngineId) (f : Fields) (s : State) : Ends s (execLog e f s) := by
  simp [execLog]
@[simp] theorem execLog1p_ends (e : EngineId) (f : Fields) (s : State) : Ends s (execLog1p e f s) := by
  simp [execLog1p]
@[simp] theorem execTanh_ends (e : EngineId) (f : Fields) (s : State) : Ends s (execTanh e f s) := by
  simp [execTanh]
@[simp] theorem execSigm_ends (e : EngineId) (f : Fields) (s : State) : Ends s (execSigm e f s) := by
  simp [execSigm]
@[simp] theorem execErf_ends (e : EngineId) (f : Fields) (s : State) : Ends s (execErf e f s) := by
  simp [execErf]
@[simp] theorem execRsqrt_ends (e : EngineId) (f : Fields) (s : State) : Ends s (execRsqrt e f s) := by
  simp [execRsqrt]
@[simp] theorem execRcp_ends (e : EngineId) (f : Fields) (s : State) : Ends s (execRcp e f s) := by
  simp [execRcp]
@[simp] theorem execCmp_ends (e : EngineId) (f : Fields) (s : State) : Ends s (execCmp e f s) := by
  simp [execCmp]
@[simp] theorem execClassF_ends (e : EngineId) (f : Fields) (s : State) : Ends s (execClassF e f s) := by
  simp [execClassF]
@[simp] theorem execSel_ends (e : EngineId) (f : Fields) (s : State) : Ends s (execSel e f s) := by
  simp [execSel]
@[simp] theorem execIsval_ends (e : EngineId) (f : Fields) (s : State) : Ends s (execIsval e f s) := by
  simp [execIsval]
@[simp] theorem execCoal_ends (e : EngineId) (f : Fields) (s : State) : Ends s (execCoal e f s) := by
  simp [execCoal]
@[simp] theorem execKop_ends (e : EngineId) (f : Fields) (s : State) : Ends s (execKop e f s) := by
  simp [execKop]
@[simp] theorem execSetv_ends (e : EngineId) (f : Fields) (s : State) : Ends s (execSetv e f s) := by
  simp [execSetv]
@[simp] theorem execVmrk_ends (e : EngineId) (f : Fields) (s : State) : Ends s (execVmrk e f s) := by
  simp [execVmrk]
@[simp] theorem execKfirst_ends (e : EngineId) (f : Fields) (s : State) : Ends s (execKfirst e f s) := by
  simp [execKfirst]
@[simp] theorem execAnd_ends (e : EngineId) (f : Fields) (s : State) : Ends s (execAnd e f s) := by
  simp [execAnd]
@[simp] theorem execOr_ends (e : EngineId) (f : Fields) (s : State) : Ends s (execOr e f s) := by
  simp [execOr]
@[simp] theorem execXor_ends (e : EngineId) (f : Fields) (s : State) : Ends s (execXor e f s) := by
  simp [execXor]
@[simp] theorem execAndn_ends (e : EngineId) (f : Fields) (s : State) : Ends s (execAndn e f s) := by
  simp [execAndn]
@[simp] theorem execNot_ends (e : EngineId) (f : Fields) (s : State) : Ends s (execNot e f s) := by
  simp [execNot]
@[simp] theorem execShl_ends (e : EngineId) (f : Fields) (s : State) : Ends s (execShl e f s) := by
  simp [execShl]
@[simp] theorem execShr_ends (e : EngineId) (f : Fields) (s : State) : Ends s (execShr e f s) := by
  simp [execShr]
@[simp] theorem execSar_ends (e : EngineId) (f : Fields) (s : State) : Ends s (execSar e f s) := by
  simp [execSar]
@[simp] theorem execRotl_ends (e : EngineId) (f : Fields) (s : State) : Ends s (execRotl e f s) := by
  simp [execRotl]
@[simp] theorem execPopc_ends (e : EngineId) (f : Fields) (s : State) : Ends s (execPopc e f s) := by
  simp [execPopc]
@[simp] theorem execClz_ends (e : EngineId) (f : Fields) (s : State) : Ends s (execClz e f s) := by
  simp [execClz]
@[simp] theorem execCtz_ends (e : EngineId) (f : Fields) (s : State) : Ends s (execCtz e f s) := by
  simp [execCtz]
@[simp] theorem execFold_ends (e : EngineId) (f : Fields) (s : State) : Ends s (execFold e f s) := by
  simp [execFold]
@[simp] theorem execBfind_ends (e : EngineId) (f : Fields) (s : State) : Ends s (execBfind e f s) := by
  simp [execBfind]
@[simp] theorem execBdiff_ends (e : EngineId) (f : Fields) (s : State) : Ends s (execBdiff e f s) := by
  simp [execBdiff]
@[simp] theorem execUtf8v_ends (e : EngineId) (f : Fields) (s : State) : Ends s (execUtf8v e f s) := by
  simp [execUtf8v]
@[simp] theorem execBlowr_ends (e : EngineId) (f : Fields) (s : State) : Ends s (execBlowr e f s) := by
  simp [execBlowr]
@[simp] theorem execBcls_ends (e : EngineId) (f : Fields) (s : State) : Ends s (execBcls e f s) := by
  simp [execBcls]
@[simp] theorem execXsr_ends (e : EngineId) (f : Fields) (s : State) : Ends s (execXsr e f s) := by
  simp [execXsr]
@[simp] theorem execCrc_ends (e : EngineId) (f : Fields) (s : State) : Ends s (execCrc e f s) := by
  simp [execCrc]
@[simp] theorem execXxr_ends (e : EngineId) (f : Fields) (s : State) : Ends s (execXxr e f s) := by
  simp [execXxr]
@[simp] theorem execSipr_ends (e : EngineId) (f : Fields) (s : State) : Ends s (execSipr e f s) := by
  simp [execSipr]
@[simp] theorem execRsum_ends (e : EngineId) (f : Fields) (s : State) : Ends s (execRsum e f s) := by
  simp [execRsum]
@[simp] theorem execRsumw_ends (e : EngineId) (f : Fields) (s : State) : Ends s (execRsumw e f s) := by
  simp [execRsumw]
@[simp] theorem execRmin_ends (e : EngineId) (f : Fields) (s : State) : Ends s (execRmin e f s) := by
  simp [execRmin]
@[simp] theorem execRmax_ends (e : EngineId) (f : Fields) (s : State) : Ends s (execRmax e f s) := by
  simp [execRmax]
@[simp] theorem execRcnt_ends (e : EngineId) (f : Fields) (s : State) : Ends s (execRcnt e f s) := by
  simp [execRcnt]
@[simp] theorem execRand_ends (e : EngineId) (f : Fields) (s : State) : Ends s (execRand e f s) := by
  simp [execRand]
@[simp] theorem execRor_ends (e : EngineId) (f : Fields) (s : State) : Ends s (execRor e f s) := by
  simp [execRor]
@[simp] theorem execPerm_ends (e : EngineId) (f : Fields) (s : State) : Ends s (execPerm e f s) := by
  simp [execPerm]
@[simp] theorem execCprs_ends (e : EngineId) (f : Fields) (s : State) : Ends s (execCprs e f s) := by
  simp [execCprs]
@[simp] theorem execAlgn_ends (e : EngineId) (f : Fields) (s : State) : Ends s (execAlgn e f s) := by
  simp [execAlgn]

/-- Every command answers a next state with the queue that it was given, and keeps both memories canonical. -/
theorem exec_ends (c : Instr) (s : State) : Ends s (exec c s) := by
  cases c <;> simp [exec]

/-- Every step answers a next state that has lost the queue's front, and keeps both memories canonical. -/
theorem step_ends (s : State) : ∃ u, step s = .next u ∧ Keeps (s.pending.tail, s.mem.bus, s.mem.hbm) u.data := by
  unfold step
  split
  · rename_i hp
    have hd : s.data = ([], s.mem.bus, s.mem.hbm) := by rw [← hp]; rfl
    refine ⟨_, rfl, ?_⟩
    rw [State.fabricTick_data, hd, hp]
    exact Keeps.rfl
  · rename_i c r hp
    obtain ⟨u, hu, hk⟩ := exec_ends c { s with pending := r }
    exact ⟨u, hu, by simpa [hp] using hk⟩

end Sys2Proof.Machine
end

section
/-! Proofs about what every step keeps: the fabric, and the statements settled -/

namespace Sys2Proof.Machine

/-! ### The fabric -/

/-- Only the routers and the fabric cycle may differ. -/
def FabricOnly (s t : State) : Prop := t = { s with mem := { s.mem with routers := t.mem.routers, netCyc := t.mem.netCyc } }

@[simp] theorem FabricOnly.rfl (s : State) : FabricOnly s s := Eq.refl _

theorem FabricOnly.trans {s t u : State} (h : FabricOnly s t) (k : FabricOnly t u) : FabricOnly s u := by
  unfold FabricOnly at *
  rw [k, h]

theorem FabricOnly.symm {s t : State} (h : FabricOnly s t) : FabricOnly t s := by
  unfold FabricOnly at *
  rw [h]

theorem State.modRouter_fabricOnly (s : State) (k : Nat) (f : Router → Router) : FabricOnly s (s.modRouter k f) := Eq.refl _

@[simp] theorem fabricOnly_modRouter {s t : State} (k : Nat) (f : Router → Router) : FabricOnly s (t.modRouter k f) ↔ FabricOnly s t :=
  ⟨fun h => h.trans (t.modRouter_fabricOnly k f).symm, fun h => h.trans (t.modRouter_fabricOnly k f)⟩

theorem FabricOnly.foldl {β : Type} {f : State → β → State} (hf : ∀ t x, FabricOnly t (f t x)) (l : List β) {s t : State} (h : FabricOnly s t) :
    FabricOnly s (l.foldl f t) := by
  induction l generalizing t with
  | nil => exact h
  | cons x xs ih => exact ih (h.trans (hf t x))

@[simp] theorem FabricOnly.ite {s t u : State} {c : Prop} [Decidable c] (ht : FabricOnly s t) (hu : FabricOnly s u) : FabricOnly s (if c then t else u) := by
  split <;> assumption

theorem State.portCycle_fabricOnly (s : State) (k cyc out : Nat) : FabricOnly s (s.portCycle k cyc out) := by
  unfold State.portCycle
  dsimp only
  split
  · simp
  · split
    · simp
    · split <;> simp

theorem State.fabricTick_fabricOnly (s : State) : FabricOnly s s.fabricTick :=
  .ite (.rfl s) (.foldl (fun t k => .foldl (fun u o => u.portCycle_fabricOnly k _ o) _ (.rfl t)) _ (Eq.refl _))

theorem State.fabricTick_of_idle {s : State} (h : ∀ p ∈ s.mem.routers, ∀ x ∈ p.2.held, x.2 = []) : s.fabricTick = s := by
  have hb : s.netBusy = [] := by
    rw [State.netBusy, List.map_eq_nil_iff, List.filter_eq_nil_iff]
    intro p hp
    simpa using h p hp
  simp [State.fabricTick, hb]

theorem step_of_nil {s : State} (h : s.pending = []) : step s = .next s.fabricTick := by rw [step, h]

/-! ### Settled -/

/-- Settles O60: every command keeps both canonical forms (`exec_ends`), and a step takes the queue's front. -/
theorem memoriesStayCanonical : Obligations.MemoriesStayCanonical := by
  intro s t h
  obtain ⟨u, hu, hk⟩ := step_ends s
  obtain rfl : u = t := by simpa [hu] using h
  exact ⟨hk.bus, hk.hbm, hk.queue⟩

/-- Settles O2: every command answers a next state (`exec_ends`), and on an empty queue the step is the fabric's. -/
theorem everyStepAnswers : Obligations.EveryStepAnswers := by
  refine ⟨fun s => ?_, fun s hp hr => ?_, fun s hp => ⟨s.fabricTick, step_of_nil hp, s.fabricTick_fabricOnly⟩⟩
  · obtain ⟨u, hu, -⟩ := step_ends s
    exact ⟨u, hu⟩
  · rw [step_of_nil hp, State.fabricTick_of_idle hr]
end Sys2Proof.Machine
end

section
/-! Proofs about chapter 18: power domains, input power, the clock and the thermal stop -/

namespace Sys2Proof.Machine

/-! ### The bits of a map -/

/-- Setting a bit that was clear leaves the others. -/
theorem bitOf_add_two_pow {v i j : Nat} (h : bitOf v i = false) (hj : j ≠ i) : bitOf (v + 2 ^ i) j = bitOf v j := by
  unfold bitOf at *
  obtain hlt | hgt := Nat.lt_or_gt_of_ne hj
  · obtain ⟨d, rfl⟩ := Nat.exists_eq_add_of_lt hlt
    have hdiv : (v + 2 ^ (j + d + 1)) / 2 ^ j = v / 2 ^ j + 2 * 2 ^ d := by
      rw [show 2 ^ (j + d + 1) = 2 ^ j * (2 * 2 ^ d) by ring, Nat.add_mul_div_left _ _ (Nat.two_pow_pos j)]
    rw [hdiv, Nat.add_mul_mod_self_left]
  · obtain ⟨d, rfl⟩ := Nat.exists_eq_add_of_lt hgt
    have hdiv : ∀ x, x / 2 ^ (i + d + 1) = x / 2 ^ i / 2 / 2 ^ d := fun x => by
      rw [Nat.div_div_eq_div_mul, Nat.div_div_eq_div_mul]; congr 1; ring
    have hq : (v / 2 ^ i + 1) / 2 = v / 2 ^ i / 2 := by
      have : v / 2 ^ i % 2 ≠ 1 := by simpa using h
      omega
    rw [hdiv, hdiv, Nat.add_div_right _ (Nat.two_pow_pos i), hq]

theorem two_pow_le_of_bitOf {v i : Nat} (h : bitOf v i = true) : 2 ^ i ≤ v :=
  Nat.ge_two_pow_of_testBit (bitOf_eq_testBit v i ▸ h)

theorem bitOf_sub_two_pow {v i : Nat} (h : bitOf v i = true) : bitOf (v - 2 ^ i) i = false := by
  have hsum := Nat.testBit_two_pow_add_eq (v - 2 ^ i) i
  rw [Nat.add_sub_cancel' (two_pow_le_of_bitOf h), ← bitOf_eq_testBit, ← bitOf_eq_testBit, h] at hsum
  simpa using hsum.symm

theorem bitOf_withBit_clear (v i : Nat) : bitOf (withBit v i false) i = false := by
  unfold withBit
  split
  case isTrue h => simpa using h
  case isFalse h => exact bitOf_sub_two_pow (by simpa using h)

theorem bitOf_withBit_ne {v i j : Nat} (b : Bool) (hj : j ≠ i) : bitOf (withBit v i b) j = bitOf v j := by
  unfold withBit
  split
  case isTrue => rfl
  case isFalse h =>
    cases b with
    | true => exact bitOf_add_two_pow (by simpa using h) hj
    | false =>
      have hset : bitOf v i = true := by simpa using h
      calc bitOf (v - 2 ^ i) j = bitOf (v - 2 ^ i + 2 ^ i) j := (bitOf_add_two_pow (bitOf_sub_two_pow hset) hj).symm
        _ = bitOf v j := by rw [Nat.sub_add_cancel (two_pow_le_of_bitOf hset)]

/-- A map built bit by bit has no bit that the rule leaves out. -/
theorem bitOf_foldl_withBit {p : Nat → Bool} {d : Nat} (hd : p d = false) (l : List Nat) {m : Nat} (hm : bitOf m d = false) :
    bitOf (l.foldl (fun m k => withBit m k (p k)) m) d = false := by
  refine List.foldlRecOn (motive := fun m => bitOf m d = false) l _ hm fun m hm k _ => ?_
  by_cases h : d = k
  · subst h
    rw [hd]
    exact bitOf_withBit_clear m d
  · rw [bitOf_withBit_ne _ h, hm]

theorem bitOf_zero (i : Nat) : bitOf 0 i = false := by simp [bitOf]

/-! ### What leaves the power state as it is -/

theorem foldl_pwr {β : Type} {f : State → β → State} (h : ∀ t x, (f t x).pwr = t.pwr) (l : List β) (s : State) : (l.foldl f s).pwr = s.pwr :=
  List.foldlRecOn (motive := fun t => t.pwr = s.pwr) l f rfl fun t ht x _ => (h t x).trans ht

@[simp] theorem State.refit_pwr (s : State) : s.refit.pwr = s.pwr := by rw [State.refit]
@[simp] theorem State.checkGrade_pwr (s : State) : s.checkGrade.pwr = s.pwr := by
  simp [State.checkGrade, apply_ite State.pwr]
@[simp] theorem State.checkVariant_pwr (s : State) : s.checkVariant.pwr = s.pwr := by
  unfold State.checkVariant
  (repeat' split) <;> simp
@[simp] theorem State.refitted_pwr (s : State) : s.refitted.pwr = s.pwr := by simp [State.refitted]

@[simp] theorem State.startDesc_pwr (s : State) (c op : Nat) : (s.startDesc c op).pwr = s.pwr := by
  unfold State.startDesc
  dsimp only
  (repeat' split) <;> simp
@[simp] theorem State.endWaiters_pwr (s : State) (d : Nat) (off : Bool) : (s.endWaiters d off).pwr = s.pwr :=
  foldl_pwr (fun t c => by (repeat' split) <;> simp) _ _
@[simp] theorem State.rerunAll_pwr (s : State) : s.rerunAll.2.pwr = s.pwr := State.rerunAll_keeps State.pwr (fun _ _ => rfl) (fun _ _ => rfl) s
@[simp] theorem State.clusterGone_pwr (s : State) (k : Nat) : (s.clusterGone k).pwr = s.pwr := rfl
@[simp] theorem State.laneGone_pwr (s : State) (i : Nat) : (s.laneGone i).pwr = s.pwr := rfl
@[simp] theorem State.resendUnacked_pwr (s : State) : s.resendUnacked.pwr = s.pwr := foldl_pwr (fun _ _ => by rfl) _ _
@[simp] theorem State.portChange_pwr (s : State) (p lanes latency : Nat) : (s.portChange p lanes latency).pwr = s.pwr := by
  unfold State.portChange
  dsimp only
  (repeat' split) <;> simp
@[simp] theorem State.cutTransfer_pwr (s : State) (c d : Nat) : (s.cutTransfer c d).pwr = s.pwr := by
  unfold State.cutTransfer
  (repeat' split) <;> simp
@[simp] theorem State.markForced_pwr (s : State) (d : Nat) : (s.markForced d).pwr = s.pwr :=
  foldl_pwr (fun t r => by split <;> rfl) _ _
@[simp] theorem State.countHbm_pwr (s : State) (wr : Bool) (a n : Nat) : (s.countHbm wr a n).pwr = s.pwr := foldl_pwr (fun _ _ => by rfl) _ _
@[simp] theorem State.eccWords_pwr (s : State) (p : Nat → Bool) : (s.eccWords p).2.pwr = s.pwr := by
  refine List.foldlRecOn (motive := fun r : Bool × State => r.2.pwr = s.pwr) _ _ rfl fun r hr w _ => ?_
  dsimp only
  split <;> simp [hr]
@[simp] theorem State.hbmWrite_pwr (s : State) (a : Nat) (bs : Bytes) : (s.hbmWrite a bs).pwr = s.pwr := by simp [State.hbmWrite]
@[simp] theorem State.undefine_pwr (s : State) (r : Option DevTarget × Nat × Nat) : (s.undefine r).pwr = s.pwr := by
  unfold State.undefine State.putTarget
  dsimp only
  (repeat' split) <;> simp
@[simp] theorem State.bootRemoval_pwr (s : State) (kind index : Nat) : (s.bootRemoval kind index).pwr = s.pwr := by simp [State.bootRemoval]

/-! ### A post -/

@[simp] theorem fixSrc_state (n : Nat) (e : EvSrc) : (fixSrc n e).state = e.state := by rw [fixSrc]; split <;> rfl
@[simp] theorem fixSrc_lost (n : Nat) (e : EvSrc) : (fixSrc n e).lost = e.lost := by rw [fixSrc]; split <;> rfl
@[simp] theorem fixSrc_lostCount (n : Nat) (e : EvSrc) : (fixSrc n e).lostCount = e.lostCount := by rw [fixSrc]; split <;> rfl
@[simp] theorem fixSrc_hostPend (n : Nat) (e : EvSrc) : (fixSrc n e).hostPend = e.hostPend := by rw [fixSrc]; split <;> rfl

@[simp] theorem State.eventMessage_src (s : State) (v : Nat) : (s.eventMessage v).evc.src = s.evc.src := by
  rw [State.eventMessage]
  split
  · rw [State.sendMsix_evc]
  · rw [State.sendPme]
    split <;> rfl

theorem State.postEvent_src (s : State) (n : Nat) : (s.postEvent n).evc.src = tmod {} n (fun x => x.post (s.evc.source n)) s.evc.src := by
  rw [State.postEvent]
  dsimp only
  split
  · rw [State.eventMessage_src]
    rfl
  · rfl

theorem State.postEvent_source_ne (s : State) {n m : Nat} (h : m ≠ n) : (s.postEvent n).evc.source m = s.evc.source m := by
  rw [Evc.source, State.postEvent_src, tget_tmod_ne _ _ _ h, Evc.source]

theorem State.postEvent_source_same (s : State) (n : Nat) :
    (s.postEvent n).evc.source n = fixSrc n ((tget {} s.evc.src n).post (s.evc.source n)) := by
  rw [Evc.source, State.postEvent_src, tget_tmod_same]

/-- A post is what R406 to R409 say of its source, and leaves the others. -/
theorem State.postEvent_posted (s : State) (n : Nat) : Posted s (s.postEvent n) n := by
  have hraw : (s.evc.source n).state = (tget {} s.evc.src n).state := fixSrc_state _ _
  refine ⟨s.postEvent_posts n, fun hidle => ?_, fun hactive => ?_, fun m hm => s.postEvent_source_ne hm⟩
  · have hpost : (tget {} s.evc.src n).state = .idle := hraw ▸ hidle
    rw [s.postEvent_source_same]
    simp only [EvSrc.post, hpost, fixSrc_lost, fixSrc_state, fixSrc_hostPend]
    refine ⟨(fixSrc_lost _ _).symm, ?_, ?_, ?_, ?_⟩ <;> intros <;> simp [*]
  · have hpost : (tget {} s.evc.src n).post (s.evc.source n) =
        { tget {} s.evc.src n with lost := true, lostCount := min 0xFF ((tget {} s.evc.src n).lostCount + 1) } := by
      rw [hraw] at hactive
      unfold EvSrc.post
      split
      · contradiction
      · rfl
    rw [s.postEvent_source_same, hpost]
    simp [Evc.source]

/-- What a state shows of the event controller decides whether it is posted. -/
theorem Posted.of_evc {s t u : State} {n : Nat} (h : Posted t u n) (hevc : t.evc = s.evc) : Posted s u n := by
  unfold Posted at *
  rwa [hevc] at h

/-! ### Domain requests (R514, R516) -/

/-- The command that asks for a domain to go down or to come up. -/
def AsksDomain (i : Instr) (d : Fin 64) (down force : Bool) (m : Master) (t : Nat) : Prop :=
  (i = .domainPowerDown d force m t ∧ down = true) ∨ (i = .domainPowerUp d m t ∧ down = false ∧ force = false)

theorem AsksDomain.exec {i : Instr} {d : Fin 64} {down force : Bool} {m : Master} {t : Nat} (h : AsksDomain i d down force m t) (s : State) :
    exec i s = .next ((s.at_ t).domainGo m.val d.val down force) := by
  obtain ⟨rfl, rfl⟩ | ⟨rfl, rfl, rfl⟩ := h <;> rfl

/-- A request for a domain that may change: no recovery is under way, the domain exists, and no graph holds its HBM stack. -/
def State.mayRequest (s : State) (d : Nat) : Prop := s.err.state = 0 ∧ d ≤ 33 ∧ (26 ≤ d → s.work.graph = none)

theorem State.domainGo_pending {s : State} (h : s.pwr.request.isSome = true) (m d : Nat) (down force : Bool) :
    s.domainGo m d down force = s.reject 0x200020 m := if_pos h

theorem State.domainGo_dropped {s : State} {d : Nat} (hreq : s.pwr.request = none) (m : Nat) (down force : Bool)
    (h : s.err.state ≠ 0 ∨ 33 < d ∨ (26 ≤ d ∧ s.work.graph.isSome = true)) :
    s.domainGo m d down force = (s.domainFields d down force).reject 0x200020 m := by
  rw [State.domainGo, if_neg (by simp [hreq])]
  exact if_pos (by simpa [or_assoc] using h)

theorem State.domainGo_requested {s : State} {d : Nat} (hreq : s.pwr.request = none) (h : s.mayRequest d) (m : Nat) (down force : Bool) :
    s.domainGo m d down force =
      if s.domOff d = down then (s.domainFields d down force).endRequest 2
      else (s.domainFields d down force).modPwr fun p => { p with request := some (d, down, force, s.now) } := by
  obtain ⟨herr, hd, hgraph⟩ := h
  rw [State.domainGo, if_neg (by simp [hreq])]
  dsimp only
  rw [if_neg (by simp [herr]; grind)]
  simp

/-! ### The end of a request -/

@[simp] theorem State.endRequest_pwr (s : State) (r : Nat) : (s.endRequest r).pwr = { s.pwr with request := none, result := r } := by
  simp [State.endRequest]
@[simp] theorem State.endRequest_work (s : State) (r : Nat) : (s.endRequest r).work = s.work := by simp [State.endRequest]
@[simp] theorem State.endRequest_present (s : State) (r : Nat) : (s.endRequest r).present = s.present := by simp [State.endRequest]

theorem State.domainDown_pwr (s : State) (d : Nat) :
    (s.domainDown d).pwr = { s.pwr with off := withBit s.pwr.off d true, request := none, result := 0 } := by
  simp only [State.domainDown, State.endRequest_pwr, State.refitted_pwr]
  (repeat' split) <;> simp

@[simp] theorem State.checkGrade_work (s : State) : s.checkGrade.work = s.work := by simp [State.checkGrade, apply_ite State.work]
@[simp] theorem State.checkGrade_present (s : State) : s.checkGrade.present = s.present := by simp [State.checkGrade, apply_ite State.present]
@[simp] theorem State.checkVariant_present (s : State) : s.checkVariant.present = s.present := by
  unfold State.checkVariant
  (repeat' split) <;> simp
@[simp] theorem State.refit_work (s : State) : s.refit.work = s.work := by rw [State.refit]
@[simp] theorem State.checkVariant_cstore (s : State) (k : Nat) : s.checkVariant.cstore k = s.cstore k := by
  unfold State.checkVariant
  (repeat' split) <;> rfl
@[simp] theorem State.checkVariant_disp (s : State) (k : Nat) : s.checkVariant.disp k = s.disp k := by
  unfold State.checkVariant
  (repeat' split) <;> rfl
theorem State.refitted_cstore (s : State) (k : Nat) : s.refitted.cstore k = s.cstore k := by
  rw [State.refitted, State.checkVariant_cstore, State.cstore, State.checkGrade_work, State.refit_work, State.cstore]
theorem State.refitted_disp (s : State) (k : Nat) : s.refitted.disp k = s.disp k := by
  rw [State.refitted, State.checkVariant_disp, State.disp, State.checkGrade_work, State.refit_work, State.disp]

theorem State.clusterGone_cstore (s : State) (k : Nat) : (s.clusterGone k).cstore k = [] := tget_tset_same [] k [] s.work.stores
theorem State.clusterGone_disp (s : State) (k : Nat) : (s.clusterGone k).disp k = {} :=
  tget_tset_same ({} : Disp) k {} s.work.disps

/-- A cluster whose domain is off is in no configuration. -/
theorem State.refitted_clusterOff {s : State} {d : Nat} (h : s.domOff d = true) : s.refitted.clusterIn d = false := by
  have hpresent : s.refitted.present = s.refit.present := by simp [State.refitted]
  rw [State.clusterIn, hpresent]
  refine bitOf_foldl_withBit ?_ _ (bitOf_zero d)
  rw [Bool.and_eq_false_iff]
  exact .inl (bitOf_foldl_withBit (by simp [h]) _ (bitOf_zero d))

/-- A cluster that goes off is gone: from the configuration, with its store and its dispatcher. -/
theorem State.domainDown_cluster (s : State) {d : Nat} (hd : d < 16) :
    (s.domainDown d).clusterIn d = false ∧ (s.domainDown d).cstore d = [] ∧ (s.domainDown d).disp d = {} := by
  have h24 : (d == 24 || d == 25) = false := by simp; omega
  have hoff : ∀ t : State, t.pwr.off = withBit s.pwr.off d true → (t.clusterGone d).domOff d = true := fun t ht => by
    rw [State.domOff, State.clusterGone_pwr, ht, bitOf_withBit_same]
  refine ⟨?_, ?_, ?_⟩
  · rw [State.clusterIn, State.domainDown, State.endRequest_present, ← State.clusterIn]
    refine State.refitted_clusterOff ?_
    simp only [h24, hd, if_true, Bool.false_eq_true, if_false]
    refine hoff _ ?_
    split <;> simp
  · rw [State.cstore, State.domainDown, State.endRequest_work, ← State.cstore, State.refitted_cstore]
    simp only [h24, hd, if_true, Bool.false_eq_true, if_false]
    exact State.clusterGone_cstore _ _
  · rw [State.disp, State.domainDown, State.endRequest_work, ← State.disp, State.refitted_disp]
    simp only [h24, hd, if_true, Bool.false_eq_true, if_false]
    exact State.clusterGone_disp _ _

/-! ### What the clauses of the power domains say -/

theorem domainRequest_answers {i : Instr} {d : Fin 64} {down force : Bool} {m : Master} {t : Nat} (h : AsksDomain i d down force m t) (s : State) :
    (s.pwr.request.isSome = true → exec i s = .next ((s.at_ t).reject 0x200020 m.val)) ∧
    (s.pwr.request = none → s.err.state ≠ 0 ∨ 33 < d.val ∨ (26 ≤ d.val ∧ s.work.graph.isSome = true) → ∃ u, exec i s = .next u ∧ u.pwr.request = none ∧
      u.pwr.off = s.pwr.off ∧ u.glb.reject = sat32 s.glb.reject 1) ∧
    (s.pwr.request = none → s.err.state = 0 → d.val ≤ 33 → (26 ≤ d.val → s.work.graph = none) → s.domOff d = down → ∃ u, exec i s = .next u ∧
      u.pwr.request = none ∧ u.pwr.result = 2 ∧ u.pwr.off = s.pwr.off) ∧
    (s.pwr.request = none → s.err.state = 0 → d.val ≤ 33 → (26 ≤ d.val → s.work.graph = none) → s.domOff d ≠ down → ∃ u, exec i s = .next u ∧
      u.pwr.request = some (d.val, down, force, (s.at_ t).now) ∧ u.pwr.off = s.pwr.off) := by
  rw [h.exec]
  refine ⟨fun hp => ?_, fun hp hbad => ⟨_, rfl, ?_⟩, fun hp he hd hg ho => ⟨_, rfl, ?_⟩, fun hp he hd hg ho => ⟨_, rfl, ?_⟩⟩
  · rw [State.domainGo_pending (s := s.at_ t) hp]
  · rw [State.domainGo_dropped (s := s.at_ t) hp _ _ _ hbad]
    exact ⟨hp, rfl, rfl⟩
  · rw [State.domainGo_requested (s := s.at_ t) hp ⟨he, hd, hg⟩, if_pos (show (s.at_ t).domOff d.val = down from ho), State.endRequest_pwr]
    exact ⟨rfl, rfl, rfl⟩
  · rw [State.domainGo_requested (s := s.at_ t) hp ⟨he, hd, hg⟩, if_neg (show (s.at_ t).domOff d.val ≠ down from ho)]
    exact ⟨rfl, rfl⟩

theorem State.domainDown_ends (s : State) (d : Nat) :
    (s.domainDown d).domOff d = true ∧ (s.domainDown d).pwr.request = none ∧ (s.domainDown d).pwr.result = 0 ∧
      ∀ x, x ≠ d → (s.domainDown d).domOff x = s.domOff x := by
  simp only [State.domOff, State.domainDown_pwr, bitOf_withBit_same, true_and]
  exact fun x hx => bitOf_withBit_ne _ hx

theorem domainDrain_answers {s : State} {d at0 : Nat} {force : Bool} (t : Nat) (h : s.pwr.request = some (d, true, force, at0)) :
    exec (.domainDrainComplete t) s = .next (if (s.at_ t).domainBusy d then s.at_ t else (s.at_ t).domainDown d) := by
  show execDomainDrainComplete t s = _
  rw [execDomainDrainComplete]
  simp only [State.at_pwr, h]

theorem domainForce_answers {s : State} {d at0 : Nat} {force : Bool} (t : Nat) (h : s.pwr.request = some (d, true, force, at0)) :
    exec (.domainForceTimeout t) s = .next (
      if (s.at_ t).now < at0 + 50000 || !(s.at_ t).domainBusy d then s.at_ t
      else if force then ((s.at_ t).cutRanges d).foldl State.undefine
        ((((List.range 64).foldl (fun t c => t.cutTransfer c d) (s.at_ t)).markForced d).domainDown d)
      else ((s.at_ t).endRequest 1).endWaiters d false) := by
  show execDomainForceTimeout t s = _
  rw [execDomainForceTimeout]
  simp only [State.at_pwr, h]

theorem domainDown_settles (s : State) (t d at0 : Nat) (force : Bool) (h : s.pwr.request = some (d, true, force, at0)) :
    ((s.at_ t).domainBusy d = true → exec (.domainDrainComplete t) s = .next (s.at_ t)) ∧
    ((s.at_ t).domainBusy d = false → ∃ u, exec (.domainDrainComplete t) s = .next u ∧ u.domOff d = true ∧ u.pwr.request = none ∧ u.pwr.result = 0 ∧
      (d < 16 → u.clusterIn d = false ∧ u.cstore d = [] ∧ u.disp d = {}) ∧ ∀ x, x ≠ d → u.domOff x = s.domOff x) ∧
    ((s.at_ t).now < at0 + 50000 ∨ (s.at_ t).domainBusy d = false → exec (.domainForceTimeout t) s = .next (s.at_ t)) ∧
    (at0 + 50000 ≤ (s.at_ t).now → (s.at_ t).domainBusy d = true → force = false → ∃ u, exec (.domainForceTimeout t) s = .next u ∧ u.pwr.request = none ∧
      u.pwr.result = 1 ∧ u.pwr.off = s.pwr.off) ∧
    (at0 + 50000 ≤ (s.at_ t).now → (s.at_ t).domainBusy d = true → force = true → ∃ u, exec (.domainForceTimeout t) s = .next u ∧ u.domOff d = true ∧
      u.pwr.request = none ∧ u.pwr.result = 0) := by
  rw [domainDrain_answers t h, domainForce_answers t h]
  have hgo : at0 + 50000 ≤ (s.at_ t).now → (s.at_ t).domainBusy d = true → ¬ (decide ((s.at_ t).now < at0 + 50000) || !(s.at_ t).domainBusy d) = true := by
    intro hw hb
    rw [hb, Bool.not_true, Bool.or_false, decide_eq_true_eq]
    exact Nat.not_lt.mpr hw
  refine ⟨fun hb => by rw [if_pos hb], fun hb => ⟨_, by rw [if_neg (by simp [hb])], ?_⟩, fun hw => by rw [if_pos (by simpa using hw)],
    fun hw hb hf => ⟨_, by rw [if_neg (hgo hw hb), if_neg (by simp [hf])], by simp⟩,
    fun hw hb hf => ⟨_, by rw [if_neg (hgo hw hb), if_pos hf], ?_⟩⟩
  · obtain ⟨hoff, hreq, hres, hrest⟩ := (s.at_ t).domainDown_ends d
    exact ⟨hoff, hreq, hres, (s.at_ t).domainDown_cluster, hrest⟩
  · obtain ⟨hoff, hreq, hres, -⟩ :=
      (((List.range 64).foldl (fun t c => t.cutTransfer c d) (s.at_ t)).markForced d).domainDown_ends d
    rw [State.domOff, foldl_pwr State.undefine_pwr]
    exact ⟨hoff, hreq, hres⟩

/-- A unit that failed the self-test of its domain is recorded and taken out of service (R517, R533). -/
def State.unitLost (s : State) (x : Nat × Nat) : State :=
  { s.bootRemoval x.1 x.2 with
    fit := fitWithout (s.bootRemoval x.1 x.2).fit x.1 x.2
    err := { (s.bootRemoval x.1 x.2).err with
      removed := if (s.bootRemoval x.1 x.2).err.removed.contains x then (s.bootRemoval x.1 x.2).err.removed
        else (s.bootRemoval x.1 x.2).err.removed ++ [x] } }

/-- The state in which the units of a domain that comes up have been judged. -/
def State.domainTested (s : State) (d : Nat) (bad : List (Nat × Nat)) : State :=
  (bad.filter fun x => domainUnit d x.1 x.2).foldl State.unitLost (s.modPwr fun p => { p with off := withBit p.off d false })

theorem State.domainTested_pwr (s : State) (d : Nat) (bad : List (Nat × Nat)) :
    (s.domainTested d bad).pwr = { s.pwr with off := withBit s.pwr.off d false } :=
  (foldl_pwr (f := State.unitLost) (fun t x => t.bootRemoval_pwr x.1 x.2) _ _).trans (State.modPwr_pwr s _)

theorem domainUp_exec {s : State} {d at0 : Nat} {force : Bool} (t : Nat) (bad : List (Nat × Nat)) (h : s.pwr.request = some (d, false, force, at0)) :
    exec (.domainPowerUpComplete bad t) s = .next ((if d == 24 || d == 25 then
        { (s.at_ t).domainTested d bad with present := { ((s.at_ t).domainTested d bad).present with
            rolog := withPort ((s.at_ t).domainTested d bad).present.rolog ((s.at_ t).domainTested d bad).fit.rolog (d - 24) 8 } }
      else (s.at_ t).domainTested d bad).refitted.endRequest 0) := by
  show execDomainPowerUpComplete bad t s = _
  rw [execDomainPowerUpComplete]
  simp only [State.at_pwr, h]
  rfl

theorem domainUp_answers (s : State) (t d at0 : Nat) (force : Bool) (bad : List (Nat × Nat)) (h : s.pwr.request = some (d, false, force, at0)) :
    ∃ u, exec (.domainPowerUpComplete bad t) s = .next u ∧ u.domOff d = false ∧ u.pwr.request = none ∧ u.pwr.result = 0 ∧
      ∀ x, x ≠ d → u.domOff x = s.domOff x := by
  refine ⟨_, domainUp_exec t bad h, ?_⟩
  simp only [State.domOff, State.endRequest_pwr, State.refitted_pwr, apply_ite State.pwr, ite_self, State.domainTested_pwr, State.at_pwr,
    bitOf_withBit_clear, true_and]
  exact fun x hx => bitOf_withBit_ne _ hx

/-! ### Input power and the thermal stop (R510, R512, R513, R519) -/

/-- A cold boot that begins is a power loss for everything that ColdCleared names, whatever then stands of the power state. -/
theorem State.coldClear_cleared (s : State) (cause : Nat) (p : Pwr) : ColdCleared s { s.coldClear cause with pwr := p } cause :=
  ⟨rfl, rfl, rfl, rfl, rfl, rfl, rfl, rfl, rfl, rfl, rfl, rfl, rfl, rfl⟩

theorem State.powerStop_cleared (s : State) : ColdCleared s s.powerStop 0 := s.coldClear_cleared 0 _

/-- Of the state before, ColdCleared names host memory, the errors and the queue alone. -/
theorem ColdCleared.of_outside {s t u : State} {cause : Nat} (h : ColdCleared t u cause) (hbus : t.mem.bus = s.mem.bus) (herr : t.err = s.err)
    (hqueue : t.pending = s.pending) : ColdCleared s u cause := by
  unfold ColdCleared at *
  rwa [hbus, herr, hqueue] at h

theorem powerInput_answers (s : State) (low t : Nat) :
    (s.pwr.running = true ∨ s.pwr.starting = true ∨ (s.pwr.latched = true ∧ low < 1000000000) → exec (.powerInputStart low t) s = .next (s.at_ t)) ∧
    (s.pwr.running = false → s.pwr.starting = false → (s.pwr.latched = true → 1000000000 ≤ low) → ∃ u, exec (.powerInputStart low t) s = .next u ∧
      ColdCleared (s.at_ t) u 0 ∧ u.pwr.starting = true ∧ u.pwr.running = false) ∧
    (s.pwr.starting = true → ∃ u, exec (.railsInTolerance t) s = .next u ∧ u.pwr.running = true ∧ u.pwr.good = true ∧ u.pwr.starting = false) ∧
    (s.pwr.starting = false → exec (.railsInTolerance t) s = .next (s.at_ t)) := by
  refine ⟨fun h => congrArg Host.Outcome.next (if_pos ?_), fun hrun hstart hlow => ⟨_, congrArg Host.Outcome.next (if_neg ?_), ?_, rfl, rfl⟩,
    fun h => ⟨_, congrArg Host.Outcome.next (if_pos h), rfl, rfl, rfl⟩, fun h => congrArg Host.Outcome.next (if_neg ?_)⟩
  · simpa [or_assoc] using h
  · simpa [hrun, hstart] using hlow
  · exact (s.at_ t).coldClear_cleared 0 _
  · exact ne_true_of_eq_false h

theorem voltageFault_answers (s : State) (mv held t : Nat) :
    (s.pwr.running = true → (mv < 44000 ∧ 100000 ≤ held) ∨ (62000 < mv ∧ 1000 ≤ held) → ∃ u, exec (.inputVoltageFault mv held t) s = .next u ∧
      ColdCleared (s.at_ t) u 0 ∧ u.pwr.running = false) ∧
    (s.pwr.running = false ∨ ¬ ((mv < 44000 ∧ 100000 ≤ held) ∨ (62000 < mv ∧ 1000 ≤ held)) →
      exec (.inputVoltageFault mv held t) s = .next (s.at_ t)) := by
  refine ⟨fun hrun hbad => ⟨_, congrArg Host.Outcome.next (if_pos ?_), (s.at_ t).powerStop_cleared, rfl⟩,
    fun h => congrArg Host.Outcome.next (if_neg ?_)⟩
  · simpa [hrun] using hbad
  · simp only [State.at_pwr, Bool.and_eq_true, Bool.or_eq_true, decide_eq_true_eq]
    rintro ⟨hrun, hbad⟩
    obtain hstop | hgood := h
    · exact absurd hrun (ne_true_of_eq_false hstop)
    · exact hgood hbad

theorem voltageWarn_answers (s : State) (mv : Nat) :
    (s.pwr.running = true → (44000 ≤ mv ∧ mv < 48000) ∨ (60000 < mv ∧ mv ≤ 62000) → ∃ u, exec (.inputVoltageWarn mv) s = .next u ∧
      u.pwr = { s.pwr with vinWarn := true } ∧ Posted s u 0x614) ∧
    (s.pwr.running = false ∨ ¬ ((44000 ≤ mv ∧ mv < 48000) ∨ (60000 < mv ∧ mv ≤ 62000)) → exec (.inputVoltageWarn mv) s = .next s) := by
  refine ⟨fun hrun hwarn => ⟨_, congrArg Host.Outcome.next (if_pos ?_), by simp, Posted.of_evc (State.postEvent_posted _ _) rfl⟩,
    fun h => congrArg Host.Outcome.next (if_neg ?_)⟩
  · simpa [hrun, inWarnBand] using hwarn
  · simp only [inWarnBand, Bool.and_eq_true, Bool.or_eq_true, decide_eq_true_eq]
    rintro ⟨hrun, hwarn⟩
    obtain hstop | hgood := h
    · exact absurd hrun (ne_true_of_eq_false hstop)
    · exact hgood hwarn

theorem thermalStop_answers (s : State) (c : Fin 3) (temp t : Nat) :
    (s.pwr.running = true → (if c = 2 then 125 else 105) ≤ temp → ∃ u, exec (.thermalStop c temp t) s = .next u ∧ ColdCleared (s.at_ t) u 0 ∧
      u.pwr.running = false ∧ u.pwr.latched = true ∧ u.mgt.thermal = some (c.val, temp)) ∧
    (s.pwr.running = false ∨ temp < (if c = 2 then 125 else 105) → exec (.thermalStop c temp t) s = .next (s.at_ t)) := by
  have hc : (c.val == 2) = decide (c = 2) := by revert c; decide
  have hexec : exec (.thermalStop c temp t) s = .next (if (s.pwr.running && decide ((if c = 2 then 125 else 105) ≤ temp)) = true then
      (((s.at_ t).postEvent 0x613).modMgt fun m => { m with thermal := some (c.val, temp) }).powerStop.modPwr fun p => { p with latched := true }
      else s.at_ t) := by
    show execThermalStop c temp t s = _
    simp [execThermalStop, hc]
  rw [hexec]
  refine ⟨fun hrun hhot => ⟨_, by rw [if_pos (by simpa [hrun] using hhot)], ?_, rfl, rfl, rfl⟩, fun h => by rw [if_neg (by simp; grind)]⟩
  have hstop := (((s.at_ t).postEvent 0x613).modMgt fun m => { m with thermal := some (c.val, temp) }).powerStop_cleared
  exact ColdCleared.of_outside hstop (congrArg (·.2.1) (State.postEvent_data _ _)) (State.postEvent_err _ _) (State.postEvent_pending _ _)

/-! ### Samples, clock and cap (R518, R520, R521) -/

theorem Pwr.nextCap_bounds (p : Pwr) (now : Nat) (over_ : Bool) (h : p.capStep ≤ 12) :
    p.nextCap now over_ ≤ 12 ∧ p.nextCap now over_ ≤ p.capStep + 1 ∧ p.capStep ≤ p.nextCap now over_ + 1 := by
  unfold Pwr.nextCap
  (repeat' split) <;> omega

theorem Pwr.nextTherm_hot {p : Pwr} (h : 95 ≤ p.tempDie) (now : Nat) : p.nextTherm now = min 12 (p.thermStep + 1) := if_pos (by simp [h])

theorem Pwr.decide_waits {p : Pwr} {now : Nat} (h0 : p.stepAt ≠ 0) (h : now < p.stepAt + 50000) (over_ : Bool) : p.decide_ now over_ = p :=
  if_pos (by simp [h0, h])

/-- A decision moves the two demands to their next steps, or leaves both. -/
theorem Pwr.decide_steps (p : Pwr) (now : Nat) (over_ : Bool) :
    (p.decide_ now over_).capStep = p.capStep ∨ (p.decide_ now over_).capStep = p.nextCap now over_ := by
  unfold Pwr.decide_
  dsimp only
  (repeat' split) <;> simp

theorem Pwr.decide_therm {p : Pwr} (h0 : p.decided = none) (h : p.stepAt = 0) (now : Nat) (over_ : Bool) :
    (p.decide_ now over_).thermStep = p.nextTherm now := by
  unfold Pwr.decide_
  rw [if_neg (by simp [h0, h])]
  dsimp only
  split
  · rename_i hsame
    simp only [Bool.and_eq_true, beq_iff_eq] at hsame
    exact hsame.2.symm
  · rfl

/-- What a decision leaves of the power state. -/
theorem Pwr.decide_rest (p : Pwr) (now : Nat) (over_ : Bool) :
    (p.decide_ now over_).mv10 = p.mv10 ∧ (p.decide_ now over_).tempDie = p.tempDie ∧ (p.decide_ now over_).tempHbm = p.tempHbm ∧
      (p.decide_ now over_).step = p.step ∧ (p.decide_ now over_).cap = p.cap := by
  unfold Pwr.decide_
  dsimp only
  (repeat' split) <;> simp

/-- A running module's power state after a sample. -/
def State.sampled (s : State) (mv mw : Nat) (die hbm : Fin 256) (proj : Bool) : Pwr :=
  ((s.pwr.sample s.now mv mw die.val hbm.val).decide_ s.now proj).gate s.now mw

theorem powerSample_pwr {s : State} (mv mw : Nat) (die hbm : Fin 256) (proj : Bool) (t : Nat) (hrun : s.pwr.running = true) :
    ∃ u, exec (.powerSample mv mw die hbm proj t) s = .next u ∧
      ((u.pwr = (s.at_ t).sampled mv mw die hbm proj ∧ ¬ (95 ≤ die.val ∧ s.pwr.tempDie < 95 ∧ s.pwr.tempHbm < 95)) ∨
        u.pwr = { (s.at_ t).sampled mv mw die hbm proj with thermSeen := true }) := by
  refine ⟨_, congrArg Host.Outcome.next (if_neg (by simp [hrun])), ?_⟩
  dsimp only
  split
  · exact .inr (by simp [State.sampled])
  · rename_i hquiet
    refine .inl ⟨by simp [State.sampled], fun ⟨hdie, hd, hh⟩ => hquiet ?_⟩
    simp [hdie, Nat.not_le.mpr hd, Nat.not_le.mpr hh]

theorem powerSample_answers (s : State) (mv mw : Nat) (die hbm : Fin 256) (proj : Bool) (t : Nat) :
    (s.pwr.running = false → exec (.powerSample mv mw die hbm proj t) s = .next (s.at_ t)) ∧
    (s.pwr.running = true → ∃ u, exec (.powerSample mv mw die hbm proj t) s = .next u ∧ u.pwr.mv10 = mv / 10 ∧ u.pwr.tempDie = die.val ∧ u.pwr.tempHbm = hbm.val ∧
      u.pwr.step = s.pwr.step ∧ u.pwr.cap = s.pwr.cap ∧ (s.pwr.capStep ≤ 12 → u.pwr.capStep ≤ 12 ∧ u.pwr.capStep ≤ s.pwr.capStep + 1 ∧ s.pwr.capStep ≤ u.pwr.capStep + 1) ∧
      (s.pwr.stepAt ≠ 0 → (s.at_ t).now < s.pwr.stepAt + 50000 → u.pwr.capStep = s.pwr.capStep ∧ u.pwr.thermStep = s.pwr.thermStep ∧ u.pwr.decided = s.pwr.decided) ∧
      (95 ≤ die.val → s.pwr.decided = none → s.pwr.stepAt = 0 → u.pwr.thermStep = min 12 (s.pwr.thermStep + 1)) ∧
      (800000 < mw → u.pwr.gating = true) ∧ (95 ≤ die.val → s.pwr.tempDie < 95 → s.pwr.tempHbm < 95 → u.pwr.thermSeen = true)) := by
  refine ⟨fun hstop => congrArg Host.Outcome.next (if_pos (by simp [hstop])), fun hrun => ?_⟩
  obtain ⟨u, hexec, hu⟩ := powerSample_pwr mv mw die hbm proj t hrun
  refine ⟨u, hexec, ?_⟩
  obtain ⟨seen, hpwr⟩ : ∃ b, u.pwr = { (s.at_ t).sampled mv mw die hbm proj with thermSeen := b } := by
    obtain ⟨h, -⟩ | h := hu <;> exact ⟨_, h⟩
  have hseen : 95 ≤ die.val → s.pwr.tempDie < 95 → s.pwr.tempHbm < 95 → u.pwr.thermSeen = true := by
    intro hdie hd hh
    obtain ⟨-, hno⟩ | h := hu
    · exact absurd ⟨hdie, hd, hh⟩ hno
    · rw [h]
  let p := s.pwr.sample (s.at_ t).now mv mw die.val hbm.val
  obtain ⟨hmv, hdie, hhbm, hstep, hcap⟩ := p.decide_rest (s.at_ t).now proj
  have hcapStep : u.pwr.capStep = (p.decide_ (s.at_ t).now proj).capStep := by rw [hpwr]; rfl
  have htherm : u.pwr.thermStep = (p.decide_ (s.at_ t).now proj).thermStep := by rw [hpwr]; rfl
  have hdecided : u.pwr.decided = (p.decide_ (s.at_ t).now proj).decided := by rw [hpwr]; rfl
  refine ⟨?_, ?_, ?_, ?_, ?_, fun h12 => ?_, fun h0 hnow => ?_, fun hhot hnone h0 => ?_, fun hmw => ?_, hseen⟩
  · rw [hpwr]; exact hmv
  · rw [hpwr]; exact hdie
  · rw [hpwr]; exact hhbm
  · rw [hpwr]; exact hstep
  · rw [hpwr]; exact hcap
  · have hb := p.nextCap_bounds (s.at_ t).now proj h12
    obtain h | h := p.decide_steps (s.at_ t).now proj
    · have : p.capStep = s.pwr.capStep := rfl
      omega
    · have : p.capStep = s.pwr.capStep := rfl
      omega
  · rw [hcapStep, htherm, hdecided, Pwr.decide_waits (p := p) h0 hnow proj]
    exact ⟨rfl, rfl, rfl⟩
  · rw [htherm, Pwr.decide_therm (p := p) hnone h0, Pwr.nextTherm_hot (p := p) hhot]
    rfl
  · rw [hpwr]
    simp [State.sampled, Pwr.gate, hmw]

@[simp] theorem State.floorCheck_pwr (s : State) :
    s.floorCheck.pwr = { s.pwr with belowFloor := decide (clockMhz s.pwr.step < s.floorMhz) } := by
  rw [State.floorCheck]
  dsimp only
  split <;> simp

theorem clockStep_answers (s : State) (t : Nat) :
    (s.pwr.decided = none → exec (.clockStep t) s = .next (s.at_ t)) ∧
    (s.isFenced 20 0 = true → exec (.clockStep t) s = .next (s.at_ t)) ∧
    ∀ n, s.pwr.decided = some n → s.isFenced 20 0 = false → ∃ u, exec (.clockStep t) s = .next u ∧ u.pwr.step = min 12 n ∧ u.pwr.decided = none ∧
      u.pwr.steps = sat32 s.pwr.steps 1 ∧ (u.pwr.belowFloor = true ↔ 2400 - 100 * min 12 n < s.floorMhz) := by
  have hexec : exec (.clockStep t) s = .next (match s.pwr.decided with
      | none => s.at_ t
      | some n => if s.isFenced 20 0 then s.at_ t
          else (((s.at_ t).modPwr fun p => { p with step := min 12 n, decided := none, steps := sat32 p.steps 1 }).postEvent 0x610).floorCheck) := rfl
  rw [hexec]
  refine ⟨fun h => by rw [h], fun h => ?_, fun n hn hf => ⟨_, by rw [hn], ?_⟩⟩
  · cases s.pwr.decided <;> simp [h]
  · simp [hf, State.floorMhz, clockMhz]

theorem capWrite_answers (s : State) (w : Fin 1024) (t : Nat) : ∃ u, exec (.pwrCapWrite w t) s = .next u ∧
    u.pwr = { s.pwr with cap := w.val, capAt := max s.now t, aboveAt := none, belowAt := none } ∧ u.pwr.capW = max 300 (min 720 w.val) :=
  ⟨_, rfl, rfl, rfl⟩

/-- Settles O54, a clause for each command: requests, their end, input power, samples, the clock and the cap. -/
theorem powerDomainsClockAndInput : Obligations.PowerDomainsClockAndInput :=
  ⟨fun s _ _ _ _ _ _ h => domainRequest_answers h s, domainDown_settles, domainUp_answers, powerInput_answers, voltageFault_answers, voltageWarn_answers,
    powerSample_answers, clockStep_answers, thermalStop_answers, capWrite_answers⟩

end Sys2Proof.Machine
end

section
/-! Proofs about chapter 13: the DMA channels (R380 to R401) -/

namespace Sys2Proof.Machine

/-! ### What a post leaves of the memories and of the channels -/

/-- A channel without its trigger counters: what no post changes. -/
def Chan.core (x : Chan) : Chan := { x with trigCount := 0, trigLost := 0 }

/-- A channel that agrees with another but for its trigger counters. -/
theorem Chan.eq_of_core {x y : Chan} (h : x.core = y.core) : x = { y with trigCount := x.trigCount, trigLost := x.trigLost } := by
  cases x
  cases y
  simp only [Chan.core, Chan.mk.injEq] at h ⊢
  tauto

@[simp] theorem Chan.core_feed (src : Nat) (x : Chan) : (x.feed src).core = x.core := by
  unfold Chan.feed
  (repeat' split) <;> rfl

/-- The memories and the channels without their trigger counters. -/
def Mem.fed (m : Mem) : Mem × (Nat → Chan) := ({ m with chans := [] }, fun c => (tget {} m.chans c).core)

theorem Mem.fed_ecc {m n : Mem} (h : m.fed = n.fed) : m.ecc = n.ecc := congrArg (·.1.ecc) h
theorem Mem.fed_hbmc {m n : Mem} (h : m.fed = n.fed) : m.hbmc = n.hbmc := congrArg (·.1.hbmc) h

theorem State.core_chan {s t : State} (h : t.mem.fed = s.mem.fed) (c : Nat) : (t.chan c).core = (s.chan c).core := congrFun (congrArg Prod.snd h) c

theorem feedTriggers_core (src : Nat) (cs : Tab Chan) (c : Nat) : (tget {} (feedTriggers src cs) c).core = (tget {} cs c).core := by
  refine List.foldlRecOn (motive := fun t => (tget ({} : Chan) t c).core = (tget {} cs c).core) _ _ rfl fun t ht k _ => ?_
  split
  · by_cases h : c = k
    · subst h
      rw [tget_tmod_same, Chan.core_feed, ht]
    · rw [tget_tmod_ne _ _ _ h, ht]
  · exact ht

@[simp] theorem State.postEvent_fed (s : State) (n : Nat) : (s.postEvent n).mem.fed = s.mem.fed := by
  have hmem : (s.postEvent n).mem = { s.mem with chans := feedTriggers n s.mem.chans } := by
    rw [State.postEvent]
    dsimp only
    split <;> simp
  simp only [hmem, Mem.fed, feedTriggers_core]

@[simp] theorem State.setPair_fed (s : State) (p : PairState) : (s.setPair p).mem.fed = s.mem.fed := by
  rw [State.setPair]
  split <;> simp
@[simp] theorem State.pairFence_fed (s : State) (r : Nat) : (s.pairFence r).mem.fed = s.mem.fed := by simp [State.pairFence]
@[simp] theorem State.pairLeave_fed (s : State) : s.pairLeave.mem.fed = s.mem.fed := by simp [State.pairLeave]
@[simp] theorem State.handedOver_fed (s : State) : s.handedOver.mem.fed = s.mem.fed := by
  rw [State.handedOver]
  split <;> simp
@[simp] theorem State.pushRecord_fed (s : State) (r : ErrRec) : (s.pushRecord r).mem.fed = s.mem.fed := by
  rw [State.pushRecord]
  split <;> simp
@[simp] theorem State.enterFailed_fed (s : State) (n : Nat) : (s.enterFailed n).mem.fed = s.mem.fed := by
  rw [State.enterFailed]
  dsimp only
  (repeat' split) <;> simp
@[simp] theorem State.detectError_fed (s : State) (kind index cause detail : Nat) (injected : Bool) :
    (s.detectError kind index cause detail injected).mem.fed = s.mem.fed := by
  rw [State.detectError]
  dsimp only
  (repeat' split) <;> simp
@[simp] theorem State.cplTimeout_fed (s : State) : s.cplTimeout.mem.fed = s.mem.fed := by simp [State.cplTimeout]
@[simp] theorem State.pulse_mem (s : State) (k n b flag : Nat) : (s.pulse k n b flag).mem = s.mem := by
  rw [State.pulse]
  split <;> rfl
@[simp] theorem State.dmaPulse_mem (s : State) (p : Nat) : (s.dmaPulse p).mem = s.mem :=
  List.foldlRecOn (motive := fun t : State => t.mem = s.mem) _ _ rfl fun t ht k _ => (t.pulse_mem k _ _ _).trans ht

/-! ### What reads and writes of memory leave of the channels -/

@[simp] theorem State.countHbm_chan (s : State) (wr : Bool) (a n c : Nat) : (s.countHbm wr a n).chan c = s.chan c :=
  List.foldlRecOn (motive := fun t : State => t.chan c = s.chan c) _ _ rfl fun _ ht _ _ => ht

theorem State.eccWords_core (s : State) (p : Nat → Bool) (c : Nat) : ((s.eccWords p).2.chan c).core = (s.chan c).core := by
  refine List.foldlRecOn (motive := fun r : Bool × State => (r.2.chan c).core = (s.chan c).core) _ _ rfl fun r hr w _ => ?_
  dsimp only
  split
  · exact hr
  · exact (State.core_chan (State.detectError_fed _ _ _ _ _ _) c).trans hr
  · exact hr

theorem State.hbmWrite_core (s : State) (a : Nat) (bs : Bytes) (c : Nat) : ((s.hbmWrite a bs).chan c).core = (s.chan c).core := by
  rw [State.hbmWrite, State.countHbm_chan]
  exact s.eccWords_core _ c

theorem State.devWrite_core (s : State) (a : Nat) (bs : Bytes) (c : Nat) : ((s.devWrite a bs).chan c).core = (s.chan c).core := by
  unfold State.devWrite State.putTarget
  split
  · split
    · exact s.hbmWrite_core _ _ c
    · rfl
    · rfl
  · rfl

theorem State.devRead_core (s : State) (a n c : Nat) : ((s.devRead a n).2.2.chan c).core = (s.chan c).core := by
  unfold State.devRead
  split
  · dsimp only
    rw [State.countHbm_chan]
    exact s.eccWords_core _ c
  all_goals rfl

@[simp] theorem State.busWrite_chan (s : State) (a : Nat) (bs : Bytes) (c : Nat) : (s.busWrite a bs).chan c = s.chan c := by
  rw [State.busWrite]
  split <;> rfl

/-! ### Channel commands (R381, R386 to R389, R400, R401) -/

theorem State.chan_modChan_ne (s : State) {c i : Nat} (f : Chan → Chan) (h : i ≠ c) : (s.modChan c f).chan i = s.chan i := tget_tmod_ne _ _ _ h

theorem hostOwned_of_le {c : Nat} (h : 56 ≤ c) : hostOwned c = false := decide_eq_false (Nat.not_lt.mpr h)

theorem reserved_rejects (s : State) (c : Fin 64) (m : Master) (h : 56 ≤ c.val) :
    exec (.chArm c m) s = .next (s.reject (0x80000 + c.val * 0x400 + 0x10) m.val) ∧ exec (.chRepoke c m) s = .next (s.reject (0x80000 + c.val * 0x400 + 0x14) m.val) ∧
    exec (.chAbort c m) s = .next (s.reject (0x80000 + c.val * 0x400) m.val) ∧ exec (.chResume c m) s = .next (s.reject (0x80000 + c.val * 0x400) m.val) ∧
    exec (.chResumeSkip c m) s = .next (s.reject (0x80000 + c.val * 0x400) m.val) := by
  have hnot : (!hostOwned c.val) = true := by rw [hostOwned_of_le h]; rfl
  exact ⟨congrArg Host.Outcome.next (if_pos hnot), congrArg Host.Outcome.next (if_pos hnot), congrArg Host.Outcome.next (if_pos hnot),
    congrArg Host.Outcome.next (if_pos hnot), congrArg Host.Outcome.next (if_pos hnot)⟩

/-- CH_ARM on a channel. -/
def Chan.arm (x : Chan) : Chan :=
  if x.armed.isSome then { x with armOverrun := true, armOverruns := sat32 x.armOverruns 1 }
  else match x.state with
    | .idle => x.fetch x.head.val.toNat
    | .parked => x.fetch x.head.val.toNat
    | _ => { x with armed := some x.head.val.toNat }

/-- CH_REPOKE on a channel. -/
def Chan.repoked (x : Chan) : Chan :=
  match x.state with
  | .idle => x.reread x.tail
  | .parked => x.reread x.tail
  | .fetch => if x.rereading then x else { x with repoke := true }
  | _ => { x with repoke := true }

/-- CH_ABORT on a channel. -/
def Chan.abort (x : Chan) : Chan :=
  match x.job, x.state with
  | some j, .run => { x with aborting := true, armed := none, job := some { j with failed := some (j.failed.getD stCancelled) } }
  | some j, .waitTrig => { x with aborting := true, armed := none, state := .run, job := some { j with failed := some (j.failed.getD stCancelled) } }
  | _, _ => x.idled

/-- CH_RESUME on a channel. -/
def Chan.resume (x : Chan) : Chan :=
  match x.state, x.job with
  | .halted, some j => { x with state := .run, job := some (newJob j.desc) }
  | .halted, none => if x.rereading then x.reread x.cur else x.fetch x.cur
  | _, _ => x

/-- CH_RESUME_SKIP on a channel. -/
def Chan.resumeSkip (x : Chan) : Chan :=
  if x.state == .halted then { x.reread x.cur with crcKept := (x.job.map x.keepCrc).getD x.crcKept } else x

section
variable (s : State) {c : Fin 64} (m : Master) (h : c.val < 56)
include h

theorem hostOwned_not : ¬ (!hostOwned c.val) = true := by rw [hostOwned_of_lt h]; decide

theorem exec_chArm : exec (.chArm c m) s = .next (s.modChan c.val Chan.arm) := congrArg Host.Outcome.next (if_neg (hostOwned_not h))
theorem exec_chRepoke : exec (.chRepoke c m) s = .next (s.modChan c.val Chan.repoked) := congrArg Host.Outcome.next (if_neg (hostOwned_not h))
theorem exec_chAbort : exec (.chAbort c m) s = .next (s.modChan c.val Chan.abort) := congrArg Host.Outcome.next (if_neg (hostOwned_not h))
theorem exec_chResume : exec (.chResume c m) s = .next (s.modChan c.val Chan.resume) := congrArg Host.Outcome.next (if_neg (hostOwned_not h))
theorem exec_chResumeSkip : exec (.chResumeSkip c m) s = .next (s.modChan c.val Chan.resumeSkip) := congrArg Host.Outcome.next (if_neg (hostOwned_not h))
end

theorem Chan.arm_full {x : Chan} (h : x.armed.isSome = true) : x.arm = { x with armOverrun := true, armOverruns := sat32 x.armOverruns 1 } := if_pos h

theorem Chan.arm_rests {x : Chan} (h : x.armed = none) (hs : x.state = .idle ∨ x.state = .parked) : x.arm = x.fetch x.head.val.toNat := by
  obtain hs | hs := hs <;> simp [Chan.arm, h, hs]

theorem Chan.arm_busy {x : Chan} (h : x.armed = none) (hi : x.state ≠ .idle) (hp : x.state ≠ .parked) :
    x.arm = { x with armed := some x.head.val.toNat } := by
  unfold Chan.arm
  rw [if_neg (by simp [h])]
  split
  · contradiction
  · contradiction
  · rfl

theorem Chan.repoked_rests {x : Chan} (hs : x.state = .idle ∨ x.state = .parked) : x.repoked = x.reread x.tail := by
  obtain hs | hs := hs <;> simp [Chan.repoked, hs]

theorem Chan.repoked_rereads {x : Chan} (hs : x.state = .fetch) (hr : x.rereading = true) : x.repoked = x := by simp [Chan.repoked, hs, hr]

theorem Chan.repoked_busy {x : Chan} (hi : x.state ≠ .idle) (hp : x.state ≠ .parked) (hf : x.state = .fetch → x.rereading = false) :
    x.repoked = { x with repoke := true } := by
  unfold Chan.repoked
  split
  · contradiction
  · contradiction
  · rename_i hs
    rw [hf hs]
    rfl
  · rfl

theorem Chan.abort_armed (x : Chan) : x.abort.armed = none := by
  unfold Chan.abort
  split <;> rfl

theorem Chan.abort_idles {x : Chan} (h : x.job = none) : x.abort = x.idled := by simp [Chan.abort, h]

theorem Chan.abort_cancels {x : Chan} {j : Job} (h : x.job = some j) (hj : j.failed = none) (hs : x.state = .run) :
    x.abort = { x with aborting := true, armed := none, job := some { j with failed := some 0x02 } } := by
  simp [Chan.abort, h, hj, hs, stCancelled]

theorem Chan.resume_runs {x : Chan} (h : x.state ≠ .halted) : x.resume = x := by
  unfold Chan.resume
  split
  · contradiction
  · contradiction
  · rfl

theorem Chan.resume_job {x : Chan} {j : Job} (h : x.state = .halted) (hj : x.job = some j) :
    x.resume = { x with state := .run, job := some (newJob j.desc) } := by simp [Chan.resume, h, hj]

theorem Chan.resume_chain {x : Chan} (h : x.state = .halted) (hj : x.job = none) :
    x.resume = if x.rereading then x.reread x.cur else x.fetch x.cur := by simp [Chan.resume, h, hj]

theorem channelCommands_answer (s : State) (c : Fin 64) (m : Master) (h : c.val < 56) :
    (∃ u, exec (.chArm c m) s = .next u ∧ (∀ i, i ≠ c.val → u.chan i = s.chan i) ∧
      ((s.chan c).armed.isSome = true → u.chan c = { s.chan c with armOverrun := true, armOverruns := sat32 (s.chan c).armOverruns 1 }) ∧
      ((s.chan c).armed = none → (s.chan c).state = .idle ∨ (s.chan c).state = .parked →
        (u.chan c).state = .fetch ∧ (u.chan c).fetching = some (s.chan c).head.val.toNat ∧ (u.chan c).rereading = false) ∧
      ((s.chan c).armed = none → (s.chan c).state ≠ .idle → (s.chan c).state ≠ .parked →
        u.chan c = { s.chan c with armed := some (s.chan c).head.val.toNat })) ∧
    (∃ u, exec (.chRepoke c m) s = .next u ∧
      ((s.chan c).state = .idle ∨ (s.chan c).state = .parked →
        (u.chan c).state = .fetch ∧ (u.chan c).fetching = some (s.chan c).tail ∧ (u.chan c).rereading = true) ∧
      ((s.chan c).state = .fetch → (s.chan c).rereading = true → u.chan c = s.chan c) ∧
      ((s.chan c).state ≠ .idle → (s.chan c).state ≠ .parked → ((s.chan c).state = .fetch → (s.chan c).rereading = false) →
        u.chan c = { s.chan c with repoke := true })) ∧
    (∃ u, exec (.chAbort c m) s = .next u ∧ (u.chan c).armed = none ∧
      ((s.chan c).job = none → (u.chan c).state = .idle ∧ (u.chan c).fetching = none) ∧
      (∀ j, (s.chan c).job = some j → j.failed = none → (s.chan c).state = .run →
        (u.chan c).aborting = true ∧ (u.chan c).job = some { j with failed := some 0x02 })) ∧
    (∃ u, exec (.chResume c m) s = .next u ∧ ((s.chan c).state ≠ .halted → u.chan c = s.chan c) ∧
      (∀ j, (s.chan c).state = .halted → (s.chan c).job = some j → (u.chan c).state = .run ∧ (u.chan c).job = some (newJob j.desc)) ∧
      ((s.chan c).state = .halted → (s.chan c).job = none →
        (u.chan c).state = .fetch ∧ (u.chan c).fetching = some (s.chan c).cur ∧ (u.chan c).rereading = (s.chan c).rereading)) ∧
    (∃ u, exec (.chResumeSkip c m) s = .next u ∧ ((s.chan c).state ≠ .halted → u.chan c = s.chan c) ∧
      ((s.chan c).state = .halted → (u.chan c).state = .fetch ∧ (u.chan c).fetching = some (s.chan c).cur ∧ (u.chan c).rereading = true)) := by
  refine ⟨⟨_, exec_chArm s m h, fun i hi => State.chan_modChan_ne _ _ hi, ?_⟩, ⟨_, exec_chRepoke s m h, ?_⟩, ⟨_, exec_chAbort s m h, ?_⟩,
    ⟨_, exec_chResume s m h, ?_⟩, ⟨_, exec_chResumeSkip s m h, ?_⟩⟩ <;> rw [State.chan_modChan]
  · refine ⟨Chan.arm_full, fun hn hs => ?_, Chan.arm_busy⟩
    rw [Chan.arm_rests hn hs]
    exact ⟨rfl, rfl, rfl⟩
  · refine ⟨fun hs => ?_, Chan.repoked_rereads, Chan.repoked_busy⟩
    rw [Chan.repoked_rests hs]
    exact ⟨rfl, rfl, rfl⟩
  · refine ⟨Chan.abort_armed _, fun hj => ?_, fun j hj hf hs => ?_⟩
    · rw [Chan.abort_idles hj]
      exact ⟨rfl, rfl⟩
    · rw [Chan.abort_cancels hj hf hs]
      exact ⟨rfl, rfl⟩
  · refine ⟨Chan.resume_runs, fun j hs hj => ?_, fun hs hj => ?_⟩
    · rw [Chan.resume_job hs hj]
      exact ⟨rfl, rfl⟩
    · rw [Chan.resume_chain hs hj]
      cases hr : (s.chan c).rereading <;> exact ⟨rfl, rfl, rfl⟩
  · refine ⟨fun hs => if_neg (by simpa using hs), fun hs => ?_⟩
    rw [Chan.resumeSkip, if_pos (by simpa using hs)]
    exact ⟨rfl, rfl, rfl⟩

/-! ### Fetches and rereads (R385 to R388, R399) -/

theorem State.chainRead_core (s : State) (e : BusEnv) (x : Chan) (a n c : Nat) : ((s.chainRead e x a n).2.chan c).core = (s.chan c).core := by
  unfold State.chainRead
  split
  · rfl
  · split
    · rfl
    · exact s.devRead_core a n c

theorem usable_cons (d : Desc) (l : List Desc) :
    ∃ rest, usable (d :: l) = d :: rest ∧ ∀ e, rest.head? = some e → l.head? = some e ∧ d.isEnd = false ∧ d.next = e.addr := by
  cases l with
  | nil => exact ⟨[], rfl, nofun⟩
  | cons e r =>
    by_cases h : (!d.isEnd && d.next == e.addr) = true
    · refine ⟨usable (e :: r), if_pos h, fun y hy => ?_⟩
      obtain ⟨hend, hnext⟩ : d.isEnd = false ∧ d.next = e.addr := by simpa using h
      have hhead : (usable (e :: r)).head? = some e := by
        cases r with
        | nil => rfl
        | cons f r' => rw [usable]; split <;> rfl
      obtain rfl : e = y := by simpa [hhead] using hy
      exact ⟨rfl, hend, hnext⟩
    · exact ⟨[], if_neg h, nofun⟩

theorem usable_prefix (l : List Desc) : usable l <+: l := by
  induction l with
  | nil => exact List.prefix_rfl
  | cons d l ih =>
    cases l with
    | nil => exact List.prefix_rfl
    | cons e r =>
      rw [usable]
      split
      · exact (List.prefix_cons_inj d).mpr ih
      · exact (List.prefix_cons_inj d).mpr List.nil_prefix

/-- The descriptors of a batched read. -/
def descsOf (a : Nat) (b : Bytes) : List Desc := (List.range (b.length / 64)).map fun i => parseDesc (a + 64 * i) ((b.drop (64 * i)).take 64)

/-- A batched read yields its first descriptor, and a second one only where the first's LINK proves it. -/
theorem usable_descsOf (a : Nat) {b : Bytes} (h : 64 ≤ b.length) :
    ∃ rest, usable (descsOf a b) = parseDesc a (b.take 64) :: rest ∧
      ∀ d, rest.head? = some d → d.addr = a + 64 ∧ (parseDesc a (b.take 64)).isEnd = false ∧ (parseDesc a (b.take 64)).next = a + 64 := by
  obtain ⟨k, hk⟩ : ∃ k, b.length / 64 = k + 1 := ⟨b.length / 64 - 1, by omega⟩
  have hds : descsOf a b = parseDesc a (b.take 64) :: (List.range k).map fun i => parseDesc (a + 64 * (i + 1)) ((b.drop (64 * (i + 1))).take 64) := by
    rw [descsOf, hk, List.range_succ_eq_map]
    simp [Function.comp_def]
  obtain ⟨rest, hrest, hhead⟩ := usable_cons (parseDesc a (b.take 64))
    ((List.range k).map fun i => parseDesc (a + 64 * (i + 1)) ((b.drop (64 * (i + 1))).take 64))
  refine ⟨rest, hds ▸ hrest, fun d hd => ?_⟩
  obtain ⟨hl, hend, hnext⟩ := hhead d hd
  have haddr : d.addr = a + 64 := by
    cases k with
    | zero => simp at hl
    | succ k =>
      rw [List.range_succ_eq_map] at hl
      obtain rfl : _ = d := by simpa using hl
      rfl
  exact ⟨haddr, hend, haddr ▸ hnext⟩

theorem State.devRead_length {s : State} {a n : Nat} (h : s.devTarget a n ≠ none) : (s.devRead a n).1.length = n := by
  unfold State.devRead
  split
  · exact length_readBytes _ _ _
  · exact length_readBytes _ _ _
  · exact length_readBytes _ _ _
  · rename_i hnone
    exact absurd hnone h

theorem State.chainRead_length {s : State} {e : BusEnv} {x : Chan} {a n : Nat} {b : Bytes} (h : (s.chainRead e x a n).1 = some b) : b.length = n := by
  unfold State.chainRead at h
  split at h
  · obtain ⟨-, rfl⟩ : _ ∧ readBytes s.mem.bus a n = b := by simpa [State.busRead] using h
    exact length_readBytes _ _ _
  · split at h
    · contradiction
    · rename_i hmap
      obtain ⟨-, rfl⟩ : _ ∧ (s.devRead a n).1 = b := by simpa using h
      exact State.devRead_length fun hnone => hmap (by simp [hnone])

/-- A channel holds what a batched read gave it. -/
def Chan.took (x : Chan) (d : Desc) (rest : List Desc) : Chan :=
  { x with state := .run, fetching := none, job := some (newJob d), cur := d.addr, fetched := rest
           tail := ((d :: rest).getLast?.map fun y => y.addr).getD d.addr }

/-- A channel has reread a LINK. -/
def Chan.relink (x : Chan) (a l : Nat) : Chan := if !bitOf l 0 then x.fetch (l / 64 * 64) else { x with tail := a }.park

section
variable {s : State} {c : Fin 64} {e : BusEnv} {a : Nat}

theorem exec_fetch_held (h : (s.env e).fetchHeld ((s.env e).chan c) = true) :
    exec (.descriptorFetchComplete c e) s = .next (s.env e) ∧ exec (.linkRereadComplete c e) s = .next (s.env e) :=
  ⟨if_pos h, if_pos h⟩

variable (hs : ((s.env e).chan c).state = .fetch) (hf : ((s.env e).chan c).fetching = some a) (h : (s.env e).fetchHeld ((s.env e).chan c) = false)
include hs hf h

theorem exec_reread_none (hr : ((s.env e).chan c).rereading = false) : exec (.linkRereadComplete c e) s = .next (s.env e) := by
  show execLinkRereadComplete c e s = _
  rw [execLinkRereadComplete]
  simp only [h, hs, hf, hr, Bool.false_eq_true, if_false]

theorem exec_fetch_none (hr : ((s.env e).chan c).rereading = true) : exec (.descriptorFetchComplete c e) s = .next (s.env e) := by
  show execDescriptorFetchComplete c e s = _
  rw [execDescriptorFetchComplete]
  simp only [h, hs, hf, hr, Bool.false_eq_true, if_false]

theorem exec_fetch_some (hr : ((s.env e).chan c).rereading = false) {b : Bytes} {d : Desc} {rest : List Desc}
    (hb : ((s.env e).chainRead e ((s.env e).chan c) a (64 * 2 ^ ((s.env e).chan c).cfg.batch)).1 = some b) (hds : usable (descsOf a b) = d :: rest) :
    exec (.descriptorFetchComplete c e) s =
      .next (((s.env e).chainRead e ((s.env e).chan c) a (64 * 2 ^ ((s.env e).chan c).cfg.batch)).2.modChan c fun x => x.took d rest) := by
  show execDescriptorFetchComplete c e s = _
  rw [execDescriptorFetchComplete]
  simp only [h, hs, hf, hr, Bool.false_eq_true, if_false, hb, Option.isSome_some, if_true]
  rw [← descsOf, hds]
  rfl

theorem exec_fetch_fails (hr : ((s.env e).chan c).rereading = false)
    (hb : ((s.env e).chainRead e ((s.env e).chan c) a (64 * 2 ^ ((s.env e).chan c).cfg.batch)).1 = none)
    (hb' : ((s.env e).chainRead e ((s.env e).chan c) a 64).1 = none) :
    exec (.descriptorFetchComplete c e) s =
      .next ((((s.env e).chainRead e ((s.env e).chan c) a 64).2.modChan c fun x => x.fetchFail a).postEvent (0x440 + c)) := by
  show execDescriptorFetchComplete c e s = _
  rw [execDescriptorFetchComplete]
  simp only [h, hs, hf, hr, Bool.false_eq_true, if_false, hb, hb', Option.isSome_none]

theorem exec_reread_some (hr : ((s.env e).chan c).rereading = true) {b : Bytes} (hb : ((s.env e).chainRead e ((s.env e).chan c) a 8).1 = some b) :
    exec (.linkRereadComplete c e) s =
      .next (((s.env e).chainRead e ((s.env e).chan c) a 8).2.modChan c fun x => x.relink a (fieldAt b 0 8)) := by
  show execLinkRereadComplete c e s = _
  rw [execLinkRereadComplete]
  simp only [h, hs, hf, hr, Bool.false_eq_true, if_false, hb]
  rfl
end

/-- A state whose channels agree with another's but for their trigger counters has its channel so. -/
theorem State.chan_of_core {s t : State} {c : Nat} (h : (t.chan c).core = (s.chan c).core) :
    t.chan c = { s.chan c with trigCount := (t.chan c).trigCount, trigLost := (t.chan c).trigLost } := Chan.eq_of_core h

theorem leNat_mod_two (b : Bytes) : leNat b % 2 = leNat (b.take 8) % 2 := by
  cases b with
  | nil => rfl
  | cons x b => simp only [List.take_succ_cons, leNat]; omega

theorem fetches_answer (s : State) (c : Fin 64) (e : BusEnv) (a : Nat) : let s0 := s.env e
    let x := s0.chan c
    (s0.fetchHeld x = true → exec (.descriptorFetchComplete c e) s = .next s0 ∧ exec (.linkRereadComplete c e) s = .next s0) ∧
    (x.state = .fetch → x.fetching = some a → s0.fetchHeld x = false →
    (x.rereading = false → exec (.linkRereadComplete c e) s = .next s0 ∧
      (∀ b, (s0.chainRead e x a (64 * 2 ^ x.cfg.batch)).1 = some b → ∃ u, exec (.descriptorFetchComplete c e) s = .next u ∧
        (u.chan c).state = .run ∧ (u.chan c).job = some (newJob (parseDesc a (b.take 64))) ∧ (u.chan c).cur = a ∧
        ∀ d, (u.chan c).fetched.head? = some d → d.addr = a + 64 ∧ (parseDesc a (b.take 64)).isEnd = false ∧ (parseDesc a (b.take 64)).next = a + 64) ∧
      ((s0.chainRead e x a (64 * 2 ^ x.cfg.batch)).1 = none → (s0.chainRead e x a 64).1 = none → ∃ u, exec (.descriptorFetchComplete c e) s = .next u ∧
        (u.chan c).state = .halted ∧ (u.chan c).errInfo = (if x.cfg.chain = .bus then 0x2001 else 0x2004) ∧
        (u.chan c).errAddr = a)) ∧
    (x.rereading = true → exec (.descriptorFetchComplete c e) s = .next s0 ∧
      (∀ b, (s0.chainRead e x a 8).1 = some b → ∃ u, exec (.linkRereadComplete c e) s = .next u ∧
        (leNat b % 2 = 0 → (u.chan c).state = .fetch ∧ (u.chan c).rereading = false ∧ (u.chan c).fetching = some (leNat (b.take 8) / 64 * 64)) ∧
        (leNat b % 2 = 1 → (u.chan c).tail = a ∧ (x.armed = none → (u.chan c).state = .parked) ∧
          ∀ h, x.armed = some h → (u.chan c).state = .fetch ∧ (u.chan c).rereading = false ∧ (u.chan c).fetching = some h ∧ (u.chan c).armed = none)))) := by
  refine ⟨exec_fetch_held, fun hs hf h => ⟨fun hr => ⟨exec_reread_none hs hf h hr, fun b hb => ?_, fun hb hb' => ?_⟩, fun hr => ⟨exec_fetch_none hs hf h hr, fun b hb => ?_⟩⟩⟩
  · have hlen : 64 ≤ b.length := by
      rw [State.chainRead_length hb]
      exact Nat.le_mul_of_pos_right 64 (Nat.two_pow_pos _)
    obtain ⟨rest, hrest, hnext⟩ := usable_descsOf a hlen
    refine ⟨_, exec_fetch_some hs hf h hr hb hrest, ?_⟩
    rw [State.chan_modChan]
    exact ⟨rfl, rfl, rfl, hnext⟩
  · refine ⟨_, exec_fetch_fails hs hf h hr hb hb', ?_⟩
    have hcore := State.core_chan (State.postEvent_fed (((s.env e).chainRead e ((s.env e).chan c) a 64).2.modChan c fun x => x.fetchFail a) (0x440 + c)) c
    rw [State.chan_of_core hcore, State.chan_modChan, State.chan_of_core ((s.env e).chainRead_core e ((s.env e).chan c) a 64 c)]
    refine ⟨rfl, ?_, rfl⟩
    cases hcfg : ((s.env e).chan c).cfg.chain <;> simp [Chan.fetchFail, hcfg, stBusError]
  · refine ⟨_, exec_reread_some hs hf h hr hb, ?_⟩
    have hlink : fieldAt b 0 8 = leNat (b.take 8) := rfl
    rw [State.chan_modChan, State.chan_of_core ((s.env e).chainRead_core e ((s.env e).chan c) a 8 c), leNat_mod_two b, hlink]
    refine ⟨fun hz => ?_, fun ho => ?_⟩
    · rw [Chan.relink, if_pos (by simp [bitOf, hz])]
      exact ⟨rfl, rfl, rfl⟩
    · rw [Chan.relink, if_neg (by simp [bitOf, ho])]
      refine ⟨?_, fun hn => ?_, fun h hh => ?_⟩
      · unfold Chan.park
        split <;> rfl
      · simp [Chan.park, hn]
      · simp [Chan.park, hh, Chan.fetch]

/-! ### The start of a descriptor and its trigger (R383, R390, R393, R402) -/

/-- The conditions under which a channel's descriptor is to be checked and started by an operation. -/
structure Startable (s : State) (c op : Nat) (j : Job) : Prop where
  state : (s.chan c).state = .run
  job : (s.chan c).job = some j
  fresh : j.started = false
  live : j.failed = none
  op : j.desc.op = op

section
variable {s : State} {c op : Nat} {j : Job} (h : Startable s c op j)
include h

theorem Startable.held (hw : s.warmWaits = true ∨ s.isFenced 13 0 = true) : s.startDesc c op = s := by
  unfold State.startDesc
  simp only [h.state, h.job]
  exact if_pos (by obtain hw | hw := hw <;> simp [hw])

variable (hw : s.warmWaits = false) (hf : s.isFenced 13 0 = false)
include hw hf

theorem Startable.refused (hc : s.descCheck c (s.chan c).cfg j.desc ≠ 0) :
    s.startDesc c op = s.modChan c fun x => x.refuseJob j (s.descCheck c (s.chan c).cfg j.desc) := by
  unfold State.startDesc
  simp only [h.state, h.job]
  rw [if_neg (by simp [h.fresh, h.live, h.op, hw, hf])]

theorem Startable.passed (hc : s.descCheck c (s.chan c).cfg j.desc = 0) :
    s.startDesc c op =
      if ((j.desc.trig != 0 && !j.fired) || s.descTouches j.desc s.draining) = true then
        s.modChan c fun x => { x with state := .waitTrig, job := some { j with
          trigPos := if j.desc.trig == 2 then some (j.trigPos.getD (trigTarget s.pos j.desc.at_)) else none } }
      else if (j.desc.order && (s.chan c).owedDescs != 0) = true then s
      else s.modChan c fun x => { x with job := some { j with
        started := true, crcReg := if j.desc.cont then x.crcKept else if j.desc.crc64 then 0 else 0xFFFFFFFF } } := by
  unfold State.startDesc
  simp only [h.state, h.job]
  rw [if_neg (by simp [h.fresh, h.live, h.op, hw, hf]), hc]
  rfl
end

/-- Checking and starting a descriptor leaves it fired or not, and its channel's triggers. -/
theorem State.startDesc_fired {s : State} {c : Nat} {j : Job} (op : Nat) (h : (s.chan c).job = some j) :
    ((s.startDesc c op).chan c).trigCount = (s.chan c).trigCount ∧ ∃ k, ((s.startDesc c op).chan c).job = some k ∧ k.fired = j.fired := by
  unfold State.startDesc
  simp only [h]
  (repeat' split) <;> simp_all [Chan.refuseJob]

/-- The commands that start a descriptor, by its operation. -/
def StartsOp (i : Instr) (c : Fin 64) (op : Nat) : Prop := (i, op) = (.dmaCopy c, 0) ∨ (i, op) = (.dmaFill c, 1) ∨ (i, op) = (.dmaCrc c, 2)

theorem StartsOp.exec {i : Instr} {c : Fin 64} {op : Nat} (h : StartsOp i c op) (s : State) : exec i s = .next (s.startDesc c op) := by
  obtain h | h | h := h <;> obtain ⟨rfl, rfl⟩ := Prod.mk.inj h <;> rfl

theorem starts_answer (s : State) (c : Fin 64) (j : Job) (i : Instr) (hi : StartsOp i c j.desc.op) (hs : (s.chan c).state = .run)
    (hj : (s.chan c).job = some j) (hst : j.started = false) (hl : j.failed = none) :
    (s.warmWaits = true ∨ s.isFenced 13 0 = true → exec i s = .next s) ∧ (s.warmWaits = false → s.isFenced 13 0 = false →
    (s.descCheck c (s.chan c).cfg j.desc ≠ 0 → ∃ u, exec i s = .next u ∧ (u.chan c).job = some { j with failed := some (s.descCheck c (s.chan c).cfg j.desc) }) ∧
    (s.descCheck c (s.chan c).cfg j.desc = 0 → j.desc.trig ≠ 0 → j.fired = false → ∃ u, exec i s = .next u ∧ (u.chan c).state = .waitTrig) ∧
    (s.descCheck c (s.chan c).cfg j.desc = 0 → j.desc.trig = 0 → s.descTouches j.desc s.draining = false → j.desc.order = true → (s.chan c).owedDescs ≠ 0 → exec i s = .next s) ∧
    (s.descCheck c (s.chan c).cfg j.desc = 0 → j.desc.trig = 0 → s.descTouches j.desc s.draining = false → (j.desc.order = true → (s.chan c).owedDescs = 0) → ∃ u, exec i s = .next u ∧
      (u.chan c).job = some { j with started := true, crcReg := if j.desc.cont = true then (s.chan c).crcKept else if j.desc.crc64 = true then 0 else 0xFFFFFFFF })) := by
  have h : Startable s c j.desc.op j := ⟨hs, hj, hst, hl, rfl⟩
  rw [hi.exec]
  refine ⟨fun hheld => by rw [h.held hheld], fun hw hf => ⟨fun hc => ⟨_, rfl, ?_⟩, fun hc ht hfire => ⟨_, rfl, ?_⟩, fun hc ht hd ho howed => ?_, fun hc ht hd ho => ⟨_, rfl, ?_⟩⟩⟩
  · rw [h.refused hw hf hc, State.chan_modChan]
    rfl
  · rw [h.passed hw hf hc, if_pos (by simp [ht, hfire]), State.chan_modChan]
  · rw [h.passed hw hf hc, if_neg (by simp [ht, hd]), if_pos (by simp [ho, howed])]
  · rw [h.passed hw hf hc, if_neg (by simp [ht, hd]), if_neg (by simpa using ho), State.chan_modChan]

theorem trigger_answers (s : State) (c : Fin 64) (j : Job) (t : Nat) (hs : ((s.at_ t).chan c).state = .waitTrig) (hj : ((s.at_ t).chan c).job = some j)
    (hfired : j.fired = false) (htrig : j.desc.trig = 1) :
    (((s.at_ t).chan c).trigCount = 0 → exec (.dmaTriggerFire c t) s = .next (s.at_ t)) ∧
    ((s.at_ t).isFenced 13 0 = true → exec (.dmaTriggerFire c t) s = .next (s.at_ t)) ∧
    (0 < ((s.at_ t).chan c).trigCount → (s.at_ t).isFenced 13 0 = false → j.started = false → j.failed = none → j.desc.op ≤ 2 →
      ∃ u k, exec (.dmaTriggerFire c t) s = .next u ∧ (u.chan c).trigCount = ((s.at_ t).chan c).trigCount - 1 ∧ (u.chan c).job = some k ∧ k.fired = true) := by
  have hexec : exec (.dmaTriggerFire c t) s = .next (if (s.at_ t).isFenced 13 0 = true then s.at_ t
      else if (((s.at_ t).chan c).trigCount == 0) = true then s.at_ t
      else ((s.at_ t).modChan c fun y => { y with trigCount := y.trigCount - 1, state := .run, job := some { j with fired := true } }).startDesc c j.desc.op) := by
    show execDmaTriggerFire c t s = _
    rw [execDmaTriggerFire]
    simp only [hs, hj, hfired, htrig, beq_self_eq_true, Bool.false_eq_true, if_false, if_true, apply_ite Host.Outcome.next]
  rw [hexec]
  refine ⟨fun hz => ?_, fun hf => by rw [if_pos hf], fun hpos hf _ _ _ => ?_⟩
  · split <;> simp [hz]
  · rw [if_neg (by simp [hf]), if_neg (by simpa using Nat.ne_of_gt hpos)]
    have hjob : (((s.at_ t).modChan c fun y => { y with trigCount := y.trigCount - 1, state := .run, job := some { j with fired := true } }).chan c).job =
        some { j with fired := true } := by rw [State.chan_modChan]
    obtain ⟨hcount, k, hk, hkf⟩ := State.startDesc_fired j.desc.op hjob
    refine ⟨_, k, rfl, ?_, hk, hkf⟩
    rw [hcount, State.chan_modChan]

/-! ### The completion of a descriptor (R393 to R401) -/

/-- A descriptor whose bytes are moved and whose completion may go on. -/
structure Completable (s : State) (c : Nat) (j : Job) : Prop where
  state : (s.chan c).state = .run
  job : (s.chan c).job = some j
  moved : j.moved = true
  read : (s.chan c).needsRead j = true → j.cplDone = true
  due : j.cplUntil ≤ s.now
  opened : j.desc.hasCmp = true → j.desc.cmpSp = 0 → s.writeOpen = true

/-- Whether a job still has its record to write. -/
def Job.records (j : Job) : Bool := j.desc.hasCmp && decide (j.recTries < 8)

/-- Whether a completed job's CRC is not the one expected (R394). -/
def Job.crcBad (j : Job) : Bool := j.failed.getD stOk == stOk && j.desc.crcEn && j.desc.check && j.crcOut != j.desc.expect

/-- Whether a completed job halts its channel (R400). -/
def Chan.halts (x : Chan) (c : Nat) (j : Job) : Bool :=
  !x.aborting && ((j.failed.getD stOk != stOk && hostOwned c) || (j.crcBad && x.cfg.haltCrc))

/-- A channel after a completed job. -/
def Chan.completed (x : Chan) (c : Nat) (j : Job) (halts : Bool) : Chan :=
  { x.count j (j.failed.getD stOk) j.crcBad with crcKept := if halts then x.crcKept else x.keepCrc j }.advance c j (j.failed.getD stOk) j.crcBad

/-- A state whose completion record is written, where the job still has one. -/
def State.recorded (s : State) (j : Job) : State :=
  if j.records then s.putDmaRecord j.desc (dmaRecord j (j.failed.getD stOk) s.pos j.crcBad) else s

/-- A state with a completed job's record, pulse and events. -/
def State.told (s : State) (c : Nat) (j : Job) : State :=
  let s2 := if j.desc.hasPulse then (s.recorded j).dmaPulse j.desc.pulse else s.recorded j
  let s3 := if j.desc.irq then s2.postEvent (0x400 + c) else s2
  let s4 := if j.crcBad then s3.postEvent (0x480 + c) else s3
  if (s.chan c).halts c j then s4.postEvent (0x440 + c) else s4

theorem State.putDmaRecord_core (s : State) (d : Desc) (bs : Bytes) (c : Nat) : ((s.putDmaRecord d bs).chan c).core = (s.chan c).core := by
  unfold State.putDmaRecord
  split
  · rw [State.busWrite_chan]
  · split
    · rfl
    · exact s.devWrite_core _ _ c

theorem State.recorded_core (s : State) (j : Job) (c : Nat) : ((s.recorded j).chan c).core = (s.chan c).core := by
  unfold State.recorded
  split
  · exact s.putDmaRecord_core _ _ c
  · rfl

theorem State.told_fed (s : State) (c : Nat) (j : Job) : (s.told c j).mem.fed = (s.recorded j).mem.fed := by
  unfold State.told
  dsimp only
  (repeat' split) <;> simp

theorem State.told_core (s : State) (c : Nat) (j : Job) : ((s.told c j).chan c).core = (s.chan c).core :=
  (State.core_chan (s.told_fed c j) c).trans (s.recorded_core j c)

section
variable {s : State} {c : Fin 64} {e : BusEnv} {t : Nat} {j : Job}

theorem exec_complete_waits (hj : (((s.at_ t).env e).chan c).job = some j)
    (h : (((s.at_ t).env e).chan c).needsRead j = true ∧ j.cplDone = false ∨ ((s.at_ t).env e).now < j.cplUntil) :
    exec (.descriptorComplete c e t) s = .next ((s.at_ t).env e) := by
  show execDescriptorComplete c e t s = _
  rw [execDescriptorComplete]
  simp only [hj]
  refine if_pos ?_
  obtain ⟨hr, hd⟩ | hlate := h
  · simp [hr, hd]
  · rw [decide_eq_false (Nat.not_le.mpr hlate)]
    simp

variable (h : Completable ((s.at_ t).env e) c j)
include h

theorem exec_complete : exec (.descriptorComplete c e t) s =
    .next (if (j.records && j.desc.cmpSp == 0 && envFails e j.desc.cmp 32) = true then
        (((s.at_ t).env e).recorded j).modChan c fun x => x.recFail c j ((s.at_ t).env e).now
      else (((s.at_ t).env e).told c j).modChan c fun x => x.completed c j ((((s.at_ t).env e).chan c).halts c j)) := by
  show execDescriptorComplete c e t s = _
  rw [execDescriptorComplete]
  simp only [h.job]
  rw [if_neg]
  · rw [apply_ite Host.Outcome.next]
    rfl
  · have hread := h.read
    have hopen := h.opened
    simp only [h.state, h.moved, h.due]
    grind

end

theorem dmaRecord_length (j : Job) (status pos : Nat) (bad : Bool) : (dmaRecord j status pos bad).length = 32 := by simp [dmaRecord]

/-- A channel's state after a completed job that does not fail its record. -/
theorem State.told_chan (s : State) (c : Nat) (j : Job) (b : Bool) :
    ∃ y : Chan, (((s.told c j).modChan c fun x => x.completed c j b).chan c) = y.completed c j b ∧
      ∃ n m, y = { s.chan c with trigCount := n, trigLost := m } :=
  ⟨(s.told c j).chan c, State.chan_modChan _ _ _, _, _, State.chan_of_core (s.told_core c j)⟩

/-- The channel of a job that ends well goes on with its LINK (R386, R397). -/
theorem Chan.completed_ok {x : Chan} {c : Nat} {j : Job} (b : Bool) (ha : x.aborting = false) (hq : x.fetched = []) (hp : x.repoke = false)
    (hl : j.failed = none) (hc : j.desc.check = false) :
    (x.owes j = true → (x.completed c j b).descs = x.descs ∧ (x.completed c j b).owedDescs = x.owedDescs + 1 ∧
      (x.completed c j b).owedBytes = x.owedBytes + j.desc.len) ∧
    (x.owes j = false → (x.completed c j b).lastStatus = 0 ∧ (x.completed c j b).descs = (x.descs + x.owedDescs + 1) % 2 ^ 64 ∧
      (x.completed c j b).bytes = (x.bytes + x.owedBytes + j.desc.len) % 2 ^ 64 ∧ (x.completed c j b).owedDescs = 0) ∧
    (x.completed c j b).state = .fetch ∧
    (j.desc.isEnd = true → (x.completed c j b).rereading = true ∧ (x.completed c j b).fetching = some j.desc.addr) ∧
    (j.desc.isEnd = false → (x.completed c j b).rereading = false ∧ (x.completed c j b).fetching = some j.desc.next) := by
  have hgood : j.crcBad = false := by simp [Job.crcBad, hc]
  cases ho : x.owes j <;> cases he : j.desc.isEnd <;>
    simp [Chan.completed, Chan.count, Chan.advance, Chan.reread, Chan.fetch, ho, he, hgood, hl, ha, hq, hp, stOk]

/-- The channel of a host's job that fails halts (R400). -/
theorem Chan.completed_failed {x : Chan} {c st : Nat} {j : Job} (b : Bool) (ha : x.aborting = false) (hown : hostOwned c = true)
    (hf : j.failed = some st) (hst : st ≠ 0) :
    (x.completed c j b).state = .halted ∧ (x.completed c j b).lastStatus = st ∧ (x.completed c j b).bytes = (x.bytes + x.owedBytes) % 2 ^ 64 := by
  have howes : x.owes j = false := by simp [Chan.owes, Job.asks, hf]
  simp [Chan.completed, Chan.count, Chan.advance, howes, hf, ha, hown, hst, stOk]

theorem State.told_bus {s : State} {c : Nat} {j : Job} (hp : j.desc.hasPulse = false) : (s.told c j).mem.bus = (s.recorded j).mem.bus := by
  unfold State.told
  rw [hp]
  have hpost : ∀ (t : State) n, (t.postEvent n).mem.bus = t.mem.bus := fun t n => congrArg (·.2.1) (t.postEvent_data n)
  dsimp only
  (repeat' split) <;> simp [hpost]

theorem State.recorded_bus {s : State} {j : Job} (hr : j.records = true) (hcmp : j.desc.cmpSp = 0) (hout : s.mayOutput = true) :
    readBytes (s.recorded j).mem.bus j.desc.cmp 32 = dmaRecord j (j.failed.getD stOk) s.pos j.crcBad := by
  rw [State.recorded, if_pos hr, State.putDmaRecord, if_pos (by simp [hcmp]), State.busWrite_of_mayOutput hout]
  have hread := readBytes_writeBytes (dmaRecord j (j.failed.getD stOk) s.pos j.crcBad) s.mem.bus j.desc.cmp
  rwa [dmaRecord_length] at hread

theorem completions_answer (s : State) (c : Fin 64) (j : Job) (t : Nat) : let s0 := (s.at_ t).env ⟨[], [], []⟩
    let x := s0.chan c
    x.state = .run → x.job = some j → j.moved = true →
    (x.needsRead j = true ∧ j.cplDone = false ∨ s0.now < j.cplUntil → exec (.descriptorComplete c ⟨[], [], []⟩ t) s = .next s0) ∧
    ((x.needsRead j = true → j.cplDone = true) → j.cplUntil ≤ s0.now → (j.desc.hasCmp = true → j.desc.cmpSp = 0 → s0.writeOpen = true) → x.aborting = false →
      (x.fetched = [] → x.repoke = false → j.failed = none → j.desc.check = false →
      ∃ u, exec (.descriptorComplete c ⟨[], [], []⟩ t) s = .next u ∧
        (x.owes j = true → (u.chan c).descs = x.descs ∧ (u.chan c).owedDescs = x.owedDescs + 1 ∧ (u.chan c).owedBytes = x.owedBytes + j.desc.len) ∧
        (x.owes j = false → (u.chan c).lastStatus = 0 ∧ (u.chan c).descs = (x.descs + x.owedDescs + 1) % 2 ^ 64 ∧
          (u.chan c).bytes = (x.bytes + x.owedBytes + j.desc.len) % 2 ^ 64 ∧ (u.chan c).owedDescs = 0) ∧ (u.chan c).state = .fetch ∧
        (j.desc.isEnd = true → (u.chan c).rereading = true ∧ (u.chan c).fetching = some j.desc.addr) ∧
        (j.desc.isEnd = false → (u.chan c).rereading = false ∧ (u.chan c).fetching = some j.desc.next) ∧
        (j.desc.hasCmp = true → j.desc.cmpSp = 0 → j.recTries < 8 → s0.mayOutput = true → j.desc.hasPulse = false → readBytes u.mem.bus j.desc.cmp 32 = dmaRecord j 0 s0.pos false)) ∧
      (c.val < 56 → ∀ st, j.failed = some st → st ≠ 0 →
      ∃ u, exec (.descriptorComplete c ⟨[], [], []⟩ t) s = .next u ∧ (u.chan c).state = .halted ∧ (u.chan c).lastStatus = st ∧
        (u.chan c).bytes = (x.bytes + x.owedBytes) % 2 ^ 64)) := by
  intro s0 x hs hj hm
  refine ⟨exec_complete_waits hj, fun hr hu ho ha => ?_⟩
  have h : Completable s0 c j := ⟨hs, hj, hm, hr, hu, ho⟩
  have hexec : exec (.descriptorComplete c ⟨[], [], []⟩ t) s = .next ((s0.told c j).modChan c fun y => y.completed c j (x.halts c j)) := by
    rw [exec_complete h, if_neg (by simp [envFails])]
  obtain ⟨y, hy, n, m, hyx⟩ := s0.told_chan c j (x.halts c j)
  refine ⟨fun hq hp hl hc => ⟨_, hexec, ?_⟩, fun hown st hf hst => ⟨_, hexec, ?_⟩⟩
  · rw [hy, hyx]
    obtain ⟨hlater, hnow, hstate, hend, hnext⟩ := Chan.completed_ok (x := { x with trigCount := n, trigLost := m }) (c := c) (x.halts c j) ha hq hp hl hc
    refine ⟨hlater, hnow, hstate, hend, hnext, fun hcmp hsp htries hout hpulse => ?_⟩
    have hgood : j.crcBad = false := by simp [Job.crcBad, hc]
    have hread := State.recorded_bus (s := s0) (j := j) (by simp [Job.records, hcmp, htries]) hsp hout
    rw [hl, hgood] at hread
    rw [State.modChan_mem]
    exact (congrArg (readBytes · _ _) (State.told_bus hpulse)).trans hread
  · rw [hy, hyx]
    exact Chan.completed_failed (x := { x with trigCount := n, trigLost := m }) _ ha (hostOwned_of_lt hown) hf hst

theorem Chan.recFail_retries {x : Chan} {c : Nat} {j : Job} (now : Nat) (h : j.recTries < x.cfg.retries c) :
    ∃ k, (x.recFail c j now).state = x.state ∧ (x.recFail c j now).descs = x.descs ∧ (x.recFail c j now).job = some k ∧ k.desc = j.desc ∧
      k.recTries = j.recTries + 1 ∧ k.cplUntil = now + 2 ^ j.recTries * 1000 := by
  rw [Chan.recFail, if_pos h]
  exact ⟨_, rfl, rfl, rfl, rfl, rfl, rfl⟩

theorem Chan.recFail_ends {x : Chan} {c : Nat} {j : Job} (now : Nat) (h : x.cfg.retries c ≤ j.recTries) :
    ∃ k, (x.recFail c j now).job = some k ∧ k.failed = some (j.failed.getD 0x20) := by
  rw [Chan.recFail, if_neg (Nat.not_lt.mpr h)]
  exact ⟨_, rfl, rfl⟩

theorem recordRetries_answer (s : State) (c : Fin 64) (e : BusEnv) (t : Nat) (j : Job) : let s0 := (s.at_ t).env e
    let x := s0.chan c
    x.state = .run → x.job = some j → j.moved = true → (x.needsRead j = true → j.cplDone = true) → j.cplUntil ≤ s0.now → s0.writeOpen = true →
    j.desc.hasCmp = true → j.desc.cmpSp = 0 → envFails e j.desc.cmp 32 = true →
    (j.recTries < 8 → j.recTries < x.cfg.retries c → ∃ u k, exec (.descriptorComplete c e t) s = .next u ∧ (u.chan c).state = .run ∧ (u.chan c).descs = x.descs ∧
      (u.chan c).job = some k ∧ k.desc = j.desc ∧ k.recTries = j.recTries + 1 ∧ k.cplUntil = s0.now + 2 ^ j.recTries * 1000) ∧
    (j.recTries < 8 → x.cfg.retries c ≤ j.recTries → ∃ u k, exec (.descriptorComplete c e t) s = .next u ∧ (u.chan c).job = some k ∧ k.failed = some (j.failed.getD 0x20)) := by
  intro s0 x hs hj hm hr hu ho hcmp hsp hfail
  have h : Completable s0 c j := ⟨hs, hj, hm, hr, hu, fun _ _ => ho⟩
  have hexec : j.recTries < 8 → exec (.descriptorComplete c e t) s = .next ((s0.recorded j).modChan c fun y => y.recFail c j s0.now) := fun h8 => by
    rw [exec_complete h, if_pos (by simp [Job.records, hcmp, h8, hsp, hfail])]
  have hchan : ((s0.recorded j).modChan c fun y => y.recFail c j s0.now).chan c =
      { x with trigCount := ((s0.recorded j).chan c).trigCount, trigLost := ((s0.recorded j).chan c).trigLost }.recFail c j s0.now := by
    rw [State.chan_modChan]
    exact congrArg (Chan.recFail · c j s0.now) (State.chan_of_core (s0.recorded_core j c))
  refine ⟨fun h8 htries => ?_, fun h8 htries => ?_⟩
  · obtain ⟨k, hk⟩ := Chan.recFail_retries (x := { x with
      trigCount := ((s0.recorded j).chan c).trigCount, trigLost := ((s0.recorded j).chan c).trigLost }) s0.now htries
    refine ⟨_, k, hexec h8, ?_⟩
    rw [hchan]
    exact ⟨hk.1.trans hs, hk.2⟩
  · obtain ⟨k, hk⟩ := Chan.recFail_ends (x := { x with
      trigCount := ((s0.recorded j).chan c).trigCount, trigLost := ((s0.recorded j).chan c).trigLost }) s0.now htries
    refine ⟨_, k, hexec h8, ?_⟩
    rw [hchan]
    exact hk

/-- Settles O50, a clause for each command; what a post, a pulse or a memory access leaves of a channel is `Chan.core`. -/
theorem channelsRunTheirChains : Obligations.ChannelsRunTheirChains :=
  ⟨reserved_rejects, channelCommands_answer, fetches_answer, starts_answer, trigger_answers, completions_answer, recordRetries_answer, usable_prefix⟩

end Sys2Proof.Machine
end

section
/-! Proofs about chapter 13: bursts, ECC, BAR2 and the fabric (R363 to R379, R391 to R399) -/

namespace Sys2Proof.Machine

/-! ### The next burst, and who issues it (R391, R392) -/

theorem burstBytes_pos (g : ChCfg) (c : Nat) : 0 < g.burstBytes c := by
  have hpow := Nat.two_pow_pos g.burst
  unfold ChCfg.burstBytes classBurst
  split <;> omega

/-- A burst of at most `n` bytes at an offset, cut at the next 4 KiB boundary of each side. -/
def Desc.cut (d : Desc) (off n : Nat) : Nat :=
  min n (min (if d.op == 1 then 4096 else 4096 - (d.src + off) % 4096) (if d.op == 2 then 4096 else 4096 - (d.dst + off) % 4096))

theorem Desc.cut_bounds (d : Desc) {off n : Nat} (hn : 0 < n) :
    0 < d.cut off n ∧ d.cut off n ≤ n ∧ (d.op ≠ 1 → (d.src + off) % 4096 + d.cut off n ≤ 4096) ∧
      (d.op ≠ 2 → (d.dst + off) % 4096 + d.cut off n ≤ 4096) := by
  unfold Desc.cut
  simp only [beq_iff_eq]
  split <;> split <;> omega

/-- A burst is a cut of what is left of its head, its body or its tail. -/
theorem burstLen_cut (g : ChCfg) (c : Nat) {d : Desc} {off : Nat} (h : off < d.len) :
    ∃ n, 0 < n ∧ n ≤ d.len - off ∧ (burstLen g c d off).1 = d.cut off n := by
  have hcut : ∀ n, min n (min (if d.op == 1 then 4096 else 4096 - (d.src + off) % 4096)
      (if d.op == 2 then 4096 else 4096 - ((if d.op == 2 then d.src else d.dst) + off) % 4096)) = d.cut off n := fun n => by
    unfold Desc.cut
    split <;> split <;> rfl
  have hb := burstBytes_pos g c
  unfold burstLen
  dsimp only
  simp only [hcut]
  generalize (if d.op == 2 then d.src else d.dst) = start
  split
  · exact ⟨_, by omega, by omega, rfl⟩
  · split
    · exact ⟨_, by omega, by omega, rfl⟩
    · exact ⟨_, by omega, by omega, rfl⟩

theorem burstLen_bounds (g : ChCfg) (c : Nat) (d : Desc) (off : Nat) (h : off < d.len) : let n := (burstLen g c d off).1
    0 < n ∧ off + n ≤ d.len ∧ (d.op ≠ 1 → (d.src + off) % 4096 + n ≤ 4096) ∧ (d.op ≠ 2 → (d.dst + off) % 4096 + n ≤ 4096) := by
  obtain ⟨n, hpos, hle, hn⟩ := burstLen_cut g c h
  obtain ⟨hcut, hcutle, hsrc, hdst⟩ := d.cut_bounds (off := off) hpos
  dsimp only
  rw [hn]
  exact ⟨hcut, by omega, hsrc, hdst⟩

theorem State.nextChan_mem {s : State} {c : Nat} (h : s.nextChan = some c) :
    c ∈ ((List.range 64).filter s.burstReady).filter fun c =>
      (s.chan c).prio == (((List.range 64).filter s.burstReady).map fun c => (s.chan c).prio).foldl max 0 := by
  unfold State.nextChan at h
  dsimp only at h
  split at h
  · rename_i hlast
    obtain rfl := Option.some.inj h
    simp only [Bool.and_eq_true] at hlast
    exact List.contains_iff_mem.mp hlast.1
  · split at h
    · rename_i hnext
      obtain rfl := Option.some.inj h
      exact List.mem_of_find?_eq_some hnext
    · exact List.mem_of_mem_head? h

theorem le_foldl_max (l : List Nat) : ∀ m, m ≤ l.foldl max m ∧ ∀ x ∈ l, x ≤ l.foldl max m := by
  induction l with
  | nil => exact fun m => ⟨le_rfl, nofun⟩
  | cons y ys ih =>
    intro m
    obtain ⟨hm, hys⟩ := ih (max m y)
    refine ⟨(le_max_left m y).trans hm, fun x hx => ?_⟩
    obtain rfl | hx := List.mem_cons.mp hx
    · exact (le_max_right m x).trans hm
    · exact hys x hx

theorem nextChan_serves (s : State) (c : Nat) (h : s.nextChan = some c) :
    s.burstReady c = true ∧ ∀ d, d < 64 → s.burstReady d = true → (s.chan d).prio ≤ (s.chan c).prio := by
  obtain ⟨hready, hprio⟩ := List.mem_filter.mp (State.nextChan_mem h)
  refine ⟨(List.mem_filter.mp hready).2, fun d hd hdr => ?_⟩
  rw [beq_iff_eq.mp hprio]
  exact (le_foldl_max _ 0).2 _ (List.mem_map_of_mem (List.mem_filter.mpr ⟨List.mem_range.mpr hd, hdr⟩))

theorem routePort_local (k d : Fin 16) : routePort k.val d.val = 4 ↔ k = d := by
  revert k d
  decide

/-! ### Bursts (R384, R395, R399) -/

/-- A burst that reads host memory. -/
def State.busBurst (s : State) (e : BusEnv) (c : Nat) (d : Desc) (off n : Nat) : Burst :=
  { off := off, len := n, data := (s.busRead e (d.src + off) n).getD [], poisoned := false, bad := (s.busRead e (d.src + off) n).isNone, tries := 0
    until_ := none, tq := chanTq c }

theorem State.readBurst_bus {s : State} {d : Desc} (e : BusEnv) (c off n : Nat) (hop : d.op ≠ 1) (hsp : d.srcSp = 0) :
    s.readBurst e c d off n = (s.busBurst e c d off n, s) := by
  unfold State.readBurst State.busBurst
  dsimp only
  rw [if_neg (by simpa using hop), if_pos (by simp [hsp])]
  cases s.busRead e (d.src + off) n <;> rfl

/-- A job that has issued a burst, of a length and on an edge or not. -/
def Job.issue (j : Job) (l : Nat × Bool) (b : Burst) : Job := { j with issued := j.issued + l.1, flight := j.flight ++ [b], edges := j.edges || l.2 }

theorem State.lastCh_chan (s : State) (f : Mem → Tab Nat) (c : Nat) : (s.modMem fun m => { m with lastCh := f m }).chan c = s.chan c := rfl

theorem burstIssue_answers (s : State) (e : BusEnv) : let s0 := s.env e
    (s0.nextChan = none → exec (.burstIssue e) s = .next s0) ∧
    (∀ c j, s0.nextChan = some c → (s0.chan c).job = some j → j.desc.srcSp = 0 → j.desc.op ≠ 1 → let n := (burstLen (s0.chan c).cfg c j.desc j.issued).1
      ∃ u k, exec (.burstIssue e) s = .next u ∧ (u.chan c).job = some k ∧ k.issued = j.issued + n ∧ k.desc = j.desc ∧
        k.flight = j.flight ++ [{ off := j.issued, len := n, data := (s0.busRead e (j.desc.src + j.issued) n).getD [], poisoned := false, bad := (s0.busRead e (j.desc.src + j.issued) n).isNone, tries := 0, until_ := none, tq := chanTq c }] ∧
        ∀ i, i ≠ c → u.chan i = s0.chan i) := by
  intro s0
  have hexec : exec (.burstIssue e) s = execBurstIssue e s := rfl
  refine ⟨fun hn => ?_, fun c j hc hj hsp hop => ?_⟩
  · rw [hexec, execBurstIssue]
    simp only [show (s.env e).nextChan = none from hn]
    rfl
  · rw [hexec, execBurstIssue]
    simp only [show (s.env e).nextChan = some c from hc, show ((s.env e).chan c).job = some j from hj]
    rw [State.readBurst_bus e c _ _ hop hsp]
    refine ⟨_, j.issue (burstLen (s0.chan c).cfg c j.desc j.issued) (s0.busBurst e c j.desc j.issued (burstLen (s0.chan c).cfg c j.desc j.issued).1), rfl, ?_, rfl, rfl, rfl,
      fun i hi => (State.lastCh_chan _ _ i).trans (State.chan_modChan_ne _ _ hi)⟩
    exact congrArg Chan.job ((State.lastCh_chan _ _ c).trans (State.chan_modChan _ _ _))

/-! ### A burst that returns (R395, R399) -/

theorem Chan.cfg_of_core {x y : Chan} (h : x.core = y.core) : x.cfg = y.cfg := by rw [Chan.eq_of_core h]
theorem Chan.job_of_core {x y : Chan} (h : x.core = y.core) : x.job = y.job := by rw [Chan.eq_of_core h]

@[simp] theorem Chan.settleCfg_job (x : Chan) : x.settleCfg.job = x.job := by
  unfold Chan.settleCfg
  (repeat' split) <;> rfl

/-- A state in which a burst's cause is noted: a completion timeout is counted. -/
def State.caused (s : State) (cause : Nat) : State := if cause == 2 then s.cplTimeout else s

theorem State.caused_fed (s : State) (cause : Nat) : (s.caused cause).mem.fed = s.mem.fed := by
  unfold State.caused
  split <;> simp
theorem State.caused_hbm (s : State) (cause : Nat) : (s.caused cause).mem.hbm = s.mem.hbm := congrArg (·.1.hbm) (s.caused_fed cause)
theorem State.caused_now (s : State) (cause : Nat) : (s.caused cause).now = s.now := by
  unfold State.caused
  split <;> simp [State.cplTimeout]
theorem State.caused_cfg (s : State) (cause c : Nat) : ((s.caused cause).chan c).cfg = (s.chan c).cfg :=
  Chan.cfg_of_core (State.core_chan (s.caused_fed cause) c)

/-- A failed burst, to be issued again later. -/
def Burst.again (b : Burst) (now : Nat) : Burst := { b with tries := b.tries + 1, until_ := some (now + 2 ^ b.tries * 1000) }

section
variable {s : State} {c : Nat} {j : Job} {b : Burst} {rest : List Burst} {cause : Nat} {wr : Bool}

theorem State.burstFails_again (hc : cause ≠ 6) (h : b.tries < (s.chan c).cfg.retries c) :
    s.burstFails c j b rest cause wr = (s.caused cause).modChan c fun x => { x with job := some { j with flight := b.again s.now :: rest } } := by
  have hretry : (causeRetried cause && decide (b.tries < ((s.caused cause).chan c).cfg.retries c)) = true := by
    simp [causeRetried, hc, s.caused_cfg, h]
  rw [Burst.again, ← s.caused_now cause]
  exact if_pos hretry

theorem State.burstFails_ends (h : cause = 6 ∨ (s.chan c).cfg.retries c ≤ b.tries) :
    s.burstFails c j b rest cause wr =
      ((s.caused cause).modChan c fun x =>
        (x.failJob j cause ((if wr then j.desc.dst else j.desc.src) + b.off) wr).settleCfg).handedOver := by
  have hretry : ¬ (causeRetried cause && decide (b.tries < ((s.caused cause).chan c).cfg.retries c)) = true := by
    rw [s.caused_cfg]
    simp only [causeRetried, Bool.and_eq_true, bne_iff_ne, decide_eq_true_eq, not_and_or, not_not, not_lt]
    exact h
  exact if_neg hretry
end

/-- A returned burst of channel `c` that may end: it is the oldest, waits for nothing, and its write may be made. -/
structure Returns (s : State) (c : Nat) (j : Job) (b : Burst) (rest : List Burst) : Prop where
  job : (s.chan c).job = some j
  flight : j.flight = b :: rest
  waits : b.until_ = none
  clean : b.poisoned = false
  opened : j.desc.op ≠ 2 → j.desc.dstSp = 0 → s.writeEnds = true

section
variable {s : State} {c : Fin 64} {t : Nat} {j : Job} {b : Burst} {rest : List Burst} (h : Returns (s.at_ t) c j b rest) {fail : Option (Fin 7)}
include h

theorem Returns.guard : ¬ (b.until_.isSome || (j.desc.op != 2 && j.desc.dstSp == 0 && !(s.at_ t).writeEnds)) = true := by
  have hopen := h.opened
  simp only [h.waits, Option.isSome_none, Bool.false_or, Bool.and_eq_true, bne_iff_ne, beq_iff_eq, Bool.not_eq_true']
  rintro ⟨⟨hop, hsp⟩, hno⟩
  exact absurd (hopen hop hsp) (ne_true_of_eq_false hno)

theorem Returns.exec_fails (hc : b.cause fail ≠ 0) : ∃ wr, exec (.burstResponse c fail t) s = .next ((s.at_ t).burstFails c j b rest (b.cause fail) wr) := by
  refine ⟨j.desc.op == 1 || (b.cause fail != 4 && j.desc.srcSp != 0), ?_⟩
  show execBurstResponse c fail t s = _
  rw [execBurstResponse]
  simp only [h.job, h.flight]
  rw [if_neg h.guard, if_pos (by simpa using hc)]

theorem Returns.exec_ok (hc : b.cause fail = 0) (hop : j.desc.op ≠ 2) (hsp : j.desc.dstSp = 1) :
    exec (.burstResponse c fail t) s = .next (((s.at_ t).devWrite (j.desc.dst + b.off) b.data).modChan c fun x =>
      { x with job := some { j with flight := rest, crcReg := j.crcStep b.data } }.settleCfg).handedOver := by
  show execBurstResponse c fail t s = _
  rw [execBurstResponse]
  simp only [h.job, h.flight]
  rw [if_neg h.guard, if_neg (by simp [hc]), if_neg (by simpa using hop), if_neg (by simp [hsp]), if_neg (by simp [hsp])]
end

theorem Burst.cause_some {b : Burst} (hp : b.poisoned = false) {f : Fin 7} (hf : f.val ≠ 0) : b.cause (some f) = f.val := by
  simp [Burst.cause, hp, hf]
theorem Burst.cause_bad {b : Burst} (hp : b.poisoned = false) (hb : b.bad = true) : b.cause none = 1 := by simp [Burst.cause, hp, hb]
theorem Burst.cause_ok {b : Burst} (hp : b.poisoned = false) (hb : b.bad = false) : b.cause none = 0 := by simp [Burst.cause, hp, hb]

/-- Reading and correcting words changes no byte. -/
theorem State.hbmWrite_hbm (s : State) (a : Nat) (bs : Bytes) : (s.hbmWrite a bs).mem.hbm = writeBytes s.mem.hbm a bs := by
  unfold State.hbmWrite
  have hcount : ∀ t : State, (t.countHbm true a bs.length).mem.hbm = t.mem.hbm := fun t => congrArg (·.2.2) (t.countHbm_data true a bs.length)
  have hecc : ∀ p, (s.eccWords p).2.mem.hbm = s.mem.hbm := fun p => congrArg (·.2.2) (s.eccWords_data p)
  rw [hcount, State.modMem_mem, Mem.writeHbm]
  exact congrArg (writeBytes · a bs) (hecc _)

theorem State.devWrite_hbm {s : State} {a x : Nat} {bs : Bytes} (h : s.devTarget a bs.length = some (.hbm, x)) :
    (s.devWrite a bs).mem.hbm = writeBytes s.mem.hbm x bs := by
  rw [State.devWrite, h]
  exact s.hbmWrite_hbm x bs

theorem State.handedOver_job (s : State) (c : Nat) : (s.handedOver.chan c).job = (s.chan c).job :=
  Chan.job_of_core (State.core_chan s.handedOver_fed c)

theorem State.handedOver_hbm (s : State) : s.handedOver.mem.hbm = s.mem.hbm := congrArg (·.1.hbm) s.handedOver_fed

theorem burstResponse_answers (s : State) (c : Fin 64) (t : Nat) (j : Job) (b : Burst) (rest : List Burst) : let s0 := s.at_ t
    (s0.chan c).job = some j → j.flight = b :: rest → b.until_ = none → b.poisoned = false → (j.desc.op ≠ 2 → j.desc.dstSp = 0 → s0.writeEnds = true) →
    (∀ x, b.bad = false → j.desc.op ≠ 2 → j.desc.dstSp = 1 → s0.devTarget (j.desc.dst + b.off) b.data.length = some (.hbm, x) → ∃ u, exec (.burstResponse c none t) s = .next u ∧
      readBytes u.mem.hbm x b.data.length = b.data ∧ (∀ a, (a < x ∨ x + b.data.length ≤ a) → readByte u.mem.hbm a = readByte s0.mem.hbm a) ∧
      (u.chan c).job = some { j with flight := rest, crcReg := j.crcStep b.data }) ∧
    (∀ f : Fin 7, f.val ≠ 0 → f.val ≠ 6 → b.tries < (s0.chan c).cfg.retries c → ∃ u, exec (.burstResponse c (some f) t) s = .next u ∧ u.mem.hbm = s0.mem.hbm ∧
      (u.chan c).job = some { j with flight := { b with tries := b.tries + 1, until_ := some (s0.now + 2 ^ b.tries * 1000) } :: rest }) ∧
    (b.bad = true → b.tries < (s0.chan c).cfg.retries c → ∃ u, exec (.burstResponse c none t) s = .next u ∧ u.mem.hbm = s0.mem.hbm ∧
      (u.chan c).job = some { j with flight := { b with tries := b.tries + 1, until_ := some (s0.now + 2 ^ b.tries * 1000) } :: rest }) ∧
    (∀ f : Fin 7, f.val ≠ 0 → (f.val = 6 ∨ (s0.chan c).cfg.retries c ≤ b.tries) → ∃ u k, exec (.burstResponse c (some f) t) s = .next u ∧
      (u.chan c).job = some k ∧ k.failed = some (if f.val = 6 then 0x21 else 0x20) ∧ k.flight = []) := by
  intro s0 hj hfl hw hp ho
  have h : Returns s0 c j b rest := ⟨hj, hfl, hw, hp, ho⟩
  have hagain : ∀ fail, b.cause fail ≠ 0 → b.cause fail ≠ 6 → b.tries < (s0.chan c).cfg.retries c → ∃ u, exec (.burstResponse c fail t) s = .next u ∧
      u.mem.hbm = s0.mem.hbm ∧ (u.chan c).job = some { j with flight := b.again s0.now :: rest } := fun fail h0 h6 htries => by
    obtain ⟨wr, hexec⟩ := h.exec_fails h0
    rw [State.burstFails_again h6 htries] at hexec
    refine ⟨_, hexec, s0.caused_hbm _, ?_⟩
    rw [State.chan_modChan]
  refine ⟨fun x hb hop hsp hx => ?_, fun f h0 h6 htries => ?_, fun hb htries => ?_, fun f h0 h6 => ?_⟩
  · refine ⟨_, h.exec_ok (Burst.cause_ok hp hb) hop hsp, ?_⟩
    rw [State.handedOver_hbm, State.handedOver_job, State.chan_modChan, Chan.settleCfg_job, State.modChan_mem, State.devWrite_hbm hx]
    exact ⟨readBytes_writeBytes _ _ _, fun a ha => readByte_writeBytes_outside _ _ _ _ ha, rfl⟩
  · exact hagain (some f) (by rwa [Burst.cause_some hp h0]) (by rwa [Burst.cause_some hp h0]) htries
  · exact hagain none (by rw [Burst.cause_bad hp hb]; decide) (by rw [Burst.cause_bad hp hb]; decide) htries
  · have hcause := Burst.cause_some hp h0
    obtain ⟨wr, hexec⟩ := h.exec_fails (fail := some f) (hcause ▸ h0)
    rw [hcause, State.burstFails_ends h6] at hexec
    refine ⟨_, { j with flight := [], failed := some (causeStatus f.val) }, hexec, ?_, ?_, rfl⟩
    · rw [State.handedOver_job, State.chan_modChan, Chan.settleCfg_job]
      rfl
    · simp [causeStatus, stDomainOff, stBusError]

/-! ### Retries and completion reads (R395, R396, R399) -/

theorem burstRetry_answers (s : State) (c : Fin 64) (e : BusEnv) (t w : Nat) (j : Job) (b : Burst) (rest : List Burst) : let s0 := (s.at_ t).env e
    (s0.chan c).job = some j → j.flight = b :: rest → b.until_ = some w → j.desc.op = 0 → j.desc.srcSp = 0 →
    (s0.now < w → exec (.burstRetry c e t) s = .next s0) ∧
    (s0.inD0 = false ∨ s0.isFenced 13 0 = true → exec (.burstRetry c e t) s = .next s0) ∧
    (w ≤ s0.now → s0.inD0 = true → s0.isFenced 13 0 = false → ∃ u k, exec (.burstRetry c e t) s = .next u ∧ (u.chan c).job = some k ∧ (u.chan c).retries = sat32 (s0.chan c).retries 1 ∧
      k.flight = { b with data := (s0.busRead e (j.desc.src + b.off) b.len).getD [], poisoned := false, bad := (s0.busRead e (j.desc.src + b.off) b.len).isNone, until_ := none, tq := chanTq c } :: rest) := by
  intro s0 hj hfl hw hop hsp
  have hexec : exec (.burstRetry c e t) s = if (!s0.isFenced 13 0 && decide (w ≤ s0.now) && s0.inD0) = true then
      .next (s0.modChan c fun x => { x with
        retries := sat32 x.retries 1
        job := some { j with
          retries := min 0xFFFF (j.retries + 1)
          flight := { s0.busBurst e c j.desc b.off b.len with tries := b.tries } :: rest } })
      else .next s0 := by
    show execBurstRetry c e t s = _
    rw [execBurstRetry]
    simp only [show (((s.at_ t).env e).chan c).job = some j from hj, hfl, hw, State.readBurst_bus e c b.off b.len (d := j.desc) (by simp [hop]) hsp, hop, hsp,
      Option.any_some, bne_self_eq_false, show ((0 : Nat) == 1) = false from rfl, Bool.or_false]
    rfl
  rw [hexec]
  refine ⟨fun hlate => if_neg (by simp [Nat.not_le.mpr hlate]), fun h => if_neg ?_, fun hdue hd0 hf => ?_⟩
  · obtain h | h := h <;> simp [h]
  · rw [if_pos (by simp [hf, hdue, hd0])]
    refine ⟨_, { j with
      retries := min 0xFFFF (j.retries + 1)
      flight := { s0.busBurst e c j.desc b.off b.len with tries := b.tries } :: rest }, rfl, ?_⟩
    rw [State.chan_modChan]
    exact ⟨rfl, rfl, rfl⟩

/-- Whether a channel's completion read is to be made now (R393, R395). -/
def State.readsBack (s : State) (c : Nat) (j : Job) : Prop :=
  s.inD0 = true ∧ s.isFenced 13 0 = false ∧ (j.cplTries = 0 ∨ s.writeOpen = true) ∧
    ((s.chan c).ordered j = true ∨ (j.moved = true ∧ (s.chan c).needsRead j = true ∧ j.cplDone = false))

/-- The state in which a completion read is made: the job's writes are made again where an earlier one failed. -/
def State.readMade (s : State) (c : Nat) (j : Job) : State :=
  (if j.cplTries == 0 then s else j.wrote.foldl (fun u w => u.busWrite w.1 w.2) s).emit (.busRead ((s.chan c).readAt j) 4)

theorem State.readMade_chan (s : State) (c i : Nat) (j : Job) : (s.readMade c j).chan i = s.chan i := by
  have hfold : ∀ (l : List (Nat × Bytes)), (l.foldl (fun u w => u.busWrite w.1 w.2) s).chan i = s.chan i := fun l =>
    List.foldlRecOn (motive := fun u : State => u.chan i = s.chan i) l _ rfl fun u hu w _ => (u.busWrite_chan w.1 w.2 i).trans hu
  unfold State.readMade
  split
  · rfl
  · exact hfold j.wrote

theorem State.readMade_out (s : State) (c : Nat) (j : Job) : Out.busRead ((s.chan c).readAt j) 4 ∈ (s.readMade c j).out := by
  simp [State.readMade]

section
variable {s : State} {c : Fin 64} {t : Nat} {j : Job} (hs : ((s.at_ t).chan c).state = .run) (hj : ((s.at_ t).chan c).job = some j)
include hs hj

theorem exec_readReturn_held (h : (s.at_ t).inD0 = false ∨ (s.at_ t).isFenced 13 0 = true) (ok : Bool) :
    exec (.completionReadReturn c ok t) s = .next (s.at_ t) := by
  show execCompletionReadReturn c ok t s = _
  rw [execCompletionReadReturn]
  simp only [hs, hj]
  exact if_pos (by obtain h | h := h <;> simp [h])

variable (hu : j.cplUntil ≤ (s.at_ t).now) (h : (s.at_ t).readsBack c j)
include hu h

theorem exec_readReturn (ok : Bool) : exec (.completionReadReturn c ok t) s =
    if ok then .next (((s.at_ t).readMade c j).modChan c fun x =>
        if x.ordered j then { x.covered with job := some { j with cplTries := 0 } } else { x with job := some { j with cplDone := true } })
    else if j.cplTries < ((s.at_ t).chan c).cfg.retries c then
      .next (((s.at_ t).readMade c j).modChan c fun x => { x with
        retries := sat32 x.retries 1
        job := some { j with cplTries := j.cplTries + 1, retries := min 0xFFFF (j.retries + 1), cplUntil := (s.at_ t).now + 2 ^ j.cplTries * 1000 } })
    else .next (((s.at_ t).readMade c j).modChan c fun x => { x.failJob j 5 (x.readAt j) true with
        job := some { j with failed := some (j.failed.getD stBusError), cplDone := true } }) := by
  obtain ⟨hd0, hf, hw, hr⟩ := h
  show execCompletionReadReturn c ok t s = _
  rw [execCompletionReadReturn]
  simp only [hs, hj]
  rw [if_neg]
  · rfl
  · rw [hd0, hf, decide_eq_true hu]
    obtain hw | hw := hw <;> obtain hr | ⟨hm, hn, hd⟩ := hr <;> simp [*]
end

/-- A job that waits under ORDER has not begun, so it has not moved its bytes. -/
theorem Chan.not_ordered_of_moved {x : Chan} {j : Job} (h : j.moved = true) : x.ordered j = false := by
  cases hs : j.started <;> cases hf : j.failed <;> simp_all [Chan.ordered, Job.moved]

theorem completionRead_answers (s : State) (c : Fin 64) (t : Nat) (j : Job) : let s0 := s.at_ t
    (s0.chan c).state = .run → (s0.chan c).job = some j → j.cplUntil ≤ s0.now →
    (s0.inD0 = false ∨ s0.isFenced 13 0 = true → exec (.completionReadReturn c true t) s = .next s0) ∧
    (s0.inD0 = true → s0.isFenced 13 0 = false → (j.cplTries = 0 ∨ s0.writeOpen = true) → (s0.chan c).ordered j = true →
      ∃ u, exec (.completionReadReturn c true t) s = .next u ∧ (u.chan c).owedDescs = 0 ∧ (u.chan c).job = some { j with cplTries := 0 } ∧
        (u.chan c).descs = ((s0.chan c).descs + (s0.chan c).owedDescs) % 2 ^ 64 ∧ Out.busRead ((s0.chan c).readAt j) 4 ∈ u.out) ∧
    (s0.inD0 = true → s0.isFenced 13 0 = false → (j.cplTries = 0 ∨ s0.writeOpen = true) → j.moved = true → (s0.chan c).needsRead j = true → j.cplDone = false →
    (∃ u, exec (.completionReadReturn c true t) s = .next u ∧ (u.chan c).job = some { j with cplDone := true } ∧ Out.busRead ((s0.chan c).readAt j) 4 ∈ u.out) ∧
    (j.cplTries < (s0.chan c).cfg.retries c → ∃ u k, exec (.completionReadReturn c false t) s = .next u ∧ (u.chan c).job = some k ∧ k.cplDone = false ∧
      k.cplUntil = s0.now + 2 ^ j.cplTries * 1000) ∧
    ((s0.chan c).cfg.retries c ≤ j.cplTries → j.failed = none → ∃ u k, exec (.completionReadReturn c false t) s = .next u ∧ (u.chan c).job = some k ∧ k.failed = some 0x20)) := by
  intro s0 hs hj hu
  refine ⟨fun h => exec_readReturn_held hs hj h true, fun hd0 hf hw ho => ?_, fun hd0 hf hw hm hn hd => ?_⟩
  · refine ⟨_, (exec_readReturn hs hj hu ⟨hd0, hf, hw, .inl ho⟩ true).trans (if_pos rfl), ?_⟩
    rw [State.chan_modChan, State.readMade_chan, if_pos ho]
    exact ⟨rfl, rfl, rfl, State.readMade_out _ _ _⟩
  · have hback : s0.readsBack c j := ⟨hd0, hf, hw, .inr ⟨hm, hn, hd⟩⟩
    refine ⟨⟨_, (exec_readReturn hs hj hu hback true).trans (if_pos rfl), ?_⟩, fun htries => ?_, fun htries hl => ?_⟩
    · rw [State.chan_modChan, State.readMade_chan, if_neg (by simp [Chan.not_ordered_of_moved hm])]
      exact ⟨rfl, State.readMade_out _ _ _⟩
    · refine ⟨_, _, (exec_readReturn hs hj hu hback false).trans ((if_neg Bool.false_ne_true).trans (if_pos htries)),
        congrArg Chan.job (State.chan_modChan _ _ _), hd, rfl⟩
    · refine ⟨_, _, (exec_readReturn hs hj hu hback false).trans ((if_neg Bool.false_ne_true).trans (if_neg (Nat.not_lt.mpr htries))),
        congrArg Chan.job (State.chan_modChan _ _ _), by rw [hl]; rfl⟩

/-! ### Shares and BAR2 (R363, R371, R378, R427) -/

theorem Router.apply_refused {r : Router} {p : List Nat} (hp : r.pending = some p) (h : 64 < p.foldl (· + ·) 0) :
    r.apply = { r with qosErr := true, pending := none } := by
  rw [Router.apply, hp]
  exact if_neg (Nat.not_le.mpr h)

theorem Router.apply_taken {r : Router} {p : List Nat} (hp : r.pending = some p) (h : p.foldl (· + ·) 0 ≤ 64) :
    r.apply = { r with shares := p, pending := none } := by
  rw [Router.apply, hp]
  exact if_pos h

theorem State.router_modRouter_ne (s : State) {k i : Nat} (f : Router → Router) (h : i ≠ k) : (s.modRouter k f).router i = s.router i := tget_tmod_ne _ _ _ h

theorem shares_answer (s : State) (k : Fin 16) : ((s.router k).pending = none → ∃ u, exec (.netShareApply k) s = .next u ∧ u.router k = s.router k) ∧
    ∀ p, (s.router k).pending = some p → ∃ u, exec (.netShareApply k) s = .next u ∧ (u.router k).pending = none ∧
      (p.foldl (· + ·) 0 ≤ 64 → (u.router k).shares = p) ∧ (64 < p.foldl (· + ·) 0 → (u.router k).shares = (s.router k).shares ∧ (u.router k).qosErr = true) := by
  have hexec : exec (.netShareApply k) s = .next (s.modRouter k Router.apply) := rfl
  have hk := s.router_modRouter k Router.apply
  refine ⟨fun hn => ⟨_, hexec, ?_⟩, fun p hp => ⟨_, hexec, ?_⟩⟩
  · rw [hk, Router.apply, hn]
  · rw [hk]
    obtain h | h := Nat.lt_or_ge 64 (p.foldl (· + ·) 0)
    · rw [Router.apply_refused hp h]
      exact ⟨rfl, fun hle => absurd hle (Nat.not_le.mpr h), fun _ => ⟨rfl, rfl⟩⟩
    · rw [Router.apply_taken hp h]
      exact ⟨rfl, fun _ => rfl, fun hlt => absurd hlt (Nat.not_lt.mpr h)⟩

/-! ### ECC (R366, R369) -/

/-- A marked word as its read finds it (R366). -/
def State.eccWord (r : Bool × State) (w : Nat × EccMark) : Bool × State :=
  let c := r.2.stackOf (w.1 * 8)
  match w.2 with
  | .single => (r.1, (r.2.modMem fun m => { m with ecc := tset .good w.1 .good m.ecc }).modHbmCtl c fun x => { x with corr := sat32 x.corr 1 })
  | .poisoned =>
    let t := r.2.modHbmCtl c fun x => { x with uncorr := sat32 x.uncorr 1, errAddr := w.1 * 8 }
    (true, t.detectError 10 (hbmPlace t.present.pchans (w.1 * 8)).1 1 (w.1 * 8) false)
  | .good => r

theorem State.eccWords_eq (s : State) (p : Nat → Bool) : s.eccWords p = (s.mem.ecc.filter fun w => p w.1).foldl State.eccWord (false, s) := rfl

/-- A word's read makes it good, or leaves every mark. -/
theorem State.eccWord_ecc (r : Bool × State) (w : Nat × EccMark) :
    (State.eccWord r w).2.mem.ecc = r.2.mem.ecc ∨ (State.eccWord r w).2.mem.ecc = tset .good w.1 .good r.2.mem.ecc := by
  obtain ⟨k, v⟩ := w
  cases v with
  | good => exact .inl rfl
  | single => exact .inr rfl
  | poisoned => exact .inl ((Mem.fed_ecc (State.detectError_fed _ _ _ _ _ _)).trans rfl)

theorem State.eccWord_passes (r : Bool × State) (w : Nat × EccMark) (c : Nat) : ((State.eccWord r w).2.hbmCtl c).passes = (r.2.hbmCtl c).passes := by
  have hmod : ∀ (t : State) k f, (∀ x, (f x : HbmCtl).passes = x.passes) → ((t.modHbmCtl k f).hbmCtl c).passes = (t.hbmCtl c).passes := fun t k f hf => by
    by_cases h : c = k
    · subst h
      exact (congrArg HbmCtl.passes (tget_tmod_same _ _ _ _)).trans (hf _)
    · exact congrArg HbmCtl.passes (tget_tmod_ne _ _ _ h)
  obtain ⟨k, v⟩ := w
  cases v with
  | good => rfl
  | single => exact hmod _ _ _ fun _ => rfl
  | poisoned =>
    refine Eq.trans ?_ (hmod r.2 (r.2.stackOf (k * 8)) (fun x => { x with uncorr := sat32 x.uncorr 1, errAddr := k * 8 }) fun _ => rfl)
    exact congrArg (fun t => (tget {} t c).passes) (Mem.fed_hbmc (State.detectError_fed _ _ _ _ _ _))

theorem State.eccWords_passes (s : State) (p : Nat → Bool) (c : Nat) : ((s.eccWords p).2.hbmCtl c).passes = (s.hbmCtl c).passes :=
  List.foldlRecOn (motive := fun r : Bool × State => (r.2.hbmCtl c).passes = (s.hbmCtl c).passes) _ State.eccWord rfl fun r hr w _ =>
    (State.eccWord_passes r w c).trans hr

/-- A word that is good or has one wrong bit. -/
def State.sound (s : State) (w : Nat) : Prop := tget .good s.mem.ecc w = .single ∨ tget .good s.mem.ecc w = .good

theorem State.eccWord_good {r : Bool × State} {w : Nat} (x : Nat × EccMark) (h : tget .good r.2.mem.ecc w = .good) :
    tget .good (State.eccWord r x).2.mem.ecc w = .good := by
  obtain hsame | hset := State.eccWord_ecc r x
  · rw [hsame, h]
  · rw [hset]
    by_cases hw : w = x.1
    · rw [hw, tget_tset_same]
    · rw [tget_tset_ne _ _ _ hw, h]

theorem State.eccWord_sound {r : Bool × State} {w : Nat} (x : Nat × EccMark) (h : r.2.sound w) : (State.eccWord r x).2.sound w := by
  obtain h | h := h
  · obtain hsame | hset := State.eccWord_ecc r x
    · exact .inl (hsame ▸ h)
    · by_cases hw : w = x.1
      · exact .inr (by rw [hset, hw, tget_tset_same])
      · exact .inl (by rw [hset, tget_tset_ne _ _ _ hw, h])
  · exact .inr (State.eccWord_good x h)

theorem State.eccWords_good {s : State} {w : Nat} (p : Nat → Bool) (h : tget .good s.mem.ecc w = .good) : tget .good (s.eccWords p).2.mem.ecc w = .good :=
  List.foldlRecOn (motive := fun r : Bool × State => tget .good r.2.mem.ecc w = .good) _ State.eccWord h fun _ hr x _ => State.eccWord_good x hr

theorem State.eccWords_sound {s : State} {w : Nat} (p : Nat → Bool) (h : s.sound w) : (s.eccWords p).2.sound w :=
  List.foldlRecOn (motive := fun r : Bool × State => r.2.sound w) _ State.eccWord h fun _ hr x _ => State.eccWord_sound x hr

theorem mem_of_mark {t : Tab EccMark} {w : Nat} (h : tget .good t w = .single) : (w, .single) ∈ t := by
  have hmem := mem_of_tget_ne (d := EccMark.good) (t := t) (k := w) (by rw [h]; decide)
  rwa [h] at hmem

/-- A read of a sound word leaves it good. -/
theorem State.eccWords_corrects {s : State} {w : Nat} {p : Nat → Bool} (hp : p w = true) (h : s.sound w) :
    tget .good (s.eccWords p).2.mem.ecc w = .good := by
  obtain h | h := h
  · have hmem : (w, EccMark.single) ∈ s.mem.ecc.filter fun x => p x.1 := List.mem_filter.mpr ⟨mem_of_mark h, hp⟩
    refine foldl_reaches (I := fun _ => True) (J := fun r : Bool × State => tget .good r.2.mem.ecc w = .good) (f := State.eccWord) hmem trivial
      (fun _ _ _ _ => trivial) (fun r x _ hr => State.eccWord_good x hr) fun r _ => ?_
    exact tget_tset_same EccMark.good w .good r.2.mem.ecc
  · exact State.eccWords_good p h

/-- The words that a patrol pass of a controller reads. -/
def State.scrubWords (s : State) (c : Nat) : List Nat :=
  ((s.mem.ecc.filter fun w => s.stackOf (w.1 * 8) == c && s.hbmOk (w.1 * 8) 8).map fun w => w.1).filter fun w => !s.memHeld [(.hbm, w * 8, 8)]

/-- The state after the reads of a patrol pass. -/
def State.scrubbed (s : State) (c : Nat) : State := (s.scrubWords c).foldl (fun t w => (t.eccRead (w * 8) 8).2) s

theorem State.scrubbed_passes (s : State) (c : Nat) : ((s.scrubbed c).hbmCtl c).passes = (s.hbmCtl c).passes :=
  List.foldlRecOn (motive := fun t : State => (t.hbmCtl c).passes = (s.hbmCtl c).passes) _ _ rfl fun t ht _ _ => (t.eccWords_passes _ c).trans ht

theorem State.scrubbed_hbm (s : State) (c : Nat) : (s.scrubbed c).mem.hbm = s.mem.hbm :=
  List.foldlRecOn (motive := fun t : State => t.mem.hbm = s.mem.hbm) _ _ rfl fun t ht _ _ => (congrArg (·.2.2) (t.eccWords_data _)).trans ht

theorem State.scrubbed_corrects {s : State} {c w : Nat} (hstack : s.stackOf (w * 8) = c) (hok : s.hbmOk (w * 8) 8 = true)
    (hheld : s.memHeld [(.hbm, w * 8, 8)] = false) (h : tget .good s.mem.ecc w = .single) : tget .good (s.scrubbed c).mem.ecc w = .good := by
  have hmem : w ∈ s.scrubWords c := by
    refine List.mem_filter.mpr ⟨List.mem_map.mpr ⟨(w, .single), List.mem_filter.mpr ⟨mem_of_mark h, ?_⟩, rfl⟩, by simp [hheld]⟩
    simp [hstack, hok]
  refine foldl_reaches (I := fun t : State => t.sound w) (J := fun t : State => tget .good t.mem.ecc w = .good) hmem (.inl h)
    (fun t y _ ht => State.eccWords_sound _ ht) (fun t y _ ht => State.eccWords_good _ ht) fun t ht => State.eccWords_corrects ?_ ht
  simp [wordMeets]

theorem scrub_answers (s : State) (c : Fin 8) (e : BusEnv) : let s0 := s.env e
    ((s0.hbmCtl c).period = 0 ∨ s0.domOff (26 + c.val) = true → exec (.hbmPatrolScrub c e) s = .next s0) ∧
    ((s0.hbmCtl c).period ≠ 0 → s0.domOff (26 + c.val) = false → ∃ u, exec (.hbmPatrolScrub c e) s = .next u ∧
      (u.hbmCtl c).passes = ((s0.hbmCtl c).passes + 1) % 2 ^ 32 ∧ u.mem.hbm = s0.mem.hbm ∧
      ∀ w, s0.stackOf (w * 8) = c.val → s0.hbmOk (w * 8) 8 = true → s0.memHeld [(.hbm, w * 8, 8)] = false → tget .good s0.mem.ecc w = .single → tget .good u.mem.ecc w = .good) := by
  intro s0
  refine ⟨fun h => congrArg Host.Outcome.next (if_pos (by simpa using h)), fun hp hd => ⟨_, congrArg Host.Outcome.next (if_neg (by simpa using ⟨hp, hd⟩)), ?_⟩⟩
  refine ⟨?_, s0.scrubbed_hbm c, fun w hstack hok hheld hsingle => State.scrubbed_corrects hstack hok hheld hsingle⟩
  have hmod := congrArg HbmCtl.passes (tget_tmod_same {} c.val (fun x : HbmCtl => { x with passes := (x.passes + 1) % 2 ^ 32 }) (s0.scrubbed c).mem.hbmc)
  exact hmod.trans (congrArg (fun n => (n + 1) % 2 ^ 32) (s0.scrubbed_passes c))

/-! ### BAR2 (R363, R366, R371, R427) -/

theorem State.eccWord_poisons (r : Bool × State) (w : Nat × EccMark) : (State.eccWord r w).1 = (r.1 || w.2 == .poisoned) := by
  obtain ⟨k, v⟩ := w
  cases v <;> simp [State.eccWord]

theorem State.eccRead_poisons (s : State) (a n : Nat) : (s.eccRead a n).1 = s.poisonAt a n := by
  have hfold : ∀ (l : List (Nat × EccMark)) r, (l.foldl State.eccWord r).1 = (r.1 || l.any fun w => w.2 == .poisoned) := fun l => by
    induction l with
    | nil => simp
    | cons w l ih => exact fun r => by rw [List.foldl_cons, ih, State.eccWord_poisons, List.any_cons, Bool.or_assoc]
  rw [State.eccRead, State.eccWords_eq, hfold, Bool.false_or, List.any_filter, State.poisonAt]
  exact congrArg (List.any _) (funext fun w => Bool.and_comm _ _)

theorem State.devTarget_of_bar2 {s : State} {off n : Nat} (h : s.bar2Ok off n = true) (hlow : off < 0x004800000000) :
    s.devTarget off n = some (.hbm, off) := by
  obtain ⟨⟨hok, -⟩, -⟩ : (s.hbmOk off n = true ∧ _) ∧ _ := by simpa [State.bar2Ok] using h
  rw [State.devTarget, if_pos hlow, if_pos hok]

@[simp] theorem State.eventMessage_unmapped (s : State) (v : Nat) : (s.eventMessage v).pci.unmapped = s.pci.unmapped := by
  unfold State.eventMessage State.sendMsix State.sendPme
  (repeat' split) <;> rfl
theorem State.postEvent_unmapped (s : State) (n : Nat) : (s.postEvent n).pci.unmapped = s.pci.unmapped := by
  unfold State.postEvent
  dsimp only
  split <;> simp

theorem State.unmapped_counts (s : State) (code : Nat) : (s.unmapped code).pci.unmapped = sat32 s.pci.unmapped 1 :=
  State.postEvent_unmapped _ _

theorem bar2Read_answers (s : State) (off len : Nat) (e : BusEnv) : let s0 := s.env e
    (s0.bar2Ok off len = true → s0.devHeld off len = true → exec (.bar2Read off len e) s = .next s0) ∧
    (s0.bar2Ok off len = true → s0.devHeld off len = false → off < 0x004800000000 → ∃ u, exec (.bar2Read off len e) s = .next u ∧ u.mem.hbm = s0.mem.hbm ∧
      (s0.poisonAt off len = false → Out.data (readBytes s0.mem.hbm off len) ∈ u.out) ∧ (s0.poisonAt off len = true → Out.poisoned (readBytes s0.mem.hbm off len) ∈ u.out)) ∧
    (s0.bar2Ok off len = false → ∃ u, exec (.bar2Read off len e) s = .next u ∧ u.pci.unmapped = sat32 s0.pci.unmapped 1 ∧ Out.unsupported off ∈ u.out ∧ u.mem.hbm = s0.mem.hbm) := by
  intro s0
  have hexec : exec (.bar2Read off len e) s = .next (if (s0.bar2Ok off len && s0.devHeld off len) = true then s0
      else if s0.bar2Ok off len = true then
        (s0.devRead off len).2.2.emit (if (s0.devRead off len).2.1 then .poisoned (s0.devRead off len).1 else .data (s0.devRead off len).1)
      else (s0.unmapped 1).emit (.unsupported off)) := rfl
  rw [hexec]
  refine ⟨fun hok hheld => by rw [if_pos (by simp [hok, hheld])], fun hok hheld hlow => ⟨_, by rw [if_neg (by simp [hheld]), if_pos hok], ?_⟩,
    fun hok => ⟨_, by rw [if_neg (by simp [hok]), if_neg (by simp [hok])], ?_⟩⟩
  · have hread : s0.devRead off len = (readBytes s0.mem.hbm off len, s0.poisonAt off len, (s0.eccRead off len).2.countHbm false off len) := by
      rw [State.devRead, State.devTarget_of_bar2 hok hlow, ← State.eccRead_poisons]
    have hhbm : (s0.devRead off len).2.2.mem.hbm = s0.mem.hbm := congrArg (·.2.2) (s0.devRead_data off len)
    refine ⟨hhbm, fun hp => ?_, fun hp => ?_⟩ <;> simp [hread, hp]
  · refine ⟨s0.unmapped_counts 1, by simp, congrArg (·.2.2) (s0.unmapped_data 1)⟩

theorem bar2Write_answers (s : State) (off : Nat) (bs : Bytes) :
    (s.bar2Ok off bs.length = true → s.devHeld off bs.length = false → off < 0x004800000000 → ∃ u, exec (.bar2Write off bs) s = .next u ∧ readBytes u.mem.hbm off bs.length = bs ∧
      ∀ a, (a < off ∨ off + bs.length ≤ a) → readByte u.mem.hbm a = readByte s.mem.hbm a) ∧
    (s.bar2Ok off bs.length = false → ∃ u, exec (.bar2Write off bs) s = .next u ∧ u.mem.hbm = s.mem.hbm ∧ u.pci.unmapped = sat32 s.pci.unmapped 1) := by
  have hexec : exec (.bar2Write off bs) s = .next (if (s.bar2Ok off bs.length && s.devHeld off bs.length) = true then s
      else if s.bar2Ok off bs.length = true then s.devWrite off bs else s.unmapped 1) := rfl
  rw [hexec]
  refine ⟨fun hok hheld hlow => ⟨_, by rw [if_neg (by simp [hheld]), if_pos hok], ?_⟩,
    fun hok => ⟨_, by rw [if_neg (by simp [hok]), if_neg (by simp [hok])], congrArg (·.2.2) (s.unmapped_data 1), s.unmapped_counts 1⟩⟩
  rw [State.devWrite_hbm (State.devTarget_of_bar2 hok hlow)]
  exact ⟨readBytes_writeBytes _ _ _, fun a ha => readByte_writeBytes_outside _ _ _ _ ha⟩

/-! ### Flits (R372 to R377, R379) -/

/-- What a router holds and has sent: what a credit that comes back leaves. -/
def Router.load (r : Router) : Tab (List Flit) × Tab (List (Nat × Nat)) × Nat × List (Nat × Nat × Bytes) × Tab Bytes :=
  (r.held, r.sent, r.flits, r.packets, r.rx)

theorem State.modRouter_load {f : Router → Router} (hf : ∀ r, (f r).load = r.load) (s : State) (k i : Nat) :
    ((s.modRouter k f).router i).load = (s.router i).load := by
  by_cases h : i = k
  · rw [h, State.router_modRouter, hf]
  · rw [State.router_modRouter_ne _ _ h]

/-- A credit that goes back upstream. -/
def State.creditBack (s : State) (k : Nat) (c : Cand) (cyc : Nat) : State :=
  match neighbour k c.port with
  | some u => s.modRouter u fun r => r.giveBack (opposite c.port) c.cls cyc
  | none => s

theorem State.creditBack_load (s : State) (k : Nat) (c : Cand) (cyc i : Nat) : ((s.creditBack k c cyc).router i).load = (s.router i).load := by
  unfold State.creditBack
  split
  · exact State.modRouter_load (fun _ => by rfl) _ _ _
  · rfl

/-- A flit leaves a router by a port. -/
def Router.send (r : Router) (out cyc : Nat) (c : Cand) : Router :=
  { r with
    held := tmod [] (3 * c.port + c.cls) List.tail r.held
    used := if out == 4 then r.used else tmod 0 (3 * out + c.cls) (· + 1) r.used
    link := if out == 4 then r.link else tmod [] out (fun l => l ++ [c.flit]) r.link
    sent := tmod [] out (fun l => (cyc, c.tq) :: l.filter fun x => decide (cyc < x.1 + 64)) r.sent
    flits := (r.flits + 1) % 2 ^ 64 }

theorem Router.send_sent (r : Router) (out cyc : Nat) (c : Cand) :
    (r.send out cyc c).sent = tmod [] out (fun l => (cyc, c.tq) :: l.filter fun x => decide (cyc < x.1 + 64)) r.sent := rfl
theorem Router.deliver_sent (r : Router) (f : Flit) : (r.deliver f).sent = r.sent := rfl

/-- A port's stall, where a head flit had no credit. -/
def State.stalled (s : State) (k out cyc : Nat) : State :=
  if (((s.router k).heads out).filter fun c => (s.router k).credit out c.cls cyc).length < ((s.router k).heads out).length then
    s.modRouter k fun r => { r with stall := sat32 r.stall 1 }
  else s

theorem State.stalled_load (s : State) (k out cyc i : Nat) : ((s.stalled k out cyc).router i).load = (s.router i).load := by
  unfold State.stalled
  split
  · exact State.modRouter_load (fun _ => by rfl) _ _ _
  · rfl

/-- A router's port either does nothing, or counts a stall, or sends the flit that it picks. -/
theorem State.portCycle_cases (s : State) (k cyc out : Nat) :
    s.portCycle k cyc out = s ∨ s.portCycle k cyc out = s.stalled k out cyc ∨ ∃ c,
      s.portCycle k cyc out = (if out == 4 then ((s.stalled k out cyc).modRouter k fun r => r.send out cyc c).modRouter k fun r => r.deliver c.flit
        else (s.stalled k out cyc).modRouter k fun r => r.send out cyc c).creditBack k c cyc := by
  by_cases h : (((tget [] (s.router k).sent out).head?.map fun x => x.1) == some cyc || s.isFenced 9 k) = true
  · exact .inl (if_pos h)
  · refine .inr ?_
    unfold State.portCycle
    dsimp only
    rw [if_neg h]
    cases (s.router k).pick out cyc (((s.router k).heads out).filter fun c => (s.router k).credit out c.cls cyc) with
    | none => exact .inl rfl
    | some c => exact .inr ⟨c, rfl⟩

theorem State.portCycle_load_ne (s : State) {k i : Nat} (cyc out : Nat) (h : i ≠ k) : ((s.portCycle k cyc out).router i).load = (s.router i).load := by
  obtain hsame | hstall | ⟨c, hsend⟩ := s.portCycle_cases k cyc out
  · rw [hsame]
  · rw [hstall, State.stalled_load]
  · rw [hsend, State.creditBack_load]
    split
    · rw [State.router_modRouter_ne _ _ h, State.router_modRouter_ne _ _ h, State.stalled_load]
    · rw [State.router_modRouter_ne _ _ h, State.stalled_load]

theorem State.portCycle_err (s : State) (k cyc out : Nat) : (s.portCycle k cyc out).err = s.err := by
  have h := s.portCycle_fabricOnly k cyc out
  unfold FabricOnly at h
  rw [h]

/-- A port without a head flit does nothing. -/
theorem State.portCycle_idle {s : State} {k out : Nat} (h : (s.router k).heads out = []) (cyc : Nat) : s.portCycle k cyc out = s := by
  simp [State.portCycle, h, Router.pick]

theorem Router.pick_single (r : Router) (out cyc : Nat) (c : Cand) : r.pick out cyc [c] = some c := by
  unfold Router.pick
  cases hc : c.cls == 0
  · by_cases hs : r.sentCount out c.tq cyc < r.share c.tq <;> simp [hc, hs]
  · simp [hc]

/-- A router that holds one flit, which is to leave for its units. -/
def Router.holdsOne (r0 r : Router) (key : Nat) (f : Flit) : Prop := r.load = ([(key, [f])], [], r0.flits, r0.packets, r0.rx)

/-- A router whose one flit has left for its units. -/
def Router.tookOne (r0 r : Router) (f : Flit) (cyc : Nat) : Prop :=
  r.held = [] ∧ r.flits = (r0.flits + 1) % 2 ^ 64 ∧ tget [] r.sent 4 = [(cyc, f.tq)] ∧
    (f.num = f.last → r.packets = (f.cls, f.tq, tget [] r0.rx f.pkt ++ f.payload) :: r0.packets)

theorem Router.tookOne_of_load {r0 r r' : Router} {f : Flit} {cyc : Nat} (h : r'.load = r.load) (hr : r0.tookOne r f cyc) : r0.tookOne r' f cyc := by
  simp only [Router.load, Prod.mk.injEq] at h
  obtain ⟨hheld, hsent, hflits, hpackets, -⟩ := h
  unfold Router.tookOne
  rwa [hheld, hsent, hflits, hpackets]

theorem Router.heads_of_holdsOne {r0 r : Router} {key : Nat} {f : Flit} (h : r0.holdsOne r key f) (out : Nat) :
    r.heads out = if f.out == out then [{ port := key / 3, cls := key % 3, tq := f.tq, flit := f }] else [] := by
  simp only [Router.holdsOne, Router.load, Prod.mk.injEq] at h
  by_cases ho : f.out = out <;> simp [Router.heads, h.1, ho]

theorem Router.tookOne_send {r0 r : Router} {key : Nat} {f : Flit} (h : r0.holdsOne r key f) (cyc : Nat) :
    r0.tookOne ((r.send 4 cyc { port := key / 3, cls := key % 3, tq := f.tq, flit := f }).deliver f) f cyc := by
  simp only [Router.holdsOne, Router.load, Prod.mk.injEq] at h
  obtain ⟨hheld, hsent, hflits, hpackets, hrx⟩ := h
  refine ⟨?_, ?_, ?_, fun hlast => ?_⟩
  · show tmod [] (3 * (key / 3) + key % 3) List.tail r.held = []
    rw [Nat.div_add_mod, hheld]
    simp [tmod, tset, tget]
  · show (r.flits + 1) % 2 ^ 64 = _
    rw [hflits]
  · rw [Router.deliver_sent, Router.send_sent, tget_tmod_same, hsent]
    rfl
  · show (if f.num == f.last then (f.cls, f.tq, tget [] r.rx f.pkt ++ f.payload) :: r.packets else r.packets) = _
    rw [if_pos (by simpa using hlast), hpackets, hrx]

section
variable {s : State} {k key cyc : Nat} {f : Flit} {r0 : Router}

theorem State.portCycle_takes (h : r0.holdsOne (s.router k) key f) (hf : f.out = 4) (hlive : s.isFenced 9 k = false) :
    r0.tookOne ((s.portCycle k cyc 4).router k) f cyc := by
  have hheads := Router.heads_of_holdsOne h 4
  rw [if_pos (by simp [hf])] at hheads
  have hsent : (s.router k).sent = [] := by
    simp only [Router.holdsOne, Router.load, Prod.mk.injEq] at h
    exact h.2.1
  have hcycle : s.portCycle k cyc 4 = (((s.modRouter k fun r => r.send 4 cyc { port := key / 3, cls := key % 3, tq := f.tq, flit := f }).modRouter k
      fun r => r.deliver f).creditBack k { port := key / 3, cls := key % 3, tq := f.tq, flit := f } cyc) := by
    unfold State.portCycle
    rw [if_neg (by simp [hsent, hlive])]
    simp [hheads, Router.credit, Router.pick_single]
    rfl
  rw [hcycle]
  refine Router.tookOne_of_load (State.creditBack_load _ _ _ _ _) ?_
  rw [State.router_modRouter, State.router_modRouter]
  exact Router.tookOne_send h cyc

/-- A router under way: it holds the flit, or the flit has left. -/
def State.underWay (s : State) (k key : Nat) (f : Flit) (r0 : Router) (cyc : Nat) : Prop :=
  s.isFenced 9 k = false ∧ (r0.holdsOne (s.router k) key f ∨ r0.tookOne (s.router k) f cyc)

theorem Router.heads_of_tookOne {r : Router} (h : r0.tookOne r f cyc) (out : Nat) : r.heads out = [] := by
  obtain ⟨hheld, -⟩ := h
  rw [Router.heads, hheld]
  rfl

theorem State.portCycle_took {t : State} (h : r0.tookOne (t.router k) f cyc) (j out : Nat) : r0.tookOne ((t.portCycle j cyc out).router k) f cyc := by
  by_cases hj : k = j
  · subst hj
    rwa [State.portCycle_idle (Router.heads_of_tookOne h out)]
  · exact Router.tookOne_of_load (t.portCycle_load_ne cyc out hj) h

theorem State.portCycle_underWay {t : State} (hf : f.out = 4) (h : t.underWay k key f r0 cyc) (j out : Nat) :
    (t.portCycle j cyc out).underWay k key f r0 cyc := by
  obtain ⟨hlive, hhold | htook⟩ := h
  · refine ⟨by rw [State.isFenced, State.portCycle_err]; exact hlive, ?_⟩
    by_cases hj : k = j
    · subst hj
      by_cases ho : out = 4
      · subst ho
        exact .inr (State.portCycle_takes hhold hf hlive)
      · left
        rwa [State.portCycle_idle (by rw [Router.heads_of_holdsOne hhold, if_neg (by simpa [hf] using Ne.symm ho)])]
    · exact .inl ((t.portCycle_load_ne cyc out hj).trans hhold)
  · exact ⟨by rw [State.isFenced, State.portCycle_err]; exact hlive, .inr (State.portCycle_took htook j out)⟩

/-- The cycle of one router's ports. -/
def State.routerCycle (s : State) (k cyc : Nat) : State := (List.range 5).foldl (fun u o => u.portCycle k cyc o) s

theorem State.routerCycle_underWay {t : State} (hf : f.out = 4) (h : t.underWay k key f r0 cyc) (j : Nat) :
    (t.routerCycle j cyc).underWay k key f r0 cyc :=
  List.foldlRecOn (motive := fun u : State => u.underWay k key f r0 cyc) _ _ h fun _ hu o _ => State.portCycle_underWay hf hu j o

theorem State.routerCycle_took {t : State} (h : r0.tookOne (t.router k) f cyc) (j : Nat) : r0.tookOne ((t.routerCycle j cyc).router k) f cyc :=
  List.foldlRecOn (motive := fun u : State => r0.tookOne (u.router k) f cyc) _ _ h fun _ hu o _ => State.portCycle_took hu j o

/-- A router's own cycle lets the flit go. -/
theorem State.routerCycle_takes {t : State} (hf : f.out = 4) (h : t.underWay k key f r0 cyc) : r0.tookOne ((t.routerCycle k cyc).router k) f cyc := by
  refine foldl_reaches (I := fun u : State => u.underWay k key f r0 cyc) (J := fun u : State => r0.tookOne (u.router k) f cyc) (b := 4) (by decide) h
    (fun u o _ hu => State.portCycle_underWay hf hu k o) (fun u o _ hu => State.portCycle_took hu k o) fun u hu => ?_
  obtain ⟨hlive, hhold | htook⟩ := hu
  · exact State.portCycle_takes hhold hf hlive
  · exact State.portCycle_took htook k 4

/-- A router that holds a flit runs its cycle. -/
theorem State.netBusy_of_holdsOne (h : r0.holdsOne (s.router k) key f) : k ∈ s.netBusy := by
  simp only [Router.holdsOne, Router.load, Prod.mk.injEq] at h
  have hmem : (k, s.router k) ∈ s.mem.routers := mem_of_tget_ne (d := ({} : Router)) fun hdefault => by
    have hheld := h.1
    rw [State.router, hdefault] at hheld
    contradiction
  exact List.mem_map.mpr ⟨_, List.mem_filter.mpr ⟨hmem, by simp [h.1]⟩, rfl⟩

theorem State.fabricCycle_takes (hf : f.out = 4) (hlive : s.isFenced 9 k = false) (h : r0.holdsOne (s.router k) key f) :
    r0.tookOne ((s.fabricCycle cyc).router k) f cyc :=
  foldl_reaches (I := fun u : State => u.underWay k key f r0 cyc) (J := fun u : State => r0.tookOne (u.router k) f cyc)
    (State.netBusy_of_holdsOne h) (a := s.modMem fun m => { m with netCyc := max m.netCyc cyc }) ⟨hlive, .inl h⟩
    (fun _ j _ hu => State.routerCycle_underWay hf hu j) (fun _ j _ hu => State.routerCycle_took hu j) fun _ hu => State.routerCycle_takes hf hu
end

theorem State.linkTaken_load (s : State) (k port i : Nat) : ((s.linkTaken k port).router i).load = (s.router i).load := by
  unfold State.linkTaken
  split
  · split
    · rfl
    · exact State.modRouter_load (fun _ => by rfl) _ _ _
  · rfl

theorem State.linkTaken_err (s : State) (k port : Nat) : (s.linkTaken k port).err = s.err := by
  unfold State.linkTaken
  (repeat' split) <;> rfl

/-- A good flit joins those that an input port holds. -/
def State.received (s : State) (k port : Nat) (x : Flit) (asks : Nat) : State :=
  (s.linkTaken k port).modRouter k fun r => { r with
    replays := tset 0 port 0 r.replays, reserved := r.reserved + asks
    held := tmod [] (3 * port + x.cls) (fun l => l ++ [{ x with out := routePort k x.dst }]) r.held }

theorem classDepth_pos (cls : Nat) : 0 < classDepth cls := by
  unfold classDepth
  split <;> decide

theorem flits_answer (s : State) (k : Fin 16) (port : Fin 5) (cls : Fin 3) (tq : Fin 8) (f : FlitIn) (cyc : Nat) : let r := s.router k
    let n := tget 0 r.replays port.val + 1
    let x := s.arriving k port cls tq f
    (n ≤ 16 → ∃ u, exec (.netenFlitReceive k port cls tq f false cyc) s = .next u ∧ (u.router k).retry = sat32 r.retry 1 ∧ tget 0 (u.router k).replays port.val = n ∧
      (u.router k).held = r.held) ∧
    (classDepth x.cls ≤ (tget [] r.held (3 * port + x.cls)).length → exec (.netenFlitReceive k port cls tq f true cyc) s = .next s) ∧
    (r.held = [] → r.sent = [] → s.isFenced 9 k = false → x.cls < 3 → x.dst = k.val → f.resp = 0 → ∃ u, exec (.netenFlitReceive k port cls tq f true cyc) s = .next u ∧
      (u.router k).held = [] ∧ (u.router k).flits = (r.flits + 1) % 2 ^ 64 ∧ tget [] (u.router k).sent 4 = [(cyc, x.tq)] ∧
      (x.num = x.last → (u.router k).packets = (x.cls, x.tq, tget [] r.rx x.pkt ++ x.payload) :: r.packets)) := by
  intro r n x
  refine ⟨fun hn => ?_, fun hfull => ?_, fun hheld hsent hlive hcls hdst hresp => ?_⟩
  · have hexec : exec (.netenFlitReceive k port cls tq f false cyc) s = .next (s.modRouter k fun r =>
        { r with retry := sat32 r.retry 1, replays := tset 0 port.val (if 16 < n then 0 else n) r.replays }) :=
      congrArg Host.Outcome.next (if_neg (Nat.not_lt.mpr hn))
    refine ⟨_, hexec, ?_⟩
    rw [State.router_modRouter, if_neg (Nat.not_lt.mpr hn)]
    exact ⟨rfl, tget_tset_same 0 port.val n r.replays, rfl⟩
  · exact if_pos (by rw [decide_eq_true hfull]; rfl)
  · have hexec : exec (.netenFlitReceive k port cls tq f true cyc) s = .next ((s.received k port x 0).fabricCycle cyc) := by
      have hasks : (if port.val == 4 && cls.val == 1 then f.resp.val else 0) = 0 := by simp [hresp]
      have hroom : ¬ classDepth x.cls ≤ (tget [] r.held (3 * port + x.cls)).length := by
        rw [hheld]
        exact Nat.not_le.mpr (classDepth_pos _)
      show execNetenFlitReceive k port cls tq f true cyc s = _
      unfold execNetenFlitReceive
      dsimp only
      rw [if_neg (by decide), hasks, if_neg (by simpa using hroom)]
      rfl
    have hload := s.linkTaken_load k port k
    simp only [Router.load, Prod.mk.injEq] at hload
    obtain ⟨hheld', hsent', hflits', hpackets', hrx'⟩ := hload
    have hholds : r.holdsOne ((s.received k port x 0).router k) (3 * port + x.cls) { x with out := 4 } := by
      rw [State.received, State.router_modRouter]
      simp only [Router.holdsOne, Router.load, hheld', hsent', hflits', hpackets', hrx', Prod.mk.injEq]
      refine ⟨?_, hsent, rfl, rfl, rfl⟩
      have hroute : routePort k x.dst = 4 := by rw [hdst]; exact (routePort_local k k).mpr rfl
      rw [show (s.router k).held = [] from hheld, hroute]
      rfl
    refine ⟨_, hexec, ?_⟩
    exact State.fabricCycle_takes (f := { x with out := 4 }) rfl (by rw [State.isFenced, State.received, State.modRouter_err, State.linkTaken_err]; exact hlive) hholds

/-- Settles O51, a clause for each command; `Mem.fed` and `Chan.core` say what a post leaves, `Router.load` what a credit leaves. -/
theorem burstsAndFabricMoveData : Obligations.BurstsAndFabricMoveData :=
  ⟨burstLen_bounds, nextChan_serves, burstIssue_answers, burstResponse_answers, burstRetry_answers, completionRead_answers, scrub_answers, flits_answer,
    routePort_local, shares_answer, bar2Read_answers, bar2Write_answers⟩

end Sys2Proof.Machine
end
